-- ==== Sys2Proof/Word.lean ====
section
/-! DEFINITION. The word types of the model and its two plain containers: a table keyed by numbers and a byte
memory, both lists in one canonical form. -/

namespace Sys2Proof

/-- One byte. -/
abbrev Byte := BitVec 8

/-- One control-space register (R15). -/
abbrev Word := BitVec 32

/-- One doorbell, scalar register or instruction word (R18, R102, R105). -/
abbrev Word64 := BitVec 64

/-- A table from numbers to values: keys strictly rising, one entry a key. -/
abbrev Tab (α : Type) := List (Nat × α)

/-- A byte memory: addresses strictly rising, no entry zero; an address that is not listed reads zero. -/
abbrev Mem := List Host.Cell

end Sys2Proof
end

