-- ==== Sys2Proof/Syntax.lean ====
section
/-! DEFINITION. The commands: one constructor for each row of the table of operations and events, with the operands
that the row's rule gives it, and the data types of those operands. -/

namespace Sys2Proof

/-- The units that reserve current (R45); `brick` carries a logical index, the others their die and number. `lanes` stands for the
lanes of a die that a communicator's collective asks for together (R312). -/
inductive UnitId where
  | brick (b : Nat)
  | prefetch (d : Nat)
  | pesyn (i e : Nat)
  | lane (i l : Nat)
  | lanes (i comm : Nat)
  | cipher (i : Nat)
  | hostDma (i : Nat)
  | ddr5 (c : Nat)
  | mover
  | iodCipher
  | imageCheck
  deriving DecidableEq, Repr, Inhabited

/-- A comparison. -/
inductive Cmp where
  | eq | ne | lt | ge | ltu | geu
  deriving DecidableEq, Repr, Inhabited

/-- The scalar operations that R105 names; `undefined` stands for an OP that the class does not define (R107). -/
inductive ScalarOp where
  | add | sub | mul | and | or | xor | shl | shr | sar
  | compare (c : Cmp)
  | movi | load | store
  | undefined
  deriving DecidableEq, Repr, Inhabited

/-- The branch operations that R105 names. -/
inductive BranchOp where
  | jump | branch | call | ret | loop
  | undefined
  deriving DecidableEq, Repr, Inhabited

/-- The vector operations that R86 and R105 name; `imm` makes IMM, broadcast to all lanes, the second operand. -/
inductive VecFn where
  | add | sub | mul | fma | min | max
  | compare (c : Cmp)
  | select
  | iadd | isub | imul | imin | imax
  | icompare (c : Cmp)
  | and | or | xor | not
  | toInt | toFloat
  | undefined
  deriving DecidableEq, Repr, Inhabited

/-- A vector operation and whether IMM replaces SRC2. -/
structure VectorOp where
  fn  : VecFn
  imm : Bool
  deriving DecidableEq, Repr, Inhabited

/-- Vector memory operations (R85). -/
inductive VMemOp where
  | load | store | undefined
  deriving DecidableEq, Repr, Inhabited

/-- Vector special operations (R87). -/
inductive VSpecOp where
  | div | sqrt | recip | rsqrt | exp2 | log2 | sum | max | min | undefined
  deriving DecidableEq, Repr, Inhabited

/-- Where a codeword lies: the memory that holds it and its place there (R144). Scratch places are keyed by the
context on a brick, basin places by die; `sram` is any other on-die SRAM of a die; `dev` is a device physical address. -/
inductive Place where
  | scratch (b off : Nat)
  | basin (d off : Nat)
  | sram (d off : Nat)
  | dev (addr : Nat)
  deriving DecidableEq, Repr, Inhabited

/-- What a read of a codeword finds (R145, R146); row and symbol say where in its pseudo-channel an HBM4 codeword is bad. -/
inductive Finding where
  | clean
  | corrected (row symbol : Nat)
  | uncorrectable
  deriving DecidableEq, Repr, Inhabited

/-- Why a pseudo-channel is retired without a command (R153). -/
inductive RetireCause where
  | noSpareRow | twoUncorrectable | interfaceCheck
  deriving DecidableEq, Repr, Inhabited

/-- The engines that translate (R164). -/
inductive Eng where
  | fetch (b : Nat)
  | brick (b : Nat)
  | pesyn (i e : Nat)
  | coll (i q : Nat)
  | hostDma (i : Nat)
  | reg
  | aperture (n : Nat)
  deriving DecidableEq, Repr, Inhabited

/-- Read, write or fetch. -/
inductive Kind where
  | read | write | fetch
  deriving DecidableEq, Repr, Inhabited

/-- A Pesyn packet that arrives at a fabric die: who its IP source address names, its 64-byte header, what follows the header on the
wire (its payload, or with ENC set the ciphertext and the tag), whether it is marked CE, and the receive buffer (port, priority, bytes)
that it leaves. -/
structure RxPkt where
  die     : Nat
  srcNode : Nat
  srcDie  : Nat
  hdr     : List Byte
  payload : List Byte
  ce      : Bool
  buf     : Option (Nat × Nat × Nat)
  deriving DecidableEq, Repr, Inhabited

/-- A frame that arrives at a port (R262, R344, R345): its length, destination address and fields. `ip` holds version,
DSCP and ECN of an IP frame; `ipOk` says that EtherType, options, fragment and next header pass R262; `macCtrl` is the opcode, the
enable vector and the quanta of a MAC control frame. -/
structure RxFrame where
  fcsOk   : Bool
  length  : Nat
  dst     : Nat
  pcp     : Option Nat
  ip      : Option (Nat × Nat × Nat)
  ipOk    : Bool
  dstIp   : Nat
  udpPort : Nat
  sumOk   : Bool
  macCtrl : Option (Nat × Nat × List Nat)
  deriving DecidableEq, Repr, Inhabited

/-- Why the host link is lost (R385). -/
inductive LossCause where
  | fundamentalReset | hotReset | pcieDown | pfReset
  deriving DecidableEq, Repr, Inhabited

/-- How the host answers a read of its memory (R379, R380, R536). -/
inductive HostAnswer where
  | data (bytes : List Byte)
  | poisoned
  | refused
  deriving DecidableEq, Repr, Inhabited

/-- What every management request carries: requests the MC holds already, whether it was sent to the null endpoint ID,
the session that secures it (R423, R424, R433); the 7-bit slave address it was sent to, its MCTP message type, the longest payload of its
packets in bytes and whether their packet error codes are right (R423); whether the request is well formed (R429); and the bytes of the
message, which an SPDM transcript takes in (R436). -/
structure MReq where
  held   : Nat
  toNull : Bool
  sess   : Option Nat
  addr   : Nat
  typ    : Nat
  unit   : Nat
  pecOk  : Bool
  formed : Bool
  raw    : List Byte
  deriving DecidableEq, Repr, Inhabited

/-- The source of an update command (R454): the platform with its request, or the manager. -/
inductive UpdSrc where
  | platform (r : MReq)
  | manager
  deriving DecidableEq, Repr, Inhabited

/-- What an image's STRUCTURE section says (R446): brick allocation of each instance, port mode of each engine, each leaf's instance and
parent, each node's parent, instance nodes and default leaves, the pool sizes of work queues, completion rings, counters, reassembly
slots and chunk tables, and the upper bounds of the instance quotas: contexts, frames, work queues, completion rings, counters, regions,
domains, pins, communicators and member entries. -/
structure Structure_ where
  allocs : Tab (List Nat)
  modes  : List Nat
  leaves : Tab (Nat × Nat)
  nodes  : Tab Nat
  insts  : Tab (Nat × Nat)
  pools  : List Nat
  quotas : List Nat
  deriving DecidableEq, Repr, Inhabited

/-- What an image's CURRENT_CURVES section says (R43, R45, R446): the cost of each unit class at each activity level, with the I/O-die
cipher engine and the image checks at full and at half rate, and the standing reservations of the three kinds of rail with the allowance. -/
structure Costs where
  brick     : List Nat
  prefetch  : Nat
  pesyn     : Nat
  lane      : Nat
  cipher    : Nat
  hostDma   : Nat
  ddr5      : Nat
  mover     : Nat
  iodCipher : Nat × Nat
  checks    : Nat × Nat
  standing  : List Nat
  allowance : Nat
  deriving DecidableEq, Repr, Inhabited

/-- What the sections of an image say whose encoding the spec does not give (R446): STRUCTURE, CURRENT_CURVES and DEFAULTS. -/
structure Contents where
  shape    : Structure_
  costs    : Costs
  defaults : Tab Nat
  deriving DecidableEq, Repr, Inhabited

/-- One image (R446, R447): what its header says, the digest of its plaintext and of each section by type, and what its sections say. -/
structure Image where
  length   : Nat
  version  : Nat
  fmt      : Nat
  from_    : Nat
  digest   : BitVec 256
  sections : Tab (BitVec 256)
  contents : Contents
  deriving DecidableEq, Repr, Inhabited

/-- What reading an image back from flash meets (R448, R452): the units that do not read as they were written, and the digest of the
SubjectPublicKeyInfo of the key under which the header's signature verifies, where there is one (R447). -/
structure BankFindings where
  damaged : List Nat
  signer  : Option (BitVec 256)
  deriving DecidableEq, Repr, Inhabited

/-- What the read-back of a staged image finds (R458), and what its sections say. -/
structure ImageFindings where
  read     : BankFindings
  contents : Contents
  deriving DecidableEq, Repr, Inhabited

/-- What the patrol finds at one codeword (R149), and whether a reader reached the codeword before the patrol did (R145). -/
structure Scrub where
  found   : Finding
  reached : Bool
  deriving DecidableEq, Repr, Inhabited

/-- What a laser unit under its check reports beside its outputs and their wavelength (R339): its draw in watts, and whether its optical
connector is mated. -/
structure LaserReport where
  watts : Nat
  mated : Bool
  deriving DecidableEq, Repr, Inhabited

/-- What a start of the management controller finds in flash (R471): which copies of the management firmware start. -/
structure FirmwareCheck where
  copies : List Bool
  deriving DecidableEq, Repr, Inhabited

/-- What arming finds where the new firmware's settings format is another one (R460): the entries after conversion, or the index of the first
entry that failed. -/
structure ArmFindings where
  converted : Option (List (Nat × Nat))
  failedAt  : Nat
  deriving DecidableEq, Repr, Inhabited

/-- What main start-up finds (R452, R453, R476 to R482): what reading the banks meets, the settings converted where the running firmware's
format is another one (R451), what fails its self-test, what is in the DDR5 sites (capacity, supported, trains) and the laser bays (passes its check, reports its connector mated), and whether
the Melel link trains; `pinHigh` says that MOD_RESET_N is high (R511). -/
structure StartFindings where
  banks     : List BankFindings
  converted : Option (List (Nat × Nat))
  recordOk  : Bool
  bricks    : List Nat
  spares    : List Nat
  cells     : List (Nat × Nat)
  lanes     : List (Nat × Nat)
  channels  : List (Nat × Nat)
  sites     : Tab (Nat × Bool × Bool)
  lasers    : Tab (Bool × Bool)
  melel     : Nat
  pinHigh   : Bool
  deriving DecidableEq, Repr, Inhabited


/-- The commands of the block, in the table's order. Each constructor's docstring names its row and its rule. -/
inductive Instr where
  /-- CONTROL_SPACE_WRITE (R11) -/
  | controlSpaceWrite (fn off width data : Nat)
  /-- SIZE_ALIGN_ERROR (R15) -/
  | sizeAlignError (fn off width : Nat) (write : Bool)
  /-- UNDECODED_ACCESS (R17) -/
  | undecodedAccess (fn off width : Nat) (write : Bool)
  /-- WQ_DOORBELL (R204) -/
  | wqDoorbell (fn off width data : Nat)
  /-- RETURN_DOORBELL (R213) -/
  | returnDoorbell (fn off width data : Nat)
  /-- ADMIN_DOORBELL (R205) -/
  | adminDoorbell (fn off width data : Nat)
  /-- PACE_MEASUREMENT (R36) -/
  | paceMeasurement (die mon rate predicted : Nat)
  /-- RAIL_GRANT_RESUME (R39) -/
  | railGrantResume (die : Nat)
  /-- GRANT_REQUEST (R47) -/
  | grantRequest (unit : UnitId) (cost : Nat) (inst : Option Nat)
  /-- GRANT_RETURN (R46) -/
  | grantReturn (unit : UnitId)
  /-- INPUT_HIGH (R51) -/
  | inputHigh (mv : Nat)
  /-- INPUT_LOW (R51) -/
  | inputLow (mv : Nat)
  /-- BROWNOUT_WARNING (R52) -/
  | brownoutWarning (mv : Nat)
  /-- CAPACITY_HALVED (R52) -/
  | capacityHalved
  /-- BROWNOUT_RECOVERY (R53) -/
  | brownoutRecovery (mv : Nat)
  /-- CAPACITY_STEP (R53) -/
  | capacityStep
  /-- BROWNOUT_RESET (R54) -/
  | brownoutReset (mv : Nat)
  /-- INPUT_VOLTAGE_SAMPLE (R55) -/
  | inputVoltageSample (mv : Nat)
  /-- ADMISSION_CHECK (R57) -/
  | admissionCheck (q : Nat)
  /-- REFUSAL_DELAY_EXPIRY (R62) -/
  | refusalDelayExpiry (q : Nat)
  /-- BOUND_EXPIRY (R65) -/
  | boundExpiry (q idx : Nat)
  /-- SCALAR_INSTRUCTION (R105) -/
  | scalarInstruction (b : Nat) (op : ScalarOp) (word : Word64)
  /-- BRANCH (R105) -/
  | branch (b : Nat) (op : BranchOp) (word : Word64)
  /-- MATRIX (R74) -/
  | matrix (b : Nat) (word : Word64)
  /-- MATRIX_END (R81) -/
  | matrixEnd (b : Nat)
  /-- DRAIN (R82) -/
  | drain (b : Nat) (word : Word64)
  /-- DRAIN_END (R81) -/
  | drainEnd (b : Nat)
  /-- VECTOR (R86) -/
  | vector (b : Nat) (op : VectorOp) (word : Word64)
  /-- VECTOR_MEMORY (R85) -/
  | vectorMemory (b : Nat) (op : VMemOp) (word : Word64)
  /-- VECTOR_SPECIAL (R87) -/
  | vectorSpecial (b : Nat) (op : VSpecOp) (word : Word64)
  /-- STREAM (R112) -/
  | stream (b : Nat) (word : Word64)
  /-- SPOST (R113) -/
  | spost (b : Nat) (word : Word64)
  /-- SWAIT (R115) -/
  | swait (b : Nat) (word : Word64)
  /-- CWAIT (R121) -/
  | cwait (b : Nat) (word : Word64)
  /-- CADD (R121) -/
  | cadd (b : Nat) (word : Word64)
  /-- BAR (R121) -/
  | bar (b : Nat) (word : Word64)
  /-- FENCE (R121) -/
  | fence (b : Nat) (word : Word64)
  /-- HLD (R119) -/
  | hld (b : Nat) (toV : Bool) (word : Word64)
  /-- HST (R119) -/
  | hst (b : Nat) (fromV : Bool) (word : Word64)
  /-- HFENCE (R119) -/
  | hfence (b : Nat) (word : Word64)
  /-- HOST_ACCESS_RETURN (R119) -/
  | hostAccessReturn (b id : Nat) (data : List Byte)
  /-- READ_FLAGS (R84) -/
  | readFlags (b : Nat) (word : Word64)
  /-- CLEAR_FLAGS (R84) -/
  | clearFlags (b : Nat) (word : Word64)
  /-- READ_BEAT_COUNT (R105) -/
  | readBeatCount (b beats : Nat) (word : Word64)
  /-- END (R125) -/
  | endProgram (b : Nat) (word : Word64)
  /-- STREAM_TILE_START (R112) -/
  | streamTileStart (b ch : Nat)
  /-- STREAM_TILE_DONE (R112) -/
  | streamTileDone (b ch : Nat)
  /-- STORE_TILE_VISIBLE (R118) -/
  | storeTileVisible (b ch n : Nat)
  /-- BEAT_LIMIT_REACHED (R125) -/
  | beatLimitReached (b : Nat)
  /-- LAUNCH (R122) -/
  | launch (q : Nat)
  /-- LAUNCH_COMPLETE (R125) -/
  | launchComplete (l : Nat)
  /-- SLICE_BOUNDARY (R127) -/
  | sliceBoundary (b beats : Nat)
  /-- CONTEXT_SWITCH_END (R128) -/
  | contextSwitchEnd (b : Nat)
  /-- SLICE_US_TAKES_EFFECT (R129) -/
  | sliceUsTakesEffect
  /-- REMOTE_TILE_COMPLETE (R117) -/
  | remoteTileComplete (q idx : Nat)
  /-- RESIDUE_FAILURE (R92) -/
  | residueFailure (b unit pair : Nat)
  /-- RESIDUE_RETRY_END (R93) -/
  | residueRetryEnd (b : Nat) (pass : Bool)
  /-- RETIREMENT_COMPLETE (R94) -/
  | retirementComplete (b : Nat)
  /-- BASIN_POOL_WRITE (R134) -/
  | basinPoolWrite (data : Nat)
  /-- BASIN_WINDOW_WRITE (R134) -/
  | basinWindowWrite (n data : Nat)
  /-- BASIN_WINDOW_TAKES_EFFECT (R134) -/
  | basinWindowTakesEffect (n : Option Nat)
  /-- BASIN_PREFETCH_STAGE (R136) -/
  | basinPrefetchStage (b ch : Nat)
  /-- PATROL_SCRUB (R149) -/
  | patrolScrub (place : Place) (scrub : Scrub)
  /-- ROW_REPAIR (R152) -/
  | rowRepair (stack pc row : Nat)
  /-- PSEUDO_CHANNEL_RETIREMENT (R154) -/
  | pseudoChannelRetirement (stack pc : Nat) (cause : RetireCause)
  /-- GROUP_REBUILD (R154) -/
  | groupRebuild (stack group : Nat)
  /-- HBM_RETIRE (R153) -/
  | hbmRetire (stack pc : Nat)
  /-- DDR5_EVACUATE (R158) -/
  | ddr5Evacuate (site : Nat)
  /-- DDR5_ONLINE (R159) -/
  | ddr5Online (site : Nat)
  /-- DDR5_CANCEL (R158) -/
  | ddr5Cancel (site : Nat)
  /-- SITE_EVACUATED (R158) -/
  | siteEvacuated (site : Nat)
  /-- SITE_TRAINING_END (R159) -/
  | siteTrainingEnd (site : Nat) (ok : Bool)
  /-- DDR5_MODULE_REMOVED (R160) -/
  | ddr5ModuleRemoved (site : Nat)
  /-- DDR5_MODULE_INSERTED (R141) -/
  | ddr5ModuleInserted (site capGiB : Nat) (supported : Bool)
  /-- TRANSLATION_WALK (R173) -/
  | translationWalk (eng : Eng) (ctx va : Nat) (kind : Kind) (prefetch : Bool)
  /-- FAULT_RECORD_WRITE (R180) -/
  | faultRecordWrite (id : Nat)
  /-- FAULT_LIMIT_EXPIRY (R181) -/
  | faultLimitExpiry (id : Nat)
  /-- CTX_CREATE (R184) -/
  | ctxCreate (n : Nat)
  /-- CTX_MODIFY (R184) -/
  | ctxModify (n : Nat)
  /-- CTX_DESTROY (R186) -/
  | ctxDestroy (n : Nat)
  /-- SEG_SET (R168) -/
  | segSet (n : Nat)
  /-- SEG_CLEAR (R168) -/
  | segClear (n : Nat)
  /-- FRAME_ALLOC (R185) -/
  | frameAlloc (n : Nat)
  /-- FRAME_FREE (R185) -/
  | frameFree (n : Nat)
  /-- XLATE_INVALIDATE (R176) -/
  | xlateInvalidate (n : Nat)
  /-- FAULT_RING_SET (R184) -/
  | faultRingSet (n : Nat)
  /-- FAULT_RESUME (R181) -/
  | faultResume (n : Nat)
  /-- FAULT_FAIL (R181) -/
  | faultFail (n : Nat)
  /-- MIGRATE_PREFETCH (R192) -/
  | migratePrefetch (n : Nat)
  /-- MIGRATE_ADVISE (R192) -/
  | migrateAdvise (n : Nat)
  /-- FRAME_MOVE_PIECE (R187) -/
  | frameMovePiece
  /-- FRAME_MOVE_END (R187) -/
  | frameMoveEnd
  /-- EPOCH_BOUNDARY (R191) -/
  | epochBoundary
  /-- NOP (R199) -/
  | nop (q : Nat)
  /-- WAIT (R200) -/
  | wait (q : Nat)
  /-- SIGNAL (R201) -/
  | signal (q : Nat)
  /-- UNREADABLE_ENTRY (R536) -/
  | unreadableEntry (q : Nat)
  /-- MODERATION_TIMER (R216) -/
  | moderationTimer (r : Nat)
  /-- WQ_CREATE (R224) -/
  | wqCreate (n : Nat)
  /-- WQ_MODIFY (R226) -/
  | wqModify (n : Nat)
  /-- WQ_DESTROY (R226) -/
  | wqDestroy (n : Nat)
  /-- WQ_QUERY (R224) -/
  | wqQuery (n : Nat)
  /-- CR_CREATE (R224) -/
  | crCreate (n : Nat)
  /-- CR_MODIFY (R224) -/
  | crModify (n : Nat)
  /-- CR_DESTROY (R224) -/
  | crDestroy (n : Nat)
  /-- COUNTER_ALLOC (R224) -/
  | counterAlloc (n : Nat)
  /-- COUNTER_FREE (R227) -/
  | counterFree (n : Nat)
  /-- COUNTER_SET (R217) -/
  | counterSet (n : Nat)
  /-- ADMIN_CTRL_WRITE (R222) -/
  | adminCtrlWrite (n data : Nat)
  /-- ADMIN_WAIT_END (R223) -/
  | adminWaitEnd (n : Nat)
  /-- PD_CREATE (R239) -/
  | pdCreate (n : Nat)
  /-- PD_MODIFY (R239) -/
  | pdModify (n : Nat)
  /-- PD_DESTROY (R239) -/
  | pdDestroy (n : Nat)
  /-- REG_REGISTER (R236) -/
  | regRegister (n : Nat)
  /-- REG_DEREGISTER (R237) -/
  | regDeregister (n : Nat)
  /-- REG_REKEY (R237) -/
  | regRekey (n : Nat)
  /-- REG_QUERY (R239) -/
  | regQuery (n : Nat)
  /-- WRITE (R245) -/
  | write (q : Nat)
  /-- WRITE_IMM (R246) -/
  | writeImm (q : Nat)
  /-- READ (R247) -/
  | read (q : Nat)
  /-- DATA (R271) -/
  | data (p : RxPkt)
  /-- REQUEST (R276) -/
  | request (p : RxPkt)
  /-- GRANT (R276) -/
  | grant (p : RxPkt)
  /-- ACK (R284) -/
  | ack (p : RxPkt)
  /-- NACK (R292) -/
  | nack (p : RxPkt)
  /-- RESEND (R281) -/
  | resend (p : RxPkt)
  /-- RESPONSE (R279) -/
  | response (p : RxPkt)
  /-- CANCEL (R273) -/
  | cancel (p : RxPkt)
  /-- GRANT_CHUNK (R277) -/
  | grantChunk (die : Nat)
  /-- RETRANSMIT_TIMEOUT (R280) -/
  | retransmitTimeout (die seq : Nat)
  /-- RESEND_TIMER (R281) -/
  | resendTimer (die tag : Nat)
  /-- SEND_WINDOW_END (R282) -/
  | sendWindowEnd (die seq : Nat)
  /-- REQUEST_TIMEOUT (R283) -/
  | requestTimeout (die seq : Nat)
  /-- SLOT_ABANDON (R273) -/
  | slotAbandon (die tag : Nat)
  /-- FILTER_STEP (R286) -/
  | filterStep (die : Nat)
  /-- BACKOFF_END (R291) -/
  | backoffEnd (die seq : Nat)
  /-- PESYN_ADDRESS_TAKES_EFFECT (R299) -/
  | pesynAddressTakesEffect
  /-- COMM_CREATE (R302) -/
  | commCreate (n : Nat)
  /-- COMM_ADVANCE (R303) -/
  | commAdvance (n : Nat)
  /-- COMM_DESTROY (R303) -/
  | commDestroy (n : Nat)
  /-- COMM_QUERY (R302) -/
  | commQuery (n : Nat)
  /-- ALL_REDUCE (R305) -/
  | allReduce (q : Nat)
  /-- REDUCE_SCATTER (R305) -/
  | reduceScatter (q : Nat)
  /-- ALL_GATHER (R305) -/
  | allGather (q : Nat)
  /-- ALL_TO_ALL (R305) -/
  | allToAll (q : Nat)
  /-- ALL_TO_ALL_V (R308) -/
  | allToAllV (q : Nat)
  /-- BROADCAST (R305) -/
  | broadcast (q : Nat)
  /-- BARRIER (R305) -/
  | barrier (q : Nat)
  /-- ENTER (R313) -/
  | enter (p : RxPkt)
  /-- CONTRIBUTION (R319) -/
  | contribution (p : RxPkt)
  /-- RESTART (R324) -/
  | restart (p : RxPkt)
  /-- SEAL (R327) -/
  | seal (p : RxPkt)
  /-- ENTER_TIMEOUT (R311) -/
  | enterTimeout (die seq : Nat)
  /-- LANE_RESIDUE_FAILURE (R323) -/
  | laneResidueFailure (die lane chunk : Nat)
  /-- LINK_UP (R336) -/
  | linkUp (p : Nat)
  /-- LINK_DOWN (R336) -/
  | linkDown (p : Nat) (alignLost localFault remoteFault : Bool)
  /-- LINK_HOLD_EXPIRY (R336) -/
  | linkHoldExpiry (p : Nat)
  /-- PORT_CTRL_WRITE (R336) -/
  | portCtrlWrite (p data : Nat)
  /-- CELL_FAULT (R337) -/
  | cellFault (e pos : Nat)
  /-- LANE_SUBSTITUTE (R337) -/
  | laneSubstitute (e pos : Nat)
  /-- SUBSTITUTION_END (R337) -/
  | substitutionEnd (e : Nat)
  /-- LASER_UNIT_INSERTED (R339) -/
  | laserUnitInserted (u : Nat)
  /-- LASER_CHECK_END (R341) -/
  | laserCheckEnd (u outputs wavelength : Nat) (report : LaserReport)
  /-- LASER_UNIT_REMOVED (R340) -/
  | laserUnitRemoved (u : Nat)
  /-- LASER_UNIT_FAULT (R340) -/
  | laserUnitFault (u code : Nat)
  /-- LASER_DRAIN (R342) -/
  | laserDrain (u : Nat)
  /-- LASER_CANCEL (R342) -/
  | laserCancel (u : Nat)
  /-- FRAME_RECEIVE (R344) -/
  | frameReceive (p : Nat) (f : RxFrame)
  /-- XOFF_REPEAT (R346) -/
  | xoffRepeat (p k : Nat)
  /-- PAUSE_FRAME (R347) -/
  | pauseFrame (p opcode enables : Nat) (quanta : List Nat)
  /-- PAUSE_EXPIRY (R347) -/
  | pauseExpiry (p k : Nat)
  /-- PAUSE_STORM_GUARD (R348) -/
  | pauseStormGuard (p k : Nat)
  /-- BUFFER_STORM_GUARD (R348) -/
  | bufferStormGuard (p k : Nat)
  /-- PRIO_BUF_WRITE (R349) -/
  | prioBufWrite (p k data : Nat)
  /-- BUFFER_SIZE_TAKES_EFFECT (R349) -/
  | bufferSizeTakesEffect (p k : Nat)
  /-- STATS_SAMPLE (R351) -/
  | statsSample (p : Nat)
  /-- STATS_SELECT_WRITE (R352) -/
  | statsSelectWrite (data : Nat)
  /-- STATS_DATA_LO_READ (R352) -/
  | statsDataLoRead (fn : Nat)
  /-- PORT_FRAME_BOUNDARY (R359) -/
  | portFrameBoundary (p : Nat)
  /-- SHAPER_TOKENS_POSITIVE (R362) -/
  | shaperTokensPositive (die s : Nat)
  /-- SHAPER_WRITE (R363) -/
  | shaperWrite (die s word data : Nat)
  /-- POLICER_WRITE (R368) -/
  | policerWrite (die k word data : Nat)
  /-- POLICE_STATS_SELECT_WRITE (R370) -/
  | policeStatsSelectWrite (data : Nat)
  /-- POLICE_STATS_DATA_LO_READ (R370) -/
  | policeStatsDataLoRead (fn : Nat)
  /-- FLIT_ERROR (R372) -/
  | flitError (seq : Nat) (crcOk : Bool)
  /-- LINK_RETRAIN (R373) -/
  | linkRetrain (laneLost : Bool)
  /-- RETRAIN_END (R373) -/
  | retrainEnd (lanes : Nat)
  /-- DOWN_MS_EXPIRY (R373) -/
  | downMsExpiry
  /-- WIDEN (R373) -/
  | widen
  /-- HOST_TO_DEVICE (R379) -/
  | hostToDevice (q : Nat)
  /-- DEVICE_TO_HOST (R379) -/
  | deviceToHost (q : Nat)
  /-- FLUSH_READ_RETURN (R384) -/
  | flushReadReturn (id : Nat)
  /-- HOST_COMPLETION_TIMEOUT (R380) -/
  | hostCompletionTimeout (id : Nat)
  /-- APERTURE_READ (R382) -/
  | apertureRead (n off width : Nat)
  /-- APERTURE_WRITE (R382) -/
  | apertureWrite (n off : Nat) (data : List Byte)
  /-- HOST_LINK_LOSS (R386) -/
  | hostLinkLoss (cause : LossCause)
  /-- HOST_LINK_RESTORED (R388) -/
  | hostLinkRestored
  /-- INSTANCE_RESET (R395) -/
  | instanceReset (n : Nat)
  /-- INSTANCE_QUIESCED (R397) -/
  | instanceQuiesced (n : Nat)
  /-- RELEASE (R399) -/
  | release (n : Nat)
  /-- INST_SHARE_WRITE (R403) -/
  | instShareWrite (n data : Nat)
  /-- LOAD_WRAPPED (R415) -/
  | loadWrapped (slot : Nat)
  /-- ERASE (R415) -/
  | erase (slot : Nat)
  /-- KEY_LOAD_DONE (R415) -/
  | keyLoadDone
  /-- KEY_SLOT_WRITE (R414) -/
  | keySlotWrite (k data : Nat)
  /-- SET_ENDPOINT_ID (R423) -/
  | setEndpointId (r : MReq) (eid : Nat)
  /-- GET_ENDPOINT_ID (R423) -/
  | getEndpointId (r : MReq)
  /-- GET_ENDPOINT_UUID (R423) -/
  | getEndpointUuid (r : MReq)
  /-- GET_MCTP_VERSION_SUPPORT (R423) -/
  | getMctpVersionSupport (r : MReq) (typ : Nat)
  /-- GET_MESSAGE_TYPE_SUPPORT (R423) -/
  | getMessageTypeSupport (r : MReq)
  /-- SET_TID (R428) -/
  | setTid (r : MReq) (tid : Nat)
  /-- GET_TID (R428) -/
  | getTid (r : MReq)
  /-- GET_PLDM_VERSION (R428) -/
  | getPldmVersion (r : MReq) (typ : Nat)
  /-- GET_PLDM_TYPES (R428) -/
  | getPldmTypes (r : MReq)
  /-- GET_PLDM_COMMANDS (R428) -/
  | getPldmCommands (r : MReq) (typ : Nat)
  /-- GET_SENSOR_READING (R428) -/
  | getSensorReading (r : MReq) (id : Nat)
  /-- GET_STATE_SENSOR_READINGS (R428) -/
  | getStateSensorReadings (r : MReq) (id : Nat)
  /-- GET_PDR_REPOSITORY_INFO (R428) -/
  | getPdrRepositoryInfo (r : MReq)
  /-- GET_PDR (R428) -/
  | getPdr (r : MReq) (handle : Nat)
  /-- SET_EVENT_RECEIVER (R427) -/
  | setEventReceiver (r : MReq) (dest : Option Nat)
  /-- GET_EVENT_RECEIVER (R428) -/
  | getEventReceiver (r : MReq)
  /-- EVENT_RETRY (R427) -/
  | eventRetry (k : Nat) (accepted : Bool)
  /-- READ_COUNTER (R429) -/
  | readCounter (r : MReq) (port idx : Nat)
  /-- READ_LOG (R429) -/
  | readLog (r : MReq) (idx : Nat)
  /-- READ_LOG_STATUS (R429) -/
  | readLogStatus (r : MReq)
  /-- MODULE_RESET (R443) -/
  | moduleReset (r : Option MReq)
  /-- POWER_CYCLE (R443) -/
  | powerCycle (r : Option MReq)
  /-- POWER_CYCLE_REAPPLY (R443) -/
  | powerCycleReapply
  /-- CLEAR_LOG (R442) -/
  | clearLog (r : MReq)
  /-- LOG_ERASE_DONE (R442) -/
  | logEraseDone
  /-- LOAD_WRAPPING_KEY (R429) -/
  | loadWrappingKey (r : MReq) (key : BitVec 256)
  /-- ERASE_WRAPPING_KEY (R429) -/
  | eraseWrappingKey (r : MReq)
  /-- REPLACE_ANCHOR (R434) -/
  | replaceAnchor (r : MReq) (digest : BitVec 256)
  /-- GET_VERSION (R433) -/
  | getVersion (r : MReq)
  /-- GET_CAPABILITIES (R433) -/
  | getCapabilities (r : MReq) (version : Nat)
  /-- NEGOTIATE_ALGORITHMS (R433) -/
  | negotiateAlgorithms (r : MReq) (ok : Bool)
  /-- GET_DIGESTS (R433) -/
  | getDigests (r : MReq)
  /-- GET_CERTIFICATE (R431) -/
  | getCertificate (r : MReq) (slot off len : Nat)
  /-- CHALLENGE (R433) -/
  | challenge (r : MReq) (slot nonce : Nat)
  /-- GET_MEASUREMENTS (R436) -/
  | getMeasurements (r : MReq) (idx : Nat) (signed : Bool) (nonce : Nat)
  /-- KEY_EXCHANGE (R433) -/
  | keyExchange (r : MReq) (mutAuth : Bool)
  /-- FINISH (R434) -/
  | finish (r : MReq) (sess : Nat) (macOk : Bool)
  /-- HEARTBEAT (R433) -/
  | heartbeat (r : MReq)
  /-- KEY_UPDATE (R433) -/
  | keyUpdate (r : MReq)
  /-- END_SESSION (R433) -/
  | endSession (r : MReq)
  /-- GET_ENCAPSULATED_REQUEST (R433) -/
  | getEncapsulatedRequest (r : MReq)
  /-- DELIVER_ENCAPSULATED_RESPONSE (R434) -/
  | deliverEncapsulatedResponse (r : MReq) (sess : Nat) (root : BitVec 256) (verifies : Bool)
  /-- SESSION_IDLE_TIMEOUT (R433) -/
  | sessionIdleTimeout (sess : Nat)
  /-- SENSOR_SAMPLE (R425) -/
  | sensorSample (id : Nat) (value : Int)
  /-- THERMAL_SHUTDOWN (R426) -/
  | thermalShutdown (id : Nat)
  /-- MC_START (R430) -/
  | mcStart (straps : Nat) (puf : Option (BitVec 256)) (firmware : FirmwareCheck)
  /-- LOG_RECORD_PROGRAM (R439) -/
  | logRecordProgram
  /-- LOG_WINDOW_0_READ (R441) -/
  | logWindow0Read (fn : Nat)
  /-- LOG_WINDOW_15_READ (R441) -/
  | logWindow15Read (fn : Nat)
  /-- LEASE_TAKE (R454) -/
  | leaseTake (src : UpdSrc)
  /-- LEASE_RELEASE (R454) -/
  | leaseRelease (src : UpdSrc) (lease : Nat)
  /-- LEASE_TIMEOUT (R454) -/
  | leaseTimeout
  /-- PACKAGE_WRITE (R457) -/
  | packageWrite (r : MReq) (lease off len : Nat) (bytes : List Byte)
  /-- PACKAGE_END (R458) -/
  | packageEnd (r : MReq) (lease : Nat)
  /-- PULL (R473) -/
  | pull
  /-- VERIFY_END (R458) -/
  | verifyEnd (f : ImageFindings)
  /-- ARM_HANDOVER (R459) -/
  | armHandover (src : UpdSrc) (lease : Nat)
  /-- ARM_COORDINATED (R464) -/
  | armCoordinated (src : UpdSrc) (lease count : Nat)
  /-- ARMING_END (R460) -/
  | armingEnd (f : ArmFindings)
  /-- TOKEN (R465) -/
  | token (src : UpdSrc) (lease count : Nat)
  /-- HANDOVER_TURN (R462) -/
  | handoverTurn
  /-- UPDATE_QUERY (R472) -/
  | updateQuery (r : MReq)
  /-- COMMIT (R467) -/
  | commit
  /-- FALLBACK (R468) -/
  | fallback
  /-- MAIN_STARTUP (R476) -/
  | mainStartup (f : StartFindings)
  /-- STARTUP_READY (R477) -/
  | startupReady
  /-- CONNECTOR_RESET (R511) -/
  | connectorReset
  /-- INPUT_OVERVOLTAGE (R507) -/
  | inputOvervoltage (mv : Nat)
  /-- OVERVOLTAGE_RECOVERY (R507) -/
  | overvoltageRecovery (mv : Nat)
  /-- STANDBY_LOSS (R508) -/
  | standbyLoss
  /-- POWER_UP (R485) -/
  | powerUp
  /-- CONTROL_SPACE_READ_CLEAR (R11) -/
  | controlSpaceReadClear (fn off width : Nat)
  /-- INPUT_IN_RANGE (R51) -/
  | inputInRange (mv : Nat)
  /-- HIGH_SER (R337) -/
  | highSer (p : Nat) (uncorrectable : Bool)
  /-- LASER_RISE_END (R341) -/
  | laserRiseEnd (u : Nat)
  /-- PAUSE_GUARD_END (R348) -/
  | pauseGuardEnd (p k : Nat)
  /-- HOST_READ_COMPLETION (R379) -/
  | hostReadCompletion (id : Nat) (answer : HostAnswer)
  /-- MELEL_LINK_TRAINED (R479) -/
  | melelLinkTrained (lanes : Nat)
  deriving DecidableEq, Repr

end Sys2Proof
end

