-- ==== Sys2Proof/Decode.lean ====
section
/-! DEFINITION. The rows of the table that give bits: none does, because the commands of this block are accesses, packets, events
and requests, each with operands of its own, and no word spells one. -/

namespace Sys2Proof

/-- The command that a word of `nbits` bits spells by the table's bits: none, since no row of the table gives bits. -/
def decodeTableWord (nbits w : Nat) : Option Instr :=
  match nbits, w with
  | _, _ => none

end Sys2Proof
end

