-- ==== Sys2Proof/Config.lean ====
section
/-! DEFINITION. The values that the spec leaves open: constants without a body, so that nothing can be proved of the
value that any of them takes. Each is applied to what its value may depend on. -/

namespace Sys2Proof.Config

/-- The event number within its area of a vent-log record outside area 0x0A, which R438 does not give. -/
opaque eventCode : Nat → Nat → BitVec 8

/-- The fewest spare rows left in a bank of a stack after so many repairs (R156 gives no count to start from). -/
opaque sparesLeft : Nat → Nat → Nat

/-- A value that the spec calls undefined or leaves open, drawn once for each count of `Dev.free`. -/
opaque freeValue : Nat → Nat

/-- The approximations of R87 whose bits the spec does not fix: function number, format and operand bits. -/
opaque special : Nat → Nat → Nat → Nat

/-- The comparison, of six, that FLAGS bits 1:0 of a compare-and-branch name (R105): the spec does not list the codes (log entry 14). -/
opaque branchCmp : Nat → Nat

/-- The lane order of a sum across the lanes (R87), as a number whose mixed-radix digits pick the lanes in turn. -/
opaque laneOrder : Nat

/-- A byte of a brick's scratch that its launch has not written (R103): by the launch's draw and the address. -/
opaque scratchByte : Nat → Nat → BitVec 8

/-- A byte of a log slot whose programming was cut short (R439): by slot and place. -/
opaque tornByte : Nat → Nat → BitVec 8

/-- By how much the CRC of such a slot is off, beyond 1. -/
opaque tornCrc : Nat → Nat

/-- The endpoint UUID of the module (R423), by its serial number. -/
opaque uuid : Nat → List (BitVec 8)

/-- The versions of a PLDM type or an MCTP message type whose number the spec does not give (R423, R428). -/
opaque versionOf : Nat → List Nat

/-- The platform descriptor record of a handle, where there is one, and the repository's information (R428). -/
opaque pdr : Nat → Option (List (BitVec 8))

/-- What GetPDRRepositoryInfo answers (R428). -/
opaque pdrInfo : List (BitVec 8)

/-- A laser unit's own CMIS warning and alarm, in units of 0.25 °C (R425). -/
opaque laserLimit : Nat → Int × Int

/-- The version of the mask ROM (R435, measurement 1). -/
opaque romVersion : BitVec 32

/-- The digest of stage one of the management firmware (R435, measurement 2). -/
opaque stageOne : BitVec 256

/-- A byte of the image that a module leaves the factory with (R446), by its place. -/
opaque factoryByte : Nat → BitVec 8

/-- The length of a certificate of the chain written at manufacture, and its bytes, by the certificate's place (R431). -/
opaque certLength : Nat → Nat

/-- A byte of such a certificate. -/
opaque certByte : Nat → Nat → BitVec 8

/-- The identity key pair that is derived from the PUF secret (R430): its public half as the certificate holds it. -/
opaque identityPublic : BitVec 256 → List (BitVec 8)

/-- Its private half, which is in MC SRAM alone. -/
opaque identityPrivate : BitVec 256 → List (BitVec 8)

/-- An RSASSA-PSS signature under a private key over a transcript (R433, R436). -/
opaque signature : List (BitVec 8) → List (BitVec 8) → List (BitVec 8)

/-- What the responder draws or computes for an SPDM message (nonces, opaque data, exchange data, HMACs: R433): by the draw and its length. -/
opaque spdmBytes : Nat → Nat → List (BitVec 8)

/-- Where a backoff falls in its interval (R291), drawn once for each count of `Dev.free`. -/
opaque backoffPoint : Nat → Nat → Nat

end Sys2Proof.Config
end

