-- ==== Sys2Proof/Machine/Tab.lean ====
section
/-! DEFINITION. The operations of tables and byte memories, and the bit and byte helpers that every family uses. -/

namespace Sys2Proof.Machine

/-- The value a table holds under a key. -/
def Tab.get {α : Type} (t : Tab α) (k : Nat) : Option α :=
  match t with
  | [] => none
  | (a, v) :: r => if a = k then some v else Tab.get r k

/-- The value under a key, or a value to take where there is none. -/
def Tab.getD {α : Type} (t : Tab α) (k : Nat) (d : α) : α := (Tab.get t k).getD d

/-- Enters a value under a key, in key order, in place of what the key held. -/
def Tab.set {α : Type} (t : Tab α) (k : Nat) (v : α) : Tab α :=
  match t with
  | [] => [(k, v)]
  | (a, w) :: r =>
    if a < k then (a, w) :: Tab.set r k v
    else if a = k then (k, v) :: r
    else (k, v) :: (a, w) :: r

/-- Removes a key. -/
def Tab.erase {α : Type} (t : Tab α) (k : Nat) : Tab α := t.filter (fun p => p.1 != k)

/-- Is there a value under the key? -/
def Tab.has {α : Type} (t : Tab α) (k : Nat) : Bool := (Tab.get t k).isSome

/-- Changes the value under a key, where there is one. -/
def Tab.modify {α : Type} (t : Tab α) (k : Nat) (f : α → α) : Tab α :=
  t.map (fun p => if p.1 = k then (p.1, f p.2) else p)

/-- Changes every value. -/
def Tab.mapVals {α : Type} (t : Tab α) (f : Nat → α → α) : Tab α := t.map (fun p => (p.1, f p.1 p.2))

/-- Keeps the entries that a test admits. -/
def Tab.keep {α : Type} (t : Tab α) (f : Nat → α → Bool) : Tab α := t.filter (fun p => f p.1 p.2)

/-- How many entries a test admits. -/
def Tab.count {α : Type} (t : Tab α) (f : Nat → α → Bool) : Nat := (Tab.keep t f).length

/-- The least number of a range that is no key: the index a create command takes (R224). -/
def Tab.lowestFree {α : Type} (t : Tab α) (lo : Nat) : Nat → Option Nat
  | 0 => none
  | n + 1 => if Tab.has t lo then Tab.lowestFree t (lo + 1) n else some lo

/-- Keys strictly rising: the canonical form of a table. -/
def Tab.wf {α : Type} : Tab α → Bool
  | [] => true
  | [_] => true
  | p :: q :: r => decide (p.1 < q.1) && Tab.wf (q :: r)

/-- One byte of a memory; an address that is not listed reads zero. -/
def Mem.read (m : Mem) (a : Nat) : Byte := Tab.getD m a 0

/-- Writes one byte; writing zero removes the entry. -/
def Mem.write (m : Mem) (a : Nat) (b : Byte) : Mem := if b = 0 then Tab.erase m a else Tab.set m a b

/-- `n` bytes from `a` up. -/
def Mem.readN (m : Mem) (a : Nat) : Nat → List Byte
  | 0 => []
  | n + 1 => Mem.read m a :: Mem.readN m (a + 1) n

/-- Writes the bytes of a list from `a` up. -/
def Mem.writeN (m : Mem) (a : Nat) : List Byte → Mem
  | [] => m
  | b :: r => Mem.writeN (Mem.write m a b) (a + 1) r

/-- Fills `n` bytes from `a` up with zeros. -/
def Mem.zero (m : Mem) (a n : Nat) : Mem := m.filter (fun p => !(decide (a ≤ p.1) && decide (p.1 < a + n)))

/-- Moves the bytes of a range to another place: what a copy of a whole frame does (R187). -/
def Mem.copy (m : Mem) (src dst n : Nat) : Mem :=
  (m.filter (fun p => decide (src ≤ p.1) && decide (p.1 < src + n))).foldl
    (fun acc p => Mem.write acc (p.1 - src + dst) p.2) (Mem.zero m dst n)

/-- The canonical form: addresses strictly rising and no byte zero. -/
def Mem.wf (m : Mem) : Bool := Tab.wf m && m.all (fun p => decide (p.2 ≠ 0))

/-- Bits `hi` down to `lo` of a number (R5). -/
def bitsOf (w hi lo : Nat) : Nat := (w >>> lo) % 2 ^ (hi + 1 - lo)

/-- Bit `k` of a number. -/
def bitOf (w k : Nat) : Bool := (w >>> k) % 2 == 1

/-- A number with bits `hi` down to `lo` replaced. -/
def withBits (w hi lo v : Nat) : Nat :=
  (w >>> (hi + 1)) * 2 ^ (hi + 1) + (v % 2 ^ (hi + 1 - lo)) * 2 ^ lo + w % 2 ^ lo

/-- Bytes as a number, least significant byte first (R5). -/
def leNat : List Byte → Nat
  | [] => 0
  | b :: r => b.toNat + 256 * leNat r

/-- A number as `n` bytes, least significant first (R5). -/
def natLE : Nat → Nat → List Byte
  | 0, _ => []
  | n + 1, v => BitVec.ofNat 8 v :: natLE n (v / 256)

/-- Bytes as a number, most significant byte first (R6). -/
def beNat (l : List Byte) : Nat := leNat l.reverse

/-- A number as `n` bytes, most significant first (R6). -/
def natBE (n v : Nat) : List Byte := (natLE n v).reverse

/-- Bytes `a` up to `a + n` of a list, least significant first; missing bytes are zero. -/
def fieldLE (l : List Byte) (a n : Nat) : Nat := leNat ((l.drop a).take n)

/-- Bytes `a` up to `a + n` of a list, most significant first. -/
def fieldBE (l : List Byte) (a n : Nat) : Nat := beNat ((l.drop a).take n)

/-- `n` rounded up to whole units of `u`. -/
def ceilDiv (n u : Nat) : Nat := if u = 0 then 0 else (n + u - 1) / u

/-- The signed value of an `n`-bit number. -/
def signedOf (n v : Nat) : Int := if v % 2 ^ n < 2 ^ (n - 1) then (v % 2 ^ n : Nat) else (v % 2 ^ n : Nat) - (2 ^ n : Nat)

/-- An integer as an `n`-bit number, two's complement. -/
def unsignedOf (n : Nat) (v : Int) : Nat := (v % (2 ^ n : Nat)).toNat

/-- Sets element `k` of a list. -/
def listSet {α : Type} (l : List α) (k : Nat) (v : α) : List α := l.set k v

/-- Element `k` of a list or a value to take where there is none. -/
def listGet {α : Type} (l : List α) (k : Nat) (d : α) : α := l.getD k d

/-- Adds to a counter that saturates. -/
def satAdd (cap v k : Nat) : Nat := min cap (v + k)

end Sys2Proof.Machine
end

