-- ==== Sys2Proof/Machine/Crypto.lean ====
section
/-! DEFINITION. The standard algorithms that the spec names: SHA-256 (R435, R447, R450), CRC-32C (R437, R449, R450), AES-256-GCM with a
96-bit IV and a 128-bit tag (R411, NIST SP 800-38D), and the AES key wrap KW (R415, NIST SP 800-38F). Their constants are those of
FIPS 180-4 and FIPS 197. -/

namespace Sys2Proof.Machine

/-! ## CRC-32C (R437) -/

/-- One bit of a CRC-32C register shifts out (polynomial 0x1EDC6F41, reflected). -/
def crcShift (c : BitVec 32) : BitVec 32 := if c.getLsbD 0 then (c >>> 1) ^^^ 0x82F63B78#32 else c >>> 1

/-- One byte enters a CRC-32C register. -/
def crcByte (c : BitVec 32) (b : Byte) : BitVec 32 :=
  crcShift (crcShift (crcShift (crcShift (crcShift (crcShift (crcShift (crcShift (c ^^^ b.zeroExtend 32))))))))

/-- CRC-32C: initial value and final XOR 0xFFFF_FFFF (R437). -/
def crc32c (l : List Byte) : BitVec 32 := (l.foldl crcByte 0xFFFFFFFF#32) ^^^ 0xFFFFFFFF#32

/-! ## SHA-256 (FIPS 180-4) -/

/-- The eight words that the hash starts from. -/
def shaStart : List (BitVec 32) :=
  [0x6A09E667#32, 0xBB67AE85#32, 0x3C6EF372#32, 0xA54FF53A#32,
   0x510E527F#32, 0x9B05688C#32, 0x1F83D9AB#32, 0x5BE0CD19#32]

/-- The 64 round constants. -/
def shaRounds : List (BitVec 32) :=
  [0x428A2F98#32, 0x71374491#32, 0xB5C0FBCF#32, 0xE9B5DBA5#32,
   0x3956C25B#32, 0x59F111F1#32, 0x923F82A4#32, 0xAB1C5ED5#32,
   0xD807AA98#32, 0x12835B01#32, 0x243185BE#32, 0x550C7DC3#32,
   0x72BE5D74#32, 0x80DEB1FE#32, 0x9BDC06A7#32, 0xC19BF174#32,
   0xE49B69C1#32, 0xEFBE4786#32, 0x0FC19DC6#32, 0x240CA1CC#32,
   0x2DE92C6F#32, 0x4A7484AA#32, 0x5CB0A9DC#32, 0x76F988DA#32,
   0x983E5152#32, 0xA831C66D#32, 0xB00327C8#32, 0xBF597FC7#32,
   0xC6E00BF3#32, 0xD5A79147#32, 0x06CA6351#32, 0x14292967#32,
   0x27B70A85#32, 0x2E1B2138#32, 0x4D2C6DFC#32, 0x53380D13#32,
   0x650A7354#32, 0x766A0ABB#32, 0x81C2C92E#32, 0x92722C85#32,
   0xA2BFE8A1#32, 0xA81A664B#32, 0xC24B8B70#32, 0xC76C51A3#32,
   0xD192E819#32, 0xD6990624#32, 0xF40E3585#32, 0x106AA070#32,
   0x19A4C116#32, 0x1E376C08#32, 0x2748774C#32, 0x34B0BCB5#32,
   0x391C0CB3#32, 0x4ED8AA4A#32, 0x5B9CCA4F#32, 0x682E6FF3#32,
   0x748F82EE#32, 0x78A5636F#32, 0x84C87814#32, 0x8CC70208#32,
   0x90BEFFFA#32, 0xA4506CEB#32, 0xBEF9A3F7#32, 0xC67178F2#32]

/-- The next word of a message schedule, from the last sixteen, oldest first. -/
def shaNext (w : List (BitVec 32)) : BitVec 32 :=
  let x := w.getD 14 0
  let y := w.getD 1 0
  ((x.rotateRight 17) ^^^ (x.rotateRight 19) ^^^ (x >>> 10)) + w.getD 9 0 +
    ((y.rotateRight 7) ^^^ (y.rotateRight 18) ^^^ (y >>> 3)) + w.getD 0 0

/-- One round on the eight working variables, with its constant and its schedule word. -/
def shaRound (v : List (BitVec 32)) (k w : BitVec 32) : List (BitVec 32) :=
  match v with
  | [a, b, c, d, e, f, g, h] =>
    let t := h + ((e.rotateRight 6) ^^^ (e.rotateRight 11) ^^^ (e.rotateRight 25)) + ((e &&& f) ^^^ (~~~e &&& g)) + k + w
    let u := ((a.rotateRight 2) ^^^ (a.rotateRight 13) ^^^ (a.rotateRight 22)) + ((a &&& b) ^^^ (a &&& c) ^^^ (b &&& c))
    [t + u, a, b, c, d + t, e, f, g]
  | _ => v

/-- The rounds of a block: the window of the message schedule moves on by a word in each. -/
def shaBlock (h : List (BitVec 32)) (w : List (BitVec 32)) : List (BitVec 32) :=
  let r := shaRounds.foldl (fun (p : List (BitVec 32) × List (BitVec 32)) k =>
    (shaRound p.1 k (p.2.getD 0 0), p.2.drop 1 ++ [shaNext p.2])) (h, w)
  List.zipWith (· + ·) h r.1

/-- A list cut into pieces of `n`. -/
def cutUp {α : Type} (n : Nat) : Nat → List α → List (List α)
  | 0, _ => []
  | k + 1, l => if l.isEmpty then [] else l.take n :: cutUp n k (l.drop n)

/-- The pieces of `n` of a list; the last may be shorter. -/
def pieces {α : Type} (n : Nat) (l : List α) : List (List α) := cutUp n (l.length / n + 1) l

/-- A message with its padding and its length in bits. -/
def shaPad (l : List Byte) : List Byte :=
  l ++ [0x80] ++ List.replicate ((119 - l.length % 64) % 64) 0 ++ natBE 8 (8 * l.length)

/-- SHA-256 of bytes; the first byte of the digest is its most significant. -/
def sha256 (l : List Byte) : BitVec 256 :=
  let h := (pieces 64 (shaPad l)).foldl
    (fun h b => shaBlock h ((pieces 4 b).map (fun q => BitVec.ofNat 32 (beNat q)))) shaStart
  BitVec.ofNat 256 (h.foldl (fun n w => n * 2 ^ 32 + w.toNat) 0)

/-- The 32 bytes of a digest or a key, first byte first. -/
def digestBytes (x : BitVec 256) : List Byte := natBE 32 x.toNat

/-! ## AES-256 (FIPS 197) -/

/-- The substitution of AES, 32 bytes in each number, the first byte most significant. -/
def sBox : List Nat :=
  [0x637C777BF26B6FC53001672BFED7AB76CA82C97DFA5947F0ADD4A2AF9CA472C0,
   0xB7FD9326363FF7CC34A5E5F171D8311504C723C31896059A071280E2EB27B275,
   0x09832C1A1B6E5AA0523BD6B329E32F8453D100ED20FCB15B6ACBBE394A4C58CF,
   0xD0EFAAFB434D338545F9027F503C9FA851A3408F929D38F5BCB6DA2110FFF3D2,
   0xCD0C13EC5F974417C4A77E3D645D197360814FDC222A908846EEB814DE5E0BDB,
   0xE0323A0A4906245CC2D3AC629195E479E7C8376D8DD54EA96C56F4EA657AAE08,
   0xBA78252E1CA6B4C6E8DD741F4BBD8B8A703EB5664803F60E613557B986C11D9E,
   0xE1F8981169D98E949B1E87E9CE5528DF8CA1890DBFE6426841992D0FB054BB16]

/-- The inverse of the substitution. -/
def sBoxInverse : List Nat :=
  [0x52096AD53036A538BF40A39E81F3D7FB7CE339829B2FFF87348E4344C4DEE9CB,
   0x547B9432A6C2233DEE4C950B42FAC34E082EA16628D924B2765BA2496D8BD125,
   0x72F8F66486689816D4A45CCC5D65B6926C704850FDEDB9DA5E154657A78D9D84,
   0x90D8AB008CBCD30AF7E45805B8B34506D02C1E8FCA3F0F02C1AFBD0301138A6B,
   0x3A9111414F67DCEA97F2CFCEF0B4E67396AC7422E7AD3585E2F937E81C75DF6E,
   0x47F11A711D29C5896FB7620EAA18BE1BFC563E4BC6D279209ADBC0FE78CD5AF4,
   0x1FDDA8338807C731B11210592780EC5F60517FA919B54A0D2DE57A9F93C99CEF,
   0xA0E03B4DAE2AF5B0C8EBBB3C83539961172B047EBA77D626E169146355210C7D]

/-- A byte of a table of 256. -/
def tableByte (t : List Nat) (b : Byte) : Byte := BitVec.ofNat 8 (t.getD (b.toNat / 32) 0 >>> (8 * (31 - b.toNat % 32)))

/-- Bytes added in the field. -/
def xorBytes (a b : List Byte) : List Byte := List.zipWith (· ^^^ ·) a b

/-- A byte of the field, doubled. -/
def xtime (b : Byte) : Byte := if b.getLsbD 7 then (b <<< 1) ^^^ 0x1B else b <<< 1

/-- A byte of the field times a constant below 16. -/
def timesByte (k : Nat) (b : Byte) : Byte :=
  let t := fun (i : Nat) (x : Byte) => if bitOf k i then x else 0
  let b2 := xtime b
  let b4 := xtime b2
  t 0 b ^^^ t 1 b2 ^^^ t 2 b4 ^^^ t 3 (xtime b4)

/-- A column times the circulant matrix whose first row is `m`. -/
def mixColumn (m : List Nat) (c : List Byte) : List Byte :=
  (List.range 4).map (fun i => (List.range 4).foldl (fun x j => x ^^^ timesByte (m.getD ((j + 4 - i) % 4) 0) (c.getD j 0)) 0)

/-- The columns of a block mixed. -/
def mixColumns (m : List Nat) (s : List Byte) : List Byte := ((pieces 4 s).map (mixColumn m)).flatten

/-- The rows of a block turned: byte `4c + r` comes from column `c + k × r`. -/
def shiftRows (k : Nat) (s : List Byte) : List Byte := (List.range 16).map (fun i => s.getD ((i + 4 * k * (i % 4)) % 16) 0)

/-- The next word of a key schedule of eight-word keys, from the last eight words, oldest first; `i` is its number. -/
def keyWord (i : Nat) (w : List (List Byte)) : List Byte :=
  let t := w.getD 7 []
  let f := fun l => l.map (tableByte sBox)
  let u := if i % 8 = 0 then xorBytes (f (t.drop 1 ++ t.take 1)) [BitVec.ofNat 8 (2 ^ (i / 8 - 1)), 0, 0, 0]
    else if i % 8 = 4 then f t else t
  xorBytes (w.getD 0 []) u

/-- The 15 round keys of a 256-bit key. -/
def roundKeys (key : BitVec 256) : List (List Byte) :=
  let w0 := pieces 4 (digestBytes key)
  let w := (List.range 52).foldl (fun w k => w ++ [keyWord (k + 8) (w.drop k)]) w0
  (pieces 4 w).map List.flatten

/-- One block encrypted under round keys. -/
def aesBlock (ks : List (List Byte)) (b : List Byte) : List Byte :=
  let f := fun s => shiftRows 1 (s.map (tableByte sBox))
  let s := ((ks.drop 1).take 13).foldl (fun s k => xorBytes (mixColumns [2, 3, 1, 1] (f s)) k) (xorBytes b (ks.getD 0 []))
  xorBytes (f s) (ks.getD 14 [])

/-- One block decrypted under round keys. -/
def aesUnblock (ks : List (List Byte)) (b : List Byte) : List Byte :=
  let g := fun s => (shiftRows 3 s).map (tableByte sBoxInverse)
  let s := (((ks.drop 1).take 13).reverse).foldl (fun s k => mixColumns [14, 11, 13, 9] (xorBytes (g s) k)) (xorBytes b (ks.getD 14 []))
  xorBytes (g s) (ks.getD 0 [])

/-! ## AES-256-GCM (R411, SP 800-38D) -/

/-- The product of two blocks in the field of GCM; bit 0 of the standard is the most significant. -/
def ghashMul (x y : BitVec 128) : BitVec 128 :=
  ((List.range 128).foldl (fun (p : BitVec 128 × BitVec 128) i =>
    (if x.getMsbD i then p.1 ^^^ p.2 else p.1,
     if p.2.getLsbD 0 then (p.2 >>> 1) ^^^ ((0xE1 : BitVec 128) <<< 120) else p.2 >>> 1)) (0, y)).1

/-- Bytes filled with zeros to whole blocks, as blocks. -/
def ghashBlocks (l : List Byte) : List (BitVec 128) :=
  (pieces 16 l).map (fun b => BitVec.ofNat 128 (beNat (b ++ List.replicate (16 - b.length) 0)))

/-- GHASH of the additional data and the ciphertext under the hash key. -/
def ghash (h : BitVec 128) (aad ct : List Byte) : BitVec 128 :=
  (ghashBlocks aad ++ ghashBlocks ct ++ [BitVec.ofNat 128 (8 * aad.length * 2 ^ 64 + 8 * ct.length)]).foldl
    (fun y x => ghashMul (y ^^^ x) h) 0

/-- The key stream under a 96-bit IV, from the counter after J0, which is the IV followed by 0x0000_0001. -/
def gcmStream (ks : List (List Byte)) (iv : List Byte) (n : Nat) : List Byte :=
  ((List.range ((n + 15) / 16)).map (fun i => aesBlock ks (iv ++ natBE 4 (i + 2)))).flatten

/-- The 16-byte tag of a ciphertext. -/
def gcmTag (ks : List (List Byte)) (iv aad ct : List Byte) : List Byte :=
  let h := BitVec.ofNat 128 (beNat (aesBlock ks (List.replicate 16 0)))
  xorBytes (aesBlock ks (iv ++ natBE 4 1)) (natBE 16 (ghash h aad ct).toNat)

/-- AES-256-GCM under a key, IV and additional data: the ciphertext followed by its tag. -/
def gcm (key : BitVec 256) (iv aad pt : List Byte) : List Byte :=
  let ks := roundKeys key
  let ct := xorBytes pt (gcmStream ks iv pt.length)
  ct ++ gcmTag ks iv aad ct

/-- Does the tag at the end of a ciphertext pass under a key? It is checked whole. -/
def gcmPasses (key : BitVec 256) (iv aad ct : List Byte) : Bool :=
  decide (16 ≤ ct.length) && gcmTag (roundKeys key) iv aad (ct.take (ct.length - 16)) == ct.drop (ct.length - 16)

/-- What a decryption places, whether or not its tag passes (R418). -/
def gcmText (key : BitVec 256) (iv ct : List Byte) : List Byte :=
  let c := ct.take (ct.length - 16)
  xorBytes c (gcmStream (roundKeys key) iv c.length)

/-- The opening of a ciphertext with its tag: the plaintext where the tag passes. -/
def gcmOpen (key : BitVec 256) (iv aad ct : List Byte) : Option (List Byte) :=
  if gcmPasses key iv aad ct then some (gcmText key iv ct) else none

/-! ## AES key wrap (R415, SP 800-38F) -/

/-- The integrity value of KW. -/
def wrapIcv : List Byte := List.replicate 8 0xA6

/-- A step of the wrapping of four semiblocks: the register and the semiblocks, with the step's number from 1. -/
def wrapStep (ks : List (List Byte)) (p : List Byte × List (List Byte)) (t : Nat) : List Byte × List (List Byte) :=
  let i := (t - 1) % 4
  let b := aesBlock ks (p.1 ++ p.2.getD i [])
  (xorBytes (b.take 8) (natBE 8 t), p.2.set i (b.drop 8))

/-- A 256-bit key wrapped under another: 40 bytes. -/
def keyWrap (key k : BitVec 256) : List Byte :=
  let ks := roundKeys key
  let r := (List.range 24).foldl (fun p t => wrapStep ks p (t + 1)) (wrapIcv, pieces 8 (digestBytes k))
  r.1 ++ r.2.flatten

/-- A step of the unwrapping. -/
def unwrapStep (ks : List (List Byte)) (p : List Byte × List (List Byte)) (t : Nat) : List Byte × List (List Byte) :=
  let i := (t - 1) % 4
  let b := aesUnblock ks (xorBytes p.1 (natBE 8 t) ++ p.2.getD i [])
  (b.take 8, p.2.set i (b.drop 8))

/-- The key in 40 wrapped bytes, where its integrity value passes. -/
def keyUnwrap (key : BitVec 256) (l : List Byte) : Option (BitVec 256) :=
  let ks := roundKeys key
  let r := (List.range 24).foldl (fun p t => unwrapStep ks p (24 - t)) (l.take 8, pieces 8 (l.drop 8))
  if l.length = 40 ∧ r.1 = wrapIcv then some (BitVec.ofNat 256 (beNat r.2.flatten)) else none

end Sys2Proof.Machine
end

