-- ==== Sys2Proof/Machine/RegMap.lean ====
section
/-! DEFINITION. The register index of R534: every register's place in control space and its field map, with the
access codes of R11, the numeric Reset values, and the limits that a field map gives under R535. -/

namespace Sys2Proof.Machine

/-- The access codes (R11). -/
inductive Acc where
  | ro | rw | rw1c | rw1s | wo | rc
  deriving DecidableEq, Repr

/-- What a field map says of a written value that is taken as another (R535). -/
inductive Lim where
  | any
  | zeroIs (v : Nat)
  | atMost (v : Nat)
  | atLeast (v : Nat)
  | range (lo hi : Nat)
  | threeIsZero
  deriving DecidableEq, Repr

/-- One field of a field map. -/
structure Field where
  hi  : Nat
  lo  : Nat
  acc : Acc
  rst : Nat
  lim : Lim
  deriving DecidableEq, Repr

/-- The registers by name. -/
inductive RegName where
  | modIdent | modSerialLo | modSerialHi | cspaceErrCount | cspaceErrAddr | cspaceErrSource
  | paceRate | paceLow | ledgerCap | ledgerGranted | ledgerWait | ledgerEvents
  | brownoutStatus | inputVoltage | boundDevice | boundResidence | boundDeclare | boundLastRefused
  | brickSpareLo | brickSpareHi | residueEvents | brickLost | brickHealth | brickSlice
  | switchStats | sramErr | hbmErr | hbmRepair | hbmPcRetiredLo | hbmPcRetiredHi
  | hbmGroupState | ueLastLo | ueLastHi | ddr5Site | ddr5Err | memService
  | memServiceStatus | basinPool | basinWindow | xlateQuota | xlateUsage | migrationCtrl
  | migrationWater | migrationStatus | xlateFaultStats | queueQuota | counterQuota | queueUsage
  | counterUsage | adminWqLo | adminWqHi | adminCrLo | adminCrHi | adminCtrl
  | adminStatus | regionQuota | domainQuota | regionUsage | domainUsage | remoteRefusals
  | pinQuota | pinUsage | pesynNode | pesynAddrCtrl | pesynPrefix6Lo | pesynPrefix6Hi
  | pesynMark | pesynResidence | pesynTimers | pesynTimers2 | pesynWindow | pesynGrant
  | pesynSlots | pesynLocalMax | pesynFilter | pesynDrop | pesynBusy | pesynRetx
  | gatewayMacLo | gatewayMacHi | commQuota | memberQuota | commUsage | memberUsage
  | collLanes | collResidue | collDrops | collChunks | engineStatus | laserStatus
  | statsSelect | statsDataLo | statsDataHi | photService | photServiceStatus | photCtrl
  | portCtrl | portStatus | flowCtrl | flowTiming | ucastLo | ucastHi
  | mcastLo | mcastHi | prioBuf | dscpMap | schedLeaf | schedNode
  | instSched | egressCtrl | ctrlShaper | policerCfg | policerRate1 | policerRate2
  | policerBurst | policeMapLo | policeMapHi | colourDscp | colourPcp | policeStatsSelect
  | policeStatsDataLo | policeStatsDataHi | shaperRate | shaperBurst | shaperTokens | melelStatus
  | melelEvents | melelCounts | melelCtrl | hostErrors | memwinLo | memwinHi
  | memwinCtrl | instCtrl | instStatus | instShare | instUsage | instQuiescedLo
  | instQuiescedHi | instEventCtrl | instSelf | keySlot | keyLoadCtrl | keyLoadStatus
  | keyLoadData | cipherStats | mgmtStatus | bootCount | logStatus | logDropped
  | logCursor | logWindow | mgmtRequest | sensorSelect | sensorValue | updateCmd
  | updateSrcLo | updateSrcHi | updateSrcLen | updateCount | updateStatus | updateDetail
  | bankStatus | imageVersionA | imageVersionB | activationCount | mgmtVersion | startStatus
  | platformStatus
  deriving DecidableEq, Repr

/-- One row of the register index: first address, outer copies and stride, inner copies and stride, fields. -/
structure RegRow where
  name   : RegName
  base   : Nat
  n1     : Nat
  s1     : Nat
  n2     : Nat
  s2     : Nat
  fields : List Field
  deriving DecidableEq, Repr

/-- A read-only field. -/
def ro (hi lo rst : Nat) : Field := ⟨hi, lo, .ro, rst, .any⟩
/-- A read-write field. -/
def rw (hi lo rst : Nat) : Field := ⟨hi, lo, .rw, rst, .any⟩
/-- A read-write field whose values are limited (R535). -/
def rwl (hi lo rst : Nat) (l : Lim) : Field := ⟨hi, lo, .rw, rst, l⟩
/-- A bit that a written 1 clears. -/
def w1 (b : Nat) : Field := ⟨b, b, .rw1c, 0, .any⟩
/-- A field each of whose bits a written 1 clears. -/
def w1s (hi lo : Nat) : Field := ⟨hi, lo, .rw1c, 0, .any⟩
/-- A field that a read clears. -/
def rc (hi lo : Nat) : Field := ⟨hi, lo, .rc, 0, .any⟩
/-- A write-only field. -/
def wo (hi lo : Nat) : Field := ⟨hi, lo, .wo, 0, .any⟩

/-- The register index, part 1 (R534). DESIGN CHOICE (log entry 128): BOUND_DEVICE written 0, which R58 treats as 1, is held and read back as 1. -/
def regRows1 : List RegRow := [
  ⟨.modIdent, 0x0, 1, 0x0, 1, 0x0, [ro 31 16 1896, ro 15 8 176, ro 7 0 1]⟩,
  ⟨.modSerialLo, 0x4, 1, 0x0, 1, 0x0, [ro 31 0 0]⟩,
  ⟨.modSerialHi, 0x8, 1, 0x0, 1, 0x0, [ro 15 0 0]⟩,
  ⟨.cspaceErrCount, 0x100, 1, 0x0, 1, 0x0, [rc 31 24, rc 23 16, rc 15 8, w1 0]⟩,
  ⟨.cspaceErrAddr, 0x108, 1, 0x0, 1, 0x0, [ro 31 31 0, ro 30 0 0]⟩,
  ⟨.cspaceErrSource, 0x10C, 1, 0x0, 1, 0x0, [w1 31, ro 23 16 0, ro 15 8 0, ro 7 0 0]⟩,
  ⟨.paceRate, 0x10000, 11, 0x4, 1, 0x0, [ro 23 16 255, ro 15 0 0]⟩,
  ⟨.paceLow, 0x10040, 11, 0x4, 1, 0x0, [w1 16, rc 15 0]⟩,
  ⟨.ledgerCap, 0x11000, 11, 0x10, 1, 0x0, [ro 30 26 16, ro 25 16 0, ro 9 0 0]⟩,
  ⟨.ledgerGranted, 0x11004, 11, 0x10, 1, 0x0, [ro 25 16 0, ro 9 0 0]⟩,
  ⟨.ledgerWait, 0x11008, 11, 0x10, 1, 0x0, [ro 25 16 0, ro 15 0 0]⟩,
  ⟨.ledgerEvents, 0x1100C, 11, 0x10, 1, 0x0, [w1 1, w1 0]⟩,
  ⟨.brownoutStatus, 0x12000, 1, 0x0, 1, 0x0, [rc 23 16, w1 8, ro 3 3 0, ro 2 2 0, ro 1 1 0, ro 0 0 0]⟩,
  ⟨.inputVoltage, 0x12004, 1, 0x0, 1, 0x0, [ro 15 0 0]⟩,
  ⟨.boundDevice, 0x13000, 8, 0x8, 1, 0x0, [rwl 19 0 1 (.zeroIs 1)]⟩,
  ⟨.boundResidence, 0x13004, 8, 0x8, 1, 0x0, [rw 15 0 2000]⟩,
  ⟨.boundDeclare, 0x13040, 1, 0x0, 1, 0x0, [rwl 31 16 50 (.zeroIs 1), rwl 15 0 20 (.zeroIs 1)]⟩,
  ⟨.boundLastRefused, 0x13044, 1, 0x0, 1, 0x0, [ro 31 0 0]⟩,
  ⟨.brickSpareLo, 0x20000, 8, 0x8, 1, 0x0, [ro 31 24 0, ro 23 16 0, ro 15 8 0, ro 7 0 0]⟩,
  ⟨.brickSpareHi, 0x20004, 8, 0x8, 1, 0x0, [ro 31 24 0, ro 23 16 0, ro 15 8 0, ro 7 0 0]⟩,
  ⟨.residueEvents, 0x20040, 8, 0x4, 1, 0x0, [rc 31 16, rc 15 8, w1 0]⟩,
  ⟨.brickLost, 0x20080, 8, 0x10, 4, 0x4, [ro 31 0 0]⟩,
  ⟨.brickHealth, 0x20100, 8, 0x4, 1, 0x0, [ro 23 16 0, ro 7 0 0]⟩,
  ⟨.brickSlice, 0x21000, 1, 0x0, 1, 0x0, [ro 16 16 0, rwl 15 0 2000 (.atLeast 500)]⟩,
  ⟨.switchStats, 0x21040, 8, 0x4, 1, 0x0, [rc 31 16, rc 15 0]⟩,
  ⟨.sramErr, 0x30000, 11, 0x4, 1, 0x0, [w1 31, rc 23 16, rc 15 0]⟩,
  ⟨.hbmErr, 0x30100, 8, 0x10, 1, 0x0, [w1 31, rc 23 16, rc 15 0]⟩,
  ⟨.hbmRepair, 0x30104, 8, 0x10, 1, 0x0, [ro 23 16 0, ro 15 0 0]⟩]

/-- The register index, part 2 (R534). -/
def regRows2 : List RegRow := [
  ⟨.hbmPcRetiredLo, 0x30108, 8, 0x10, 1, 0x0, [ro 31 0 0]⟩,
  ⟨.hbmPcRetiredHi, 0x3010C, 8, 0x10, 1, 0x0, [ro 31 0 0]⟩,
  ⟨.hbmGroupState, 0x30180, 8, 0x4, 1, 0x0, [ro 31 28 0, ro 27 24 0, ro 23 20 0, ro 19 16 0, ro 15 12 0, ro 11 8 0, ro 7 4 0, ro 3 0 0]⟩,
  ⟨.ueLastLo, 0x301C0, 1, 0x0, 1, 0x0, [ro 25 0 0]⟩,
  ⟨.ueLastHi, 0x301C4, 1, 0x0, 1, 0x0, [w1 31, ro 30 28 0, ro 15 0 0]⟩,
  ⟨.ddr5Site, 0x30200, 8, 0x4, 1, 0x0, [ro 31 28 0, ro 27 27 0, ro 24 16 0, ro 12 0 0]⟩,
  ⟨.ddr5Err, 0x30220, 8, 0x4, 1, 0x0, [w1 31, rc 23 16, rc 15 0]⟩,
  ⟨.memService, 0x30300, 1, 0x0, 1, 0x0, [wo 31 28, wo 10 8, wo 5 0]⟩,
  ⟨.memServiceStatus, 0x30304, 1, 0x0, 1, 0x0, [ro 15 12 0, ro 10 8 0, ro 7 0 0]⟩,
  ⟨.basinPool, 0x30400, 1, 0x0, 1, 0x0, [w1 17, ro 16 16 0, rwl 6 0 32 (.atMost 64)]⟩,
  ⟨.basinWindow, 0x30500, 64, 0x4, 1, 0x0, [w1 31, ro 30 30 0, rw 24 16 0, rw 8 0 0]⟩,
  ⟨.xlateQuota, 0x40000, 64, 0x4, 1, 0x0, [rw 31 16 0, rwl 12 0 0 (.atMost 4096)]⟩,
  ⟨.xlateUsage, 0x40100, 64, 0x4, 1, 0x0, [ro 31 16 0, ro 12 0 0]⟩,
  ⟨.migrationCtrl, 0x40200, 1, 0x0, 1, 0x0, [rw 27 24 7, rwl 23 8 16384 (.zeroIs 1), rwl 7 0 10 (.zeroIs 1)]⟩,
  ⟨.migrationWater, 0x40210, 8, 0x4, 1, 0x0, [rw 31 16 128, rw 15 0 64]⟩,
  ⟨.migrationStatus, 0x40240, 1, 0x0, 1, 0x0, [rc 31 16, rc 15 8, ro 2 0 0]⟩,
  ⟨.xlateFaultStats, 0x40244, 1, 0x0, 1, 0x0, [rc 31 16, rc 15 0]⟩,
  ⟨.queueQuota, 0x50000, 64, 0x8, 1, 0x0, [rwl 31 15 0 (.atMost 65536), rwl 14 0 0 (.atMost 16384)]⟩,
  ⟨.counterQuota, 0x50004, 64, 0x8, 1, 0x0, [rwl 16 0 0 (.atMost 65536)]⟩,
  ⟨.queueUsage, 0x50200, 64, 0x8, 1, 0x0, [ro 31 15 0, ro 14 0 0]⟩,
  ⟨.counterUsage, 0x50204, 64, 0x8, 1, 0x0, [ro 16 0 0]⟩,
  ⟨.adminWqLo, 0x51000, 64, 0x20, 1, 0x0, [rw 31 12 0]⟩,
  ⟨.adminWqHi, 0x51004, 64, 0x20, 1, 0x0, [rw 31 0 0]⟩,
  ⟨.adminCrLo, 0x51008, 64, 0x20, 1, 0x0, [rw 31 12 0]⟩,
  ⟨.adminCrHi, 0x5100C, 64, 0x20, 1, 0x0, [rw 31 0 0]⟩,
  ⟨.adminCtrl, 0x51010, 64, 0x20, 1, 0x0, [rw 31 31 0, w1 30, rwl 19 16 6 (.range 6 12), rwl 15 12 6 (.range 6 12), rw 11 6 0]⟩,
  ⟨.adminStatus, 0x51014, 64, 0x20, 1, 0x0, [ro 17 17 0, ro 16 16 0, ro 15 0 0]⟩,
  ⟨.regionQuota, 0x60000, 64, 0x8, 1, 0x0, [rwl 20 0 0 (.atMost 1048576)]⟩]

/-- The register index, part 3 (R534). -/
def regRows3 : List RegRow := [
  ⟨.domainQuota, 0x60004, 64, 0x8, 1, 0x0, [rwl 12 0 0 (.atMost 4096)]⟩,
  ⟨.regionUsage, 0x60200, 64, 0x8, 1, 0x0, [ro 20 0 0]⟩,
  ⟨.domainUsage, 0x60204, 64, 0x8, 1, 0x0, [ro 12 0 0]⟩,
  ⟨.remoteRefusals, 0x60400, 1, 0x0, 1, 0x0, [rc 29 20, rc 19 10, rc 9 0]⟩,
  ⟨.pinQuota, 0x60800, 64, 0x4, 1, 0x0, [rwl 18 0 0 (.atMost 262144)]⟩,
  ⟨.pinUsage, 0x60900, 64, 0x4, 1, 0x0, [ro 18 0 0]⟩,
  ⟨.pesynNode, 0x70000, 1, 0x0, 1, 0x0, [ro 31 31 0, rw 23 0 0]⟩,
  ⟨.pesynAddrCtrl, 0x70004, 1, 0x0, 1, 0x0, [rw 31 31 0, rw 30 24 0, rw 23 23 0, rw 15 0 0]⟩,
  ⟨.pesynPrefix6Lo, 0x70008, 1, 0x0, 1, 0x0, [rw 31 0 0]⟩,
  ⟨.pesynPrefix6Hi, 0x7000C, 1, 0x0, 1, 0x0, [rw 31 0 0]⟩,
  ⟨.pesynMark, 0x70010, 1, 0x0, 1, 0x0, [rw 31 31 0, rw 30 28 0, rw 27 25 0, rw 23 12 0, rw 11 6 0, rw 5 0 0]⟩,
  ⟨.pesynResidence, 0x70014, 1, 0x0, 1, 0x0, [rwl 15 0 2000 (.atLeast 100)]⟩,
  ⟨.pesynTimers, 0x70018, 1, 0x0, 1, 0x0, [rw 31 16 1000, rwl 15 0 100 (.zeroIs 1)]⟩,
  ⟨.pesynTimers2, 0x7001C, 1, 0x0, 1, 0x0, [rwl 31 16 20 (.zeroIs 1), rwl 15 0 50 (.zeroIs 1)]⟩,
  ⟨.pesynWindow, 0x70020, 1, 0x0, 1, 0x0, [rw 23 16 255, rw 15 8 64, rwl 7 0 2 (.zeroIs 1)]⟩,
  ⟨.pesynGrant, 0x70040, 2, 0x4, 1, 0x0, [rwl 23 16 8 (.zeroIs 1), rw 15 0 256]⟩,
  ⟨.pesynSlots, 0x70048, 2, 0x4, 1, 0x0, [ro 16 0 0]⟩,
  ⟨.pesynLocalMax, 0x70050, 2, 0x4, 1, 0x0, [rwl 16 0 16384 (.atMost 65536)]⟩,
  ⟨.pesynFilter, 0x70058, 2, 0x4, 1, 0x0, [w1 31, ro 21 0 0]⟩,
  ⟨.pesynDrop, 0x70060, 2, 0x10, 1, 0x0, [rc 31 16, rc 15 0]⟩,
  ⟨.pesynBusy, 0x70064, 2, 0x10, 1, 0x0, [rc 31 16, rc 15 0]⟩,
  ⟨.pesynRetx, 0x70068, 2, 0x10, 1, 0x0, [rc 31 16, rc 15 0]⟩,
  ⟨.gatewayMacLo, 0x70100, 32, 0x8, 1, 0x0, [rw 31 0 0]⟩,
  ⟨.gatewayMacHi, 0x70104, 32, 0x8, 1, 0x0, [rw 15 0 0]⟩,
  ⟨.commQuota, 0x80000, 64, 0x8, 1, 0x0, [rwl 12 0 0 (.atMost 4096)]⟩,
  ⟨.memberQuota, 0x80004, 64, 0x8, 1, 0x0, [rwl 20 0 0 (.atMost 1048576)]⟩,
  ⟨.commUsage, 0x80200, 64, 0x8, 1, 0x0, [ro 12 0 0]⟩,
  ⟨.memberUsage, 0x80204, 64, 0x8, 1, 0x0, [ro 20 0 0]⟩]

/-- The register index, part 4 (R534). -/
def regRows4 : List RegRow := [
  ⟨.collLanes, 0x80400, 2, 0x4, 1, 0x0, [ro 22 16 64, ro 15 8 0, ro 2 0 4]⟩,
  ⟨.collResidue, 0x80408, 2, 0x4, 1, 0x0, [rc 31 16, rc 15 8, w1 0]⟩,
  ⟨.collDrops, 0x80410, 2, 0x4, 1, 0x0, [rc 31 16, rc 15 0]⟩,
  ⟨.collChunks, 0x80418, 2, 0x4, 1, 0x0, [ro 12 0 0]⟩,
  ⟨.engineStatus, 0x90000, 8, 0x4, 1, 0x0, [ro 31 31 0, ro 30 30 0, ro 29 26 0, ro 25 25 0, ro 24 21 0, ro 15 0 0]⟩,
  ⟨.laserStatus, 0x90100, 8, 0x4, 1, 0x0, [ro 31 28 0, ro 27 27 0, ro 23 16 0, ro 7 0 0]⟩,
  ⟨.statsSelect, 0x90200, 1, 0x0, 1, 0x0, [ro 31 31 0, wo 30 30, rw 12 8 0, rw 3 0 0]⟩,
  ⟨.statsDataLo, 0x90208, 1, 0x0, 1, 0x0, [ro 31 0 0]⟩,
  ⟨.statsDataHi, 0x9020C, 1, 0x0, 1, 0x0, [ro 31 0 0]⟩,
  ⟨.photService, 0x90300, 1, 0x0, 1, 0x0, [wo 31 28, wo 10 8, wo 3 0]⟩,
  ⟨.photServiceStatus, 0x90304, 1, 0x0, 1, 0x0, [ro 15 12 0, ro 10 8 0, ro 7 0 0]⟩,
  ⟨.photCtrl, 0x90308, 1, 0x0, 1, 0x0, [rwl 31 16 10 (.zeroIs 1), rw 15 0 10000]⟩,
  ⟨.portCtrl, 0x91000, 32, 0x200, 1, 0x0, [rw 31 31 0, rw 30 30 0, rw 29 29 0, rwl 15 0 9216 (.atMost 9216)]⟩,
  ⟨.portStatus, 0x91004, 32, 0x200, 1, 0x0, [ro 31 31 0, ro 30 30 0, ro 29 29 0, w1 4, w1 3, w1 2, w1 1, w1 0]⟩,
  ⟨.flowCtrl, 0x91008, 32, 0x200, 1, 0x0, [rwl 31 30 0 (.threeIsZero), rw 23 16 0, rwl 15 0 65535 (.zeroIs 1)]⟩,
  ⟨.flowTiming, 0x9100C, 32, 0x200, 1, 0x0, [rwl 15 0 20 (.zeroIs 1)]⟩,
  ⟨.ucastLo, 0x91040, 32, 0x200, 8, 0x8, [rw 31 0 0]⟩,
  ⟨.ucastHi, 0x91044, 32, 0x200, 8, 0x8, [rw 31 31 0, rw 15 0 0]⟩,
  ⟨.mcastLo, 0x91080, 32, 0x200, 4, 0x8, [rw 31 0 0]⟩,
  ⟨.mcastHi, 0x91084, 32, 0x200, 4, 0x8, [rw 31 31 0, rw 15 0 0]⟩,
  ⟨.prioBuf, 0x910A0, 32, 0x200, 8, 0x4, [ro 31 24 0, rw 23 16 0, rw 15 8 0, rw 7 0 0]⟩,
  ⟨.dscpMap, 0x910C0, 32, 0x200, 8, 0x4, [rw 30 28 0, rw 26 24 0, rw 22 20 0, rw 18 16 0, rw 14 12 0, rw 10 8 0, rw 6 4 0, rw 2 0 0]⟩,
  ⟨.schedLeaf, 0xA0000, 4096, 0x4, 1, 0x0, [ro 31 26 0, ro 25 25 0, ro 24 16 0, rwl 15 0 1 (.zeroIs 1)]⟩,
  ⟨.schedNode, 0xA4000, 512, 0x4, 1, 0x0, [ro 31 31 0, ro 24 16 0, rwl 15 0 1 (.zeroIs 1)]⟩,
  ⟨.instSched, 0xA4800, 64, 0x4, 1, 0x0, [ro 27 16 0, ro 8 0 0]⟩,
  ⟨.egressCtrl, 0xA4900, 2, 0x4, 1, 0x0, [rw 15 0 0]⟩,
  ⟨.ctrlShaper, 0xA4A00, 32, 0x4, 1, 0x0, [rwl 19 0 1 (.zeroIs 1)]⟩,
  ⟨.policerCfg, 0xB0000, 2, 0x1000, 128, 0x10, [rw 31 31 0, rw 30 30 0, rw 29 29 0, rw 28 28 0, rw 27 27 0, rwl 26 25 0 (.threeIsZero)]⟩]

/-- The register index, part 5 (R534). -/
def regRows5 : List RegRow := [
  ⟨.policerRate1, 0xB0004, 2, 0x1000, 128, 0x10, [rwl 19 0 1 (.zeroIs 1)]⟩,
  ⟨.policerRate2, 0xB0008, 2, 0x1000, 128, 0x10, [rwl 19 0 1 (.zeroIs 1)]⟩,
  ⟨.policerBurst, 0xB000C, 2, 0x1000, 128, 0x10, [rwl 31 16 10 (.atLeast 10), rwl 15 0 10 (.atLeast 10)]⟩,
  ⟨.policeMapLo, 0xB2000, 32, 0x8, 1, 0x0, [rw 31 31 0, rw 30 24 0, rw 23 23 0, rw 22 16 0, rw 15 15 0, rw 14 8 0, rw 7 7 0, rw 6 0 0]⟩,
  ⟨.policeMapHi, 0xB2004, 32, 0x8, 1, 0x0, [rw 31 31 0, rw 30 24 0, rw 23 23 0, rw 22 16 0, rw 15 15 0, rw 14 8 0, rw 7 7 0, rw 6 0 0]⟩,
  ⟨.colourDscp, 0xB2100, 8, 0x4, 1, 0x0, [rw 15 14 0, rw 13 12 0, rw 11 10 0, rw 9 8 0, rw 7 6 0, rw 5 4 0, rw 3 2 0, rw 1 0 0]⟩,
  ⟨.colourPcp, 0xB2120, 1, 0x0, 1, 0x0, [rw 15 14 0, rw 13 12 0, rw 11 10 0, rw 9 8 0, rw 7 6 0, rw 5 4 0, rw 3 2 0, rw 1 0 0]⟩,
  ⟨.policeStatsSelect, 0xB2200, 1, 0x0, 1, 0x0, [ro 31 31 0, wo 30 30, rw 9 9 0, rw 8 2 0, rw 1 0 0]⟩,
  ⟨.policeStatsDataLo, 0xB2208, 1, 0x0, 1, 0x0, [ro 31 0 0]⟩,
  ⟨.policeStatsDataHi, 0xB220C, 1, 0x0, 1, 0x0, [ro 31 0 0]⟩,
  ⟨.shaperRate, 0xC0000, 2, 0x20000, 4608, 0x10, [rw 31 31 0, rw 30 30 0, rwl 19 0 1 (.range 1 320000)]⟩,
  ⟨.shaperBurst, 0xC0004, 2, 0x20000, 4608, 0x10, [rw 31 24 20, rwl 15 0 10 (.atLeast 10)]⟩,
  ⟨.shaperTokens, 0xC0008, 2, 0x20000, 4608, 0x10, [ro 31 0 0]⟩,
  ⟨.melelStatus, 0x100000, 1, 0x0, 1, 0x0, [ro 31 31 0, ro 30 30 0, ro 29 28 0, ro 15 0 0]⟩,
  ⟨.melelEvents, 0x100004, 1, 0x0, 1, 0x0, [w1 3, w1 2, w1 1, w1 0]⟩,
  ⟨.melelCounts, 0x100008, 1, 0x0, 1, 0x0, [rc 31 16, rc 15 8, rc 7 0]⟩,
  ⟨.melelCtrl, 0x10000C, 1, 0x0, 1, 0x0, [wo 31 31, rwl 7 0 10 (.zeroIs 1)]⟩,
  ⟨.hostErrors, 0x100010, 1, 0x0, 1, 0x0, [rc 31 24, rc 23 16, rc 15 8, rc 7 0]⟩,
  ⟨.memwinLo, 0x100100, 64, 0x10, 1, 0x0, [rw 31 26 0]⟩,
  ⟨.memwinHi, 0x100104, 64, 0x10, 1, 0x0, [rw 23 0 0]⟩,
  ⟨.memwinCtrl, 0x100108, 64, 0x10, 1, 0x0, [rw 31 31 0, rw 11 0 0]⟩,
  ⟨.instCtrl, 0x110000, 64, 0x20, 1, 0x0, [wo 31 31, rw 30 30 1, wo 29 29]⟩,
  ⟨.instStatus, 0x110004, 64, 0x20, 1, 0x0, [ro 31 29 0, ro 15 0 0]⟩,
  ⟨.instShare, 0x110008, 64, 0x20, 1, 0x0, [w1 31, rw 24 16 0, rw 8 0 0]⟩,
  ⟨.instUsage, 0x11000C, 64, 0x20, 1, 0x0, [rc 31 24, ro 13 0 0]⟩,
  ⟨.instQuiescedLo, 0x110800, 1, 0x0, 1, 0x0, [w1s 31 0]⟩,
  ⟨.instQuiescedHi, 0x110804, 1, 0x0, 1, 0x0, [w1s 31 0]⟩,
  ⟨.instEventCtrl, 0x110808, 1, 0x0, 1, 0x0, [rw 31 31 0, rw 2 0 0]⟩]

/-- The register index, part 6 (R534). -/
def regRows6 : List RegRow := [
  ⟨.instSelf, 0x1100000, 64, 0x1000000, 1, 0x0, [ro 31 30 0, ro 21 16 0, ro 15 0 0]⟩,
  ⟨.keySlot, 0x120000, 1024, 0x4, 1, 0x0, [ro 31 30 0, rw 29 29 0, w1 28, rw 21 16 0, ro 7 0 0]⟩,
  ⟨.keyLoadCtrl, 0x121000, 1, 0x0, 1, 0x0, [wo 31 28, wo 9 0]⟩,
  ⟨.keyLoadStatus, 0x121004, 1, 0x0, 1, 0x0, [ro 31 31 0, ro 17 8 0, ro 7 0 0]⟩,
  ⟨.keyLoadData, 0x121010, 10, 0x4, 1, 0x0, [wo 31 0]⟩,
  ⟨.cipherStats, 0x121100, 3, 0x4, 1, 0x0, [rc 31 16, rc 15 0]⟩,
  ⟨.mgmtStatus, 0x130000, 1, 0x0, 1, 0x0, [ro 31 31 1, ro 30 30 0, ro 29 29 0, ro 1 0 0]⟩,
  ⟨.bootCount, 0x130004, 1, 0x0, 1, 0x0, [ro 31 0 0]⟩,
  ⟨.logStatus, 0x130008, 1, 0x0, 1, 0x0, [ro 31 31 0, ro 30 30 0, ro 16 0 0]⟩,
  ⟨.logDropped, 0x13000C, 1, 0x0, 1, 0x0, [ro 31 0 0]⟩,
  ⟨.logCursor, 0x130010, 1, 0x0, 1, 0x0, [rw 31 31 0, rw 15 0 0]⟩,
  ⟨.logWindow, 0x130020, 16, 0x4, 1, 0x0, [ro 31 0 4294967295]⟩,
  ⟨.mgmtRequest, 0x130060, 1, 0x0, 1, 0x0, [wo 31 28, wo 27 0]⟩,
  ⟨.sensorSelect, 0x130070, 1, 0x0, 1, 0x0, [rw 7 0 1]⟩,
  ⟨.sensorValue, 0x130074, 1, 0x0, 1, 0x0, [ro 31 0 0]⟩,
  ⟨.updateCmd, 0x140000, 1, 0x0, 1, 0x0, [wo 31 28, wo 27 0]⟩,
  ⟨.updateSrcLo, 0x140004, 1, 0x0, 1, 0x0, [rw 31 12 0]⟩,
  ⟨.updateSrcHi, 0x140008, 1, 0x0, 1, 0x0, [rw 31 0 0]⟩,
  ⟨.updateSrcLen, 0x14000C, 1, 0x0, 1, 0x0, [rw 27 0 0]⟩,
  ⟨.updateCount, 0x140010, 1, 0x0, 1, 0x0, [rw 31 0 0]⟩,
  ⟨.updateStatus, 0x140014, 1, 0x0, 1, 0x0, [ro 31 30 0, ro 29 26 0, ro 24 24 0, ro 23 16 0, ro 15 0 0]⟩,
  ⟨.updateDetail, 0x140018, 1, 0x0, 1, 0x0, [ro 31 0 0]⟩,
  ⟨.bankStatus, 0x14001C, 1, 0x0, 1, 0x0, [ro 31 31 0, ro 27 24 0, ro 23 20 0, ro 16 16 0, ro 15 0 0]⟩,
  ⟨.imageVersionA, 0x140020, 1, 0x0, 1, 0x0, [ro 31 0 0]⟩,
  ⟨.imageVersionB, 0x140024, 1, 0x0, 1, 0x0, [ro 31 0 0]⟩,
  ⟨.activationCount, 0x140028, 1, 0x0, 1, 0x0, [ro 31 0 0]⟩,
  ⟨.mgmtVersion, 0x14002C, 1, 0x0, 1, 0x0, [ro 31 0 0]⟩,
  ⟨.startStatus, 0x150000, 1, 0x0, 1, 0x0, [ro 31 31 0, ro 30 30 0, ro 29 29 0, ro 27 24 0, ro 19 16 0, ro 15 0 0]⟩]

/-- The register index, part 7 (R534). -/
def regRows7 : List RegRow := [
  ⟨.platformStatus, 0x160000, 1, 0x0, 1, 0x0, [w1 31, ro 30 30 1, ro 18 16 0, ro 15 8 0, ro 7 0 0]⟩]

/-- The whole register index (R534). -/
def regRows : List RegRow := regRows1 ++ regRows2 ++ regRows3 ++ regRows4 ++ regRows5 ++ regRows6 ++ regRows7

/-- The index of a row's copy at an address, outer then inner, where the row has a copy there. -/
def RegRow.at? (r : RegRow) (a : Nat) : Option (Nat × Nat) :=
  if a < r.base then none
  else
    let off := a - r.base
    let i := if r.s1 = 0 then 0 else off / r.s1
    let rem := if r.s1 = 0 then off else off % r.s1
    let j := if r.s2 = 0 then 0 else rem / r.s2
    let last := if r.s2 = 0 then rem else rem % r.s2
    if i < r.n1 && j < r.n2 && last == 0 then some (i, j) else none

/-- The register at a control-space address, with its indices; none at a reserved offset (R526). -/
def findReg (a : Nat) : Option (RegRow × Nat × Nat) :=
  regRows.findSome? (fun r => (r.at? a).map (fun p => (r, p.1, p.2)))

/-- The row of a register name. -/
def rowOf (n : RegName) : Option RegRow := regRows.find? (fun r => decide (r.name = n))

/-- The address of a register's copy (R534). -/
def addrOf (n : RegName) (i j : Nat) : Nat :=
  match n with
  | .modIdent => 0x0
  | .modSerialLo => 0x4
  | .modSerialHi => 0x8
  | .cspaceErrCount => 0x100
  | .cspaceErrAddr => 0x108
  | .cspaceErrSource => 0x10C
  | .paceRate => 0x10000 + 0x4 * i
  | .paceLow => 0x10040 + 0x4 * i
  | .ledgerCap => 0x11000 + 0x10 * i
  | .ledgerGranted => 0x11004 + 0x10 * i
  | .ledgerWait => 0x11008 + 0x10 * i
  | .ledgerEvents => 0x1100C + 0x10 * i
  | .brownoutStatus => 0x12000
  | .inputVoltage => 0x12004
  | .boundDevice => 0x13000 + 0x8 * i
  | .boundResidence => 0x13004 + 0x8 * i
  | .boundDeclare => 0x13040
  | .boundLastRefused => 0x13044
  | .brickSpareLo => 0x20000 + 0x8 * i
  | .brickSpareHi => 0x20004 + 0x8 * i
  | .residueEvents => 0x20040 + 0x4 * i
  | .brickLost => 0x20080 + 0x10 * i + 0x4 * j
  | .brickHealth => 0x20100 + 0x4 * i
  | .brickSlice => 0x21000
  | .switchStats => 0x21040 + 0x4 * i
  | .sramErr => 0x30000 + 0x4 * i
  | .hbmErr => 0x30100 + 0x10 * i
  | .hbmRepair => 0x30104 + 0x10 * i
  | .hbmPcRetiredLo => 0x30108 + 0x10 * i
  | .hbmPcRetiredHi => 0x3010C + 0x10 * i
  | .hbmGroupState => 0x30180 + 0x4 * i
  | .ueLastLo => 0x301C0
  | .ueLastHi => 0x301C4
  | .ddr5Site => 0x30200 + 0x4 * i
  | .ddr5Err => 0x30220 + 0x4 * i
  | .memService => 0x30300
  | .memServiceStatus => 0x30304
  | .basinPool => 0x30400
  | .basinWindow => 0x30500 + 0x4 * i
  | .xlateQuota => 0x40000 + 0x4 * i
  | .xlateUsage => 0x40100 + 0x4 * i
  | .migrationCtrl => 0x40200
  | .migrationWater => 0x40210 + 0x4 * i
  | .migrationStatus => 0x40240
  | .xlateFaultStats => 0x40244
  | .queueQuota => 0x50000 + 0x8 * i
  | .counterQuota => 0x50004 + 0x8 * i
  | .queueUsage => 0x50200 + 0x8 * i
  | .counterUsage => 0x50204 + 0x8 * i
  | .adminWqLo => 0x51000 + 0x20 * i
  | .adminWqHi => 0x51004 + 0x20 * i
  | .adminCrLo => 0x51008 + 0x20 * i
  | .adminCrHi => 0x5100C + 0x20 * i
  | .adminCtrl => 0x51010 + 0x20 * i
  | .adminStatus => 0x51014 + 0x20 * i
  | .regionQuota => 0x60000 + 0x8 * i
  | .domainQuota => 0x60004 + 0x8 * i
  | .regionUsage => 0x60200 + 0x8 * i
  | .domainUsage => 0x60204 + 0x8 * i
  | .remoteRefusals => 0x60400
  | .pinQuota => 0x60800 + 0x4 * i
  | .pinUsage => 0x60900 + 0x4 * i
  | .pesynNode => 0x70000
  | .pesynAddrCtrl => 0x70004
  | .pesynPrefix6Lo => 0x70008
  | .pesynPrefix6Hi => 0x7000C
  | .pesynMark => 0x70010
  | .pesynResidence => 0x70014
  | .pesynTimers => 0x70018
  | .pesynTimers2 => 0x7001C
  | .pesynWindow => 0x70020
  | .pesynGrant => 0x70040 + 0x4 * i
  | .pesynSlots => 0x70048 + 0x4 * i
  | .pesynLocalMax => 0x70050 + 0x4 * i
  | .pesynFilter => 0x70058 + 0x4 * i
  | .pesynDrop => 0x70060 + 0x10 * i
  | .pesynBusy => 0x70064 + 0x10 * i
  | .pesynRetx => 0x70068 + 0x10 * i
  | .gatewayMacLo => 0x70100 + 0x8 * i
  | .gatewayMacHi => 0x70104 + 0x8 * i
  | .commQuota => 0x80000 + 0x8 * i
  | .memberQuota => 0x80004 + 0x8 * i
  | .commUsage => 0x80200 + 0x8 * i
  | .memberUsage => 0x80204 + 0x8 * i
  | .collLanes => 0x80400 + 0x4 * i
  | .collResidue => 0x80408 + 0x4 * i
  | .collDrops => 0x80410 + 0x4 * i
  | .collChunks => 0x80418 + 0x4 * i
  | .engineStatus => 0x90000 + 0x4 * i
  | .laserStatus => 0x90100 + 0x4 * i
  | .statsSelect => 0x90200
  | .statsDataLo => 0x90208
  | .statsDataHi => 0x9020C
  | .photService => 0x90300
  | .photServiceStatus => 0x90304
  | .photCtrl => 0x90308
  | .portCtrl => 0x91000 + 0x200 * i
  | .portStatus => 0x91004 + 0x200 * i
  | .flowCtrl => 0x91008 + 0x200 * i
  | .flowTiming => 0x9100C + 0x200 * i
  | .ucastLo => 0x91040 + 0x200 * i + 0x8 * j
  | .ucastHi => 0x91044 + 0x200 * i + 0x8 * j
  | .mcastLo => 0x91080 + 0x200 * i + 0x8 * j
  | .mcastHi => 0x91084 + 0x200 * i + 0x8 * j
  | .prioBuf => 0x910A0 + 0x200 * i + 0x4 * j
  | .dscpMap => 0x910C0 + 0x200 * i + 0x4 * j
  | .schedLeaf => 0xA0000 + 0x4 * i
  | .schedNode => 0xA4000 + 0x4 * i
  | .instSched => 0xA4800 + 0x4 * i
  | .egressCtrl => 0xA4900 + 0x4 * i
  | .ctrlShaper => 0xA4A00 + 0x4 * i
  | .policerCfg => 0xB0000 + 0x1000 * i + 0x10 * j
  | .policerRate1 => 0xB0004 + 0x1000 * i + 0x10 * j
  | .policerRate2 => 0xB0008 + 0x1000 * i + 0x10 * j
  | .policerBurst => 0xB000C + 0x1000 * i + 0x10 * j
  | .policeMapLo => 0xB2000 + 0x8 * i
  | .policeMapHi => 0xB2004 + 0x8 * i
  | .colourDscp => 0xB2100 + 0x4 * i
  | .colourPcp => 0xB2120
  | .policeStatsSelect => 0xB2200
  | .policeStatsDataLo => 0xB2208
  | .policeStatsDataHi => 0xB220C
  | .shaperRate => 0xC0000 + 0x20000 * i + 0x10 * j
  | .shaperBurst => 0xC0004 + 0x20000 * i + 0x10 * j
  | .shaperTokens => 0xC0008 + 0x20000 * i + 0x10 * j
  | .melelStatus => 0x100000
  | .melelEvents => 0x100004
  | .melelCounts => 0x100008
  | .melelCtrl => 0x10000C
  | .hostErrors => 0x100010
  | .memwinLo => 0x100100 + 0x10 * i
  | .memwinHi => 0x100104 + 0x10 * i
  | .memwinCtrl => 0x100108 + 0x10 * i
  | .instCtrl => 0x110000 + 0x20 * i
  | .instStatus => 0x110004 + 0x20 * i
  | .instShare => 0x110008 + 0x20 * i
  | .instUsage => 0x11000C + 0x20 * i
  | .instQuiescedLo => 0x110800
  | .instQuiescedHi => 0x110804
  | .instEventCtrl => 0x110808
  | .instSelf => 0x1100000 + 0x1000000 * i
  | .keySlot => 0x120000 + 0x4 * i
  | .keyLoadCtrl => 0x121000
  | .keyLoadStatus => 0x121004
  | .keyLoadData => 0x121010 + 0x4 * i
  | .cipherStats => 0x121100 + 0x4 * i
  | .mgmtStatus => 0x130000
  | .bootCount => 0x130004
  | .logStatus => 0x130008
  | .logDropped => 0x13000C
  | .logCursor => 0x130010
  | .logWindow => 0x130020 + 0x4 * i
  | .mgmtRequest => 0x130060
  | .sensorSelect => 0x130070
  | .sensorValue => 0x130074
  | .updateCmd => 0x140000
  | .updateSrcLo => 0x140004
  | .updateSrcHi => 0x140008
  | .updateSrcLen => 0x14000C
  | .updateCount => 0x140010
  | .updateStatus => 0x140014
  | .updateDetail => 0x140018
  | .bankStatus => 0x14001C
  | .imageVersionA => 0x140020
  | .imageVersionB => 0x140024
  | .activationCount => 0x140028
  | .mgmtVersion => 0x14002C
  | .startStatus => 0x150000
  | .platformStatus => 0x160000

/-- The numeric reset value of a register word: each field's Reset column (R529). -/
def RegRow.reset (r : RegRow) : Nat := r.fields.foldl (fun w f => w + f.rst * 2 ^ f.lo) 0

/-- The value that a field takes for a written value (R535). -/
def Lim.take (l : Lim) (v : Nat) : Nat :=
  match l with
  | .any => v
  | .zeroIs d => if v = 0 then d else v
  | .atMost m => min v m
  | .atLeast m => max v m
  | .range lo hi => max lo (min v hi)
  | .threeIsZero => if v = 3 then 0 else v

/-- One field after a write of the word `w`, from the value it holds (R11, R535). -/
def Field.write (f : Field) (old w : Nat) : Nat :=
  let o := bitsOf old f.hi f.lo
  let v := bitsOf w f.hi f.lo
  match f.acc with
  | .ro => o
  | .rc => o
  | .wo => 0
  | .rw => f.lim.take v
  | .rw1s => o ||| v
  | .rw1c => o - (o &&& v)

/-- A register word after a write: each field by its access code; reserved bits stay zero (R11, R14). -/
def RegRow.write (r : RegRow) (old w : Nat) : Nat :=
  r.fields.foldl (fun acc f => acc + (f.write old w) * 2 ^ f.lo) 0

/-- What a read of a register word leaves: its RC fields are cleared (R11). -/
def RegRow.afterRead (r : RegRow) (old : Nat) : Nat :=
  r.fields.foldl (fun acc f => acc + (if f.acc = .rc then 0 else bitsOf old f.hi f.lo) * 2 ^ f.lo) 0

/-- What a read of a register word returns: write-only and reserved fields read as zero (R11, R14). -/
def RegRow.readVal (r : RegRow) (w : Nat) : Nat :=
  r.fields.foldl (fun acc f => acc + (if f.acc = .wo then 0 else bitsOf w f.hi f.lo) * 2 ^ f.lo) 0

end Sys2Proof.Machine
end

