-- ==== Sys2Proof/Machine/State.lean ====
section
/-! DEFINITION. The state of the module: one plain record for each chapter of the spec, the waiting commands, the
reasons a command can stop, and the machine right after reset. -/

namespace Sys2Proof.Machine

/-! ## Self-timing, the current ledger and brownout (02) -/

/-- A grant of current, or a request for one: who, at what cost in units of 0.25 A, charged to which instance
(R43, R45, R49). -/
structure Grant where
  unit : UnitId
  cost : Nat
  inst : Option Nat
  deriving DecidableEq, Repr, Inhabited

/-- A waiting request with the number of later requests granted ahead of it (R47). -/
structure GrantWait where
  req  : Grant
  seen : Nat
  deriving DecidableEq, Repr, Inhabited

/-- The ledger of one rail (R42 to R50). -/
structure Rail where
  full       : Nat
  standing   : Nat
  allowFull  : Nat
  allowHalf  : Bool
  sixteenths : Nat
  stopped    : Bool
  slowHold   : Bool
  goodSince  : Option Nat
  grants     : List Grant
  waiting    : List GrantWait
  deriving DecidableEq, Repr, Inhabited

/-- Pace, brownout and input state beyond the registers (R36, R52 to R54, R507 to R511). `asked` are the units that a GRANT_REQUEST made
busy, until their GRANT_RETURN (R43). -/
structure Power where
  rails        : List Rail
  readings     : Tab Nat
  lowest       : Nat
  below42      : Nat
  below42Since : Option Nat
  stepAt       : Option Nat
  mainOn       : Bool
  stageOpen    : Bool
  inRangeSince : Option Nat
  under58Since : Option Nat
  standby      : Bool
  readyPin     : Bool
  thermtrip    : Bool
  straps       : Nat
  asked        : List UnitId
  deriving DecidableEq, Repr, Inhabited

/-! ## Memory tiers (05) -/

/-- One HBM4 stack: pseudo-channels retired, group states, context-store frames, rows (R152 to R156). -/
structure Stack where
  retired    : List Nat
  groups     : List Nat
  leaving    : Tab Nat
  store      : List Nat
  rowHits    : Tab (List (Nat × Nat × Nat))
  candidates : List (Nat × Nat)
  lastRepair : Tab Nat
  ueTimes    : Tab (List Nat)
  rows       : Nat
  nextGroup  : Nat
  deriving DecidableEq, Repr, Inhabited

/-- One DDR5 site (R157 to R160). -/
structure Site where
  state    : Nat
  present  : Bool
  capGiB   : Nat
  lost     : List Nat
  deriving DecidableEq, Repr, Inhabited

/-- A tile staged in a basin pool for a context of a brick, in 4 KiB units, with the bytes it holds (R136, R137). -/
structure Staged where
  key   : Nat
  chan  : Nat
  tile  : Nat
  units : Nat
  bytes : List Byte
  deriving DecidableEq, Repr, Inhabited

/-- The memories of the module and their error state: the codewords with an error that cannot be corrected, those of them that were
detected and recorded since they were written, and the codewords with one bad symbol that no read has met yet, each with its row and
symbol (R145, R146). -/
structure Tiers where
  dev       : Mem
  basin     : Mem
  poison    : List Place
  logged    : List Place
  soft      : List (Place × Nat × Nat)
  hbm    : List Stack
  sites     : List Site
  poolUnits : Nat
  windows   : Tab (Nat × Nat)
  staged    : List Staged
  deriving DecidableEq, Repr, Inhabited

/-! ## Address translation and migration (06) -/

/-- One enabled segment (R167). -/
structure Seg where
  va   : Nat
  len  : Nat
  lfn  : Nat
  perm : Nat
  deriving DecidableEq, Repr, Inhabited

/-- One context (R162, R184). -/
structure Ctx where
  inst  : Nat
  root  : Nat
  limit : Nat
  mode  : Nat
  segs  : Tab Seg
  dying : Bool
  deriving DecidableEq, Repr, Inhabited

/-- One allocated logical frame: its holder, its physical frame and what migration keeps of it (R163, R185, R191). -/
structure Lfn where
  inst   : Nat
  pfn    : Nat
  table  : Bool
  fixed  : Bool
  run    : Option Nat
  keep   : Bool
  count  : Nat
  dying  : Bool
  deriving DecidableEq, Repr, Inhabited

/-- One cached translation: cache `cache` (0 to 9 the shared cache of a die, 16 + b the cache of brick b), the page,
and the frame or host page it maps to (R172). -/
structure TEnt where
  cache : Nat
  ctx   : Nat
  base  : Nat
  size  : Nat
  host  : Bool
  lfn   : Nat
  addr  : Nat
  perm  : Nat
  seg   : Bool
  deriving DecidableEq, Repr, Inhabited

/-- How a translation ends (R173, R177): the frame or host address with the page it lies in, or why there is none. -/
inductive XRes where
  | frame (lfn off base size perm : Nat) (seg : Bool)
  | host (addr base size perm : Nat)
  | notMapped (level : Nat)
  | access
  | malformed
  | uncorrectable (addr : Nat)
  deriving DecidableEq, Repr, Inhabited

/-- What waits on a translation fault (R180, R181): a channel of a brick's context, or its instruction stream where `ch` is 8;
a descriptor; a collective; or a walk by itself. -/
inductive Waiter where
  | brick (k ch : Nat)
  | desc (q idx : Nat)
  | coll (c : Nat)
  | walk (e : Eng) (kind : Kind)
  deriving DecidableEq, Repr, Inhabited

/-- An outstanding not-mapped fault (R180 to R183). -/
structure XFault where
  ctx      : Nat
  inst     : Nat
  granule  : Nat
  address  : Nat
  level    : Nat
  kinds    : Nat
  since    : Nat
  die      : Nat
  engines  : List (Nat × Nat)
  waiters  : List (Waiter × Nat)
  written  : Bool
  deriving DecidableEq, Repr, Inhabited

/-- An instance's fault ring (R184). -/
structure FaultRing where
  addr    : Nat
  entries : Nat
  vector  : Nat
  next    : Nat
  deriving DecidableEq, Repr, Inhabited

/-- Why a frame moves, in order of precedence (R154, R158, R187). -/
inductive MoveKind where
  | retire | evacuate | advice | counters
  deriving DecidableEq, Repr, Inhabited

/-- A frame move: kind, first LFN, number of frames (64 for a 4 GiB run), the place it wants, and while it runs
the destination frame and the next 256 KiB piece (R187). `store` marks a context-store frame, whose `lfn` is its PFN. -/
structure Move where
  kind  : MoveKind
  lfn   : Nat
  n     : Nat
  place : Nat
  store : Bool
  dest  : Nat
  piece : Nat
  deriving DecidableEq, Repr, Inhabited

/-- Contexts, frames, caches, faults and moves of the module; `queued` are the moves that advice and counters ask for, `demoting`
the stacks whose free frames fell to LOW and have not reached HIGH since (R191). -/
structure Xlate where
  ctxs    : Tab Ctx
  lfns    : Tab Lfn
  cache   : List TEnt
  rings   : Tab FaultRing
  faults  : Tab XFault
  nextId  : Nat
  move    : Option Move
  queued  : List Move
  demoting : List Nat
  epochAt : Nat
  epochMs : Nat
  deriving DecidableEq, Repr, Inhabited

/-! ## Work queues, completion rings, counters and admin queues (07) -/

/-- A completion entry before its OWN byte (R209). -/
structure Entry where
  result  : Nat
  bytes   : Nat
  queue   : Nat
  index   : Nat
  status  : Nat
  opcode  : Nat
  kind    : Nat
  gen     : Nat
  node    : Nat
  detail  : Nat
  deriving DecidableEq, Repr, Inhabited

/-- A remote tile that a brick hands to a brick-fed queue (R116): what its descriptor would say, with the bytes of a
store, or those that a load has received. -/
structure Tile where
  load   : Bool
  len    : Nat
  brick  : Nat
  chan   : Nat
  index  : Nat
  data   : List Byte
  key    : Nat
  node   : Nat
  offset : Nat
  imm    : Option Nat
  launch : Nat
  deriving DecidableEq, Repr, Inhabited

/-- The descriptor at the head of a queue: how many entries the queue consumed before it, its 64 bytes or the remote tile it is, the status that an
entry that could not be read takes (R536), since when it holds its completion slot (R57, R62), since when it is at the
head (R228), the sequences that its messages were given (R497), its fragment or exchange table (R208, R308), whether it passed
the checks that complete a descriptor at once (R198, R208), and the DDR5 channels that it has asked current for (R57). -/
structure Head where
  idx   : Nat
  bytes : List Byte
  tile  : Option Tile
  bad   : Option Nat
  slot  : Option Nat
  since : Nat
  seqs  : List Nat
  table : List Byte
  judged : Bool
  chans : List Nat
  deriving DecidableEq, Repr, Inhabited

/-- An admitted descriptor, or one that finished and whose entry is held behind an earlier one (R203, R211): its number in its queue, its
expiry E, D in µs as it was admitted where it is a remote write (R498), what it counts, whether data of it went to host memory with no flush read since
(R384), its fragment table, the translations that a READ of it holds, as ranges of logical device addresses (R247), the DDR5 channels that
it keeps busy (R45), whether its OWN write was discarded (R148, R160), and its entry once it has finished. -/
structure Desc where
  idx    : Nat
  op     : Nat
  bytes  : List Byte
  tile   : Option Tile
  expiry : Nat
  devUs  : Nat
  since  : Nat
  gen    : Nat
  dUs    : Nat
  count  : Option (Nat × Nat)
  toHost : Bool
  table  : List Byte
  pins   : List (Nat × Nat)
  chans  : List Nat
  spoilt : Bool
  era    : Nat
  done   : Option Entry
  deriving DecidableEq, Repr, Inhabited

/-- A work queue (R194, R203, R220, R224). `c` counts the entries that it has consumed: the consumer index is that count modulo the ring size
(`WQ.ix`), and the count tells apart descriptors of one ring index. `errIdx` and `errAt` are the failing descriptor of its ERROR and the moment,
and `muted` says that a queue being destroyed was in ERROR (R252). `again` says that a doorbell or its counter came while
an entry was being read (R204, R206). -/
structure WQ where
  inst     : Nat
  cr       : Nat
  log2     : Nat
  cls      : Nat
  refuse   : Bool
  delay    : Nat
  feed     : Nat
  page     : Nat
  loc      : Nat
  ring     : Nat
  lda      : Nat
  ctx      : Nat
  domain   : Nat
  leaf     : Nat
  prodCtr  : Nat
  p        : Nat
  c        : Nat
  state    : Nat
  head     : Option Head
  reading  : Bool
  stalled  : Bool
  again    : Bool
  tiles    : List Tile
  flight   : List Desc
  firstErr : Nat
  win      : Nat
  winAcked : Nat
  winCut   : Bool
  detached : Bool
  errIdx   : Nat
  errAt    : Nat
  muted    : Bool
  deriving DecidableEq, Repr, Inhabited

/-- A completion ring (R213 to R216). -/
structure CR where
  inst     : Nat
  log2     : Nat
  loc      : Nat
  vector   : Nat
  page     : Nat
  modCount : Nat
  modUs    : Nat
  ring     : Nat
  lda      : Nat
  ctx      : Nat
  wr       : Nat
  ret      : Nat
  written  : Nat
  held     : Nat
  unseen   : Nat
  oldest   : Nat
  counter  : Nat
  detached : Bool
  deriving DecidableEq, Repr, Inhabited

/-- A free counter and its mirror: location and address (R217, R218). -/
structure Ctr where
  inst   : Nat
  value  : Nat
  mirror : Option (Nat × Nat)
  deriving DecidableEq, Repr, Inhabited

/-- An access that holds a translation (R176): a tile of a brick's channel, a host access of a brick, or a READ of a queue. -/
inductive Use where
  | tile (k ch n : Nat)
  | host (k id : Nat)
  | read (q idx : Nat)
  deriving DecidableEq, Repr, Inhabited

/-- What an accepted admin command still waits for (R223). -/
inductive AdminWait where
  | wqDestroy (q discarded : Nat)
  | ctxDestroy (c : Nat)
  | invalidate (uses : List Use)
  | frameFree (base n : Nat) (uses : List Use)
  | prefetch (left : List Nat) (place : Nat)
  deriving DecidableEq, Repr, Inhabited

/-- The admin queue of an instance with its completion ring (R222, R223). `mute` says that the command that waits was accepted from a queue
detached since, so that its entry is written nowhere (R386). -/
structure Admin where
  p       : Nat
  c       : Nat
  head    : Option Head
  reading : Bool
  stalled : Bool
  again   : Bool
  wait    : Option AdminWait
  mute    : Bool
  opWait  : Nat
  idxWait : Nat
  wr      : Nat
  ret     : Nat
  written : Nat
  notices : List Entry
  detached : Bool
  deriving DecidableEq, Repr, Inhabited

structure Queues where
  wqs   : Tab WQ
  crs   : Tab CR
  ctrs  : Tab Ctr
  admin : Tab Admin
  deriving DecidableEq, Repr, Inhabited

/-! ## Remote memory (08) -/

/-- A protection domain (R230); 0xFFFF for no cipher slot and for no target ring. -/
structure Dom where
  inst  : Nat
  tag   : Nat
  nmatch : Nat
  nmask : Nat
  slot  : Nat
  ring  : Nat
  deriving DecidableEq, Repr, Inhabited

/-- A registered region: the pages it pinned, each by its first address, its size and its LDA (R236). -/
structure Region where
  inst   : Nat
  domain : Nat
  ctx    : Nat
  access : Nat
  va     : Nat
  len    : Nat
  pages  : List (Nat × Nat × Nat)
  deriving DecidableEq, Repr, Inhabited

structure Remote where
  doms    : Tab Dom
  regions : Tab Region
  tags    : Tab Nat
  freed   : List Nat
  fresh   : Nat
  deriving DecidableEq, Repr, Inhabited

/-! ## The Pesyn transport (09) -/

/-- A Pesyn packet: the header fields of R264 with its 16 type bytes (R265, R316), its plaintext payload, the die and
node it is for, the key under which it is encrypted, where ENC is set, and the moment after which it is not sent (R282). -/
structure Packet where
  typ     : Nat
  flags   : Nat
  op      : Nat
  tag     : Nat
  ftag    : Nat
  key     : Nat
  len     : Nat
  off     : Nat
  shift   : Nat
  tf      : List Byte
  epoch   : Nat
  count   : Nat
  dstNode : Nat
  die     : Nat
  payload : List Byte
  ekey    : Option (BitVec 256)
  dead    : Option Nat
  deriving DecidableEq, Repr, Inhabited

/-- The state of an initiator's message (R292). -/
inductive MsgState where
  | requesting | awaiting
  deriving DecidableEq, Repr, Inhabited

/-- What a message belongs to: a descriptor of a queue, a contribution, or a collective control message. -/
inductive MsgOwner where
  | desc (q idx : Nat)
  | contrib (c rank off epoch : Nat)
  | enter (c rank : Nat)
  | restart (c rank chunk : Nat)
  | seal (c rank : Nat)
  deriving DecidableEq, Repr, Inhabited

/-- An outstanding message at its initiator (R280 to R284, R292). `frags` are the local ranges, address and length, in
context `ctx`, where 0xFFFF stands for bytes held in `bytes`; `coll` the type bytes 38 to 47 of R316. `begun` says that a packet
was sent, `answerAt` is the last answer or the first sending, `granted` the end of the highest grant, `sentTo` how far packets were formed,
`leaves` the leaf of the packets first formed from each offset on (R354, R361),
`backAt` the end of a backoff, `res` the residence R in force at its moment W (R285). -/
structure Msg where
  owner    : MsgOwner
  inst     : Nat
  gen      : Nat
  ctx      : Nat
  leaf     : Nat
  typ      : Nat
  op       : Nat
  node     : Nat
  tag      : Nat
  ftag     : Nat
  key      : Nat
  len      : Nat
  off      : Nat
  imm      : Nat
  cipher   : Nat
  coll     : List Byte
  frags    : List (Nat × Nat)
  bytes    : List Byte
  state    : MsgState
  admitted : Bool
  begun    : Bool
  wAt      : Option Nat
  answerAt : Nat
  interval : Nat
  timerAt  : Nat
  busy     : Nat
  lastBusy : Bool
  backAt   : Option Nat
  granted  : Nat
  sentTo   : Nat
  leaves   : Tab Nat
  res      : Nat
  deriving DecidableEq, Repr, Inhabited

/-- A reassembly slot (R270, R293). `at0` is its moment A, `ring` the reserved target ring, `coll` the type bytes 38
to 47 of its contribution; `last` is the arrival of its latest packet, `grantOff` and `grantLen` its latest grant,
`chunkGot` the bytes of that grant that have arrived, `res` the residence R in force at A; `read` names the local READ that it serves, `contrib` the
collective contribution (communicator, sender rank, offset, epoch). -/
structure Slot where
  tag      : Nat
  op       : Nat
  ftag     : Nat
  key      : Nat
  len      : Nat
  off      : Nat
  shift    : Nat
  imm      : Nat
  coll     : List Byte
  inst     : Nat
  base     : Nat
  bits     : List Nat
  count    : Nat
  ring     : Option Nat
  at0      : Option Nat
  ce       : Bool
  last     : Nat
  grantOff : Nat
  grantLen : Nat
  chunkGot : Nat
  res      : Nat
  read     : Option (Nat × Nat)
  contrib  : Option (Nat × Nat × Nat × Nat)
  deriving DecidableEq, Repr, Inhabited

/-- A filter entry (R286): its outcome (0 COMPLETE, 1 ABANDONED, 2 AUTH_FAILED), when it retires, and whether its ACK
carries ECE. -/
structure FiltEnt where
  outcome : Nat
  retire  : Nat
  ece     : Bool
  deriving DecidableEq, Repr, Inhabited

/-- The transport of one fabric die: its sequence counter, messages by sequence, slots by tag, the grant list in the
order in which slots became eligible, the effective budget (0 while it is B) and the bytes counted toward its changes
(R278), the filter by tag, the sequences of refused messages with their cipher slots (R276), the cipher epoch and count (R295), packets on the
local path (R242). -/
structure Pesyn where
  nextSeq  : Nat
  msgs     : Tab Msg
  slots    : Tab Slot
  grants   : List Nat
  eff      : Nat
  sinceCut : Option Nat
  sinceUp  : Nat
  filter   : Tab FiltEnt
  refused  : Tab Nat
  epoch    : Nat
  count    : Nat
  loop     : List Packet
  deriving DecidableEq, Repr, Inhabited

/-- The addressing values in force (R299): the node identifier, PESYN_ADDR_CTRL and the 64-bit prefix; `waits` says that a written value is
not in force yet. -/
structure PesynAddr where
  node  : Nat
  ctrl  : Nat
  pre6  : Nat
  waits : Bool
  deriving DecidableEq, Repr, Inhabited

/-! ## Collectives (10) -/

/-- A chunk that this member owns (R319, R324), under the offset in DEST of its first element: its length in element
bytes, its epoch, the contributions combined in each block of 32 elements, how often it restarted, the MXFP8 bytes that
have arrived (sender rank, offset in the contribution, bytes), whether it holds an entry of the chunk table, and whether
it is clean. -/
structure Chunk where
  len      : Nat
  epoch    : Nat
  counts   : Tab Nat
  restarts : Nat
  held     : List (Nat × Nat × List Byte)
  entry    : Bool
  clean    : Bool
  deriving DecidableEq, Repr, Inhabited

/-- One entry of an exchange table (R308). -/
structure VEnt where
  sendOff : Nat
  sendCnt : Nat
  recvOff : Nat
  recvCnt : Nat
  deriving DecidableEq, Repr, Inhabited

/-- The collective that holds its communicator's COLL_SEQ (R310 to R331, R538): its descriptor, what it asks for, its
signature block, whether its ENTERs were sent, whether it is admitted, its sequencer, its lanes on each fabric die and
those of them that failed once, the chunks it owns, the sequences given to its first contributions and the epochs of
those that restarted (both under rank × 2^40 + offset), the contributions not yet sent, the packets that wait on a fault of DEST
(R177, R181), and the contributions not yet acknowledged (rank, offset), the bytes placed from each rank, the SEALs received (their REDONE), whether its own SEALs went out and
which are not acknowledged, and its restarts. -/
structure Coll where
  q        : Nat
  idx      : Nat
  op       : Nat
  typ      : Nat
  red      : Nat
  sat      : Bool
  root     : Nat
  src      : Nat
  dst      : Nat
  cnt      : Nat
  ctx      : Nat
  leaf     : Nat
  vtab     : List VEnt
  sig      : List Byte
  entered  : Bool
  admitted : Bool
  seqr     : Option Nat
  lanes0   : List Nat
  lanes1   : List Nat
  failed0  : List Nat
  failed1  : List Nat
  chunks   : Tab Chunk
  seqs     : Tab Nat
  epochs   : Tab Nat
  toSend   : List (Nat × Nat)
  stalled  : List Packet
  unacked  : List (Nat × Nat)
  placed   : Tab Nat
  seals    : Tab Nat
  sealed   : Bool
  sealsOut : List Nat
  redone   : Nat
  deriving DecidableEq, Repr, Inhabited

/-- A communicator (R300, R301); `chunk` is CHUNK_LOG2. -/
structure Comm where
  inst    : Nat
  id      : Nat
  n       : Nat
  rank    : Nat
  members : List Nat
  domain  : Nat
  chunk   : Nat
  lanes   : Nat
  gen     : Nat
  seq     : Nat
  broken  : Bool
  win     : Nat
  winAcked : Nat
  winCut  : Bool
  enters  : Tab (List Byte)
  nexts   : Tab (List Byte)
  coll    : Option Coll
  deriving DecidableEq, Repr, Inhabited

/-- The reduction lanes of a fabric die (R319, R325). -/
structure Lanes where
  available : Nat
  spares    : Nat
  out       : List Nat
  deriving DecidableEq, Repr, Inhabited

structure Colls where
  comms : Tab Comm
  lanes : List Lanes
  deriving DecidableEq, Repr, Inhabited

/-! ## Optical engines, laser units, ports, egress and policing (11, 12) -/

/-- A frame that waits in the caldera for a port (R354): its leaf, or none for the control lane, the queue whose
stop withdraws it, its instance, its bytes from the destination address through the FCS, its packet, the body that
follows the Pesyn header on the wire, and its bytes as they stand once it is whole in its port (R343). -/
structure Frame where
  leaf  : Option Nat
  queue : Option Nat
  inst  : Option Nat
  bytes : Nat
  pkt   : Packet
  body  : List Byte
  octets : List Byte
  deriving DecidableEq, Repr, Inhabited

/-- A shaper's tokens in 1/32 of a byte, with the moment they were last brought up to date (R362). -/
structure Bucket where
  level : Int
  since : Nat
  deriving DecidableEq, Repr, Inhabited

/-- Received pause of one priority of a port (R347, R348). -/
structure PauseSt where
  until_  : Option Nat
  since   : Nat
  ignored : Bool
  lastSeen : Nat
  deriving DecidableEq, Repr, Inhabited

/-- A receive buffer of one priority of a port (R345, R346, R348, R349): the frames held, each by its bytes and
whether a policer marked it CE (R367), whether XOFF is out, when it
is repeated, since when the fill stands at HIGH, whether the guard released it, the SIZE in force. -/
structure RxBuf where
  frames  : List (Nat × Bool)
  xoff    : Bool
  repAt   : Nat
  highAt  : Option Nat
  guarded : Bool
  size    : Nat
  deriving DecidableEq, Repr, Inhabited

/-- One port: its link, the frames that wait for it, its pause state and its buffers (R336, R345 to R359). -/
structure Port where
  align    : Bool
  local_   : Bool
  remote   : Bool
  downAt   : Option Nat
  control  : List Frame
  data     : List Frame
  wire     : Option Frame
  pauses   : Tab PauseSt
  bufs     : Tab RxBuf
  hw       : Tab Nat
  ext      : Tab Nat
  inexact  : List Nat
  starts   : Tab Nat
  vtime    : Tab Nat
  held     : List Nat
  deriving DecidableEq, Repr, Inhabited

/-- One optical engine (R337, R338): the cell that serves each position, the positions that are down, the cells that
failed, the substitution in progress (position, spare, since when) and the positions that wait for one, each with the
moment at which it asked. -/
structure Engine where
  mode   : Nat
  serves : List Nat
  down   : List Nat
  bad    : List Nat
  sub    : Option (Nat × Nat × Nat)
  waits  : List (Nat × Nat)
  deriving DecidableEq, Repr, Inhabited

/-- One laser unit (R341). `rising` is the state it rises to. -/
structure Laser where
  state   : Nat
  present : Bool
  fault   : Nat
  draw    : Nat
  rising  : Option Nat
  deriving DecidableEq, Repr, Inhabited

/-- One policer's two buckets (R365), in 1/32 of a byte. -/
structure Policer where
  b1    : Nat
  b2    : Nat
  since : Nat
  deriving DecidableEq, Repr, Inhabited

/-- The network side. `unsent` are the frames in the caldera of a die (R23, R26) that found no port (R355), `outside` those that
wait for room in it. -/
structure Net where
  engines  : List Engine
  lasers   : List Laser
  ports    : Tab Port
  shapers  : Tab Bucket
  ctrlTok  : Tab Bucket
  policers : Tab Policer
  polHw    : Tab Nat
  polExt   : Tab Nat
  polInexact : List Nat
  portOf   : Tab Nat
  pins     : Tab (List Nat)
  unsent   : List (Nat × Frame)
  outside  : List (Nat × Frame)
  latchHi  : Nat
  latchPol : Nat
  deriving DecidableEq, Repr, Inhabited

/-! ## The Melel host link (13) -/

/-- Why the module reads host memory (R202, R225, R302, R378, R473). -/
inductive ReadWhy where
  | wqEntry (q idx : Nat)
  | adminEntry (n idx : Nat)
  | members (n : Nat)
  | piece (q idx off : Nat)
  | pull (off : Nat)
  deriving DecidableEq, Repr, Inhabited

/-- An outstanding read of host memory. -/
structure HostRead where
  fn    : Nat
  addr  : Nat
  len   : Nat
  why   : ReadWhy
  since : Nat
  deriving DecidableEq, Repr, Inhabited

/-- A host DMA descriptor under way (R378, R379): the pieces not yet moved or asked for (offset and length), the bytes
landed, and whether its flush read is out. -/
structure Dma where
  q      : Nat
  idx    : Nat
  toDev  : Bool
  inst   : Nat
  ctx    : Nat
  host   : Nat
  frags  : List (Nat × Nat)
  len    : Nat
  left   : List (Nat × Nat)
  landed : Nat
  flush  : Bool
  deriving DecidableEq, Repr, Inhabited

/-- What a transaction of the module on the Melel link does (R381): a write of host memory, the write of a consumed entry's byte 63 (R203), an
entry of a completion ring with the addition that follows it (instance, counter, addend), a notification vector, a read or flush
read by its number, or a 64-byte access of a brick, with the bytes that a store brings. -/
inductive TxWhat where
  | write (addr : Nat) (bytes : List Byte)
  | ownByte (q idx addr : Nat)
  | entry (ring addr : Nat) (bytes : List Byte) (count : Option (Nat × Nat × Nat))
  | vector (v : Nat)
  | read (id : Nat)
  | flush (id : Nat)
  | access (brick id addr : Nat) (store : Option (List Byte))
  deriving DecidableEq, Repr, Inhabited

/-- A transaction of the module on the Melel link (R375, R381): its class, 0 for what goes first, 1 and 2 for host DMA of FD0 and FD1,
3 for the bricks; the function it goes under; the instance it serves, which is not that function where it is of an admin queue; and the
descriptor whose data it moves. -/
structure LinkTx where
  cls  : Nat
  fn   : Nat
  inst : Nat
  own  : Option (Nat × Nat)
  what : TxWhat
  deriving DecidableEq, Repr, Inhabited

/-- The end of a descriptor that waits for a flush read to return (R384): the number of that read, the descriptor, and what its entry says. -/
structure Behind where
  id     : Nat
  q      : Nat
  idx    : Nat
  status : Nat
  result : Nat
  bytes  : Nat
  detail : Nat
  deriving DecidableEq, Repr, Inhabited

/-- A transaction of the host that waits for a retrain to end (R373, R389), under the name of its command. -/
inductive HostTx where
  | loadWrapped (slot : Nat)
  | erase (slot : Nat)
  | keySlotWrite (k data : Nat)
  | laneSubstitute (e pos : Nat)
  | laserDrain (u : Nat)
  | laserCancel (u : Nat)
  | basinPoolWrite (data : Nat)
  | basinWindowWrite (n data : Nat)
  | hbmRetire (stack pc : Nat)
  | ddr5Evacuate (site : Nat)
  | ddr5Online (site : Nat)
  | ddr5Cancel (site : Nat)
  | leaseTake (src : UpdSrc)
  | leaseRelease (src : UpdSrc) (lease : Nat)
  | pull
  | armHandover (src : UpdSrc) (lease : Nat)
  | armCoordinated (src : UpdSrc) (lease count : Nat)
  | token (src : UpdSrc) (lease count : Nat)
  | widen
  | apertureRead (n off width : Nat)
  | apertureWrite (n off : Nat) (data : List Byte)
  | hostAccessReturn (b id : Nat) (data : List Byte)
  | moduleReset (r : Option MReq)
  | powerCycle (r : Option MReq)
  | portCtrlWrite (p data : Nat)
  | prioBufWrite (p k data : Nat)
  | policerWrite (die k word data : Nat)
  | statsSelectWrite (data : Nat)
  | policeStatsSelectWrite (data : Nat)
  | controlSpaceWrite (fn off width data : Nat)
  | controlSpaceReadClear (fn off width : Nat)
  | statsDataLoRead (fn : Nat)
  | policeStatsDataLoRead (fn : Nat)
  | sizeAlignError (fn off width : Nat) (write : Bool)
  | undecodedAccess (fn off width : Nat) (write : Bool)
  | adminCtrlWrite (n data : Nat)
  | wqDoorbell (fn off width data : Nat)
  | returnDoorbell (fn off width data : Nat)
  | adminDoorbell (fn off width data : Nat)
  | logWindow0Read (fn : Nat)
  | logWindow15Read (fn : Nat)
  | instShareWrite (n data : Nat)
  | shaperWrite (die s word data : Nat)
  | release (n : Nat)
  | hostReadCompletion (id : Nat) (answer : HostAnswer)
  | flushReadReturn (id : Nat)
  deriving DecidableEq, Repr

/-- The Melel link (R372, R373, R378 to R388). `replaying` says that a replay was asked for and has not begun to arrive, `widening` that the
retrain is that of a write of WIDEN; `waiting` are the module's transactions that wait for a retrain to end, in the order formed, `held` the
host's, in theirs; and `turn` is the class that the rotation of R381 serves next. -/
structure Link where
  up        : Bool
  trained   : Bool
  width     : Nat
  retrain   : Bool
  firstTry  : Option Nat
  seqNext   : Nat
  replays   : List Nat
  replaying : Bool
  widening  : Bool
  epoch     : Nat
  lost      : Bool
  reads     : Tab HostRead
  nextRead  : Nat
  dmas      : Tab Dma
  flushes   : Tab (Nat × Nat × Nat)
  behind    : List Behind
  hostMem   : Mem
  waiting   : List LinkTx
  held      : List HostTx
  turn      : Nat
  deriving DecidableEq, Repr, Inhabited

/-! ## Virtual instances (14) -/

/-- One instance (R391 to R399): state 0 UNCONFIGURED, 1 ACTIVE, 2 RESETTING, 3 QUIESCED. -/
structure Inst where
  state    : Nat
  gen      : Nat
  lastGen  : Nat
  bricks   : List Nat
  node     : Nat
  leaf0    : Nat
  leaves   : Nat
  shareDue : Bool
  started  : Nat
  deriving DecidableEq, Repr, Inhabited

/-! ## Cipher engines and key slots (15) -/

/-- The key store (R413 to R415): keys held by slot, the data words written, the command that runs. -/
structure KeyStore where
  keys    : Tab (BitVec 256)
  data    : List Nat
  running : Option (Nat × Nat × List Nat)
  deriving DecidableEq, Repr, Inhabited

/-! ## The Thiob image and firmware update (17) -/

/-- A settings store or a settings block as it is read (R450): its format and its entries, offset and value. -/
structure Settings where
  fmt     : Nat
  entries : List (Nat × Nat)
  deriving DecidableEq, Repr, Inhabited

/-- One bank, or one copy of the management firmware (R449, R471): its state, the units that it stores (R448), the image that they hold, as
it was last checked, and the settings block staged with it. The units of the image that a module leaves the factory with are not
listed, because the spec does not give them. -/
structure Bank where
  state : Nat
  units : List (List Byte)
  image : Option Image
  sets  : List Byte
  deriving DecidableEq, Repr, Inhabited

/-- One copy of the bank selector (R449): its sequence number, the active bank, and the CRC-32C over both. `store` is the copy of the
settings store that was in force when the copy was written: the model's own note (log entry 159). -/
structure Selector where
  seq    : Nat
  active : Nat
  crc    : BitVec 32
  store  : Nat
  deriving DecidableEq, Repr, Inhabited

/-- A key that flash holds sealed under a key derived from the PUF secret (R413, R430): only the same secret unseals it. -/
structure Sealed where
  secret : BitVec 256
  key    : BitVec 256
  deriving DecidableEq, Repr, Inhabited

/-- A certificate of the chain of slot 0 (R431): its DER bytes, the serial number in its subject, its notAfter, and the PUF secret whose
identity key it certifies, where it is a device certificate. -/
structure Cert where
  der      : List Byte
  serial   : Nat
  notAfter : List Byte
  device   : Option (BitVec 256)
  deriving DecidableEq, Repr, Inhabited

/-- A package that is being staged (R455 to R457): its bytes so far, where its parsing stands, the first 4,096 bytes of its output, what
waits to fill a unit, how many bytes were written, the units to program now and how many were cut, and the state that its bank had. -/
structure Staging where
  bytes   : Nat
  buf     : List Byte
  header  : Option (List Byte)
  segs    : Nat
  stream  : List Byte
  off     : Nat
  front   : List Byte
  out     : List Byte
  outLen  : Nat
  fresh   : List (List Byte)
  done    : Nat
  setBytes : List Byte
  prior   : Nat
  deriving DecidableEq, Repr, Inhabited

/-- A pair of control cores (R460, R462): which core runs, the digest of the FIRMWARE that each core holds, whether the instance on the
standby core was started, the handover record in the die's control SRAM, and whether the new instance reports ready (R467). -/
structure CorePair where
  runs    : Nat
  loaded  : List (BitVec 256)
  standby : Bool
  record  : Option Nat
  ready   : Bool
  deriving DecidableEq, Repr, Inhabited

/-- The firmware update under way and what is in force (R454 to R473). `heldTo` is the structure that objects are held to from
arming until commit or fallback (R461); `pairs` counts the pairs that have handed over, `actStep` the steps of a coordinated activation that
have ended (R465), `commitStep` those of a commit (R467); `eras` holds the tables and curves of each activation whose work goes on, by
number, and `era` the number in force (R466). -/
structure Update where
  settingsIgnored : Bool
  holder    : Nat
  state     : Nat
  lease     : Nat
  result    : Option Nat
  lastLease : Nat
  detail    : Nat
  lastCmd   : Nat
  armedAt   : Nat
  mode      : Nat
  armCount  : Nat
  staging   : Option Staging
  pairs     : Nat
  actStep   : Nat
  commitStep : Nat
  newStore  : Option (List Byte)
  shape     : Structure_
  costs     : Costs
  cores     : List CorePair
  era       : Nat
  eras      : Tab (List (BitVec 256))
  oldShape  : Option (Structure_ × Costs × Nat)
  heldTo    : Option Structure_
  mgmtStaged : Bool
  pulling   : Option Nat
  deriving DecidableEq, Repr, Inhabited

/-! ## Start-up and repair (18) -/

/-- The repair record in flash (R480): per course (die × 8 + course) the position its spare serves; the spares found
bad; the logical indices lost; per engine the positions of S0 and S1, the positions down and the spare cells that failed; per stack the rows
repaired and the pseudo-channels retired; the lanes out of service and the spare lanes left, by fabric die. -/
structure RepairRec where
  spares   : Tab Nat
  badSpare : List Nat
  lost     : List Nat
  s0       : Tab Nat
  s1       : Tab Nat
  posDown  : Tab (List Nat)
  badCells : Tab (List Nat)
  rows     : Tab Nat
  retired  : Tab (List Nat)
  lanesOut : List (List Nat)
  lanesSpare : List Nat
  deriving DecidableEq, Repr, Inhabited

/-- Main start-up. `repair` is the repair state in force; the flash holds the record.
`epochs` is the cipher epoch recorded in flash (R295), which outlasts every start; `inserted` are the DDR5 modules put in after step 6,
with capacity and whether supported, which wait for READY (R489). -/
structure Startup where
  ready     : Bool
  rebuilt   : Bool
  fallback  : Bool
  step      : Nat
  cause     : Nat
  nextCause : Nat
  begun     : Option Nat
  readyTime : Nat
  repair    : RepairRec
  epochs    : Nat
  inserted  : Tab (Nat × Bool)
  deriving DecidableEq, Repr, Inhabited

/-! ## Bricks, programs and launches (03, 04) -/

/-- A stream descriptor as R110 lays it out. -/
structure SDesc where
  mem      : Nat
  key      : Nat
  node     : Nat
  scratch  : Nat
  bufBytes : Nat
  rowStride : Nat
  tileStride : Int
  rows     : Nat
  rowBytes : Nat
  count    : Nat
  buffers  : Nat
  space    : Nat
  store    : Bool
  prefetch : Nat
  imm      : Option Nat
  first    : Nat
  pc       : Nat
  word     : Nat
  deriving DecidableEq, Repr, Inhabited

/-- Where a part of a tile is, as it was translated when the tile started (R175): its offset in the tile, a logical device address or
a host address, its length, its virtual address. -/
structure Spot where
  off  : Nat
  host : Bool
  addr : Nat
  len  : Nat
  va   : Nat
  deriving DecidableEq, Repr, Inhabited

/-- A tile in flight (R112, R114, R118, R120): its number in the channel and its descriptor, the bytes held for it (a
staged or answered load, a store that was read), whether its scratch side is done, whether its write is visible, its
64-byte host accesses not yet sent (offset in the tile, host address), the host data that arrived (offset, bytes), the places of
its parts, and when its transfers were issued, as a number that rises (R31). -/
structure TileFl where
  n       : Nat
  desc    : SDesc
  data    : List Byte
  landed  : Bool
  visible : Bool
  host    : List (Nat × Nat)
  got     : List (Nat × List Byte)
  spots   : List Spot
  seq     : Nat
  deriving DecidableEq, Repr, Inhabited

/-- One stream channel (R112). `asks` are the DDR5 channels whose current its next tile waits for (R45). -/
structure Chan where
  cur     : Option SDesc
  next    : Option SDesc
  posted  : Nat
  done    : Nat
  started : Nat
  asks    : List Nat
  tiles   : List TileFl
  deriving DecidableEq, Repr, Inhabited

/-- A host instruction in flight (R119): its address and word, its host-window address and what that translated to, and the host's
answer while an earlier one has not finished (R101). -/
structure HIns where
  pc   : Nat
  word : Nat
  va   : Nat
  addr : Nat
  back : Option (List Byte)
  deriving DecidableEq, Repr, Inhabited

/-- A host access of a brick in flight (R119, R120): HLD into a V register quarter or scratch, HST, or 64 bytes of a
tile; a load that follows a store to the same 64 bytes keeps the bytes stored. -/
inductive HAcc where
  | loadV (i : HIns) (v quarter : Nat) (fwd : List Byte)
  | loadS (i : HIns) (off : Nat) (fwd : List Byte)
  | store (i : HIns) (bytes : List Byte)
  | tile (ch n off : Nat)
  deriving DecidableEq, Repr, Inhabited

/-- What a brick's instruction stream waits for (R115, R119, R121), with the word of a CWAIT or a CADD, or that it has ended (R125). -/
inductive BWait where
  | run
  | swait (ch n : Nat)
  | cwait (idx target word : Nat)
  | cadd (idx v word : Nat)
  | bar
  | fence
  | hfence
  | ended
  deriving DecidableEq, Repr, Inhabited

/-- An SPOST that has not taken effect (R113): the channel, its count, and the numbers of the instructions before it that have not
finished with scratch. -/
structure Post where
  ch    : Nat
  n     : Nat
  after : List Nat
  deriving DecidableEq, Repr, Inhabited

/-- What a unit does for an instruction that was issued to it (R67, R101). -/
inductive UKind where
  | matrix
  | drain
  | vload
  | vstore
  | hld (toV : Bool)
  | hst (fromV : Bool)
  deriving DecidableEq, Repr, Inhabited

/-- An instruction that was issued to a unit and has not finished there (R67, R100, R101): its number, its address and word, the
registers as it read them, the scratch location of a host instruction, and whether it has begun or waits for its operands. A host
instruction that has begun is in `host` instead, under its number. -/
structure UOp where
  id    : Nat
  kind  : UKind
  pc    : Nat
  word  : Nat
  s     : Tab Nat
  v     : Tab (List Nat)
  loc   : Nat
  begun : Bool
  deriving DecidableEq, Repr, Inhabited

/-- The program state of one brick in one launch (R102): a slice switch moves it whole. A byte of scratch that is not in
`scratch` was never written in this launch: its value hangs on `seed` (R103). `poison` holds the poisoned codewords of
its scratch while it is not on the brick, `recorded` those of them that have a record (R146); `word` and `wordPc` are the instruction that waits in a translation fault, `lastV` the address and
word of the latest vector instruction, `ops` what its units have in hand, in the order issued. -/
structure BCtx where
  launch  : Nat
  gindex  : Nat
  brick   : Nat
  s       : Tab Nat
  pc      : Nat
  v       : Tab (List Nat)
  banks   : Tab (Tab Nat)
  flags   : Nat
  chans   : Tab Chan
  beats   : Nat
  scratch : Tab Byte
  seed    : Nat
  poison  : List Nat
  recorded : List Nat
  wait    : BWait
  word    : Nat
  wordPc  : Nat
  lastV   : Nat × Nat
  ops     : List UOp
  host    : Tab HAcc
  posts   : List Post
  bars    : Nat
  deriving DecidableEq, Repr, Inhabited

/-- A logical brick (R24, R93, R126, R127): the contexts in rotation, which one is on it, which one comes in, the moment
of the boundary after its latest, of its latest switch and of the beginning of its slice, whether a boundary fell while the slice could not end
(R96), the retries passed in its slice, and the residue failure in hand: unit, format pair, and whether the brick is being retired, with
the moment when that was decided. -/
structure Brick where
  rot     : List Nat
  cur     : Option Nat
  coming  : Option Nat
  edge    : Nat
  since   : Nat
  began   : Nat
  late    : Bool
  passed  : Nat
  failing : Option (Nat × Nat × Bool)
  decided : Nat
  deriving DecidableEq, Repr, Inhabited

/-- An admitted launch (R122 to R125). -/
structure Launch where
  inst    : Nat
  q       : Nat
  idx     : Nat
  bricks  : List Nat
  act     : Nat
  code    : Nat
  arg     : Nat
  faultAt : Nat
  limit   : Nat
  ctx     : Nat
  rq      : Nat
  devUs   : Nat
  since   : Nat
  deriving DecidableEq, Repr, Inhabited

/-- A remote tile whose operation has ended (R117): its queue and ring index, the tile and the status. -/
structure TileEnd where
  q      : Nat
  idx    : Nat
  tile   : Tile
  status : Nat
  deriving DecidableEq, Repr, Inhabited

/-- The bricks: contexts are keyed by launch × 1024 + index in the group; `nextHost` numbers the host accesses. -/
structure Bricks where
  bricks   : Tab Brick
  ctxs     : Tab BCtx
  launches : Tab Launch
  nextId   : Nat
  nextHost : Nat
  sliceUs  : Nat
  ends     : List TileEnd
  deriving DecidableEq, Repr, Inhabited

/-! ## Management, attestation and the vent log (16) -/

/-- A vent-log record as R437 lays it out, before its CRC. -/
structure LogRec where
  boot   : Nat
  source : Nat
  cls    : Nat
  area   : Nat
  event  : Nat
  data   : List Byte
  deriving DecidableEq, Repr, Inhabited

/-- A slot of the log region: a record under its SEQUENCE, or a slot whose programming was cut short (R439). -/
inductive LogSlot where
  | good (seq : Nat) (r : LogRec)
  | torn
  deriving DecidableEq, Repr, Inhabited

/-- One SPDM session (R433, R434). -/
structure Session where
  id         : Nat
  mutAsked   : Bool
  chain      : Option (BitVec 256)
  chainOk    : Bool
  finished   : Bool
  authorised : Bool
  last       : Nat
  keyEpoch   : Nat
  deriving DecidableEq, Repr, Inhabited

/-- A platform event waiting for its receiver (R427): what it says, tries made, when the last try was sent. -/
structure MgmtEvent where
  sensor : Option Nat
  cross  : Nat
  seq    : Nat
  dest     : Nat
  tries  : Nat
  sent   : Nat
  deriving DecidableEq, Repr, Inhabited

/-- The management controller. `next` and `dropped` are kept in flash as well (R440). `secret` is what the PUF gave (R430); `vca`, `msgB` and
`msgL` are the parts of the SPDM transcripts (R436): of the version, capabilities and algorithms, of digests and certificates, of measurements. -/
structure Mc where
  up        : Bool
  eid       : Nat
  tid       : Nat
  receiver  : Option Nat
  sessions  : List Session
  nextSess  : Nat
  version   : Nat
  negotiated : Bool
  identityFail : Nat
  sensors   : Tab Int
  zones     : Tab Nat
  fatalSince : Tab Nat
  events    : List MgmtEvent
  buffer    : List LogRec
  next      : Nat
  dropped   : Nat
  clearing  : Bool
  boot      : Nat
  window    : Option (List Byte)
  measures  : List (List Byte)
  secret    : Option (BitVec 256)
  vca       : List Byte
  msgB      : List Byte
  msgL      : List Byte
  resetReq  : Option Nat
  offReason : Nat
  offAt     : Nat
  deriving DecidableEq, Repr, Inhabited

/-! ## The machine -/

/-- The answer of the module to the latest access or request. -/
inductive Reply where
  | none
  | value (w : Nat)
  | bytes (l : List Byte) (poison : Bool)
  | unsupported
  | mctp (code : Nat) (data : List Nat)
  | pldm (code : Nat) (status : Option Nat) (data : List Nat)
  | pldmBytes (code : Nat) (status : Option Nat) (data : List Byte)
  | spdm (name : Nat) (data : List Byte)
  | spdmError (code : Nat)
  | silent
  deriving DecidableEq, Repr, Inhabited

/-- What the module sends out, oldest first. -/
inductive Out where
  | vector (fn v : Nat)
  | readHost (id : Nat)
  | flush (id fn : Nat)
  | frame (port : Nat) (f : Frame) (wire : List Byte)
  | looped (port : Nat) (f : Frame) (wire : List Byte)
  | remoteFault (port : Nat) (on : Bool)
  | xoff (port prio quanta : Nat)
  | replay (first : Nat)
  | event (sensor : Option Nat) (data : Nat) (dest : Nat)
  | hostAccess (fn brick id addr : Nat) (store : Bool)
  deriving DecidableEq, Repr, Inhabited

/-- What the management flash holds beside the MC's working copies (16, 17, 18): the vent log, the boot count, the
anchor, the sealed keys of slots 1 and 0, the PUF helper data, the certificate chain, the digest of the image-signing key (R447), the serial
number, the shutdown mark, the repair record, the banks with the bank write count, the copies of the selector and of the settings store,
the activation count, and the copies of the management firmware with their selector. -/
structure Flash where
  log      : Tab LogSlot
  seq      : Nat
  boot     : Nat
  anchor   : BitVec 256
  wrapKey  : Option Sealed
  imageKey : Option Sealed
  helper   : List Byte
  chain    : List Cert
  signKey  : BitVec 256
  serial   : Nat
  mark     : Bool
  repair   : RepairRec
  banks    : List Bank
  writes   : Nat
  selectors : List Selector
  stores   : List (List Byte)
  actCount : Nat
  mgmtActive : Nat
  mgmt     : List Bank
  deriving DecidableEq, Repr, Inhabited

/-- The machine but for its flash and the queue of waiting commands. `timers` holds the count of each die's interval timer
(R10, R40, R41), by die number, in units of 0.125 µs. -/
structure Dev where
  timers : List Nat
  free   : Nat
  reply  : Reply
  out    : List Out
  regs   : Tab Word
  pwr    : Power
  tiers  : Tiers
  xl     : Xlate
  q      : Queues
  rem    : Remote
  pes    : List Pesyn
  addr   : PesynAddr
  colls  : Colls
  net    : Net
  link   : Link
  insts  : Tab Inst
  keys   : KeyStore
  mc     : Mc
  upd    : Update
  start  : Startup
  bricks : Bricks
  deriving DecidableEq, Repr, Inhabited

/-- The block: its flash, the rest of the module, and the commands that wait, first in, first out. -/
structure State where
  pending : List Instr
  flash   : Flash
  dev     : Dev
  deriving DecidableEq, Repr

/-- No rule of the spec stops the block as a whole: there is no fault. -/
inductive Fault where
  deriving DecidableEq, Repr

/-- Why the model gives a command no meaning. -/
inductive Refusal where
  /-- Raised by an arm of `exec` for a command whose meaning is not written yet; safe: nothing follows from it. -/
  | notModelled (mnemonic : String)
  deriving DecidableEq, Repr

/-! ## The machine right after reset -/

/-- The die numbers of R38: 0 to 7 the brick dies, 8 and 9 the fabric dies, 10 the I/O die. -/
def dies : List Nat := List.range 11

/-- Capacity, standing reservation and allowance of each rail in the shipped images (R42, R45). -/
def railShape (d : Nat) : Nat × Nat × Nat :=
  if d < 8 then (600, 56, 0) else if d < 10 then (400, 140, 0) else (240, 96, 24)

/-- A rail at start-up: at full capacity, with only its standing reservation taken (R44). -/
def Rail.start (d : Nat) : Rail :=
  { full := (railShape d).1, standing := (railShape d).2.1, allowFull := (railShape d).2.2, allowHalf := false,
    sixteenths := 16, stopped := false, slowHold := false, goodSince := none, grants := [], waiting := [] }

/-- Pace and input state after a start: standby power present, the input not yet seen, no brownout. -/
def Power.reset : Power :=
  { rails := dies.map Rail.start, readings := [], lowest := 0, below42 := 0, below42Since := none, stepAt := none,
    mainOn := false, stageOpen := false, inRangeSince := none, under58Since := none, standby := true,
    readyPin := false, thermtrip := false, straps := 0, asked := [] }

/-- The frames of a stack's context store (R140): the top 7 of groups 0 and 1, the top 6 of groups 2 to 7. -/
def storeFrames (n : Nat) : List Nat :=
  (List.range 8).flatMap (fun g =>
    let k := if g < 2 then 7 else 6
    (List.range k).map (fun i => 1536 * n + 192 * g + (192 - k + i)))

/-- A stack with no repair. -/
def Stack.reset (n : Nat) : Stack :=
  { retired := [], groups := List.replicate 8 0, leaving := [], store := storeFrames n, rowHits := [],
    candidates := [], lastRepair := [], ueTimes := [], rows := 0, nextGroup := 0 }

/-- A DDR5 site with no module in it (R157). -/
def Site.empty : Site := { state := 0, present := false, capGiB := 0, lost := [] }

/-- The memories, all zero (R143, R486), with the shipped pool of 32 units (R134). -/
def Tiers.reset : Tiers :=
  { dev := [], basin := [], poison := [], logged := [], soft := [], hbm := (List.range 8).map Stack.reset,
    sites := List.replicate 8 Site.empty, poolUnits := 32, windows := [], staged := [] }

/-- No context, no frame, no translation, no fault, no move. -/
def Xlate.reset : Xlate :=
  { ctxs := [], lfns := [], cache := [], rings := [], faults := [], nextId := 0, move := none, queued := [], demoting := [],
    epochAt := 0, epochMs := 10 }

/-- No queue, ring or counter (R486). -/
def Queues.reset : Queues := { wqs := [], crs := [], ctrs := [], admin := [] }

/-- No domain and no region; a region index not used yet starts at tag `fresh` (R233). -/
def Remote.reset : Remote := { doms := [], regions := [], tags := [], freed := [], fresh := 1 }

/-- A fabric die's transport: sequences even on FD0 and odd on FD1 (R268), the full budget of 256 chunks. -/
def Pesyn.reset (i : Nat) : Pesyn :=
  { nextSeq := i, msgs := [], slots := [], grants := [], eff := 0, sinceCut := none, sinceUp := 0, filter := [],
    refused := [], epoch := 0, count := 0, loop := [] }

/-- The addressing values in force: those of the shipped DEFAULTS. -/
def PesynAddr.reset : PesynAddr := { node := 0, ctrl := 0, pre6 := 0, waits := false }

/-- 64 reduction lanes in service and 4 spares on each fabric die (R325, R333). -/
def Lanes.reset : Lanes := { available := 64, spares := 4, out := [] }

/-- No communicator. -/
def Colls.reset : Colls := { comms := [], lanes := [Lanes.reset, Lanes.reset] }

/-- An engine in mode 0 whose cell k serves position k (R337). -/
def Engine.reset : Engine :=
  { mode := 0, serves := List.range 16, down := [], bad := [], sub := none, waits := [] }

/-- An empty laser bay. -/
def Laser.empty : Laser := { state := 0, present := false, fault := 0, draw := 0, rising := none }

/-- Engines, bays and ports with nothing under way. -/
def Net.reset : Net :=
  { engines := List.replicate 8 Engine.reset, lasers := List.replicate 8 Laser.empty, ports := [], shapers := [],
    ctrlTok := [], policers := [], polHw := [], polExt := [], polInexact := [], portOf := [], pins := [], unsent := [], outside := [],
    latchHi := 0, latchPol := 0 }

/-- The Melel link, down and never trained. -/
def Link.reset : Link :=
  { up := false, trained := false, width := 0, retrain := false, firstTry := none, seqNext := 0, replays := [],
    replaying := false, widening := false, epoch := 0, lost := false, reads := [], nextRead := 0, dmas := [], flushes := [],
    behind := [], hostMem := [], waiting := [], held := [], turn := 1 }

/-- The shipped structure that the model takes (R446): engines in mode 0, every instance configured over all 1,024
bricks, instance n under node n + 1 of the root with leaves 64 n to 64 n + 63, pools at their full sizes: DESIGN CHOICE (log entry 5). -/
def Structure_.shipped : Structure_ :=
  { allocs := (List.range 64).map (fun n => (n, List.range 1024)), modes := List.replicate 8 0,
    leaves := (List.range 4096).map (fun l => (l, (l / 64, l / 64 + 1))),
    nodes := (List.range 64).map (fun n => (n + 1, 0)),
    insts := (List.range 64).map (fun n => (n, (n + 1, 64 * n))),
    pools := [65536, 16384, 65536, 65536, 4096],
    quotas := [4096, 65535, 65536, 16384, 65536, 1048576, 4096, 262144, 4096, 1048576] }

/-- The costs of the shipped images (R45): a brick's matrix, vector and stream levels; the I/O-die cipher engine and the image checks at full
and half rate; standing reservations of a brick, a fabric and the I/O die, and the I/O die's allowance. -/
def Costs.shipped : Costs :=
  { brick := [4, 2, 1], prefetch := 16, pesyn := 4, lane := 2, cipher := 20, hostDma := 12, ddr5 := 8, mover := 12,
    iodCipher := (20, 10), checks := (4, 2), standing := [56, 140, 96], allowance := 24 }

/-- An instance at start-up (R391, R478): ACTIVE at generation 0, as the structure configures it. -/
def Inst.start (sh : Structure_) (n : Nat) : Inst :=
  { state := 1, gen := 0, lastGen := 0, bricks := Tab.getD sh.allocs n [], node := (Tab.getD sh.insts n (0, 0)).1,
    leaf0 := (Tab.getD sh.insts n (0, 0)).2, leaves := (sh.leaves.filter (fun p => p.2.1 == n)).length,
    shareDue := false, started := 0 }

/-- The key store with no key. -/
def KeyStore.reset : KeyStore := { keys := [], data := List.replicate 10 0, running := none }

/-- A repair record without a repair (R480). -/
def RepairRec.blank : RepairRec :=
  { spares := [], badSpare := [], lost := [], s0 := [], s1 := [], posDown := [], badCells := [], rows := [],
    retired := [], lanesOut := [[], []], lanesSpare := [4, 4] }

/-- A management controller that has not started. -/
def Mc.off : Mc :=
  { up := false, eid := 0, tid := 0, receiver := none, sessions := [], nextSess := 0, version := 0,
    negotiated := false, identityFail := 0, sensors := [], zones := [], fatalSince := [], events := [], buffer := [],
    next := 0, dropped := 0, clearing := false, boot := 0, window := none,
    measures := [], secret := none, vca := [], msgB := [], msgL := [], resetReq := none, offReason := 0, offAt := 0 }

/-- No update under way. -/
def Update.idle : Update :=
  { settingsIgnored := false, holder := 0, state := 0, lease := 0, result := none, lastLease := 0, detail := 0,
    lastCmd := 0, armedAt := 0, mode := 0, armCount := 0, staging := none, pairs := 0, actStep := 0, commitStep := 0,
    newStore := none, shape := Structure_.shipped, costs := Costs.shipped, cores := List.replicate 18 ⟨0, [0, 0], false, none, false⟩,
    era := 0, eras := [], oldShape := none, heldTo := none, mgmtStaged := false, pulling := none }

/-- Main start-up not yet begun. -/
def Startup.reset : Startup :=
  { ready := false, rebuilt := false, fallback := false, step := 0, cause := 0, nextCause := 0, begun := none, readyTime := 0,
    repair := RepairRec.blank, epochs := 0, inserted := [] }

/-- No brick at work. -/
def Bricks.reset : Bricks :=
  { bricks := [], ctxs := [], launches := [], nextId := 0, nextHost := 0, sliceUs := 2000, ends := [] }

/-- The device right after reset (R485, R486): the first application of power, before the MC has started. -/
def Dev.reset : Dev :=
  { timers := List.replicate 11 0, free := 0, reply := .none, out := [], regs := [], pwr := Power.reset, tiers := Tiers.reset,
    xl := Xlate.reset, q := Queues.reset, rem := Remote.reset, pes := [Pesyn.reset 0, Pesyn.reset 1],
    addr := PesynAddr.reset, colls := Colls.reset, net := Net.reset, link := Link.reset, insts := [],
    keys := KeyStore.reset, mc := Mc.off, upd := Update.idle, start := Startup.reset, bricks := Bricks.reset }

/-- The image in bank A of a module as the model takes it from the factory. -/
def Image.shipped : Image :=
  { length := 4096, version := 0x01000000, fmt := 1, from_ := 0x01000000, digest := 0,
    sections := (List.range 7).map (fun k => (k + 1, 0)),
    contents := { shape := Structure_.shipped, costs := Costs.shipped, defaults := [] } }

/-- The certificate chain written at manufacture (R431): a root, two intermediates and the device certificate, which certifies the identity
key of the PUF secret and names the serial number. Its bytes are free values, at most 4,096 in each certificate. -/
def Cert.factory (k : Nat) : Cert :=
  { der := (List.range (Config.certLength k % 4096 + 1)).map (Config.certByte k), serial := 0,
    notAfter := "99991231235959Z".toList.map (fun c => BitVec.ofNat 8 c.toNat), device := if k = 3 then some 0 else none }

/-- The flash as the model takes it from the factory: image in bank A, no settings, no record, no repair, the first number in the
selector's first copy and none in its second: DESIGN CHOICE (log entries 6 and 7). -/
def Flash.factory : Flash :=
  { log := [], seq := 0, boot := 0, anchor := 0, wrapKey := none, imageKey := some ⟨0, 0⟩, helper := [], chain := (List.range 4).map Cert.factory,
    signKey := 0, serial := 0, mark := false, repair := RepairRec.blank,
    banks := [⟨1, [], some Image.shipped, []⟩, ⟨0, [], none, []⟩], writes := 0,
    selectors := [⟨0, 0, 0x45727635#32, 0⟩, ⟨0, 0, 0, 0⟩], stores := [[], []], actCount := 0, mgmtActive := 0,
    mgmt := [⟨1, [], none, []⟩, ⟨0, [], none, []⟩] }

/-- The machine right after reset, with no command waiting. -/
def State.reset : State := { pending := [], flash := Flash.factory, dev := Dev.reset }

end Sys2Proof.Machine
end

