-- ==== Sys2Proof/Machine/Ops.lean ====
section
/-! DEFINITION. The operations that every family shares: registers and their fields, the vent log, what the module
sends out, device memory with its code, and free values. -/

namespace Sys2Proof.Machine

/-! ## Registers -/

/-- The value that a register holds after a start: its Reset column, and for Image the shipped values (R60, R349) or, where the spec
gives none, 0 or the least legal value, with PESYN_MARK.PCP_DATA 0 and PCP_CTRL 1: DESIGN CHOICE (log entry 4). -/
def resetWord (n : RegName) (i j : Nat) : Nat :=
  match n with
  | .boundDevice => listGet [50, 200, 1000, 5000, 20000, 100000, 500000, 1000000] i 1
  | .prioBuf => if j < 2 then 64 * 65536 + 36 * 256 + 24 else 8 * 65536 + 8 * 256
  | .flowCtrl => 2 ^ 30 + 3 * 65536 + 65535
  | .pesynMark => 2 ^ 28
  | .hbmRepair => 0
  | _ => ((rowOf n).map RegRow.reset).getD 0

/-- The word that a register holds. -/
def getW (n : RegName) (i j : Nat) (d : Dev) : Nat :=
  ((Tab.get d.regs (addrOf n i j)).map BitVec.toNat).getD (resetWord n i j)

/-- Bits `hi` to `lo` of a register. -/
def getF (n : RegName) (i j hi lo : Nat) (d : Dev) : Nat := bitsOf (getW n i j d) hi lo

/-- Sets a register word. -/
def setW (n : RegName) (i j w : Nat) (d : Dev) : Dev :=
  { d with regs := Tab.set d.regs (addrOf n i j) (BitVec.ofNat 32 w) }

/-- Sets bits `hi` to `lo` of a register. -/
def setF (n : RegName) (i j hi lo v : Nat) (d : Dev) : Dev := setW n i j (withBits (getW n i j d) hi lo v) d

/-- An event sets bit `k` of a register (R12). -/
def setBit (n : RegName) (i j k : Nat) (d : Dev) : Dev := setF n i j k k 1 d

/-- An event raises a counting field, which saturates at its highest value (R13). -/
def countF (n : RegName) (i j hi lo k : Nat) (d : Dev) : Dev :=
  setF n i j hi lo (min (2 ^ (hi + 1 - lo) - 1) (getF n i j hi lo d + k)) d

/-- Fields that are limited against another field, after a write of either (R299, R193, R535). DESIGN CHOICE (log entry 128): MIGRATION_WATER.HIGH,
which the field map keeps at least 16 above LOW, is capped at the 65,535 that its field can hold. -/
def relimit (n : RegName) (i : Nat) (d : Dev) : Dev :=
  match n with
  | .migrationWater => setF n i 0 31 16 (max (getF n i 0 31 16 d) (min 65535 (getF n i 0 15 0 d + 16))) d
  | .pesynTimers => setF n 0 0 31 16 (max (getF n 0 0 31 16 d) (getF n 0 0 15 0 d)) d
  | .pesynWindow =>
    let init := max (getF n 0 0 15 8 d) (getF n 0 0 7 0 d)
    setF n 0 0 23 16 (max (getF n 0 0 23 16 d) init) (setF n 0 0 15 8 init d)
  | .pesynGrant =>
    let chunk := min (getF n i 0 23 16 d) (if getF .pesynAddrCtrl 0 0 23 23 d = 1 then 8 else 16)
    setF n i 0 15 0 (max (getF n i 0 15 0 d) chunk) (setF n i 0 23 16 chunk d)
  | _ => d

/-! ## The log, the outputs, free values -/

/-- A cause that fits a byte, least significant first. -/
def bytesLE (n v : Nat) : List Byte := natLE n v

/-- An event asks for a vent-log record (R437, R439, R440): it waits in the buffer, or raises LOG_DROPPED where the
buffer or the log is full. -/
def logEv (src cls area ev : Nat) (data : List Byte) (d : Dev) : Dev :=
  let m := d.mc
  let code := if area = 0x0A then ev else (Config.eventCode area ev).toNat
  if m.buffer.length < 256 && (m.clearing || m.next + m.buffer.length < 65536) then
    { d with mc := { m with
      buffer := m.buffer ++
        [{ boot := m.boot, source := src, cls := cls, area := area, event := code, data := data.take 48 }] } }
  else { d with mc := { m with dropped := satAdd (2 ^ 32 - 1) m.dropped 1 } }

/-- The module sends something out. -/
def emit (o : Out) (d : Dev) : Dev := { d with out := d.out ++ [o] }

/-- The module answers the access or request in hand. -/
def answer (r : Reply) (d : Dev) : Dev := { d with reply := r }

/-- A value that the spec leaves open, and the device after it is drawn: DESIGN CHOICE (log entry 1). -/
def drawFree (d : Dev) : Nat × Dev := (Config.freeValue d.free, { d with free := d.free + 1 })

/-- The count of a die's interval timer (R10, R40, R41): every duration is measured on that of the die that enforces it. -/
def clock (die : Nat) (d : Dev) : Nat := listGet d.timers die 0

/-- The die number of a fabric die (R38). -/
def fdie (i : Nat) : Nat := 8 + i

/-- The die number of the I/O die (R38), whose timer the management controller and the host link use. -/
def iodie : Nat := 10

/-- The interval timers of some dies start again from 0. -/
def restartTimers (l : List Nat) (d : Dev) : Dev := { d with timers := l.foldl (fun t k => t.set k 0) d.timers }

/-- Ticks of the interval timer in `n` microseconds (R40). -/
def usec (n : Nat) : Nat := 8 * n

/-- Ticks in `n` milliseconds. -/
def msec (n : Nat) : Nat := 8000 * n

/-! ## Accesses that are counted (R532, R533) -/

/-- Counts an access in the control-space error registers: its KIND, requester, address, width and direction. -/
def countErr (kind fn addr width : Nat) (write : Bool) (d : Dev) : Dev :=
  let d1 := match kind with
    | 1 => countF .cspaceErrCount 0 0 31 24 1 d
    | 5 => countF .cspaceErrCount 0 0 15 8 1 d
    | _ => countF .cspaceErrCount 0 0 23 16 1 d
  setW .cspaceErrSource 0 0 (2 ^ 31 + kind * 65536 + width % 256 * 256 + fn % 256)
    (setW .cspaceErrAddr 0 0 ((if write then 2 ^ 31 else 0) + addr % 2 ^ 31)
      (setBit .cspaceErrCount 0 0 0 d1))

/-- Do accesses of the host reach the module: the Melel link carries traffic, the host is not lost, and no retrain holds
transactions (R373, R385, R389, R479)? -/
def linkOpen (d : Dev) : Bool := d.link.up && !d.link.lost && !d.link.retrain

/-- A transaction of the host that is given in a retrain waits for its end, and then happens once (R373, R389); `host` says that the host
sends it. Before READY the link carries nothing that an effect follows from (R479), and nothing waits. -/
def overLink (host : Bool) (i : HostTx) (f : State → Host.Outcome State Fault Refusal) (s : State) : Host.Outcome State Fault Refusal :=
  if host && s.dev.start.ready && s.dev.link.retrain && s.dev.link.up && !s.dev.link.lost then
    .next { s with dev := { s.dev with link := { s.dev.link with held := s.dev.link.held ++ [i] } } }
  else f s

/-- Is a source of update commands the manager? -/
def isManager (src : UpdSrc) : Bool :=
  match src with
  | .manager => true
  | .platform _ => false

/-- A write of the physical function to a register whose effect is `f`: before READY it is discarded and counted
(R478, R533). DESIGN CHOICE (log entry 137): a write that the link does not carry is no event. -/
def managerWrite (addr : Nat) (f : Dev → Dev) (d : Dev) : Dev :=
  if !d.start.ready then countErr 5 0xFF addr 4 true d else if linkOpen d then f d else d

/-! ## Frames and codewords (R138, R139, R144) -/

/-- The stack of an HBM frame, or none for a DDR5 frame. -/
def stackOf (pfn : Nat) : Option Nat := if pfn < 12288 then some (pfn / 1536) else none

/-- The group of an HBM frame. -/
def groupOf (pfn : Nat) : Nat := pfn % 1536 / 192

/-- The DDR5 site of a frame. -/
def siteOf (pfn : Nat) : Nat := (pfn - 16384) / 4096

/-- The stack record. -/
def stackAt (n : Nat) (d : Dev) : Stack := listGet d.tiers.hbm n (Stack.reset n)

/-- The site record. -/
def siteAt (s : Nat) (d : Dev) : Site := listGet d.tiers.sites s Site.empty

/-- Changes a stack. -/
def updStack (n : Nat) (f : Stack → Stack) (d : Dev) : Dev :=
  { d with tiers := { d.tiers with hbm := d.tiers.hbm.set n (f (stackAt n d)) } }

/-- Changes a site. -/
def updSite (s : Nat) (f : Site → Site) (d : Dev) : Dev :=
  { d with tiers := { d.tiers with sites := d.tiers.sites.set s (f (siteAt s d)) } }

/-- The pseudo-channels of a group that are in service, in increasing order (R138). -/
def pcsInService (st : Stack) (g : Nat) : List Nat :=
  ((List.range 8).map (fun k => 8 * g + k)).filter (fun p => !st.retired.contains p)

/-- How many frames a group holds (R138); none while it is OUT (R156). -/
def groupFrames (st : Stack) (g : Nat) : Nat :=
  if st.groups.getD g 0 = 4 then 0 else 24 * (pcsInService st g).length

/-- Does a frame number name memory (R139)? -/
def pfnExists (pfn : Nat) (d : Dev) : Bool :=
  if pfn < 12288 then
    decide (pfn % 192 < groupFrames (stackAt (pfn / 1536) d) (groupOf pfn))
  else
    decide (16384 ≤ pfn ∧ pfn < 49152) && decide ((pfn - 16384) % 4096 < (siteAt (siteOf pfn) d).capGiB * 16)

/-- The pseudo-channel that holds a byte of an HBM frame (R138). -/
def pcOf (addr : Nat) (d : Dev) : Nat :=
  let pfn := addr / 2 ^ 26
  let l := pcsInService (stackAt (pfn / 1536) d) (groupOf pfn)
  if l.length = 0 then 0 else l.getD (addr % 2 ^ 26 / 256 % l.length) 0

/-- Bytes in a codeword of device memory (R144). -/
def cwBytes (addr : Nat) : Nat := if addr / 2 ^ 26 < 16384 then 32 else 8

/-- The first byte of the codeword of a device address. -/
def cwBase (addr : Nat) : Nat := addr / cwBytes addr * cwBytes addr

/-- Is the codeword of a device address poisoned? -/
def poisonedAt (addr : Nat) (d : Dev) : Bool := d.tiers.poison.contains (.dev (cwBase addr))

/-- Is a frame lost with its module (R160)? -/
def frameLost (pfn : Nat) (d : Dev) : Bool := decide (16384 ≤ pfn) && (siteAt (siteOf pfn) d).lost.contains pfn

/-- The poisoned codewords of a range of device memory, by their first bytes. -/
def poisonIn (a n : Nat) (d : Dev) : List Nat :=
  d.tiers.poison.filterMap (fun p => match p with
    | .dev x => if decide (x < a + n) && decide (a < x + cwBytes x) then some x else none
    | _ => none)

/-- The die that a codeword's SRAM belongs to. -/
def placeDie (p : Place) : Nat :=
  match p with
  | .scratch b _ => b / 128
  | .basin dd _ => dd
  | .sram dd _ => dd
  | .dev _ => 10

/-- A record's die, stack or site (R437): source code. -/
def placeSource (p : Place) : Nat :=
  match p with
  | .dev a => if a / 2 ^ 26 < 16384 then a / 2 ^ 26 / 1536 else 13
  | p => placeDie p

/-- The memory data of a vent-log record in area 0x03 (R438): stack or site, group, pseudo-channel, PFN. -/
def memData (unit group pc pfn : Nat) : List Byte :=
  bytesLE 1 unit ++ bytesLE 1 group ++ bytesLE 2 pc ++ bytesLE 4 pfn

/-- The error register of a place: its name and index (R151). -/
def errReg (p : Place) : RegName × Nat :=
  match p with
  | .dev a => if a / 2 ^ 26 < 16384 then (.hbmErr, a / 2 ^ 26 / 1536) else (.ddr5Err, siteOf (a / 2 ^ 26))
  | p => (.sramErr, placeDie p)

/-- One HBM scrub period: 12 hours (R149). -/
def hbmPeriod : Nat := msec (12 * 3600 * 1000)

/-- A correction feeds the repair rule (R152): a second codeword of the row, or the same symbol of one codeword twice,
within one scrub period makes the row a candidate. -/
def noteRowHit (n pc row word sym : Nat) (d : Dev) : Dev :=
  updStack n (fun st =>
    let key := pc * 2 ^ 32 + row
    let hits := (Tab.getD st.rowHits key []).filter (fun h => decide (clock n d < h.2.2 + hbmPeriod))
    let cand := hits.any (fun h => h.1 != word || h.2.1 == sym)
    { st with
      rowHits := Tab.set st.rowHits key (hits ++ [(word, sym, clock n d)]),
              candidates := if cand && !st.candidates.contains (pc, row) then st.candidates ++ [(pc, row)]
                            else st.candidates }) d

/-- An uncorrectable error of a pseudo-channel is remembered for one scrub period (R153). -/
def noteUePc (n pc : Nat) (d : Dev) : Dev :=
  updStack n (fun st =>
    { st with
      ueTimes := Tab.set st.ueTimes pc
        ((Tab.getD st.ueTimes pc []).filter (fun t => decide (clock n d < t + hbmPeriod)) ++ [clock n d]) }) d

/-- The address of a codeword of HBM4. -/
def hbmAddr (p : Place) : Option Nat :=
  match p with
  | .dev a => if a / 2 ^ 26 < 12288 then some a else none
  | _ => none

/-- A corrected error (R145, R152): it is counted, it feeds the row-repair rule, and nothing else is reported. -/
def noteCe (p : Place) (row sym : Nat) (d : Dev) : Dev :=
  let d1 := countF (errReg p).1 (errReg p).2 0 15 0 1 d
  match hbmAddr p with
  | some a => noteRowHit (a / 2 ^ 26 / 1536) (pcOf a d) row a sym d1
  | none => d1

/-- A read meets codewords: each that has one bad symbol is corrected, written back and counted (R145). -/
def correct (met : Place → Bool) (d : Dev) : Dev :=
  (d.tiers.soft.filter (fun s => met s.1)).foldl (fun d s => noteCe s.1 s.2.1 s.2.2 d)
    { d with tiers := { d.tiers with soft := d.tiers.soft.filter (fun s => !met s.1) } }

/-- Does a codeword of device memory lie in one of some pieces? -/
def metDev (ps : List (Nat × Nat)) (p : Place) : Bool :=
  match p with
  | .dev x => ps.any (fun r => decide (x < r.1 + r.2) && decide (r.1 < x + cwBytes x))
  | _ => false

/-- Does a codeword of a brick's scratch lie in a range? -/
def metScratch (b off n : Nat) (p : Place) : Bool :=
  match p with
  | .scratch k x => k == b && decide (x < off + n) && decide (off < x + 16)
  | _ => false

/-- Does a codeword of a basin lie in one of some ranges of basin addresses? -/
def metBasin (ps : List (Nat × Nat)) (p : Place) : Bool :=
  match p with
  | .basin die x => ps.any (fun r => decide (die * 2 ^ 27 + x < r.1 + r.2) && decide (r.1 < die * 2 ^ 27 + x + 16))
  | _ => false

/-- A read of physical pieces corrects what it meets (R145). -/
def readsDev (ps : List (Nat × Nat)) (d : Dev) : Dev := correct (metDev ps) d

/-- An uncorrectable error at a codeword, found by a reader of source code `src` (R146, R150, R151, R153): the codeword is
poisoned, the event counted, one record written for the codeword while it stays poisoned, and the location kept for HBM4 and DDR5. -/
def noteUe (p : Place) (src : Nat) (d : Dev) : Dev :=
  let r := errReg p
  let d0 := match hbmAddr p with
    | some a => noteUePc (a / 2 ^ 26 / 1536) (pcOf a d) d
    | none => d
  let d1 := setBit r.1 r.2 0 31 (countF r.1 r.2 0 23 16 1 d0)
  let d2 := match p with
    | .dev a => setW .ueLastHi 0 0 (2 ^ 31 + src * 2 ^ 28 + a / 2 ^ 26 % 65536)
        (setW .ueLastLo 0 0 (a % 2 ^ 26) d1)
    | _ => d1
  let seen := d.tiers.poison.contains p && d.tiers.logged.contains p
  let d3 := { d2 with tiers := { d2.tiers with
      poison := if d2.tiers.poison.contains p then d2.tiers.poison else d2.tiers.poison ++ [p],
      logged := if d2.tiers.logged.contains p then d2.tiers.logged else d2.tiers.logged ++ [p] } }
  if seen then d3
  else logEv (placeSource p) 2 0x03 1 (match p with
    | .dev a => memData (if a / 2 ^ 26 < 16384 then a / 2 ^ 26 / 1536 else siteOf (a / 2 ^ 26))
        (groupOf (a / 2 ^ 26)) (pcOf a d) (a / 2 ^ 26)
    | p => memData (placeDie p) 0 0 0) d3

/-- The outcome of a read of device memory: its bytes, or the codeword that cannot be read. -/
def readPhys (a n : Nat) (d : Dev) : Except Nat (List Byte) :=
  match poisonIn a n d with
  | x :: _ => .error x
  | [] =>
    match (List.range (ceilDiv (a % 2 ^ 26 + n) (2 ^ 26))).find? (fun k => frameLost (a / 2 ^ 26 + k) d) with
    | some k => .error (max a ((a / 2 ^ 26 + k) * 2 ^ 26) / 8 * 8)
    | none => .ok (Mem.readN d.tiers.dev a n)

/-- The bytes of a range of device memory whatever its poison: what a copy moves (R146, migration mover). -/
def peek (a n : Nat) (d : Dev) : List Byte := Mem.readN d.tiers.dev a n

/-- One byte written to device memory: a byte of a poisoned codeword that the write does not cover whole, and a byte
of a lost frame, is discarded (R148, R160). -/
def putByte (a n : Nat) (m : Mem) (at_ : Nat) (b : Byte) (d : Dev) : Mem :=
  let c := cwBase at_
  if frameLost (at_ / 2 ^ 26) d then m
  else if poisonedAt at_ d && !(decide (a ≤ c) && decide (c + cwBytes at_ ≤ a + n)) then m
  else Mem.write m at_ b

/-- The bytes of a list written one by one from an address. -/
def putBytes (a n : Nat) (m : Mem) (d : Dev) : Nat → List Byte → Mem
  | _, [] => m
  | k, b :: r => putBytes a n (putByte a n m k b d) d (k + 1) r

/-- Does a write meet only whole codewords where it meets poison, and no lost frame (R148, R160)? -/
def writeWhole (a n : Nat) (d : Dev) : Bool :=
  (poisonIn a n d).all (fun c => decide (a ≤ c) && decide (c + cwBytes c ≤ a + n)) &&
  (List.range (ceilDiv (a % 2 ^ 26 + n) (2 ^ 26))).all (fun k => !frameLost (a / 2 ^ 26 + k) d)

/-- A write of device memory (R148): poison goes from each codeword that the write replaces whole. -/
def writePhys (a : Nat) (bytes : List Byte) (d : Dev) : Dev :=
  let n := bytes.length
  let gone : Place → Bool := fun p => match p with
    | .dev x => decide (a ≤ x) && decide (x + cwBytes x ≤ a + n)
    | _ => false
  { d with tiers := { d.tiers with
      dev := putBytes a n d.tiers.dev d a bytes,
      poison := d.tiers.poison.filter (fun p => !gone p),
      soft := d.tiers.soft.filter (fun s => !gone s.1),
      logged := d.tiers.logged.filter (fun p => !gone p) } }

/-- Zero-fills a frame: every codeword is written (R143), and a frame that was lost is lost no more (R160). -/
def zeroFrame (pfn : Nat) (d : Dev) : Dev :=
  let inside : Place → Bool := fun p => match p with
    | .dev x => decide (x / 2 ^ 26 = pfn)
    | _ => false
  { d with tiers := { d.tiers with
      dev := Mem.zero d.tiers.dev (pfn * 2 ^ 26) (2 ^ 26),
      sites := d.tiers.sites.map (fun s => { s with lost := s.lost.filter (fun p => p != pfn) }),
      poison := d.tiers.poison.filter (fun p => !inside p),
      soft := d.tiers.soft.filter (fun s => !inside s.1),
      logged := d.tiers.logged.filter (fun p => !inside p) } }

/-- The position that spare S0, cell 16, serves (R337). -/
def Engine.s0 (e : Engine) : Option Nat := (List.range 16).find? (fun k => e.serves.getD k k == 16)

/-- The position that spare S1, cell 17, serves. -/
def Engine.s1 (e : Engine) : Option Nat := (List.range 16).find? (fun k => e.serves.getD k k == 17)

/-- Applies a change for each element of a list, in order. -/
def each {α : Type} (l : List α) (f : α → Dev → Dev) (d : Dev) : Dev := l.foldl (fun acc x => f x acc) d

/-- Applies a change where a condition holds. -/
def when_ (c : Bool) (f : Dev → Dev) (d : Dev) : Dev := if c then f d else d

end Sys2Proof.Machine
end

