-- ==== Sys2Proof/Machine/Numbers.lean ====
section
/-! DEFINITION. The number formats (R68 to R73), rounding and conversion (R79, R80, R82, R83) and the combine of a reduction
lane (R320): every value is an exact dyadic number until its one rounding. -/

namespace Sys2Proof.Machine

/-- A value as the formats hold it (R70): not a number, an infinity, or (−1)^neg × m × 2^e, so that zero keeps a sign. -/
inductive Val where
  | nan
  | inf (neg : Bool)
  | fin (neg : Bool) (m : Nat) (e : Int)
  deriving DecidableEq, Repr, Inhabited

/-- The rounding modes of R86. -/
inductive RMode where
  | near | zero | up | down
  deriving DecidableEq, Repr, Inhabited

/-- The bits of the arithmetic flags word (R84). -/
def flInvalid : Nat := 1
/-- NAN_IN. -/
def flNanIn : Nat := 2
/-- OVERFLOW. -/
def flOverflow : Nat := 4
/-- SATURATED. -/
def flSaturated : Nat := 8
/-- UNDERFLOW_ZERO. -/
def flUnderflow : Nat := 16
/-- DIV_ZERO. -/
def flDivZero : Nat := 32

/-! ## Formats (R68, R70) -/

/-- Width of an element in bits. -/
def elemBits (f : Nat) : Nat :=
  match f with
  | 0x0 => 4 | 0x1 => 4 | 0xA => 4
  | 0x2 => 8 | 0x3 => 8 | 0x4 => 8 | 0x5 => 8 | 0xB => 8 | 0xC => 8
  | 0x6 => 16 | 0x7 => 16
  | _ => 32

/-- Has the format a block scale (R71)? -/
def isMx (f : Nat) : Bool := decide (f = 0x5 ∨ f = 0xA ∨ f = 0xB ∨ f = 0xC)

/-- Is the format an integer format, MXINT8 aside? -/
def isInt (f : Nat) : Bool := decide (f = 0x1 ∨ f = 0x4 ∨ f = 0x9)

/-- A floating-point format: exponent and fraction bits, bias, and whether it has infinities and NaNs like IEEE 754 (0),
only the NaN of E4M3 (1), or neither (2). -/
structure FFmt where
  exp  : Nat
  frac : Nat
  bias : Nat
  kind : Nat

/-- The element format of a code; an integer code answers that of FP32. -/
def ffmt (f : Nat) : FFmt :=
  match f with
  | 0x0 => ⟨2, 1, 1, 2⟩ | 0xA => ⟨2, 1, 1, 2⟩
  | 0x2 => ⟨4, 3, 7, 1⟩ | 0xB => ⟨4, 3, 7, 1⟩
  | 0x3 => ⟨5, 2, 15, 0⟩ | 0xC => ⟨5, 2, 15, 0⟩
  | 0x6 => ⟨8, 7, 127, 0⟩
  | 0x7 => ⟨5, 10, 15, 0⟩
  | _ => ⟨8, 23, 127, 0⟩

/-- The magnitude bits of the largest finite value. -/
def FFmt.top (f : FFmt) : Nat :=
  match f.kind with
  | 0 => (2 ^ f.exp - 1) * 2 ^ f.frac - 1
  | 1 => 2 ^ (f.exp + f.frac) - 2
  | _ => 2 ^ (f.exp + f.frac) - 1

/-- The value that the bits of a floating-point element stand for (R70). -/
def decodeFloat (f : FFmt) (b : Nat) : Val :=
  let mag := b % 2 ^ (f.exp + f.frac)
  let neg := b / 2 ^ (f.exp + f.frac) % 2 == 1
  let ex := mag / 2 ^ f.frac
  let fr := mag % 2 ^ f.frac
  if f.top < mag then
    if f.kind = 0 && fr = 0 then .inf neg else .nan
  else if ex = 0 then .fin neg fr (1 - (f.bias : Int) - f.frac)
  else .fin neg (2 ^ f.frac + fr) ((ex : Int) - f.bias - f.frac)

/-- An integer as a value. -/
def ofInt (v : Int) (e : Int) : Val := .fin (decide (v < 0)) v.natAbs e

/-- The value of an element without its block scale; an MXINT8 element is its integer × 2^−6 (R70). -/
def decodeElem (f b : Nat) : Val :=
  if f = 0x5 then ofInt (signedOf 8 b) (-6)
  else if isInt f then ofInt (signedOf (elemBits f) b) 0
  else decodeFloat (ffmt f) b

/-- A value times an E8M0 scale (R71). -/
def scaled (s : Nat) (v : Val) : Val :=
  if s = 0xFF then .nan
  else
    match v with
    | .fin n m e => .fin n m (e + s - 127)
    | v => v

/-! ## Rounding (R79, R82) -/

/-- `m` × 2^−s rounded to a whole number of a mode, for a value of a sign. -/
def roundShift (mode : RMode) (neg : Bool) (m : Nat) (s : Int) : Nat :=
  if s ≤ 0 then m * 2 ^ (-s).toNat
  else
    let k := s.toNat
    let q := m / 2 ^ k
    let r := m % 2 ^ k
    match mode with
    | .near => if 2 ^ k < 2 * r || (2 * r == 2 ^ k && q % 2 == 1) then q + 1 else q
    | .zero => q
    | .up => if !neg && decide (0 < r) then q + 1 else q
    | .down => if neg && decide (0 < r) then q + 1 else q

/-- The exponent of the leading bit of a nonzero magnitude `m` × 2^e. -/
def topExp (m : Nat) (e : Int) : Int := (Nat.log2 m : Int) + e

/-- The magnitude bits of `m` × 2^e in a format, as if its exponent range went on upward. -/
def roundMag (f : FFmt) (mode : RMode) (neg : Bool) (m : Nat) (e : Int) : Nat :=
  if m = 0 then 0
  else
    let q := max (topExp m e) (1 - (f.bias : Int)) - f.frac
    let k := roundShift mode neg m (q - e)
    ((q + f.frac + f.bias - 1).toNat) * 2 ^ f.frac + k

/-- The quiet NaN of a format (R82). -/
def quietNan (f : FFmt) : Nat :=
  match f.kind with
  | 1 => 0x7F
  | 2 => 0
  | _ => if f.frac = 2 then 0x7F else (2 ^ f.exp - 1) * 2 ^ f.frac + 2 ^ (f.frac - 1)

/-- Bits with a sign. -/
def withSign (f : FFmt) (neg : Bool) (mag : Nat) : Nat := mag + (if neg then 2 ^ (f.exp + f.frac) else 0)

/-- An infinity, or a value too large, in a format of 8 bits or less (R82): the bits and flags. -/
def smallInf (f : FFmt) (sat neg : Bool) : Nat × Nat :=
  match f.kind with
  | 2 => (withSign f neg f.top, flSaturated)
  | 1 => if sat then (withSign f neg f.top, flSaturated) else (quietNan f, flInvalid)
  | _ => if sat then (withSign f neg f.top, flSaturated) else (withSign f neg (f.top + 1), 0)

/-- A value rounded into a floating-point format (R82): its bits and the flags it sets. Flag OVERFLOW is for FP32. Whether a value lies
beyond the largest finite one is judged after the rounding: DEDUCED (log entry 133). -/
def encodeFloat (f : FFmt) (mode : RMode) (sat : Bool) (v : Val) : Nat × Nat :=
  match v with
  | .nan => (quietNan f, if f.kind = 2 then flNanIn else 0)
  | .inf neg => if f.frac ≤ 3 then smallInf f sat neg else (withSign f neg (f.top + 1), 0)
  | .fin neg m e =>
    let k := roundMag f mode neg m e
    if f.top < k then
      if f.frac ≤ 3 then smallInf f sat neg
      else
        let toInf : Bool := match mode with
          | .near => true
          | .zero => false
          | .up => !neg
          | .down => neg
        (withSign f neg (if toInf then f.top + 1 else f.top), if f.frac = 23 then flOverflow else 0)
    else (withSign f neg k, if k = 0 && m ≠ 0 then flUnderflow else 0)

/-- A value rounded into an `n`-bit integer (R82): saturated, with its flags. -/
def encodeInt (n : Nat) (mode : RMode) (v : Val) : Nat × Nat :=
  match v with
  | .nan => (0, flNanIn)
  | .inf neg => (if neg then 2 ^ (n - 1) else 2 ^ (n - 1) - 1, flSaturated)
  | .fin neg m e =>
    let k := roundShift mode neg m (-e)
    if neg then
      if 2 ^ (n - 1) < k then (2 ^ (n - 1), flSaturated)
      else ((2 ^ n - k) % 2 ^ n, if k = 0 && m ≠ 0 then flUnderflow else 0)
    else if 2 ^ (n - 1) - 1 < k then (2 ^ (n - 1) - 1, flSaturated)
    else (k, if k = 0 && m ≠ 0 then flUnderflow else 0)

/-- An element of a format without a block scale (R82). -/
def encodeElem (f : Nat) (mode : RMode) (sat : Bool) (v : Val) : Nat × Nat :=
  if isInt f then encodeInt (elemBits f) mode v else encodeFloat (ffmt f) mode sat v

/-! ## Quantising a block (R83) -/

/-- The exponent of an MX element format's largest power of two. -/
def mxTop (f : Nat) : Int :=
  match f with
  | 0xA => 2
  | 0xB => 8
  | 0xC => 15
  | _ => 0

/-- The leading exponent of a finite nonzero value. -/
def Val.lead (v : Val) : Option Int :=
  match v with
  | .fin _ m e => if m = 0 then none else some (topExp m e)
  | _ => none

/-- The largest leading exponent of a list of values. -/
def maxLead (l : List Val) : Option Int :=
  l.foldl (fun a v => match a, v.lead with
    | some x, some y => some (max x y)
    | none, y => y
    | x, none => x) none

/-- Does a block hold a NaN or an infinity? -/
def special (l : List Val) : Bool := l.any (fun v => match v with
  | .fin _ _ _ => false
  | _ => true)

/-- An MXINT8 element: value × 2^6 rounded, saturated to ±127. -/
def encodeMxInt (v : Val) : Nat × Nat :=
  match v with
  | .fin neg m e =>
    let k := roundShift .near neg m (-e - 6)
    let c := min 127 k
    (if neg then (256 - c) % 256 else c, (if 127 < k then flSaturated else 0) + (if k = 0 && m ≠ 0 then flUnderflow else 0))
  | _ => (0, 0)

/-- A block of values quantised to an MX format (R83): its elements, its scale byte and the flags. The NaN scale of a block that holds an
infinity and no NaN is a NaN produced, INVALID; that of a block with a NaN sets NAN_IN (R84): DEDUCED (log entry 133). -/
def quantise (f : Nat) (l : List Val) : List Nat × Nat × Nat :=
  if special l then (l.map (fun _ => 0), 0xFF, if l.any (fun v => v == .nan) then flNanIn else flInvalid)
  else
    match maxLead l with
    | none => (l.map (fun v => match v with
        | .fin true _ _ => if f = 0x5 then 0 else 2 ^ (elemBits f - 1)
        | _ => 0), 0, 0)
    | some t =>
      let x := min 127 (max (-127) (t - mxTop f))
      let es := l.map (fun v =>
        let w := match v with
          | .fin n m e => Val.fin n m (e - x)
          | v => v
        if f = 0x5 then encodeMxInt w else encodeFloat (ffmt f) .near true w)
      (es.map Prod.fst, (x + 127).toNat, es.foldl (fun a p => Nat.lor a p.2) 0)

/-! ## Packed elements (R73) -/

/-- Element `k` of packed bytes. -/
def elemAt (f : Nat) (l : List Byte) (k : Nat) : Nat :=
  match elemBits f with
  | 4 => (l.getD (k / 2) 0).toNat / 2 ^ (k % 2 * 4) % 16
  | w => fieldLE l (k * (w / 8)) (w / 8)

/-- Bytes that `n` elements take. -/
def elemSize (f n : Nat) : Nat := ceilDiv (n * elemBits f) 8

/-- Elements packed into bytes. -/
def packElems (f : Nat) (l : List Nat) : List Byte :=
  match elemBits f with
  | 4 => (List.range (ceilDiv l.length 2)).map (fun i => BitVec.ofNat 8 (l.getD (2 * i) 0 % 16 + 16 * (l.getD (2 * i + 1) 0 % 16)))
  | w => l.flatMap (natLE (w / 8))

/-! ## Exact arithmetic -/

/-- The negative of a value. -/
def Val.neg (v : Val) : Val :=
  match v with
  | .nan => .nan
  | .inf n => .inf (!n)
  | .fin n m e => .fin (!n) m e

/-- The signed integer of a finite value in units of 2^e0, for e0 no larger than its exponent. -/
def units (neg : Bool) (m : Nat) (e e0 : Int) : Int :=
  (if neg then -1 else 1) * ((m * 2 ^ (e - e0).toNat : Nat) : Int)

/-- An exact sum. An exact zero is +0 unless both are −0, or −0 under rounding toward −infinity (R80). -/
def Val.add (mode : RMode) (a b : Val) : Val :=
  match a, b with
  | .nan, _ => .nan
  | _, .nan => .nan
  | .inf x, .inf y => if x == y then .inf x else .nan
  | .inf x, _ => .inf x
  | _, .inf y => .inf y
  | .fin n1 m1 e1, .fin n2 m2 e2 =>
    let e0 := min e1 e2
    let s := units n1 m1 e1 e0 + units n2 m2 e2 e0
    if s = 0 then
      if m1 = 0 && m2 = 0 && n1 == n2 then .fin n1 0 e0 else .fin (decide (mode = .down)) 0 e0
    else .fin (decide (s < 0)) s.natAbs e0

/-- An exact product. -/
def Val.mul (a b : Val) : Val :=
  match a, b with
  | .nan, _ => .nan
  | _, .nan => .nan
  | .inf x, .inf y => .inf (x != y)
  | .inf x, .fin y m _ => if m = 0 then .nan else .inf (x != y)
  | .fin x m _, .inf y => if m = 0 then .nan else .inf (x != y)
  | .fin x m e, .fin y n f => .fin (x != y) (m * n) (e + f)

/-- The order of two values that are not NaN, with −0 below +0 (R320): is the first below the second? -/
def Val.below (a b : Val) : Bool :=
  match a, b with
  | .inf true, .inf true => false
  | .inf true, _ => true
  | _, .inf true => false
  | .inf false, _ => false
  | _, .inf false => true
  | .fin n1 m1 e1, .fin n2 m2 e2 =>
    let e0 := min e1 e2
    let x := units n1 m1 e1 e0
    let y := units n2 m2 e2 e0
    decide (x < y) || (decide (x = y) && n1 && !n2 && m1 == 0)
  | _, _ => false

/-! ## The combine of a reduction lane (R320) -/

/-- A finite value as a signed 47-bit mantissa whose bit 46 has exponent `t`; what falls below bit 0 is discarded. -/
def alignTo (t : Int) (v : Val) : Val :=
  match v with
  | .fin n m e => .fin n (roundShift .zero n m (t - 46 - e)) (t - 46)
  | v => v

/-- SUM, MAX or MIN of two aligned values. -/
def combineVal (red : Nat) (a b : Val) : Val :=
  if a == .nan || b == .nan then .nan
  else if red = 0 then Val.add .near a b
  else if red = 1 then (if a.below b then b else a)
  else (if b.below a then b else a)

/-- Two blocks of values combined before the conversion back to TYPE. -/
def combineVals (red : Nat) (a b : List Val) : List Val :=
  match maxLead (a ++ b) with
  | none => List.zipWith (combineVal red) a b
  | some t => List.zipWith (combineVal red) (a.map (alignTo t)) (b.map (alignTo t))

/-- SUM, MAX or MIN of two INT32 values, the sum modulo 2^32. -/
def combineInt (red x y : Nat) : Nat :=
  if red = 0 then (x + y) % 2 ^ 32
  else if red = 1 then (if signedOf 32 x < signedOf 32 y then y else x)
  else (if signedOf 32 y < signedOf 32 x then y else x)

/-- Elements `a` and `b` of a block of up to 32, as bytes, combined into bytes of a TYPE without a block scale. -/
def combineBytes (typ red : Nat) (sat : Bool) (a b : List Byte) : List Byte :=
  let n := b.length * 8 / elemBits typ
  let ea := (List.range n).map (elemAt typ a)
  let eb := (List.range n).map (elemAt typ b)
  if typ = 0x9 then packElems typ (List.zipWith (combineInt red) ea eb)
  else
    packElems typ ((combineVals red (ea.map (decodeElem typ)) (eb.map (decodeElem typ))).map
      (fun v => (encodeElem typ .near sat v).1))

/-- Two MXFP8 blocks, each its 32 element bytes and its scale, combined and quantised again. -/
def combineMx (typ red : Nat) (a : List Byte × Nat) (b : List Byte × Nat) : List Byte × Nat :=
  let vals := fun (x : List Byte × Nat) => (List.range 32).map (fun k => scaled x.2 (decodeElem typ (elemAt typ x.1 k)))
  let q := quantise typ (combineVals red (vals a) (vals b))
  (packElems typ q.1, q.2.1)

end Sys2Proof.Machine
end

