-- ==== Sys2Proof/Machine/Power.lean ====
section
/-! DEFINITION. Pace monitors, the current ledger, the input thresholds and the brownout (chapter 02). Input voltages are
in units of 10 mV. -/

namespace Sys2Proof.Machine

/-! ## The ledger (R42 to R50) -/

/-- The rail that a unit draws from (R42, R45). -/
def railOf (u : UnitId) : Nat :=
  match u with
  | .brick b => b / 128
  | .prefetch d => d
  | .pesyn i _ => 8 + i
  | .lane i _ => 8 + i
  | .lanes i _ => 8 + i
  | .cipher i => 8 + i
  | .hostDma i => 8 + i
  | .ddr5 _ => 10
  | .mover => 10
  | .iodCipher => 10
  | .imageCheck => 10

/-- The class of a unit (R45): a number for each kind. -/
def classOf (u : UnitId) : Nat :=
  match u with
  | .brick _ => 0
  | .prefetch _ => 1
  | .pesyn _ _ => 2
  | .lane _ _ => 3
  | .lanes _ _ => 3
  | .cipher _ => 4
  | .hostDma _ => 5
  | .ddr5 _ => 6
  | .mover => 7
  | .iodCipher => 8
  | .imageCheck => 9

/-- The classes that the update-verification allowance serves (R45). -/
def fromAllowance (u : UnitId) : Bool := decide (8 ≤ classOf u)

/-- The costs of the activity levels of a unit's class in the current curves in force (R43, R45); `half` says that the rail's
allowances are halved, where the classes that they serve ask for their half-rate level (R52). -/
def unitLevels (u : UnitId) (half : Bool) (c : Costs) : List Nat :=
  match u with
  | .brick _ => c.brick
  | .prefetch _ => [c.prefetch]
  | .pesyn _ _ => [c.pesyn]
  | .lane _ _ => [c.lane]
  | .lanes _ _ => (List.range 65).map (fun n => c.lane * n)
  | .cipher _ => [c.cipher]
  | .hostDma _ => [c.hostDma]
  | .ddr5 _ => [c.ddr5]
  | .mover => [c.mover]
  | .iodCipher => [if half then c.iodCipher.2 else c.iodCipher.1]
  | .imageCheck => [if half then c.checks.2 else c.checks.1]

/-- A rail's record. -/
def railAt (r : Nat) (d : Dev) : Rail := listGet d.pwr.rails r (Rail.start r)

/-- Changes a rail. -/
def updRail (r : Nat) (f : Rail → Rail) (d : Dev) : Dev :=
  { d with pwr := { d.pwr with rails := d.pwr.rails.set r (f (railAt r d)) } }

/-- The present capacity (R53): FULL × k / 16, rounded down. -/
def Rail.capacity (r : Rail) : Nat := r.full * r.sixteenths / 16

/-- The allowance in force (R52). -/
def Rail.allowance (r : Rail) : Nat := if r.allowHalf then r.allowFull / 2 else r.allowFull

/-- The sum of the costs of some grants. -/
def costSum (l : List Grant) : Nat := (l.map Grant.cost).sum

/-- The grants held from the allowance. -/
def Rail.fromAllow (r : Rail) : Nat := costSum (r.grants.filter (fun g => fromAllowance g.unit))

/-- LEDGER_GRANTED.GRANTED (R50). -/
def Rail.granted (r : Rail) : Nat :=
  r.standing + max r.allowance r.fromAllow + costSum (r.grants.filter (fun g => !fromAllowance g.unit))

/-- What the bricks of an instance hold on a rail. -/
def Rail.instHeld (r : Rail) (n : Nat) : Nat := costSum (r.grants.filter (fun g => g.inst == some n))

/-- Is a request for a level that the current curves cost (R43, R45, R52)? Only bricks are charged to an instance (R49). -/
def asksLevel (g : Grant) (d : Dev) : Bool :=
  (unitLevels g.unit (railAt (railOf g.unit) d).allowHalf d.upd.costs).contains g.cost && (g.inst.isNone || classOf g.unit == 0)

/-- Is a request within its instance's share of the grantable capacity (R49)? -/
def shareOk (r : Rail) (g : Grant) (d : Dev) : Bool :=
  match g.inst with
  | none => true
  | some n => decide ((r.instHeld n + g.cost) * 256 ≤ getF .instShare n 0 8 0 d * (r.capacity - r.standing))

/-- Does a request fit (R47)? -/
def fits (r : Rail) (g : Grant) : Bool :=
  if fromAllowance g.unit then decide (r.fromAllow + g.cost ≤ r.allowance)
  else decide (r.granted + g.cost ≤ r.capacity)

/-- Does the governor grant at all (R39, R52)? -/
def Rail.open_ (r : Rail) : Bool := !r.stopped && !r.slowHold

/-- One pass of the governor over the waiting requests in order (R47): `kept` are those passed over, oldest first,
`shut` the classes in which an earlier request waits for capacity. The flag says that the guard stopped the pass.
DESIGN CHOICE (log entry 138): a request that only its instance's share holds back is overtaken within its class, and those that
overtake it count in its `seen`; STARVE_GUARD is set when the guard first holds back a further request, not at the 16th grant itself. -/
def grantPass (d : Dev) : List GrantWait → List GrantWait → List Nat → Rail → Rail × Bool
  | [], kept, _, r => ({ r with waiting := kept }, false)
  | w :: rest, kept, shut, r =>
    if kept.any (fun k => decide (16 ≤ k.seen)) then ({ r with waiting := kept ++ w :: rest }, true)
    else if shut.contains (classOf w.req.unit) then grantPass d rest (kept ++ [w]) shut r
    else if !shareOk r w.req d then grantPass d rest (kept ++ [w]) shut r
    else if fits r w.req then
      grantPass d rest (kept.map (fun k => { k with seen := k.seen + 1 })) shut { r with grants := r.grants ++ [w.req] }
    else grantPass d rest (kept ++ [w]) (classOf w.req.unit :: shut) r

/-- The governor of a rail decides its waiting requests (R47). -/
def regrant (r : Nat) (d : Dev) : Dev :=
  let rail := railAt r d
  if rail.open_ then
    let p := grantPass d rail.waiting [] [] rail
    when_ p.2 (setBit .ledgerEvents r 0 1) (updRail r (fun _ => p.1) d)
  else d

/-- The governors of every rail decide. -/
def regrantAll (d : Dev) : Dev := each dies regrant d

/-- Does a unit hold its grant? -/
def holdsGrant (u : UnitId) (d : Dev) : Bool := (railAt (railOf u) d).grants.any (fun g => decide (g.unit = u))

/-- Does a unit wait for a grant? -/
def waitsGrant (u : UnitId) (d : Dev) : Bool := (railAt (railOf u) d).waiting.any (fun w => decide (w.req.unit = u))

/-- A unit requests current (R47). -/
def requestGrant (g : Grant) (d : Dev) : Dev :=
  regrant (railOf g.unit) (updRail (railOf g.unit) (fun r => { r with waiting := r.waiting ++ [⟨g, 0⟩] }) d)

/-- A unit that holds no grant and waits for none requests one. -/
def wantGrant (u : UnitId) (cost : Nat) (inst : Option Nat) (d : Dev) : Dev :=
  if holdsGrant u d || waitsGrant u d then d else requestGrant ⟨u, cost, inst⟩ d

/-- A unit returns its grant, and gives up a request that still waits (R46). -/
def returnGrant (u : UnitId) (d : Dev) : Dev :=
  regrant (railOf u) (updRail (railOf u) (fun r =>
    { r with
      grants := r.grants.filter (fun g => decide (g.unit ≠ u)),
             waiting := r.waiting.filter (fun w => decide (w.req.unit ≠ u)) }) d)

/-- A unit of the I/O die's image work requests the level that the allowance in force asks of it: its full rate, or its half rate
after a brownout warning (R45, R52). -/
def wantImage (u : UnitId) (d : Dev) : Dev :=
  wantGrant u ((unitLevels u (railAt 10 d).allowHalf d.upd.costs).headD 0) none d

/-- Both units of the image work are busy: with verification and arming each requests its level anew (R45, R52, R470). -/
def imageBusy (d : Dev) : Dev := wantImage .imageCheck (wantImage .iodCipher d)

/-- The I/O-die cipher engine and the image checks are idle, and return what they hold of the allowance (R45, R52). -/
def imageIdle (d : Dev) : Dev := returnGrant .imageCheck (returnGrant .iodCipher d)

/-- GRANTED past NOW sets OVER (R50). DESIGN CHOICE (log entry 138): the event is the halving that makes GRANTED exceed NOW; while it
stays so, a cleared OVER is not set again. -/
def checkOver (r : Nat) (d : Dev) : Dev :=
  when_ (decide ((railAt r d).capacity < (railAt r d).granted)) (setBit .ledgerEvents r 0 0) d

/-- Changes the list of the units that GRANT_REQUESTs made busy. -/
def setAsked (f : List UnitId → List UnitId) (d : Dev) : Dev := { d with pwr := { d.pwr with asked := f d.pwr.asked } }

/-- GRANT_REQUEST: a cost that is no level of the unit's class stands for no request (R43, R45). -/
def execGrantRequest (unit : UnitId) (cost : Nat) (inst : Option Nat) (s : State) :
    Host.Outcome State Fault Refusal :=
  .next (if asksLevel ⟨unit, cost, inst⟩ s.dev then { s with dev := requestGrant ⟨unit, cost, inst⟩ (setAsked (· ++ [unit]) s.dev) } else s)

/-- GRANT_RETURN. -/
def execGrantReturn (unit : UnitId) (s : State) : Host.Outcome State Fault Refusal :=
  .next { s with dev := returnGrant unit (setAsked (·.filter (fun u => decide (u ≠ unit))) s.dev) }

/-! ## Pace monitors (R36 to R39) -/

/-- The monitors of a die in service. -/
def monitorsOk (die : Nat) (d : Dev) : List Nat :=
  (List.range 8).filter (fun k => bitOf (getF .paceRate die 0 23 16 d) k)

/-- The lowest reading among the monitors in service; 0 where none has measured, or none is left in service: DESIGN CHOICE (log entry 143). -/
def dieRate (die : Nat) (d : Dev) : Nat :=
  match (monitorsOk die d).filterMap (fun k => Tab.get d.pwr.readings (8 * die + k)) with
  | [] => 0
  | x :: l => l.foldl min x

/-- Is a die below the slow corner (R37, R39)? -/
def belowSlow (die : Nat) (d : Dev) : Bool :=
  let r := getF .paceRate die 0 15 0 d
  decide (r ≠ 0 ∧ r < 1520) || decide ((monitorsOk die d).length < 4)

/-- The rate of a die follows its monitors, and the rail's hold follows the rate (R36, R38, R39). -/
def settleRate (die : Nat) (d0 d : Dev) : Dev :=
  let rate := dieRate die d
  let d1 := setF .paceRate die 0 15 0 rate d
  let low := getF .paceLow die 0 15 0 d1
  let d2 := if rate = 0 then d1 else setF .paceLow die 0 15 0 (if low = 0 then rate else min low rate) d1
  if belowSlow die d2 then
    let d3 := updRail die (fun r => { r with slowHold := true, goodSince := none }) d2
    if belowSlow die d0 then d3
    else logEv die 2 0x01 1 (bytesLE 1 die ++ bytesLE 2 rate) (setBit .paceLow die 0 16 d3)
  else if rate < 1540 then updRail die (fun r => { r with goodSince := none }) d2
  else updRail die (fun r => { r with goodSince := if r.slowHold then (if r.goodSince.isSome then r.goodSince else some (clock die d)) else none }) d2

/-- PACE_MEASUREMENT (R36, R37): a monitor more than 8 % off its prediction leaves service. -/
def paceMeasurement (die mon rate predicted : Nat) (d : Dev) : Dev :=
  if die < 11 && mon < 8 && bitOf (getF .paceRate die 0 23 16 d) mon then
    if 100 * (if rate < predicted then predicted - rate else rate - predicted) > 8 * predicted then
      let d1 := setF .paceRate die 0 (16 + mon) (16 + mon) 0 d
      settleRate die d (logEv die 1 0x01 2 (bytesLE 1 die ++ bytesLE 1 mon ++ bytesLE 2 rate ++ bytesLE 2 predicted) d1)
    else
      settleRate die d { d with pwr := { d.pwr with readings := Tab.set d.pwr.readings (8 * die + mon) rate } }
  else d

/-- PACE_MEASUREMENT. -/
def execPaceMeasurement (die mon rate predicted : Nat) (s : State) : Host.Outcome State Fault Refusal :=
  .next { s with dev := paceMeasurement die mon rate predicted s.dev }

/-- The rate has stayed at or above 1,540 Mbeat/s for 1 ms, and the rail grants again (R39). -/
def railGrantResume (die : Nat) (d : Dev) : Dev :=
  match (railAt die d).goodSince with
  | some t =>
    if t + msec 1 ≤ clock die d then regrant die (updRail die (fun r => { r with slowHold := false, goodSince := none }) d)
    else d
  | none => d

/-- RAIL_GRANT_RESUME. -/
def execRailGrantResume (die : Nat) (s : State) : Host.Outcome State Fault Refusal :=
  .next { s with dev := railGrantResume die s.dev }

/-! ## The input (R51 to R55, R475, R507) -/

/-- The bits of BROWNOUT_STATUS that follow the level of the input (R55). -/
def inputLevel (v : Nat) (d : Dev) : Dev :=
  setF .brownoutStatus 0 0 3 3 (if 5800 < v then 1 else 0)
    (setF .brownoutStatus 0 0 2 2 (if v < 4400 then 1 else 0)
      { d with pwr := { d.pwr with
          inRangeSince := if 4400 ≤ v then (if d.pwr.inRangeSince.isSome then d.pwr.inRangeSince else some (clock iodie d)) else none,
          under58Since := if v ≤ 5800 then (if d.pwr.under58Since.isSome then d.pwr.under58Since else some (clock iodie d)) else none } })

/-- The time below 42 V is brought up to date when the input is at `v` (R53). -/
def tally42 (v : Nat) (d : Dev) : Dev :=
  let t := match d.pwr.below42Since with
    | some t => d.pwr.below42 + (clock iodie d - t)
    | none => d.pwr.below42
  { d with pwr := { d.pwr with below42 := t, below42Since := if v < 4200 then some (clock iodie d) else none } }

/-- INPUT_HIGH (R51): the input is above 58 V. -/
def inputHigh (v : Nat) (d : Dev) : Dev := if 5800 < v then tally42 v (inputLevel v d) else d

/-- INPUT_HIGH. -/
def execInputHigh (mv : Nat) (s : State) : Host.Outcome State Fault Refusal :=
  .next { s with dev := inputHigh mv s.dev }

/-- INPUT_LOW (R51): the input is below 44 V and not below 42 V. -/
def inputLow (v : Nat) (d : Dev) : Dev := if v < 4400 && 4200 ≤ v then tally42 v (inputLevel v d) else d

/-- INPUT_LOW. -/
def execInputLow (mv : Nat) (s : State) : Host.Outcome State Fault Refusal :=
  .next { s with dev := inputLow mv s.dev }

/-- INPUT_IN_RANGE (R51): the input is from 44 V to 58 V. -/
def inputInRange (v : Nat) (d : Dev) : Dev := if 4400 ≤ v && v ≤ 5800 then tally42 v (inputLevel v d) else d

/-- INPUT_IN_RANGE. -/
def execInputInRange (mv : Nat) (s : State) : Host.Outcome State Fault Refusal :=
  .next { s with dev := inputInRange mv s.dev }

/-- A fall through 42 V (R52, R53, R55): the governors stop and the fall is counted. -/
def brownoutWarning (v : Nat) (d : Dev) : Dev :=
  if v < 4200 then
    let d1 := inputLevel v (tally42 v d)
    let warn := bitOf (getW .brownoutStatus 0 0 d) 0
    let d2 := { d1 with
      pwr := { d1.pwr with
        rails := d1.pwr.rails.map (fun r => { r with stopped := true }), stepAt := none,
                           lowest := if warn then min d.pwr.lowest v else v } }
    setF .brownoutStatus 0 0 1 0 1 (setBit .brownoutStatus 0 0 8 (countF .brownoutStatus 0 0 23 16 1 d2))
  else d

/-- BROWNOUT_WARNING. -/
def execBrownoutWarning (mv : Nat) (s : State) : Host.Outcome State Fault Refusal :=
  .next { s with dev := brownoutWarning mv s.dev }

/-- The requests that wait on an allowance take the level that it asks of them: a unit's half rate once it is halved, its full rate again
when it is whole (R52, R470). -/
def relevel (half : Bool) (c : Costs) (r : Rail) : Rail :=
  { r with waiting := r.waiting.map (fun w =>
      if fromAllowance w.req.unit then { w with req := { w.req with cost := (unitLevels w.req.unit half c).headD 0 } } else w) }

/-- Within 50 µs of the warning every capacity is 8/16 of FULL and every allowance is halved (R52). -/
def capacityHalved (d : Dev) : Dev :=
  if d.pwr.rails.any Rail.stopped then
    let d1 := { d with pwr := { d.pwr with
      rails := d.pwr.rails.map (fun r =>
        relevel true d.upd.costs { r with sixteenths := 8, allowHalf := true, stopped := false }) } }
    regrantAll (each dies checkOver d1)
  else d

/-- CAPACITY_HALVED. -/
def execCapacityHalved (s : State) : Host.Outcome State Fault Refusal :=
  .next { s with dev := capacityHalved s.dev }

/-- A rise through 43 V after a warning (R53): the record is written, and the first step comes 1 ms later. -/
def brownoutRecovery (v : Nat) (d : Dev) : Dev :=
  if bitOf (getW .brownoutStatus 0 0 d) 0 && decide (4300 ≤ v) then
    let d1 := inputLevel v (tally42 v d)
    let d2 := logEv 11 2 0x01 3 (bytesLE 1 iodie ++ bytesLE 2 d1.pwr.lowest ++ bytesLE 4 (d1.pwr.below42 / 8)) d1
    setF .brownoutStatus 0 0 1 0 2
      { d2 with pwr := { d2.pwr with stepAt := some (clock iodie d2 + msec 1), below42 := 0, below42Since := none } }
  else d

/-- BROWNOUT_RECOVERY. -/
def execBrownoutRecovery (mv : Nat) (s : State) : Host.Outcome State Fault Refusal :=
  .next { s with dev := brownoutRecovery mv s.dev }

/-- Capacity rises by one sixteenth on every rail, and the allowances are whole again at FULL (R52, R53). -/
def capacityStep (d : Dev) : Dev :=
  match d.pwr.stepAt with
  | some t =>
    if t ≤ clock iodie d && !d.pwr.rails.any Rail.stopped then
      let rails := d.pwr.rails.map (fun r =>
        relevel (decide (r.sixteenths + 1 < 16)) d.upd.costs
          { r with sixteenths := min 16 (r.sixteenths + 1), allowHalf := decide (r.sixteenths + 1 < 16) })
      let full := rails.all (fun r => decide (r.sixteenths = 16))
      let d1 := { d with pwr := { d.pwr with rails := rails, stepAt := if full then none else some (t + msec 1) } }
      regrantAll (when_ full (setF .brownoutStatus 0 0 1 1 0) d1)
    else d
  | none => d

/-- CAPACITY_STEP. -/
def execCapacityStep (s : State) : Host.Outcome State Fault Refusal :=
  .next { s with dev := capacityStep s.dev }

/-- Is a brownout warning in effect (R52)? -/
def warned (d : Dev) : Bool := bitOf (getW .brownoutStatus 0 0 d) 0

/-! ## Work that waits for a die's firmware (R462, R463) -/

/-- The pair of control cores whose turn is under way (R462, R468), by its place in the order of turns: in a handover the pairs go up, and when
the update falls back they go down. -/
def turnPair (d : Dev) : Option Nat :=
  let u := d.upd
  if u.state = 7 ∧ u.mode = 0 then some u.pairs else if u.state = 9 ∧ 0 < u.pairs then some (u.pairs - 1) else none

/-- Does work wait for a pair's firmware: in its own turn (R463), or while every pair hands over at once (R465 step 2)? -/
def pairBusy (k : Nat) (d : Dev) : Bool := turnPair d == some k || decide (d.upd.state = 7 ∧ d.upd.mode = 1 ∧ d.upd.actStep = 1)

/-- The pair that decides admission for a queue: one of the four of its fabric die, by its transport engine. Which pair of a die serves
which work the spec does not say: DESIGN CHOICE (log entry 158). -/
def queuePair (q : Nat) : Nat := 8 + 4 * (q % 2) + q / 2 % 4

/-- The pair that executes the admin commands of an instance (log entry 158). -/
def adminPair (n : Nat) : Nat := 8 + 4 * (n % 2) + n / 2 % 4

/-- The pair that writes the fault records of a die (log entry 158). -/
def faultPair (die : Nat) : Nat := if die < 8 then die else if die < 10 then 8 + 4 * (die - 8) else 17

/-- The pair that drives migration, on the I/O die (log entry 158). -/
def moverPair : Nat := 16

/-- Is a coordinated activation between its steps 1 and 5, or its fallback under way (R465, R468): admission is paused, and admin commands are
held? -/
def activating (d : Dev) : Bool := decide ((d.upd.state = 7 ∨ d.upd.state = 9) ∧ d.upd.mode = 1)

/-! ## The input monitor -/

/-- The input monitor reports (R55). -/
def inputVoltageSample (v : Nat) (d : Dev) : Dev :=
  let d1 := setF .inputVoltage 0 0 15 0 v d
  if warned d then { d1 with pwr := { d1.pwr with lowest := min d1.pwr.lowest v } } else d1

/-- INPUT_VOLTAGE_SAMPLE. -/
def execInputVoltageSample (mv : Nat) (s : State) : Host.Outcome State Fault Refusal :=
  .next { s with dev := inputVoltageSample mv s.dev }

end Sys2Proof.Machine
end

