-- ==== Sys2Proof/Machine/Translate.lean ====
section
/-! DEFINITION. Address translation (chapter 06): contexts, segments, page tables, the frame map, the caches, frames and
where they are taken from. -/

namespace Sys2Proof.Machine

/-! ## Frames -/

/-- The physical address of a logical device address (R163). -/
def ldaPhys (lda : Nat) (d : Dev) : Option Nat :=
  (Tab.get d.xl.lfns (lda / 2 ^ 26)).map (fun l => l.pfn * 2 ^ 26 + lda % 2 ^ 26)

/-- Is an LFN held by an instance? -/
def lfnHeld (lfn inst : Nat) (d : Dev) : Bool :=
  match Tab.get d.xl.lfns lfn with
  | some l => l.inst == inst && !l.dying
  | none => false

/-- The physical frames in use: the frame map's, the context stores' and the destination of a move (R140, R187). -/
def usedFrames (d : Dev) : List Nat :=
  d.xl.lfns.map (fun p => p.2.pfn) ++ d.tiers.hbm.flatMap Stack.store ++
  (match d.xl.move with
   | some m => (List.range m.n).map (fun k => m.dest + k)
   | none => [])

/-- A unit that frames are taken from: 0 to 7 a stack, 16 + s a site. Its free frames, group by group. -/
def freeGroups (u : Nat) (used : List Nat) (d : Dev) : List (List Nat) :=
  if u < 8 then
    let st := stackAt u d
    (List.range 8).map (fun g =>
      if st.groups.getD g 0 = 0 || st.groups.getD g 0 = 3 then
        ((List.range (groupFrames st g)).map (fun i => 1536 * u + 192 * g + i)).filter (fun p => !used.contains p)
      else [])
  else
    let s := siteAt (u - 16) d
    if s.state = 4 then
      [((List.range (s.capGiB * 16)).map (fun i => 16384 + 4096 * (u - 16) + i)).filter (fun p => !used.contains p)]
    else []

/-- How many frames of a unit are free. -/
def freeCount (u : Nat) (used : List Nat) (d : Dev) : Nat := ((freeGroups u used d).map List.length).sum

/-- The first of 64 consecutive free frames within one group or site (R142, R185). -/
def firstRun (l : List Nat) : Option Nat := l.find? (fun p => (List.range 64).all (fun k => l.contains (p + k)))

/-- Non-overlapping runs of 64 consecutive frames in an increasing list, counted greedily (R185). -/
def runCount : Nat → List Nat → Nat
  | 0, _ => 0
  | n + 1, l =>
    match firstRun l with
    | some p => 1 + runCount n (l.filter (fun x => decide (p + 64 ≤ x)))
    | none => 0

/-- How many whole runs a unit has free. -/
def freeRuns (u : Nat) (used : List Nat) (d : Dev) : Nat := ((freeGroups u used d).map (runCount 64)).sum

/-- One frame or one run from a unit, the groups of a stack in rotation from `rot` (R140): the first PFN. -/
def pickFrom (u : Nat) (big : Bool) (rot : Nat) (used : List Nat) (d : Dev) : Option Nat :=
  let gs := freeGroups u used d
  ((List.range gs.length).map (fun k => gs.getD ((rot + k) % gs.length) [])).findSome?
    (fun l => if big then firstRun l else l.head?)

/-- The units that a PLACE code names, in classes that are used up in order (R184, R185). -/
def placeUnits (place : Nat) : List (List Nat) :=
  if place < 8 then [[place]]
  else if place = 8 then [List.range 8]
  else if 0x10 ≤ place && place < 0x18 then [[place]]
  else if place = 0x18 then [(List.range 8).map (· + 16)]
  else if place = 0x20 then [List.range 8, (List.range 8).map (· + 16)]
  else []

/-- Is a PLACE code one of R184? -/
def placeOk (place : Nat) : Bool := !(placeUnits place).isEmpty

/-- The unit of a list with the most free frames, or runs, the lower-numbered on a tie (R185). -/
def mostFree (big : Bool) (us : List Nat) (used : List Nat) (d : Dev) : Option Nat :=
  let f := fun u => if big then freeRuns u used d else freeCount u used d
  us.foldl (fun best u =>
    match best with
    | some b => if f b < f u then some u else best
    | none => if 0 < f u then some u else none) none

/-- Frames for an allocation, one frame or run at a time: from the unit in hand while it has one, then from the unit
of the class that has the most (R185). Answers the PFNs, first to last, and the rotation reached in each stack. -/
def allocGo (big : Bool) (d : Dev) : Nat → List (List Nat) → Option Nat → List Nat → List Nat → Tab Nat →
    Option (List Nat × Tab Nat)
  | 0, _, _, _, acc, rots => some (acc, rots)
  | n + 1, classes, cur, used, acc, rots =>
    let pick := fun u => (pickFrom u big (Tab.getD rots u (stackAt u d).nextGroup) used d).map (fun p => (u, p))
    let choice := match cur.bind pick with
      | some x => some x
      | none => classes.findSome? (fun us => (mostFree big us used d).bind pick)
    match choice with
    | some (u, p) =>
      let run := if big then (List.range 64).map (fun k => p + k) else [p]
      allocGo big d n classes (some u) (run ++ used) (acc ++ run)
        (if u < 8 then Tab.set rots u ((groupOf p + 1) % 8) else rots)
    | none => none

/-- Chooses the frames of an allocation under PLACE (R185), without taking them. -/
def chooseFrames (count : Nat) (big : Bool) (place : Nat) (d : Dev) : Option (List Nat × Tab Nat) :=
  allocGo big d (if big then count / 64 else count) (placeUnits place) none (usedFrames d) [] []

/-- The rotation of the stacks after an allocation (R140). -/
def setRotation (rots : Tab Nat) (d : Dev) : Dev :=
  each rots (fun p => updStack p.1 (fun st => { st with nextGroup := p.2 })) d

/-- The first of `n` consecutive LFNs that are free (R537); LFN 0xFFFF is never one. -/
def freeLfnRun (n : Nat) (lfns : Tab Lfn) : Nat → Nat → Option Nat
  | 0, _ => none
  | fuel + 1, base =>
    if base + n ≤ 65535 then
      match lfns.find? (fun p => decide (base ≤ p.1 ∧ p.1 < base + n)) with
      | none => some base
      | some p => freeLfnRun n lfns fuel (p.1 + 1)
    else none

/-! ## Segments and page tables -/

/-- Permission bits: READ 1, WRITE 2, EXEC 4 (R167). -/
def permBit (k : Kind) : Nat :=
  match k with
  | .read => 1
  | .write => 2
  | .fetch => 4

/-- Does a permission set grant a kind of access? -/
def permits (perm : Nat) (k : Kind) : Bool := perm / permBit k % 2 == 1

/-- The enabled segment of a context that holds an address (R164, R167). -/
def segOf (c : Ctx) (va : Nat) : Option Seg :=
  (c.segs.find? (fun p => decide (p.2.va ≤ va ∧ va < p.2.va + p.2.len * 2 ^ 26))).map Prod.snd

/-- Does a range lie wholly in one segment of a context that grants a permission? -/
def inOneSeg (c : Ctx) (va len perm : Nat) : Option Nat :=
  (c.segs.find? (fun p => decide (p.2.va ≤ va ∧ va + len ≤ p.2.va + p.2.len * 2 ^ 26) &&
    decide (p.2.perm / perm % 2 = 1 ∨ perm = 0))).map
    (fun p => p.2.lfn * 2 ^ 26 + (va - p.2.va))

/-- May a table lie at an LDA (R169, R170): aligned, of 42 bits, in a TABLE frame of the instance. -/
def tableOk (lda align inst : Nat) (d : Dev) : Bool :=
  decide (lda % align = 0) && decide (lda < 2 ^ 42) && lfnHeld (lda / 2 ^ 26) inst d &&
  ((Tab.get d.xl.lfns (lda / 2 ^ 26)).map (fun l => l.table)).getD false

/-- The end of a walk at a leaf entry of a page of `size` bytes (R169, R170). -/
def leafRes (e va size inst : Nat) (d : Dev) : XRes :=
  let addr := e / 512 * 512
  let perm := bitsOf e 5 3
  let base := va / size * size
  if bitsOf e 2 1 = 2 then
    if addr % size ≠ 0 || bitOf e 5 then .malformed
    else .host (addr + va % size) base size perm
  else
    if addr % 2 ^ 26 ≠ 0 || decide (2 ^ 42 ≤ addr) then .malformed
    else
      let lfn := addr / 2 ^ 26
      if size = 2 ^ 32 && ((Tab.get d.xl.lfns lfn).bind Lfn.run) ≠ some lfn then .malformed
      else if !lfnHeld lfn inst d then .access
      else .frame (lfn + va % size / 2 ^ 26) (va % 2 ^ 26) base size perm false

/-- The place in a table of the entry for an address: `level` 1 to 3. -/
def entryAt (level table va : Nat) : Nat :=
  table + 8 * (if level = 1 then bitsOf va 55 44 else if level = 2 then bitsOf va 43 32 else bitsOf va 31 26)

/-- The table that a pointer of a level names, where it is well formed (R170). -/
def nextTable (e level inst : Nat) (d : Dev) : Option Nat :=
  if level < 3 && bitsOf e 8 6 = 0 && tableOk (e / 512 * 512) (if level = 1 then 32768 else 512) inst d then some (e / 512 * 512)
  else none

/-- One entry of a table and what it says (R169, R170): `level` 1 to 3. -/
def walkLevel (inst va : Nat) (d : Dev) : Nat → Nat → Nat → XRes
  | 0, _, _ => .malformed
  | fuel + 1, level, table =>
    match ldaPhys (entryAt level table va) d with
    | none => .malformed
    | some a =>
      match readPhys a 8 d with
      | .error x => .uncorrectable x
      | .ok bs =>
        let e := leNat bs
        if !bitOf e 0 then .notMapped level
        else if bitsOf e 8 6 ≠ 0 || bitsOf e 2 1 = 3 then .malformed
        else if bitsOf e 2 1 = 0 then
          match nextTable e level inst d with
          | some t => walkLevel inst va d fuel (level + 1) t
          | none => .malformed
        else if level = 1 then .malformed
        else leafRes e va (if level = 2 then 2 ^ 32 else 2 ^ 26) inst d

/-- The physical places of the entries that a walk reads. -/
def walkReads (inst va : Nat) (d : Dev) : Nat → Nat → Nat → List (Nat × Nat)
  | 0, _, _ => []
  | fuel + 1, level, table =>
    match ldaPhys (entryAt level table va) d with
    | none => []
    | some a =>
      (a, 8) :: (match readPhys a 8 d with
        | .error _ => []
        | .ok bs =>
          if bitOf (leNat bs) 0 && bitsOf (leNat bs) 2 1 = 0 then
            match nextTable (leNat bs) level inst d with
            | some t => walkReads inst va d fuel (level + 1) t
            | none => []
          else [])

/-- The valid entries of a table of `n`. -/
def tableEntries (n table : Nat) (d : Dev) : List Nat :=
  (List.range n).filterMap (fun k =>
    match (ldaPhys (table + 8 * k) d).map (fun a => readPhys a 8 d) with
    | some (.ok bs) => if bitOf (leNat bs) 0 then some (leNat bs) else none
    | _ => none)

/-- The frames that the level-3 tables of a context map one by one. -/
def pagesOf (c : Ctx) (d : Dev) : List Nat :=
  let under := fun (level : Nat) (es : List Nat) =>
    es.filterMap (fun e => if bitsOf e 2 1 = 0 then nextTable e level c.inst d else none)
  if c.root = 0 then []
  else
    ((under 2 ((under 1 (tableEntries 4096 c.root d)).flatMap (fun t => tableEntries 4096 t d))).flatMap (fun t => tableEntries 64 t d)).filterMap
      (fun e => if bitsOf e 2 1 = 1 && bitsOf e 8 6 = 0 && e / 512 * 512 % 2 ^ 26 = 0 then some (e / 2 ^ 26) else none)

/-- Does a context map a frame, by a segment or by a page of its own? -/
def maps (c : Ctx) (lfn : Nat) (d : Dev) : Bool :=
  c.segs.any (fun g => decide (g.2.lfn ≤ lfn ∧ lfn < g.2.lfn + g.2.len)) || (pagesOf c d).contains lfn

/-- The caches that serve an engine (R172): the shared cache of its die, and the brick's own. -/
def cachesOf (e : Eng) : List Nat :=
  match e with
  | .fetch b => [16 + b, b / 128]
  | .brick b => [16 + b, b / 128]
  | .pesyn i _ => [8 + i]
  | .coll i _ => [8 + i]
  | .hostDma i => [8 + i]
  | .reg => []
  | .aperture _ => []

/-- The die of an engine (R182). -/
def engDie (e : Eng) : Nat :=
  match e with
  | .fetch b => b / 128
  | .brick b => b / 128
  | .pesyn i _ => 8 + i
  | .coll i _ => 8 + i
  | .hostDma i => 8 + i
  | .reg => 10
  | .aperture _ => 10

/-- The bit of an engine in the ENGINES map of a fault record (R182): a brick's 16 × course + position is its index
on the die. -/
def engBit (e : Eng) : Nat :=
  match e with
  | .fetch b => b % 128
  | .brick b => b % 128
  | .pesyn _ k => k
  | .coll _ q => 16 + q
  | .hostDma _ => 32
  | .reg => 0
  | .aperture _ => 0

/-- May an engine use the kind of translation found (R164, R165)? -/
def engMay (e : Eng) (r : XRes) : Bool :=
  match r with
  | .frame _ _ _ _ _ seg =>
    (match e with
     | .coll _ _ => seg
     | .reg => !seg
     | _ => true)
  | .host _ _ _ _ =>
    (match e with
     | .brick _ => true
     | _ => false)
  | _ => true

/-- The entry of a cache that serves an address. -/
def cacheHit (ctx va : Nat) (e : Eng) (d : Dev) : Option TEnt :=
  d.xl.cache.find? (fun t => t.ctx == ctx && (cachesOf e).contains t.cache && decide (t.base ≤ va ∧ va < t.base + t.size))

/-- What a cache entry says of an address. -/
def cacheRes (t : TEnt) (va : Nat) : XRes :=
  if t.host then .host (t.addr + (va - t.base)) t.base t.size t.perm
  else .frame (t.lfn + (va - t.base) / 2 ^ 26) (va % 2 ^ 26) t.base t.size t.perm t.seg

/-- What a segment says of an address. -/
def segRes (s : Seg) (va : Nat) : XRes :=
  .frame (s.lfn + (va - s.va) / 2 ^ 26) (va % 2 ^ 26) (va / 2 ^ 26 * 2 ^ 26) (2 ^ 26) s.perm true

/-- The translation that segments and page tables give (R164), before permissions. -/
def walk (ctx va : Nat) (d : Dev) : XRes :=
  match Tab.get d.xl.ctxs ctx with
  | none => .notMapped 0
  | some c =>
    match segOf c va with
    | some s => segRes s va
    | none => if c.root = 0 then .notMapped 0 else walkLevel c.inst va d 3 1 c.root

/-- Permission and kind of translation (R165, R177). -/
def admitted (e : Eng) (k : Kind) (r : XRes) : XRes :=
  match r with
  | .frame _ _ _ _ perm _ => if engMay e r && permits perm k then r else .access
  | .host _ _ _ perm => if engMay e r && permits perm k then r else .access
  | r => r

/-- A translation of one address for an engine (R164, R172, R175): by the enabled segment that holds it, else from a cache that holds
it, else by a walk. -/
def translate (ctx va : Nat) (k : Kind) (e : Eng) (d : Dev) : XRes :=
  admitted e k (match (Tab.get d.xl.ctxs ctx).bind (fun c => segOf c va) with
    | some s => segRes s va
    | none =>
      match cacheHit ctx va e d with
      | some t => cacheRes t va
      | none => walk ctx va d)

/-- A translation by a walk corrects the entries that it reads (R145). -/
def walked (ctx va : Nat) (e : Eng) (d : Dev) : Dev :=
  match Tab.get d.xl.ctxs ctx with
  | none => d
  | some c =>
    if (segOf c va).isSome || (cacheHit ctx va e d).isSome || c.root = 0 || d.tiers.soft.isEmpty then d
    else readsDev (walkReads c.inst va d 3 1 c.root) d

/-- How many entries a cache keeps: 32 of a brick, 4,096 of a die. -/
def cacheCap (c : Nat) : Nat := if 16 ≤ c then 32 else 4096

/-- A walk's mapping enters the engine's caches (R172); the oldest entry goes where a cache is full. -/
def fillCache (ctx : Nat) (e : Eng) (r : XRes) (d : Dev) : Dev :=
  let ents : List TEnt := match r with
    | .frame lfn _ base size perm seg => (cachesOf e).map (fun c => ⟨c, ctx, base, size, false,
        if size = 2 ^ 32 then ((Tab.get d.xl.lfns lfn).bind Lfn.run).getD lfn else lfn, 0, perm, seg⟩)
    | .host addr base size perm => (cachesOf e).map (fun c => ⟨c, ctx, base, size, true, 0, addr / size * size, perm, false⟩)
    | _ => []
  each ents (fun t d =>
    if d.xl.cache.any (fun x => x.cache == t.cache && x.ctx == t.ctx && x.base == t.base) then d
    else
      let full := decide (cacheCap t.cache ≤ (d.xl.cache.filter (fun x => x.cache == t.cache)).length)
      let kept := if full then d.xl.cache.eraseP (fun x => x.cache == t.cache) else d.xl.cache
      { d with xl := { d.xl with cache := kept ++ [t] } }) d

/-- Drops cached translations that a test names (R176, R187). -/
def dropCache (f : TEnt → Bool) (d : Dev) : Dev :=
  { d with xl := { d.xl with cache := d.xl.cache.filter (fun t => !f t) } }

/-- The pieces of a range, cut at frame boundaries: address and length. -/
def cutFrames : Nat → Nat → Nat → List (Nat × Nat)
  | 0, _, _ => []
  | fuel + 1, va, len =>
    if len = 0 then []
    else
      let k := min len (2 ^ 26 - va % 2 ^ 26)
      (va, k) :: cutFrames fuel (va + k) (len - k)

/-- A range as physical pieces, address and length, or the first outcome that is no mapping, with its address
(R178: in increasing address order). Host pieces are not device memory and answer ACCESS here. -/
def transRange (ctx : Nat) (k : Kind) (e : Eng) (d : Dev) : List (Nat × Nat) → Except (XRes × Nat) (List (Nat × Nat))
  | [] => .ok []
  | (va, n) :: rest =>
    match translate ctx va k e d with
    | .frame lfn off _ _ _ _ =>
      (match Tab.get d.xl.lfns lfn with
       | none => .error (.access, va)
       | some l =>
         (match transRange ctx k e d rest with
          | .ok ps => .ok ((l.pfn * 2 ^ 26 + off, n) :: ps)
          | .error x => .error x))
    | .host _ _ _ _ => .error (.access, va)
    | r => .error (r, va)

/-- The range of `len` bytes from `va` in a context, as physical pieces. -/
def mapRange (ctx va len : Nat) (k : Kind) (e : Eng) (d : Dev) : Except (XRes × Nat) (List (Nat × Nat)) :=
  transRange ctx k e d (cutFrames (len / 2 ^ 26 + 2) va len)

/-- The physical pieces of several ranges joined. -/
def mapRanges (ctx : Nat) (frags : List (Nat × Nat)) (k : Kind) (e : Eng) (d : Dev) :
    Except (XRes × Nat) (List (Nat × Nat)) :=
  transRange ctx k e d (frags.flatMap (fun f => cutFrames (f.2 / 2 ^ 26 + 2) f.1 f.2))

/-- An access of an address is translated: its walk corrects what it reads, and its mapping enters the caches. -/
def fillAt (ctx va : Nat) (k : Kind) (e : Eng) (d : Dev) : Dev :=
  fillCache ctx e (translate ctx va k e d) (walked ctx va e d)

/-- Every access of a list of ranges enters the caches. -/
def fillRanges (ctx : Nat) (frags : List (Nat × Nat)) (k : Kind) (e : Eng) (d : Dev) : Dev :=
  each (frags.flatMap (fun f => cutFrames (f.2 / 2 ^ 26 + 2) f.1 f.2)) (fun p d => fillAt ctx p.1 k e d) d

/-- The status code of a translation outcome for a work descriptor (R177, R146). -/
def xStatus (r : XRes) : Nat :=
  match r with
  | .frame _ _ _ _ _ _ => 0
  | .host _ _ _ _ => 3
  | .notMapped _ => 8
  | .access => 3
  | .malformed => 8
  | .uncorrectable _ => 0xF

/-- Reads the bytes of physical pieces, or the codeword that cannot be read. -/
def readPieces (d : Dev) : List (Nat × Nat) → Except Nat (List Byte)
  | [] => .ok []
  | (a, n) :: r =>
    match readPhys a n d with
    | .error x => .error x
    | .ok l =>
      match readPieces d r with
      | .ok l2 => .ok (l ++ l2)
      | .error x => .error x

/-- Writes bytes to physical pieces in order; the flag says that every byte was written (R148, R160). -/
def writePieces : List (Nat × Nat) → List Byte → Dev → Dev × Bool
  | [], _, d => (d, true)
  | (a, n) :: r, l, d =>
    let ok := writeWhole a n d
    let p := writePieces r (l.drop n) (mirrorWrite a (l.take n) (writePhys a (l.take n) d))
    (p.1, ok && p.2)
where
  /-- A write to a piece that a move has copied goes to both frames (R187). -/
  mirrorWrite (a : Nat) (l : List Byte) (d : Dev) : Dev :=
    match d.xl.move with
    | none => d
    | some m =>
      if m.store then d
      else
        match (List.range m.n).find? (fun k => ((Tab.get d.xl.lfns (m.lfn + k)).map (fun l => l.pfn)) == some (a / 2 ^ 26)) with
        | some k =>
          if a % 2 ^ 26 + 2 ^ 26 * k < m.piece * 2 ^ 18 then
            writePhys ((m.dest + k) * 2 ^ 26 + a % 2 ^ 26) l d
          else d
        | none => d

/-- Bytes `off` up to `off + n` of physical pieces, as physical pieces. -/
def slicePieces : List (Nat × Nat) → Nat → Nat → List (Nat × Nat)
  | [], _, _ => []
  | (a, k) :: r, off, n =>
    if n = 0 then []
    else if k ≤ off then slicePieces r (off - k) n
    else
      let t := min n (k - off)
      (a + off, t) :: slicePieces r 0 (n - t)

/-- Bytes `off` up to `off + n` of address ranges joined, as address ranges. -/
def sliceFrags (l : List (Nat × Nat)) (off n : Nat) : List (Nat × Nat) := slicePieces l off n

end Sys2Proof.Machine
end

