-- ==== Sys2Proof/Machine/Migration.lean ====
section
/-! DEFINITION. The migration mover (R187 to R192) and the moves that retirement, evacuation, advice and counters
queue. -/

namespace Sys2Proof.Machine

/-- The order of precedence of the kinds of move. -/
def MoveKind.rank (k : MoveKind) : Nat :=
  match k with
  | .retire => 1
  | .evacuate => 2
  | .advice => 3
  | .counters => 4

/-- The frame that a move takes from, at present. -/
def Move.source (m : Move) (d : Dev) : Option Nat :=
  if m.store then some m.lfn else (Tab.get d.xl.lfns m.lfn).map (fun l => l.pfn)

/-- The unit of a frame: its stack, or 16 + its site. -/
def unitOf (pfn : Nat) : Nat := if pfn < 12288 then pfn / 1536 else 16 + siteOf pfn

/-- One frame or run from a unit, the groups of a stack in rotation (R140). -/
def pickIn (u : Nat) (big : Bool) (used : List Nat) (d : Dev) : Option Nat := pickFrom u big (stackAt u d).nextGroup used d

/-- One frame or run from the unit with the most free, among some. -/
def pickBest (us : List Nat) (big : Bool) (used : List Nat) (d : Dev) : Option Nat :=
  (mostFree big us used d).bind (fun u => pickIn u big used d)

/-- The first of two that is there. -/
def orElse (a b : Option Nat) : Option Nat := match a with
  | some x => some x
  | none => b

/-- Where a move goes (R140, R154, R158, R191, R192), where it can go now; advice with a PLACE of two tiers moves from the second to the
first. A frame that was lost with its module is not moved: DESIGN
CHOICE (log entry 132). -/
def moveDest (m : Move) (d : Dev) : Option Nat :=
  match m.source d with
  | none => none
  | some src =>
    let used := usedFrames d
    let big := decide (m.n = 64)
    let u := unitOf src
    let hbm := (List.range 8).filter (fun x => x ≠ u)
    let sites := ((List.range 8).map (· + 16)).filter (fun x => x ≠ u)
    if (List.range m.n).any (fun k => frameLost (src + k) d) then none
    else
      match m.kind with
      | .retire =>
        if m.store then pickIn u big used d
        else orElse (pickIn u big used d) (orElse (pickBest hbm big used d) (pickBest sites big used d))
      | .evacuate => orElse (pickBest sites big used d) (pickBest hbm big used d)
      | .advice =>
        ((placeUnits m.place).takeWhile (fun us => !us.contains u)).findSome? (fun us => pickBest us big used d)
      | .counters =>
        if m.place < 8 then
          if freeCount m.place used d ≤ getF .migrationWater m.place 0 15 0 d then none else pickIn m.place big used d
        else pickBest sites big used d

/-- The LFNs that move as one: a frame by itself, a 4 GiB run by its first LFN. -/
def moveHeads (f : Nat → Lfn → Bool) (d : Dev) : List (Nat × Nat) :=
  d.xl.lfns.filterMap (fun p =>
    if f p.1 p.2 then
      match p.2.run with
      | none => some (p.1, 1)
      | some r => if r = p.1 then some (p.1, 64) else none
    else none)

/-- A move that has not begun. -/
def mkMove (kind : MoveKind) (lfn n place : Nat) (store : Bool) : Move :=
  { kind := kind, lfn := lfn, n := n, place := place, store := store, dest := 0, piece := 0 }

/-- Is a frame one of a group of a stack? -/
def inGroup (n g pfn : Nat) : Bool := decide (pfn < 12288) && pfn / 1536 == n && groupOf pfn == g

/-- Is a frame one of a site? -/
def inSite (s pfn : Nat) : Bool := decide (16384 ≤ pfn) && siteOf pfn == s

/-- The moves that a group's retirement asks for (R154): its frames in use, context-store frames first. -/
def retireMoves (n g : Nat) (d : Dev) : List Move :=
  ((stackAt n d).store.filter (inGroup n g)).map (fun p => mkMove .retire p 1 n true) ++
  (moveHeads (fun _ l => inGroup n g l.pfn) d).map (fun p => mkMove .retire p.1 p.2 n false)

/-- Is a group emptying: RETIRING or STALLED (R154, R155)? -/
def emptying (n g : Nat) (d : Dev) : Bool := let st := (stackAt n d).groups.getD g 0; st == 1 || st == 2

/-- The moves of every retirement under way, in order of stack and group. -/
def allRetire (d : Dev) : List Move :=
  (List.range 8).flatMap (fun n => (List.range 8).flatMap (fun g => if emptying n g d then retireMoves n g d else []))

/-- The moves of every evacuation under way (R158), in order of site. -/
def allEvacuate (d : Dev) : List Move :=
  (List.range 8).flatMap (fun s =>
    if (siteAt s d).state = 5 then (moveHeads (fun _ l => inSite s l.pfn) d).map (fun p => mkMove .evacuate p.1 p.2 0 false) else [])

/-! ## Counters (R190, R191) -/

/-- May counters move a frame at all (R190, R191): no 4 GiB run, TABLE or NO_MIGRATE frame or frame that KEEP advises, and some context
in mode COUNTERS maps it? -/
def counterMay (lfn : Nat) (l : Lfn) (d : Dev) : Bool :=
  !l.table && !l.fixed && l.run.isNone && !l.keep && !l.dying && d.xl.ctxs.any (fun c => c.2.mode == 1 && maps c.2 lfn d)

/-- Does any context count accesses? -/
def anyCounters (d : Dev) : Bool := d.xl.ctxs.any (fun c => c.2.mode == 1)

/-- The stacks that demote (R191): one joins when its free frames are at LOW or below, and leaves once they reach HIGH. -/
def settleWater (d : Dev) : Dev :=
  let used := usedFrames d
  let on := fun n =>
    let free := freeCount n used d
    if free ≤ getF .migrationWater n 0 15 0 d then true
    else d.xl.demoting.contains n && decide (free < getF .migrationWater n 0 31 16 d)
  { d with xl := { d.xl with demoting := if anyCounters d then (List.range 8).filter on else [] } }

/-- Does one counted frame come before another in increasing order: the lower counter, and the lower LFN on a tie? -/
def fewer (a b : Nat × Lfn) : Bool := decide (a.2.count < b.2.count ∨ (a.2.count = b.2.count ∧ a.1 ≤ b.1))

/-- The frames that a stack gives up (R191), the lowest counter first. -/
def demotable (n : Nat) (d : Dev) : List Nat :=
  ((d.xl.lfns.filter (fun p => decide (p.2.pfn < 12288) && p.2.pfn / 1536 == n && counterMay p.1 p.2 d)).mergeSort fewer).map Prod.fst

/-- The demotions that are due now. -/
def demotions (d : Dev) : List Move :=
  d.xl.demoting.flatMap (fun n => (demotable n d).map (fun l => mkMove .counters l 1 0x18 false))

/-- The promotions that are queued (R191), the highest counter first and the lower LFN on a tie. -/
def promotions (d : Dev) : List Move :=
  let count := fun (m : Move) => ((Tab.get d.xl.lfns m.lfn).map Lfn.count).getD 0
  (d.xl.queued.filter (fun m => m.kind == .counters)).mergeSort
    (fun a b => decide (count b < count a ∨ (count a = count b ∧ a.lfn ≤ b.lfn)))

/-! ## The queue of the mover (R187, R189) -/

/-- Every move that is asked for, in order of precedence (R187); among the moves of counters demotions come first: DESIGN CHOICE (log
entry 132). -/
def asked (d : Dev) : List Move :=
  allRetire d ++ allEvacuate d ++ d.xl.queued.filter (fun m => m.kind == .advice) ++ demotions d ++ promotions d

/-- Does a move of precedence above `r` wait that can start? -/
def higherWaits (r : Nat) (d : Dev) : Bool := (asked d).any (fun m => decide (m.kind.rank < r) && (moveDest m d).isSome)

/-- Is a move the one in hand? It has found its destination. -/
def inHand (m : Move) (d : Dev) : Bool := d.xl.move.any (fun x => x.store == m.store && x.lfn == m.lfn)

/-- A group that empties is STALLED while one of its frames finds no destination, and RETIRING otherwise (R155). -/
def settleStalled (d : Dev) : Dev :=
  each (List.range 8) (fun n d =>
    each (List.range 8) (fun g d =>
      if emptying n g d then
        let stuck := (retireMoves n g d).any (fun m => !inHand m d && (moveDest m d).isNone)
        updStack n (fun s => { s with groups := s.groups.set g (if stuck then 2 else 1) }) d
      else d) d) d

/-- The first move that can start, with where it goes. -/
def nextMove (d : Dev) : Option (Move × Nat) := (asked d).findSome? (fun m => (moveDest m d).map (fun p => (m, p)))

/-- Does a queued move still make sense: its frame is there, counters may still promote it, and advice finds a context that maps it in a mode
other than NONE (R190, R191, R192)? -/
def stillWanted (m : Move) (d : Dev) : Bool :=
  match Tab.get d.xl.lfns m.lfn with
  | none => false
  | some l =>
    if m.kind == .counters then decide (16384 ≤ l.pfn) && counterMay m.lfn l d
    else m.kind != .advice || (List.range m.n).any (fun k => d.xl.ctxs.any (fun c => c.2.mode != 0 && maps c.2 (m.lfn + k) d))

/-- Queued moves that make sense no more are dropped. -/
def dropDone (d : Dev) : Dev := { d with xl := { d.xl with queued := d.xl.queued.filter (fun m => stillWanted m d) } }

/-- A move starts: its destination is taken, and the rotation of its stack goes on (R140). -/
def startMove (m : Move) (p : Nat) (d : Dev) : Dev :=
  setRotation (if p < 12288 then [(p / 1536, (groupOf p + 1) % 8)] else [])
    { d with xl := { d.xl with move := some { m with dest := p, piece := 0 }, queued := d.xl.queued.erase m } }

/-- The DDR5 channels that a move of some frames to others keeps busy (R45). -/
def moveChans (m : Move) (dest : Nat) (d : Dev) : List Nat :=
  (((m.source d).toList ++ [dest]).filter (fun p => decide (16384 ≤ p))).map siteOf

/-- The channels of the move in hand, or of the one that the mover has asked current for. -/
def moverChans (d : Dev) : List Nat :=
  match d.xl.move with
  | some m => moveChans m m.dest d
  | none => if holdsGrant .mover d || waitsGrant .mover d then ((nextMove d).map (fun x => moveChans x.1 x.2 d)).getD [] else []

/-- The channels of the tiles of a context: those in flight, and those that its channels ask for. -/
def BCtx.ddrChans (x : BCtx) (d : Dev) : List Nat :=
  x.chans.flatMap (fun c => c.2.asks ++ c.2.tiles.flatMap (fun t => t.spots.filterMap (fun s =>
    if s.host then none else (ldaPhys s.addr d).bind (fun a => if 16384 ≤ a / 2 ^ 26 then some (siteOf (a / 2 ^ 26)) else none))))

/-- Is a DDR5 channel controller busy (R45): for a GRANT_REQUEST, a descriptor from the moment when it asks until it has finished, a tile,
or a move? An access that begins and ends within one command holds its grant within it: DESIGN CHOICE (log entry 155). -/
def ddrBusy (k : Nat) (d : Dev) : Bool :=
  d.pwr.asked.contains (.ddr5 k) ||
  d.q.wqs.any (fun p => ((p.2.head.map Head.chans).getD []).contains k || p.2.flight.any (fun x => x.done.isNone && x.chans.contains k)) ||
  d.bricks.ctxs.any (fun p => (p.2.ddrChans d).contains k) || (moverChans d).contains k

/-- DDR5 channel controllers that are idle return their grants (R45, R46). -/
def idleDdr (d : Dev) : Dev :=
  each (((railAt 10 d).grants.map Grant.unit ++ (railAt 10 d).waiting.map (fun w => w.req.unit))) (fun u d => match u with
    | .ddr5 k => if ddrBusy k d then d else returnGrant u d
    | _ => d) d

/-- Asks the current of DDR5 channels (R45). -/
def wantChans (l : List Nat) (d : Dev) : Dev := each l (fun k => wantGrant (.ddr5 k) d.upd.costs.ddr5 none) d

/-- Does every one of some channels hold its grant? -/
def holdsChans (l : List Nat) (d : Dev) : Bool := l.all (fun k => holdsGrant (.ddr5 k) d)

/-- The mover starts the next move when it is free and holds its grant of 12 units, and those of the DDR5 channels that the move uses (R45,
R187). -/
def kickMover (d : Dev) : Dev :=
  let d0 := settleWater (settleStalled (dropDone d))
  match d0.xl.move with
  | some _ => d0
  | none =>
    match nextMove d0 with
    | none => idleDdr (when_ (holdsGrant .mover d0 || waitsGrant .mover d0) (returnGrant .mover) d0)
    | some (m0, p0) =>
      let d1 := wantChans (moveChans m0 p0 d0) (wantGrant .mover d0.upd.costs.mover none d0)
      if holdsGrant .mover d1 then
        match nextMove d1 with
        | some (m, p) => if holdsChans (moveChans m p d1) d1 then idleDdr (startMove m p d1) else d1
        | none => d1
      else d1

/-- Moves join the queue, and the mover looks at it. -/
def queueMoves (ms : List Move) (d : Dev) : Dev :=
  kickMover { d with xl := { d.xl with queued := d.xl.queued ++ ms.filter (fun m => !d.xl.queued.contains m) } }

/-- The mover gives up the move in hand: the frame stays, the destination is free again (R189). What retirement, evacuation and demotion
ask for they ask for again; other moves are queued again where they are to be. -/
def abandonMove (requeue counted : Bool) (d : Dev) : Dev :=
  match d.xl.move with
  | none => d
  | some m =>
    let q := if requeue && (m.kind == .advice || (m.kind == .counters && decide (m.place < 8))) then
        d.xl.queued ++ [{ m with dest := 0, piece := 0 }] else d.xl.queued
    let d1 := { d with xl := { d.xl with move := none, queued := q } }
    when_ counted (countF .migrationStatus 0 0 15 8 1) (returnGrant .mover d1)

/-- Poison goes with the bytes that are copied (R146, R187): from each poisoned codeword of the source piece to the
codewords of the destination that it covers. -/
def copyPoison (src dst n : Nat) (d : Dev) : Dev :=
  let bad := poisonIn src n d
  let hit : List Place := bad.flatMap (fun x =>
    let y := dst + (x - src)
    (List.range (ceilDiv (cwBytes x) (cwBytes y))).map (fun k => Place.dev (cwBase y + k * cwBytes y)))
  let inDst : Place → Bool := fun p => match p with
    | .dev x => decide (dst ≤ x) && decide (x < dst + n)
    | _ => false
  let d1 := { d with tiers := { d.tiers with
    poison := d.tiers.poison.filter (fun p => !inDst p) ++ hit,
    soft := d.tiers.soft.filter (fun s => !inDst s.1),
    logged := d.tiers.logged.filter (fun p => !inDst p) ++ hit } }
  each bad (fun x => noteUe (.dev x) 6) d1

/-- Is a move one that the reset of its frame's instance abandons (R395)? -/
def resetStops (m : Move) (d : Dev) : Bool :=
  !m.store && (m.kind == .advice || m.kind == .counters) &&
  ((Tab.get d.xl.lfns m.lfn).map (fun l => ((Tab.get d.insts l.inst).map Inst.state) == some 2)).getD false

/-- One 256 KiB piece is copied (R187), or a move starts; a lower move gives way at the boundary (R189), and so does one whose instance is
reset (R395). It pauses at a piece boundary during a turn of the firmware that drives it (R463). -/
def frameMovePiece (d0 : Dev) : Dev :=
  let d := if pairBusy moverPair d0 then d0 else kickMover d0
  match (if pairBusy moverPair d0 then none else d.xl.move) with
  | none => d
  | some m =>
    match m.source d with
    | none => kickMover (abandonMove false false d)
    | some src =>
      if m.piece < 256 * m.n then
        let a := src * 2 ^ 26 + m.piece * 2 ^ 18
        let b := m.dest * 2 ^ 26 + m.piece * 2 ^ 18
        let d1 := { d with
          tiers := { d.tiers with dev := Mem.copy d.tiers.dev a b (2 ^ 18) },
                           xl := { d.xl with move := some { m with piece := m.piece + 1 } } }
        let d2 := copyPoison a b (2 ^ 18) (readsDev [(a, 2 ^ 18)] d1)
        if higherWaits m.kind.rank d2 then kickMover (abandonMove true true d2)
        else if resetStops m d2 then kickMover (abandonMove false true d2) else d2
      else d

/-- FRAME_MOVE_PIECE. -/
def execFrameMovePiece (s : State) : Host.Outcome State Fault Refusal :=
  .next { s with dev := frameMovePiece s.dev }

/-- The stack with the most free frames, the lower-numbered on a tie. -/
def freestStack (d : Dev) : Nat := (mostFree false (List.range 8) (usedFrames d) d).getD 0

/-- Accesses to a frame through a context in mode COUNTERS are counted, in units of 256 bytes (R191); a DDR5 frame
that reaches HOT_THRESHOLD is queued for promotion. -/
def countAccess (ctx lfn units die : Nat) (d : Dev) : Dev :=
  if ((Tab.get d.xl.ctxs ctx).map Ctx.mode) == some 1 then
    match Tab.get d.xl.lfns lfn with
    | none => d
    | some l =>
      let c := satAdd 65535 l.count units
      let hot := getF .migrationCtrl 0 0 23 8 d
      let d1 := { d with xl := { d.xl with lfns := Tab.set d.xl.lfns lfn { l with count := c } } }
      if 16384 ≤ l.pfn && l.count < hot && hot ≤ c && counterMay lfn l d then
        queueMoves [mkMove .counters lfn 1 (if die < 8 then die else freestStack d1) false] d1
      else d1
  else d

/-- Accesses of ranges of logical device addresses are counted frame by frame. -/
def countLda (ctx : Nat) (l : List (Nat × Nat)) (e : Eng) (d : Dev) : Dev :=
  each (l.flatMap (fun f => cutFrames (f.2 / 2 ^ 26 + 2) f.1 f.2))
    (fun p d => countAccess ctx (p.1 / 2 ^ 26) (ceilDiv (p.1 % 256 + p.2) 256) (engDie e) d) d

/-- Accesses of a range are counted frame by frame. -/
def countRange (ctx va len : Nat) (e : Eng) (d : Dev) : Dev :=
  each (cutFrames (len / 2 ^ 26 + 2) va len) (fun p d =>
    match translate ctx p.1 .read e d, translate ctx p.1 .write e d with
    | .frame lfn _ _ _ _ _, _ => countAccess ctx lfn (ceilDiv (p.1 % 256 + p.2) 256) (engDie e) d
    | _, .frame lfn _ _ _ _ _ => countAccess ctx lfn (ceilDiv (p.1 % 256 + p.2) 256) (engDie e) d
    | _, _ => d) d

/-- Ranges of a context are read or written: their mappings enter the caches (R172), a read corrects what it meets (R145), and the
accesses are counted (R191). -/
def useRanges (ctx : Nat) (frags : List (Nat × Nat)) (k : Kind) (e : Eng) (d : Dev) : Dev :=
  let d1 := fillRanges ctx frags k e d
  let d2 := match k, mapRanges ctx frags k e d1 with
    | .read, .ok ps => readsDev ps d1
    | _, _ => d1
  each frags (fun x d => countRange ctx x.1 x.2 e d) d2

/-- The frame map switches, the old frame is zero-filled and free (R187). -/
def frameMoveEnd (d : Dev) : Dev :=
  match d.xl.move with
  | none => d
  | some m =>
    match m.source d with
    | none => kickMover (abandonMove false false d)
    | some src =>
      if m.piece = 256 * m.n then
        let idx := List.range m.n
        let d1 := if m.store then
            updStack (src / 1536) (fun st => { st with store := st.store.map (fun p => if p = src then m.dest else p) }) d
          else
            { d with xl := { d.xl with
              lfns := Tab.mapVals d.xl.lfns (fun k l =>
                if m.lfn ≤ k && k < m.lfn + m.n then { l with pfn := m.dest + (k - m.lfn) } else l) } }
        let d2 := dropCache (fun t => !t.host && decide (t.lfn < m.lfn + m.n ∧ m.lfn < t.lfn + t.size / 2 ^ 26) && !m.store) d1
        let d3 := each idx (fun k => zeroFrame (src + k)) { d2 with xl := { d2.xl with move := none } }
        kickMover (returnGrant .mover (countF .migrationStatus 0 0 31 16 1 d3))
      else d

/-- FRAME_MOVE_END. -/
def execFrameMoveEnd (s : State) : Host.Outcome State Fault Refusal :=
  .next { s with dev := frameMoveEnd s.dev }

/-- An epoch boundary (R191, R193): every access counter is halved, and EPOCH_MS takes effect. -/
def epochBoundary (d : Dev) : Dev :=
  if d.xl.epochAt + msec d.xl.epochMs ≤ clock iodie d then
    { d with xl := { d.xl with
      lfns := Tab.mapVals d.xl.lfns (fun _ l => { l with count := l.count / 2 }),
                               epochAt := clock iodie d, epochMs := getF .migrationCtrl 0 0 7 0 d } }
  else d

/-- EPOCH_BOUNDARY. -/
def execEpochBoundary (s : State) : Host.Outcome State Fault Refusal :=
  .next { s with dev := epochBoundary s.dev }

end Sys2Proof.Machine
end

