-- ==== Sys2Proof/Machine/Rings.lean ====
section
/-! DEFINITION. Work queues, completion rings and counters as data (chapter 07): reading the entry at the head, consuming
it, writing entries, raising counters and vectors. Status codes are those of R20. -/

namespace Sys2Proof.Machine

/-! ## Instances -/

/-- An instance's record; one that is not configured is UNCONFIGURED (R391). -/
def instAt (n : Nat) (d : Dev) : Inst :=
  Tab.getD d.insts n { state := 0, gen := 0, lastGen := 0, bricks := [], node := 0, leaf0 := 0, leaves := 0, shareDue := false, started := 0 }

/-- Is an instance ACTIVE? -/
def instActive (n : Nat) (d : Dev) : Bool := (instAt n d).state == 1

/-! ## Host memory (R375, R384, R386) -/

/-- Does a write to the host get there? -/
def hostOpen (d : Dev) : Bool := d.link.up && !d.link.lost

/-- The key of a byte of host memory as a function sees it (R375); the physical function is 0xFF. -/
def hostKey (fn addr : Nat) : Nat := fn * 2 ^ 64 + addr

/-- The class that the rotation serves after one (R381). -/
def turnAfter (cls turn : Nat) : Nat := if cls = 0 then turn else cls % 3 + 1

/-- A transaction goes out on the link. -/
def sendTx (t : LinkTx) (d : Dev) : Dev :=
  let d1 := { d with link := { d.link with turn := turnAfter t.cls d.link.turn } }
  let put := fun (a : Nat) (l : List Byte) (d : Dev) =>
    { d with link := { d.link with hostMem := Mem.writeN d.link.hostMem (hostKey t.fn a) l } }
  match t.what with
  | .write a l => put a l d1
  | .ownByte _ _ a => put a [0] d1
  | .entry _ a l _ => put a l d1
  | .vector v => emit (.vector t.fn v) d1
  | .read id => emit (.readHost id) d1
  | .flush id => emit (.flush id t.fn) d1
  | .access b id a store => emit (.hostAccess t.fn b id a store.isSome) ((store.map (fun l => put a l d1)).getD d1)

/-- A transaction is formed: it goes out at once, or waits for a retrain to end (R373). -/
def sendLink (t : LinkTx) (d : Dev) : Dev :=
  if d.link.retrain then { d with link := { d.link with waiting := d.link.waiting ++ [t] } } else sendTx t d

/-- Does a transaction bring data to host memory? -/
def LinkTx.isData (t : LinkTx) : Bool :=
  t.cls != 0 && (match t.what with
    | .write _ _ => true
    | .access _ _ _ store => store.isSome
    | _ => false)

/-- The first transaction that goes before all: of class 0, with no earlier data of its instance before it (R381, R384). -/
def firstUrgent : List LinkTx → List LinkTx → Option LinkTx
  | _, [] => none
  | before, t :: r =>
    if t.cls = 0 && !before.any (fun x => x.isData && x.inst == t.inst) then some t else firstUrgent (before ++ [t]) r

/-- The transaction that the link serves next (R381): the urgent ones, then the three classes in rotation. -/
def nextTx (l : Link) : Option LinkTx :=
  match firstUrgent [] l.waiting with
  | some t => some t
  | none => ([0, 1, 2].map (fun i => (l.turn + 2 + i) % 3 + 1)).findSome? (fun c => l.waiting.find? (fun t => t.cls == c))

/-- A posted write to host memory in a class of R381; it is discarded while the host link is lost (R386). -/
def hostPut (cls : Nat) (own : Option (Nat × Nat)) (fn addr : Nat) (l : List Byte) (d : Dev) : Dev :=
  if hostOpen d then sendLink ⟨cls, fn, fn, own, .write addr l⟩ d else d

/-- A write of an entry, a mirror or a record to host memory. -/
def hostWrite (fn addr : Nat) (l : List Byte) (d : Dev) : Dev := hostPut 0 none fn addr l d

/-- A write of an admin ring of instance `n`, under the physical function (R375). -/
def adminPut (n addr : Nat) (l : List Byte) (d : Dev) : Dev :=
  if hostOpen d then sendLink ⟨0, 0xFF, n, none, .write addr l⟩ d else d

/-- The instance that a read of host memory under a function serves. -/
def readInst (fn : Nat) (why : ReadWhy) : Nat :=
  match why with
  | .adminEntry n _ => n
  | _ => fn

/-- The class of a read of host memory and the descriptor that it serves: those that are no host DMA are served as those of class 0:
DESIGN CHOICE (log entry 135). -/
def readClass (why : ReadWhy) : Nat × Option (Nat × Nat) :=
  match why with
  | .piece q idx _ => (1 + q % 2, some (q, idx))
  | _ => (0, none)

/-- The module sends a read of host memory. -/
def hostRead (fn addr len : Nat) (why : ReadWhy) (d : Dev) : Dev :=
  let id := d.link.nextRead
  sendLink ⟨(readClass why).1, fn, readInst fn why, (readClass why).2, .read id⟩ { d with link := { d.link with
    reads := Tab.set d.link.reads id ⟨fn, addr, len, why, clock iodie d⟩, nextRead := id + 1 } }

/-- Raises a notification vector (R400); it is dropped while the host link is lost (R386). -/
def raiseVector (fn v : Nat) (d : Dev) : Dev := if hostOpen d then sendLink ⟨0, fn, fn, none, .vector v⟩ d else d

/-- Writes to a ring or mirror: location 0 a host bus address, 1 a logical device address held since creation, also while its frame moves
(R187). -/
def ringWrite (inst loc addr : Nat) (l : List Byte) (d : Dev) : Dev :=
  if loc = 0 then hostWrite inst addr l d
  else
    match ldaPhys addr d with
    | some a => (writePieces [(a, l.length)] l d).1
    | none => d

/-- Is a write to a ring or mirror discarded in part: it meets poison that it does not replace whole, or a lost frame (R148, R160)? -/
def ringLost (loc addr n : Nat) (d : Dev) : Bool :=
  decide (loc ≠ 0) && (match ldaPhys addr d with
    | some a => !writeWhole a n d
    | none => false)

/-! ## Objects -/

/-- A work queue. -/
def wqAt (q : Nat) (d : Dev) : Option WQ := Tab.get d.q.wqs q

/-- Changes a work queue. -/
def updWq (q : Nat) (f : WQ → WQ) (d : Dev) : Dev := { d with q := { d.q with wqs := Tab.modify d.q.wqs q f } }

/-- A completion ring. -/
def crAt (r : Nat) (d : Dev) : Option CR := Tab.get d.q.crs r

/-- Changes a completion ring. -/
def updCr (r : Nat) (f : CR → CR) (d : Dev) : Dev := { d with q := { d.q with crs := Tab.modify d.q.crs r f } }

/-- An instance's admin queue. -/
def adminAt (n : Nat) (d : Dev) : Admin :=
  Tab.getD d.q.admin n { p := 0, c := 0, head := none, reading := false, stalled := true, again := false, wait := none, mute := false, opWait := 0,
                         idxWait := 0, wr := 0, ret := 0, written := 0, notices := [], detached := false }

/-- Changes an admin queue. -/
def updAdmin (n : Nat) (f : Admin → Admin) (d : Dev) : Dev :=
  { d with q := { d.q with admin := Tab.set d.q.admin n (f (adminAt n d)) } }

/-- The die that enforces a queue's durations: fabric die q mod 2 (R269, R378). DESIGN CHOICE (log entry 9) for the operations of which
the spec names no die. -/
def qDie (q : Nat) : Nat := fdie (q % 2)

/-- The die that admits a descriptor and times its bound (R64): for a collective its communicator's home die (R300). -/
def opDie (q op : Nat) (l : List Byte) : Nat := if 0x20 ≤ op ∧ op ≤ 0x26 then fdie (fieldLE l 2 2 % 2) else qDie q

/-- The die that times an admitted descriptor. -/
def Desc.die (q : Nat) (x : Desc) : Nat := opDie q x.op x.bytes

/-- What is left of an admitted descriptor's E (R64), in periods. -/
def Desc.left (q : Nat) (x : Desc) (d : Dev) : Nat := x.expiry - clock (x.die q) d

/-! ## Reading the entry at the consumer index (R202 to R206, R536) -/

/-- A head: an entry that was copied, or one that could not be read; `die` enforces its queue's durations. -/
def mkHead (die idx : Nat) (bytes : List Byte) (tile : Option Tile) (bad : Option Nat) (d : Dev) : Head :=
  { idx := idx, bytes := bytes, tile := tile, bad := bad, slot := none, since := clock die d, seqs := [], table := [], judged := false, chans := [] }

/-- The ring index of a queue's entry by its number (R203); a brick-fed queue has no ring, and its tiles count modulo 2^16: DESIGN CHOICE
(log entry 150). -/
def WQ.ix (w : WQ) (k : Nat) : Nat := if w.feed = 2 then k % 65536 else k % 2 ^ w.log2

/-- Where an entry of a ring stands, by its number. -/
def WQ.entryAt (w : WQ) (k : Nat) : Nat := (if w.loc = 0 then w.ring else w.lda) + 64 * w.ix k

/-- The OWN bit of an entry's copy. -/
def ownBit (l : List Byte) : Bool := bitOf (l.getD 63 0).toNat 7

/-- A copied entry becomes the head when its OWN is 1; with OWN 0 the queue stops there until the next doorbell, or looks again where one
came while it was read (R204, R206). -/
def takeCopy (q idx : Nat) (l : List Byte) (d : Dev) : Dev :=
  if ownBit l then updWq q (fun w => { w with reading := false, again := false, head := some (mkHead (qDie q) idx l none none d) }) d
  else updWq q (fun w => { w with reading := false, again := false, stalled := !w.again }) d

/-- The module reads the entry at C, where it may (R204, R225, R226, R386, R395). -/
def tryRead (q : Nat) (d : Dev) : Dev :=
  match wqAt q d with
  | none => d
  | some w =>
    if w.head.isSome || w.reading || w.state == 2 || w.detached || !instActive w.inst d ||
       (w.state == 1 && ((crAt w.cr d).map CR.detached).getD false) then d
    else if w.feed = 2 then
      match w.tiles with
      | [] => d
      | t :: r => updWq q (fun w => { w with
        tiles := r, c := w.c + 1, head := some (mkHead (qDie q) w.c [] (some t) none d) }) d
    else if w.stalled then d
    else if w.loc = 0 then
      if hostOpen d then
        hostRead w.inst (w.entryAt w.c) 64 (.wqEntry q w.c) (updWq q (fun w => { w with reading := true }) d)
      else d
    else
      match ldaPhys (w.entryAt w.c) d with
      | none => d
      | some a =>
        match readPhys a 64 d with
        | .ok l => takeCopy q w.c l (readsDev [(a, 64)] d)
        | .error x => updWq q (fun w => { w with head := some (mkHead (qDie q) w.c [] none (some 0xF) d) }) (noteUe (.dev x) 3 d)

/-- A producer limit arrives by doorbell or counter (R204, R206): the module looks at the ring again. -/
def setProducer (q p : Nat) (d : Dev) : Dev :=
  match wqAt q d with
  | none => d
  | some w =>
    if w.state == 2 || w.detached then d
    else tryRead q (updWq q (fun w => { w with p := p % 2 ^ w.log2, stalled := false, again := w.reading }) d)

/-- The entry at the head is consumed (R203): its byte 63 is written 0x00, C advances, and the next entry is read. -/
def consume (q : Nat) (d : Dev) : Dev :=
  match wqAt q d with
  | none => d
  | some w =>
    match w.head with
    | none => d
    | some h =>
      if w.feed = 2 then tryRead q (updWq q (fun w => { w with head := none }) d)
      else
        let d1 := if h.bad.isSome then d
          else if w.loc = 0 then
            (if hostOpen d then sendLink ⟨0, w.inst, w.inst, none, .ownByte q h.idx (w.entryAt h.idx + 63)⟩ d else d)
          else ringWrite w.inst w.loc (w.entryAt h.idx + 63) [0] d
        tryRead q (updWq q (fun w => { w with head := none, c := w.c + 1 }) d1)

/-! ## Counters (R195, R215 to R218) -/

/-- The instance that owns a counter: a completion ring's, or a free counter's. -/
def counterOwner (idx : Nat) (d : Dev) : Option Nat :=
  if idx < 0x4000 then (crAt idx d).map CR.inst
  else if 0x10000 ≤ idx ∧ idx < 0x20000 then (Tab.get d.q.ctrs idx).map Ctr.inst
  else none

/-- The value of a counter. -/
def counterVal (idx : Nat) (d : Dev) : Nat :=
  if idx < 0x4000 then ((crAt idx d).map CR.counter).getD 0
  else ((Tab.get d.q.ctrs idx).map Ctr.value).getD 0

/-- A counter takes a value, its mirror is written (R218), and the queues that it feeds look at their rings (R206). -/
def setCounter (idx v : Nat) (d : Dev) : Dev :=
  let v := v % 2 ^ 48
  let d1 := if idx < 0x4000 then updCr idx (fun c => { c with counter := v }) d
    else { d with q := { d.q with ctrs := Tab.modify d.q.ctrs idx (fun c => { c with value := v }) } }
  let d2 := match (if idx < 0x4000 then none else Tab.get d.q.ctrs idx) with
    | some c =>
      (match c.mirror with
       | some (loc, a) => ringWrite c.inst loc a (natLE 8 v) d1
       | none => d1)
    | none => d1
  each (d2.q.wqs.filterMap (fun p => if p.2.feed == 1 && p.2.prodCtr == idx then some p.1 else none))
    (fun q => setProducer q v) d2

/-- Is the write of a free counter's mirror discarded now (R148, R160)? -/
def mirrorLost (idx : Nat) (d : Dev) : Bool :=
  match (if idx < 0x4000 then none else Tab.get d.q.ctrs idx).bind Ctr.mirror with
  | some (loc, a) => ringLost loc a 8 d
  | none => false

/-- Adds to a counter that an instance owns; an addition to any other is not made (R217). -/
def addCounter (inst idx k : Nat) (d : Dev) : Dev :=
  if counterOwner idx d = some inst then setCounter idx (counterVal idx d + k) d else d

/-- Has a counter reached a target, compared modulo 2^48 as a signed value (R200, R219)? -/
def reached (idx target : Nat) (d : Dev) : Bool :=
  decide ((counterVal idx d + 2 ^ 48 - target % 2 ^ 48) % 2 ^ 48 < 2 ^ 47)

/-! ## Completion entries (R209 to R216) -/

/-- The 32 bytes of an entry with OWN set (R209). -/
def Entry.bytesOf (e : Entry) : List Byte :=
  natLE 4 e.result ++ natLE 4 e.bytes ++ natLE 2 e.queue ++ natLE 2 e.index ++ natLE 1 e.status ++ natLE 1 e.opcode ++
  natLE 1 e.kind ++ [0] ++ natLE 2 e.gen ++ [0, 0] ++ natLE 3 e.node ++ [0] ++ natLE 6 e.detail ++ [0, 0x80]

/-- An entry of no kind: a descriptor that ends without one (R117). -/
def silentKind : Nat := 255

/-- Does a condition for a ring's notification hold (R216)? -/
def CR.due (c : CR) (now : Nat) : Bool :=
  decide (0 < c.unseen) && (decide (max 1 c.modCount ≤ c.unseen) || decide (c.oldest + usec c.modUs ≤ now))

/-- The ring raises its vector where a condition for it holds, and clears its count and timer (R216); a ring with vector 0xFF raises none,
and its entries stay not notified. -/
def notify (r : Nat) (d : Dev) : Dev :=
  match crAt r d with
  | none => d
  | some c =>
    if c.vector = 0xFF || !c.due (clock iodie d) then d
    else raiseVector c.inst c.vector (updCr r (fun c => { c with unseen := 0 }) d)

/-- One more entry counts toward the ring's notification (R216). -/
def moderate (r : Nat) (d : Dev) : Dev :=
  notify r (updCr r (fun c => { c with unseen := c.unseen + 1, oldest := if c.unseen = 0 then clock iodie d else c.oldest }) d)

/-- Slots of a ring that are neither reserved nor written and not yet returned (R214). -/
def freeSlots (c : CR) : Nat := 2 ^ c.log2 - (c.held + c.written)

/-- The addition that follows an entry (R210, R217): instance, counter, addend. -/
def thenCount (count : Option (Nat × Nat × Nat)) (d : Dev) : Dev :=
  match count with
  | some (n, idx, k) => addCounter n idx k d
  | none => d

/-- An entry of a ring has become visible (R210, R215, R216): the ring counter rises, its notification counts it, and the addition follows. -/
def entrySeen (r : Nat) (count : Option (Nat × Nat × Nat)) (d : Dev) : Dev :=
  let d1 := updCr r (fun c => { c with held := c.held - 1, written := c.written + 1 }) d
  thenCount count (moderate r (setCounter r (counterVal r d1 + 1) d1))

/-- The slot of an entry that is written nowhere is free at once, and the addition is made all the same (R210, R386). -/
def entryNowhere (r : Nat) (count : Option (Nat × Nat × Nat)) (d : Dev) : Dev :=
  thenCount count (updCr r (fun c => { c with held := c.held - 1 }) d)

/-- An entry is written to a ring in its reserved slot, and then its addition is made (R210, R215, R216). On a detached ring it is written
nowhere (R386); an entry for host memory that is formed in a retrain becomes visible after it (R373). -/
def writeEntry (r : Nat) (e : Entry) (count : Option (Nat × Nat × Nat)) (d : Dev) : Dev :=
  match crAt r d with
  | none => thenCount count d
  | some c =>
    if c.detached || e.kind = silentKind then entryNowhere r count d
    else
      let at_ := (if c.loc = 0 then c.ring else c.lda) + 32 * c.wr
      let d1 := updCr r (fun c => { c with wr := (c.wr + 1) % 2 ^ c.log2 }) d
      if c.loc = 0 && d.link.retrain && hostOpen d then sendLink ⟨0, c.inst, c.inst, none, .entry r at_ e.bytesOf count⟩ d1
      else entrySeen r count (ringWrite c.inst c.loc at_ e.bytesOf d1)

/-- A remote tile's operation ends: its entry, or the return of its slot, waits for REMOTE_TILE_COMPLETE (R117). -/
def tileEnds (q idx : Nat) (t : Tile) (status : Nat) (d : Dev) : Dev :=
  { d with bricks := { d.bricks with ends := d.bricks.ends ++ [⟨q, idx, t, status⟩] } }

/-- Is the OWN write of a descriptor still waiting for a retrain, where its entry goes to device memory (R203)? -/
def ownWaits (q : Nat) (w : WQ) (idx : Nat) (d : Dev) : Bool :=
  ((crAt w.cr d).map (fun c => decide (c.loc ≠ 0))).getD false && d.link.waiting.any (fun t => match t.what with
    | .ownByte a b _ => a == q && b == idx
    | _ => false)

/-- The entry of a finished descriptor as it is written: with its ring index, and with INTERNAL in place of OK where the mirror of the counter
that its COUNT adds to cannot be written (R148, R160), since the entry comes before the addition (R210): DEDUCED (log entry 156). -/
def WQ.entryOf (w : WQ) (x : Desc) (e : Entry) (d : Dev) : Entry :=
  let lost := x.count.any (fun c => counterOwner c.1 d == some w.inst && mirrorLost c.1 d)
  { e with index := w.ix x.idx, status := if e.status = 0 && lost then 0xF else e.status }

/-- The finished descriptors at the front of a queue's flight write their entries in ring order, each followed by its
COUNT addition (R210, R211), and each after its OWN write (R203). -/
def drain (q : Nat) : Nat → Dev → Dev
  | 0, d => d
  | fuel + 1, d =>
    match wqAt q d with
    | none => d
    | some w =>
      match w.flight with
      | [] => d
      | x :: rest =>
        match x.done with
        | none => d
        | some e =>
          if ownWaits q w x.idx d || d.bricks.ends.any (fun t => t.q == q && t.idx == x.idx) then d
          else
            drain q fuel (writeEntry w.cr (w.entryOf x e d) (x.count.map (fun c => (w.inst, c.1, c.2)))
              (updWq q (fun w => { w with flight := rest }) d))

/-- Writes what can be written of a queue's finished descriptors; a queue that is being destroyed and has none left is
for its command to free. -/
def drainAll (q : Nat) (d : Dev) : Dev :=
  drain q (((wqAt q d).map (fun w => w.flight.length)).getD 0) d

/-- The transactions that waited for a retrain go out, in the order in which the link serves them (R381), and what follows an entry follows
(R215). -/
def pumpLink : Nat → Dev → Dev
  | 0, d => d
  | fuel + 1, d =>
    match nextTx d.link with
    | none => d
    | some t =>
      let d1 := sendTx t { d with link := { d.link with waiting := d.link.waiting.erase t } }
      pumpLink fuel (match t.what with
        | .entry r _ _ count => entrySeen r count d1
        | .ownByte q _ _ => drainAll q d1
        | _ => d1)

/-- COUNT of a descriptor (R196): index and addend, where it is set. -/
def countOf (l : List Byte) : Option (Nat × Nat) :=
  if bitOf (l.getD 1 0).toNat 0 then some (fieldLE l 40 4, fieldLE l 44 4) else none

/-- An entry for a work descriptor (R209). -/
def workEntry (q idx op status result bytes detail gen : Nat) : Entry :=
  { result := result, bytes := bytes, queue := q, index := idx, status := status, opcode := op, kind := 0, gen := gen,
    node := 0, detail := detail }

/-- Marks an admitted descriptor finished with an entry; its entry follows in ring order. -/
def finish (q idx : Nat) (e : Entry) (d : Dev) : Dev :=
  drainAll q (updWq q (fun w => { w with
    flight := w.flight.map (fun x =>
    if x.idx = idx && x.done.isNone then { x with done := some e } else x) }) d)

/-- The opcode that a head shows: of its bytes, of a remote tile (R116), or 0xFF where it could not be read (R536). -/
def Head.opcode (h : Head) : Nat :=
  if h.bad.isSome then 0xFF
  else match h.tile with
    | some t => if t.load then 0x12 else if t.imm.isSome then 0x11 else 0x10
    | none => (h.bytes.getD 0 0).toNat

/-- The head descriptor is completed at once, without admission, in the slot that it holds (R198, R203): it is consumed,
and its entry follows those of earlier descriptors. -/
def completeHead (q status result bytes detail : Nat) (d : Dev) : Dev :=
  match wqAt q d with
  | none => d
  | some w =>
    match w.head with
    | none => d
    | some h =>
      if h.slot.isNone then d
      else
        let op := h.opcode
        let x : Desc :=
          { idx := h.idx, op := op, bytes := h.bytes, tile := h.tile, expiry := 0, devUs := 0, since := clock (opDie q op h.bytes) d,
            gen := (instAt w.inst d).gen, dUs := 0, toHost := false, table := h.table, pins := [], chans := [], spoilt := false, era := d.upd.era,
            count := (countOf h.bytes).bind (fun c => if counterOwner c.1 d = some w.inst then some c else none),
            done := some (workEntry q h.idx op status result bytes detail (instAt w.inst d).gen) }
        let d1 := match h.tile with
          | some t => tileEnds q h.idx t status d
          | none => d
        drainAll q (consume q (updWq q (fun w => { w with flight := w.flight ++ [x] }) d1))

/-- The head is admitted (R57, R203): it is consumed, and joins the admitted descriptors of its queue with its E. -/
def admitHead (q expiry devUs : Nat) (d : Dev) : Dev :=
  match wqAt q d with
  | none => d
  | some w =>
    match w.head with
    | none => d
    | some h =>
      let x : Desc :=
        { idx := h.idx, op := h.opcode, bytes := h.bytes, tile := h.tile, expiry := expiry, devUs := devUs, since := clock (opDie q h.opcode h.bytes) d,
          gen := (instAt w.inst d).gen, dUs := 0, toHost := false, table := h.table, pins := [], chans := h.chans,
          spoilt := decide (w.feed ≠ 2) && ringLost w.loc (w.entryAt h.idx + 63) 1 d, era := d.upd.era,
          count := countOf h.bytes, done := none }
      consume q (updWq q (fun w => { w with flight := w.flight ++ [x] }) d)

/-! ## Completion slots (R63, R214, R228) -/

/-- The die that times a head's refusal delay: the one that would admit it (R62, R64). -/
def Head.die (q : Nat) (h : Head) : Nat := opDie q h.opcode h.bytes

/-- How long a head has been at the head of its queue, in periods of its queue's die. -/
def Head.age (q : Nat) (h : Head) (d : Dev) : Nat := clock (qDie q) d - h.since

/-- How long a head has held its completion slot (R62). -/
def Head.held (q : Nat) (h : Head) (d : Dev) : Nat := clock (h.die q) d - h.slot.getD (clock (h.die q) d)

/-- The heads of other queues that wait for a slot of a ring and began before, with the queue number on a tie. -/
def earlierWaiters (q : Nat) (w : WQ) (h : Head) (d : Dev) : Nat :=
  (d.q.wqs.filter (fun p => p.1 != q && p.2.cr == w.cr &&
    (match p.2.head with
     | some g => g.slot.isNone && (decide (h.age q d < g.age p.1 d) || (g.age p.1 d == h.age q d && decide (p.1 < q)))
     | none => false))).length

/-- The head takes a completion slot, where one is free for it (R63, R228). -/
def takeSlot (q : Nat) (d : Dev) : Dev :=
  match wqAt q d with
  | none => d
  | some w =>
    match w.head, crAt w.cr d with
    | some h, some c =>
      if h.slot.isSome then d
      else if c.detached || decide (earlierWaiters q w h d < freeSlots c) then
        updWq q (fun w => { w with head := some { h with slot := some (clock (h.die q) d) } })
          (updCr w.cr (fun c => { c with held := c.held + 1 }) d)
      else d
    | _, _ => d

/-- A slot of a ring is free again without an entry. -/
def freeSlot (r : Nat) (d : Dev) : Dev := updCr r (fun c => { c with held := c.held - 1 }) d

/-! ## The admin queue (R222, R223) -/

/-- Entries of the admin queue and of its completion ring. -/
def adminSizes (n : Nat) (d : Dev) : Nat × Nat := (2 ^ getF .adminCtrl n 0 19 16 d, 2 ^ getF .adminCtrl n 0 15 12 d)

/-- Does the admin queue run? -/
def adminOn (n : Nat) (d : Dev) : Bool := bitOf (getW .adminCtrl n 0 d) 31

/-- Host bus address of the admin queue, or of its completion ring. -/
def adminAddr (n : Nat) (cr : Bool) (d : Dev) : Nat :=
  if cr then getW .adminCrLo n 0 d + 2 ^ 32 * getW .adminCrHi n 0 d
  else getW .adminWqLo n 0 d + 2 ^ 32 * getW .adminWqHi n 0 d

/-- The module reads the admin entry at C (R202, R204, R395). -/
def tryAdmin (n : Nat) (d : Dev) : Dev :=
  let a := adminAt n d
  if a.head.isSome || a.reading || a.stalled || a.wait.isSome || !adminOn n d || !instActive n d || !hostOpen d then d
  else hostRead 0xFF (adminAddr n false d + 64 * a.c) 64 (.adminEntry n a.c) (updAdmin n (fun a => { a with reading := true }) d)

/-- Free slots of the admin completion ring: the command at the head or in execution holds one. -/
def adminFree (n : Nat) (d : Dev) : Nat :=
  let a := adminAt n d
  (adminSizes n d).2 - (a.written + (if (a.wait.isSome && !a.mute) || (a.head.bind Head.slot).isSome then 1 else 0))

/-- Writes an entry to the admin completion ring and raises its vector (R222), or nowhere where the ring is detached (R386). -/
def writeAdmin (n : Nat) (e : Entry) (d : Dev) : Dev :=
  let a := adminAt n d
  if a.detached then d
  else
    let d1 := adminPut n (adminAddr n true d + 32 * a.wr) e.bytesOf d
    let d2 := updAdmin n (fun a => { a with wr := (a.wr + 1) % (adminSizes n d).2, written := a.written + 1 }) d1
    raiseVector n (getF .adminCtrl n 0 11 6 d2) d2

/-- Notices that wait are written while slots are free (R405). -/
def writeNotices (n : Nat) : Nat → Dev → Dev
  | 0, d => d
  | fuel + 1, d =>
    match (adminAt n d).notices with
    | [] => d
    | e :: r =>
      if 0 < adminFree n d && adminOn n d then
        writeNotices n fuel (writeAdmin n e (updAdmin n (fun a => { a with notices := r }) d))
      else d

/-- A notice for an instance: only the latest SHARE_CHANGED waits, and none is written while the admin queue is disabled (R399, R405). -/
def postNotice (n : Nat) (e : Entry) (d : Dev) : Dev :=
  let d1 := if !adminOn n d then d else updAdmin n (fun a =>
    { a with notices := (if e.opcode = 2 then a.notices.filter (fun x => x.opcode != 2) else a.notices) ++ [e] }) d
  writeNotices n 2 d1

/-- Completes the admin command at the head (R223): the entry, C, and the next entry. -/
def completeAdmin (n status result : Nat) (d : Dev) : Dev :=
  let a := adminAt n d
  match a.head with
  | none => d
  | some h =>
    let op := if h.bad.isSome then 0xFF else (h.bytes.getD 0 0).toNat
    let e : Entry := {
      result := if status = 0 then result else 0, bytes := 0, queue := 0xFFFF, index := h.idx, status := status,
      opcode := op, kind := 1, gen := (instAt n d).gen, node := 0, detail := 0 }
    let d1 := if h.bad.isSome then d else adminPut n (adminAddr n false d + 64 * h.idx + 63) [0] d
    let d2 := updAdmin n (fun a => { a with head := none, c := (a.c + 1) % (adminSizes n d).1 }) d1
    writeNotices n 2 (tryAdmin n (writeAdmin n e d2))

/-- The command at the head is accepted and waits (R223): it is consumed, and its slot stays held. -/
def holdAdmin (n : Nat) (w : AdminWait) (d : Dev) : Dev :=
  let a := adminAt n d
  match a.head with
  | none => d
  | some h =>
    let d1 := adminPut n (adminAddr n false d + 64 * h.idx + 63) [0] d
    updAdmin n (fun a => { a with
      head := none, wait := some w, opWait := (h.bytes.getD 0 0).toNat, idxWait := h.idx,
                                  c := (a.c + 1) % (adminSizes n d).1 }) d1

/-- Completes the admin command that waited (R223); where its queue was detached meanwhile, its entry is written nowhere (R386). -/
def endAdminWait (n status result : Nat) (d : Dev) : Dev :=
  let a := adminAt n d
  match a.wait with
  | none => d
  | some _ =>
    let e : Entry := {
      result := if status = 0 then result else 0, bytes := 0, queue := 0xFFFF, index := a.idxWait, status := status,
      opcode := a.opWait, kind := 1, gen := (instAt n d).gen, node := 0, detail := 0 }
    let d1 := updAdmin n (fun a => { a with wait := none, mute := false }) d
    writeNotices n 2 (tryAdmin n (if a.mute then d1 else writeAdmin n e d1))

/-- The admin command at the head of an instance's queue that is to be executed now: its bytes, when it holds its slot
and its opcode is the one given (R223). -/
def adminHead (n op : Nat) (d : Dev) : Option (List Byte) :=
  let a := adminAt n d
  match a.head with
  | none => none
  | some h =>
    if h.bad.isNone && a.wait.isNone && instActive n d && adminOn n d && decide (0 < adminFree n d ∨ h.slot.isSome) &&
       decide ((h.bytes.getD 0 0).toNat = op) then some h.bytes
    else none

/-- Are the bytes of a list zero in a range? -/
def zeroIn (l : List Byte) (a b : Nat) : Bool := ((l.drop a).take (b + 1 - a)).all (fun x => x == 0)

/-- Are the bytes that R223 and R184 leave unused zero: bytes 1 to 7, those of 8 to 55 outside the ranges given, and 56
to 62, with bits 6:0 of byte 63? -/
def adminZeros (l : List Byte) (used : List (Nat × Nat)) : Bool :=
  zeroIn l 1 7 && zeroIn l 56 62 && decide ((l.getD 63 0).toNat % 128 = 0) &&
  (List.range 48).all (fun k => used.any (fun u => decide (u.1 ≤ k + 8 ∧ k + 8 ≤ u.2)) || l.getD (k + 8) 0 == 0)

end Sys2Proof.Machine
end

