-- ==== Sys2Proof/Machine/Faults.lean ====
section
/-! DEFINITION. Outstanding not-mapped faults (R180, R181, R183): joining one and leaving one. -/

namespace Sys2Proof.Machine

/-- The bit of ACCESS_KIND (R182). -/
def kindBit (k : Kind) : Nat :=
  match k with
  | .read => 1
  | .write => 2
  | .fetch => 4

/-- The outstanding fault on a granule of a context. -/
def faultOn (ctx va : Nat) (d : Dev) : Option Nat :=
  (d.xl.faults.find? (fun f => f.2.ctx == ctx && f.2.granule == va / 2 ^ 26)).map Prod.fst

/-- Adds a waiter to a fault; its engine is named while the record is not written (R180). Among faults of one moment the first is that
of the lowest die (R182). -/
def XFault.join (f : XFault) (va level : Nat) (kind : Kind) (eng : Eng) (w : Waiter) (now : Nat) : XFault :=
  let named := (engDie eng, engBit eng)
  let first := decide (now = f.since) && decide (engDie eng < f.die) && !f.written
  { f with
    die := if first then engDie eng else f.die,
    address := if first then va else f.address,
    level := if first then level else f.level,
    kinds := if f.written then f.kinds else Nat.lor f.kinds (kindBit kind),
    engines := if f.written || f.engines.contains named then f.engines else f.engines ++ [named],
    waiters := if f.waiters.any (fun x => decide (x.1 = w)) then f.waiters else f.waiters ++ [(w, va)] }

/-- A not-mapped fault (R180, R181): the device with the waiter in the fault, or, where the fault fails at once, the device with
a fault that fails by a limit of 0 counted (R193). -/
def raiseFault (ctx va level : Nat) (kind : Kind) (eng : Eng) (w : Waiter) (d : Dev) : Except Dev Dev :=
  match Tab.get d.xl.ctxs ctx with
  | none => .error d
  | some c =>
    if c.limit = 0 then .error (countF .xlateFaultStats 0 0 15 0 1 d)
    else if c.dying || !Tab.has d.xl.rings c.inst then .error d
    else
      match faultOn ctx va d with
      | some id => .ok { d with xl := { d.xl with faults := Tab.modify d.xl.faults id (fun f => f.join va level kind eng w (clock (engDie eng) d)) } }
      | none =>
        let f : XFault := {
          ctx := ctx, inst := c.inst, granule := va / 2 ^ 26, address := va, level := level,
          kinds := kindBit kind, since := clock (engDie eng) d, die := engDie eng, engines := [(engDie eng, engBit eng)],
          waiters := [(w, va)], written := false }
        .ok { d with xl := { d.xl with
          faults := Tab.set d.xl.faults (d.xl.nextId % 2 ^ 32) f, nextId := d.xl.nextId + 1 } }

/-- A waiter leaves its faults; a fault without an engine is dropped (R181, R183). -/
def leaveFaults (f : Waiter → Bool) (d : Dev) : Dev :=
  { d with xl := { d.xl with
      faults := Tab.keep (Tab.mapVals d.xl.faults (fun _ x => { x with waiters := x.waiters.filter (fun w => !f w.1) }))
        (fun _ x => !x.waiters.isEmpty) } }

/-- Does a waiter wait in a fault? -/
def inFault (w : Waiter) (d : Dev) : Bool := d.xl.faults.any (fun f => f.2.waiters.any (fun x => decide (x.1 = w)))

end Sys2Proof.Machine
end

