-- ==== Sys2Proof/Machine/Wire.lean ====
section
/-! DEFINITION. Pesyn packets as bytes (R260 to R266, R310, R316): the header, the frame around it, the checks that make a
packet malformed, and the entropy value. -/

namespace Sys2Proof.Machine

/-! ## Checksums -/

/-- One bit step of the CRC-16 of R310. -/
def crc16Step (c : Nat) : Nat → Nat
  | 0 => c
  | n + 1 => crc16Step (if c / 32768 % 2 = 1 then Nat.xor (c * 2 % 65536) 0x1021 else c * 2 % 65536) n

/-- CRC-16 with polynomial 0x1021 and initial value 0xFFFF, no reflection, no final XOR (R310). -/
def crc16 (l : List Byte) : Nat := l.foldl (fun c b => crc16Step (Nat.xor c (b.toNat * 256)) 8) 0xFFFF

/-- One bit step of a reflected CRC-32 with polynomial `p`. -/
def crc32Step (p c : Nat) : Nat → Nat
  | 0 => c
  | n + 1 => crc32Step p (if c % 2 = 1 then Nat.xor (c / 2) p else c / 2) n

/-- A reflected CRC-32 with polynomial `p`, initial value and final XOR all ones. -/
def crc32 (p : Nat) (l : List Byte) : Nat :=
  Nat.xor (l.foldl (fun c b => crc32Step p (Nat.xor c b.toNat) 8) 0xFFFFFFFF) 0xFFFFFFFF

/-- The frame check sequence of IEEE 802.3. -/
def fcs (l : List Byte) : List Byte := natLE 4 (crc32 0xEDB88320 l)

/-- The sum of 16-bit words with end-around carry. -/
def sum16 : List Byte → Nat
  | [] => 0
  | [b] => b.toNat * 256
  | a :: b :: r => (a.toNat * 256 + b.toNat + sum16 r) % 65535

/-- The Internet checksum of bytes that are not all zero; a UDP checksum of zero is sent as 0xFFFF. -/
def inetSum (l : List Byte) : Nat := if sum16 l % 65535 = 0 then 0 else 65535 - sum16 l % 65535

/-! ## Addresses and sizes -/

/-- Is the node identifier in force valid (R267)? -/
def nodeValid (n : Nat) : Bool := decide (n ≠ 0 ∧ n ≠ 0xFFFFFF)

/-- The packet size P in force (R263). -/
def pktSize (d : Dev) : Nat := if bitOf d.addr.ctrl 23 then 4096 else 8192

/-- PACKET_SHIFT in force (R264). -/
def pktShift (d : Dev) : Nat := if bitOf d.addr.ctrl 23 then 12 else 13

/-- A message tag: the initiator's node above its 40-bit sequence (R264). -/
def mkTag (node seq : Nat) : Nat := node % 2 ^ 24 * 2 ^ 40 + seq % 2 ^ 40

/-- The node that a tag names. -/
def tagNode (t : Nat) : Nat := t / 2 ^ 40

/-- The sequence that a tag carries. -/
def tagSeq (t : Nat) : Nat := t % 2 ^ 40

/-- The entropy value of a message (R260). -/
def e14 (tag : Nat) : Nat := crc16 (natBE 8 tag) % 2 ^ 14

/-- The address of a fabric die of a node (R261), 16 bytes for IPv6, 4 for IPv4. -/
def dieAddr (node die : Nat) (d : Dev) : List Byte :=
  if bitOf d.addr.ctrl 31 then natBE 4 (bitsOf d.addr.ctrl 30 24 * 2 ^ 25 + die % 2 * 2 ^ 24 + node % 2 ^ 24)
  else natBE 8 d.addr.pre6 ++ natBE 8 (node % 2 ^ 24 * 256 + die)

/-! ## Headers -/

/-- The first 29 bytes' common part and the rest of a Pesyn header, in network byte order (R264). -/
def Packet.header (p : Packet) : List Byte :=
  [1] ++ natBE 1 p.typ ++ natBE 1 p.flags ++ natBE 1 p.op ++ natBE 8 p.tag ++ natBE 4 p.ftag ++ natBE 4 p.key ++
  natBE 4 p.len ++ natBE 5 p.off ++ natBE 1 p.shift ++ [0, 0] ++ p.tf ++
  natBE 3 p.epoch ++ natBE 6 p.count ++ List.replicate 7 0

/-- Is the packet's ENC flag set? -/
def Packet.enc (p : Packet) : Bool := bitOf p.flags 0

/-- Does a packet carry data: DATA, RESPONSE or TYPE 0xA (R354)? -/
def isDataTyp (t : Nat) : Bool := decide (t = 1 ∨ t = 7 ∨ t = 10)

/-- Does a packet carry the marks of data: DATA or RESPONSE (R260)? -/
def dataMarked (t : Nat) : Bool := decide (t = 1 ∨ t = 7)

/-- Bytes 32 to 35 of a header. -/
def Packet.off32 (p : Packet) : Nat := fieldBE p.tf 0 4

/-- Bytes 36 and 37. -/
def Packet.len16 (p : Packet) : Nat := fieldBE p.tf 4 2

/-- Bytes 36 to 39. -/
def Packet.len32 (p : Packet) : Nat := fieldBE p.tf 4 4

/-- Bytes 38 to 47. -/
def Packet.coll (p : Packet) : List Byte := (p.tf.drop 6).take 10

/-- Bytes 40 to 43. -/
def Packet.imm (p : Packet) : Nat := fieldBE p.tf 8 4

/-- Byte 32 of a NACK. -/
def Packet.reason (p : Packet) : Nat := (p.tf.getD 0 0).toNat

/-- SENDER_RANK (R316). -/
def Packet.rank (p : Packet) : Nat := fieldBE p.tf 6 2 % 4096

/-- EPOCH (R316). -/
def Packet.epoch16 (p : Packet) : Nat := fieldBE p.tf 6 2 / 4096

/-- SIGNATURE (R316). -/
def Packet.sig (p : Packet) : Nat := fieldBE p.tf 8 2

/-- GENERATION (R316). -/
def Packet.gen (p : Packet) : Nat := fieldBE p.tf 10 2

/-- COLL_SEQ (R316). -/
def Packet.cseq (p : Packet) : Nat := fieldBE p.tf 12 4

/-- Type bytes of a DATA-like packet: offset, payload length, then bytes 38 to 47. -/
def tfData (off len : Nat) (rest : List Byte) : List Byte := natBE 4 off ++ natBE 2 len ++ rest

/-- Type bytes of a GRANT or RESEND: offset and length of 32 bits. -/
def tfRange (off len : Nat) : List Byte := natBE 4 off ++ natBE 4 len ++ List.replicate 8 0

/-- Bytes 38 to 47 that carry an IMMEDIATE. -/
def immBytes (imm : Nat) : List Byte := [0, 0] ++ natBE 4 imm ++ [0, 0, 0, 0]

/-- Ten zero bytes. -/
def zero10 : List Byte := List.replicate 10 0

/-! ## Frames on the wire (R260) -/

/-- The length of a frame from the destination address through the FCS, at least 64 bytes (R260, R343). -/
def frameLen (p : Packet) (d : Dev) : Nat :=
  max 64 (14 + (if bitOf (getW .pesynMark 0 0 d) 31 then 4 else 0) + (if bitOf d.addr.ctrl 31 then 20 else 40) + 8 + 64 +
    p.payload.length + (if p.enc then 16 else 0) + 4)

/-- The 48-bit address in a register pair. -/
def macOf (lo hi : Nat) : List Byte := natBE 6 (hi % 65536 * 2 ^ 32 + lo % 2 ^ 32)

/-- The bytes of a frame that port `p` of fabric die `p / 16` sends (R260): Ethernet header, tag, IP, UDP, Pesyn header
and body, FCS. -/
def frameBytes (p : Nat) (k : Packet) (body : List Byte) (d : Dev) : List Byte :=
  let mark := getW .pesynMark 0 0 d
  let data := dataMarked k.typ
  let dscp := if data then bitsOf mark 5 0 else bitsOf mark 11 6
  let pcp := if data then bitsOf mark 27 25 else bitsOf mark 30 28
  let e := e14 k.tag
  let pes := k.header ++ body
  let src := dieAddr d.addr.node k.die d
  let dst := dieAddr k.dstNode k.die d
  let ulen := 8 + pes.length
  let pseudo := if bitOf d.addr.ctrl 31 then src ++ dst ++ [0, 17] ++ natBE 2 ulen
    else src ++ dst ++ natBE 4 ulen ++ [0, 0, 0, 17]
  let udp0 := natBE 2 (0xC000 + e) ++ natBE 2 (bitsOf d.addr.ctrl 15 0) ++ natBE 2 ulen
  let udp := udp0 ++ natBE 2 (let s := inetSum (pseudo ++ udp0 ++ [0, 0] ++ pes); if s = 0 then 65535 else s) ++ pes
  let ip := if bitOf d.addr.ctrl 31 then
      let a := [0x45] ++ natBE 1 (dscp * 4 + 2) ++ natBE 2 (20 + ulen) ++ [0, 0, 0x40, 0, 64, 17]
      a ++ natBE 2 (inetSum (a ++ [0, 0] ++ src ++ dst)) ++ src ++ dst
    else natBE 4 (6 * 2 ^ 28 + (dscp * 4 + 2) * 2 ^ 20 + e) ++ natBE 2 ulen ++ [17, 64] ++ src ++ dst
  let et : List Byte := if bitOf d.addr.ctrl 31 then [0x08, 0x00] else [0x86, 0xDD]
  let tag : List Byte := if bitOf mark 31 then [0x81, 0x00] ++ natBE 2 (pcp * 8192 + bitsOf mark 23 12) else []
  let eth := macOf (getW .gatewayMacLo p 0 d) (getW .gatewayMacHi p 0 d) ++
    macOf (getW .ucastLo p 0 d) (getW .ucastHi p 0 d) ++ tag ++ et
  let f := eth ++ ip ++ udp
  let f := f ++ List.replicate (60 - f.length) 0
  f ++ fcs f

/-! ## Malformed packets (R266) -/

/-- Are the type bytes that R265 and R316 do not name zero? -/
def tfZeros (typ op : Nat) (tf : List Byte) : Bool :=
  let z := fun a b => zeroRange tf a b
  match typ with
  | 1 => z 6 7 && (if op = 0x11 then z 12 15 else z 8 15)
  | 2 => if op = 0x12 then z 4 15 else if 0x20 ≤ op then z 0 5 else z 0 7 && (if op = 0x11 then z 12 15 else z 8 15)
  | 3 => z 8 15
  | 4 => z 4 15
  | 5 => z 1 15
  | 6 => z 8 15
  | 7 => z 6 15
  | 8 => z 0 15
  | _ => true
where
  /-- Bytes `a` to `b` are zero. -/
  zeroRange (l : List Byte) (a b : Nat) : Bool := ((l.drop a).take (b + 1 - a)).all (fun x => x == 0)

/-- The payload of a TYPE 0xB packet of an opcode breaks R317: PAIR_COUNT too is zero outside ALL_TO_ALL_V. -/
def ctrlBad (op : Nat) (l : List Byte) : Bool :=
  let kind := (l.getD 0 0).toNat
  let z := fun a b => tfZeros.zeroRange l a b
  !(decide (1 ≤ kind ∧ kind ≤ 3)) ||
  (if kind = 1 then !z 1 3
   else if kind = 2 then !(z 1 3 && z 8 15)
   else !(z 8 15 && (op == 0x24 || z 4 7)))

/-- Is a received packet malformed (R266)? With ENC set, its payload stands in clear, and `auth` says that its tag passed. -/
def malformed (x : RxPkt) (auth : Bool) : Bool :=
  let h := x.hdr
  let b := fun k => (h.getD k 0).toNat
  let typ := b 1
  let len := fieldBE h 20 4
  let off := fieldBE h 24 5
  let shift := b 29
  let tf := (h.drop 32).take 16
  let poff := fieldBE tf 0 4
  let plen := fieldBE tf 4 2
  let enc := bitOf (b 2) 0
  decide (h.length ≠ 64) || decide (b 0 ≠ 1) || decide (typ = 0 ∨ typ = 9 ∨ 12 ≤ typ) || decide (8 ≤ b 2) ||
  !tfZeros.zeroRange h 30 31 || !tfZeros.zeroRange h 57 63 || (!enc && !tfZeros.zeroRange h 48 56) ||
  !tfZeros typ (b 3) tf || decide (shift ≠ 12 ∧ shift ≠ 13) || decide (len = 0 ∨ 67108864 < len) ||
  decide (2 ^ 40 < off + len) ||
  (if typ = 1 || typ = 7 || typ = 10 || typ = 11 then
     decide (poff % 2 ^ shift ≠ 0) || decide (len ≤ poff) || decide (plen ≠ min (2 ^ shift) (len - poff)) ||
     decide (x.payload.length ≠ plen)
   else decide (x.payload.length ≠ 0)) ||
  (typ == 5 && !(b 32 == 2 || b 32 == 3 || b 32 == 7 || b 32 == 0xD || b 32 == 0xF)) ||
  (typ == 11 && auth && (decide (len ≠ 16) || decide (off ≠ 0) || ctrlBad (b 3) x.payload))

/-- The packet that a received frame carries. -/
def parse (x : RxPkt) : Packet :=
  let h := x.hdr
  { typ := (h.getD 1 0).toNat, flags := (h.getD 2 0).toNat, op := (h.getD 3 0).toNat, tag := fieldBE h 4 8,
    ftag := fieldBE h 12 4, key := fieldBE h 16 4, len := fieldBE h 20 4, off := fieldBE h 24 5,
    shift := (h.getD 29 0).toNat, tf := (h.drop 32).take 16, epoch := fieldBE h 48 3, count := fieldBE h 51 6,
    dstNode := 0, die := x.die, payload := x.payload, ekey := none, dead := none }

end Sys2Proof.Machine
end

