-- ==== Sys2Proof/Machine/Egress.lean ====
section
/-! DEFINITION. Ports as data, the control lane, the scheduling tree and the shapers (chapter 12). Token counts are in
1/32 of a byte, so that 10 Mb/s is 5 units a tick. -/

namespace Sys2Proof.Machine

/-! ## Ports -/

/-- An engine's record. -/
def engAt (e : Nat) (d : Dev) : Engine := listGet d.net.engines e Engine.reset

/-- Changes an engine. -/
def updEng (e : Nat) (f : Engine → Engine) (d : Dev) : Dev :=
  { d with net := { d.net with engines := d.net.engines.set e (f (engAt e d)) } }

/-- Does a port number decode a port in its engine's mode (R334)? -/
def portExists (p : Nat) (d : Dev) : Bool :=
  decide (p < 32) && (if (engAt (p / 4) d).mode = 0 then decide (p % 4 < 2) else true)

/-- The lane positions that a port uses (R334). -/
def portLanes (p : Nat) (d : Dev) : List Nat :=
  if (engAt (p / 4) d).mode = 0 then (List.range 8).map (fun k => 8 * (p % 4) + k)
  else (List.range 4).map (fun k => 4 * (p % 4) + k)

/-- A port's rate in units of 10 Mb/s (R334). -/
def portRate (p : Nat) (d : Dev) : Nat := if (engAt (p / 4) d).mode = 0 then 160000 else 80000

/-- A port with its link down and nothing waiting. -/
def Port.idle : Port :=
  { align := false, local_ := false, remote := false, downAt := none, control := [], data := [], wire := none,
    pauses := [], bufs := [], hw := [], ext := [], inexact := [], starts := [], vtime := [], held := [] }

/-- A port's record. -/
def portAt (p : Nat) (d : Dev) : Port := Tab.getD d.net.ports p Port.idle

/-- Changes a port. -/
def updPort (p : Nat) (f : Port → Port) (d : Dev) : Dev :=
  { d with net := { d.net with ports := Tab.set d.net.ports p (f (portAt p d)) } }

/-- Is a port's link up (R336)? -/
def linkUp (p : Nat) (d : Dev) : Bool := (portAt p d).align && !(portAt p d).local_ && !(portAt p d).remote

/-- PORT_CTRL.ENABLE. -/
def portEnabled (p : Nat) (d : Dev) : Bool := bitOf (getW .portCtrl p 0 d) 31

/-- May die `i` take port `p` for a message (R355)? -/
def qualifies (i p : Nat) (d : Dev) : Bool :=
  portExists p d && bitOf (getW .egressCtrl i 0 d) (p % 16) && portEnabled p d && linkUp p d

/-- The ports that qualify for a die, in increasing number (R355). -/
def qualifying (i : Nat) (d : Dev) : List Nat :=
  ((List.range 16).map (fun k => 16 * i + k)).filter (fun p => qualifies i p d)

/-- The port that a tag selects among the ports qualifying now (R355). -/
def portFor (i tag : Nat) (d : Dev) : Option Nat :=
  let l := qualifying i d
  if l.length = 0 then none else l[e14 tag % l.length]?

/-- A hardware counter of a port: 6 bits, saturating (R351). -/
def countPort (p idx k : Nat) (d : Dev) : Dev :=
  updPort p (fun r => { r with hw := Tab.set r.hw idx (min 63 (Tab.getD r.hw idx 0 + k)) }) d

/-! ## Shapers (R362, R363) -/

/-- Number of the shaper of a leaf or node on its die: a leaf's own number, 4,096 + x for node x. -/
def nodeKey (x : Nat) : Nat := 4096 + x

/-- BURST in token units. -/
def burstUnits (kib : Nat) : Int := (kib * 1024 * 32 : Nat)

/-- Is a shaper enabled? -/
def shaperOn (i s : Nat) (d : Dev) : Bool := bitOf (getW .shaperRate i s d) 31

/-- Token count of a shaper now (R362). -/
def tokens (i s : Nat) (d : Dev) : Int :=
  let full := burstUnits (getF .shaperBurst i s 15 0 d)
  if shaperOn i s d then
    match Tab.get d.net.shapers (4608 * i + s) with
    | some b => min full (b.level + (5 * max 1 (getF .shaperRate i s 19 0 d) * (clock (fdie i) d - b.since) : Nat))
    | none => full
  else full

/-- Does a shaper hold nothing back: disabled, or with positive tokens (R359)? -/
def shaperOpen (i s : Nat) (d : Dev) : Bool := !shaperOn i s d || decide (0 < tokens i s d)

/-- Sets a shaper's tokens as of now. -/
def setTokens (i s : Nat) (t : Int) (d : Dev) : Dev :=
  { d with net := { d.net with shapers := Tab.set d.net.shapers (4608 * i + s) ⟨t, clock (fdie i) d⟩ } }

/-- A frame of `b` bytes passes an enabled shaper (R362): never below −9,471 bytes. -/
def chargeShaper (i b : Nat) (s : Nat) (d : Dev) : Dev :=
  if shaperOn i s d then
    setTokens i s (max (-(9471 * 32 : Nat) : Int) (tokens i s d - ((b + getF .shaperBurst i s 31 24 d) * 32 : Nat))) d
  else d

/-- Rate of a port's control lane (R370). -/
def ctrlRate (p : Nat) (d : Dev) : Nat := min (portRate p d) (max 1 (getF .ctrlShaper p 0 19 0 d))

/-- Token count of a port's control shaper now (R356). -/
def ctrlTokens (p : Nat) (d : Dev) : Int :=
  let full := burstUnits 64
  match Tab.get d.net.ctrlTok p with
  | some b => min full (b.level + (5 * ctrlRate p d * (clock (fdie (p / 16)) d - b.since) : Nat))
  | none => full

/-- A control frame of `b` bytes passes the control shaper. -/
def chargeCtrl (p b : Nat) (d : Dev) : Dev :=
  { d with net := { d.net with
    ctrlTok := Tab.set d.net.ctrlTok p
      ⟨max (-(9471 * 32 : Nat) : Int) (ctrlTokens p d - ((b + 20) * 32 : Nat)), clock (fdie (p / 16)) d⟩ } }

/-! ## The tree (R357 to R361) -/

/-- Parent node of a leaf. -/
def leafParent (l : Nat) (d : Dev) : Nat := ((Tab.get d.upd.shape.leaves l).map Prod.snd).getD 0

/-- The nodes from `x` up to but without the root, at most three (R357). -/
def nodePath (d : Dev) : Nat → Nat → List Nat
  | 0, _ => []
  | n + 1, x => if x = 0 then [] else nodeKey x :: nodePath d n (Tab.getD d.upd.shape.nodes x 0)

/-- The children on the way from a leaf to the root: the leaf first. -/
def pathOf (l : Nat) (d : Dev) : List Nat := l :: nodePath d 3 (leafParent l d)

/-- The node that a child hangs under. -/
def parentOf (c : Nat) (d : Dev) : Nat :=
  if c < 4096 then leafParent c d else Tab.getD d.upd.shape.nodes (c - 4096) 0

/-- Is a leaf below an instance's node (R364)? -/
def leafBelow (l node : Nat) (d : Dev) : Bool :=
  Tab.has d.upd.shape.leaves l && (node == 0 || (pathOf l d).contains (nodeKey node))

/-- Weight of a child (R358). -/
def weightOf (c : Nat) (d : Dev) : Nat :=
  max 1 (if c < 4096 then getF .schedLeaf c 0 15 0 d else getF .schedNode (c - 4096) 0 15 0 d)

/-- The children whose subtree holds a frame for the port. -/
def backlogged (r : Port) (d : Dev) : List Nat := (r.data.flatMap (fun f => pathOf (f.leaf.getD 0) d)).eraseDups

/-- A frame enters a leaf of a port (R354, R358): each child that becomes backlogged wakes at its node's virtual time. -/
def enterLeaf (p : Nat) (f : Frame) (d : Dev) : Dev :=
  let r := portAt p d
  let old := backlogged r d
  let woken := (pathOf (f.leaf.getD 0) d).filter (fun c => !old.contains c)
  updPort p (fun r => { r with
    data := r.data ++ [f],
    held := r.held.filter (fun c => !woken.contains c),
    starts := woken.foldl (fun t c => Tab.set t c (Tab.getD r.vtime (parentOf c d) 0)) r.starts }) d

/-- Is tag `a` before tag `b`, as signed differences modulo 2^64 (R358)? -/
def tagBefore (a b : Nat) : Bool := decide (2 ^ 63 ≤ (a + 2 ^ 64 - b % 2 ^ 64) % 2 ^ 64)

/-- The start tag of a child. -/
def startOf (r : Port) (c : Nat) : Nat := Tab.getD r.starts c 0

/-- Is a child eligible (R359)? A node needs an eligible child. -/
def eligible (i : Nat) (back : List Nat) (d : Dev) : Nat → Nat → Bool
  | 0, _ => false
  | n + 1, c =>
    back.contains c && shaperOpen i c d &&
    (decide (c < 4096) || (back.filter (fun k => nodeKey (parentOf k d) == c)).any (eligible i back d n))

/-- Brings the held children of a port up to date (R358): one that its shaper held and that is eligible again starts at the later
of its start tag and its node's virtual time; one whose shaper is closed is held from now on. -/
def settleHeld (p : Nat) (d : Dev) : Dev :=
  let i := p / 16
  let back := backlogged (portAt p d) d
  let still := (portAt p d).held.filter (fun c => back.contains c)
  let again := still.filter (fun c => eligible i back d 4 c)
  let closed := back.filter (fun c => !shaperOpen i c d && !still.contains c)
  updPort p (fun r => { r with
    starts := again.foldl (fun t c =>
      let v := Tab.getD r.vtime (parentOf c d) 0
      if tagBefore (startOf r c) v then Tab.set t c v else t) r.starts,
    held := still.filter (fun c => !again.contains c) ++ closed }) d

/-- The same on every port of a die, whose copies of the tree share their shapers (R357). -/
def settleDie (i : Nat) (d : Dev) : Dev :=
  each ((d.net.ports.map Prod.fst).filter (fun p => p / 16 == i)) settleHeld d

/-- Chooses a child of a node (R359): the smallest start tag, then leaves before nodes, then the lower number. -/
def chooseChild (i : Nat) (r : Port) (back : List Nat) (d : Dev) (x : Nat) : Option Nat :=
  ((back.filter (fun c => parentOf c d == x && eligible i back d 4 c)).foldl (fun best c =>
    match best with
    | none => some c
    | some b =>
      let sc := startOf r c
      let sb := startOf r b
      if tagBefore sc sb || (sc == sb && decide (c < b)) then some c else some b) none)

/-- The children chosen from a node down to a leaf, the leaf last. -/
def choosePath (i : Nat) (r : Port) (back : List Nat) (d : Dev) : Nat → Nat → List Nat
  | 0, _ => []
  | n + 1, x =>
    match chooseChild i r back d x with
    | none => []
    | some c => if c < 4096 then [c] else c :: choosePath i r back d n (c - 4096)

/-- The start tags and virtual times after a child of each level sent a frame of charge `b` (R358). -/
def advanceTags (r : Port) (after_ : List Nat) (b : Nat) (d : Dev) : List Nat → Tab Nat × Tab Nat → Tab Nat × Tab Nat
  | [], t => t
  | c :: rest, (starts, vt) =>
    let s := startOf r c
    let f := (s + ceilDiv (b * 65536) (weightOf c d)) % 2 ^ 64
    advanceTags r after_ b d rest
      (if after_.contains c then Tab.set starts c f else Tab.erase starts c, Tab.set vt (parentOf c d) s)

/-- The first frame of a list that a test admits, and the list without it. -/
def takeFirst (f : Frame → Bool) : List Frame → Option (Frame × List Frame)
  | [] => none
  | x :: r => if f x then some (x, r) else (takeFirst f r).map (fun p => (p.1, x :: p.2))

/-- Selects a data frame for a port (R359), where there is one. -/
def selectData (p : Nat) (d0 : Dev) : Dev :=
  let d := settleHeld p d0
  let i := p / 16
  let r := portAt p d
  let back := backlogged r d
  if shaperOpen i (nodeKey 0) d then
    let path := choosePath i r back d 4 0
    match path.getLast? with
    | none => d
    | some leaf =>
      (match takeFirst (fun f => f.leaf == some leaf) r.data with
       | none => d
       | some (f, rest) =>
         let left := backlogged { r with data := rest } d
         let t := advanceTags r left (f.bytes + 20) d path (r.starts, r.vtime)
         let d1 := updPort p (fun r => { r with data := rest, wire := some f, starts := t.1, vtime := t.2 }) d
         settleDie i (each (nodeKey 0 :: path) (chargeShaper i f.bytes) d1))
  else d0

/-! ## Entering a port (R354, R355) -/

/-- A frame enters a port it was given, whole (R343): the control lane, or its leaf. Its bytes are fixed there, with the addresses and
marks then in force: DESIGN CHOICE (log entry 130). -/
def enterPort (p : Nat) (f0 : Frame) (d : Dev) : Dev :=
  let l := frameBytes p f0.pkt f0.body d
  let f := { f0 with octets := l, bytes := l.length }
  match f.leaf with
  | none => updPort p (fun r => { r with control := r.control ++ [f] }) d
  | some _ => enterLeaf p f d

/-- Key of the port that a message took on a die. -/
def portKey (i tag : Nat) : Nat := i * 2 ^ 64 + tag

/-- The port for a packet of a message (R355): the one it took while that qualifies, else one by the tag. A port that only its admission
used is taken again where other ports qualify since (R497). -/
def takePort (i tag : Nat) (d : Dev) : Option Nat :=
  match Tab.get d.net.portOf (portKey i tag) with
  | some p =>
    if qualifies i p d && ((Tab.get d.net.pins (portKey i tag)).map (fun l => decide (l = qualifying i d))).getD true then some p
    else portFor i tag d
  | none => portFor i tag d

/-- A frame in the caldera of die `i` enters the egress; with no port that qualifies it waits there (R355). -/
def placeFrame (i : Nat) (f : Frame) (d : Dev) : Dev :=
  match takePort i f.pkt.tag d with
  | some p => enterPort p f { d with net := { d.net with
      portOf := Tab.set d.net.portOf (portKey i f.pkt.tag) p, pins := Tab.erase d.net.pins (portKey i f.pkt.tag) } }
  | none => { d with net := { d.net with unsent := d.net.unsent ++ [(i, f)] } }

/-- Frames that found no port are placed once one qualifies (R355). -/
def placeUnsent (d : Dev) : Dev :=
  each d.net.unsent (fun x d => placeFrame x.1 x.2 d) { d with net := { d.net with unsent := [] } }

/-- The SIZE in force of a receive buffer, in units of 16 KiB (R349). -/
def bufSize (p k : Nat) (d : Dev) : Nat :=
  match Tab.get (portAt p d).bufs k with
  | some b => b.size
  | none => getF .prioBuf p k 23 16 d

/-- The bytes of a list of frames. -/
def frameSum (l : List Frame) : Nat := (l.map Frame.bytes).sum

/-- The bytes of the frames that wait in a die's caldera to be sent, or are being sent (R23, R26). -/
def calderaUse (i : Nat) (d : Dev) : Nat :=
  (((List.range 16).map (fun k => 16 * i + k)).map (fun p =>
    let r := portAt p d
    frameSum r.control + frameSum r.data + frameSum r.wire.toList)).sum +
  frameSum ((d.net.unsent.filter (fun x => x.1 == i)).map Prod.snd)

/-- The bytes that the receive buffers of a die's ports hold in its caldera. -/
def bufferUse (i : Nat) (d : Dev) : Nat :=
  (((List.range 16).map (fun k => 16 * i + k)).map (fun p =>
    ((portAt p d).bufs.map (fun b => (b.2.frames.map Prod.fst).sum)).sum)).sum

/-- Half of a caldera of 128 MiB (R23, R26): the most that receive buffers take (R349), and what is left for the frames to be sent. -/
def calderaHalf : Nat := 2 ^ 26

/-- A frame that die `i` formed. It is in the caldera before it can leave (R23, R26), in the half that the receive buffers leave; what
does not fit is gathered once there is room, in the order formed: DESIGN CHOICE (log entry 130). -/
def sendFrame (i : Nat) (f : Frame) (d : Dev) : Dev :=
  if d.net.outside.any (fun x => x.1 == i) || decide (calderaHalf < calderaUse i d + f.bytes) then
    { d with net := { d.net with outside := d.net.outside ++ [(i, f)] } }
  else placeFrame i f d

/-- Room in a caldera was freed: the frames that wait for it are gathered in their order. -/
def gather (d : Dev) : Dev :=
  if d.net.outside.isEmpty then d
  else each d.net.outside (fun x d => sendFrame x.1 x.2 d) { d with net := { d.net with outside := [] } }

/-- A message is over: the port it took is forgotten. -/
def dropPort (i tag : Nat) (d : Dev) : Dev :=
  { d with net := { d.net with portOf := Tab.erase d.net.portOf (portKey i tag), pins := Tab.erase d.net.pins (portKey i tag) } }

/-- Frames that a test names leave the caldera unsent, charged nothing (R361). -/
def withdraw (f : Frame → Bool) (d : Dev) : Dev :=
  gather { d with net := { d.net with
      unsent := d.net.unsent.filter (fun x => !f x.2), outside := d.net.outside.filter (fun x => !f x.2),
      ports := Tab.mapVals d.net.ports (fun _ r =>
        { r with control := r.control.filter (fun x => !f x), data := r.data.filter (fun x => !f x) }) } }

/-! ## Frame boundaries (R347, R356, R359) -/

/-- Is a priority of a port paused by the far end now (R347, R348)? Key 8 is the whole port in mode 2. -/
def pausedKey (p k : Nat) (d : Dev) : Bool :=
  match Tab.get (portAt p d).pauses k with
  | some x => !x.ignored && (match x.until_ with
    | some t => decide (clock (fdie (p / 16)) d < t)
    | none => false)
  | none => false

/-- FLOW_CTRL.MODE of a port (R346). -/
def flowMode (p : Nat) (d : Dev) : Nat := let m := getF .flowCtrl p 0 31 30 d; if m = 3 then 0 else m

/-- Is a priority stopped on a port (R346, R347)? -/
def prioPaused (p k : Nat) (d : Dev) : Bool :=
  if flowMode p d = 1 then bitOf (getF .flowCtrl p 0 23 16 d) k && pausedKey p k d
  else if flowMode p d = 2 then pausedKey p 8 d
  else false

/-- Is a port in loopback (R350)? It carries no traffic on the fibre. -/
def looped (p : Nat) (d : Dev) : Bool := bitOf (getW .portCtrl p 0 d) 29

/-- The bytes of a frame as sent: the preamble and the start delimiter before it (R343). -/
def Frame.sent (f : Frame) : List Byte := List.replicate 7 0x55 ++ [0xD5] ++ f.octets

/-- The frame on the wire has ended, and goes out, or back into its own port in loopback (R350). -/
def endFrame (p : Nat) (d : Dev) : Dev :=
  match (portAt p d).wire with
  | some f =>
    gather (emit (if looped p d then .looped p f f.sent else .frame p f f.sent) (updPort p (fun r => { r with wire := none }) d))
  | none => d

/-- Is a frame of a message whose send window is over (R282)? -/
def Frame.late (f : Frame) (d : Dev) : Bool :=
  match f.pkt.dead with
  | some t => decide (t < clock (fdie f.pkt.die) d)
  | none => false

/-- Frames of a port whose send windows are over leave unsent (R282, R361). -/
def dropLate (p : Nat) (d : Dev) : Dev :=
  when_ (((portAt p d).control ++ (portAt p d).data).any (fun f => f.late d)) (withdraw (fun f => f.late d)) d

/-- A port's frame boundary (R356, R359). -/
def portFrameBoundary (p : Nat) (d0 : Dev) : Dev :=
  let d := dropLate p (endFrame p d0)
  let r := portAt p d
  if !(portExists p d && linkUp p d && portEnabled p d) then d
  else
    match r.control with
    | f :: rest =>
      if 0 < ctrlTokens p d && !prioPaused p (getF .pesynMark 0 0 30 28 d) d then
        chargeCtrl p f.bytes (updPort p (fun r => { r with control := rest, wire := some f }) d)
      else if prioPaused p (getF .pesynMark 0 0 27 25 d) d then d
      else selectData p d
    | [] => if prioPaused p (getF .pesynMark 0 0 27 25 d) d then d else selectData p d

/-- A shaper's tokens rise to a positive count (R358, R362): the children that are eligible again on the ports of the die start at
the later of their start tag and the virtual time of their node. -/
def shaperPositive (i s : Nat) (d : Dev) : Dev := if i < 2 && s < 4608 && shaperOpen i s d then settleDie i d else d

/-- SHAPER_TOKENS_POSITIVE. -/
def execShaperTokensPositive (die sh : Nat) (s : State) : Host.Outcome State Fault Refusal :=
  .next { s with dev := shaperPositive die sh s.dev }

/-! ## Writes of the shapers (R363) -/

/-- The register of a shaper's block by word: 0 RATE, 1 BURST. -/
def shaperReg (word : Nat) : RegName := if word = 0 then .shaperRate else .shaperBurst

/-- A written word taken as its field map says. -/
def taken (n : RegName) (old data : Nat) : Nat := ((rowOf n).map (fun r => r.write old data)).getD old

/-- A write of a shaper register (R363): a change sets T full or empty, by the new TOKEN_ON_CHANGE. -/
def shaperWrite (i s word data : Nat) (d : Dev) : Dev :=
  let n := shaperReg word
  let old := getW n i s d
  let new := taken n old data
  if new = old then d
  else
    let d1 := setW n i s new (settleDie i d)
    settleDie i (setTokens i s (if bitOf (getW .shaperRate i s d1) 30 then burstUnits (getF .shaperBurst i s 15 0 d1) else 0) d1)

end Sys2Proof.Machine
end

