-- ==== Sys2Proof/Machine/Tiers.lean ====
section
/-! DEFINITION. The memory tiers (chapter 05): basin windows, scrub, HBM repair and retirement, DDR5 service. -/

namespace Sys2Proof.Machine

/-! ## The repair record (R480) -/

/-- The repair state in force, as the record would say it. -/
def repairNow (d : Dev) : RepairRec :=
  let es := (List.range 8).map (fun e => (e, listGet d.net.engines e Engine.reset))
  let sts := (List.range 8).map (fun n => (n, stackAt n d))
  { d.start.repair with
    s0 := es.filterMap (fun p => p.2.s0.map (fun x => (p.1, x))),
    s1 := es.filterMap (fun p => p.2.s1.map (fun x => (p.1, x))),
    posDown := es.filterMap (fun p => if p.2.down.isEmpty then none else some (p.1, p.2.down)),
    badCells := es.filterMap (fun p =>
      let l := p.2.bad.filter (fun c => decide (16 ≤ c))
      if l.isEmpty then none else some (p.1, l)),
    rows := sts.filterMap (fun p => if p.2.rows = 0 then none else some (p.1, p.2.rows)),
    retired := sts.filterMap (fun p => if p.2.retired.isEmpty then none else some (p.1, p.2.retired)),
    lanesOut := d.colls.lanes.map Lanes.out,
    lanesSpare := d.colls.lanes.map Lanes.spares }

/-- A repair is programmed into the record in flash (R480). -/
def programRepair (s : State) : State := { s with flash := { s.flash with repair := repairNow s.dev } }

/-! ## The basin (R133 to R135) -/

/-- The range of units of an instance's window as its register says: SIZE and BASE. -/
def windowReg (n : Nat) (d : Dev) : Nat × Nat := (getF .basinWindow n 0 24 16 d, getF .basinWindow n 0 8 0 d)

/-- A window in force, SIZE and BASE. -/
def windowNow (n : Nat) (d : Dev) : Nat × Nat := Tab.getD d.tiers.windows n (0, 0)

/-- Do two ranges of units, size and base, overlap? -/
def unitsMeet (a b : Nat × Nat) : Bool := decide (0 < a.1 ∧ 0 < b.1 ∧ a.2 < b.2 + b.1 ∧ b.2 < a.2 + a.1)

/-- The range of the pool for a number of units: the top of the 285 (R133). -/
def poolRange (p : Nat) : Nat × Nat := (p, 285 - p)

/-- Would a window clash (R134): with another window, written or in force, with the pool, or with unit 285? -/
def windowClash (n : Nat) (w : Nat × Nat) (d : Dev) : Bool :=
  decide (0 < w.1 ∧ 285 < w.2 + w.1) || decide (285 < w.1) ||
  unitsMeet w (poolRange (getF .basinPool 0 0 6 0 d)) || unitsMeet w (poolRange d.tiers.poolUnits) ||
  (List.range 64).any (fun m => m != n && (unitsMeet w (windowReg m d) || unitsMeet w (windowNow m d)))

/-- Would a pool size clash with a window, written or in force (R134)? -/
def poolClash (p : Nat) (d : Dev) : Bool :=
  (List.range 64).any (fun m => unitsMeet (poolRange p) (windowReg m d) || unitsMeet (poolRange p) (windowNow m d))

/-- Zero-fills units of every basin (R134, R135). -/
def zeroUnits (size base : Nat) (d : Dev) : Dev :=
  let keep : Place → Bool := fun p => match p with
    | .basin _ off => !(decide (base * 2 ^ 18 ≤ off) && decide (off < (base + size) * 2 ^ 18))
    | _ => true
  let d1 := { d with tiers := { d.tiers with
    poison := d.tiers.poison.filter keep, logged := d.tiers.logged.filter keep, soft := d.tiers.soft.filter (fun s => keep s.1) } }
  each (List.range 8) (fun die d =>
    { d with tiers := { d.tiers with basin := Mem.zero d.tiers.basin (die * 2 ^ 27 + base * 2 ^ 18) (size * 2 ^ 18) } }) d1

/-- Written window or pool values take effect at the moment that R134 gives them. -/
def basinSettle (d : Dev) : Dev :=
  let busy := fun n => d.bricks.launches.any (fun l => l.2.inst == n)
  let d1 := each (List.range 64) (fun n d =>
    if windowReg n d ≠ windowNow n d && !busy n then
      let d2 := zeroUnits (windowReg n d).1 (windowReg n d).2 d
      { d2 with tiers := { d2.tiers with windows := Tab.set d2.tiers.windows n (windowReg n d) } }
    else d) d
  if d1.bricks.launches.isEmpty then { d1 with tiers := { d1.tiers with poolUnits := getF .basinPool 0 0 6 0 d1 } } else d1

/-- A write of BASIN_POOL (R134). -/
def basinPoolWrite (data : Nat) (d : Dev) : Dev :=
  let old := getW .basinPool 0 0 d
  let w := (rowOf .basinPool).map (fun r => r.write old data) |>.getD old
  if poolClash (bitsOf w 6 0) d then setW .basinPool 0 0 (withBits (withBits w 6 0 (bitsOf old 6 0)) 17 17 1) d
  else setW .basinPool 0 0 w d

/-- BASIN_POOL_WRITE. -/
def execBasinPoolWrite (data : Nat) (s : State) : Host.Outcome State Fault Refusal :=
  overLink true (.basinPoolWrite data) (fun s => .next { s with dev := managerWrite (addrOf .basinPool 0 0) (basinPoolWrite data) s.dev }) s

/-- A write of BASIN_WINDOW_n (R134). -/
def basinWindowWrite (n data : Nat) (d : Dev) : Dev :=
  let old := getW .basinWindow n 0 d
  let w := (rowOf .basinWindow).map (fun r => r.write old data) |>.getD old
  if windowClash n (bitsOf w 24 16, bitsOf w 8 0) d then
    setW .basinWindow n 0 (withBits (withBits (withBits w 8 0 (bitsOf old 8 0)) 24 16 (bitsOf old 24 16)) 31 31 1) d
  else setW .basinWindow n 0 w d

/-- BASIN_WINDOW_WRITE. -/
def execBasinWindowWrite (n data : Nat) (s : State) : Host.Outcome State Fault Refusal :=
  overLink true (.basinWindowWrite n data) (fun s => .next { s with dev := if n < 64 then managerWrite (addrOf .basinWindow n 0) (basinWindowWrite n data) s.dev else s.dev }) s

/-- BASIN_WINDOW_TAKES_EFFECT (R134): of one window, or of the pool. -/
def basinTakes (n : Option Nat) (d : Dev) : Dev :=
  match n with
  | some k =>
    if windowReg k d ≠ windowNow k d && !d.bricks.launches.any (fun l => l.2.inst == k) then
      let d2 := zeroUnits (windowReg k d).1 (windowReg k d).2 d
      { d2 with tiers := { d2.tiers with windows := Tab.set d2.tiers.windows k (windowReg k d) } }
    else d
  | none =>
    if d.bricks.launches.isEmpty then { d with tiers := { d.tiers with poolUnits := getF .basinPool 0 0 6 0 d } } else d

/-- BASIN_WINDOW_TAKES_EFFECT. -/
def execBasinWindowTakesEffect (n : Option Nat) (s : State) : Host.Outcome State Fault Refusal :=
  .next { s with dev := basinTakes n s.dev }

/-! ## Scrub and row repair (R145 to R152) -/

/-- May a candidate row be repaired now (R152, R154): at most one a pseudo-channel in 100 ms, and not while its
pseudo-channel is being retired? -/
def rowReady (n pc row : Nat) (d : Dev) : Bool :=
  let st := stackAt n d
  decide (n < 8) && st.candidates.contains (pc, row) && (Tab.get st.leaving (pc / 8)) != some pc &&
  (match Tab.get st.lastRepair pc with
   | some t => decide (t + msec 100 ≤ clock n d)
   | none => true)

/-- A row repair (R152). -/
def rowRepair (n pc row : Nat) (d : Dev) : Dev :=
  let d1 := updStack n (fun st => { st with
    rows := satAdd 65535 st.rows 1, candidates := st.candidates.filter (fun c => c != (pc, row)),
    lastRepair := Tab.set st.lastRepair pc (clock n d), rowHits := Tab.erase st.rowHits (pc * 2 ^ 32 + row) }) d
  logEv n 1 0x03 2 (memData n (pc / 8) pc 0) d1

/-- ROW_REPAIR. -/
def execRowRepair (stack pc row : Nat) (s : State) : Host.Outcome State Fault Refusal :=
  .next (if rowReady stack pc row s.dev then programRepair { s with dev := rowRepair stack pc row s.dev } else s)

/-! ## Pseudo-channel retirement (R153 to R156) -/

/-- May a pseudo-channel's retirement begin: it is in service, and its group is not emptying and not OUT? -/
def mayRetire (n pc : Nat) (d : Dev) : Bool :=
  let st := stackAt n d
  decide (n < 8 ∧ pc < 64) && !st.retired.contains pc &&
  (st.groups.getD (pc / 8) 0 == 0 || st.groups.getD (pc / 8) 0 == 3)

/-- Retirement begins (R154): the group enters RETIRING, and the mover moves its frames while any is in use. -/
def startRetire (n pc : Nat) (d : Dev) : Dev :=
  let g := pc / 8
  let d1 := updStack n (fun s => { s with
    groups := s.groups.set g 1, leaving := Tab.set s.leaving g pc,
    candidates := s.candidates.filter (fun c => c.1 != pc) }) d
  kickMover (logEv n 1 0x03 3 (memData n g pc 0) d1)

/-- Does the cause given hold (R153)? -/
def retireCauseOk (n pc : Nat) (c : RetireCause) (d : Dev) : Bool :=
  match c with
  | .noSpareRow => (stackAt n d).candidates.any (fun x => x.1 == pc)
  | .twoUncorrectable => decide (2 ≤ ((Tab.getD (stackAt n d).ueTimes pc []).filter (fun t => decide (clock n d < t + hbmPeriod))).length)
  | .interfaceCheck => true

/-- PSEUDO_CHANNEL_RETIREMENT. -/
def execPseudoChannelRetirement (stack pc : Nat) (cause : RetireCause) (s : State) : Host.Outcome State Fault Refusal :=
  .next { s with dev := if mayRetire stack pc s.dev && retireCauseOk stack pc cause s.dev then startRetire stack pc s.dev else s.dev }

/-- Is a group that empties empty (R154)? -/
def groupEmpty (n g : Nat) (d : Dev) : Bool :=
  !(usedFrames d).any (inGroup n g) &&
  (match d.xl.move with
   | some m => !((m.source d).map (inGroup n g)).getD false
   | none => true)

/-- An emptied group is rebuilt and becomes REDUCED, or is OUT below 4 pseudo-channels (R154, R156). -/
def groupRebuild (n g : Nat) (d : Dev) : Dev :=
  match Tab.get (stackAt n d).leaving g with
  | none => d
  | some pc =>
    let left := (pcsInService (stackAt n d) g).length - 1
    let d1 := updStack n (fun st => { st with
      retired := st.retired ++ [pc], leaving := Tab.erase st.leaving g,
      groups := st.groups.set g (if left < 4 then 4 else 3) }) d
    kickMover (logEv n (if left < 4 then 2 else 1) 0x03 4 (memData n g pc 0) d1)

/-- Is there a group to rebuild? -/
def rebuildReady (n g : Nat) (d : Dev) : Bool :=
  emptying n g d && (Tab.get (stackAt n d).leaving g).isSome && groupEmpty n g d

/-- GROUP_REBUILD. -/
def execGroupRebuild (stack group : Nat) (s : State) : Host.Outcome State Fault Refusal :=
  .next (if rebuildReady stack group s.dev then programRepair { s with dev := groupRebuild stack group s.dev } else s)

/-! ## MEM_SERVICE (R161) -/

/-- The outcome of a service command is reported. -/
def memResult (cmd unit result : Nat) (d : Dev) : Dev :=
  setW .memServiceStatus 0 0 (cmd % 16 * 4096 + unit % 8 * 256 + result) d

/-- HBM_RETIRE through MEM_SERVICE (R153, R161). -/
def hbmRetire (n pc : Nat) (d : Dev) : Dev :=
  if mayRetire n pc d then startRetire n pc (memResult 4 n 1 d) else memResult 4 n 4 d

/-- HBM_RETIRE. -/
def execHbmRetire (stack pc : Nat) (s : State) : Host.Outcome State Fault Refusal :=
  overLink true (.hbmRetire stack pc) (fun s => .next { s with dev := managerWrite (addrOf .memService 0 0) (hbmRetire (stack % 8) (pc % 64)) s.dev }) s

/-- The frames of a site that are in use, the destination of a move among them. -/
def siteFrames (site : Nat) (d : Dev) : List Nat := (usedFrames d).filter (inSite site)

/-- How many frames of a site are allocated (R161). -/
def siteHeld (site : Nat) (d : Dev) : Nat := Tab.count d.xl.lfns (fun _ l => inSite site l.pfn)

/-- DDR5_EVACUATE (R158): the mover moves the site's frames while any is in use. -/
def ddr5Evacuate (site : Nat) (d : Dev) : Dev :=
  if (siteAt site d).state = 4 then
    kickMover (updSite site (fun x => { x with state := 5 }) (memResult 1 site 1 d))
  else memResult 1 site 3 d

/-- DDR5_EVACUATE. -/
def execDdr5Evacuate (site : Nat) (s : State) : Host.Outcome State Fault Refusal :=
  overLink true (.ddr5Evacuate site) (fun s => .next { s with dev := managerWrite (addrOf .memService 0 0) (ddr5Evacuate (site % 8)) s.dev }) s

/-- DDR5_ONLINE (R159): the site is powered and trained. -/
def ddr5Online (site : Nat) (d : Dev) : Dev :=
  if (siteAt site d).state = 1 then updSite site (fun x => { x with state := 3 }) (memResult 2 site 1 d)
  else memResult 2 site 3 d

/-- DDR5_ONLINE. -/
def execDdr5Online (site : Nat) (s : State) : Host.Outcome State Fault Refusal :=
  overLink true (.ddr5Online site) (fun s => .next { s with dev := managerWrite (addrOf .memService 0 0) (ddr5Online (site % 8)) s.dev }) s

/-- DDR5_CANCEL (R158): frames already moved stay where they are. -/
def ddr5Cancel (site : Nat) (d : Dev) : Dev :=
  if (siteAt site d).state = 5 then
    kickMover (updSite site (fun x => { x with state := 4 }) (memResult 3 site 1 d))
  else memResult 3 site 3 d

/-- DDR5_CANCEL. -/
def execDdr5Cancel (site : Nat) (s : State) : Host.Outcome State Fault Refusal :=
  overLink true (.ddr5Cancel site) (fun s => .next { s with dev := managerWrite (addrOf .memService 0 0) (ddr5Cancel (site % 8)) s.dev }) s

/-- A write of MEM_SERVICE (R161). -/
def memService (w : Nat) (d : Dev) : Dev :=
  let u := bitsOf w 10 8
  match bitsOf w 31 28 with
  | 1 => ddr5Evacuate u d
  | 2 => ddr5Online u d
  | 3 => ddr5Cancel u d
  | 4 => hbmRetire u (bitsOf w 5 0) d
  | c => memResult c u 2 d

/-! ## DDR5 sites (R157 to R160) -/

/-- The data of a record about a site. -/
def siteData (site : Nat) : List Byte := memData site 0 0 0

/-- The last frame has left an EVACUATING site: it powers off and enters EVACUATED (R158). -/
def siteEvacuated (site : Nat) (d : Dev) : Dev :=
  if (siteAt site d).state = 5 && (siteFrames site d).isEmpty then
    logEv 13 0 0x03 5 (siteData site) (returnGrant (.ddr5 site) (updSite site (fun x => { x with state := 6 }) d))
  else d

/-- SITE_EVACUATED. -/
def execSiteEvacuated (site : Nat) (s : State) : Host.Outcome State Fault Refusal :=
  .next { s with dev := siteEvacuated site s.dev }

/-- Training and zero-fill of a site end (R159). A frame that was lost there and is still allocated stays lost (R160). -/
def siteTrainingEnd (site : Nat) (ok : Bool) (d : Dev) : Dev :=
  if (siteAt site d).state = 3 then
    if ok then
      let lo := (16384 + 4096 * site) * 2 ^ 26
      let inside : Place → Bool := fun p => match p with
        | .dev a => decide (lo ≤ a) && decide (a < lo + 4096 * 2 ^ 26)
        | _ => false
      let d1 := { d with tiers := { d.tiers with
        dev := Mem.zero d.tiers.dev lo (4096 * 2 ^ 26), poison := d.tiers.poison.filter (fun p => !inside p),
        logged := d.tiers.logged.filter (fun p => !inside p), soft := d.tiers.soft.filter (fun s => !inside s.1) } }
      kickMover (updSite site (fun x => { x with state := 4 }) d1)
    else logEv 13 2 0x03 6 (siteData site) (updSite site (fun x => { x with state := 7 }) d)
  else d

/-- SITE_TRAINING_END. -/
def execSiteTrainingEnd (site : Nat) (ok : Bool) (s : State) : Host.Outcome State Fault Refusal :=
  .next { s with dev := siteTrainingEnd site ok s.dev }

/-- A DDR5 module leaves its site (R160, R189). -/
def ddr5ModuleRemoved (site : Nat) (d : Dev) : Dev :=
  let st := (siteAt site d).state
  if st = 4 || st = 5 then
    let lost := (d.xl.lfns.map (fun p => p.2.pfn)).filter (inSite site)
    let meets := match d.xl.move with
      | some m => ((m.source d).map (inSite site)).getD false || inSite site m.dest
      | none => false
    let d1 := if meets then abandonMove true true d else d
    kickMover (returnGrant (.ddr5 site)
      (updSite site (fun x => { x with state := 7, present := false, lost := lost }) d1))
  else if st = 3 then
    logEv 13 2 0x03 6 (siteData site) (updSite site (fun x => { x with state := 7, present := false }) d)
  else updSite site (fun x => { x with state := 0, present := false, capGiB := 0 }) d

/-- The modules that wait for READY. -/
def setInserted (t : Tab (Nat × Bool)) (d : Dev) : Dev := { d with start := { d.start with inserted := t } }

/-- DDR5_MODULE_REMOVED. -/
def execDdr5ModuleRemoved (site : Nat) (s : State) : Host.Outcome State Fault Refusal :=
  .next { s with
    dev := if 8 ≤ site then s.dev
      else if (siteAt site s.dev).present then ddr5ModuleRemoved site s.dev
      else setInserted (Tab.erase s.dev.start.inserted site) s.dev }

/-- A DDR5 module is put into a site: in an EMPTY one its SPD is checked (R141, R160); in any other it is only sensed (R161). -/
def ddr5ModuleInserted (site cap : Nat) (supported : Bool) (d : Dev) : Dev :=
  if (siteAt site d).state = 0 then
    let ok := supported && decide (cap ≤ 256)
    let d1 := updSite site (fun x => { x with state := if ok then 1 else 2, present := true, capGiB := min cap 256 }) d
    when_ (!ok) (logEv 13 2 0x03 7 (siteData site)) d1
  else updSite site (fun x => { x with present := true }) d

/-- A module put in while the module runs is checked (R160); one put in after step 6 of start-up waits for READY, and one put in before
is what step 6 finds (R476, R489). -/
def moduleInserted (site cap : Nat) (supported : Bool) (d : Dev) : Dev :=
  if d.start.ready then ddr5ModuleInserted site cap supported d
  else if d.start.begun.isSome then setInserted (Tab.set d.start.inserted site (cap, supported)) d
  else d

/-- DDR5_MODULE_INSERTED. -/
def execDdr5ModuleInserted (site capGiB : Nat) (supported : Bool) (s : State) : Host.Outcome State Fault Refusal :=
  .next { s with dev := if site < 8 then moduleInserted site capGiB supported s.dev else s.dev }

end Sys2Proof.Machine
end

