-- ==== Sys2Proof/Machine/Optics.lean ====
section
/-! DEFINITION. Optical engines, spare lanes, laser units and port links (R334 to R342, R350, R353). -/

namespace Sys2Proof.Machine

/-! ## Links (R336) -/

/-- The data of a record in area 0x06: engine, position, cell, laser unit, port (R438). -/
def netData (e pos cell u p : Nat) : List Byte :=
  natLE 1 e ++ natLE 1 pos ++ natLE 1 cell ++ natLE 1 u ++ natLE 1 p

/-- Every frame that waits for a port is discarded and counted (R336). -/
def discardWaiting (p : Nat) (d : Dev) : Dev :=
  let r := portAt p d
  gather (countPort p 7 (r.control.length + r.data.length)
    (updPort p (fun r => { r with control := [], data := [], starts := [], held := [] }) d))

/-- Does the reconciliation sublayer of a port signal remote fault (R335, IEEE 802.3): while its own receive side has a fault? -/
def signalsFault (p : Nat) (d : Dev) : Bool := !(portAt p d).align || (portAt p d).local_

/-- The link fault signalling that a port sends follows its receive side (R335). -/
def faultSignal (p : Nat) (old : Dev) (d : Dev) : Dev :=
  if signalsFault p old == signalsFault p d then d else emit (.remoteFault p (signalsFault p d)) d

/-- A port's link goes down (R336): the frame on the wire is lost, and waiting frames wait on. -/
def linkFalls (p : Nat) (align loc rem : Bool) (d : Dev) : Dev :=
  let was := linkUp p d
  let d1 := faultSignal p d (when_ ((portAt p d).align && !align) (countPort p 9 1)
    (gather (updPort p (fun r => { r with align := align, local_ := loc, remote := rem, wire := none }) d)))
  if was then
    countPort p 10 1 (setBit .portStatus p 0 1 (updPort p (fun r => { r with downAt := some (clock (fdie (p / 16)) d) }) d1))
  else d1

/-- LINK_DOWN: PCS alignment is lost, or a fault is signalled. -/
def linkDown (p : Nat) (alignLost loc rem : Bool) (d : Dev) : Dev :=
  if portExists p d && (alignLost || loc || rem) then linkFalls p ((portAt p d).align && !alignLost) loc rem d else d

/-- LINK_DOWN. -/
def execLinkDown (p : Nat) (alignLost localFault remoteFault : Bool) (s : State) : Host.Outcome State Fault Refusal :=
  .next { s with dev := linkDown p alignLost localFault remoteFault s.dev }

/-! ## Light (R29, R340, R341) -/

/-- A laser unit's record. -/
def laserAt (u : Nat) (d : Dev) : Laser := listGet d.net.lasers u Laser.empty

/-- Changes a laser unit. -/
def updLaser (u : Nat) (f : Laser → Laser) (d : Dev) : Dev :=
  { d with net := { d.net with lasers := d.net.lasers.set u (f (laserAt u d)) } }

/-- The other unit of a group (R342). -/
def partner (u : Nat) : Nat := if u % 2 = 0 then u + 1 else u - 1

/-- Is a unit lit: SHARING, ALONE or DRAINING (R341)? -/
def lit (u : Nat) (d : Dev) : Bool := let s := (laserAt u d).state; decide (s = 3 ∨ s = 4 ∨ s = 5)

/-- Has an engine light: is a unit of its group lit (R29, R340)? -/
def engineLit (e : Nat) (d : Dev) : Bool := lit (2 * (e / 2)) d || lit (2 * (e / 2) + 1) d

/-- Has every position of a port a working cell (R338)? -/
def portWhole (p : Nat) (d : Dev) : Bool :=
  (portLanes p d).all (fun k => !(engAt (p / 4) d).down.contains k)

/-- LINK_UP (R336): the PCS holds alignment and no fault is signalled; waiting frames are sent. -/
def linkRises (p : Nat) (d : Dev) : Dev :=
  if portExists p d && engineLit (p / 4) d && portWhole p d then
    let was := linkUp p d
    let d1 := updPort p (fun r => { r with align := true, local_ := false, remote := false, downAt := none }) d
    placeUnsent (faultSignal p d (when_ (!was) (setBit .portStatus p 0 1) d1))
  else d

/-- LINK_HOLD_US passes with the link still down (R336). -/
def linkHoldExpiry (p : Nat) (d : Dev) : Dev :=
  match (portAt p d).downAt with
  | some t =>
    if !linkUp p d && decide (t + usec (getF .photCtrl 0 0 15 0 d) ≤ clock (fdie (p / 16)) d) then
      discardWaiting p (updPort p (fun r => { r with downAt := none }) d)
    else d
  | none => d

/-- LINK_HOLD_EXPIRY. -/
def execLinkHoldExpiry (p : Nat) (s : State) : Host.Outcome State Fault Refusal :=
  .next { s with dev := linkHoldExpiry p s.dev }

/-- A write of PORT_CTRL (R336, R350): ENABLE 0 discards what waits at once. -/
def portEnable (p data : Nat) (d : Dev) : Dev :=
  let d1 := setW .portCtrl p 0 (taken .portCtrl (getW .portCtrl p 0 d) data) d
  if portEnabled p d1 then placeUnsent d1 else discardWaiting p d1

/-- A pre-FEC symbol error ratio above 10^-4, or an uncorrectable codeword (R337, R351). -/
def highSer (p : Nat) (unc : Bool) (d : Dev) : Dev :=
  if portExists p d then
    logEv (8 + p / 16) 2 0x06 1 (netData (p / 4) 0 0 0 p) (setBit .portStatus p 0 2 (when_ unc (countPort p 8 1) d))
  else d

/-- HIGH_SER. -/
def execHighSer (p : Nat) (uncorrectable : Bool) (s : State) : Host.Outcome State Fault Refusal :=
  .next { s with dev := highSer p uncorrectable s.dev }

/-! ## Spare cells (R337, R338) -/

/-- The spares of an engine that serve nothing and have not failed, S0 first. -/
def freeSpares (e : Engine) : List Nat :=
  [16, 17].filter (fun c => !e.serves.contains c && !e.bad.contains c &&
    (match e.sub with
     | some (_, x, _) => x != c
     | none => true))

/-- The ports of an engine that own a position. -/
def portsOwning (e pos : Nat) (d : Dev) : List Nat :=
  ((List.range 4).map (fun k => 4 * e + k)).filter (fun p => portExists p d && (portLanes p d).contains pos)

/-- A position has no working cell (R338): its port goes down and stays down. -/
def positionDown (e pos : Nat) (d : Dev) : Dev :=
  let d1 := updEng e (fun x => { x with down := if x.down.contains pos then x.down else x.down ++ [pos] }) d
  let d2 := logEv (8 + e / 4) 2 0x06 2 (netData e pos ((engAt e d).serves.getD pos pos) 0 0) d1
  each (portsOwning e pos d) (fun p d => linkFalls p false (portAt p d).local_ (portAt p d).remote d) d2

/-- Of the positions that wait for a spare, the first to be served: the one that asked first, and the lowest of those that asked at one
moment (R338). -/
def firstWait (l : List (Nat × Nat)) : Option (Nat × Nat) :=
  l.foldl (fun best x => match best with
    | none => some x
    | some b => if x.2 < b.2 || (x.2 == b.2 && x.1 < b.1) then some x else some b) none

/-- The last to be served. -/
def lastWait (l : List (Nat × Nat)) : Option (Nat × Nat) :=
  l.foldl (fun best x => match best with
    | none => some x
    | some b => if b.2 < x.2 || (x.2 == b.2 && b.1 < x.1) then some x else some b) none

/-- Forgets that a position waits. -/
def dropWait (e pos : Nat) (d : Dev) : Dev := updEng e (fun x => { x with waits := x.waits.filter (fun k => k.1 != pos) }) d

/-- Has the cell that serves a position failed? -/
def cellBad (e pos : Nat) (d : Dev) : Bool := (engAt e d).bad.contains ((engAt e d).serves.getD pos pos)

/-- Starts the next substitution; of the positions that wait, those for which no spare is left go down where their cell has failed (R337,
R338). -/
def startSubs (e : Nat) : Nat → Dev → Dev
  | 0, d => d
  | n + 1, d =>
    let x := engAt e d
    if (freeSpares x).length < x.waits.length then
      match lastWait x.waits with
      | some (pos, _) => startSubs e n (when_ (cellBad e pos d) (positionDown e pos) (dropWait e pos d))
      | none => d
    else if x.sub.isSome then d
    else
      match firstWait x.waits, freeSpares x with
      | some (pos, t), c :: _ => updEng e (fun x => { x with sub := some (pos, c, t) }) (dropWait e pos d)
      | _, _ => d

/-- Does a position wait for a spare, or is one being trained for it? -/
def Engine.asks (x : Engine) (pos : Nat) : Bool :=
  x.waits.any (fun k => k.1 == pos) || (match x.sub with
    | some (k, _, _) => k == pos
    | none => false)

/-- A position asks for a spare (R337). Where the last spare went at this same moment to a higher position, the lower position
receives it (R338). -/
def wantSpare (e pos : Nat) (d : Dev) : Dev :=
  let now := clock (fdie (e / 4)) d
  if (engAt e d).asks pos then d
  else startSubs e 17 (updEng e (fun x =>
    let x1 := { x with waits := x.waits ++ [(pos, now)] }
    match x.sub, freeSpares x with
    | some (k, _, t), [] => if pos < k && t == now then { x1 with sub := none, waits := x1.waits ++ [(k, t)] } else x1
    | _, _ => x1) d)

/-- A cell's monitors report it outside its limits (R337). -/
def cellFault (e pos : Nat) (d : Dev) : Dev :=
  if e < 8 && pos < 16 && !(engAt e d).down.contains pos then
    wantSpare e pos (updEng e (fun x => { x with bad := x.bad ++ [x.serves.getD pos pos] }) d)
  else d

/-- CELL_FAULT: a position that goes down is kept in the repair record (R342, R480). -/
def execCellFault (e pos : Nat) (s : State) : Host.Outcome State Fault Refusal :=
  .next (if e < 8 && pos < 16 then programRepair { s with dev := cellFault e pos s.dev } else s)

/-- A photonic service command is reported (R342). -/
def photResult (cmd unit res : Nat) (d : Dev) : Dev :=
  setW .photServiceStatus 0 0 (cmd * 4096 + unit % 8 * 256 + res) d

/-- The LANE_SUBSTITUTE command (R337, R342). -/
def laneSubstitute (e pos : Nat) (d : Dev) : Dev :=
  if (freeSpares (engAt e d)).length ≤ (engAt e d).waits.length then photResult 3 e 4 d
  else photResult 3 e 1 (wantSpare e pos d)

/-- LANE_SUBSTITUTE. -/
def execLaneSubstitute (e pos : Nat) (s : State) : Host.Outcome State Fault Refusal :=
  overLink true (.laneSubstitute e pos) (fun s => .next { s with dev := if e < 8 && pos < 16 then managerWrite (addrOf .photService 0 0) (laneSubstitute e pos) s.dev
                        else s.dev }) s

/-- The switch moves a position's fibres to the trained spare (R337), which the log records. The link of the port that owns the
position is down until the far end regains alignment. -/
def substitutionEnd (e : Nat) (d : Dev) : Dev :=
  match (engAt e d).sub with
  | some (pos, c, _) =>
    let d1 := updEng e (fun x => { x with
      serves := x.serves.set pos c, sub := none, down := x.down.filter (fun k => k != pos) }) d
    let d2 := each (portsOwning e pos d) (fun p d => linkFalls p false (portAt p d).local_ (portAt p d).remote d) d1
    startSubs e 17 (logEv (8 + e / 4) 1 0x06 3 (netData e pos c 0 0) d2)
  | none => d

/-- SUBSTITUTION_END: the substitution is kept in the repair record (R337). -/
def execSubstitutionEnd (e : Nat) (s : State) : Host.Outcome State Fault Refusal :=
  .next (programRepair { s with dev := substitutionEnd e s.dev })

/-! ## Laser units (R339 to R342) -/

/-- A unit's draw, not above what its state allows (R34): a value that the spec leaves open. -/
def setDraw (u cap : Nat) (d : Dev) : Dev :=
  let p := drawFree d
  updLaser u (fun x => { x with draw := if cap = 0 then 0 else p.1 % (cap + 1) }) (if cap = 0 then d else p.2)

/-- Puts a unit into a state with the draw that the state allows. -/
def laserState (u st cap : Nat) (d : Dev) : Dev :=
  setDraw u cap (updLaser u (fun x => { x with state := st, rising := none }) d)

/-- Both units of a group are dark: the links of its engines' ports are down (R29, R341). -/
def settleLight (g : Nat) (d : Dev) : Dev :=
  if lit (2 * g) d || lit (2 * g + 1) d then d
  else
    each ((List.range 8).map (fun k => 8 * g + k)) (fun p d =>
      if portExists p d && (portAt p d).align then linkFalls p false (portAt p d).local_ (portAt p d).remote d else d) d

/-- A unit stops (R340): a lit partner goes to full light, and a partner that was rising rises alone. -/
def partnerAlone (u : Nat) (d : Dev) : Dev :=
  let v := partner u
  let x := laserAt v d
  settleLight (u / 2)
    (if x.state = 3 ∨ x.state = 5 ∨ x.state = 4 then laserState v 4 120 d
     else if x.rising = some 3 then updLaser v (fun x => { x with rising := some 4 }) d
     else d)

/-- LASER_UNIT_INSERTED (R339, R341). -/
def laserInserted (u : Nat) (d : Dev) : Dev :=
  if u < 8 && !(laserAt u d).present then
    updLaser u (fun _ => { state := 1, present := true, fault := 0, draw := 0, rising := none }) d
  else d

/-- LASER_UNIT_INSERTED. -/
def execLaserUnitInserted (u : Nat) (s : State) : Host.Outcome State Fault Refusal :=
  .next { s with dev := laserInserted u s.dev }

/-- CHECKING ends (R339, R341): the unit stays dark, or rises beside a lit partner to half light, else to full light. A unit that does
not report its optical connector mated stays dark, and CHECKING has not ended. -/
def laserCheckEnd (u outputs wavelength watts : Nat) (mated : Bool) (d : Dev) : Dev :=
  if u < 8 && (laserAt u d).state == 1 && (laserAt u d).rising.isNone then
    if outputs = 16 ∧ wavelength = 1311 ∧ watts ≤ 12 then
      if !mated then d
      else updLaser u (fun x => { x with rising := some (if lit (partner u) d then 3 else 4) }) d
    else logEv 12 2 0x06 4 (netData 0 0 0 u 0) (laserState u 2 0 d)
  else d

/-- LASER_CHECK_END. -/
def execLaserCheckEnd (u outputs wavelength : Nat) (report : LaserReport) (s : State) : Host.Outcome State Fault Refusal :=
  .next { s with dev := laserCheckEnd u outputs wavelength report.watts report.mated s.dev }

/-- A rise ends (R341): the unit reaches SHARING with its partner, or ALONE, or goes dark and is DRAINED. -/
def laserRiseEnd (u : Nat) (d : Dev) : Dev :=
  match (laserAt u d).rising with
  | some 6 => when_ ((laserAt (partner u) d).state == 4) (setDraw (partner u) 120) (laserState u 6 0 d)
  | some 3 => laserState (partner u) 3 60 (laserState u 3 60 d)
  | some 4 => if lit (partner u) d then laserState (partner u) 3 60 (laserState u 3 60 d) else laserState u 4 120 d
  | _ => d

/-- LASER_RISE_END. -/
def execLaserRiseEnd (u : Nat) (s : State) : Host.Outcome State Fault Refusal :=
  .next { s with dev := laserRiseEnd u s.dev }

/-- LASER_UNIT_REMOVED (R29, R339, R340). -/
def laserRemoved (u : Nat) (d : Dev) : Dev :=
  if u < 8 && (laserAt u d).present then partnerAlone u (updLaser u (fun _ => Laser.empty) d) else d

/-- LASER_UNIT_REMOVED. -/
def execLaserUnitRemoved (u : Nat) (s : State) : Host.Outcome State Fault Refusal :=
  .next { s with dev := laserRemoved u s.dev }

/-- LASER_UNIT_FAULT (R340, R341): the unit is dark in FAULT, and its partner rises to full light. -/
def laserFault (u code : Nat) (d : Dev) : Dev :=
  if u < 8 && (laserAt u d).present then
    let d1 := updLaser u (fun x => { x with state := 7, fault := code % 256, draw := 0, rising := none }) d
    partnerAlone u (logEv 12 2 0x06 5 (netData 0 0 0 u 0) d1)
  else d

/-- LASER_UNIT_FAULT. -/
def execLaserUnitFault (u code : Nat) (s : State) : Host.Outcome State Fault Refusal :=
  .next { s with dev := laserFault u code s.dev }

/-- The LASER_DRAIN command (R342): the unit and its partner are SHARING, or it is refused. The partner's draw leaves room for that of
the unit, so that the group stays within 12 W (R34). -/
def laserDrain (u : Nat) (d : Dev) : Dev :=
  if (laserAt u d).state = 3 ∧ (laserAt (partner u) d).state = 3 then
    photResult 1 u 1 (updLaser u (fun x => { x with state := 5, rising := some 6 }) (laserState (partner u) 4 (120 - (laserAt u d).draw) d))
  else photResult 1 u 3 d

/-- LASER_DRAIN. -/
def execLaserDrain (u : Nat) (s : State) : Host.Outcome State Fault Refusal :=
  overLink true (.laserDrain u) (fun s => .next { s with dev := if u < 8 then managerWrite (addrOf .photService 0 0) (laserDrain u) s.dev else s.dev }) s

/-- The LASER_CANCEL command (R342): a DRAINING or DRAINED unit rises to SHARING. -/
def laserCancel (u : Nat) (d : Dev) : Dev :=
  if (laserAt u d).state = 5 ∨ (laserAt u d).state = 6 then
    photResult 2 u 1 (updLaser u (fun x => { x with rising := some (if lit (partner u) d then 3 else 4) }) d)
  else photResult 2 u 3 d

/-- LASER_CANCEL. -/
def execLaserCancel (u : Nat) (s : State) : Host.Outcome State Fault Refusal :=
  overLink true (.laserCancel u) (fun s => .next { s with dev := if u < 8 then managerWrite (addrOf .photService 0 0) (laserCancel u) s.dev else s.dev }) s

end Sys2Proof.Machine
end

