-- ==== Sys2Proof/Machine/Mac.lean ====
section
/-! DEFINITION. The Ethernet MAC: receive buffers, pause and its guards, ingress policers, statistics (R344 to R353,
R365 to R370). -/

namespace Sys2Proof.Machine

/-! ## Receive buffers and XOFF (R345, R346, R348, R349) -/

/-- A priority's buffer; one that nothing has entered has the SIZE of its register. -/
def bufAt (p k : Nat) (d : Dev) : RxBuf :=
  Tab.getD (portAt p d).bufs k
    { frames := [], xoff := false, repAt := 0, highAt := none, guarded := false, size := bufSize p k d }

/-- Changes a buffer. -/
def updBuf (p k : Nat) (f : RxBuf → RxBuf) (d : Dev) : Dev :=
  let b := f (bufAt p k d)
  updPort p (fun r => { r with bufs := Tab.set r.bufs k b }) d

/-- Bytes that a buffer holds. -/
def RxBuf.fill (b : RxBuf) : Nat := (b.frames.map Prod.fst).sum

/-- HIGH of a buffer in bytes. -/
def highOf (p k : Nat) (d : Dev) : Nat := getF .prioBuf p k 15 8 d * 16384

/-- LOW of a buffer in bytes. -/
def lowOf (p k : Nat) (d : Dev) : Nat := getF .prioBuf p k 7 0 d * 16384

/-- QUANTA of a port (R350). -/
def quantaOf (p : Nat) (d : Dev) : Nat := max 1 (getF .flowCtrl p 0 15 0 d)

/-- Ticks of the model's clock in pause quanta (R346), rounded up. -/
def quantaTicks (p q : Nat) (d : Dev) : Nat := ceilDiv (q * (if portRate p d = 160000 then 32 else 64)) 12500

/-- Does a priority of a port send pause (R346)? -/
def sendsPause (p k : Nat) (d : Dev) : Bool :=
  (flowMode p d == 1 && bitOf (getF .flowCtrl p 0 23 16 d) k) || flowMode p d == 2

/-- A pause of `q` quanta for a key arrives. -/
def pauseKey (p k q : Nat) (d : Dev) : Dev :=
  let x : PauseSt := Tab.getD (portAt p d).pauses k { until_ := none, since := clock (fdie (p / 16)) d, ignored := false, lastSeen := clock (fdie (p / 16)) d }
  let held := match x.until_ with
    | some t => decide (clock (fdie (p / 16)) d < t)
    | none => false
  let y : PauseSt :=
    if x.ignored then { x with lastSeen := clock (fdie (p / 16)) d }
    else if q = 0 then { x with until_ := none, lastSeen := clock (fdie (p / 16)) d }
    else { x with
      until_ := some (clock (fdie (p / 16)) d + quantaTicks p q d), since := if held then x.since else clock (fdie (p / 16)) d, lastSeen := clock (fdie (p / 16)) d }
  updPort p (fun r => { r with pauses := Tab.set r.pauses k y }) d

/-- Is an XOFF of a key one that FLOW_CTRL makes the port send (R346)? Key 8 stands for the whole port. -/
def keySends (p k : Nat) (d : Dev) : Bool := if k = 8 then flowMode p d == 2 else flowMode p d == 1 && sendsPause p k d

/-- May a port start a frame (R336, R350)? -/
def portSends (p : Nat) (d : Dev) : Bool := portExists p d && linkUp p d && portEnabled p d

/-- Sends XOFF under a key, 8 for the whole port, and counts it; in loopback the port itself receives it (R350). -/
def sendXoff (p k quanta : Nat) (d : Dev) : Dev :=
  if !portSends p d then d
  else
    let d1 := countPort p 6 1 d
    if looped p d then pauseKey p k quanta (countPort p 5 1 d1) else emit (.xoff p k quanta) d1

/-- Sets XOFF out or released under a key. A port that may start no frame sets none out. -/
def setXoff (p k : Nat) (on : Bool) (d : Dev) : Dev :=
  if !on then sendXoff p k 0 (updBuf p k (fun b => { b with xoff := false }) d)
  else if portSends p d then
    sendXoff p k (quantaOf p d)
      (updBuf p k (fun b => { b with xoff := true, repAt := clock (fdie (p / 16)) d + quantaTicks p (quantaOf p d) d / 2 }) d)
  else d

/-- Is any buffer of a port that no guard has released at or above HIGH? -/
def anyHigh (p : Nat) (d : Dev) : Bool :=
  (List.range 8).any (fun j => !(bufAt p j d).guarded && decide (highOf p j d ≤ (bufAt p j d).fill))

/-- Is every buffer of a port below LOW, or released by a guard? -/
def allLow (p : Nat) (d : Dev) : Bool :=
  (List.range 8).all (fun j => (bufAt p j d).guarded || decide ((bufAt p j d).fill < lowOf p j d))

/-- A buffer's fill has changed, or its watermarks: XOFF or release follows (R346, R349). -/
def settleXoff (p k : Nat) (d0 : Dev) : Dev :=
  let d := updBuf p k (fun b =>
    { b with
      highAt := if highOf p k d0 ≤ b.fill then (if b.highAt.isSome then b.highAt else some (clock (fdie (p / 16)) d0)) else none,
      guarded := b.guarded && decide (lowOf p k d0 ≤ b.fill) }) d0
  let b := bufAt p k d
  if keySends p k d then
    if !b.xoff && !b.guarded && highOf p k d ≤ b.fill then setXoff p k true d
    else if b.xoff && b.fill < lowOf p k d then setXoff p k false d
    else d
  else if keySends p 8 d then
    if !(bufAt p 8 d).xoff && anyHigh p d then setXoff p 8 true d
    else if (bufAt p 8 d).xoff && allLow p d then setXoff p 8 false d
    else d
  else d

/-- Every buffer of a port is judged again: its link is up, or FLOW_CTRL is written. An XOFF that FLOW_CTRL no longer makes the port
send is forgotten (R346). -/
def settlePort (p : Nat) (d : Dev) : Dev :=
  let d1 := updPort p (fun r => { r with
    bufs := Tab.mapVals r.bufs (fun k b => { b with xoff := b.xoff && keySends p k d }) }) d
  each (((portAt p d).bufs.map Prod.fst).filter (fun k => decide (k < 8))) (settleXoff p) d1

/-- Half the pause time passes with the fill at or above LOW (R346). -/
def xoffRepeat (p k : Nat) (d : Dev) : Dev :=
  let b := bufAt p k d
  let full := if k = 8 then !allLow p d else lowOf p k d ≤ b.fill
  if portExists p d && keySends p k d && b.xoff && full && decide (b.repAt ≤ clock (fdie (p / 16)) d) then setXoff p k true d else d

/-- XOFF_REPEAT. -/
def execXoffRepeat (p k : Nat) (s : State) : Host.Outcome State Fault Refusal :=
  .next { s with dev := xoffRepeat p k s.dev }

/-- LINK_UP: an XOFF that a full buffer asks for goes out with the link (R346). -/
def execLinkUp (p : Nat) (s : State) : Host.Outcome State Fault Refusal :=
  let d := linkRises p s.dev
  .next { s with dev := if linkUp p d && !linkUp p s.dev then settlePort p d else d }

/-- A write of PORT_CTRL (R336, R350). -/
def portCtrlWrite (p data : Nat) (d : Dev) : Dev :=
  let d1 := portEnable p data d
  if portEnabled p d1 && !portEnabled p d then settlePort p d1 else d1

/-- A write to the block of a port that the engine's mode leaves unused is discarded and counted (R17, R334). -/
def portWrite (n : RegName) (p k : Nat) (f : Dev → Dev) (d : Dev) : Dev :=
  managerWrite (addrOf n p k) (fun d => if portExists p d then f d else countErr 3 0xFF (addrOf n p k) 4 true d) d

/-- PORT_CTRL_WRITE. -/
def execPortCtrlWrite (p data : Nat) (s : State) : Host.Outcome State Fault Refusal :=
  overLink true (.portCtrlWrite p data) (fun s => .next { s with dev := if p < 32 then portWrite .portCtrl p 0 (portCtrlWrite p data) s.dev else s.dev }) s

/-- A new SIZE takes effect when its buffer is empty (R349). -/
def sizeTakes (p k : Nat) (d : Dev) : Dev :=
  if (bufAt p k d).frames.isEmpty then gather (updBuf p k (fun b => { b with size := getF .prioBuf p k 23 16 d }) d) else d

/-- BUFFER_SIZE_TAKES_EFFECT. -/
def execBufferSizeTakesEffect (p k : Nat) (s : State) : Host.Outcome State Fault Refusal :=
  .next { s with dev := if portExists p s.dev && k < 8 then sizeTakes p k s.dev else s.dev }

/-- The total SIZE, as written, of the buffers of a fabric die's ports. -/
def sizeSum (i : Nat) (d : Dev) : Nat :=
  (((List.range 16).map (fun k => 16 * i + k)).filter (fun p => portExists p d)).foldl
    (fun acc p => acc + ((List.range 8).map (fun k => getF .prioBuf p k 23 16 d)).sum) 0

/-- A write of PRIO_BUF_k (R349). -/
def prioBufWrite (p k data : Nat) (d : Dev) : Dev :=
  let size := bitsOf data 23 16
  let high := bitsOf data 15 8
  let low := bitsOf data 7 0
  let old := getF .prioBuf p k 23 16 d
  if high ≤ low ∨ size < high ∨ (old < size ∧ 4096 < sizeSum (p / 16) d - old + size) then setBit .portStatus p 0 4 d
  else
    let d1 := setW .prioBuf p k (withBits (getW .prioBuf p k d) 23 0 (data % 2 ^ 24)) (updBuf p k id d)
    settleXoff p k (sizeTakes p k d1)

/-- PRIO_BUF_WRITE. -/
def execPrioBufWrite (p k data : Nat) (s : State) : Host.Outcome State Fault Refusal :=
  overLink true (.prioBufWrite p k data) (fun s => .next { s with dev := if p < 32 ∧ k < 8 then portWrite .prioBuf p k (prioBufWrite p k data) s.dev else s.dev }) s

/-- A frame leaves its buffer, where it is there: was it marked CE by a policer? -/
def leaveBuffer (p k n : Nat) (d : Dev) : Option (Bool × Dev) :=
  let b := bufAt p k d
  match b.frames.find? (fun f => f.1 == n) with
  | none => none
  | some f =>
    some (f.2, settleXoff p k (sizeTakes p k (updBuf p k (fun b => { b with frames := b.frames.eraseP (fun f => f.1 == n) }) d)))

/-! ## Received pause (R347, R348) -/

/-- A pause frame that is honoured (R344, R346, R347), counted in RX_PAUSE: PFC 0x0101 with its enable vector, or PAUSE 0x0001. Any other
MAC control frame has no effect. -/
def honourPause (p opcode enables : Nat) (quanta : List Nat) (d : Dev) : Dev :=
  if flowMode p d = 1 && opcode = 0x0101 then
    each ((List.range 8).filter (fun k => bitOf enables k && bitOf (getF .flowCtrl p 0 23 16 d) k))
      (fun k d => pauseKey p k (quanta.getD k 0 % 65536) d) (countPort p 5 1 d)
  else if flowMode p d = 2 && opcode = 0x0001 then pauseKey p 8 (quanta.getD 0 0 % 65536) (countPort p 5 1 d)
  else d

/-- A received pause's quanta run out (R347). -/
def pauseExpiry (p k : Nat) (d : Dev) : Dev :=
  updPort p (fun r => { r with
    pauses := Tab.modify r.pauses k (fun x =>
    match x.until_ with
    | some t => if t ≤ clock (fdie (p / 16)) d then { x with until_ := none } else x
    | none => x) }) d

/-- PAUSE_EXPIRY. -/
def execPauseExpiry (p k : Nat) (s : State) : Host.Outcome State Fault Refusal :=
  .next { s with dev := if portExists p s.dev then pauseExpiry p k s.dev else s.dev }

/-- STORM_MS of a port in ticks (R350). -/
def stormTicks (p : Nat) (d : Dev) : Nat := msec (max 1 (getF .flowTiming p 0 15 0 d))

/-- A guard of R348 acted: it is counted, flagged and recorded. -/
def guardActs (p : Nat) (d : Dev) : Dev :=
  logEv (8 + p / 16) 2 0x06 6 (netData (p / 4) 0 0 0 p) (setBit .portStatus p 0 3 (countPort p 11 1 d))

/-- Received pause has held for STORM_MS (R348). -/
def pauseStormGuard (p k : Nat) (d : Dev) : Dev :=
  match Tab.get (portAt p d).pauses k with
  | some x =>
    if pausedKey p k d && decide (x.since + stormTicks p d ≤ clock (fdie (p / 16)) d) then
      guardActs p (updPort p (fun r => { r with
        pauses := Tab.modify r.pauses k (fun x => { x with ignored := true, until_ := none }) }) d)
    else d
  | none => d

/-- PAUSE_STORM_GUARD. -/
def execPauseStormGuard (p k : Nat) (s : State) : Host.Outcome State Fault Refusal :=
  .next { s with dev := pauseStormGuard p k s.dev }

/-- 1 ms passes with no pause frame for a guarded priority (R348). -/
def pauseGuardEnd (p k : Nat) (d : Dev) : Dev :=
  match Tab.get (portAt p d).pauses k with
  | some x =>
    if x.ignored && decide (x.lastSeen + msec 1 ≤ clock (fdie (p / 16)) d) then
      updPort p (fun r => { r with pauses := Tab.modify r.pauses k (fun x => { x with ignored := false }) }) d
    else d
  | none => d

/-- PAUSE_GUARD_END. -/
def execPauseGuardEnd (p k : Nat) (s : State) : Host.Outcome State Fault Refusal :=
  .next { s with dev := pauseGuardEnd p k s.dev }

/-- A buffer of the module has stayed at or above HIGH for STORM_MS (R348). -/
def bufferStormGuard (p k : Nat) (d : Dev) : Dev :=
  let b := bufAt p k d
  match b.highAt with
  | some t =>
    if k < 8 && sendsPause p k d && !b.guarded && decide (t + stormTicks p d ≤ clock (fdie (p / 16)) d) then
      let d1 := guardActs p (updBuf p k (fun b => { b with guarded := true }) d)
      if flowMode p d = 2 then (if anyHigh p d1 then d1 else setXoff p 8 false d1) else setXoff p k false d1
    else d
  | none => d

/-- BUFFER_STORM_GUARD. -/
def execBufferStormGuard (p k : Nat) (s : State) : Host.Outcome State Fault Refusal :=
  .next { s with dev := bufferStormGuard p k s.dev }

/-! ## Policers (R365 to R368) -/

/-- The policer of a priority of a port, where one is mapped (R370). -/
def policerFor (p k : Nat) (d : Dev) : Option Nat :=
  let w := if k < 4 then getW .policeMapLo p 0 d else getW .policeMapHi p 0 d
  let m := k % 4
  if bitOf w (8 * m + 7) then some (bitsOf w (8 * m + 6) (8 * m)) else none

/-- The sizes of a policer's buckets in 1/32 of a byte. -/
def polSizes (i k : Nat) (d : Dev) : Nat × Nat :=
  (max 10 (getF .policerBurst i k 15 0 d) * 32768, max 10 (getF .policerBurst i k 31 16 d) * 32768)

/-- A policer's buckets, filled up to now (R365). -/
def polNow (i k : Nat) (d : Dev) : Nat × Nat :=
  let z := polSizes i k d
  let r1 := max 1 (getF .policerRate1 i k 19 0 d)
  let r2 := max 1 (getF .policerRate2 i k 19 0 d)
  let r2 := if bitOf (getW .policerCfg i k d) 30 then r2 else max r1 r2
  match Tab.get d.net.policers (128 * i + k) with
  | none => z
  | some x => (min z.1 (x.b1 + 5 * r1 * (clock (fdie i) d - x.since)), min z.2 (x.b2 + 5 * r2 * (clock (fdie i) d - x.since)))

/-- A frame's prior colour (R366): 0 green, 1 yellow, 2 red. -/
def priorColour (cfg : Nat) (f : RxFrame) (d : Dev) : Nat :=
  if bitOf cfg 29 then
    let c := if bitOf cfg 28 then
        (match f.pcp with
         | some m => bitsOf (getW .colourPcp 0 0 d) (2 * (m % 8) + 1) (2 * (m % 8))
         | none => 0)
      else
        (match f.ip with
         | some (_, dscp, _) => bitsOf (getW .colourDscp (dscp / 8 % 8) 0 d) (2 * (dscp % 8) + 1) (2 * (dscp % 8))
         | none => 0)
    min 2 c
  else 0

/-- The colour of a frame of `b` units and the buckets after it: RFC 2698 in mode 0, RFC 4115 in mode 1 (R365). -/
def meter (mode1 : Bool) (prior b : Nat) (t : Nat × Nat) : Nat × (Nat × Nat) :=
  if mode1 then
    if prior = 0 && b ≤ t.1 then (0, (t.1 - b, t.2))
    else if prior ≤ 1 && b ≤ t.2 then (1, (t.1, t.2 - b))
    else (2, t)
  else
    if prior = 2 || t.2 < b then (2, t)
    else if prior = 1 || t.1 < b then (1, (t.1, t.2 - b))
    else (0, (t.1 - b, t.2 - b))

/-- A policer counts a frame: 0 green, 1 yellow, 2 red passed, 3 red discarded (R370). -/
def countPol (i k c : Nat) (d : Dev) : Dev :=
  let idx := 512 * i + 4 * k + c
  { d with net := { d.net with polHw := Tab.set d.net.polHw idx (min 63 (Tab.getD d.net.polHw idx 0 + 1)) } }

/-- A frame meets its policer (R365 to R367): does it pass, and is it marked CE? -/
def police (p k : Nat) (f : RxFrame) (d : Dev) : Bool × Bool × Dev :=
  let i := p / 16
  match policerFor p k d with
  | none => (true, false, d)
  | some n =>
    let cfg := getW .policerCfg i n d
    if !bitOf cfg 31 then (true, false, d)
    else
      let r := meter (bitOf cfg 30) (priorColour cfg f d) (f.length * 32) (polNow i n d)
      let d1 := { d with net := { d.net with policers := Tab.set d.net.policers (128 * i + n) ⟨r.2.1, r.2.2, clock (fdie i) d⟩ } }
      let ect := match f.ip with
        | some (_, _, e) => decide (e = 1 ∨ e = 2)
        | none => false
      let red := bitsOf cfg 26 25
      if r.1 = 0 then (true, false, countPol i n 0 d1)
      else if r.1 = 1 then (true, bitOf cfg 27 && ect, countPol i n 1 d1)
      else if red = 1 then (true, ect, countPol i n 2 d1)
      else if red = 2 then (true, false, countPol i n 2 d1)
      else (false, false, countPol i n 3 d1)

/-- The register of a policer's block by word. -/
def policerReg (word : Nat) : RegName :=
  match word with
  | 0 => .policerCfg
  | 1 => .policerRate1
  | 2 => .policerRate2
  | _ => .policerBurst

/-- A write of a policer register (R368): a change sets both buckets full. -/
def policerWrite (i k word data : Nat) (d : Dev) : Dev :=
  let n := policerReg word
  let new := taken n (getW n i k d) data
  if new = getW n i k d then d
  else
    let d1 := setW n i k new d
    { d1 with net := { d1.net with policers := Tab.erase d1.net.policers (128 * i + k) } }

/-- POLICER_WRITE. -/
def execPolicerWrite (die k word data : Nat) (s : State) : Host.Outcome State Fault Refusal :=
  overLink true (.policerWrite die k word data) (fun s => .next { s with
    dev := if die < 2 && k < 128 && word < 4 then
    managerWrite (addrOf (policerReg word) die k) (policerWrite die k word data) s.dev else s.dev }) s

/-! ## Receive (R262, R344, R345) -/

/-- Is an address of 48 bits a group address? -/
def isGroup (a : Nat) : Bool := bitOf a 40

/-- Does a destination pass the port's filter (R344)? -/
def filterPass (p dst : Nat) (d : Dev) : Bool :=
  let ent := fun lo hi j => (bitOf (getW hi p j d) 31, getW lo p j d + 2 ^ 32 * getF hi p j 15 0 d)
  (!isGroup dst && (List.range 8).any (fun j => ent .ucastLo .ucastHi j == (true, dst))) ||
  (isGroup dst && (List.range 4).any (fun j => ent .mcastLo .mcastHi j == (true, dst))) ||
  (decide (dst = 2 ^ 48 - 1) && bitOf (getW .portCtrl p 0 d) 30)

/-- Is a frame a Pesyn packet for this die (R262)? -/
def isPesyn (p : Nat) (f : RxFrame) (d : Dev) : Bool :=
  f.macCtrl.isNone && f.ipOk && f.sumOk && decide (f.udpPort = bitsOf d.addr.ctrl 15 0) &&
  decide (f.dstIp = beNat (dieAddr d.addr.node (p / 16) d)) &&
  (match f.ip with
   | some (v, _, _) => decide (v = if bitOf d.addr.ctrl 31 then 4 else 6)
   | none => false)

/-- The priority of a frame (R345). -/
def framePrio (p : Nat) (f : RxFrame) (d : Dev) : Nat :=
  match f.pcp, f.ip with
  | some k, _ => k % 8
  | none, some (_, dscp, _) =>
    bitsOf (getW .dscpMap p (dscp / 8 % 8) d) (4 * (dscp % 8) + 2) (4 * (dscp % 8))
  | none, none => 0

/-- The destination address of MAC control frames (R344). -/
def macControlAddr : Nat := 0x0180C2000001

/-- A frame that reaches a port's receive side (R344, R345): filtered, given a priority, policed, and buffered or discarded. A MAC control
frame is consumed by the MAC whatever the filter holds. The buffers of a die hold 64 MiB together at most, as R349 sizes them, also while
sizes change: DESIGN CHOICE (log entry 130). -/
def receiveFrame (p : Nat) (f : RxFrame) (d : Dev) : Dev :=
  if !f.fcsOk then countPort p 0 1 d
  else if f.length < 64 ∨ min 9216 (getF .portCtrl p 0 15 0 d) < f.length then countPort p 1 1 d
  else
    match f.macCtrl, decide (f.dst = macControlAddr) with
    | some (op, en, q), true => honourPause p op en q d
    | _, _ =>
      if !filterPass p f.dst d then countPort p 2 1 d
      else if !isPesyn p f d then countPort p 3 1 d
      else
        let k := framePrio p f d
        let r := police p k f d
        let d1 := r.2.2
        if !r.1 then d1
        else if (bufAt p k d1).size * 16384 < (bufAt p k d1).fill + f.length || calderaHalf < bufferUse (p / 16) d1 + f.length then
          countPort p 4 1 d1
        else settleXoff p k (updBuf p k (fun b => { b with frames := b.frames ++ [(f.length, r.2.1)] }) d1)

/-- A frame arrives on the fibre of a port; none does while the link is down or the port is in loopback (R350). -/
def frameReceive (p : Nat) (f : RxFrame) (d : Dev) : Dev :=
  if portExists p d && linkUp p d && !looped p d then receiveFrame p f d else d

/-- FRAME_RECEIVE. -/
def execFrameReceive (p : Nat) (f : RxFrame) (s : State) : Host.Outcome State Fault Refusal :=
  .next { s with dev := frameReceive p f s.dev }

/-- A MAC control frame of 64 bytes. -/
def pauseRx (opcode enables : Nat) (quanta : List Nat) : RxFrame :=
  { fcsOk := true, length := 64, dst := macControlAddr, pcp := none, ip := none, ipOk := false, dstIp := 0, udpPort := 0, sumOk := false,
    macCtrl := some (opcode, enables, quanta) }

/-- PAUSE_FRAME: the arrival of a whole MAC control frame, which needs no FRAME_RECEIVE beside it. -/
def execPauseFrame (p opcode enables : Nat) (quanta : List Nat) (s : State) : Host.Outcome State Fault Refusal :=
  .next { s with dev := frameReceive p (pauseRx opcode enables quanta) s.dev }

/-- A frame of the module as its own receive side sees it in loopback (R350). -/
def loopedFrame (f : Frame) (d : Dev) : RxFrame :=
  let mark := getW .pesynMark 0 0 d
  let data := dataMarked f.pkt.typ
  { fcsOk := true, length := f.octets.length, dst := fieldBE f.octets 0 6,
    pcp := if bitOf mark 31 then some (if data then bitsOf mark 27 25 else bitsOf mark 30 28) else none,
    ip := some (if bitOf d.addr.ctrl 31 then 4 else 6, if data then bitsOf mark 5 0 else bitsOf mark 11 6, 2), ipOk := true,
    dstIp := beNat (dieAddr f.pkt.dstNode f.pkt.die d), udpPort := bitsOf d.addr.ctrl 15 0, sumOk := true, macCtrl := none }

/-- In loopback a frame that ends comes back in (R350). -/
def loopBack (p : Nat) (d0 d : Dev) : Dev :=
  match (portAt p d0).wire with
  | some f => if portExists p d0 && linkUp p d0 && looped p d0 then receiveFrame p (loopedFrame f d0) d else d
  | none => d

/-- PORT_FRAME_BOUNDARY. -/
def execPortFrameBoundary (p : Nat) (s : State) : Host.Outcome State Fault Refusal :=
  .next { s with dev := loopBack p s.dev (portFrameBoundary p s.dev) }

/-! ## Statistics (R351, R352, R370) -/

/-- Adds the hardware counters of a table of 6-bit counters to their 64-bit counters; the last part of the answer says
that one was saturated. -/
def sampleAll (hw ext : Tab Nat) (inex : List Nat) : Tab Nat × List Nat × Bool :=
  hw.foldl (fun acc x =>
    (Tab.set acc.1 x.1 ((Tab.getD acc.1 x.1 0 + x.2) % 2 ^ 64),
     if x.2 = 63 && !acc.2.1.contains x.1 then acc.2.1 ++ [x.1] else acc.2.1, acc.2.2 || decide (x.2 = 63)))
    (ext, inex, false)

/-- Firmware samples and clears a port's counters (R351), and with them the policer counters of its die. -/
def statsSample (p : Nat) (d : Dev) : Dev :=
  let r := portAt p d
  let s := sampleAll r.hw r.ext r.inexact
  let d1 := when_ s.2.2 (setBit .portStatus p 0 0)
    (updPort p (fun r => { r with hw := [], ext := s.1, inexact := s.2.1 }) d)
  let mine := Tab.keep d1.net.polHw (fun k _ => k / 512 == p / 16)
  let t := sampleAll mine d1.net.polExt d1.net.polInexact
  { d1 with net := { d1.net with
      polHw := Tab.keep d1.net.polHw (fun k _ => k / 512 != p / 16), polExt := t.1, polInexact := t.2.1 } }

/-- STATS_SAMPLE. -/
def execStatsSample (p : Nat) (s : State) : Host.Outcome State Fault Refusal :=
  .next { s with dev := if portExists p s.dev then statsSample p s.dev else s.dev }

/-- A write of STATS_SELECT (R352): chooses a counter, or clears it with its mark. -/
def statsSelect (data : Nat) (d : Dev) : Dev :=
  let d1 := setW .statsSelect 0 0 (taken .statsSelect (getW .statsSelect 0 0 d) data % 2 ^ 13) d
  if bitOf data 30 then
    updPort (bitsOf data 12 8) (fun r => { r with
      ext := Tab.erase r.ext (bitsOf data 3 0), inexact := r.inexact.filter (fun k => k != bitsOf data 3 0) }) d1
  else d1

/-- STATS_SELECT_WRITE. -/
def execStatsSelectWrite (data : Nat) (s : State) : Host.Outcome State Fault Refusal :=
  overLink true (.statsSelectWrite data) (fun s => .next { s with dev := managerWrite (addrOf .statsSelect 0 0) (statsSelect data) s.dev }) s

/-- The counter that STATS_SELECT names, and its mark. -/
def statsNow (d : Dev) : Nat × Bool :=
  let r := portAt (getF .statsSelect 0 0 12 8 d) d
  let k := getF .statsSelect 0 0 3 0 d
  if k < 12 then (Tab.getD r.ext k 0, r.inexact.contains k) else (0, false)

/-- A read of STATS_DATA_LO latches the high half (R352). -/
def statsLatch (d : Dev) : Dev := { d with net := { d.net with latchHi := (statsNow d).1 / 2 ^ 32 } }

/-- A write of POLICE_STATS_SELECT (R370). -/
def policeSelect (data : Nat) (d : Dev) : Dev :=
  let d1 := setW .policeStatsSelect 0 0 (data % 2 ^ 10) d
  let idx := data % 2 ^ 10
  let key := 512 * bitsOf idx 9 9 + 4 * bitsOf idx 8 2 + bitsOf idx 1 0
  if bitOf data 30 then
    { d1 with net := { d1.net with
        polExt := Tab.erase d1.net.polExt key, polInexact := d1.net.polInexact.filter (fun k => k != key) } }
  else d1

/-- POLICE_STATS_SELECT_WRITE. -/
def execPoliceStatsSelectWrite (data : Nat) (s : State) : Host.Outcome State Fault Refusal :=
  overLink true (.policeStatsSelectWrite data) (fun s => .next { s with dev := managerWrite (addrOf .policeStatsSelect 0 0) (policeSelect data) s.dev }) s

/-- The policer counter that POLICE_STATS_SELECT names, and its mark. -/
def policeNow (d : Dev) : Nat × Bool :=
  let idx := getW .policeStatsSelect 0 0 d
  let key := 512 * bitsOf idx 9 9 + 4 * bitsOf idx 8 2 + bitsOf idx 1 0
  (Tab.getD d.net.polExt key 0, d.net.polInexact.contains key)

/-- A read of POLICE_STATS_DATA_LO latches the high half (R370). -/
def policeLatch (d : Dev) : Dev := { d with net := { d.net with latchPol := (policeNow d).1 / 2 ^ 32 } }

/-! ## Frames that a memory error meets (R146) -/

/-- The frames in the caldera of a die: those that wait for transmission by port, and those in its receive buffers by port, priority
and place. -/
def calderaFrames (i : Nat) (d : Dev) : List (Frame ⊕ (Nat × Nat × Nat)) :=
  ((List.range 16).map (fun k => 16 * i + k)).flatMap (fun p =>
    ((portAt p d).control ++ (portAt p d).data).map Sum.inl ++
    (List.range 8).flatMap (fun k => (List.range (bufAt p k d).frames.length).map (fun j => Sum.inr (p, k, j)))) ++
  ((d.net.unsent.filter (fun x => x.1 == i)).map (fun x => Sum.inl x.2))

/-- A frame of the caldera is lost (R146): one that waits for transmission leaves unsent, one in a receive buffer is discarded. -/
def loseFrame (i : Nat) (f : Frame ⊕ (Nat × Nat × Nat)) (d : Dev) : Dev :=
  match f with
  | .inl x =>
    gather { d with net := { d.net with
      unsent := d.net.unsent.erase (i, x),
      ports := Tab.mapVals d.net.ports (fun p r =>
        if p / 16 = i then { r with control := r.control.erase x, data := r.data.erase x } else r) } }
  | .inr (p, k, j) => settleXoff p k (sizeTakes p k (updBuf p k (fun b => { b with frames := b.frames.eraseIdx j }) d))

end Sys2Proof.Machine
end

