-- ==== Sys2Proof/Machine/Messages.lean ====
section
/-! DEFINITION. Pesyn messages at their initiator as data: sequences, packets and how one is sent (R260 to R269, R294,
R295, R355, R417). -/

namespace Sys2Proof.Machine

/-! ## A fabric die's transport -/

/-- The transport of a die. -/
def pesAt (i : Nat) (d : Dev) : Pesyn := listGet d.pes i (Pesyn.reset i)

/-- Changes a die's transport. -/
def updPes (i : Nat) (f : Pesyn → Pesyn) (d : Dev) : Dev := { d with pes := d.pes.set i (f (pesAt i d)) }

/-- A message by its sequence. -/
def msgAt (i seq : Nat) (d : Dev) : Option Msg := Tab.get (pesAt i d).msgs seq

/-- Changes a message. -/
def updMsg (i seq : Nat) (f : Msg → Msg) (d : Dev) : Dev :=
  updPes i (fun p => { p with msgs := Tab.modify p.msgs seq f }) d

/-- The next value of a die's sequence counter, which wraps to its die index (R268). -/
def takeSeq (i : Nat) (d : Dev) : Nat × Dev :=
  let s := (pesAt i d).nextSeq
  (s, updPes i (fun p => { p with nextSeq := (s + 2) % 2 ^ 40 }) d)

/-- Takes `n` values of a die's sequence counter. -/
def takeSeqs (i : Nat) : Nat → Dev → List Nat × Dev
  | 0, d => ([], d)
  | n + 1, d =>
    let p := takeSeq i d
    let r := takeSeqs i n p.2
    (p.1 :: r.1, r.2)

/-- The declared residence R in force, in ticks (R285). -/
def residence (d : Dev) : Nat := usec (max 100 (getF .pesynResidence 0 0 15 0 d))

/-- RTO_US in ticks (R280). -/
def rto (d : Dev) : Nat := usec (max 1 (getF .pesynTimers 0 0 15 0 d))

/-- RTO_MAX_US in ticks, at least RTO_US. -/
def rtoMax (d : Dev) : Nat := max (rto d) (usec (getF .pesynTimers 0 0 31 16 d))

/-- A message above 65,536 bytes is scheduled (R274, R276). -/
def Msg.sched (m : Msg) : Bool := decide (65536 < m.len) && decide (m.op ≠ 0x12)

/-- The message is a READ (R279). -/
def Msg.isRead (m : Msg) : Bool := decide (m.op = 0x12)

/-- Owner of a message: the queue whose stop withdraws its frames. -/
def Msg.queue (m : Msg) : Option Nat :=
  match m.owner with
  | .desc q _ => some q
  | _ => none

/-! ## Encryption (R294, R295, R417) -/

/-- Takes a CIPHER_COUNT of a die, moving to its next epoch past 2^48 − 1 (R295): epoch and count. -/
def takeCount (i : Nat) (d : Dev) : (Nat × Nat) × Dev :=
  let p := pesAt i d
  if p.count + 1 < 2 ^ 48 then ((p.epoch, p.count), updPes i (fun p => { p with count := p.count + 1 }) d)
  else
    let e := (p.epoch + 1) % 2 ^ 23
    ((p.epoch, p.count), { updPes i (fun p => { p with epoch := e, count := 0 }) d with
      start := { d.start with epochs := max d.start.epochs (e + 1) } })

/-- The IV of a packet (R294): sender's node, CIPHER_EPOCH with the die in bit 0, CIPHER_COUNT. -/
def cipherIv (node epoch count : Nat) : List Byte := natBE 3 node ++ natBE 3 epoch ++ natBE 6 count

/-- A die's cipher engine is busy, and holds its grant or asks for it (R45, R410). A packet that arrives is taken whether or not the grant
was made: DESIGN CHOICE (log entry 161). -/
def wantCipher (i : Nat) (d : Dev) : Dev := wantGrant (.cipher i) d.upd.costs.cipher none d

/-- A packet with ENC set and its cipher fields, or none where the slot is EMPTY (R417). -/
def encrypt (i cipher : Nat) (p : Packet) (d : Dev) : Option Packet × Dev :=
  if cipher = 0xFFFF then (some p, d)
  else
    match Tab.get d.keys.keys cipher with
    | none => (none, countF .cipherStats i 0 15 0 1 d)
    | some k =>
      let c := takeCount i d
      (some { p with flags := Nat.lor p.flags 1, epoch := c.1.1 * 2 + i, count := c.1.2, ekey := some k }, wantCipher i c.2)

/-- The body that follows the header on the wire: the payload, or its ciphertext and tag (R294). -/
def wireBody (p : Packet) (d : Dev) : List Byte :=
  match p.ekey with
  | some k => gcm k (cipherIv d.addr.node p.epoch p.count) p.header p.payload
  | none => p.payload

/-- A die sends a packet (R242, R354, R355): over the local path to its own node, else as a frame into the egress; data
packets enter `leaf`, others the control lane. -/
def route (p : Packet) (leaf : Nat) (queue inst : Option Nat) (d : Dev) : Dev :=
  if p.dstNode = d.addr.node then updPes p.die (fun x => { x with loop := x.loop ++ [p] }) d
  else
    sendFrame p.die {
      leaf := if isDataTyp p.typ then some leaf else none, queue := queue, inst := inst,
      bytes := frameLen p d, pkt := p, body := wireBody p d, octets := [] } d

/-- The packet of a message with given type, type bytes and payload. -/
def Msg.packet (m : Msg) (i typ : Nat) (retx : Bool) (tf payload : List Byte) (d : Dev) : Packet :=
  { typ := typ, flags := if retx then 4 else 0, op := m.op, tag := m.tag, ftag := m.ftag, key := m.key, len := m.len,
    off := m.off, shift := pktShift d, tf := tf, epoch := 0, count := 0, dstNode := m.node, die := i, payload := payload,
    ekey := none,
    dead := if m.wAt.isSome || typ == 1 || typ == 10 || m.isRead then
      some (m.wAt.getD (clock (fdie i) d) + 2 * (if m.wAt.isSome then m.res else residence d)) else none }

/-- A communicator. -/
def commAt (c : Nat) (d : Dev) : Option Comm := Tab.get d.colls.comms c

/-- The leaf of a queue, or the default leaf of its instance (R354). -/
def leafOf (leaf inst : Nat) (d : Dev) : Nat := if leaf = 0xFFFF then (instAt inst d).leaf0 else leaf

/-- The queue whose leaf the data of a message takes: its own, or its collective's. -/
def Msg.leafQueue (m : Msg) (d : Dev) : Option Nat :=
  match m.owner with
  | .desc q _ => some q
  | .contrib c _ _ _ => ((commAt c d).bind Comm.coll).map Coll.q
  | _ => none

/-- The leaf that a data packet of a message enters when it is first formed (R354, R361): its queue's at this moment. -/
def Msg.leafNow (m : Msg) (d : Dev) : Nat :=
  match (m.leafQueue d).bind (fun q => wqAt q d) with
  | some w => leafOf w.leaf m.inst d
  | none => m.leaf

/-- The leaf of the data packet at an offset (R354): a packet formed before goes where it went. -/
def Msg.leafAt (m : Msg) (off : Nat) (d : Dev) : Nat :=
  if m.sentTo ≤ off then m.leafNow d
  else (((Tab.keep m.leaves (fun o _ => decide (o ≤ off))).getLast?).map Prod.snd).getD (m.leafNow d)

/-- Sends one packet of a message; the flag says that it went out (R417). Each packet sent again is counted (R280). -/
def sendMsgPacket (i : Nat) (m : Msg) (typ : Nat) (retx : Bool) (tf payload : List Byte) (d : Dev) : Dev × Bool :=
  let r := encrypt i m.cipher (m.packet i typ retx tf payload d) d
  match r.1 with
  | none => (r.2, false)
  | some p => (when_ retx (countF .pesynRetx i 0 31 16 1) (route p m.leaf m.queue (some m.inst) r.2), true)

/-- Enters a message in its die's table under its sequence. -/
def addMsg (i : Nat) (m : Msg) (d : Dev) : Dev :=
  updPes i (fun p => { p with msgs := Tab.set p.msgs (tagSeq m.tag) m }) d

/-- What a message has put into the egress and onto the local path is taken back (R252, R291, R361). -/
def takeBack (i tag : Nat) (d : Dev) : Dev :=
  withdraw (fun f => f.pkt.tag == tag && f.pkt.die == i)
    (updPes i (fun p => { p with loop := p.loop.filter (fun k => k.tag != tag || !(k.typ == 1 || k.typ == 2 || k.typ == 10 || k.typ == 11)) }) d)

/-- A message is over: it goes, with the port it took and its frames that wait (R252, R361). -/
def endMsg (i seq : Nat) (d : Dev) : Dev :=
  match msgAt i seq d with
  | none => d
  | some m =>
    dropPort i m.tag (takeBack i m.tag (updPes i (fun p => { p with msgs := Tab.erase p.msgs seq }) d))

/-- A message whose packets were all handed on is over: frames that wait still leave, within its send window (R282). -/
def retireMsg (i seq : Nat) (d : Dev) : Dev :=
  match msgAt i seq d with
  | none => d
  | some m => dropPort i m.tag (updPes i (fun p => { p with msgs := Tab.erase p.msgs seq }) d)

/-- Ends every message, on both dies, that a test names. -/
def endMsgs (f : Msg → Bool) (d : Dev) : Dev :=
  each [0, 1] (fun i d =>
    each ((Tab.keep (pesAt i d).msgs (fun _ m => f m)).map Prod.fst) (fun seq d => endMsg i seq d) d) d

/-- Closes the local slots of READs that a test names (R247). -/
def closeReads (f : Nat × Nat → Bool) (d : Dev) : Dev :=
  each [0, 1] (fun i d => updPes i (fun p =>
    let gone : Nat → Slot → Bool := fun _ s => match s.read with
      | some x => f x
      | none => false
    { p with
      slots := Tab.keep p.slots (fun k s => !gone k s),
      grants := p.grants.filter (fun t => !((Tab.get p.slots t).map (gone t)).getD false) }) d) d

/-! ## Control messages of collectives (R311, R316, R317) -/

/-- Type bytes 38 to 47 of a collective packet: sender rank and epoch, signature, generation, sequence. -/
def collBytes (rank epoch sig gen seq : Nat) : List Byte :=
  natBE 2 (epoch % 16 * 4096 + rank % 4096) ++ natBE 2 sig ++ natBE 2 gen ++ natBE 4 seq

/-- Changes a communicator. -/
def updComm (c : Nat) (f : Comm → Comm) (d : Dev) : Dev :=
  { d with colls := { d.colls with comms := Tab.modify d.colls.comms c f } }

/-- FABRIC_TAG and CIPHER_SLOT of a domain. -/
def domKeys (dom : Nat) (d : Dev) : Nat × Nat :=
  match Tab.get d.rem.doms dom with
  | some x => (x.tag, x.slot)
  | none => (0, 0xFFFF)

/-- A fresh message of a communicator to a rank, its type fields left to the caller. -/
def collMsg (i : Nat) (x : Comm) (k : Coll) (rank : Nat) (owner : MsgOwner) (tag epoch : Nat) (d : Dev) : Msg :=
  let ks := domKeys x.domain d
  { owner := owner, inst := x.inst, gen := (instAt x.inst d).gen, ctx := 0xFFFF, leaf := leafOf k.leaf x.inst d, typ := 11,
    op := k.op, node := x.members.getD rank 0, tag := tag, ftag := ks.1, key := x.id, len := 16, off := 0, imm := 0,
    cipher := ks.2, coll := collBytes x.rank epoch (crc16 k.sig) x.gen x.seq, frags := [], bytes := [],
    state := .awaiting, admitted := true, begun := true, wAt := some (clock (fdie i) d), answerAt := clock (fdie i) d, interval := rto d, timerAt := clock (fdie i) d,
    busy := 0, lastBusy := false, backAt := none, granted := 0, sentTo := 16, leaves := [], res := residence d }

/-- Sends a TYPE 0xB message (R317) from die `i`: KIND, STATUS, REDONE, then 12 kind bytes. The flag says that it went
out; a message that finds its key slot EMPTY ends (R417). -/
def sendCtrl (i : Nat) (x : Comm) (k : Coll) (rank : Nat) (owner : MsgOwner) (epoch : Nat) (payload : List Byte)
    (d : Dev) : Dev × Bool :=
  let s := takeSeq i d
  let m := { collMsg i x k rank owner (mkTag d.addr.node s.1) epoch s.2 with bytes := payload }
  let r := sendMsgPacket i m 11 false (tfData 0 16 m.coll) payload (addMsg i m s.2)
  if r.2 then r else (retireMsg i s.1 r.1, false)

/-- The ranks of a communicator but its own. -/
def others (x : Comm) : List Nat := (List.range x.n).filter (fun r => r != x.rank)

/-- The home die of a communicator (R300). -/
def homeDie (c : Nat) : Nat := c % 2

/-- Sends one message to each of a list of ranks: the flag says that every one went out (R417). -/
def sendEach (f : Nat → Dev → Dev × Bool) : List Nat → Dev → Dev × Bool
  | [], d => (d, true)
  | r :: l, d =>
    let x := f r d
    let y := sendEach f l x.1
    (y.1, x.2 && y.2)

/-- Sends a SEAL to every other member (R327, R331): the flag says that every one went out. -/
def sendSeals (c : Nat) (x : Comm) (k : Coll) (status redone : Nat) (d : Dev) : Dev × Bool :=
  sendEach (fun r d =>
    let cnt := if k.op = 0x24 then ((k.vtab[r]?).map VEnt.sendCnt).getD 0 else 0
    sendCtrl (homeDie c) x k r (.seal c r) 0
      ([3] ++ natLE 1 status ++ natLE 2 (min 65535 redone) ++ natLE 4 cnt ++ List.replicate 8 0) d) (others x) d

end Sys2Proof.Machine
end

