-- ==== Sys2Proof/Machine/Stop.lean ====
section
/-! DEFINITION. Stopping work: the end of a member's part of a collective (R331), what a queue's ERROR stops and flushes
(R252), launches that stop, and the completion of admitted descriptors. -/

namespace Sys2Proof.Machine

/-! ## Bricks -/

/-- A brick's record. -/
def brickAt (b : Nat) (d : Dev) : Brick :=
  Tab.getD d.bricks.bricks b
    { rot := [], cur := none, coming := none, edge := 0, since := 0, began := 0, late := false, passed := 0,
      failing := none, decided := 0 }

/-- Changes a brick. -/
def updBrick (b : Nat) (f : Brick → Brick) (d : Dev) : Dev :=
  { d with bricks := { d.bricks with bricks := Tab.set d.bricks.bricks b (f (brickAt b d)) } }

/-- The key of the context of a launch's brick: launch × 1024 + index in the group. -/
def ctxKey (l g : Nat) : Nat := l * 1024 + g

/-- The launch of a context key. -/
def keyLaunch (k : Nat) : Nat := k / 1024

/-- A retirement under way completes even when its context is discarded (R96, R395); a retry does not. -/
def retiring (f : Option (Nat × Nat × Bool)) : Option (Nat × Nat × Bool) :=
  match f with
  | some (u, p, true) => some (u, p, true)
  | _ => none

/-- A launch's bricks stop, their contexts are discarded and their grants return (R130). A slice never ends during a retirement (R96): such a
brick keeps its grant until that completes. -/
def dropLaunch (l : Nat) (d : Dev) : Dev :=
  match Tab.get d.bricks.launches l with
  | none => d
  | some x =>
    let d1 := each x.bricks (fun b d =>
      let r := brickAt b d
      let mine : Option Nat → Bool := fun o => match o with
        | some k => keyLaunch k == l
        | none => false
      let d2 := updBrick b (fun r => { r with
        rot := r.rot.filter (fun k => keyLaunch k != l), cur := if mine r.cur && (retiring r.failing).isNone then none else r.cur,
        coming := if mine r.coming then none else r.coming,
        failing := if mine r.cur || mine r.coming then retiring r.failing else r.failing,
        late := r.late && !mine r.cur }) d
      when_ ((mine r.cur || mine r.coming) && (retiring r.failing).isNone) (returnGrant (.brick b)) d2) d
    let d2 := leaveFaults (fun w => match w with
      | .brick k _ => keyLaunch k == l
      | _ => false) d1
    idleDdr { d2 with
      tiers := { d2.tiers with staged := d2.tiers.staged.filter (fun t => keyLaunch t.key != l) },
      bricks := { d2.bricks with
        ctxs := Tab.keep d2.bricks.ctxs (fun k _ => keyLaunch k != l), launches := Tab.erase d2.bricks.launches l } }

/-! ## The completion of an admitted descriptor -/

/-- An admitted descriptor that has not finished. -/
def descAt (q idx : Nat) (d : Dev) : Option Desc :=
  (wqAt q d).bind (fun w => w.flight.find? (fun x => x.idx == idx && x.done.isNone))

/-- Says of an admitted descriptor whether data of it went to host memory with no flush read since (R384). -/
def markHost (q idx : Nat) (b : Bool) (d : Dev) : Dev :=
  updWq q (fun w => { w with flight := w.flight.map (fun x => if x.idx = idx then { x with toHost := b } else x) }) d

/-- The module sends a flush read for a descriptor (R384), in the class of the data that it follows; its number comes from the count of
host reads. -/
def sendFlush (cls fn inst q idx : Nat) (d : Dev) : Dev :=
  let id := d.link.nextRead
  sendLink ⟨cls, fn, inst, some (q, idx), .flush id⟩ { d with link := { d.link with
    flushes := Tab.set d.link.flushes id (q, idx, clock iodie d), nextRead := id + 1 } }

/-- The end of a descriptor that waits for a flush read. -/
def endingOf (q idx : Nat) (d : Dev) : Option Behind := d.link.behind.find? (fun b => b.q == q && b.idx == idx)

/-- Has a descriptor failed, with its entry still behind a flush read? -/
def failing (q idx : Nat) (d : Dev) : Bool := (endingOf q idx d).any (fun b => b.status != 0)

/-- An admitted descriptor finishes now with the fields of its entry (R209, R210). -/
def finishNow (q idx status result bytes detail : Nat) (d : Dev) : Dev :=
  match descAt q idx d with
  | none => d
  | some x =>
    let e := workEntry q idx x.op status result bytes detail x.gen
    match x.tile with
    | none => finish q idx e d
    | some t => finish q idx (if status = 0 then { e with kind := silentKind } else e) (tileEnds q idx t status d)

/-- Finishes an admitted descriptor (R209, R210): behind a flush read where it brought data to host memory (R384), but BOUND_EXPIRED at once,
since its entry is written no later than E (R65). -/
def finishDesc (q idx status result bytes detail : Nat) (d : Dev) : Dev :=
  match wqAt q d, descAt q idx d with
  | some w, some x =>
    if x.toHost && status != 4 && hostOpen d then
      if (endingOf q idx d).isSome then d
      else
        sendFlush (if x.op = 0x40 then 3 else 1 + q % 2) w.inst w.inst q idx
          { d with link := { d.link with behind := d.link.behind ++ [⟨d.link.nextRead, q, idx, status, result, bytes, detail⟩] } }
    else finishNow q idx status result bytes detail d
  | _, _ => d

/-- DETAIL of a remote or host DMA operation (R248). -/
def originDetail (firstErr origin : Nat) : Nat := firstErr * 256 + origin

/-- Stops everything that works for a descriptor: messages, local slots, host DMA with what of it waits for the link (R387), its launch,
its fault waits (R252). -/
def stopDesc (q idx : Nat) (d : Dev) : Dev :=
  let d1 := endMsgs (fun m => decide (m.owner = .desc q idx)) d
  let d2 := closeReads (fun x => x == (q, idx)) d1
  let mine : Dma → Bool := fun x => x.q == q && x.idx == idx
  let d3 := { d2 with link := { d2.link with
      dmas := Tab.keep d2.link.dmas (fun _ x => !mine x),
      reads := Tab.keep d2.link.reads (fun _ r => match r.why with
        | .piece a b _ => !(a == q && b == idx)
        | _ => true),
      behind := d2.link.behind.filter (fun b => !(b.q == q && b.idx == idx)),
      waiting := d2.link.waiting.filter (fun t => t.own != some (q, idx)) } }
  let d4 := leaveFaults (fun w => decide (w = .desc q idx)) d3
  each ((Tab.keep d4.bricks.launches (fun _ l => l.q == q && l.idx == idx)).map Prod.fst) dropLaunch d4

/-! ## Collectives that end (R331) -/

/-- The units that a collective's lanes are (R45, R312). -/
def Coll.laneUnits (k : Coll) : List UnitId := k.lanes0.map (fun l => .lane 0 l) ++ k.lanes1.map (fun l => .lane 1 l)

/-- Messages of a communicator's collective other than SEALs. -/
def ofColl (c : Nat) (m : Msg) : Bool :=
  match m.owner with
  | .contrib x _ _ _ => x == c
  | .enter x _ => x == c
  | .restart x _ _ => x == c
  | _ => false

/-- Does a message belong to a communicator in any way? -/
def ofComm (c : Nat) (m : Msg) : Bool :=
  ofColl c m || (match m.owner with
    | .seal x _ => x == c
    | _ => false)

/-- RESULT of a collective's entry (R328): its own restarts, and those of all members. -/
def Coll.result (k : Coll) : Nat :=
  min 65535 k.redone + 65536 * min 65535 (k.redone + (k.seals.map Prod.snd).sum)

/-- The queues whose heads wait for a communicator's COLL_SEQ (R538). -/
def commWaiters (c : Nat) (d : Dev) : List Nat :=
  (d.q.wqs.filter (fun p => decide (p.2.state = 0) && (match p.2.head with
    | some h =>
      h.slot.isSome && h.tile.isNone && h.bad.isNone && decide (0x20 ≤ h.opcode ∧ h.opcode ≤ 0x26) && fieldLE h.bytes 2 2 == c
    | none => false))).map Prod.fst

/-- The heads that wait for a communicator's COLL_SEQ complete at once (R303, R307, R538). -/
def refuseWaiters (c status detail : Nat) (d : Dev) : Dev :=
  each (commWaiters c d) (fun q => completeHead q status 0 0 detail) d

/-- A member's part ends with a status other than OK (R331): it stops sending, sends failure SEALs where it had sent an
ENTER, completes, and its communicator becomes BROKEN; `rank` and `reported` go to DETAIL (R328). -/
def stopPart (c status rank : Nat) (reported : Bool) (d : Dev) : Dev :=
  match commAt c d with
  | none => d
  | some x =>
    match x.coll with
    | none => d
    | some k =>
      let d1 := leaveFaults (fun w => decide (w = .coll c)) (endMsgs (ofColl c) d)
      let d2 := if k.entered then (sendSeals c x k status k.redone d1).1 else d1
      let d3 := updComm c (fun x => { x with coll := none, broken := x.broken || k.entered }) d2
      let d4 := each (k.seqs.map Prod.snd) (fun n => dropPort (n % 2) (mkTag d.addr.node n)) (each (k.laneUnits ++ [.lanes 0 c, .lanes 1 c]) returnGrant d3)
      let det := rank % 4096 + (if reported then 4096 else 0)
      if k.admitted then finishDesc k.q k.idx status k.result 0 det d4
      else completeHead k.q status k.result 0 det d4

/-- A part ends, and where that makes its communicator BROKEN, the heads that wait for their turn complete with ADMISSION_REFUSED
at that moment (R307, R331, R538). -/
def endPart (c status rank : Nat) (reported : Bool) (d : Dev) : Dev :=
  let d1 := stopPart c status rank reported d
  match commAt c d1 with
  | some x => when_ x.broken (refuseWaiters c 0xE (x.rank % 4096)) d1
  | none => d1

/-- The communicator whose collective a descriptor is. -/
def collOf (q idx : Nat) (d : Dev) : Option Nat :=
  (d.colls.comms.find? (fun p => match p.2.coll with
    | some k => k.q == q && k.idx == idx && k.admitted
    | none => false)).map Prod.fst

/-! ## ERROR (R252) -/

/-- Has E of an admitted descriptor passed (R65)? -/
def expired (q idx : Nat) (d : Dev) : Bool :=
  match descAt q idx d with
  | some x => decide (x.expiry ≤ clock (x.die q) d)
  | none => false

/-- Has the send window of a message of fabric die `i` ended (R282)? -/
def windowOver (i : Nat) (m : Msg) (d : Dev) : Bool :=
  match m.wAt with
  | some w => decide (w + 2 * m.res ≤ clock (fdie i) d)
  | none => false

/-- The messages, with their dies, that a test names and whose send windows have ended. -/
def overMsgs (f : Msg → Bool) (d : Dev) : List (Nat × Msg) :=
  [0, 1].flatMap (fun i => ((pesAt i d).msgs.map Prod.snd).filterMap (fun m => if f m && windowOver i m d then some (i, m) else none))

/-- The status and ORIGIN with which a descriptor fails at this very moment whatever befalls its queue: E passes, or a send window
of its messages ends (R66, R252, R282). -/
def ownFailure (f : Msg → Bool) (q idx : Nat) (d : Dev) : Option (Nat × Nat) :=
  if expired q idx d then some (4, 4)
  else
    match overMsgs f d with
    | [] => none
    | (_, m) :: _ => some (if m.lastBusy then (0xD, 3) else (5, 4))

/-- Counts the messages given up (R282). -/
def countOver (f : Msg → Bool) (d : Dev) : Dev := each (overMsgs f d) (fun x => countF .pesynRetx x.1 0 15 0 1) d

/-- An admitted descriptor behind a failing one is flushed (R252), but keeps its own status where it fails at the same moment or failed
before. -/
def flushDesc (q firstErr idx : Nat) (d : Dev) : Dev :=
  if failing q idx d then d
  else
  match collOf q idx d with
  | some c =>
    let own := ownFailure (ofColl c) q idx d
    endPart c ((own.map Prod.fst).getD 1) (((commAt c d).map Comm.rank).getD 0) false (when_ (own.any (fun x => x.1 != 4)) (countOver (ofColl c)) d)
  | none =>
    let mine := fun (m : Msg) => decide (m.owner = .desc q idx)
    match ownFailure mine q idx d with
    | some (st, origin) => finishDesc q idx st 0 0 (originDetail 0 origin) (stopDesc q idx (when_ (st != 4) (countOver mine) d))
    | none => finishDesc q idx 1 0 0 (originDetail firstErr 5) (stopDesc q idx d)

/-- FIRST_ERROR for a descriptor (R252): its ring index, or 0xFFFF in a brick-fed queue. -/
def WQ.firstOf (w : WQ) (idx : Nat) : Nat := if w.feed = 2 then 0xFFFF else w.ix idx

/-- A queue is in ERROR from a descriptor on, whose FIRST_ERROR is given: it sends nothing more (R252). -/
def enterError (q idx first : Nat) (d : Dev) : Dev :=
  withdraw (fun f => f.queue == some q)
    (updWq q (fun w => { w with state := 1, firstErr := first, errIdx := idx, errAt := clock (qDie q) d }) d)

/-- The entry of a flushed descriptor names another FIRST_ERROR (R248, R252). -/
def Entry.renamed (first : Nat) (e : Entry) : Entry :=
  if e.status = 1 ∧ e.detail % 256 = 5 then { e with detail := originDetail first 5 } else e

/-- A queue enters ERROR because of a descriptor (R252): it sends nothing more, and every admitted descriptor behind it is flushed. Where one
that is earlier in the ring fails at the moment of the ERROR, FIRST_ERROR names it. -/
def queueError (q idx : Nat) (d : Dev) : Dev :=
  match wqAt q d with
  | none => d
  | some w =>
    let first := w.firstOf idx
    let later := ((w.flight.dropWhile (fun x => x.idx != idx)).drop 1).filter (fun x => x.done.isNone)
    if w.state = 0 then each (later.map Desc.idx) (flushDesc q first) (enterError q idx first d)
    else if w.state = 1 ∧ idx < w.errIdx ∧ w.errAt = clock (qDie q) d then
      each (later.map Desc.idx) (flushDesc q first)
        (updWq q (fun w => { w with flight := w.flight.map (fun x => { x with done := x.done.map (Entry.renamed first) }) })
          (enterError q idx first d))
    else d

/-- Does a failure of an opcode put its queue into ERROR (R251, R252, R331, R380)? -/
def opFails (op : Nat) : Bool := decide (0x10 ≤ op ∧ op ≤ 0x3F)

/-- Does BOUND_EXPIRED take the place of a failure of an admitted descriptor now (R65, R66)? After E every failure is BOUND_EXPIRED; at
the very moment of E it takes the place of PEER_UNREACHABLE and REMOTE_BUSY, and every other failure keeps its status. -/
def outdone (q idx status : Nat) (d : Dev) : Bool :=
  match descAt q idx d with
  | some x =>
    decide (x.expiry < clock (x.die q) d) || (decide (x.expiry = clock (x.die q) d) && (status == 5 || status == 0xD))
  | none => false

/-- An admitted descriptor fails (R251): its work stops, its entry carries the status and ORIGIN, and its queue enters
ERROR. The flush comes first, so that entries behind it are ready when it is written. -/
def failDesc (q idx status origin : Nat) (d : Dev) : Dev :=
  match (if failing q idx d then none else descAt q idx d) with
  | none => d
  | some x =>
    let late := outdone q idx status d
    let d1 := stopDesc q idx d
    let d2 := when_ (opFails x.op) (queueError q idx) d1
    finishDesc q idx (if late then 4 else status) 0 0 (if opFails x.op then originDetail 0 (if late then 4 else origin) else 0) d2

/-- Was the OWN write of an admitted descriptor discarded (R148, R160)? -/
def spoilt (q idx : Nat) (d : Dev) : Bool := ((descAt q idx d).map Desc.spoilt).getD false

/-- An admitted descriptor ends with OK, with BOUND_EXPIRED where its E has passed (R65, R66), or with INTERNAL where its OWN write was
discarded (R148, R160; log entry 156). -/
def okDesc (q idx result bytes : Nat) (d : Dev) : Dev :=
  if expired q idx d then failDesc q idx 4 4 d
  else if spoilt q idx d then failDesc q idx 0xF 2 d
  else finishDesc q idx 0 result bytes 0 (leaveFaults (fun w => decide (w = .desc q idx)) d)

/-- A collective's part fails (R330, R331), by BOUND_EXPIRED as its own finding once E has passed (R65, R328), and its queue enters ERROR where it was admitted. -/
def failPart (c status rank : Nat) (reported : Bool) (d : Dev) : Dev :=
  match (commAt c d).bind Comm.coll with
  | none => d
  | some k =>
    let late := k.admitted && outdone k.q k.idx status d
    endPart c (if late then 4 else status) (if late then ((commAt c d).map Comm.rank).getD 0 else rank) (reported && !late) (when_ k.admitted (queueError k.q k.idx) d)

/-- A part fails by this member's own finding: FAILED_RANK is its own rank. -/
def failOwn (c status : Nat) (d : Dev) : Dev := failPart c status (((commAt c d).map Comm.rank).getD 0) false d

/-- Completes a head at once with ORIGIN 1 for a remote or host DMA operation (R241, R248). -/
def refuseHead (q status : Nat) (d : Dev) : Dev :=
  let op := (((wqAt q d).bind WQ.head).map Head.opcode).getD 0
  completeHead q status 0 0 (if (0x10 ≤ op ∧ op ≤ 0x1F) ∨ (0x30 ≤ op ∧ op ≤ 0x3F) then originDetail 0 1 else 0) d

end Sys2Proof.Machine
end

