-- ==== Sys2Proof/Machine/PesynTx.lean ====
section
/-! DEFINITION. The initiator of Pesyn messages (R242, R249, R274 to R284, R291, R292): reading the source, sending what may be
sent, timers and backoff, and what ends a message. -/

namespace Sys2Proof.Machine

/-! ## How a message ends -/

/-- A message fails with a status (R282, R283, R292, R330): its descriptor, or its collective's part. -/
def failMsg (i seq status origin : Nat) (d : Dev) : Dev :=
  match msgAt i seq d with
  | none => d
  | some m =>
    let d1 := endMsg i seq d
    match m.owner with
    | .desc q idx =>
      if m.admitted then failDesc q idx status origin d1
      else
        -- a REQUEST that is not answered counts as admitted at that moment (R283)
        (match (wqAt q d1).bind WQ.head with
         | some h => if h.idx = idx then failDesc q idx status origin (admitHead q (clock (fdie i) d1 + 1) 0 d1) else d1
         | none => d1)
    | .contrib c _ _ _ => failOwn c status d1
    | .enter c _ =>
      -- an ENTER that fails counts its collective as admitted (R311)
      (match (commAt c d1).bind Comm.coll with
       | some k =>
         if k.admitted then failOwn c status d1
         else failOwn c status (updComm c (fun x => { x with coll := some { k with admitted := true } })
           (admitHead k.q (clock (fdie (homeDie c)) d1 + 1) 0 d1))
       | none => d1)
    | .restart c _ _ => failOwn c status d1
    | .seal c _ =>
      -- a failure SEAL belongs to no collective any more (R331)
      (match commAt c d1 with
       | some x => if x.coll.isSome && (m.coll.drop 4) == natBE 2 x.gen ++ natBE 4 x.seq then failOwn c status d1 else d1
       | none => d1)

/-- A message finds its key slot EMPTY (R417): it ends with ACCESS. An admitted descriptor then fails; ORIGIN 2 for it is a DESIGN
CHOICE (log entry 131). A head that is not admitted completes, and its queue stays READY. -/
def keyGone (i seq : Nat) (d : Dev) : Dev :=
  match msgAt i seq d with
  | none => d
  | some m =>
    if m.admitted then failMsg i seq 3 2 d
    else
      match m.owner with
      | .desc q idx =>
        if ((wqAt q d).bind WQ.head).any (fun h => h.idx == idx) then refuseHead q 3 (endMsg i seq d) else endMsg i seq d
      | .contrib c _ _ _ => failOwn c 3 (endMsg i seq d)
      | .enter c _ => failOwn c 3 (endMsg i seq d)
      | .restart c _ _ => failOwn c 3 (endMsg i seq d)
      | .seal _ _ => endMsg i seq d

/-- Is the queue of a message in ERROR, so that it sends nothing more (R252)? -/
def Msg.halted (m : Msg) (d : Dev) : Bool :=
  match m.queue.bind (fun q => wqAt q d) with
  | some w => decide (w.state = 1) || w.muted
  | none => false

/-- Is it later than W + 2 × R of a message (R282)? -/
def windowPast (i : Nat) (m : Msg) (d : Dev) : Bool :=
  match m.wAt with
  | some w => decide (w + 2 * m.res < clock (fdie i) d)
  | none => false

/-- May no packet of a message be sent now (R252, R282)? -/
def Msg.mute (m : Msg) (i : Nat) (d : Dev) : Bool := m.halted d || windowPast i m d

/-! ## The source (R178, R256, R280) -/

/-- The transport engine that works for a message (R164): by its queue or communicator. -/
def Msg.engine (m : Msg) : Nat :=
  match m.owner with
  | .desc q _ => q / 2 % 16
  | .contrib c _ _ _ => c / 2 % 16
  | .enter c _ => c / 2 % 16
  | .restart c _ _ => c / 2 % 16
  | .seal c _ => c / 2 % 16

/-- The engine that translates a message's source (R164): a collective's sequencer for a contribution. -/
def msgEng (i : Nat) (m : Msg) (d : Dev) : Eng :=
  match m.owner with
  | .contrib c _ _ _ => .coll i ((((commAt c d).bind Comm.coll).bind Coll.seqr).getD 0)
  | _ => .pesyn i m.engine

/-- What waits on a fault of a message's source. -/
def Msg.waiter (m : Msg) : Waiter :=
  match m.owner with
  | .desc q idx => .desc q idx
  | .contrib c _ _ _ => .coll c
  | .enter c _ => .coll c
  | .restart c _ _ => .coll c
  | .seal c _ => .coll c

/-- Bytes `off` up to `off + n` of a message's source. -/
def sourceBytes (i : Nat) (m : Msg) (off n : Nat) (d : Dev) : Except (XRes × Nat) (List Byte) :=
  if m.ctx = 0xFFFF then .ok ((m.bytes.drop off).take n)
  else
    match mapRanges m.ctx (sliceFrags m.frags off n) .read (msgEng i m d) d with
    | .error x => .error x
    | .ok ps =>
      match readPieces d ps with
      | .ok l => .ok l
      | .error a => .error (.uncorrectable a, 0)

/-- Type bytes of a data packet of a message. -/
def Msg.dataTf (m : Msg) (off n : Nat) : List Byte :=
  tfData off n (if m.typ = 1 then (if m.op = 0x11 then immBytes m.imm else zero10) else m.coll)

/-- Forms and sends the data packet at an offset (R178, R181, R247): the flag says that sending may go on. -/
def sendData (i seq off : Nat) (retx : Bool) (d : Dev) : Dev × Bool :=
  match msgAt i seq d with
  | none => (d, false)
  | some m =>
    let n := min (pktSize d) (m.len - off)
    let fr := sliceFrags m.frags off n
    if m.mute i d then (d, false)
    else
    match sourceBytes i m off n d with
    | .ok l =>
      let d1 := if m.ctx = 0xFFFF then d else useRanges m.ctx fr .read (msgEng i m d) d
      let lf := m.leafAt off d
      let r := sendMsgPacket i { m with leaf := lf } m.typ (retx && decide (off < m.sentTo)) (m.dataTf off n) l d1
      if r.2 then
        (updMsg i seq (fun m => { m with
          sentTo := max m.sentTo (off + n), leaves := if m.sentTo ≤ off then Tab.set m.leaves off lf else m.leaves,
          wAt := if m.wAt.isSome then m.wAt else some (clock (fdie i) d),
          res := if m.wAt.isSome then m.res else residence d,
          begun := true, answerAt := if m.begun then m.answerAt else clock (fdie i) d, timerAt := clock (fdie i) d }) r.1, true)
      else (keyGone i seq r.1, false)
    | .error (.notMapped lv, va) =>
      (match raiseFault m.ctx va lv .read (msgEng i m d) m.waiter d with
       | .ok d1 => (d1, false)
       | .error d1 => (failMsg i seq 8 2 d1, false))
    | .error (.uncorrectable a, _) => (failMsg i seq 0xF 2 (noteUe (.dev a) 3 d), false)
    | .error (r, _) => (failMsg i seq (xStatus r) 2 d, false)

/-- Sends the data packets whose whole payload lies from `off` to `limit`, in offset order. -/
def sendUpTo (i seq limit : Nat) (retx : Bool) : Nat → Nat → Dev → Dev
  | 0, _, d => d
  | fuel + 1, off, d =>
    match msgAt i seq d with
    | none => d
    | some m =>
      let n := min (pktSize d) (m.len - off)
      if m.len ≤ off || limit < off + n then d
      else
        let r := sendData i seq off retx d
        if r.2 then sendUpTo i seq limit retx fuel (off + n) r.1 else r.1

/-- Most packets that a message has (R263, R266). -/
def maxPackets : Nat := 16384

/-! ## What a message may send now -/

/-- Is a flag write held by an earlier write of its path that is not acknowledged (R249)? -/
def flagHeld (m : Msg) (d : Dev) : Bool :=
  match m.owner with
  | .desc q idx =>
    if m.op = 0x11 || (m.op = 0x10 && m.imm = 1) then
      (match wqAt q d with
       | none => false
       | some w =>
         let earlier := (w.flight.takeWhile (fun x => x.idx != idx)).map Desc.idx
         (List.range 2).any (fun i => (pesAt i d).msgs.any (fun p =>
           (p.2.op == 0x10 || p.2.op == 0x11) && p.2.node == m.node &&
           (match p.2.owner with
            | .desc a b => a == q && earlier.contains b
            | _ => false))))
    else false
  | _ => false

/-- How far a message may send (R274, R276): all of it, or below the end of its highest grant. -/
def Msg.limit (m : Msg) : Nat := if m.sched then m.granted else m.len

/-- Sends what a message has not sent yet and may send now (R249, R276, R291). -/
def pump (i seq : Nat) (d : Dev) : Dev :=
  match msgAt i seq d with
  | none => d
  | some m =>
    if !m.admitted || m.isRead || m.backAt.isSome || decide (m.state = .requesting) || flagHeld m d then d
    else sendUpTo i seq m.limit false maxPackets m.sentTo d

/-- The REQUEST of a scheduled write, of a scheduled contribution, or of a READ (R265, R276, R279, R316). -/
def sendRequest (i seq : Nat) (retx : Bool) (d : Dev) : Dev :=
  match msgAt i seq d with
  | none => d
  | some m =>
    let chunk := max 1 (getF .pesynGrant i 0 23 16 d) * 32768
    let first := min m.len (min chunk (64 * pktSize d))
    let tf := if m.isRead then natBE 4 first ++ List.replicate 12 0
      else List.replicate 6 0 ++ (if m.typ = 10 then m.coll else if m.op = 0x11 then immBytes m.imm else zero10)
    let r := sendMsgPacket i m 2 retx tf [] d
    if m.mute i d then d
    else if r.2 then
      updMsg i seq (fun m => { m with
        begun := true, answerAt := if m.begun then m.answerAt else clock (fdie i) d, timerAt := clock (fdie i) d,
        wAt := if m.isRead then (if m.wAt.isSome then m.wAt else some (clock (fdie i) d)) else m.wAt,
        res := if m.isRead && m.wAt.isNone then residence d else m.res }) r.1
    else keyGone i seq r.1

/-- A message starts (R292): an unscheduled one sends, a scheduled one and a READ sends its REQUEST. A flag write sends
nothing while R249 holds it back. -/
def startMsg (i seq : Nat) (d : Dev) : Dev :=
  match msgAt i seq d with
  | none => d
  | some m =>
    if flagHeld m d then d
    else if m.sched || m.isRead then sendRequest i seq false d
    else pump i seq d

/-- An earlier write of a path was acknowledged or has gone: flag writes behind it go on (R249). -/
def releaseFlags (i q : Nat) (d : Dev) : Dev :=
  each ((Tab.keep (pesAt i d).msgs (fun _ m => m.queue == some q && !m.begun && !m.isRead)).map Prod.fst) (fun s d => startMsg i s d) d

/-! ## The unscheduled window (R274, R275) -/

/-- WIN_MIN, WIN_INIT and WIN_MAX in bytes, as R299 takes them. -/
def winMin (d : Dev) : Nat := max 1 (getF .pesynWindow 0 0 7 0 d) * 4096
/-- W at queue creation. -/
def winInit (d : Dev) : Nat := max (winMin d) (getF .pesynWindow 0 0 15 8 d * 4096)
/-- The largest W. -/
def winMax (d : Dev) : Nat := max (winInit d) (getF .pesynWindow 0 0 23 16 d * 4096)

/-- A window after an event: size, bytes acknowledged since the last decrease, whether one has happened. -/
def clampWin (d : Dev) (w : Nat) : Nat := min (winMax d) (max (winMin d) w)

/-- A window after the ACK of an unscheduled message (R275). -/
def winAck (ece : Bool) (len : Nat) (w : Nat × Nat × Bool) (d : Dev) : Nat × Nat × Bool :=
  let acked := w.2.1 + len
  if ece then
    if !w.2.2 || w.1 ≤ acked then (clampWin d (w.1 / 2), 0, true) else (w.1, acked, w.2.2)
  else (clampWin d (w.1 + 8192 * len / max 1 w.1), acked, w.2.2)

/-- Applies a change to the window that a message counts in: its queue's, or its communicator's (R274, R315). -/
def updWin (m : Msg) (f : Nat × Nat × Bool → Nat × Nat × Bool) (d : Dev) : Dev :=
  if m.sched || m.isRead || m.typ = 11 then d
  else
    match m.owner with
    | .desc q _ => updWq q (fun w => let r := f (w.win, w.winAcked, w.winCut)
        { w with win := r.1, winAcked := r.2.1, winCut := r.2.2 }) d
    | .contrib c _ _ _ => updComm c (fun w => let r := f (w.win, w.winAcked, w.winCut)
        { w with win := r.1, winAcked := r.2.1, winCut := r.2.2 }) d
    | _ => d

/-- A timeout or REMOTE_BUSY on an unscheduled message: W falls to WIN_MIN (R275). -/
def winFall (m : Msg) (d : Dev) : Dev := updWin m (fun _ => (winMin d, 0, true)) d

/-- O of a queue: the bytes of its admitted unscheduled writes that have not completed (R274). -/
def outstanding (q : Nat) (d : Dev) : Nat :=
  ((pesAt (q % 2) d).msgs.map (fun p =>
    if p.2.queue == some q && p.2.admitted && !p.2.sched && !p.2.isRead then p.2.len else 0)).sum

/-! ## Timers (R280, R282, R283, R291) -/

/-- A slot of a local READ, by its message's tag. -/
def readSlot (i tag : Nat) (d : Dev) : Option Slot := Tab.get (pesAt i d).slots tag

/-- The lowest run of missing packets of a slot below `limit`: offset and length (R281). -/
def missingRun (s : Slot) (limit : Nat) : Option (Nat × Nat) :=
  let p := 2 ^ s.shift
  let got := fun o => o < s.base || s.bits.contains ((o - s.base) / p)
  let offs := (List.range (ceilDiv (min limit s.len) p)).map (fun k => k * p)
  match offs.dropWhile got with
  | [] => none
  | o :: r =>
    let run := (o :: r).takeWhile (fun x => !got x)
    some (o, min (min limit s.len) (o + run.length * p) - o)

/-- A GRANT of a READ, from its initiator to the target (R279). -/
def sendReadGrant (i seq off len : Nat) (retx : Bool) (d : Dev) : Dev :=
  match msgAt i seq d with
  | none => d
  | some m =>
    let r := sendMsgPacket i m 3 retx (tfRange off len) [] d
    if m.mute i d then d else if r.2 then r.1 else keyGone i seq r.1

/-- Asks again for what a READ's slot misses: a GRANT for every granted range not yet received (R280). -/
def regrantRead (i seq : Nat) : Nat → Nat → Dev → Dev
  | 0, _, d => d
  | fuel + 1, limit, d =>
    match msgAt i seq d with
    | none => d
    | some m =>
      (match readSlot i m.tag d with
       | none => d
       | some s =>
         let p := 2 ^ s.shift
         let got := fun o => o < s.base || s.bits.contains ((o - s.base) / p)
         let offs := ((List.range (ceilDiv (min limit s.len) p)).map (fun k => k * p)).filter (fun o => !got o)
         (match offs.reverse with
          | [] => d
          | o :: r =>
            let run := (o :: r).zipIdx.takeWhile (fun x => x.1 + x.2 * p == o)
            let lo := o - (run.length - 1) * p
            sendReadGrant i seq lo (min (min limit s.len) (o + p) - lo) true (regrantRead i seq fuel lo d)))

/-- Sends again what R280 names. -/
def resendAll (i seq : Nat) (d : Dev) : Dev :=
  match msgAt i seq d with
  | none => d
  | some m =>
    if m.typ = 11 then
      let r := sendMsgPacket i m 11 true (tfData 0 16 m.coll) m.bytes d
      if m.mute i d then d else if r.2 then r.1 else keyGone i seq r.1
    else if m.isRead then
      (match readSlot i m.tag d with
       | some s => if s.count = 0 then sendRequest i seq true d else regrantRead i seq 8192 (s.grantOff + s.grantLen) d
       | none => sendRequest i seq true d)
    else if m.sched then sendRequest i seq true d
    else if flagHeld m d then d
    else sendUpTo i seq m.len true maxPackets 0 d

/-- A retransmission interval passes without an answer (R275, R280). -/
def retransmitTimeout (i seq : Nat) (d : Dev) : Dev :=
  match msgAt i seq d with
  | none => d
  | some m =>
    if decide (clock (fdie i) d < m.timerAt + m.interval) || m.backAt.isSome || !m.begun then d
    else
      resendAll i seq (updMsg i seq (fun m => { m with interval := min (rtoMax d) (2 * m.interval), timerAt := clock (fdie i) d })
        (winFall m d))

/-- A message's send window is over (R282): REMOTE_BUSY where that was the last answer, else PEER_UNREACHABLE. An answer at the very
moment at which it ends still counts (R298), so the message ends only after that moment. -/
def sendWindowEnd (i seq : Nat) (d : Dev) : Dev :=
  match msgAt i seq d with
  | none => d
  | some m =>
    if windowPast i m d && (match m.owner with
        | .enter _ _ => false
        | _ => true) then
      failMsg i seq (if m.lastBusy then 0xD else 5) (if m.lastBusy then 3 else 4) (countF .pesynRetx i 0 15 0 1 d)
    else d

/-- 2 × R pass without an answer of any kind to a REQUEST (R283), or to an ENTER (R311). -/
def requestTimeout (i seq : Nat) (d : Dev) : Dev :=
  match msgAt i seq d with
  | none => d
  | some m =>
    if decide (m.state = .requesting) && m.begun && decide (m.answerAt + 2 * m.res ≤ clock (fdie i) d) then failMsg i seq 5 4 d else d

/-- 2 × R pass without an answer of any kind to an ENTER (R311). -/
def enterTimeout (i seq : Nat) (d : Dev) : Dev :=
  match msgAt i seq d with
  | none => d
  | some m =>
    match m.owner with
    | .enter _ _ => if m.answerAt + 2 * m.res ≤ clock (fdie i) d then failMsg i seq 5 0 d else d
    | _ => d

/-- The backoff interval after `k` REMOTE_BUSY NACKs in a row (R291), shortened to a point between 50 % and 100 %. -/
def backoff (k : Nat) (d : Dev) : Nat × Dev :=
  let b := usec (max 1 (getF .pesynTimers2 0 0 31 16 d))
  let full := min (32 * b) (b * 2 ^ (k - 1))
  (full - full / 2 + Config.backoffPoint d.free full % (full / 2 + 1), { d with free := d.free + 1 })

/-- A REMOTE_BUSY NACK (R275, R291): sending stops until the backoff ends, and what waits in the egress does not leave. -/
def busyNack (i seq : Nat) (d : Dev) : Dev :=
  match msgAt i seq d with
  | none => d
  | some m =>
    let b := backoff (m.busy + 1) d
    winFall m (updMsg i seq (fun m => { m with
      busy := m.busy + 1, lastBusy := true, backAt := some (clock (fdie i) d + b.1), answerAt := clock (fdie i) d, interval := rto d,
      timerAt := clock (fdie i) d }) (takeBack i m.tag b.2))

/-- A backoff interval ends (R291): the data packets go out again, or the REQUEST, and a READ may grant again. -/
def backoffEnd (i seq : Nat) (d : Dev) : Dev :=
  match msgAt i seq d with
  | none => d
  | some m =>
    match m.backAt with
    | some t =>
      if t ≤ clock (fdie i) d then
        let d1 := updMsg i seq (fun m => { m with backAt := none, timerAt := clock (fdie i) d }) d
        if m.isRead then
          updPes i (fun p => { p with grants := if p.grants.contains m.tag || !Tab.has p.slots m.tag then p.grants else p.grants ++ [m.tag] })
            (sendRequest i seq true d1)
        else resendAll i seq d1
      else d
    | none => d

end Sys2Proof.Machine
end

