-- ==== Sys2Proof/Machine/PesynRx.lean ====
section
/-! DEFINITION. The target of Pesyn writes and reads (R243 to R247, R266, R270 to R273, R276 to R279, R281, R286 to R288, R290,
R293, R296): regions, checks, slots, the filter, grants. -/

namespace Sys2Proof.Machine

/-! ## Regions and keys (R232, R233) -/

/-- The present tag of a region index (R233). -/
def regionTag (idx : Nat) (d : Dev) : Nat := Tab.getD d.rem.tags idx d.rem.fresh

/-- The region that a key names, where the key is valid (R233). -/
def regionOf (key : Nat) (d : Dev) : Option Region :=
  if key % 4096 = regionTag (key / 4096) d && key % 4096 ≠ 0 then Tab.get d.rem.regions (key / 4096) else none

/-- The domain of a region. -/
def domOf (r : Region) (d : Dev) : Dom :=
  Tab.getD d.rem.doms r.domain { inst := 0, tag := 0, nmatch := 0, nmask := 0, slot := 0xFFFF, ring := 0xFFFF }

/-- A device-memory place of a region's byte: the pinned page that holds a virtual address (R236). -/
def pinnedLda (r : Region) (va : Nat) : Option Nat :=
  (r.pages.find? (fun p => decide (p.1 ≤ va ∧ va < p.1 + p.2.1))).map (fun p => p.2.2 + (va - p.1))

/-- Physical pieces of ranges of logical device addresses. -/
def ldaPieces (d : Dev) : List (Nat × Nat) → List (Nat × Nat)
  | [] => []
  | (a, n) :: r =>
    (match ldaPhys a d with
     | some x => [(x, n)]
     | none => []) ++ ldaPieces d r

/-- Physical pieces of bytes of a region. -/
def regionPieces (r : Region) (off n : Nat) (d : Dev) : List (Nat × Nat) :=
  ldaPieces d ((cutFrames (n / 2 ^ 26 + 2) (r.va + off) n).filterMap (fun c => (pinnedLda r c.1).map (fun l => (l, c.2))))

/-- A source node passes a domain's filter (R230). -/
def nodePass (x : Dom) (node : Nat) : Bool := decide (Nat.land node x.nmask = Nat.land x.nmatch x.nmask)

/-- Checks 1 to 4 of R243 on a packet that covers `n` bytes from `off` in the message, for an access bit: the status. -/
def checkRegion (p : Packet) (bit off n : Nat) (d : Dev) : Except Nat Region :=
  match regionOf p.key d with
  | none => .error 2
  | some r =>
    let x := domOf r d
    if p.ftag ≠ x.tag || !nodePass x (tagNode p.tag) || (p.enc != decide (x.slot ≠ 0xFFFF)) ||
       (p.enc && !Tab.has d.keys.keys x.slot) then .error 3
    else if !bitOf r.access bit then .error 3
    else if r.len < p.off + off + n then .error 3
    else .ok r

/-- A refusal is counted (R243, R258). -/
def countRefusal (status : Nat) (d : Dev) : Dev :=
  match status with
  | 2 => countF .remoteRefusals 0 0 29 20 1 d
  | 7 => countF .remoteRefusals 0 0 9 0 1 d
  | _ => countF .remoteRefusals 0 0 19 10 1 d

/-! ## Answers (R264, R294) -/

/-- The cipher slot of the answers to a packet: its region's domain's; none where the key names no region. -/
def answerSlot (p : Packet) (d : Dev) : Nat :=
  match Tab.get d.rem.regions (p.key / 4096) with
  | some r => (domOf r d).slot
  | none => 0xFFFF

/-- An answer to a message carries bytes 3 to 29 of it (R264). -/
def answerTo (p : Packet) (typ flags : Nat) (tf payload : List Byte) : Packet :=
  { p with typ := typ, flags := flags, tf := tf, epoch := 0, count := 0, dstNode := tagNode p.tag, payload := payload,
           ekey := none, dead := none }

/-- Sends an answer under a cipher slot; without its key it is not sent (R417). -/
def sendAnswer (p : Packet) (leaf slot : Nat) (inst : Option Nat) (d : Dev) : Dev :=
  let r := encrypt p.die slot p d
  match r.1 with
  | some k => route k leaf none inst r.2
  | none => r.2

/-- Sends a NACK (R265), counted where it says REMOTE_BUSY (R290); AUTH_FAIL goes without ENC (R296). -/
def sendNack (p : Packet) (reason slot : Nat) (d : Dev) : Dev :=
  when_ (decide (reason = 0xD)) (countF .pesynBusy p.die 0 31 16 1)
    (sendAnswer (answerTo p 5 0 (natBE 1 reason ++ List.replicate 15 0) []) 0 (if reason = 7 then 0xFFFF else slot) none d)

/-- Sends an ACK (R272). -/
def sendAck (p : Packet) (ece : Bool) (slot : Nat) (d : Dev) : Dev :=
  sendAnswer (answerTo p 4 (if ece then 2 else 0) (natBE 4 p.len ++ List.replicate 12 0) []) 0 slot none d

/-- A malformed packet is dropped and counted (R266). -/
def dropMalformed (i : Nat) (d : Dev) : Dev := countF .pesynDrop i 0 15 0 1 d

/-- A duplicate is dropped and counted (R271, R287). -/
def dropDuplicate (i : Nat) (d : Dev) : Dev := countF .pesynDrop i 0 31 16 1 d

/-- A packet that fails authentication is counted (R284, R296, R421). -/
def dropUnauth (i : Nat) (d : Dev) : Dev :=
  countF .cipherStats i 0 31 16 1 (countF .pesynBusy i 0 15 0 1 d)

/-! ## The filter (R285 to R288) -/

/-- The first step boundary at or after a moment for residence R: a multiple of 4 R / 16 (R286). -/
def stepAfter (res t : Nat) : Nat := let s := max 1 (res / 4); ceilDiv t s * s

/-- Enters a tag in a die's filter (R286). -/
def enterFilter (i tag outcome : Nat) (ece : Bool) (d : Dev) : Dev :=
  let r := residence d
  updPes i (fun p => { p with filter := Tab.set p.filter tag ⟨outcome, stepAfter r (clock (fdie i) d + 4 * r), ece⟩ }) d

/-- Entries whose boundary has come retire (R286). -/
def filterStep (i : Nat) (d : Dev) : Dev :=
  let gone := ((Tab.keep (pesAt i d).filter (fun _ e => decide (e.retire ≤ clock (fdie i) d))).map Prod.fst)
  each gone (fun t d => dropPort i t d)
    (updPes i (fun p => { p with filter := Tab.keep p.filter (fun _ e => decide (clock (fdie i) d < e.retire)) }) d)

/-- Is the filter full once due entries have retired (R288, R298)? -/
def filterFull (i : Nat) (d : Dev) : Bool :=
  decide (2097152 ≤ Tab.count (pesAt i d).filter (fun _ e => decide (clock (fdie i) d < e.retire)))

/-- A packet whose tag is in the filter (R287). -/
def meetFilter (p : Packet) (e : FiltEnt) (slot : Nat) (d : Dev) : Dev :=
  let d1 := dropDuplicate p.die d
  match e.outcome with
  | 0 => sendAck p e.ece slot d1
  | 2 => sendNack p 7 slot d1
  | _ => d1

/-! ## Slots (R270 to R273) -/

/-- Changes a slot. -/
def updSlot (i tag : Nat) (f : Slot → Slot) (d : Dev) : Dev :=
  updPes i (fun p => { p with slots := Tab.modify p.slots tag f }) d

/-- A slot by tag. -/
def slotAt (i tag : Nat) (d : Dev) : Option Slot := Tab.get (pesAt i d).slots tag

/-- Frees a slot. -/
def dropSlot (i tag : Nat) (d : Dev) : Dev :=
  updPes i (fun p => { p with slots := Tab.erase p.slots tag, grants := p.grants.filter (fun t => t != tag) }) d

/-- Is a slot of a die free (R270), in the pool of the structure in force (R446)? -/
def slotFree (i : Nat) (d : Dev) : Bool := decide ((pesAt i d).slots.length < min 65536 (d.upd.shape.pools.getD 3 65536))

/-- A slot goes with a filter outcome (R273, R296): a reserved target entry is released. -/
def closeSlot (i tag outcome : Nat) (d : Dev) : Dev :=
  match slotAt i tag d with
  | none => d
  | some s =>
    let d1 := match s.ring with
      | some r => freeSlot r d
      | none => d
    enterFilter i tag outcome s.ce (dropSlot i tag d1)

/-- Where a packet's payload falls in a slot (R271): none for a duplicate or a packet beyond the bitmap, which the flag
tells apart. -/
def Slot.place (s : Slot) (off : Nat) : Option Nat × Bool :=
  let p := 2 ^ s.shift
  if off < s.base then (none, true)
  else
    let k := (off - s.base) / p
    if 128 ≤ k then (none, false) else if s.bits.contains k then (none, true) else (some k, false)

/-- BASE advances past every set bit at its low end (R271). -/
def advanceBase : Nat → Slot → Slot
  | 0, s => s
  | n + 1, s =>
    if s.bits.contains 0 then
      advanceBase n { s with
        base := s.base + 2 ^ s.shift, bits := (s.bits.filter (fun b => b != 0)).map (fun b => b - 1) }
    else s

/-- A packet of `n` bytes at offset `off`, bitmap position `k`, is taken into the slot; bytes of an earlier chunk do not count toward
the last one (R277). -/
def Slot.take (s : Slot) (k off n : Nat) : Slot :=
  advanceBase 128 { s with
    bits := s.bits ++ [k], count := s.count + n, chunkGot := if s.grantOff ≤ off then s.chunkGot + n else s.chunkGot }

/-- A packet of a slot's message arrives, be it its REQUEST or a duplicate (R272, R281): its CE mark is kept, and RESEND_US starts
again. -/
def meetSlot (i tag : Nat) (ce : Bool) (d : Dev) : Dev :=
  updSlot i tag (fun s => { s with ce := s.ce || ce, last := clock (fdie i) d }) d

/-! ## Grants (R277, R278) -/

/-- C of a die in bytes (R277, R299). -/
def chunkC (i : Nat) (d : Dev) : Nat := min (64 * pktSize d) (max 1 (getF .pesynGrant i 0 23 16 d) * 32768)

/-- B of a die in bytes, at least 2 × C (R299). -/
def budgetB (i : Nat) (d : Dev) : Nat :=
  max (getF .pesynGrant i 0 15 0 d) (max 1 (getF .pesynGrant i 0 23 16 d)) * 65536

/-- The effective budget (R278). -/
def effBudget (i : Nat) (d : Dev) : Nat :=
  let e := (pesAt i d).eff
  if e = 0 then budgetB i d else min e (budgetB i d)

/-- The end of what a slot was granted. -/
def Slot.grantEnd (s : Slot) : Nat := s.grantOff + s.grantLen

/-- Does a slot live by grants: a scheduled message, or a READ? -/
def Slot.granted (s : Slot) : Bool := decide (65536 < s.len) || s.read.isSome

/-- Granted bytes not yet received on a die (R277). -/
def owed (i : Nat) (d : Dev) : Nat :=
  ((pesAt i d).slots.map (fun p => if p.2.granted then p.2.grantEnd - p.2.count else 0)).sum

/-- The next chunk of a slot (R277): offset and length, zero where nothing is left to grant now. -/
def nextChunk (i : Nat) (s : Slot) (d : Dev) : Nat × Nat :=
  let off := s.grantEnd
  (off, min (min (chunkC i d) (s.len - off)) (s.base + 128 * 2 ^ s.shift - off))

/-- A slot joins the grant list once (R277). -/
def joinGrants (i tag : Nat) (d : Dev) : Dev :=
  updPes i (fun p => { p with grants := if p.grants.contains tag then p.grants else p.grants ++ [tag] }) d

/-- After a packet of a granted slot: at half of its last chunk it is eligible again (R277). -/
def eligibleAgain (i tag : Nat) (d : Dev) : Dev :=
  match slotAt i tag d with
  | none => d
  | some s => when_ (s.granted && decide (s.grantEnd < s.len) && decide (s.grantLen ≤ 2 * s.chunkGot)) (joinGrants i tag) d

/-- A scheduled packet arrives (R278): CE halves the effective budget, at most once for each of it received. A duplicate counts as
well: DESIGN CHOICE (log entry 131). -/
def meetBudget (i n : Nat) (ce : Bool) (d : Dev) : Dev :=
  let p := pesAt i d
  let e := effBudget i d
  let since := p.sinceCut.map (fun x => x + n)
  if ce && (match since with
    | some x => decide (e ≤ x)
    | none => true) then
    updPes i (fun p => { p with eff := min e (max (2 ^ 20) (e / 2)), sinceCut := some 0, sinceUp := 0 }) d
  else if ce then updPes i (fun p => { p with sinceCut := since, sinceUp := 0 }) d
  else if e ≤ p.sinceUp + n then
    updPes i (fun p => { p with
      eff := if budgetB i d ≤ e + 65536 then 0 else e + 65536, sinceCut := since, sinceUp := 0 }) d
  else updPes i (fun p => { p with sinceCut := since, sinceUp := p.sinceUp + n }) d

/-- A scheduled packet whose message is over meets the budget as well (R278). -/
def budgetAfter (p : Packet) (ce : Bool) (d : Dev) : Dev :=
  when_ (decide (p.typ = 1 ∨ p.typ = 10) && decide (65536 < p.len)) (meetBudget p.die p.payload.length ce) d

/-- The packet that a slot's message would carry: the common bytes of an answer (R264). -/
def Slot.asPacket (s : Slot) (i : Nat) : Packet :=
  { typ := 1, flags := 0, op := s.op, tag := s.tag, ftag := s.ftag, key := s.key, len := s.len, off := s.off,
    shift := s.shift, tf := List.replicate 16 0, epoch := 0, count := 0, dstNode := tagNode s.tag, die := i, payload := [],
    ekey := none, dead := none }

/-- The cipher slot of the answers about a slot: of its region's domain, or of its communicator's. -/
def slotCipher (s : Slot) (d : Dev) : Nat :=
  match s.contrib with
  | some (c, _) => ((commAt c d).map (fun x => (domKeys x.domain d).2)).getD 0xFFFF
  | none => answerSlot (s.asPacket 0) d

/-- Sends a slot's latest GRANT, of a write to its initiator, of a READ to its target. -/
def sendGrant (i tag : Nat) (retx : Bool) (d : Dev) : Dev :=
  match slotAt i tag d with
  | none => d
  | some s =>
    match s.read with
    | some _ => sendReadGrant i (tagSeq tag) s.grantOff s.grantLen retx d
    | none =>
      when_ retx (countF .pesynRetx i 0 31 16 1)
        (sendAnswer (answerTo (s.asPacket i) 3 (if retx then 4 else 0) (tfRange s.grantOff s.grantLen) []) 0
          (slotCipher s d) none d)

/-- Is a slot that of a READ which asks for no more: its queue is in ERROR (R252), or it is in its backoff (R291)? -/
def Slot.halted (s : Slot) (i : Nat) (d : Dev) : Bool :=
  s.read.isSome && (match msgAt i (tagSeq s.tag) d with
    | some m => m.halted d || m.backAt.isSome
    | none => false)

/-- The die grants the eligible slot at the front of its list one chunk, where it fits within the budget (R277, R293). The GRANT starts
RESEND_US anew: DEDUCED (log entry 139). -/
def grantChunk (i : Nat) (d : Dev) : Dev :=
  match (pesAt i d).grants with
  | [] => d
  | tag :: rest =>
    match slotAt i tag d with
    | none => updPes i (fun p => { p with grants := rest }) d
    | some s =>
      let c := nextChunk i s d
      if c.2 = 0 || s.halted i d then updPes i (fun p => { p with grants := rest }) d
      else if effBudget i d < owed i d + c.2 then d
      else
        sendGrant i tag false (updSlot i tag (fun s => { s with
            grantOff := c.1, grantLen := c.2, chunkGot := 0, at0 := if s.at0.isSome then s.at0 else some (clock (fdie i) d),
            res := if s.at0.isSome then s.res else residence d, last := clock (fdie i) d })
          (updPes i (fun p => { p with grants := rest }) d))

/-! ## Writes at the target (R271, R272, R276, R293) -/

/-- A fresh slot for a message. -/
def freshSlot (p : Packet) (inst : Nat) (now res : Nat) (ring : Option Nat) (a : Option Nat)
    (contrib : Option (Nat × Nat × Nat × Nat)) : Slot :=
  { tag := p.tag, op := p.op, ftag := p.ftag, key := p.key, len := p.len, off := p.off, shift := p.shift,
    imm := if p.op = 0x11 then p.imm else 0, coll := p.coll, inst := inst, base := 0, bits := [], count := 0, ring := ring,
    at0 := a, ce := false, last := now, grantOff := 0, grantLen := 0, chunkGot := 0, res := res, read := none,
    contrib := contrib }

/-- A write message completes (R246, R272): the target entry, the filter, the slot, the ACK. -/
def completeWrite (i tag : Nat) (d : Dev) : Dev :=
  match slotAt i tag d with
  | none => d
  | some s =>
    let e : Entry := {
      result := s.imm, bytes := s.len, queue := 0xFFFF, index := 0, status := 0, opcode := 0x11,
      kind := 2, gen := (instAt s.inst d).gen, node := tagNode tag, detail := s.key }
    let d1 := match s.ring with
      | some r => writeEntry r e none d
      | none => d
    sendAck (s.asPacket i) s.ce (slotCipher s d1) (enterFilter i tag 0 s.ce (dropSlot i tag d1))

/-- A packet fails authentication (R244, R296): its plaintext is placed already, the message is over. -/
def authFailed (p : Packet) (d : Dev) : Dev :=
  let d1 := countF .cipherStats p.die 0 31 16 1 (countRefusal 7 d)
  let d2 := if (slotAt p.die p.tag d1).isSome then closeSlot p.die p.tag 2 d1 else enterFilter p.die p.tag 2 false d1
  sendNack p 7 0xFFFF d2

/-- A packet of a slot's message is not malformed: the slot and, for a granted slot, the budget meet it (R272, R278, R281). -/
def arrives (p : Packet) (s : Slot) (ce : Bool) (d : Dev) : Dev :=
  meetSlot p.die p.tag ce (when_ s.granted (meetBudget p.die p.payload.length ce) d)

/-- A DATA packet finds its slot (R271): placed, or dropped. A duplicate is not placed, so that where it fails authentication it is dropped
without effect (R296): DEDUCED (log entry 153). -/
def dataInSlot (p : Packet) (r : Region) (ce auth : Bool) (d : Dev) : Dev :=
  match slotAt p.die p.tag d with
  | none => d
  | some s =>
      match s.place p.off32 with
      | (none, true) => if p.enc && !auth then dropUnauth p.die d else dropDuplicate p.die (arrives p s ce d)
      | (none, false) => dropMalformed p.die d
      | (some k, _) =>
        let n := p.payload.length
        let w := writePieces (regionPieces r (p.off + p.off32) n d) p.payload d
        let d1 := arrives p s ce w.1
        if p.enc && !auth then authFailed p d1
        else if !w.2 then sendNack p 0xF (answerSlot p d1) (closeSlot p.die p.tag 1 d1)
        else
          let d2 := updSlot p.die p.tag (fun s => s.take k p.off32 n) d1
          if s.len ≤ s.count + n then completeWrite p.die p.tag d2 else eligibleAgain p.die p.tag d2

/-- Assigns a slot to the first packet or REQUEST of a write (R288, R290, R293): the reserved ring of a WRITE_IMM, or
REMOTE_BUSY. -/
def assignSlot (p : Packet) (r : Region) (a : Option Nat) (d : Dev) : Dev × Bool :=
  let slot := answerSlot p d
  let ringOf : Option Nat := if p.op = 0x11 then some (domOf r d).ring else none
  if filterFull p.die d then (sendNack p 0xD slot (setBit .pesynFilter p.die 0 31 d), false)
  else if !slotFree p.die d then (sendNack p 0xD slot d, false)
  else
    match ringOf with
    | some x =>
      (match crAt x d with
       | some c =>
         if c.detached || 0 < freeSlots c then
           (updPes p.die (fun t => { t with
              slots := Tab.set t.slots p.tag (freshSlot p r.inst (clock (fdie p.die) d) (residence d) (some x) a none) })
             (updCr x (fun c => { c with held := c.held + 1 }) d), true)
         else (sendNack p 0xD slot d, false)
       | none => (sendNack p 0xD slot d, false))
    | none =>
      (updPes p.die (fun t => { t with
        slots := Tab.set t.slots p.tag (freshSlot p r.inst (clock (fdie p.die) d) (residence d) none a none) }) d, true)

/-- Check 5 of R243: a WRITE_IMM needs a TARGET_RING. -/
def ringMissing (p : Packet) (r : Region) (d : Dev) : Bool := decide (p.op = 0x11) && decide ((domOf r d).ring = 0xFFFF)

/-- A DATA packet arrives (R271, R274, R276, R287, R293). -/
def rxData (p : Packet) (ce auth : Bool) (d0 : Dev) : Dev :=
  let d := filterStep p.die d0
  match Tab.get (pesAt p.die d).filter p.tag with
  | some e => meetFilter p e (answerSlot p d) (budgetAfter p ce d)
  | none =>
    match slotAt p.die p.tag d with
    | some s =>
      if s.at0.isNone then dropMalformed p.die d
      else
        (match checkRegion p 1 p.off32 p.payload.length d with
         | .error st => sendNack p st (answerSlot p d) (countRefusal st d)
         | .ok r => dataInSlot p r ce auth d)
    | none =>
      if 65536 < p.len then dropMalformed p.die d
      else
        match checkRegion p 1 p.off32 p.payload.length d with
        | .error st => sendNack p st (answerSlot p d) (countRefusal st d)
        | .ok r =>
          if ringMissing p r d then sendNack p 3 (answerSlot p d) (countRefusal 3 d)
          else
            let x := assignSlot p r (some (clock (fdie p.die) d)) d
            if x.2 then dataInSlot p r ce auth x.1 else x.1

/-- RESPONSE packets of a READ for a range (R247, R279): each is formed from region memory as it stands. -/
def sendResponses (p : Packet) (r : Region) (retx : Bool) (limit : Nat) : Nat → Nat → Dev → Dev
  | 0, _, d => d
  | fuel + 1, off, d =>
    let n := min (2 ^ p.shift) (p.len - off)
    if limit ≤ off || n = 0 then d
    else
      match readPieces d (regionPieces r (p.off + off) n d) with
      | .error a => sendNack p 0xF (answerSlot p d) (noteUe (.dev a) 3 d)
      | .ok l =>
        let k := answerTo p 7 (if retx then 4 else 0) (tfData off n zero10) l
        sendResponses p r retx limit fuel (off + n)
          (when_ retx (countF .pesynRetx p.die 0 31 16 1)
            (sendAnswer k (instAt r.inst d).leaf0 (answerSlot p d) (some r.inst) (readsDev (regionPieces r (p.off + off) n d) d)))

/-- A REQUEST or GRANT of a READ at its target (R279): checks 1 to 4, then the responses for the range named. -/
def rxReadRange (p : Packet) (off len : Nat) (auth : Bool) (d : Dev) : Dev :=
  match checkRegion p 0 0 p.len d with
  | .error st => sendNack p st (answerSlot p d) (countRefusal st d)
  | .ok r =>
    if p.enc && !auth then dropUnauth p.die d
    else
      sendResponses p r (bitOf p.flags 2) (min p.len (off + len)) maxPackets (off / 2 ^ p.shift * 2 ^ p.shift) d

/-- Sends a RESEND for a range (R281). -/
def sendResend (i tag off len : Nat) (d : Dev) : Dev :=
  match slotAt i tag d with
  | none => d
  | some s => sendAnswer (answerTo (s.asPacket i) 6 0 (tfRange off len) []) 0 (slotCipher s d) none d

/-- How far a slot may expect packets: what is granted, or all of an unscheduled message. -/
def Slot.expects (s : Slot) : Nat := if s.granted then s.grantEnd else s.len

/-- A repeated REQUEST finds its slot (R281): the latest GRANT again, and a RESEND for the lowest gap below it. -/
def requestAgain (i tag : Nat) (d : Dev) : Dev :=
  match slotAt i tag d with
  | none => d
  | some s =>
    if s.at0.isNone then d
    else
      let d1 := sendGrant i tag true d
      match missingRun s s.grantOff with
      | some (o, n) => sendResend i tag o n d1
      | none => d1

/-- The REQUEST of a scheduled write arrives (R276, R287, R293). -/
def rxWriteRequest (p : Packet) (ce auth : Bool) (d0 : Dev) : Dev :=
  let d := filterStep p.die d0
  match Tab.get (pesAt p.die d).filter p.tag with
  | some e => meetFilter p e (answerSlot p d) d
  | none =>
    match checkRegion p 1 0 p.len d with
    | .error st => sendNack p st (answerSlot p d) (countRefusal st d)
    | .ok r =>
      if p.enc && !auth then dropUnauth p.die d
      else if (slotAt p.die p.tag d).isSome then requestAgain p.die p.tag (meetSlot p.die p.tag ce d)
      else if ringMissing p r d then sendNack p 3 (answerSlot p d) (countRefusal 3 d)
      else
        let x := assignSlot p r none d
        if x.2 then joinGrants p.die p.tag (meetSlot p.die p.tag ce x.1) else x.1

/-- A CANCEL arrives (R273): the slot of its message is abandoned. One of a remote operation whose ENC differs is refused (R243, R294). -/
def rxCancel (p : Packet) (auth : Bool) (d0 : Dev) : Dev :=
  let d := filterStep p.die d0
  match Tab.get (pesAt p.die d).filter p.tag with
  | some e => meetFilter p e (answerSlot p d) d
  | none =>
    match slotAt p.die p.tag d with
    | none => d
    | some s =>
      if p.ftag ≠ s.ftag || s.read.isSome then d
      else if p.enc != decide (slotCipher s d ≠ 0xFFFF) then
        if s.contrib.isSome then d else sendNack p 3 (slotCipher s d) (countRefusal 3 d)
      else if p.enc && !auth then dropUnauth p.die d
      else closeSlot p.die p.tag 1 d

/-- 3 × R have passed since a slot's moment A (R273). -/
def slotAbandon (i tag : Nat) (d : Dev) : Dev :=
  match slotAt i tag d with
  | none => d
  | some s =>
    match s.at0 with
    | some a => if s.read.isNone && decide (a + 3 * s.res ≤ clock (fdie i) d) then closeSlot i tag 1 d else d
    | none => d

/-- RESEND_US without a packet while bytes are missing (R281): a RESEND, or for a READ a GRANT, for the lowest run. -/
def resendTimer (i tag : Nat) (d : Dev) : Dev :=
  match slotAt i tag d with
  | none => d
  | some s =>
    let us := usec (max 1 (getF .pesynTimers2 0 0 15 0 d))
    if s.at0.isNone || decide (clock (fdie i) d < s.last + us) || decide (s.len ≤ s.count) || s.halted i d then d
    else
      match missingRun s s.expects with
      | none => d
      | some (o, n) =>
        let d1 := updSlot i tag (fun s => { s with last := clock (fdie i) d }) d
        match s.read with
        | some _ => sendReadGrant i (tagSeq tag) o n true d1
        | none => sendResend i tag o n d1

end Sys2Proof.Machine
end

