-- ==== Sys2Proof/Machine/Collectives.lean ====
section
/-! DEFINITION. Collectives (chapter 10): descriptors and entry, who sends what, reduce on receive, chunk restarts, the seal and
completion. -/

namespace Sys2Proof.Machine

/-! ## Descriptors (R304 to R308) -/

/-- Does an opcode reduce (R305)? -/
def collReduces (op : Nat) : Bool := decide (op = 0x20 ∨ op = 0x21)

/-- Bytes of `n` elements of a type, without scales. -/
def elemLen (typ n : Nat) : Nat := n * (elemBits typ / 8)

/-- Bytes of a buffer of `n` elements (R306): the elements, then a scale byte for every 32 of an MXFP8 type. -/
def bufLen (typ n : Nat) : Nat := elemLen typ n + (if isMx typ then n / 32 else 0)

/-- The 12-byte signature block of a descriptor (R310). -/
def sigBlock (l : List Byte) (gen : Nat) : List Byte :=
  [l.getD 0 0, l.getD 4 0, l.getD 5 0, BitVec.ofNat 8 (bitsOf (l.getD 1 0).toNat 2 2)] ++ (l.drop 6).take 2 ++
  natLE 2 gen ++ (l.drop 24).take 4

/-- The entries of an exchange table. -/
def vEntries (n : Nat) (l : List Byte) : List VEnt :=
  (List.range n).map (fun j =>
    { sendOff := fieldLE l (32 * j) 8, sendCnt := fieldLE l (32 * j + 8) 4,
      recvOff := fieldLE l (32 * j + 16) 8, recvCnt := fieldLE l (32 * j + 24) 4 })

/-- The collective that a descriptor asks for. -/
def mkColl (q idx : Nat) (w : WQ) (l table : List Byte) (x : Comm) : Coll :=
  { q := q, idx := idx, op := (l.getD 0 0).toNat, typ := (l.getD 4 0).toNat, red := (l.getD 5 0).toNat,
    sat := bitOf (l.getD 1 0).toNat 2, root := fieldLE l 6 2, src := fieldLE l 8 7, dst := fieldLE l 16 7,
    cnt := fieldLE l 24 4, ctx := w.ctx, leaf := w.leaf,
    vtab := if (l.getD 0 0).toNat = 0x24 then vEntries x.n table else [], sig := sigBlock l x.gen, entered := false,
    admitted := false, seqr := none, lanes0 := [], lanes1 := [], failed0 := [], failed1 := [], chunks := [], seqs := [],
    epochs := [], toSend := [], stalled := [], unacked := [], placed := [], seals := [], sealed := false, sealsOut := [], redone := 0 }

/-- Elements of SOURCE and of DEST at a rank (R305), ALL_TO_ALL_V aside. -/
def Coll.elems (k : Coll) (x : Comm) : Nat × Nat :=
  match k.op with
  | 0x20 => (k.cnt, k.cnt)
  | 0x21 => (x.n * k.cnt, k.cnt)
  | 0x22 => (k.cnt, x.n * k.cnt)
  | 0x23 => (x.n * k.cnt, x.n * k.cnt)
  | 0x25 => (if x.rank = k.root then k.cnt else 0, k.cnt)
  | _ => (0, 0)

/-- The ranges of SOURCE and of DEST (R305, R308). -/
def Coll.spans (k : Coll) (x : Comm) : List (Nat × Nat) × List (Nat × Nat) :=
  if k.op = 0x24 then
    (k.vtab.map (fun e => (k.src + e.sendOff, elemLen k.typ e.sendCnt)),
     k.vtab.map (fun e => (k.dst + e.recvOff, elemLen k.typ e.recvCnt)))
  else ([(k.src, bufLen k.typ (k.elems x).1)], [(k.dst, bufLen k.typ (k.elems x).2)])

/-- Do two ranges share a byte? -/
def rangesMeet (a b : Nat × Nat) : Bool := decide (0 < a.2 ∧ 0 < b.2 ∧ a.1 < b.1 + b.2 ∧ b.1 < a.1 + a.2)

/-- Does a list of ranges hold two that share a byte? -/
def anyMeet : List (Nat × Nat) → Bool
  | [] => false
  | a :: r => r.any (rangesMeet a) || anyMeet r

/-- Does a range lie within the segments of a context that grant a kind of access (R165, R307)? -/
def segCover (c : Ctx) (k : Kind) : Nat → Nat → Nat → Bool
  | 0, _, n => n == 0
  | fuel + 1, va, n =>
    if n = 0 then true
    else
      match segOf c va with
      | none => false
      | some s =>
        let e := s.va + s.len * 2 ^ 26
        permits s.perm k && segCover c k fuel e (n - (e - va))

/-- Does a context's set of segments cover ranges? -/
def segsCover (ctx : Nat) (k : Kind) (rs : List (Nat × Nat)) (d : Dev) : Bool :=
  match Tab.get d.xl.ctxs ctx with
  | none => false
  | some c => rs.all (fun r => segCover c k (c.segs.length + 1) r.1 r.2)

/-- The counter fields of a descriptor that do not need COUNT are zero (R196). -/
def countFieldsOk (l : List Byte) : Bool :=
  bitOf (l.getD 1 0).toNat 0 || zeroIn l 40 47

/-- What R198, R304, R305 and R306 say of a collective descriptor by itself: broken limits give LENGTH. -/
def collStatic (l : List Byte) : Bool :=
  let op := (l.getD 0 0).toNat
  let typ := (l.getD 4 0).toNat
  let red := (l.getD 5 0).toNat
  let fl := (l.getD 1 0).toNat
  let cnt := fieldLE l 24 4
  decide (0x20 ≤ op ∧ op ≤ 0x26) && decide (fl < 8) && !bitOf fl 1 && (collReduces op || !bitOf fl 2) &&
  countFieldsOk l && zeroIn l 15 15 && zeroIn l 23 23 && zeroIn l 36 39 && zeroIn l 48 62 &&
  decide ((l.getD 63 0).toNat % 128 = 0) && (decide (op = 0x25) || zeroIn l 6 7) &&
  (if op = 0x24 then zeroIn l 35 35 && decide (fieldLE l 28 8 % 32 = 0) && decide (cnt = 0) else zeroIn l 28 35) &&
  (if op = 0x26 then zeroIn l 4 27
   else if collReduces op then
     (typ == 2 || typ == 3 || typ == 6 || typ == 7 || typ == 8 || typ == 9 || typ == 0xB || typ == 0xC) && decide (red ≤ 2) &&
     (!isMx typ || decide (cnt % 32 = 0)) && decide (0 < cnt)
   else
     (typ == 2 || typ == 3 || typ == 4 || typ == 6 || typ == 7 || typ == 8 || typ == 9) && red == 0 &&
     (decide (op = 0x24) || decide (0 < cnt)))

/-- What R305, R307 and R308 say of a descriptor in its communicator: broken limits give LENGTH. -/
def collSizes (k : Coll) (x : Comm) (table : List Byte) : Bool :=
  let es := elemBits k.typ / 8
  let sp := k.spans x
  let own := k.vtab.getD x.rank ⟨0, 0, 0, 0⟩
  decide (k.op ≠ 0x25 ∨ k.root < x.n) && decide (bufLen k.typ (k.elems x).1 ≤ 2 ^ 38) &&
  decide (bufLen k.typ (k.elems x).2 ≤ 2 ^ 38) &&
  (k.op == 0x25 && k.src == k.dst || !(sp.1.any (fun a => sp.2.any (rangesMeet a)))) &&
  (k.op != 0x24 ||
    (k.vtab.all (fun e =>
       decide (e.sendOff % es = 0) && decide (e.recvOff % es = 0) &&
       decide (e.sendOff + e.sendCnt * es ≤ 2 ^ 38) && decide (e.recvOff + e.recvCnt * es ≤ 2 ^ 38)) &&
     (List.range x.n).all (fun j => zeroIn table (32 * j + 12) (32 * j + 15) && zeroIn table (32 * j + 28) (32 * j + 31)) &&
     !anyMeet sp.2 && own.sendCnt == own.recvCnt))

/-! ## Who sends what (R314, R315) -/

/-- A piece that one rank sends to another: where it starts in its buffer and in DEST, its element bytes, whether it is
reduced, and whether it comes from DEST. -/
structure Piece where
  rank : Nat
  src  : Nat
  off  : Nat
  len  : Nat
  red  : Bool
  copy : Bool

/-- Elements and bytes of the shard of a rank (R314): where it starts and how long it is. -/
def Coll.shard (k : Coll) (n j : Nat) : Nat × Nat :=
  let q := ceilDiv (ceilDiv k.cnt n) 32 * 32
  (elemLen k.typ (j * q), elemLen k.typ (min ((j + 1) * q) k.cnt - j * q))

/-- What rank `i` sends to rank `j`: SOURCE pieces and, for ALL_REDUCE, its clean shard. The exchange table is that of
the member that asks: of the sender, or of the receiver where `recv` is set. -/
def Coll.flow (k : Coll) (n i j : Nat) (recv : Bool) : List Piece :=
  let b := elemLen k.typ k.cnt
  match k.op with
  | 0x20 =>
    let s := k.shard n j
    let c := k.shard n i
    [⟨j, s.1, s.1, s.2, true, false⟩] ++ (if i = j then [] else [⟨j, c.1, c.1, c.2, false, true⟩])
  | 0x21 => [⟨j, j * b, 0, b, true, false⟩]
  | 0x22 => [⟨j, 0, i * b, b, false, false⟩]
  | 0x23 => [⟨j, j * b, i * b, b, false, false⟩]
  | 0x24 =>
    let e := k.vtab.getD (if recv then i else j) ⟨0, 0, 0, 0⟩
    [⟨j, e.sendOff, 0, elemLen k.typ (if recv then e.recvCnt else e.sendCnt), false, false⟩]
  | 0x25 => if i = k.root && !(i = j && k.src = k.dst) then [⟨j, 0, 0, b, false, false⟩] else []
  | _ => []

/-- Bytes of a contribution's message (R315). -/
def Coll.msgLen (k : Coll) (n : Nat) : Nat := n + (if isMx k.typ then n / 32 else 0)

/-- C of a collective (R315): the largest power of two, no greater than CHUNK (here by its logarithm), whose message fits 128 packets. -/
def Coll.sizeC (k : Coll) (p : Nat) : Nat → Nat
  | 0 => 1
  | l + 1 => if k.msgLen (2 ^ (l + 1)) ≤ 128 * p then 2 ^ (l + 1) else k.sizeC p l

/-- C under the packet size in force. -/
def collC (x : Comm) (k : Coll) (d : Dev) : Nat := k.sizeC (pktSize d) x.chunk

/-- A piece cut into contributions of C element bytes (R315). -/
def cutPiece (c : Nat) (p : Piece) : List Piece :=
  (List.range (ceilDiv p.len c)).map (fun r =>
    { p with src := p.src + r * c, off := p.off + r * c, len := min c (p.len - r * c) })

/-- Every contribution that this member sends to a rank, in order. -/
def contribsTo (x : Comm) (k : Coll) (j : Nat) (d : Dev) : List Piece :=
  (k.flow x.n x.rank j false).flatMap (cutPiece (collC x k d))

/-- Every contribution that this member expects from a rank. -/
def contribsFrom (x : Comm) (k : Coll) (i : Nat) (d : Dev) : List Piece :=
  (k.flow x.n i x.rank true).flatMap (cutPiece (collC x k d))

/-- Every contribution that this member sends, rank by rank (R497). -/
def contribsAll (x : Comm) (k : Coll) (d : Dev) : List Piece :=
  (List.range x.n).flatMap (fun j => contribsTo x k j d)

/-- The number under which a contribution to a rank is kept. -/
def pieceKey (rank off : Nat) : Nat := rank * 2 ^ 40 + off

/-- The die that a contribution at an offset uses (R315). -/
def contribDie (x : Comm) (k : Coll) (off : Nat) (d : Dev) : Nat := off / collC x k d % 2

/-- The local ranges of a contribution (R306, R315): its elements, and the scales that match them. -/
def pieceFrags (k : Coll) (x : Comm) (p : Piece) : List (Nat × Nat) :=
  let base := if p.copy then k.dst else k.src
  let n := if p.copy then (k.elems x).2 else (k.elems x).1
  (base + p.src, p.len) :: (if isMx k.typ then [(base + elemLen k.typ n + p.src / 32, p.len / 32)] else [])

/-! ## Sending contributions (R315) -/

/-- Changes the collective of a communicator. -/
def updColl (c : Nat) (f : Coll → Coll) (d : Dev) : Dev := updComm c (fun x => { x with coll := x.coll.map f }) d

/-- The collective of a communicator. -/
def collAt (c : Nat) (d : Dev) : Option (Comm × Coll) := (commAt c d).bind (fun x => x.coll.map (fun k => (x, k)))

/-- Bytes of a communicator's unscheduled contributions under way (R315). -/
def collOutstanding (c : Nat) (d : Dev) : Nat :=
  ((List.range 2).map (fun i => ((pesAt i d).msgs.map (fun p =>
    match p.2.owner with
    | .contrib a _ _ _ => if a = c && !p.2.sched then p.2.len else 0
    | _ => 0)).sum)).sum

/-- Starts one contribution: its message takes the sequence given to it, or a fresh one. -/
def startContrib (c : Nat) (x : Comm) (k : Coll) (p : Piece) (d : Dev) : Dev :=
  let i := contribDie x k p.off d
  let key := pieceKey p.rank p.off
  let s := match Tab.get k.seqs key with
    | some n => (n, d)
    | none => takeSeq i d
  let ep := Tab.getD k.epochs key 0
  let ks := domKeys x.domain d
  let m : Msg := {
    owner := .contrib c p.rank p.off ep, inst := x.inst, gen := (instAt x.inst d).gen, ctx := k.ctx,
    leaf := leafOf k.leaf x.inst d, typ := 10, op := k.op, node := x.members.getD p.rank 0, tag := mkTag d.addr.node s.1,
    ftag := ks.1, key := x.id, len := k.msgLen p.len, off := p.off, imm := 0, cipher := ks.2,
    coll := collBytes x.rank ep (crc16 k.sig) x.gen x.seq, frags := pieceFrags k x p, bytes := [], state := .awaiting,
    admitted := true, begun := false, wAt := none, answerAt := clock (fdie i) d, interval := rto d, timerAt := clock (fdie i) d, busy := 0,
    lastBusy := false, backAt := none, granted := 0, sentTo := 0, leaves := [], res := residence d }
  startMsg i s.1 (addMsg i m (updColl c (fun k => { k with
    seqs := Tab.erase k.seqs key, toSend := k.toSend.filter (fun t => t != (p.rank, p.off)) }) s.2))

/-- Starts the contributions that may start now, in order (R315): scheduled ones at once, unscheduled ones as the
communicator's window has room. -/
def pumpColl (c : Nat) : Nat → List (Nat × Nat) → Dev → Dev
  | 0, _, d => d
  | _, [], d => d
  | fuel + 1, t :: r, d =>
    match collAt c d with
    | none => d
    | some (x, k) =>
      if !k.admitted then d
      else
        match (contribsTo x k t.1 d).find? (fun p => p.off == t.2) with
        | none => pumpColl c fuel r d
        | some p =>
          let len := k.msgLen p.len
          let o := collOutstanding c d
          if 65536 < len || o + len ≤ x.win || o = 0 then pumpColl c fuel r (startContrib c x k p d)
          else pumpColl c fuel (r.filter (fun u => match (contribsTo x k u.1 d).find? (fun p => p.off == u.2) with
            | some p => decide (65536 < k.msgLen p.len)
            | none => false)) d

/-- Starts what a collective may start now. -/
def kickColl (c : Nat) (d : Dev) : Dev :=
  match collAt c d with
  | none => d
  | some (_, k) => pumpColl c (k.toSend.length + 1) k.toSend d

/-! ## Entry (R311, R313, R538) -/

/-- The lowest rank whose ENTER differs from the member's own block (R313, R328). -/
def enterMismatch (x : Comm) (k : Coll) : Option Nat :=
  (others x).find? (fun r => match Tab.get x.enters r with
    | some b => b != k.sig
    | none => false)

/-- Sends an ENTER to a rank (R311, R317), while the collective still holds its turn. -/
def sendEnter (c : Nat) (x : Comm) (k : Coll) (rank : Nat) (d : Dev) : Dev :=
  let i := homeDie c
  let r := sendCtrl i x k rank (.enter c rank) 0 ([1, 0, 0, 0] ++ k.sig) d
  if (collAt c d).isNone then d
  else if r.2 then updPes i (fun p => { p with
    msgs := Tab.mapVals p.msgs (fun _ m =>
      if m.owner = .enter c rank then { m with admitted := false, wAt := none } else m) }) r.1
  else failPart c 3 x.rank false r.1

/-- The ENTERs of a communicator are not repeated any more; those that are formed still leave (R313). -/
def retireEnters (c : Nat) (d : Dev) : Dev :=
  each [0, 1] (fun i d => each ((Tab.keep (pesAt i d).msgs (fun _ m => match m.owner with
    | .enter a _ => a == c
    | _ => false)).map Prod.fst) (retireMsg i) d) d

/-- An entry mismatch ends the collective at once (R313); an admitted collective has met none. The ENTERs that it has formed still reach the
other members, and none is repeated: DESIGN CHOICE (log entry 131). -/
def checkEnters (c : Nat) (d : Dev) : Dev :=
  match collAt c d with
  | none => d
  | some (x, k) =>
    match enterMismatch x k with
    | some r => if k.admitted then d else endPart c 9 r false (retireEnters c d)
    | none => d

/-- A collective takes its communicator's COLL_SEQ (R538): it sends its ENTERs, and meets those it holds. -/
def takeTurn (c : Nat) (k : Coll) (d : Dev) : Dev :=
  match commAt c d with
  | none => d
  | some x =>
    let d1 := updComm c (fun x => { x with coll := some { k with sig := k.sig, entered := decide (1 < x.n) } }) d
    checkEnters c (each (others x) (sendEnter c x k) d1)

/-- Has every other member entered with the same block (R312)? -/
def allEntered (x : Comm) (k : Coll) : Bool := (others x).all (fun r => Tab.get x.enters r == some k.sig)

/-! ## Admission (R312) -/

/-- The lanes in service on a die. -/
def Lanes.inService (l : Lanes) : List Nat := (List.range (68 - l.spares)).filter (fun n => !l.out.contains n)

/-- A die's lanes. -/
def lanesAt (i : Nat) (d : Dev) : Lanes := listGet d.colls.lanes i Lanes.reset

/-- Changes a die's lanes. -/
def updLanes (i : Nat) (f : Lanes → Lanes) (d : Dev) : Dev :=
  { d with colls := { d.colls with lanes := d.colls.lanes.set i (f (lanesAt i d)) } }

/-- The lanes of a collective on a die. -/
def Coll.lanes (k : Coll) (i : Nat) : List Nat := if i = 0 then k.lanes0 else k.lanes1

/-- The lanes reserved on a die (R333). -/
def lanesHeld (i : Nat) (d : Dev) : List Nat :=
  d.colls.comms.flatMap (fun p => match p.2.coll with
    | some k => k.lanes i
    | none => [])

/-- The lanes that a reducing collective would take on a die, where enough are free (R312). -/
def freeLanes (x : Comm) (i : Nat) (d : Dev) : Option (List Nat) :=
  let l := lanesAt i d
  let held := lanesHeld i d
  let free := l.inService.filter (fun n => !held.contains n)
  let want := min x.lanes l.available
  if want ≤ free.length then some (free.take want) else none

/-- A free collective sequencer of a home die (R312). -/
def freeSeqr (i : Nat) (d : Dev) : Option Nat :=
  let used := d.colls.comms.filterMap (fun p => if p.1 % 2 = i then p.2.coll.bind Coll.seqr else none)
  (List.range 16).find? (fun n => !used.contains n)

/-- The chunks that a member owns (R319): one for each contribution that it reduces. -/
def ownChunks (x : Comm) (k : Coll) (d : Dev) : Tab Chunk :=
  (contribsFrom x k x.rank d).foldl (fun t p =>
    if p.red then Tab.set t p.off
      { len := p.len, epoch := 0, counts := [], restarts := 0, held := [], entry := false, clean := false }
    else t) []

/-! ## Done, seal and completion (R326 to R328) -/

/-- Are all blocks of a chunk combined from all members (R326)? -/
def Chunk.full (h : Chunk) (typ n : Nat) : Bool :=
  (List.range (ceilDiv h.len (elemLen typ 32))).all (fun b => Tab.getD h.counts b 0 == n)

/-- A chunk that is full, and whose checks have all passed, is clean (R326): its entry is free, and ALL_REDUCE sends its copies. -/
def settleChunk (c off : Nat) (d : Dev) : Dev :=
  match collAt c d with
  | none => d
  | some (x, k) =>
    match Tab.get k.chunks off with
    | none => d
    | some h =>
      if h.clean || !h.full k.typ x.n then d
      else
        let copies := if k.op = 0x20 then (others x).map (fun r => (r, off)) else []
        kickColl c (updColl c (fun k => { k with
          chunks := Tab.modify k.chunks off (fun h => { h with clean := true, entry := false, held := [] }),
          epochs := if h.epoch = 0 then k.epochs else copies.foldl (fun t p => Tab.set t (pieceKey p.1 p.2) h.epoch) k.epochs,
          toSend := k.toSend ++ copies }) d)

/-- Bytes that a member expects to be placed from a rank. -/
def expectedFrom (x : Comm) (k : Coll) (i : Nat) : Nat :=
  ((k.flow x.n i x.rank true).map (fun p => if p.red then 0 else p.len)).sum

/-- The four conditions of R327. -/
def partDone (x : Comm) (k : Coll) : Bool :=
  k.admitted && k.toSend.isEmpty && k.unacked.isEmpty && k.chunks.all (fun p => p.2.clean) &&
  (List.range x.n).all (fun i => decide (expectedFrom x k i ≤ Tab.getD k.placed i 0))

/-- Bytes of DEST that the operation defines (R328). -/
def Coll.bytes (k : Coll) (x : Comm) : Nat :=
  if k.op = 0x24 then (k.vtab.map (fun e => elemLen k.typ e.recvCnt)).sum else bufLen k.typ (k.elems x).2

/-- A member completes with OK (R327): its entry, its lanes and its sequencer, and COLL_SEQ. -/
def completeColl (c : Nat) (x : Comm) (k : Coll) (d : Dev) : Dev :=
  if expired k.q k.idx d then failOwn c 4 d
  else if spoilt k.q k.idx d then failOwn c 0xF d
  else
  let d1 := leaveFaults (fun w => decide (w = .coll c)) (endMsgs (ofColl c) d)
  let d2 := updComm c (fun x => { x with
    coll := none, seq := (x.seq + 1) % 2 ^ 32, enters := x.nexts, nexts := [] }) d1
  finishDesc k.q k.idx 0 k.result (k.bytes x) 0 (each k.laneUnits returnGrant d2)

/-- A collective goes on (R327): its SEALs, then its completion. -/
def collProgress (c : Nat) (d : Dev) : Dev :=
  match collAt c d with
  | none => d
  | some (x, k) =>
    if !partDone x k then d
    else
      let s := if k.sealed then (d, true)
        else sendSeals c x k 0 k.redone (updColl c (fun k => { k with sealed := true, sealsOut := others x }) d)
      let d1 := if s.2 then s.1 else failOwn c 3 s.1
      match collAt c d1 with
      | none => d1
      | some (x, k) =>
        if k.sealsOut.isEmpty && (others x).all (fun r => Tab.has k.seals r) then completeColl c x k d1 else d1

/-- A contribution of a collective is acknowledged. -/
def contribAcked (c rank off epoch : Nat) (d : Dev) : Dev :=
  match collAt c d with
  | none => d
  | some (_, k) =>
    if Tab.getD k.epochs (pieceKey rank off) 0 ≠ epoch then d
    else collProgress c (kickColl c (updColl c (fun k => { k with
      unacked := k.unacked.filter (fun t => t != (rank, off)) }) d))

/-- A SEAL of a collective is acknowledged. -/
def sealAcked (c rank : Nat) (d : Dev) : Dev :=
  collProgress c (updColl c (fun k => { k with sealsOut := k.sealsOut.filter (fun r => r != rank) }) d)

/-- The grant for all of a collective's lanes on a die becomes one for each (R45). -/
def splitLanes (i c : Nat) (l : List Nat) (d : Dev) : Dev :=
  updRail (8 + i) (fun r => { r with
    grants :=
    r.grants.filter (fun g => decide (g.unit ≠ .lanes i c)) ++ l.map (fun n => ⟨.lane i n, 2, none⟩) }) d

/-- A collective is admitted (R312): lanes, current and sequencer are reserved, and its exchange begins. -/
def beginColl (c : Nat) (d : Dev) : Dev :=
  match collAt c d with
  | none => d
  | some (x, k) =>
    let reduces := collReduces k.op
    let l0 := if reduces then (freeLanes x 0 d).getD [] else []
    let l1 := if reduces then (freeLanes x 1 d).getD [] else []
    let first := ((contribsAll x k d).filter (fun p => !p.copy)).map (fun p => (p.rank, p.off))
    let all := (contribsAll x k d).map (fun p => (p.rank, p.off))
    let k1 := { k with
      admitted := true, seqr := freeSeqr (homeDie c) d, lanes0 := l0, lanes1 := l1, chunks := ownChunks x k d,
      toSend := first, unacked := all }
    let d1 := updComm c (fun x => { x with coll := some k1 }) d
    collProgress c (kickColl c (splitLanes 1 c l1 (splitLanes 0 c l0 d1)))

/-! ## What arrives (R318) -/

/-- What R318 says of a packet. -/
inductive CVerdict where
  | nack (reason : Nat)
  | ignored
  | stale
  | mismatch (c : Nat)
  | pass (c : Nat)
  deriving DecidableEq, Repr

/-- The communicator that a packet names. -/
def commById (id : Nat) (d : Dev) : Option Nat := (d.colls.comms.find? (fun p => p.2.id == id)).map Prod.fst

/-- The cipher slot of the answers to a collective packet. -/
def collSlot (p : Packet) (d : Dev) : Nat :=
  match commById p.key d with
  | some c => ((commAt c d).map (fun x => (domKeys x.domain d).2)).getD 0xFFFF
  | none => 0xFFFF

/-- Entries of a die's chunk table in use (R333). -/
def chunksInUse (i : Nat) (d : Dev) : Nat :=
  (d.colls.comms.map (fun p => match p.2.coll with
    | some k => Tab.count k.chunks (fun off h => h.entry && decide (contribDie p.2 k off d = i))
    | none => 0)).sum

/-- The checks of R318 in order on a packet of a kind: 0 TYPE 0xA or its REQUEST, 1 ENTER, 2 RESTART, 3 SEAL. -/
def collVerdict (p : Packet) (kind : Nat) (d : Dev) : CVerdict :=
  match commById p.key d with
  | none => .nack (if kind = 1 then 0xD else 2)
  | some c =>
    match commAt c d with
    | none => .nack 2
    | some x =>
      let ks := domKeys x.domain d
      let dg := (p.gen + 2 ^ 16 - x.gen) % 2 ^ 16
      let ds := (p.cseq + 2 ^ 32 - x.seq) % 2 ^ 32
      if p.ftag ≠ ks.1 || p.enc != decide (ks.2 ≠ 0xFFFF) || (p.enc && !Tab.has d.keys.keys ks.2) || x.n ≤ p.rank ||
         x.members.getD p.rank 0 ≠ tagNode p.tag then .nack 3
      else if dg ≠ 0 || x.broken then
        (if kind = 1 then (if 0 < dg && dg < 2 ^ 15 then .nack 0xD else .ignored) else .stale)
      else if ds ≠ 0 && !(kind = 1 && ds = 1) then
        (if kind = 1 then (if ds < 2 ^ 31 then .nack 0xD else .ignored) else .stale)
      else if kind = 1 || kind = 2 then .pass c
      else
        match x.coll with
        | none => .nack 0xD
        | some k =>
          if !k.admitted then .nack 0xD
          else if p.sig ≠ crc16 k.sig then .mismatch c
          else if kind = 3 then .pass c
          else
            match (contribsFrom x k p.rank d).find? (fun q => q.off == p.off && k.msgLen q.len == p.len) with
            | none => .mismatch c
            | some q =>
              if !q.red then
                (if collReduces p.op && decide (Tab.getD k.epochs (pieceKey p.rank p.off) 0 ≠ p.epoch16) then .stale else .pass c)
              else
                match Tab.get k.chunks p.off with
                | none => .mismatch c
                | some h =>
                  if h.epoch ≠ p.epoch16 then .stale
                  else if (slotAt p.die p.tag d).isNone && !h.entry && !h.clean && 4096 ≤ chunksInUse p.die d then .nack 0xD
                  else .pass c

/-- A packet that fails R318: its answer and its count; a mismatch fails the receiver's part. -/
def collFails (p : Packet) (v : CVerdict) (d : Dev) : Dev :=
  match v with
  | .nack r => sendNack p r (collSlot p d) d
  | .stale => countF .collDrops p.die 0 31 16 1 d
  | .mismatch c => failOwn c 9 (countF .collDrops p.die 0 15 0 1 d)
  | .ignored => sendAck p false (collSlot p d) (enterFilter p.die p.tag 0 false d)
  | .pass _ => d

/-- A message of one packet takes a slot, completes and is acknowledged (R272, R293), or REMOTE_BUSY. -/
def onePacket (p : Packet) (ce : Bool) (d : Dev) : Dev × Bool :=
  if filterFull p.die d then (sendNack p 0xD (collSlot p d) (setBit .pesynFilter p.die 0 31 d), false)
  else if !slotFree p.die d then (sendNack p 0xD (collSlot p d) d, false)
  else (sendAck p ce (collSlot p d) (enterFilter p.die p.tag 0 ce d), true)

/-! ## Reduce on receive (R319 to R322) -/

/-- The engine that works on DEST for a collective on a die (R164). -/
def Coll.engine (k : Coll) (i : Nat) : Eng := .coll i (k.seqr.getD 0)

/-- Bytes of DEST (R322). -/
def readDest (k : Coll) (i va n : Nat) (d : Dev) : Except (XRes × Nat) (List Byte) :=
  match mapRange k.ctx va n .read (k.engine i) d with
  | .error x => .error x
  | .ok ps =>
    match readPieces d ps with
    | .ok l => .ok l
    | .error a => .error (.uncorrectable a, va)

/-- A block of 32 elements that a packet brings to a chunk: its number in the chunk, its bytes, and for an MXFP8 type its scale. -/
structure Block where
  num   : Nat
  bytes : List Byte
  scale : Option Nat
  deriving DecidableEq, Repr, Inhabited

/-- Where a block's elements stand in DEST, and where its scale does (R306, R315). -/
def blockAt (x : Comm) (k : Coll) (off : Nat) (b : Block) : Nat × Nat :=
  (k.dst + off + b.num * elemLen k.typ 32, k.dst + elemLen k.typ (k.elems x).2 + off / 32 + b.num)

/-- How many contributions a block holds in the present epoch (R319). -/
def Chunk.blockCount (h : Chunk) (b : Block) : Nat := Tab.getD h.counts b.num 0

/-- The bytes that a block leaves in DEST, each with its address (R319, R320): the first contribution as it is, each later one combined
with what DEST holds. -/
def blockWrites (x : Comm) (k : Coll) (h : Chunk) (i off : Nat) (d : Dev) (b : Block) : Except (XRes × Nat) (List (Nat × List Byte)) :=
  let at_ := blockAt x k off b
  match b.scale with
  | none =>
    if h.blockCount b = 0 then .ok [(at_.1, b.bytes)]
    else
      match readDest k i at_.1 b.bytes.length d with
      | .error e => .error e
      | .ok old => .ok [(at_.1, combineBytes k.typ k.red k.sat old b.bytes)]
  | some sc =>
    if h.blockCount b = 0 then .ok [(at_.1, b.bytes), (at_.2, natLE 1 sc)]
    else
      match readDest k i at_.1 32 d, readDest k i at_.2 1 d with
      | .error e, _ => .error e
      | _, .error e => .error e
      | .ok old, .ok os =>
        let r := combineMx k.typ k.red (old, leNat os) (b.bytes, sc)
        .ok [(at_.1, r.1), (at_.2, natLE 1 r.2)]

/-- The writes of a list of blocks, or the first that cannot be made. -/
def allWrites (f : Block → Except (XRes × Nat) (List (Nat × List Byte))) : List Block → Except (XRes × Nat) (List (Nat × List Byte))
  | [] => .ok []
  | b :: r =>
    match f b with
    | .error e => .error e
    | .ok l => (allWrites f r).map (fun m => l ++ m)

/-- A byte of a sender's contribution that has arrived. -/
def heldByte (l : List (Nat × Nat × List Byte)) (rank o : Nat) : Option Byte :=
  (l.find? (fun h => h.1 == rank && decide (h.2.1 ≤ o ∧ o < h.2.1 + h.2.2.length))).map (fun h => h.2.2.getD (o - h.2.1) 0)

/-- Block `b` of a sender's MXFP8 contribution of `n` element bytes, where all of it has arrived. -/
def heldBlock (l : List (Nat × Nat × List Byte)) (rank n b : Nat) : Option (List Byte × Nat) :=
  let es := (List.range 32).map (fun j => heldByte l rank (32 * b + j))
  match heldByte l rank (n + b) with
  | none => none
  | some s => if es.all Option.isSome then some (es.map (fun x => x.getD 0), s.toNat) else none

/-- A chunk once a packet of an MXFP8 contribution has been received: its bytes are held until their partners arrive (R319). -/
def Chunk.receive (h : Chunk) (typ : Nat) (p : Packet) : Chunk :=
  if isMx typ then { h with held := h.held ++ [(p.rank, p.off32, p.payload)] } else h

/-- The blocks that a packet brings to a chunk (R319): of an MXFP8 type those whose elements and scale are now both at hand. -/
def packetBlocks (k : Coll) (h : Chunk) (p : Packet) : List Block :=
  if isMx k.typ then
    (List.range (h.len / 32)).filterMap (fun b =>
      match heldBlock h.held p.rank h.len b, heldBlock (h.receive k.typ p).held p.rank h.len b with
      | none, some x => some ⟨b, x.1, some x.2⟩
      | _, _ => none)
  else
    let bs := elemLen k.typ 32
    (List.range (ceilDiv p.payload.length bs)).map (fun b => ⟨p.off32 / bs + b, (p.payload.drop (b * bs)).take bs, none⟩)

/-- Where the bytes of a packet that is not reduced go (R314, R315): the elements to their positions of DEST, and an MXFP8 type's
scales to theirs. -/
def packetPlaces (x : Comm) (k : Coll) (p : Packet) (q : Piece) : List (Nat × List Byte) :=
  let base := if k.op = 0x24 then k.dst + (k.vtab.getD p.rank ⟨0, 0, 0, 0⟩).recvOff else k.dst
  let es := p.payload.take (q.len - p.off32)
  let ss := p.payload.drop (q.len - p.off32)
  (if es.isEmpty then [] else [(base + p.off + p.off32, es)]) ++
  (if ss.isEmpty then []
   else [(base + elemLen k.typ (k.elems x).2 + p.off / 32 + (p.off32 + es.length - q.len), ss)])

/-- The ranges of DEST that a packet of a contribution writes. -/
def packetSpans (x : Comm) (k : Coll) (p : Packet) (q : Piece) : List (Nat × Nat) :=
  if q.red then
    match Tab.get k.chunks p.off with
    | none => []
    | some h => (packetBlocks k h p).flatMap (fun b =>
        let at_ := blockAt x k p.off b
        (at_.1, b.bytes.length) :: (if b.scale.isSome then [(at_.2, 1)] else []))
  else (packetPlaces x k p q).map (fun w => (w.1, w.2.length))

/-- The ranges of DEST that a packet of a contribution reads: of the blocks that it is combined with (R319). -/
def combineSpans (x : Comm) (k : Coll) (p : Packet) (q : Piece) : List (Nat × Nat) :=
  match (if q.red then Tab.get k.chunks p.off else none) with
  | none => []
  | some h => ((packetBlocks k h p).filter (fun b => h.blockCount b != 0)).flatMap (fun b =>
      let at_ := blockAt x k p.off b
      (at_.1, b.bytes.length) :: (if b.scale.isSome then [(at_.2, 1)] else []))

/-- What a packet of a contribution writes, each run of bytes with its address, and the chunks after it (R314, R315, R319). -/
def packetWrites (x : Comm) (k : Coll) (p : Packet) (q : Piece) (d : Dev) : Except (XRes × Nat) (List (Nat × List Byte) × Tab Chunk) :=
  if q.red then
    match Tab.get k.chunks p.off with
    | none => .ok ([], k.chunks)
    | some h =>
      let bs := packetBlocks k h p
      let h1 := h.receive k.typ p
      (allWrites (blockWrites x k h p.die p.off d) bs).map (fun l => (l,
        Tab.set k.chunks p.off { h1 with counts := bs.foldl (fun t b => Tab.set t b.num (h.blockCount b + 1)) h1.counts }))
  else .ok (packetPlaces x k p q, k.chunks)

/-- Writes runs of bytes of DEST whose pages are mapped: the flag says that each write was made whole (R148). -/
def writeRuns (k : Coll) (i : Nat) : List (Nat × List Byte) → Dev → Dev × Bool
  | [], d => (d, true)
  | (va, l) :: r, d =>
    match mapRange k.ctx va l.length .write (k.engine i) d with
    | .error _ => (d, false)
    | .ok ps =>
      let w := writePieces ps l d
      let z := writeRuns k i r w.1
      (z.1, w.2 && z.2)

/-- The ranges of DEST that the whole chunk of a contribution takes, in increasing address order (R178). -/
def chunkSpans (x : Comm) (k : Coll) (p : Packet) (q : Piece) : List (Nat × Nat) :=
  if q.red then
    match Tab.get k.chunks p.off with
    | none => []
    | some h =>
      let at_ := blockAt x k p.off ⟨0, [], none⟩
      (at_.1, h.len) :: (if isMx k.typ then [(at_.2, h.len / 32)] else [])
  else
    let base := if k.op = 0x24 then k.dst + (k.vtab.getD p.rank ⟨0, 0, 0, 0⟩).recvOff else k.dst
    (base + p.off, q.len) ::
    (if q.len < p.len then [(base + elemLen k.typ (k.elems x).2 + p.off / 32, p.len - q.len)] else [])

/-- A packet of a contribution meets DEST (R178): every page of its chunk is translated before a byte moves, and every byte of DEST
that it is combined with is read before one is written. The flag says that each write was made whole. Packets meet DEST in their order
of arrival, which is the order in which contributions are combined (R319, R321). -/
def meetDest (c : Nat) (p : Packet) (q : Piece) (d : Dev) : Except (XRes × Nat) (Dev × Bool) :=
  match collAt c d with
  | none => .ok (d, true)
  | some (x, k) =>
    let spans := packetSpans x k p q
    match mapRanges k.ctx (chunkSpans x k p q) .write (k.engine p.die) d with
    | .error e => .error e
    | .ok _ =>
      match packetWrites x k p q d with
      | .error e => .error e
      | .ok w =>
        let d0 := useRanges k.ctx (combineSpans x k p q) .read (k.engine p.die) d
        let r := writeRuns k p.die w.1 (updColl c (fun k => { k with chunks := w.2 }) d0)
        .ok (useRanges k.ctx spans .write (k.engine p.die) r.1, r.2)

/-- The contribution that a packet belongs to. -/
def pieceOf (c : Nat) (p : Packet) (d : Dev) : Option Piece :=
  (collAt c d).bind (fun y => (contribsFrom y.1 y.2 p.rank d).find? (fun q => q.off == p.off && y.2.msgLen q.len == p.len))

/-- Is a contribution from a rank at an offset reduced here? -/
def reducesHere (c : Nat) (p : Packet) (d : Dev) : Bool := (pieceOf c p d).any Piece.red

/-- A contribution's message completes (R272): the filter, the slot, the ACK, and what follows. A chunk that is now full becomes clean
when its last checks have passed (`settleFull`). -/
def completeContrib (c : Nat) (p : Packet) (q : Piece) (d : Dev) : Dev :=
  match slotAt p.die p.tag d with
  | none => d
  | some s =>
    let d1 := sendAck (s.asPacket p.die) s.ce (slotCipher s d) (enterFilter p.die p.tag 0 s.ce (dropSlot p.die p.tag d))
    if q.red then d1
    else collProgress c (updColl c (fun k => { k with placed := Tab.set k.placed p.rank (Tab.getD k.placed p.rank 0 + q.len) }) d1)

/-- A packet waits on a fault of DEST (R177, R181): it is held, once, and met again when the fault resumes. -/
def stallPacket (c : Nat) (p : Packet) (d : Dev) : Dev :=
  updColl c (fun k => { k with
    stalled := if k.stalled.any (fun x => x.tag == p.tag && x.off32 == p.off32) then k.stalled else k.stalled ++ [p] }) d

/-- A packet cannot meet DEST (R146, R177, R181, R322): on a page that is not mapped it waits in a fault, and otherwise the part fails. -/
def destStops (c : Nat) (p : Packet) (e : XRes × Nat) (d : Dev) : Dev :=
  match collAt c d with
  | none => d
  | some (_, k) =>
    match e with
    | (.notMapped lv, va) =>
      (match raiseFault k.ctx va lv .write (k.engine p.die) (.coll c) d with
       | .ok d1 => stallPacket c p d1
       | .error d1 => failOwn c 8 (closeSlot p.die p.tag 1 d1))
    | (.uncorrectable a, _) => failOwn c 0xF (closeSlot p.die p.tag 1 (noteUe (.dev a) 3 d))
    | (r, _) => failOwn c (xStatus r) (closeSlot p.die p.tag 1 d)

/-- A TYPE 0xA packet that passed R318 finds its slot (R271, R319). -/
def contribInSlot (c : Nat) (p : Packet) (auth : Bool) (d : Dev) : Dev :=
  match slotAt p.die p.tag d, pieceOf c p d with
  | some s, some q =>
      match s.place p.off32 with
      | (none, true) => dropDuplicate p.die d
      | (none, false) => dropMalformed p.die d
      | (some b, _) =>
        let w := meetDest c p q d
        if p.enc && !auth then
          failOwn c 7 (sendNack p 7 0xFFFF (closeSlot p.die p.tag 2 (countF .cipherStats p.die 0 31 16 1
            (match w with
             | .ok r => r.1
             | .error _ => d))))
        else
          match w with
          | .error e => destStops c p e d
          | .ok (d1, false) => failOwn c 0xF (closeSlot p.die p.tag 1 d1)
          | .ok (d1, true) =>
            let d2 := updSlot p.die p.tag (fun s => s.take b p.off32 p.payload.length) d1
            if s.len ≤ s.count + p.payload.length then completeContrib c p q d2 else eligibleAgain p.die p.tag d2
  | _, _ => d

/-- A TYPE 0xA packet arrives at its slot: a packet beyond the bitmap is malformed, and any other one is met (R272, R278, R281). -/
def contribArrives (c : Nat) (p : Packet) (ce auth : Bool) (d : Dev) : Dev :=
  match slotAt p.die p.tag d with
  | none => d
  | some s => contribInSlot c p auth (when_ (s.place p.off32 != (none, false)) (arrives p s ce) d)

/-- The first packet or the REQUEST of a contribution takes a slot (R293), and an entry of the chunk table where it is
reduced (R318). -/
def contribSlot (c : Nat) (p : Packet) (a : Option Nat) (d : Dev) : Dev × Bool :=
  if filterFull p.die d then (sendNack p 0xD (collSlot p d) (setBit .pesynFilter p.die 0 31 d), false)
  else if !slotFree p.die d then (sendNack p 0xD (collSlot p d) d, false)
  else
    let inst := ((commAt c d).map Comm.inst).getD 0
    (updPes p.die (fun t => { t with
        slots := Tab.set t.slots p.tag (freshSlot p inst (clock (fdie p.die) d) (residence d) none a (some (c, p.rank, p.off, p.epoch16))) })
      (when_ (reducesHere c p d) (updColl c (fun k => { k with
        chunks := Tab.modify k.chunks p.off (fun h => { h with entry := !h.clean }) })) d), true)

/-- A CONTRIBUTION packet, TYPE 0xA, arrives (R287, R315 to R319). -/
def rxContribution (p : Packet) (ce auth : Bool) (d0 : Dev) : Dev :=
  let d := filterStep p.die d0
  match Tab.get (pesAt p.die d).filter p.tag with
  | some e => meetFilter p e (collSlot p d) (budgetAfter p ce d)
  | none =>
    match collVerdict p 0 d with
    | .pass c =>
      (match slotAt p.die p.tag d with
       | some s => if s.at0.isNone then dropMalformed p.die d else contribArrives c p ce auth d
       | none =>
         if 65536 < p.len then dropMalformed p.die d
         else
           let x := contribSlot c p (some (clock (fdie p.die) d)) d
           if x.2 then contribArrives c p ce auth x.1 else x.1)
    | v => collFails p v d

/-- The REQUEST of a scheduled contribution arrives (R316). -/
def rxContribRequest (p : Packet) (ce auth : Bool) (d0 : Dev) : Dev :=
  let d := filterStep p.die d0
  match Tab.get (pesAt p.die d).filter p.tag with
  | some e => meetFilter p e (collSlot p d) d
  | none =>
    match collVerdict p 0 d with
    | .pass c =>
      if p.enc && !auth then dropUnauth p.die d
      else if (slotAt p.die p.tag d).isSome then requestAgain p.die p.tag (meetSlot p.die p.tag ce d)
      else
        let x := contribSlot c p none d
        if x.2 then joinGrants p.die p.tag (meetSlot p.die p.tag ce x.1) else x.1
    | v => collFails p v d

/-- A TYPE 0xB packet arrives: the filter, authentication, the checks, then what its kind does, after its ACK. -/
def rxControl (p : Packet) (kind : Nat) (ce auth : Bool) (act : Nat → Dev → Dev) (d0 : Dev) : Dev :=
  let d := filterStep p.die d0
  match Tab.get (pesAt p.die d).filter p.tag with
  | some e => meetFilter p e (collSlot p d) d
  | none =>
    match collVerdict p kind d with
    | .pass c =>
      if p.enc && !auth then dropUnauth p.die d
      else
        let x := onePacket p ce d
        if x.2 then act c x.1 else x.1
    | .nack r => collFails p (.nack r) d
    | v => if p.enc && !auth then dropUnauth p.die d else collFails p v d

/-- An ENTER is held (R301, R313), and compared where the member's own descriptor has entered. -/
def actEnter (p : Packet) (c : Nat) (d : Dev) : Dev :=
  match commAt c d with
  | none => d
  | some x =>
    let b := (p.payload.drop 4).take 12
    if p.cseq = x.seq then checkEnters c (updComm c (fun x => { x with enters := Tab.set x.enters p.rank b }) d)
    else updComm c (fun x => { x with nexts := Tab.set x.nexts p.rank b }) d

/-- Does an epoch come after another (R324), read modulo 16? -/
def laterEpoch (old new : Nat) : Bool := decide (0 < (new + 16 - old) % 16 ∧ (new + 16 - old) % 16 < 8)

/-- A contribution is to be sent again with a new epoch (R324): the message under way ends, and it waits to start. -/
def redoContrib (c rank off epoch : Nat) (d : Dev) : Dev :=
  let d1 := endMsgs (fun m => match m.owner with
    | .contrib a r o _ => a == c && r == rank && o == off
    | _ => false) d
  updColl c (fun k => { k with
    epochs := Tab.set k.epochs (pieceKey rank off) epoch,
    toSend := if k.admitted && !k.toSend.contains (rank, off) then k.toSend ++ [(rank, off)] else k.toSend,
    unacked := if k.admitted && !k.unacked.contains (rank, off) then k.unacked ++ [(rank, off)] else k.unacked }) d1

/-- A RESTART of chunk `k` from its owner (R324). -/
def actRestart (p : Packet) (c : Nat) (d : Dev) : Dev :=
  match collAt c d with
  | none => d
  | some (x, k) =>
    let num := fieldLE p.payload 4 4
    let hit := (contribsTo x k p.rank d).filter (fun q => q.red && q.off / collC x k d == num &&
      laterEpoch (Tab.getD k.epochs (pieceKey p.rank q.off) 0) p.epoch16)
    kickColl c (each hit (fun q d => redoContrib c p.rank q.off p.epoch16 d) d)

/-- The packets of a communicator that waited on a fault meet DEST again (R181): each as if it had just arrived. -/
def meetAgain (c : Nat) (d : Dev) : Dev :=
  match collAt c d with
  | none => d
  | some (_, k) =>
    each k.stalled (fun p d =>
      match Tab.get (pesAt p.die d).filter p.tag, collVerdict p 0 d with
      | none, .pass _ => contribInSlot c p true d
      | _, _ => d) (updColl c (fun k => { k with stalled := [] }) d)

/-- The status that a received SEAL gives (R20 to R22, R317): a code that no completion entry carries is INTERNAL. DESIGN CHOICE (log
entry 131). -/
def sealStatus (st : Nat) : Nat := if 0xF < st then 0xF else st

/-- A SEAL arrives (R327, R331): its REDONE counts whatever its STATUS (R328). -/
def actSeal (p : Packet) (c : Nat) (d : Dev) : Dev :=
  match collAt c d with
  | none => d
  | some (_, k) =>
    let st := sealStatus (p.payload.getD 1 0).toNat
    let d1 := updColl c (fun k => { k with seals := Tab.set k.seals p.rank (fieldLE p.payload 2 2) }) d
    if st ≠ 0 then failPart c st p.rank true d1
    else if k.op = 0x24 && decide (fieldLE p.payload 4 4 ≠ (k.vtab.getD p.rank ⟨0, 0, 0, 0⟩).recvCnt) then failOwn c 9 d1
    else collProgress c d1

/-- The chunks of a communicator's collective that hold every contribution and are not yet clean. -/
def fullChunks (c : Nat) (d : Dev) : List Nat :=
  match collAt c d with
  | none => []
  | some (x, k) => (k.chunks.filter (fun h => !h.2.clean && h.2.full k.typ x.n)).map Prod.fst

/-- The communicators with such a chunk. -/
def fullComms (d : Dev) : List Nat := (d.colls.comms.map Prod.fst).filter (fun c => !(fullChunks c d).isEmpty)

/-- The chunks of every collective whose last combination was made are clean once the checks of it have passed, which takes less than
one period of the oscillator (R323, R326): DESIGN CHOICE (log entry 131). -/
def settleFull (d : Dev) : Dev :=
  each (fullComms d) (fun c d => collProgress c (each (fullChunks c d) (settleChunk c) d)) d

/-! ## Restarts and lanes (R323 to R325) -/

/-- A chunk restarts at its owner (R324). -/
def restartChunk (c off : Nat) (d : Dev) : Dev :=
  match collAt c d with
  | none => d
  | some (x, k) =>
    match Tab.get k.chunks off with
    | none => d
    | some h =>
      let i := contribDie x k off d
      let ep := (h.epoch + 1) % 16
      let open_ := (Tab.keep (pesAt i d).slots (fun _ s => match s.contrib with
        | some (a, _, o, _) => a == c && o == off
        | none => false)).map Prod.fst
      let d1 := each open_ (fun t d => closeSlot i t 1 d) d
      let d2 := updColl c (fun k => { k with
        redone := k.redone + 1,
        chunks := Tab.modify k.chunks off (fun h => { h with
          epoch := ep, counts := [], held := [], restarts := h.restarts + 1 }) }) d1
      let d3 := countF .collResidue i 0 31 16 1 d2
      let d4 := sendEach (fun r d =>
        sendCtrl i x k r (.restart c r off) ep ([2, 0, 0, 0] ++ natLE 4 (off / collC x k d) ++ List.replicate 8 0) d) (others x) d3
      if d4.2 then kickColl c (redoContrib c x.rank off ep d4.1) else failOwn c 3 d4.1

/-- Renames a lane in the grants of its rail: the spare takes its grant (R325). -/
def regrantLane (i old new : Nat) (d : Dev) : Dev :=
  updRail (8 + i) (fun r => { r with
    grants := r.grants.map (fun g => if g.unit = .lane i old then { g with unit := .lane i new } else g),
    waiting := r.waiting.map (fun w =>
      if w.req.unit = .lane i old then { w with req := { w.req with unit := .lane i new } } else w) }) d

/-- Sets the lanes and the failed lanes of a collective on a die. -/
def Coll.setLanes (k : Coll) (i : Nat) (l f : List Nat) : Coll :=
  if i = 0 then { k with lanes0 := l, failed0 := f } else { k with lanes1 := l, failed1 := f }

/-- The lanes of a collective on a die that failed a check once. -/
def Coll.failed (k : Coll) (i : Nat) : List Nat := if i = 0 then k.failed0 else k.failed1

/-- A lane is retired (R325): to a spare, or out of service where none is left. -/
def retireLane (c i lane : Nat) (d : Dev) : Dev :=
  let l := lanesAt i d
  let data := natLE 1 i ++ natLE 2 c ++ natLE 1 lane
  let d1 := countF .collResidue i 0 15 8 1 (logEv (8 + i) 1 0x05 1 data d)
  if 0 < l.spares then
    let new := 68 - l.spares
    updColl c (fun k => k.setLanes i ((k.lanes i).map (fun n => if n = lane then new else n))
        ((k.failed i).filter (fun n => n != lane)))
      (regrantLane i lane new (updLanes i (fun l => { l with spares := l.spares - 1, out := l.out ++ [lane] }) d1))
  else
    returnGrant (.lane i lane)
      (updColl c (fun k => k.setLanes i ((k.lanes i).filter (fun n => n != lane)) ((k.failed i).filter (fun n => n != lane)))
        (updLanes i (fun l => { l with available := l.available - 1, out := l.out ++ [lane] }) (setBit .collResidue i 0 0 d1)))

/-- A lane's check fails in a chunk (R323 to R325). -/
def laneResidueFailure (i lane chunk : Nat) (d : Dev) : Dev :=
  match (d.colls.comms.find? (fun p => match p.2.coll with
    | some k => (k.lanes i).contains lane
    | none => false)).map Prod.fst with
  | none => d
  | some c =>
    match collAt c d with
    | none => d
    | some (x, k) =>
      match k.chunks.find? (fun p => p.1 / collC x k d == chunk && contribDie x k p.1 d == i && !p.2.clean && p.2.counts.length != 0) with
      | none => d
      | some (off, h) =>
        let again := (k.failed i).contains lane
        let d1 := if again then retireLane c i lane d else updColl c (fun k => k.setLanes i (k.lanes i) (k.failed i ++ [lane])) d
        let left := (((collAt c d1).map (fun p => p.2.lanes i)).getD []).length
        if left = 0 || 4 ≤ h.restarts then failOwn c 0xA d1 else restartChunk c off d1

end Sys2Proof.Machine
end

