-- ==== Sys2Proof/Machine/HostDma.lean ====
section
/-! DEFINITION. Host DMA and flush reads (R376 to R380, R384): pieces, their translation, and what a host answer does to them. -/

namespace Sys2Proof.Machine

/-- A host error is counted (R380): 0 refused, 1 poisoned, 2 timeout, 3 a refused aperture access. -/
def hostError (kind : Nat) (d : Dev) : Dev :=
  match kind with
  | 0 => countF .hostErrors 0 0 31 24 1 d
  | 1 => countF .hostErrors 0 0 23 16 1 d
  | 2 => countF .hostErrors 0 0 15 8 1 d
  | _ => countF .hostErrors 0 0 7 0 1 d

/-- The pieces of a transfer of `len` bytes: none crosses a 4 KiB boundary of host addresses (R378). -/
def dmaPieces (host : Nat) : Nat → Nat → Nat → List (Nat × Nat)
  | 0, _, _ => []
  | fuel + 1, off, len =>
    if len = 0 then []
    else
      let n := min len (4096 - (host + off) % 4096)
      (off, n) :: dmaPieces host fuel (off + n) (len - n)

/-- The transfer of a descriptor. -/
def dmaAt (q idx : Nat) (d : Dev) : Option (Nat × Dma) := d.link.dmas.find? (fun p => p.2.q == q && p.2.idx == idx)

/-- Changes a transfer. -/
def updDma (k : Nat) (f : Dma → Dma) (d : Dev) : Dev :=
  { d with link := { d.link with dmas := Tab.modify d.link.dmas k f } }

/-- Pieces of a die's engine in flight (R378): those that await host data, and those that wait to go to the host. -/
def piecesOut (i : Nat) (d : Dev) : Nat :=
  Tab.count d.link.reads (fun _ r => match r.why with
    | .piece q _ _ => q % 2 == i
    | _ => false) +
  (d.link.waiting.filter (fun t => t.cls == 1 + i && t.isData)).length

/-- A device-side translation of a piece (R177, R178, R181): its physical pieces, or the device after
the failure or the wait. -/
def dmaMap (q idx : Nat) (m : Dma) (off n : Nat) (k : Kind) (d : Dev) : Dev × Option (List (Nat × Nat)) :=
  let fr := sliceFrags m.frags off n
  let e : Eng := .pesyn (q % 2) (q / 2 % 16)
  match mapRanges m.ctx fr k e d with
  | .ok ps => (fillRanges m.ctx fr k e d, some ps)
  | .error (.notMapped lv, va) =>
    (match raiseFault m.ctx va lv k (.hostDma (q % 2)) (.desc q idx) d with
     | .ok d1 => (d1, none)
     | .error d1 => (failDesc q idx 8 2 d1, none))
  | .error (.uncorrectable a, _) => (failDesc q idx 0xF 2 (noteUe (.dev a) 4 d), none)
  | .error (r, _) => (failDesc q idx (xStatus r) 2 d, none)

/-- The bytes of a piece are read or written: the access is counted (R191). -/
def countPiece (q : Nat) (m : Dma) (off n : Nat) (d : Dev) : Dev :=
  each (sliceFrags m.frags off n) (fun f d => countRange m.ctx f.1 f.2 (.pesyn (q % 2) (q / 2 % 16)) d) d

/-- Moves on with a transfer (R378, R379): from the host, a read for each piece, at most 128 of an engine in flight; to
the host, each piece is read and written, and the flush read follows the last. -/
def pumpDma (q idx : Nat) : Nat → Dev → Dev
  | 0, d => d
  | fuel + 1, d =>
    match dmaAt q idx d with
    | none => d
    | some (k, m) =>
      match m.left with
      | [] =>
        if !m.toDev && !m.flush && decide (m.len ≤ m.landed) then sendFlush (1 + q % 2) m.inst m.inst q idx (updDma k (fun m => { m with flush := true }) d)
        else d
      | (off, n) :: rest =>
        if !hostOpen d || inFault (.desc q idx) d || decide (128 ≤ piecesOut (q % 2) d) then d
        else
          let x := dmaMap q idx m off n (if m.toDev then .write else .read) d
          match x.2 with
          | none => x.1
          | some ps =>
            let d1 := updDma k (fun m => { m with left := rest }) x.1
            if m.toDev then pumpDma q idx fuel (hostRead m.inst (m.host + off) n (.piece q idx off) d1)
            else
              match readPieces d1 ps with
              | .error a => failDesc q idx 0xF 2 (noteUe (.dev a) 4 d1)
              | .ok l =>
                pumpDma q idx fuel (updDma k (fun m => { m with landed := m.landed + n })
                  (hostPut (1 + q % 2) (some (q, idx)) m.inst (m.host + off) l (markHost q idx true (countPiece q m off n (readsDev ps d1)))))

/-- Enough steps for every piece and the flush. -/
def dmaFuel : Nat := 32768

/-- The host DMA grant of a die's engine returns when it has no transfer left (R45). -/
def idleDma (i : Nat) (d : Dev) : Dev :=
  if d.link.dmas.any (fun p => p.2.q % 2 == i) then d else returnGrant (.hostDma i) d

/-- Goes on with every transfer of a die's engine: a piece slot is free. -/
def pumpEngine (i : Nat) (d : Dev) : Dev :=
  idleDma i (each ((d.link.dmas.filter (fun p => p.2.q % 2 == i)).map (fun p => (p.2.q, p.2.idx))) (fun x d => pumpDma x.1 x.2 dmaFuel d) d)

/-- An admitted transfer begins (R377). -/
def startDma (q idx : Nat) (toDev : Bool) (inst ctx host : Nat) (frags : List (Nat × Nat)) (len : Nat) (d : Dev) : Dev :=
  let k := (d.link.dmas.getLast?.map (fun p => p.1 + 1)).getD 0
  pumpDma q idx dmaFuel { d with link := { d.link with
    dmas := Tab.set d.link.dmas k {
      q := q, idx := idx, toDev := toDev, inst := inst, ctx := ctx, host := host, frags := frags, len := len,
      left := dmaPieces host dmaFuel 0 len, landed := 0, flush := false } } }

/-- A transfer has ended OK; one to the host has had its flush read. -/
def endDma (q idx : Nat) (m : Dma) (k : Nat) (d : Dev) : Dev :=
  pumpEngine (q % 2) (okDesc q idx 0 m.len { markHost q idx false d with link := { d.link with dmas := Tab.erase d.link.dmas k } })

/-- The end of a descriptor that waited for a flush read comes (R384); an OK whose E has passed is none (R65). -/
def endBehind (q idx : Nat) (d : Dev) : Dev :=
  match endingOf q idx d with
  | none => d
  | some b =>
    let d1 := { d with link := { d.link with behind := d.link.behind.erase b } }
    if b.status = 0 && expired q idx d then failDesc q idx 4 4 d1 else finishNow q idx b.status b.result b.bytes b.detail d1

/-- Host data for a piece (R379): it is placed, or translated again where its mapping went meanwhile. -/
def placePiece (q idx off : Nat) (l : List Byte) (d : Dev) : Dev :=
  match dmaAt q idx d with
  | none => d
  | some (k, m) =>
    let x := dmaMap q idx m off l.length .write d
    match x.2 with
    | none => updDma k (fun m => { m with left := (off, l.length) :: m.left }) x.1
    | some ps =>
      let w := writePieces ps l x.1
      if !w.2 then pumpEngine (q % 2) (failDesc q idx 0xF 2 w.1)
      else
        let d1 := updDma k (fun m => { m with landed := m.landed + l.length }) (countPiece q m off l.length w.1)
        if m.len ≤ m.landed + l.length then endDma q idx m k d1 else pumpEngine (q % 2) d1

/-- A host refusal, poisoned data or a timeout ends a transfer (R380). -/
def failPiece (q idx status origin : Nat) (d : Dev) : Dev := pumpEngine (q % 2) (failDesc q idx status origin d)

/-- A flush read returns (R384): the transfer that it ends, or the descriptor whose end waited for it. -/
def flushReturn (id : Nat) (d : Dev) : Dev :=
  match Tab.get d.link.flushes id with
  | none => d
  | some (q, idx, _) =>
    let d1 := { d with link := { d.link with flushes := Tab.erase d.link.flushes id } }
    match d1.link.behind.find? (fun b => b.id == id), dmaAt q idx d1 with
    | some b, _ => endBehind b.q b.idx d1
    | none, some (k, m) => if m.flush then endDma q idx m k d1 else d1
    | none, none => d1

/-- The host refuses a flush read, poisons it, or does not answer it in time (R380): the transfer that it was to end fails; the end of any
other descriptor has waited for it long enough. -/
def flushFailed (id status origin : Nat) (d : Dev) : Dev :=
  match Tab.get d.link.flushes id with
  | none => d
  | some (q, idx, _) =>
    let d1 := { d with link := { d.link with flushes := Tab.erase d.link.flushes id } }
    match (dmaAt q idx d1).map (fun p => p.2.flush) with
    | some true => failPiece q idx status origin (markHost q idx false d1)
    | _ => flushReturn id d

/-- Goes on with the transfers of both engines: a piece slot may be free (R378). -/
def pumpHost (d : Dev) : Dev := each [0, 1] (fun i d => when_ (d.link.dmas.any (fun p => p.2.q % 2 == i)) (pumpEngine i) d) d

end Sys2Proof.Machine
end

