-- ==== Sys2Proof/Machine/Receive.lean ====
section
/-! DEFINITION. Pesyn packets that arrive (chapters 08, 09, 10): answers at the initiator, what each packet does, the local path
(R242), and the commands of the transport. -/

namespace Sys2Proof.Machine

/-! ## Answers at the initiator (R284, R292) -/

/-- The sequence of the message that an answer names: one of this module's (R284). -/
def answered (p : Packet) (d : Dev) : Option Msg :=
  if tagNode p.tag = d.addr.node then msgAt p.die (tagSeq p.tag) d else none

/-- Is an answer accepted (R284, R296)? The pair says that it is, and that it failed authentication. -/
def answerOk (p : Packet) (srcNode srcDie : Nat) (auth : Bool) (m : Msg) : Bool × Bool :=
  if srcNode ≠ m.node || srcDie ≠ p.die then (false, false)
  else if p.typ = 5 && p.reason = 7 && !p.enc then (true, false)
  else if p.enc != decide (m.cipher ≠ 0xFFFF) then (false, false)
  else if p.enc && !auth then (false, true)
  else (true, false)

/-- Any answer but REMOTE_BUSY resets the timer and the count of REMOTE_BUSY NACKs (R280, R291). -/
def noteAnswer (i seq : Nat) (d : Dev) : Dev :=
  updMsg i seq (fun m => { m with
    answerAt := clock (fdie i) d, interval := rto d, timerAt := clock (fdie i) d, busy := 0, lastBusy := false }) d

/-- An ACK (R275, R292): the message completes. -/
def rxAck (p : Packet) (m : Msg) (d : Dev) : Dev :=
  let seq := tagSeq p.tag
  if m.isRead || m.state = .requesting then d
  else
    let d1 := retireMsg p.die seq (updWin m (fun w => winAck (bitOf p.flags 1) m.len w d) d)
    match m.owner with
    | .desc q idx => releaseFlags p.die q (okDesc q idx 0 m.len d1)
    | .contrib c rank off epoch => contribAcked c rank off epoch d1
    | .enter _ _ => d1
    | .restart _ _ _ => d1
    | .seal c rank => sealAcked c rank d1

/-- A NACK (R283, R291, R292). -/
def rxNack (p : Packet) (d : Dev) : Dev :=
  if p.reason = 0xD then busyNack p.die (tagSeq p.tag) d
  else failMsg p.die (tagSeq p.tag) p.reason 3 d

/-- A GRANT of a write or a contribution (R276): the first one is the moment W. -/
def rxGrant (p : Packet) (m : Msg) (d : Dev) : Dev :=
  if !m.sched then d
  else
    let seq := tagSeq p.tag
    pump p.die seq (updMsg p.die seq (fun m => { m with
      state := .awaiting, granted := max m.granted (min m.len (p.off32 + p.len32)),
      wAt := if m.wAt.isSome then m.wAt else some (clock (fdie p.die) d), res := if m.wAt.isSome then m.res else residence d,
      backAt := if m.state = .requesting then none else m.backAt }) d)

/-- A RESEND (R281): the packets that its range covers go out again, unless the message is in its backoff (R291). -/
def rxResend (p : Packet) (m : Msg) (d : Dev) : Dev :=
  if m.isRead || !m.admitted || m.typ = 11 || m.state = .requesting || m.backAt.isSome then d
  else
    sendUpTo p.die (tagSeq p.tag) (min m.limit (ceilDiv (p.off32 + p.len32) (pktSize d) * pktSize d)) true maxPackets
      (p.off32 / pktSize d * pktSize d) d

/-- The bytes of a remote tile that a READ has brought (R116). -/
def giveTile (q idx : Nat) (l : List Byte) (d : Dev) : Dev :=
  updWq q (fun w => { w with
    flight := w.flight.map (fun x => if x.idx = idx && x.done.isNone then { x with tile := x.tile.map (fun t => { t with data := l }) }
                                     else x) }) d

/-- A RESPONSE of a READ (R247, R279): placed through its slot, an access that is counted (R191); the last one completes it. One that is not
placed and fails authentication is dropped without effect (R284, R296). -/
def rxResponse (p : Packet) (m : Msg) (ce bad : Bool) (d : Dev) : Dev :=
  let seq := tagSeq p.tag
  match slotAt p.die p.tag d with
  | none => d
  | some s =>
    if !m.isRead then d
    else
      match s.place p.off32 with
      | (none, true) => if bad then dropUnauth p.die d else dropDuplicate p.die (arrives p s ce d)
      | (none, false) => if bad then dropUnauth p.die d else dropMalformed p.die d
      | (some k, _) =>
        let n := p.payload.length
        let w := writePieces (ldaPieces d (sliceFrags m.frags p.off32 n)) p.payload d
        let d1 := arrives p s ce (when_ (m.ctx != 0xFFFF) (countLda m.ctx (sliceFrags m.frags p.off32 n) (msgEng p.die m d)) w.1)
        if bad then failMsg p.die seq 7 3 (dropSlot p.die p.tag (dropUnauth p.die d1))
        else if !w.2 then failMsg p.die seq 0xF 2 (dropSlot p.die p.tag d1)
        else
          let all := (m.bytes.take p.off32) ++ p.payload ++ m.bytes.drop (p.off32 + n)
          let d2 := updMsg p.die seq (fun m => if m.ctx = 0xFFFF then { m with bytes := all } else m)
            (updSlot p.die p.tag (fun s => s.take k p.off32 n) d1)
          if s.len ≤ s.count + n then
            match m.owner with
            | .desc q idx =>
              let d3 := if m.ctx = 0xFFFF then giveTile q idx all d2 else d2
              okDesc q idx 0 m.len (retireMsg p.die seq (dropSlot p.die p.tag d3))
            | _ => d2
          else eligibleAgain p.die p.tag d2

/-- A GRANT for a message that was refused is answered with a CANCEL (R276). -/
def cancelAgain (p : Packet) (d : Dev) : Dev :=
  match (if tagNode p.tag = d.addr.node then Tab.get (pesAt p.die d).refused (tagSeq p.tag) else none) with
  | none => d
  | some slot => sendAnswer { answerTo p 8 0 (List.replicate 16 0) [] with dstNode := p.dstNode } 0 slot none d

/-- An answer arrives (R284); a message whose send window is over has ended (R282, R298). -/
def rxAnswer (p : Packet) (srcNode srcDie : Nat) (ce auth : Bool) (d0 : Dev) : Dev :=
  let d := if tagNode p.tag = d0.addr.node then sendWindowEnd p.die (tagSeq p.tag) d0 else d0
  match answered p d with
  | none => if p.typ = 3 then cancelAgain { p with dstNode := srcNode } d else d
  | some m =>
    match answerOk p srcNode srcDie auth m with
    | (true, _) =>
      let d1 := if p.typ = 5 && p.reason = 0xD then d else noteAnswer p.die (tagSeq p.tag) d
      (match p.typ with
       | 3 => rxGrant p m d1
       | 4 => rxAck p m d1
       | 5 => rxNack p d1
       | 6 => rxResend p m d1
       | 7 => rxResponse p m ce false d1
       | _ => d1)
    | (false, true) => if p.typ = 7 && m.isRead then rxResponse p m ce true d else dropUnauth p.die d
    | (false, false) => d

/-! ## What a packet does -/

/-- A well-formed packet does what its type says. A slot whose 3 × R have passed is abandoned first (R298), and a packet whose
PACKET_SHIFT is not that of its message's slot is malformed (R266). -/
def rxPacket (p : Packet) (srcNode srcDie : Nat) (ce auth : Bool) (d0 : Dev) : Dev :=
  let d := slotAbandon p.die p.tag d0
  if (slotAt p.die p.tag d).any (fun s => s.shift != p.shift) then dropMalformed p.die d
  else
  match p.typ with
  | 1 => rxData p ce auth d
  | 2 =>
    if p.op = 0x12 then rxReadRange p 0 p.off32 auth d
    else if 0x20 ≤ p.op then rxContribRequest p ce auth d
    else rxWriteRequest p ce auth d
  | 3 => if p.op = 0x12 then rxReadRange p p.off32 p.len32 auth d else rxAnswer p srcNode srcDie ce auth d
  | 8 => rxCancel p auth d
  | 10 => rxContribution p ce auth d
  | 11 =>
    (match (p.payload.getD 0 0).toNat with
     | 1 => rxControl p 1 ce auth (actEnter p) d
     | 2 => rxControl p 2 ce auth (actRestart p) d
     | _ => rxControl p 3 ce auth (actSeal p) d)
  | _ => rxAnswer p srcNode srcDie ce auth d

/-! ## The local path (R242) -/

/-- The key under which the receiving end of a packet of the local path opens it (R294). -/
def openingKey (p : Packet) (d : Dev) : Option (BitVec 256) :=
  let answer := p.typ = 4 || p.typ = 5 || p.typ = 6 || p.typ = 7 || (p.typ = 3 && p.op ≠ 0x12)
  let slot := if answer then ((answered p d).map Msg.cipher).getD 0xFFFF
    else if p.typ = 10 || p.typ = 11 || (p.typ = 2 && decide (0x20 ≤ p.op)) then collSlot p d
    else answerSlot p d
  Tab.get d.keys.keys slot

/-- A packet of the local path as its receiving end takes it: with another key in the slot than it was encrypted under, what that key makes
of it (R416). -/
def loopText (p : Packet) (d : Dev) : Packet :=
  match p.ekey, openingKey p d with
  | some k, some x =>
    if k = x then p
    else
      let iv := cipherIv d.addr.node p.epoch p.count
      { p with payload := gcmText x iv (gcm k iv p.header p.payload) }
  | _, _ => p

/-- Delivers the packets of the local path, oldest first on each die, until none is left. -/
def runLoop : Nat → Dev → Dev
  | 0, d => d
  | fuel + 1, d =>
    match (List.range 2).find? (fun i => !(pesAt i d).loop.isEmpty) with
    | none => d
    | some i =>
      match (pesAt i d).loop with
      | [] => d
      | p :: r =>
        runLoop fuel (rxPacket (loopText p d) d.addr.node i false (p.ekey.isNone || p.ekey == openingKey p d)
          (updPes i (fun x => { x with loop := r }) d))

/-- Has a queue work for its transport engine: an admitted remote operation, or one at its head with its slot? -/
def queueNeeds (w : WQ) : Bool :=
  let remote : Nat → Bool := fun op => decide (0x10 ≤ op ∧ op ≤ 0x12)
  w.flight.any (fun x => x.done.isNone && remote x.op) ||
  (match w.head with
   | some h => h.slot.isSome && remote h.opcode
   | none => false)

/-- Is a transport engine busy, a die's cipher engine or its host DMA engine (R45), or has a GRANT_REQUEST made the unit busy? -/
def unitBusy (u : UnitId) (d : Dev) : Bool :=
  d.pwr.asked.contains u ||
  match u with
  | .pesyn i e =>
    d.q.wqs.any (fun p => p.1 % 2 == i && p.1 / 2 % 16 == e && queueNeeds p.2) ||
    d.colls.comms.any (fun p => p.1 / 2 % 16 == e && p.2.coll.isSome) ||
    (pesAt i d).msgs.any (fun p => p.2.engine == e && p.2.admitted)
  | .cipher i =>
    d.q.wqs.any (fun p => p.1 % 2 == i && queueNeeds p.2 && (domKeys p.2.domain d).2 != 0xFFFF) ||
    d.colls.comms.any (fun p => p.2.coll.isSome && (domKeys p.2.domain d).2 != 0xFFFF) ||
    (pesAt i d).msgs.any (fun p => p.2.cipher != 0xFFFF) || (pesAt i d).slots.any (fun p => slotCipher p.2 d != 0xFFFF)
  | .hostDma i => d.link.dmas.any (fun p => p.2.q % 2 == i)
  | _ => true

/-- Engines and DDR5 channels that are idle return their grants (R45, R46). -/
def idleEngines (d : Dev) : Dev :=
  idleDdr <| each ([8, 9].flatMap (fun r => (railAt r d).grants.map Grant.unit ++ (railAt r d).waiting.map (fun w => w.req.unit)))
    (fun u d => if unitBusy u d then d else returnGrant u d) d

/-- Ends a command: what it put on the local path is delivered, host DMA pieces go on (R378), and idle engines return their grants. -/
def localPath (d : Dev) : Dev := idleEngines (runLoop 1048576 (pumpHost (runLoop 1048576 d)))

/-- The outcome of a command that changes the device and may send. -/
def sends (f : Dev → Dev) (s : State) : Host.Outcome State Fault Refusal := .next { s with dev := localPath (f s.dev) }

/-! ## Packets from the fabric -/

/-- A packet as its die's cipher engine takes it (R411, R416): with ENC set, the text that the key in its slot makes of it, and whether its tag
passes, which is checked whole. -/
def opened (x : RxPkt) (d : Dev) : RxPkt × Bool :=
  let p := parse x
  if !p.enc then (x, true)
  else
    match openingKey p d with
    | none => ({ x with payload := x.payload.take (x.payload.length - 16) }, false)
    | some k =>
      let iv := cipherIv x.srcNode p.epoch p.count
      ({ x with payload := gcmText k iv x.payload }, gcmPasses k iv x.hdr x.payload)

/-- Is a packet an encrypted answer to a message whose slot has become EMPTY? Its engine gets no key, so it fails without a tag check
(R413, R416): DEDUCED (log entry 162). -/
def keyless (p : Packet) (d : Dev) : Bool :=
  p.enc && (openingKey p d).isNone && decide (p.typ = 4 ∨ p.typ = 5 ∨ p.typ = 6 ∨ p.typ = 7 ∨ (p.typ = 3 ∧ p.op ≠ 0x12)) &&
    (answered p d).any (fun m => m.cipher != 0xFFFF)

/-- A packet leaves its receive buffer (R345) and is handled: dropped while the node identifier is not valid (R267),
dropped where it is malformed (R266). A frame that is no more in its buffer was lost there (R345, R146). -/
def receive (x : RxPkt) (d : Dev) : Dev :=
  match (match x.buf with
    | some (p, k, n) => leaveBuffer p k n d
    | none => some (false, d)) with
  | none => d
  | some b =>
    if 2 ≤ x.die || !nodeValid d.addr.node then b.2
    else
      let o := opened x b.2
      let p := parse o.1
      let d1 := when_ p.enc (wantCipher x.die) b.2
      if malformed o.1 o.2 then dropMalformed x.die d1
      else if keyless p d1 then countF .cipherStats x.die 0 15 0 1 (countF .pesynBusy x.die 0 15 0 1 d1)
      else rxPacket p x.srcNode x.srcDie (x.ce || b.1) o.2 d1

/-- A packet command acts on packets of its type, and on a malformed packet whatever its type. -/
def receiveTyp (t : Nat → Nat → Bool) (x : RxPkt) (s : State) : Host.Outcome State Fault Refusal :=
  let o := opened x s.dev
  if t (x.hdr.getD 1 0).toNat (o.1.payload.getD 0 0).toNat || malformed o.1 o.2 then sends (receive x) s else .next s

/-- DATA (R271). -/
def execData (p : RxPkt) (s : State) : Host.Outcome State Fault Refusal := receiveTyp (fun t _ => t == 1) p s

/-- REQUEST (R276, R279). -/
def execRequest (p : RxPkt) (s : State) : Host.Outcome State Fault Refusal := receiveTyp (fun t _ => t == 2) p s

/-- GRANT (R276, R279). -/
def execGrant (p : RxPkt) (s : State) : Host.Outcome State Fault Refusal := receiveTyp (fun t _ => t == 3) p s

/-- ACK (R272, R284). -/
def execAck (p : RxPkt) (s : State) : Host.Outcome State Fault Refusal := receiveTyp (fun t _ => t == 4) p s

/-- NACK (R284, R292). -/
def execNack (p : RxPkt) (s : State) : Host.Outcome State Fault Refusal := receiveTyp (fun t _ => t == 5) p s

/-- RESEND (R281). -/
def execResend (p : RxPkt) (s : State) : Host.Outcome State Fault Refusal := receiveTyp (fun t _ => t == 6) p s

/-- RESPONSE (R247, R279). -/
def execResponse (p : RxPkt) (s : State) : Host.Outcome State Fault Refusal := receiveTyp (fun t _ => t == 7) p s

/-- CANCEL (R273). -/
def execCancel (p : RxPkt) (s : State) : Host.Outcome State Fault Refusal := receiveTyp (fun t _ => t == 8) p s

/-- CONTRIBUTION (R319). -/
def execContribution (p : RxPkt) (s : State) : Host.Outcome State Fault Refusal := receiveTyp (fun t _ => t == 10) p s

/-- ENTER (R313). -/
def execEnter (p : RxPkt) (s : State) : Host.Outcome State Fault Refusal := receiveTyp (fun t k => t == 11 && k == 1) p s

/-- RESTART (R324). -/
def execRestart (p : RxPkt) (s : State) : Host.Outcome State Fault Refusal := receiveTyp (fun t k => t == 11 && k == 2) p s

/-- SEAL (R327). -/
def execSeal (p : RxPkt) (s : State) : Host.Outcome State Fault Refusal := receiveTyp (fun t k => t == 11 && k == 3) p s

/-! ## Timers and grants -/

/-- GRANT_CHUNK (R277). -/
def execGrantChunk (die : Nat) (s : State) : Host.Outcome State Fault Refusal := sends (grantChunk die) s

/-- RETRANSMIT_TIMEOUT (R280). -/
def execRetransmitTimeout (die seq : Nat) (s : State) : Host.Outcome State Fault Refusal :=
  sends (retransmitTimeout die seq) s

/-- RESEND_TIMER (R281). -/
def execResendTimer (die tag : Nat) (s : State) : Host.Outcome State Fault Refusal := sends (resendTimer die tag) s

/-- SEND_WINDOW_END (R282). -/
def execSendWindowEnd (die seq : Nat) (s : State) : Host.Outcome State Fault Refusal := sends (sendWindowEnd die seq) s

/-- REQUEST_TIMEOUT (R283). -/
def execRequestTimeout (die seq : Nat) (s : State) : Host.Outcome State Fault Refusal := sends (requestTimeout die seq) s

/-- SLOT_ABANDON (R273). -/
def execSlotAbandon (die tag : Nat) (s : State) : Host.Outcome State Fault Refusal := sends (slotAbandon die tag) s

/-- FILTER_STEP (R286). -/
def execFilterStep (die : Nat) (s : State) : Host.Outcome State Fault Refusal := sends (filterStep die) s

/-- BACKOFF_END (R291). -/
def execBackoffEnd (die seq : Nat) (s : State) : Host.Outcome State Fault Refusal := sends (backoffEnd die seq) s

/-- ENTER_TIMEOUT (R311). -/
def execEnterTimeout (die seq : Nat) (s : State) : Host.Outcome State Fault Refusal := sends (enterTimeout die seq) s

/-- A change of the lanes in service is programmed into the repair record (R325). -/
def lanesProgrammed (before s : State) : State :=
  if s.dev.colls.lanes = before.dev.colls.lanes then s else programRepair s

/-- LANE_RESIDUE_FAILURE (R323, R325): a retirement is programmed into the repair record as well. -/
def execLaneResidueFailure (die lane chunk : Nat) (s : State) : Host.Outcome State Fault Refusal :=
  .next (lanesProgrammed s { s with dev := localPath (laneResidueFailure die lane chunk s.dev) })

/-! ## The addressing values (R299) -/

/-- Is an opcode a remote or a collective operation? -/
def isRemoteOp (op : Nat) : Bool := decide (0x10 ≤ op ∧ op ≤ 0x2F)

/-- May written addressing values take effect: no remote or collective descriptor is admitted, and no slot serves a local
READ (R299)? -/
def addrFree (d : Dev) : Bool :=
  d.q.wqs.all (fun p => p.2.flight.all (fun x => x.done.isSome || !isRemoteOp x.op)) &&
  (List.range 2).all (fun i => (pesAt i d).slots.all (fun p => p.2.read.isNone))

/-- The addressing values that the registers hold. -/
def addrWritten (d : Dev) : PesynAddr :=
  { node := getF .pesynNode 0 0 23 0 d, ctrl := getW .pesynAddrCtrl 0 0 d,
    pre6 := getW .pesynPrefix6Lo 0 0 d + 2 ^ 32 * getW .pesynPrefix6Hi 0 0 d, waits := false }

/-- Written addressing values take effect; slots that receive are abandoned (R273, R299). -/
def addrTakes (d : Dev) : Dev :=
  if !d.addr.waits || !addrFree d then d
  else
    let d1 := each [0, 1] (fun i d => each ((pesAt i d).slots.map Prod.fst) (fun t d => closeSlot i t 1 d) d) d
    { d1 with addr := addrWritten d1 }

/-- PESYN_ADDRESS_TAKES_EFFECT (R299). -/
def execPesynAddressTakesEffect (s : State) : Host.Outcome State Fault Refusal := .next { s with dev := addrTakes s.dev }

end Sys2Proof.Machine
end

