-- ==== Sys2Proof/Machine/Bounds.lean ====
section
/-! DEFINITION. The device-side time D and D_min (R491 to R499): floors, guaranteed rates, charges, and the time of each
operation, in exact fractions of a microsecond. -/

namespace Sys2Proof.Machine

/-- A time in microseconds as a fraction `n / m`. -/
structure Q where
  n : Nat
  m : Nat
  deriving DecidableEq, Repr

/-- A whole number of microseconds. -/
def Q.of (n : Nat) : Q := ⟨n, 1⟩

/-- A sum of times. -/
def Q.add (a b : Q) : Q := ⟨a.n * b.m + b.n * a.m, a.m * b.m⟩

/-- The larger of two times. -/
def Q.max (a b : Q) : Q := if a.n * b.m < b.n * a.m then b else a

/-- The largest time of a list. -/
def Q.sup (l : List Q) : Q := l.foldl Q.max (Q.of 0)

/-- A time rounded up to whole microseconds (R491). -/
def Q.ceil (a : Q) : Nat := ceilDiv a.n a.m

/-! ## Floors (R495) -/

/-- The number of the floor of a device address: an HBM group 8 × stack + group, a DDR5 site 64 + s. -/
def memFloor (addr : Nat) : Nat :=
  let pfn := addr / 2 ^ 26
  if pfn < 12288 then pfn / 1536 * 8 + groupOf pfn else 64 + siteOf pfn

/-- The floors that bytes at a device address pass on the way to fabric die `i`: the memory's, and from a stack the
mortar link between its brick die and the fabric die, 80 + 2 × stack + i. -/
def passFloors (i addr : Nat) : List Nat :=
  let pfn := addr / 2 ^ 26
  memFloor addr :: (if pfn < 12288 then [80 + 2 * (pfn / 1536) + i] else [])

/-- The rate of a floor in bytes per microsecond. Floor 100 + i is the host DMA engine of die i. -/
def floorRate (f : Nat) (d : Dev) : Nat :=
  if f < 64 then max 1 (15000 * (pcsInService (stackAt (f / 8) d) (f % 8)).length)
  else if f < 80 then 16000
  else if f < 100 then 389000
  else if d.link.width = 2 then 30000 else 15000

/-! ## What a descriptor's local buffers touch -/

/-- The pages that ranges of a context touch, each with its size, and the physical pieces behind those that are mapped. -/
def touched (ctx : Nat) (frags : List (Nat × Nat)) (e : Eng) (d : Dev) : List ((Nat × Nat) × Option (Nat × Nat)) :=
  (frags.flatMap (fun f => cutFrames (f.2 / 2 ^ 26 + 2) f.1 f.2)).map (fun c =>
    match translate ctx c.1 .read e d with
    | .frame lfn off base size _ _ =>
      ((base, size), (Tab.get d.xl.lfns lfn).map (fun l => (l.pfn * 2 ^ 26 + off, c.2)))
    | _ => ((c.1 / 2 ^ 26 * 2 ^ 26, 2 ^ 26), none))

/-- X (R498): 15 µs for each distinct page touched. -/
def termX (l : List ((Nat × Nat) × Option (Nat × Nat))) : Nat := 15 * ((l.map Prod.fst).eraseDups).length

/-- Adds to a number of a table. -/
def addTo (t : Tab Nat) (k v : Nat) : Tab Nat := Tab.set t k (Tab.getD t k 0 + v)

/-- The bytes that pieces move through each floor on the way to fabric die `i`. -/
def floorBytes (i : Nat) (l : List (Nat × Nat)) (t : Tab Nat) : Tab Nat :=
  l.foldl (fun t p => (passFloors i p.1).foldl (fun t f => addTo t f p.2) t) t

/-! ## Guaranteed rates (R496) -/

/-- The children of a node in the shape. -/
def childrenOf (x : Nat) (d : Dev) : List Nat :=
  (d.upd.shape.leaves.filterMap (fun p => if p.2.2 = x then some p.1 else none)) ++
  (d.upd.shape.nodes.filterMap (fun p => if p.2 = x && p.1 ≠ 0 then some (nodeKey p.1) else none))

/-- The guaranteed rate of a leaf on a port in bytes per microsecond, as a fraction. -/
def leafRate (p leaf : Nat) (d : Dev) : Nat × Nat :=
  (pathOf leaf d).foldl (fun r c =>
    (r.1 * weightOf c d, r.2 * max 1 (((childrenOf (parentOf c d) d).map (fun k => weightOf k d)).sum)))
    (5 * max 1 (portRate p d - ctrlRate p d), 4)

/-- The enabled shapers on a leaf's path, the root's among them. -/
def pathShapers (i leaf : Nat) (d : Dev) : List Nat :=
  ((pathOf leaf d) ++ [nodeKey 0]).filter (fun c => shaperOn i c d)

/-- A shaper's rate in units of 1.25 bytes per microsecond. -/
def shaperUnits (i s : Nat) (d : Dev) : Nat := max 1 (getF .shaperRate i s 19 0 d)

/-- The head term H_p (R496). -/
def headTerm (p leaf : Nat) (d : Dev) : Q :=
  let r := leafRate p leaf d
  let n := ((pathOf leaf d).map (fun c => (childrenOf (parentOf c d) d).length + 1)).sum + 1
  (pathShapers (p / 16) leaf d).foldl (fun t s => t.add ⟨9471 * 4, 5 * shaperUnits (p / 16) s d⟩) ⟨n * 9236 * r.2, r.1⟩

/-- V of a message (R497). -/
def charge (len : Nat) (d : Dev) : Nat := len + 170 * ceilDiv len (pktSize d)

/-! ## Loads -/

/-- What a descriptor asks of shared resources: its age, which is 1 more than the periods since its admission, or 0 before it, its leaf, the bytes through each
floor, the charge on each port, the µs that nothing shares, time at the reduction lanes, whether it moves by R495 alone
(READ), on the local path, or as host DMA, and whether some message finds no port. -/
structure Load where
  q      : Nat
  idx    : Nat
  age    : Nat
  devUs  : Nat
  leaf   : Nat
  floors : Tab Nat
  ports  : Tab Nat
  fixed  : Nat
  lane   : Q
  kind   : Nat
  bytes  : Nat
  noPort : Bool
  deriving DecidableEq, Repr

/-- Was a load admitted before another? -/
def Load.before (a b : Load) : Bool := decide (b.age < a.age) || (decide (a.age = b.age) && decide (a.q < b.q))

/-- How many of the loads use a floor. -/
def floorUsers (f : Nat) (l : List Load) : Nat := (l.filter (fun x => decide (0 < Tab.getD x.floors f 0))).length

/-- G (R498): the largest time at a floor, shared with the others that still move bytes through it. -/
def termG (x : Load) (others : List Load) (d : Dev) : Q :=
  Q.sup (x.floors.map (fun f => ⟨f.2 * (floorUsers f.1 others + 1), floorRate f.1 d⟩))

/-- S (R498): the largest time at a port behind what was admitted earlier on the same leaf, and at a shaper. -/
def termS (x : Load) (others : List Load) (d : Dev) : Q :=
  Q.sup (x.ports.flatMap (fun p =>
    let r := leafRate p.1 x.leaf d
    let a := ((others.filter (fun y => y.leaf == x.leaf && y.before x)).map (fun y => Tab.getD y.ports p.1 0)).sum
    let onDie := fun (y : Load) => ((y.ports.filter (fun q => q.1 / 16 == p.1 / 16)).map Prod.snd).sum
    ⟨(a + p.2) * r.2, r.1⟩ ::
    (pathShapers (p.1 / 16) x.leaf d).map (fun s =>
      let c := ((others.filter (fun y => (pathOf y.leaf d).contains s || s == nodeKey 0)).map onDie).sum + onDie x
      (⟨c * 4, 5 * shaperUnits (p.1 / 16) s d⟩ : Q))))

/-- The largest H_p of a load's ports. -/
def termH (x : Load) (d : Dev) : Q := Q.sup (x.ports.map (fun p => headTerm p.1 x.leaf d))

/-- HOST_US and TURN_US as R504 takes them. -/
def hostUs (d : Dev) : Nat := max 1 (getF .boundDeclare 0 0 15 0 d)
/-- TURN_US. -/
def turnUs (d : Dev) : Nat := max 1 (getF .boundDeclare 0 0 31 16 d)

/-- D of a load beside others (R498), in whole microseconds. -/
def Load.time (x : Load) (others : List Load) (d : Dev) : Nat :=
  let f := (Q.of x.fixed).add x.lane
  let g := termG x others d
  Q.ceil (f.add (match x.kind with
    | 1 => g
    | 2 => g.max ⟨x.bytes, 389000⟩
    | 3 => (g.max ⟨x.bytes * hostUs d, 524288⟩)
    | _ => (g.max (termS x others d)).add (termH x d)))

/-- The chunk C_g of a die in bytes, and the turns of a message of L bytes beyond its first grant (R498). -/
def grantTurns (i len : Nat) (d : Dev) : Nat := if len ≤ 65536 then 0 else ceilDiv len (chunkC i d) - 1

/-! ## Loads of messages -/

/-- The charge of a message that has not left its port: what is not formed, and its frames that wait (R498). -/
def unsentCharge (i : Nat) (m : Msg) (d : Dev) : Nat :=
  charge (m.len - min m.len m.sentTo) d +
  ((d.net.ports.map (fun p => ((p.2.data.filter (fun f => f.pkt.tag == m.tag && f.pkt.die == i)).map (fun f => f.bytes + 20)).sum)).sum)

/-- Adds what is left of a message to a load. -/
def Load.addMsg (x : Load) (i : Nat) (m : Msg) (d : Dev) : Load :=
  let x1 := if m.isRead && m.begun then
      { x with floors := floorBytes i (ldaPieces d (sliceFrags m.frags (((slotAt i m.tag d).map Slot.count).getD 0) m.len)) x.floors }
    else if m.ctx = 0xFFFF then x
    else
      { x with
        floors := floorBytes i ((touched m.ctx (sliceFrags m.frags m.sentTo m.len) (.pesyn i m.engine) d).filterMap Prod.snd)
          x.floors }
  if m.isRead || m.node = d.addr.node then x1
  else
    match takePort i m.tag d with
    | some p => if unsentCharge i m d = 0 then x1 else { x1 with ports := addTo x1.ports p (unsentCharge i m d) }
    | none => { x1 with noPort := true }

/-- A load with nothing in it. -/
def Load.blank (q idx age devUs leaf : Nat) : Load :=
  { q := q, idx := idx, age := age, devUs := devUs, leaf := leaf, floors := [], ports := [], fixed := 25, lane := Q.of 0,
    kind := 0, bytes := 0, noPort := false }

/-- The messages of a descriptor, with their dies. -/
def msgsOf (q idx : Nat) (d : Dev) : List (Nat × Msg) :=
  (List.range 2).flatMap (fun i => ((pesAt i d).msgs.filter (fun p => decide (p.2.owner = .desc q idx))).map (fun p => (i, p.2)))

/-! ## Collectives (R499) -/

/-- Bytes that a member combines on a die. -/
def combineBytesOn (x : Comm) (k : Coll) (i : Nat) (d : Dev) : Nat :=
  x.n * (((contribsFrom x k x.rank d).filter (fun p => p.red && contribDie x k p.off d == i)).map (fun p => k.msgLen p.len)).sum

/-- The load of a collective from a list of its contributions, with the tags that their sequences give them. -/
def collLoad (x : Comm) (k : Coll) (w : WQ) (age devUs : Nat) (ps : List (Piece × Nat)) (d : Dev) : Load :=
  let c := collC x k d
  let lanes := min x.lanes (min (lanesAt 0 d).available (lanesAt 1 d).available)
  let reduces := collReduces k.op
  let laneRate := max 1 lanes * 97300
  let sp := k.spans x
  let b0 := Load.blank k.q k.idx age devUs (leafOf w.leaf w.inst d)
  let seen := ps.foldl (fun (acc : Load × List Nat) p =>
    let pc := p.1
    let i := contribDie x k pc.off d
    let twice := pc.copy && acc.2.contains pc.off
    let x1 := if twice then acc.1 else
      { acc.1 with floors := floorBytes i ((touched k.ctx (pieceFrags k x pc) (.pesyn i 0) d).filterMap Prod.snd) acc.1.floors }
    let x2 := if pc.rank = x.rank then x1
      else
        match takePort i p.2 d with
        | some q => { x1 with ports := addTo x1.ports q (charge (k.msgLen pc.len) d) }
        | none => { x1 with noPort := true }
    (x2, if pc.copy then acc.2 ++ [pc.off] else acc.2)) (b0, [])
  let turns := (if k.op = 0x26 then 1 else if k.op = 0x20 then 2 else 1) +
    (if k.op = 0x26 then 0 else ceilDiv c (chunkC (homeDie 0) d) - 1)
  let tl : Q := if reduces then Q.max ⟨combineBytesOn x k 0 d, laneRate⟩ ⟨combineBytesOn x k 1 d, laneRate⟩ else Q.of 0
  let restart : Q := if reduces then ⟨2 * (turnUs d * laneRate + (x.n - 1) * c), laneRate⟩ else Q.of 0
  let xs := if k.op = 0x26 then 0 else termX (touched k.ctx (sp.1 ++ sp.2) (.coll (k.q % 2) 0) d)
  { seen.1 with fixed := 25 + xs + turns * turnUs d, lane := tl.add restart }

/-! ## What is admitted -/

/-- The load of an admitted descriptor, with its remaining bytes. -/
def loadOf (q : Nat) (w : WQ) (x : Desc) (d : Dev) : Load :=
  let age := clock (x.die q) d - x.since + 1
  let b := Load.blank q x.idx age x.devUs (leafOf w.leaf w.inst d)
  match collOf q x.idx d with
  | some c =>
    (match collAt c d with
     | some (cm, k) =>
       let left := (contribsAll cm k d).filter (fun p => k.unacked.contains (p.rank, p.off))
       collLoad cm k w age x.devUs (left.map (fun p =>
         (p, mkTag d.addr.node (Tab.getD k.seqs (pieceKey p.rank p.off) 0)))) d
     | none => b)
  | none =>
    let l := (msgsOf q x.idx d).foldl (fun acc p => acc.addMsg p.1 p.2 d) b
    match d.link.dmas.find? (fun p => p.2.q == q && p.2.idx == x.idx) with
    | some (_, dm) =>
      { l with
        kind := 3, bytes := dm.len - dm.landed, fixed := 25 + (if dm.toDev then 1 else 2) * hostUs d + 1000 +
          termX (touched dm.ctx (sliceFrags dm.frags dm.landed dm.len) (.pesyn (q % 2) 0) d),
        floors := addTo (floorBytes (q % 2) ((touched dm.ctx (sliceFrags dm.frags dm.landed dm.len) (.pesyn (q % 2) 0) d).filterMap
          Prod.snd) []) (100 + q % 2) (dm.len - dm.landed) }
    | none =>
      match msgsOf q x.idx d with
      | [] => l
      | (i, m) :: _ =>
        let loc := decide (m.node = d.addr.node)
        { l with
          kind := if m.isRead then 1 else if loc then 2 else 0, bytes := m.len - min m.len m.sentTo,
          fixed := 25 + (if m.isRead then 15 * ((m.frags.map (fun f => f.1 / 2 ^ 26)).eraseDups).length
              else termX (touched m.ctx (sliceFrags m.frags m.sentTo m.len) (.pesyn i 0) d)) +
            (if loc then 0
             else grantTurns i (m.len - min m.len (if m.isRead then ((slotAt i m.tag d).map Slot.count).getD 0 else m.granted)) d *
               turnUs d) +
            (if flagHeld m d then turnUs d else 0) }

/-- The loads of every admitted descriptor that has not finished, launches aside. -/
def loads (d : Dev) : List Load :=
  d.q.wqs.flatMap (fun p => (p.2.flight.filter (fun x => x.done.isNone && x.op != 0x40)).map (fun x => loadOf p.1 p.2 x d))

/-- Do two loads share a leaf, a port, a shaper, a floor or a lane (R491)? -/
def Load.shares (a b : Load) (d : Dev) : Bool :=
  a.leaf == b.leaf || a.ports.any (fun p => decide (0 < Tab.getD b.ports p.1 0)) ||
  a.floors.any (fun p => decide (0 < Tab.getD b.floors p.1 0)) ||
  (List.range 2).any (fun i => ((pathShapers i a.leaf d).any (fun s => (pathShapers i b.leaf d).contains s)))

/-- Does a load fit beside what is admitted (R491): its D, and every descriptor that shares with it? -/
def fitsBound (x : Load) (d : Dev) : Bool :=
  let ls := loads d
  !x.noPort && decide (x.time ls d ≤ x.devUs) &&
  ls.all (fun y => !y.shares x d ||
    decide (y.age - 1 + 8 * y.time (x :: ls.filter (fun z => z != y)) d ≤ 8 * y.devUs))

/-- D_min of a load (R491). -/
def Load.alone (x : Load) (d : Dev) : Nat := x.time [] d

end Sys2Proof.Machine
end

