-- ==== Sys2Proof/Machine/Bricks.lean ====
section
/-! DEFINITION. What every brick instruction shares (chapter 04): scratch and registers, brick faults, the waits of an
instruction stream, host accesses, fetching, and the test that an instruction issues. -/

namespace Sys2Proof.Machine

/-! ## Contexts and launches -/

/-- The context of a launch's brick. -/
def ctxAt (k : Nat) (d : Dev) : Option BCtx := Tab.get d.bricks.ctxs k

/-- Changes a context. -/
def updCtx (k : Nat) (f : BCtx → BCtx) (d : Dev) : Dev :=
  { d with bricks := { d.bricks with ctxs := Tab.modify d.bricks.ctxs k f } }

/-- An admitted launch. -/
def launchAt (l : Nat) (d : Dev) : Option Launch := Tab.get d.bricks.launches l

/-- Is a context the one on its brick? -/
def onBrick (k : Nat) (x : BCtx) (d : Dev) : Bool := (brickAt x.brick d).cur == some k

/-- The contexts of a brick, the one on it first. -/
def ctxsOf (b : Nat) (d : Dev) : List (Nat × BCtx) :=
  let l := d.bricks.ctxs.filter (fun p => p.2.brick == b)
  l.filter (fun p => onBrick p.1 p.2 d) ++ l.filter (fun p => !onBrick p.1 p.2 d)

/-- A stream channel. -/
def BCtx.chan (x : BCtx) (ch : Nat) : Chan :=
  Tab.getD x.chans ch { cur := none, next := none, posted := 0, done := 0, started := 0, asks := [], tiles := [] }

/-- Changes a channel of a context. -/
def updChan (k ch : Nat) (f : Chan → Chan) (d : Dev) : Dev :=
  updCtx k (fun x => { x with chans := Tab.set x.chans ch (f (x.chan ch)) }) d

/-! ## Instruction fields (R104) and registers (R102) -/

/-- DST. -/
def fDst (w : Nat) : Nat := bitsOf w 47 43
/-- SRC1. -/
def fSrc1 (w : Nat) : Nat := bitsOf w 42 38
/-- SRC2. -/
def fSrc2 (w : Nat) : Nat := bitsOf w 37 33
/-- FLAGS. -/
def fFlags (w : Nat) : Nat := bitsOf w 53 48
/-- IMM. -/
def fImm (w : Nat) : Nat := w % 2 ^ 32

/-- The signed immediate as 64 bits. -/
def fImm64 (w : Nat) : Nat := unsignedOf 64 (signedOf 32 (fImm w))

/-- A scalar register; S0 reads zero. -/
def BCtx.sreg (x : BCtx) (r : Nat) : Nat := if r = 0 then 0 else Tab.getD x.s r 0 % 2 ^ 64

/-- Writes a scalar register; a write to S0 is ignored. -/
def BCtx.setS (x : BCtx) (r v : Nat) : BCtx := if r = 0 then x else { x with s := Tab.set x.s r (v % 2 ^ 64) }

/-- A vector register: 64 lanes of 32 bits. -/
def BCtx.vreg (x : BCtx) (r : Nat) : List Nat := Tab.getD x.v r (List.replicate 64 0)

/-- Writes a vector register. -/
def BCtx.setV (x : BCtx) (r : Nat) (l : List Nat) : BCtx := { x with v := Tab.set x.v r l }

/-- Sets flags of the arithmetic flags word. -/
def BCtx.raise (x : BCtx) (f : Nat) : BCtx := { x with flags := Nat.lor x.flags f }

/-- The program counter moves past an instruction. -/
def BCtx.advance (x : BCtx) : BCtx := { x with pc := (x.pc + 8) % 2 ^ 56 }

/-! ## Scratch (R102, R146 to R148) -/

/-- 3 MiB. -/
def scratchSize : Nat := 0x300000

/-- A byte of scratch; one that the launch has not written is undefined (R103; log entry 15). -/
def BCtx.byte (x : BCtx) (a : Nat) : Byte := Tab.getD x.scratch a (Config.scratchByte x.seed a)

/-- A read of a context's scratch corrects what it meets (R145); what leaves the brick was read by the context mover. -/
def readsScratch (k : Nat) (x : BCtx) (off n : Nat) (d : Dev) : Dev :=
  if onBrick k x d then correct (metScratch x.brick off n) d else d

/-- Reads of a die's memory that meet some of the codewords that a test names, those with one bad symbol among them corrected (R145): which
are met hangs on where the module put what it reads, and is a free value. -/
def readsSome (f : Place → Bool) (d : Dev) : Dev :=
  let l := (d.tiers.soft.map Prod.fst).filter f
  if l.isEmpty then d
  else
    let p := drawFree d
    correct (fun q => l.contains q && bitOf p.1 (l.idxOf q)) p.2

/-- The poisoned codewords of a context's scratch. -/
def poisonOf (k : Nat) (x : BCtx) (d : Dev) : List Nat :=
  if onBrick k x d then
    d.tiers.poison.filterMap (fun p => match p with
      | .scratch b off => if b = x.brick then some off else none
      | _ => none)
  else x.poison

/-- Why an instruction or a tile faults: the cause and FAULT_ADDRESS. -/
abbrev Why := Nat × Nat

/-- Reads scratch: beyond its end is cause 0x02, a poisoned codeword 0x0B with its offset (R108, R147). -/
def readScratch (k : Nat) (x : BCtx) (off n : Nat) (d : Dev) : Except Why (List Byte) :=
  if scratchSize < off + n then .error (2, 0)
  else
    match (poisonOf k x d).filter (fun c => decide (c < off + n) && decide (off < c + 16)) with
    | c :: _ => .error (0xB, c)
    | [] => .ok ((List.range n).map (fun i => x.byte (off + i)))

/-- Removes poison from scratch codewords that a write replaces whole. -/
def clearScratch (k : Nat) (x : BCtx) (off n : Nat) (d : Dev) : Dev :=
  let gone : Nat → Bool := fun c => decide (off ≤ c) && decide (c + 16 ≤ off + n)
  let keep : Place → Bool := fun p => match p with
    | .scratch b c => !(b == x.brick && gone c)
    | _ => true
  if onBrick k x d then
    { d with tiers := { d.tiers with
      poison := d.tiers.poison.filter keep, logged := d.tiers.logged.filter keep, soft := d.tiers.soft.filter (fun s => keep s.1) } }
  else
    updCtx k (fun x => { x with
      poison := x.poison.filter (fun c => !gone c), recorded := x.recorded.filter (fun c => !gone c) }) d

/-- The bytes of a list entered one by one, those of the codewords given left out. -/
def enterBytes (bad : List Nat) : Nat → List Byte → Tab Byte → Tab Byte
  | _, [], m => m
  | a, b :: r, m => enterBytes bad (a + 1) r (if bad.contains (a / 16 * 16) then m else Tab.set m a b)

/-- Writes scratch: bytes of a poisoned codeword that is not replaced whole are discarded, with cause 0x0B (R148). -/
def writeScratch (k off : Nat) (l : List Byte) (d : Dev) : Dev × Option Why :=
  match ctxAt k d with
  | none => (d, none)
  | some x =>
    let n := l.length
    if scratchSize < off + n then (d, some (2, 0))
    else
      let bad := (poisonOf k x d).filter (fun c => decide (c < off + n) && decide (off < c + 16) &&
        !(decide (off ≤ c) && decide (c + 16 ≤ off + n)))
      (clearScratch k x off n (updCtx k (fun x => { x with scratch := enterBytes bad off l x.scratch }) d),
        bad.head?.map (fun c => (0xB, c)))

/-! ## Brick faults (R108, R109) -/

/-- The status that a launch completes with for a fault cause; cause 0x06 brings its own. -/
def causeStatus (cause own : Nat) : Nat :=
  match cause with
  | 0x4 => 0x8
  | 0x5 => 0x6
  | 0x6 => own
  | 0x7 => 0xC
  | 0x8 => 0x4
  | 0x9 => 0xA
  | 0xB => 0xF
  | _ => 0x3

/-- A fault: its cause, the address and word of the instruction, FAULT_ADDRESS, CHANNEL and the status of cause 0x06. -/
structure BFault where
  cause : Nat
  pc    : Nat
  word  : Nat
  addr  : Nat
  ch    : Nat
  own   : Nat

/-- CHANNEL where it has no meaning. -/
def noChan : Nat := 0xFFFFFFFF

/-- The fault record (R109), with the brick's beat count. -/
def faultRecord (x : BCtx) (beats : Nat) (f : BFault) : List Byte :=
  natLE 2 x.gindex ++ natLE 2 x.brick ++ natLE 1 f.cause ++ natLE 1 (causeStatus f.cause f.own) ++ [0, 0] ++ natLE 8 f.pc ++
  natLE 8 f.word ++ natLE 8 f.addr ++ natLE 8 beats ++ natLE 4 x.flags ++
  natLE 4 (if f.cause = 4 ∨ f.cause = 5 ∨ f.cause = 6 then f.ch else noChan) ++ List.replicate 16 0

/-- A write at a device virtual address, where it translates; FAULT_ADDRESS is 64-byte aligned, so that no page
boundary lies within the record. -/
def writeVirt (inst ctx va : Nat) (e : Eng) (l : List Byte) (d : Dev) : Dev :=
  match translate ctx va .write e d with
  | .frame lfn off _ _ _ _ =>
    (match ldaPhys (lfn * 2 ^ 26 + off) d with
     | some a => (writePieces [(a, l.length)] l d).1
     | none => d)
  | .host a _ _ _ => hostWrite inst a l d
  | _ => d

/-- A launch ends with a status other than OK (R108): its bricks stop, its descriptor completes, and HOST_LINK_DOWN puts
its queue into ERROR (R120). -/
def endLaunch (l status : Nat) (d : Dev) : Dev :=
  match launchAt l d with
  | none => d
  | some x =>
    finishDesc x.q x.idx status 0 0 0
      (when_ (decide (status = 0xC)) (queueError x.q x.idx) (dropLaunch l d))

/-- The beat count of a context at a fault (R109): the beats of the slices that ended, and those of the slice in hand, which no command
tells: a free value that the beat limit bounds (log entry 1). -/
def beatsNow (k : Nat) (x : BCtx) (l : Launch) (cause : Nat) (d : Dev) : Nat × Dev :=
  if onBrick k x d && cause != 8 then
    let p := drawFree d
    (x.beats + p.1 % (l.limit - x.beats + 1), p.2)
  else (x.beats, d)

/-- The fault record of a launch is written, where it names a place for one (R108). -/
def recordFault (k : Nat) (x : BCtx) (l : Launch) (f : BFault) (d : Dev) : Dev :=
  if l.faultAt = 0 then d
  else
    let b := beatsNow k x l f.cause d
    writeVirt l.inst l.ctx l.faultAt (.brick x.brick) (faultRecord x b.1 f) b.2

/-- A brick faults: the record is written first, and the launch completes (R108). -/
def brickFault (k : Nat) (f : BFault) (d : Dev) : Dev :=
  match ctxAt k d with
  | none => d
  | some x =>
    match launchAt x.launch d with
    | none => d
    | some l => endLaunch x.launch (causeStatus f.cause f.own) (recordFault k x l f d)

/-- The instruction `w` at `pc` faults. -/
def faultHere (k pc w : Nat) (why : Why) (d : Dev) : Dev :=
  brickFault k { cause := why.1, pc := pc, word := w, addr := why.2, ch := noChan, own := 0 } d

/-- An instruction faults on scratch: an uncorrectable codeword is counted and recorded (R146). -/
def faultScratch (k pc w : Nat) (why : Why) (d : Dev) : Dev :=
  match ctxAt k d with
  | none => d
  | some x => faultHere k pc w why (when_ (decide (why.1 = 0xB)) (noteUe (.scratch x.brick why.2) 1) d)

/-! ## What store tiles and waits mean (R112, R118, R121) -/

/-- Is one 32-bit count below another, compared as the difference's sign (R115)? -/
def countBelow (a b : Nat) : Bool := decide (2 ^ 31 ≤ (a + 2 ^ 32 - b % 2 ^ 32) % 2 ^ 32)

/-- The number after the last tile of a descriptor. -/
def SDesc.last (s : SDesc) : Nat := (s.first + s.count) % 2 ^ 32

/-- Has a channel a store tile that was posted and has not started? -/
def Chan.storeWaits (c : Chan) : Bool :=
  (match c.cur with
   | some s => s.store && c.started != s.last && countBelow c.started c.posted
   | none => false) ||
  (match c.next with
   | some s => s.store && countBelow s.first c.posted
   | none => false)

/-- A channel as it will stand when every SPOST that was issued has taken effect (R113). -/
def BCtx.postedChan (x : BCtx) (p : Nat × Chan) : Chan :=
  { p.2 with posted := (p.2.posted + ((x.posts.filter (fun y => y.ch == p.1)).map Post.n).sum) % 2 ^ 32 }

/-- Is every store tile that earlier instructions posted visible (R118)? -/
def BCtx.storesSeen (x : BCtx) : Bool :=
  x.chans.all (fun c => !(x.postedChan c).storeWaits && c.2.tiles.all (fun t => !t.desc.store || t.visible))

/-- Does an instruction in a unit's hands store to the host? -/
def UOp.stores (o : UOp) : Bool := match o.kind with
  | .hst _ => true
  | _ => false

/-- Has the host not yet answered an access? -/
def HAcc.out (h : HAcc) : Bool :=
  match h with
  | .loadV i _ _ _ => i.back.isNone
  | .loadS i _ _ => i.back.isNone
  | .store i _ => i.back.isNone
  | .tile _ _ _ => true

/-- Is an HST not yet visible to the host? One that the host answered is, also while an earlier HLD has no answer. -/
def BCtx.hstOut (x : BCtx) : Bool := x.ops.any UOp.stores || x.host.any (fun h => match h.2 with
  | .store _ _ => h.2.out
  | _ => false)

/-- Is what a FENCE or CADD waits for there (R121)? -/
def BCtx.allSeen (x : BCtx) : Bool := x.storesSeen && !x.hstOut

/-- The contexts of a launch. -/
def mates (l : Nat) (d : Dev) : List (Nat × BCtx) := d.bricks.ctxs.filter (fun p => p.2.launch == l)

/-- Is a context's wait over (R115, R119, R121)? A CADD is over when it has been applied. -/
def waitOver (x : BCtx) (d : Dev) : Bool :=
  match x.wait with
  | .run => true
  | .swait ch n => !countBelow (x.chan ch).done n
  | .cwait idx target _ => reached idx target d
  | .cadd _ _ _ => false
  | .bar => (mates x.launch d).all (fun p => decide (x.bars ≤ p.2.bars) || p.2.wait == .ended)
  | .fence => x.allSeen
  | .hfence => !x.hstOut
  | .ended => false

/-- A CADD takes effect once everything earlier is visible (R121); where the counter's mirror cannot be written the brick faults (R148,
R160). -/
def settleCtx (k : Nat) (d : Dev) : Dev :=
  match ctxAt k d with
  | none => d
  | some x =>
    match x.wait with
    | .cadd idx v word =>
      if x.allSeen then
        let inst := ((launchAt x.launch d).map Launch.inst).getD 0
        let lost := counterOwner idx d == some inst && mirrorLost idx d
        let d1 := addCounter inst idx v (updCtx k (fun x => { x with wait := .run }) d)
        when_ lost (faultHere k ((x.pc + 2 ^ 56 - 8) % 2 ^ 56) word (0xB, 0)) d1
      else d
    | _ => d

/-- SPOSTs that wait for nothing any more take effect (R113). -/
def settlePosts (k : Nat) (d : Dev) : Dev :=
  match ctxAt k d with
  | none => d
  | some x =>
    let ready : Post → Bool := fun p => p.after.isEmpty
    each (x.posts.filter ready) (fun p => updChan k p.ch (fun c => { c with posted := (c.posted + p.n) % 2 ^ 32 }))
      (updCtx k (fun x => { x with posts := x.posts.filter (fun p => !ready p) }) d)

/-! ## Host accesses (R119, R120) -/

/-- A number for an instruction in a unit or a host access. -/
def newId (d : Dev) : Nat × Dev := (d.bricks.nextHost, { d with bricks := { d.bricks with nextHost := d.bricks.nextHost + 1 } })

/-- A host access of a context goes out under the function of its instance (R119, R171), a store with its bytes. -/
def sendHost (k id : Nat) (h : HAcc) (addr : Nat) (store : Option (List Byte)) (d : Dev) : Dev :=
  match ctxAt k d with
  | none => d
  | some x =>
    let d1 := updCtx k (fun x => { x with host := Tab.set x.host id h }) d
    if hostOpen d then
      match launchAt x.launch d with
      | some l => sendLink ⟨3, l.inst, l.inst, none, .access x.brick id addr store⟩ (when_ store.isSome (markHost l.q l.idx true) d1)
      | none => d1
    else d1

/-- The host accesses of a context in flight, and the host instructions that its host path has in hand. -/
def BCtx.hostCount (x : BCtx) : Nat :=
  (x.host.filter (fun h => h.2.out)).length + (x.ops.filter (fun o => match o.kind with
    | .hld _ => true
    | .hst _ => true
    | _ => false)).length

/-- A tile that has a host access to send: its channel, the tile, the access and those after it. -/
def nextTileAccess (x : BCtx) : Option (Nat × TileFl × (Nat × Nat) × List (Nat × Nat)) :=
  x.chans.findSome? (fun c => c.2.tiles.findSome? (fun t =>
    if t.desc.store && !t.landed then none
    else
      match t.host with
      | [] => none
      | h :: r => some (c.1, t, h, r)))

/-- Changes a tile in flight. -/
def updTile (k ch n : Nat) (f : TileFl → TileFl) (d : Dev) : Dev :=
  updChan k ch (fun c => { c with tiles := c.tiles.map (fun t => if t.n = n then f t else t) }) d

/-- Sends the host accesses of tiles while fewer than 16 are in flight. -/
def pumpTiles (k : Nat) : Nat → Dev → Dev
  | 0, d => d
  | fuel + 1, d =>
    match ctxAt k d with
    | none => d
    | some x =>
      if 16 ≤ x.hostCount then d
      else
        match nextTileAccess x with
        | none => d
        | some (ch, t, (off, addr), r) =>
          let d1 := updTile k ch t.n (fun t => { t with host := r }) d
          let p := newId d1
          pumpTiles k fuel (sendHost k p.1 (.tile ch t.n off) addr
            (if t.desc.store then some ((t.data.drop off).take 64) else none) p.2)

/-- The bytes of the latest store in flight to a host address. -/
def BCtx.forward (x : BCtx) (addr : Nat) : List Byte :=
  x.host.foldl (fun acc h => match h.2 with
    | .store i l => if i.addr = addr then l else acc
    | _ => acc) []

/-- Lanes 16 q up to 16 q + 15 of a register replaced. -/
def setQuarter (l : List Nat) (q : Nat) (b : List Byte) : List Nat :=
  l.take (16 * q) ++ (List.range 16).map (fun m => fieldLE b (4 * m) 4) ++ l.drop (16 * q + 16)

/-- An instruction has finished with scratch: the SPOSTs after it wait for it no more (R113). -/
def strike (k id : Nat) (d : Dev) : Dev :=
  settleCtx k (settlePosts k (updCtx k (fun x => { x with
    posts := x.posts.map (fun p => { p with after := p.after.filter (fun h => h != id) }) }) d))

/-! ## The next instruction (R100, R102, R107) -/

/-- May a context's units begin instructions now: it is on its brick under the grant with no residue failure in hand and its slice not
over (R96), or it has ended? -/
def unitsRun (k : Nat) (x : BCtx) (d : Dev) : Bool :=
  (onBrick k x d && holdsGrant (.brick x.brick) d && (brickAt x.brick d).failing.isNone && !(brickAt x.brick d).late) || x.wait == .ended

/-- The context whose next instruction a brick may issue now: it holds its grant, no residue failure is in hand, its slice is not over,
and the context waits for nothing. From the failing check on nothing issues, during the retry too (R92, R93): DESIGN CHOICE (log entry 149). -/
def issuing (b : Nat) (d : Dev) : Option (Nat × BCtx × Launch) :=
  let r := brickAt b d
  match r.cur with
  | none => none
  | some k =>
    match ctxAt k d with
    | none => none
    | some x =>
      match launchAt x.launch d with
      | none => none
      | some l =>
        if holdsGrant (.brick b) d && r.failing.isNone && !r.late && waitOver x d && !inFault (.brick k 8) d then some (k, x, l) else none

/-- A translation for an instruction that is no mapping (R108, R177, R181): the brick waits in the fault, or faults. -/
def xlateFault (k pc w va : Nat) (kind : Kind) (e : Eng) (ctx : Nat) (r : XRes) (d : Dev) : Dev :=
  match r with
  | .notMapped lv =>
    (match raiseFault ctx va lv kind e (.brick k 8) (updCtx k (fun x => { x with word := w, wordPc := pc }) d) with
     | .ok d1 => d1
     | .error d1 => faultHere k pc w (4, va) d1)
  | .malformed => faultHere k pc w (4, va) d
  | .uncorrectable a => faultHere k pc w (0xB, va) (noteUe (.dev a) 1 d)
  | _ => faultHere k pc w (3, va) d

/-- Is an instruction word of a class whose reserved bits are zero (R105, R107)? `unused` names the bits that the class
leaves without a meaning. -/
def wordOk (w cls : Nat) (unused : List (Nat × Nat)) : Bool :=
  decide (bitsOf w 63 60 = cls) && !bitOf w 32 && unused.all (fun u => decide (bitsOf w u.1 u.2 = 0))

/-- Ends an instruction that only changes the brick's own context. -/
def retire (k : Nat) (f : BCtx → BCtx) (d : Dev) : Dev := updCtx k (fun x => (f x).advance) d

end Sys2Proof.Machine
end

