-- ==== Sys2Proof/Machine/Vector.lean ====
section
/-! DEFINITION. What the matrix unit, its drain and the vector unit compute (R74 to R87, R106). -/

namespace Sys2Proof.Machine

/-! ## FP32 -/

/-- The format FP32. -/
def f32 : FFmt := ffmt 8

/-- The value of FP32 bits. -/
def val32 (b : Nat) : Val := decodeFloat f32 b

/-- An exact value rounded to FP32. -/
def round32 (mode : RMode) (v : Val) : Nat := (encodeFloat f32 mode false v).1

/-- The flags of an arithmetic result (R84): NaN operands, a NaN from operands that held none, overflow to infinity. -/
def arithFlags (ops : List Val) (exact : Val) (bits : Nat) : Nat :=
  let nan := ops.contains .nan
  Nat.lor (if nan then flNanIn else 0)
    (match exact with
     | .nan => if nan then 0 else flInvalid
     | .inf _ => 0
     | .fin _ _ _ => if bits % 2 ^ 31 = 0x7F800000 then flOverflow else 0)

/-! ## The matrix instruction (R74 to R80) -/

/-- The path of an operand pair (R75): `some true` the step path, `some false` the block path, `none` no pair. -/
def matrixPath (fa fb : Nat) : Option Bool :=
  let both := fun (l : List Nat) => l.contains fa && l.contains fb
  if both [0x0, 0xA] || both [0x1] || both [0x2, 0xB] || both [0x4, 0x5] then some false
  else if both [0x2, 0x3, 0xB, 0xC] || both [0x6] || both [0x7] then some true
  else none

/-- An exact sum of values; of none, +0. -/
def sumVals (l : List Val) : Val :=
  match l with
  | [] => .fin false 0 0
  | v :: r => r.foldl (Val.add .near) v

/-- One block of 32 elements of A and of B with their scales. -/
structure MBlock where
  a  : List Val
  b  : List Val
  sa : Nat
  sb : Nat

/-- The values that a cell adds to C for a block: one on the block path (R78), one for each product on the step path
(R79). -/
def MBlock.addends (k : MBlock) (step : Bool) : List Val :=
  let ps := List.zipWith Val.mul k.a k.b
  (if step then ps else [sumVals ps]).map (fun v => scaled k.sa (scaled k.sb v))

/-- Is a product's operand or scale a NaN: on the step path each product by itself, on the block path the block as a whole (R78 to R80)? -/
def MBlock.nans (k : MBlock) (step : Bool) : List Bool :=
  let scale := k.sa == 0xFF || k.sb == 0xFF
  if step then List.zipWith (fun a b => scale || a == .nan || b == .nan) k.a k.b
  else [scale || k.a.contains .nan || k.b.contains .nan]

/-- A cell's value and flags after a block. A NaN that stands in C is an operand of each later addition and sets NAN_IN (R84): DEDUCED
(log entry 133). -/
def cellBlock (step : Bool) (c : Nat × Nat) (k : MBlock) : Nat × Nat :=
  (List.zip (k.addends step) (k.nans step)).foldl (fun c v =>
    let s := Val.add .near (val32 c.1) v.1
    let r := round32 .near s
    (r, Nat.lor c.2 (arithFlags [if v.2 then .nan else .fin false 0 0, val32 c.1] s r))) c

/-- The blocks of row `i` of A and column `j` of B. -/
def cellBlocks (fa fb kb i j : Nat) (a b sa sb : List Byte) : List MBlock :=
  (List.range kb).map (fun n =>
    { a := (List.range 32).map (fun t => decodeElem fa (elemAt fa a (i * (32 * kb) + 32 * n + t))),
      b := (List.range 32).map (fun t => decodeElem fb (elemAt fb b ((32 * n + t) * 80 + j))),
      sa := if isMx fa then (sa.getD (i * kb + n) 0).toNat else 127,
      sb := if isMx fb then (sb.getD (n * 80 + j) 0).toNat else 127 })

/-- A bank, its 10,240 values row by row. -/
def bankVal (x : BCtx) (bank n : Nat) : Nat := Tab.getD (Tab.getD x.banks bank []) n 0

/-- K / 32 of a matrix instruction. -/
def matK (w : Nat) : Nat := fImm w % 2 ^ 12

/-- Format of A. -/
def matFa (w : Nat) : Nat := bitsOf w 15 12

/-- Format of B. -/
def matFb (w : Nat) : Nat := bitsOf w 19 16

/-- Is a matrix instruction legal (R75, R76, R107)? -/
def matrixLegal (w : Nat) (_ : BCtx) (l : Launch) : Bool :=
  wordOk w 2 [(53, 50), (47, 43), (31, 20)] && (matrixPath (matFa w) (matFb w)).isSome &&
  decide (1 ≤ matK w ∧ matK w ≤ 2048) && decide (2 ≤ l.act)

/-- The four operand ranges of a matrix instruction (R72, R106): A, B and their scale tiles. -/
def matrixRanges (w : Nat) (x : BCtx) : List (Nat × Nat) :=
  let kb := matK w
  [(x.sreg (fSrc1 w), elemSize (matFa w) (128 * 32 * kb)), (x.sreg (fSrc2 w), elemSize (matFb w) (80 * 32 * kb)),
   (x.sreg ((fSrc1 w + 1) % 32), if isMx (matFa w) then 128 * kb else 0),
   (x.sreg ((fSrc2 w + 1) % 32), if isMx (matFb w) then 80 * kb else 0)]

/-- Reads several ranges of scratch in order. -/
def readRanges (k : Nat) (x : BCtx) (d : Dev) : List (Nat × Nat) → Except Why (List (List Byte))
  | [] => .ok []
  | (a, n) :: r =>
    match (if n = 0 then .ok [] else readScratch k x a n d) with
    | .error e => .error e
    | .ok l =>
      match readRanges k x d r with
      | .error e => .error e
      | .ok ls => .ok (l :: ls)

/-- The results of all cells: value and flags. -/
def matrixCells (w : Nat) (x : BCtx) (a b sa sb : List Byte) : List (Nat × Nat) :=
  (List.range 10240).map (fun n =>
    (cellBlocks (matFa w) (matFb w) (matK w) (n / 80) (n % 80) a b sa sb).foldl
      (cellBlock ((matrixPath (matFa w) (matFb w)).getD false))
      (if bitOf (fFlags w) 1 then 0 else bankVal x (fFlags w % 2) n, 0))

/-- A matrix instruction begins: the bank takes its results, and the unit works on it until MATRIX_END. Its flags are raised at its
beginning: DESIGN CHOICE (log entry 140). -/
def runMatrix (k pc w : Nat) (x : BCtx) (d : Dev) : Dev :=
  match readRanges k x d (matrixRanges w x) with
  | .error e => faultScratch k pc w e d
  | .ok [a, b, sa, sb] =>
    let cs := matrixCells w x a b sa sb
    updCtx k (fun y => { y.raise (cs.foldl (fun f c => Nat.lor f c.2) 0) with
      banks := Tab.set y.banks (fFlags w % 2) ((List.range 10240).zip (cs.map Prod.fst)) })
      (each (matrixRanges w x) (fun r => readsScratch k x r.1 r.2) d)
  | .ok _ => d

/-! ## The drain (R81 to R83, R106) -/

/-- Is TO_VREG set? -/
def toVreg (w : Nat) : Bool := bitOf (fFlags w) 2

/-- Is TRANSPOSE set? -/
def transpose (w : Nat) : Bool := bitOf (fFlags w) 4

/-- The output format of a drain, or the format of a vector load or store. -/
def fmtOf (w : Nat) : Nat := fImm w % 16

/-- Is a drain legal (R69, R81, R83, R107)? One to V registers writes FP32 only: DEDUCED (log entry 133), one that names another format
is illegal. -/
def drainLegal (w : Nat) (_ : BCtx) (l : Launch) : Bool :=
  wordOk w 3 [(53, 53), (37, 33), (31, 8)] && decide (2 ≤ l.act) && decide (fmtOf w ≤ 0xC) &&
  (if toVreg w then decide (fmtOf w = 8) && decide (fDst w + 9 < 32) else !isMx (fmtOf w) || transpose w)

/-- Bytes that a drain writes to scratch. -/
def drainBytes (w : Nat) : Nat := elemSize (fmtOf w) 10240 + (if isMx (fmtOf w) then 320 else 0)

/-- A bank value as a drain takes it: times the tensor scale where SCALE is set, with its flags (R82). -/
def drainVal (w : Nat) (x : BCtx) (n : Nat) : Nat × Nat :=
  let c := bankVal x (fFlags w % 2) n
  if bitOf (fFlags w) 3 then
    let t := val32 (x.sreg (fSrc1 w) % 2 ^ 32)
    let v := Val.mul (val32 c) t
    let r := round32 .near v
    (r, arithFlags [val32 c, t] v r)
  else (round32 .near (val32 c), 0)

/-- The places of the bank in output order (R106): row by row, or column by column under TRANSPOSE. -/
def drainOrder (w : Nat) : List Nat :=
  (List.range 10240).map (fun n => if transpose w then n % 128 * 80 + n / 128 else n)

/-- Groups of 32 of a list. -/
def groups32 {α : Type} : Nat → List α → List (List α)
  | 0, _ => []
  | fuel + 1, l => if l.isEmpty then [] else l.take 32 :: groups32 fuel (l.drop 32)

/-- Values converted to a format and packed, scales after the elements (R82, R83, R106), with the flags. -/
def packVals (f : Nat) (sat : Bool) (l : List Val) : List Byte × Nat :=
  if isMx f then
    let qs := (groups32 l.length l).map (quantise f)
    (packElems f (qs.flatMap Prod.fst) ++ qs.map (fun q => BitVec.ofNat 8 q.2.1),
     qs.foldl (fun a q => Nat.lor a q.2.2) 0)
  else
    let es := l.map (encodeElem f .near sat)
    (packElems f (es.map Prod.fst), es.foldl (fun a e => Nat.lor a e.2) 0)

/-- Value `n` of a row group in its V register and lane (R106): lane-major, the ten values of a lane in its ten registers: DEDUCED (log
entry 133). -/
def vregLanes (vs : List Nat) (r : Nat) : List Nat := (List.range 64).map (fun i => vs.getD (10 * i + r) 0)

/-- A drain begins; its unit works on it until DRAIN_END. Its flags are raised at its beginning: DESIGN CHOICE (log entry 140). -/
def runDrain (k pc w : Nat) (x : BCtx) (d : Dev) : Dev :=
  if toVreg w then
    let j := bitsOf w 7 4
    let vs := (List.range 640).map (fun n => drainVal w x (640 * j + n))
    updCtx k (fun y => (List.range 10).foldl (fun y r => y.setV (fDst w + r) (vregLanes (vs.map Prod.fst) r))
      (y.raise (vs.foldl (fun a v => Nat.lor a v.2) 0))) d
  else
    let vs := (drainOrder w).map (drainVal w x)
    let p := packVals (fmtOf w) (bitOf (fFlags w) 1) (vs.map (fun v => val32 v.1))
    let r := writeScratch k (x.sreg (fDst w)) p.1 d
    match r.2 with
    | some e => faultScratch k pc w e r.1
    | none => updCtx k (fun y => y.raise (Nat.lor p.2 (vs.foldl (fun a v => Nat.lor a v.2) 0))) r.1

/-! ## Vector instructions (R85, R86) -/

/-- The rounding mode that FLAGS bits 1:0 name (R86, R105): 0 to nearest, 1 toward zero, 2 toward +infinity, 3 toward −infinity. The spec
lists the four modes and gives no codes: DESIGN CHOICE (log entry 144). -/
def roundOf (w : Nat) : RMode :=
  match fFlags w % 4 with
  | 0 => .near
  | 1 => .zero
  | 2 => .up
  | _ => .down

/-- A 32-bit integer result that wraps or, with SAT, saturates (R86). -/
def wrapOrSat (sat : Bool) (v : Int) : Nat × Nat :=
  if sat && decide (v < -(2 ^ 31 : Nat) ∨ ((2 ^ 31 : Nat) : Int) ≤ v) then
    (if v < 0 then 2 ^ 31 else 2 ^ 31 - 1, flSaturated)
  else (unsignedOf 32 v, 0)

/-- A rounded FP32 result with its flags. -/
def fpResult (mode : RMode) (ops : List Val) (v : Val) : Nat × Nat :=
  let r := round32 mode v
  (r, arithFlags ops v r)

/-- The smaller or larger of two FP32 values. A NaN and a number give a NaN, as the `minimum` of IEEE 754 does, where the spec says only that
results are those of IEEE 754 (R87): DESIGN CHOICE (log entry 146). -/
def fpPick (max : Bool) (a b : Nat) : Nat × Nat :=
  let x := val32 a
  let y := val32 b
  if x = .nan ∨ y = .nan then (0x7FC00000, flNanIn)
  else (if (if max then x.below y else y.below x) then b else a, 0)

/-- A comparison of two FP32 values; a NaN is unequal to everything. -/
def fpCompare (c : Cmp) (a b : Nat) : Nat × Nat :=
  let x := val32 a
  let y := val32 b
  if x = .nan ∨ y = .nan then (if c = .ne then 1 else 0, flNanIn)
  else
    let same := decide (a = b) || decide (a % 2 ^ 31 = 0 ∧ b % 2 ^ 31 = 0)
    let less := x.below y && !same
    let r := match c with
      | .eq => same
      | .ne => !same
      | .lt => less
      | .ltu => less
      | .ge => !less
      | .geu => !less
    (if r then 1 else 0, 0)

/-- A comparison of two 32-bit integers. -/
def compare32 (c : Cmp) (a b : Nat) : Bool :=
  match c with
  | .eq => decide (a = b)
  | .ne => decide (a ≠ b)
  | .lt => decide (signedOf 32 a < signedOf 32 b)
  | .ge => decide (signedOf 32 b ≤ signedOf 32 a)
  | .ltu => decide (a < b)
  | .geu => decide (b ≤ a)

/-- One lane of a vector operation: `a` and `b` the sources, `c` what the destination holds; the result and flags. FMA adds `c`, SELECT gives
`a` where `c` is not zero and `b` otherwise, and a comparison gives 1 or 0; a conversion to INT32 rounds in the mode that the instruction
names (R86): DESIGN CHOICE (log entries 145 and 147). -/
def laneOp (fn : VecFn) (mode : RMode) (sat : Bool) (a b c : Nat) : Nat × Nat :=
  match fn with
  | .add => fpResult mode [val32 a, val32 b] (Val.add mode (val32 a) (val32 b))
  | .sub => fpResult mode [val32 a, val32 b] (Val.add mode (val32 a) (val32 b).neg)
  | .mul => fpResult mode [val32 a, val32 b] (Val.mul (val32 a) (val32 b))
  | .fma => fpResult mode [val32 a, val32 b, val32 c] (Val.add mode (Val.mul (val32 a) (val32 b)) (val32 c))
  | .min => fpPick false a b
  | .max => fpPick true a b
  | .compare k => fpCompare k a b
  | .select => (if c ≠ 0 then a else b, 0)
  | .iadd => wrapOrSat sat (signedOf 32 a + signedOf 32 b)
  | .isub => wrapOrSat sat (signedOf 32 a - signedOf 32 b)
  | .imul => wrapOrSat sat (signedOf 32 a * signedOf 32 b)
  | .imin => (if signedOf 32 b < signedOf 32 a then b else a, 0)
  | .imax => (if signedOf 32 a < signedOf 32 b then b else a, 0)
  | .icompare k => (if compare32 k a b then 1 else 0, 0)
  | .and => (Nat.land a b, 0)
  | .or => (Nat.lor a b, 0)
  | .xor => (Nat.xor a b, 0)
  | .not => (2 ^ 32 - 1 - a % 2 ^ 32, 0)
  | .toInt => encodeInt 32 mode (val32 a)
  | .toFloat => fpResult mode [] (ofInt (signedOf 32 a) 0)
  | .undefined => (0, 0)

/-- Is a vector instruction legal? -/
def vectorLegal (op : VectorOp) (w : Nat) (_ : BCtx) (l : Launch) : Bool :=
  wordOk w 4 [(53, 51)] && decide (1 ≤ l.act) && decide (op.fn ≠ .undefined)

/-- The V registers that a vector instruction reads: its sources, and what it adds to or keeps. -/
def vectorReads (op : VectorOp) (w : Nat) : List Nat :=
  [fSrc1 w] ++ (if op.imm then [] else [fSrc2 w]) ++ (if op.fn = .fma ∨ op.fn = .select then [fDst w] else [])

/-- The lanes of a result: values and flags together. -/
def lanes (f : Nat → Nat × Nat) : List (Nat × Nat) := (List.range 64).map f

/-- Writes lanes to a V register and raises their flags. -/
def putLanes (k r : Nat) (l : List (Nat × Nat)) (d : Dev) : Dev :=
  updCtx k (fun y => (y.raise (l.foldl (fun a v => Nat.lor a v.2) 0)).setV r (l.map Prod.fst)) d

/-- A vector instruction has run: it is the latest, and the program goes on. -/
def vectorDone (k w : Nat) (d : Dev) : Dev := retire k (fun y => { y with lastV := (y.pc, w) }) d

/-- The effect of a vector instruction. -/
def runVector (op : VectorOp) (k w : Nat) (x : BCtx) (_ : Launch) (d : Dev) : Dev :=
  let a := x.vreg (fSrc1 w)
  let b := if op.imm then List.replicate 64 (fImm w) else x.vreg (fSrc2 w)
  let c := x.vreg (fDst w)
  vectorDone k w
    (putLanes k (fDst w) (lanes (fun i => laneOp op.fn (roundOf w) (bitOf (fFlags w) 2) (a.getD i 0) (b.getD i 0) (c.getD i 0))) d)

/-! ## Vector memory (R85) -/

/-- Bytes of 64 elements of a format, with the scales of an MX format after them. -/
def vmemBytes (f : Nat) : Nat := elemSize f 64 + (if isMx f then 2 else 0)

/-- Is a vector load or store legal? -/
def vmemLegal (op : VMemOp) (w : Nat) (_ : BCtx) (l : Launch) : Bool :=
  wordOk w 5 [(53, 51), (49, 48), (37, 33), (31, 4)] && decide (1 ≤ l.act) && decide (fmtOf w ≤ 0xC) &&
  decide (op ≠ .undefined)

/-- An element loaded: an integer format gives INT32, any other FP32. -/
def loadElem (f : Nat) (l : List Byte) (i : Nat) : Nat × Nat :=
  let e := elemAt f l i
  if isInt f then (unsignedOf 32 (signedOf (elemBits f) e), 0)
  else
    let s := if isMx f then (l.getD (elemSize f 64 + i / 32) 0).toNat else 127
    let v := scaled s (decodeElem f e)
    let r := encodeFloat f32 .near false v
    (r.1, Nat.lor r.2 (if v = .nan then flNanIn else 0))

/-- Lanes stored in a format (R82, R83): an integer format takes INT32 lanes, any other FP32. -/
def storeLanes (f : Nat) (sat : Bool) (l : List Nat) : List Byte × Nat :=
  if isInt f then packVals f sat (l.map (fun b => ofInt (signedOf 32 b) 0)) else packVals f sat (l.map val32)

/-- A vector load or store at its scratch address. -/
def runVmem (load : Bool) (k pc w : Nat) (x : BCtx) (d : Dev) : Dev :=
  let a := x.sreg (fSrc1 w)
  if load then
    match readScratch k x a (vmemBytes (fmtOf w)) d with
    | .error e => faultScratch k pc w e d
    | .ok l => putLanes k (fDst w) (lanes (loadElem (fmtOf w) l)) (readsScratch k x a (vmemBytes (fmtOf w)) d)
  else
    let p := storeLanes (fmtOf w) (bitOf (fFlags w) 2) (x.vreg (fDst w))
    let r := writeScratch k a p.1 d
    match r.2 with
    | some e => faultScratch k pc w e r.1
    | none => updCtx k (fun y => y.raise p.2) r.1

/-! ## Vector special (R87) -/

/-- An exact value standing for a quotient m1 × 2^e1 / (m2 × 2^e2): enough bits, and one more that says that some were
left over, so that rounding it rounds the quotient. -/
def quotient (neg : Bool) (m1 : Nat) (e1 : Int) (m2 : Nat) (e2 : Int) : Val :=
  let k := 64 + Nat.log2 m2
  let q := m1 * 2 ^ k / m2
  .fin neg (2 * q + (if m1 * 2 ^ k % m2 = 0 then 0 else 1)) (e1 - e2 - (k : Int) - 1)

/-- The integer square root, bit by bit from bit `n − 1` down. -/
def isqrt (v : Nat) : Nat → Nat → Nat
  | 0, r => r
  | n + 1, r => if (r + 2 ^ n) * (r + 2 ^ n) ≤ v then isqrt v n (r + 2 ^ n) else isqrt v n r

/-- An exact value standing for the square root of m × 2^e. -/
def rootVal (m : Nat) (e : Int) : Val :=
  let odd := decide (e % 2 ≠ 0)
  let m1 := (if odd then 2 * m else m) * 2 ^ 96
  let e1 := (if odd then e - 1 else e) - 96
  let r := isqrt m1 64 0
  .fin false (2 * r + (if r * r = m1 then 0 else 1)) (e1 / 2 - 1)

/-- Division (R87): the exact quotient and the flag DIV_ZERO. -/
def divVal (a b : Val) : Val × Nat :=
  match a, b with
  | .nan, _ => (.nan, 0)
  | _, .nan => (.nan, 0)
  | .inf _, .inf _ => (.nan, 0)
  | .inf x, .fin y _ _ => (.inf (x != y), 0)
  | .fin x _ _, .inf y => (.fin (x != y) 0 0, 0)
  | .fin x m1 e1, .fin y m2 e2 =>
    if m2 = 0 then (if m1 = 0 then (.nan, 0) else (.inf (x != y), flDivZero))
    else if m1 = 0 then (.fin (x != y) 0 0, 0)
    else (quotient (x != y) m1 e1 m2 e2, 0)

/-- The square root. -/
def sqrtVal (a : Val) : Val :=
  match a with
  | .nan => .nan
  | .inf neg => if neg then .nan else .inf false
  | .fin neg m e => if m = 0 then .fin neg 0 0 else if neg then .nan else rootVal m e

/-- One over a value. -/
def recipVal (a : Val) : Val × Nat := divVal (.fin false 1 0) a

/-- One over the square root of a value. That of zero raises DIV_ZERO as a reciprocal of zero does (R84): DESIGN CHOICE (log entry 146). -/
def rsqrtVal (a : Val) : Val × Nat := recipVal (sqrtVal a)

/-- A result that may be off by one unit in the last place (R87): one of the FP32 values next to the exact one. Which one is
left open: `fn` numbers the function, `b` is the operand. A result beyond the largest finite value is as IEEE 754 rounds it (R86, R87). -/
def nearOne (fn b : Nat) (mode : RMode) (v : Val) : Nat :=
  let lo := round32 .zero v
  let hi := match v with
    | .fin n m e => round32 (if n then .down else .up) (.fin n m e)
    | v => round32 .near v
  match v with
  | .fin _ m _ =>
    if m = 0 then lo
    else if hi % 2 ^ 31 = 0x7F800000 then round32 mode v
    else
      let c := if lo = hi then [lo, lo + 1, lo - 1] else [lo, hi]
      c.getD (Config.special fn 8 b % c.length) lo
  | _ => lo

/-- The FP32 values, of those next to a rounded magnitude, that lie within two units in the last place of the exact magnitude: `m` × 2^e stands
for it with a relative error far below a unit. Which one is given is left open: `fn` numbers the function, `b` is the operand. A result
beyond the largest finite value is as IEEE 754 rounds it (R86, R87). -/
def withinTwo (fn b : Nat) (mode : RMode) (m : Nat) (e : Int) : Nat :=
  let near := round32 .near (.fin false m e)
  if round32 .up (.fin false m e) = 0x7F800000 then round32 mode (.fin false m e)
  else
    let ulp := max (topExp m e - 23) (-149)
    let lo := min e (min ulp (-149))
    let exact := m * 2 ^ (e - lo).toNat
    let two := 2 * 2 ^ (ulp - lo).toNat
    let fits := fun (v : Nat) => match val32 v with
      | .fin _ n f =>
        let x := n * 2 ^ (f - lo).toNat
        decide (x ≤ exact + two ∧ exact ≤ x + two)
      | _ => false
    let c := ((List.range 5).map (fun k => near + k)).filterMap (fun v => if 2 ≤ v && fits (v - 2) then some (v - 2) else none)
    c.getD (Config.special fn 8 b % max 1 c.length) near

/-- 2^(2^−k), rounded down to 120 fraction bits. -/
def rootTwo : Nat → Nat
  | 0 => 2 ^ 121
  | k + 1 => isqrt (rootTwo k * 2 ^ 120) 121 0

/-- 2^(f / 2^60), rounded down to about 110 fraction bits of 120, for f below 2^60. -/
def fracPow (f : Nat) : Nat :=
  (List.range 60).foldl (fun a k => if bitOf f (59 - k) then a * rootTwo (k + 1) / 2 ^ 120 else a) (2 ^ 120)

/-- exp2 (R87): at most 2 ulp from the result. -/
def exp2Bits (mode : RMode) (b : Nat) : Nat :=
  match val32 b with
  | .fin neg m e =>
    if m = 0 then 0x3F800000
    else
      -- the operand in units of 2^−60; what lies below changes the result by far less than a unit in the last place
      let x := if topExp m e < -60 then (if neg then -1 else 0) else if neg then -(roundShift .near false m (-60 - e) : Int) else (roundShift .near false m (-60 - e) : Int)
      let n := x / (2 ^ 60 : Nat)
      if 200 < n then round32 mode (.fin false 1 200)
      else if n < -400 then withinTwo 2 b mode 1 (-400)
      else withinTwo 2 b mode (fracPow (x % (2 ^ 60 : Nat)).toNat) (n - 120)
  | .inf neg => if neg then 0 else 0x7F800000
  | .nan => 0x7FC00000

/-- The fraction bits of log2 of y / 2^200, for y from 2^200 up to 2^201: `n` of them, each by one squaring. -/
def logBits : Nat → Nat → Nat → Nat
  | 0, _, acc => acc
  | n + 1, y, acc =>
    let z := y * y / 2 ^ 200
    if 2 ^ 201 ≤ z then logBits n (z / 2) (2 * acc + 1) else logBits n z (2 * acc)

/-- log2 (R87): at most 2 ulp from the result. -/
def log2Bits (b : Nat) : Nat :=
  match val32 b with
  | .fin neg m e =>
    if m = 0 then 0xFF800000
    else if neg then 0x7FC00000
    else
      -- the result in units of 2^−90
      let r : Int := topExp m e * (2 ^ 90 : Nat) + (logBits 90 (m * 2 ^ (200 - Nat.log2 m)) 0 : Nat)
      if r = 0 then 0 else (if r < 0 then 2 ^ 31 else 0) + withinTwo 3 b .near r.natAbs (-90)
  | .inf neg => if neg then 0x7FC00000 else 0x7F800000
  | .nan => 0x7FC00000

/-- Flags of a result of exp2 or log2. -/
def funcFlags (a r : Nat) : Nat :=
  match val32 a with
  | .nan => flNanIn
  | .inf _ => if val32 r = .nan then flInvalid else 0
  | .fin _ m _ => if val32 r = .nan then flInvalid else if m ≠ 0 && r = 0x7F800000 then flOverflow else 0

/-- One lane of a vector special operation that is no reduction. -/
def specLane (op : VSpecOp) (mode : RMode) (a b : Nat) : Nat × Nat :=
  match op with
  | .div =>
    let q := divVal (val32 a) (val32 b)
    let r := round32 mode q.1
    (r, Nat.lor q.2 (arithFlags [val32 a, val32 b] q.1 r))
  | .sqrt =>
    let q := sqrtVal (val32 a)
    let r := round32 mode q
    (r, arithFlags [val32 a] q r)
  | .recip =>
    let q := recipVal (val32 a)
    let r := nearOne 0 a mode q.1
    (r, Nat.lor q.2 (arithFlags [val32 a] q.1 r))
  | .rsqrt =>
    let q := rsqrtVal (val32 a)
    let r := nearOne 1 a mode q.1
    (r, Nat.lor q.2 (arithFlags [val32 a] q.1 r))
  | .exp2 => (exp2Bits mode a, funcFlags a (exp2Bits mode a))
  | .log2 => (log2Bits a, funcFlags a (log2Bits a))
  | _ => (0, 0)

/-- One level of a pairwise tree: neighbours are combined. -/
def pairUp (f : Nat → Nat → Nat × Nat) : List Nat → List (Nat × Nat)
  | a :: b :: r => f a b :: pairUp f r
  | [a] => [(a, 0)]
  | [] => []

/-- A reduction of the lanes by a pairwise tree (R87): the result and the flags. -/
def reduceTree (f : Nat → Nat → Nat × Nat) : Nat → List Nat → Nat → Nat × Nat
  | 0, l, fl => (l.headD 0, fl)
  | n + 1, l, fl =>
    let p := pairUp f l
    reduceTree f n (p.map Prod.fst) (p.foldl (fun a v => Nat.lor a v.2) fl)

/-- Is the operation a reduction across the lanes? -/
def isReduction (op : VSpecOp) : Bool := decide (op = .sum ∨ op = .max ∨ op = .min)

/-- The lanes in the order that a number spells: each of its digits picks one of the lanes left. -/
def lanesInOrder : Nat → Nat → List Nat → List Nat
  | 0, _, _ => []
  | n + 1, c, l => l.getD (c % (n + 1)) 0 :: lanesInOrder n (c / (n + 1)) (l.eraseIdx (c % (n + 1)))

/-- A reduction of a vector register. The lane order of a sum is fixed, and the spec does not say which it is. -/
def reduceOp (op : VSpecOp) (mode : RMode) (l : List Nat) : Nat × Nat :=
  match op with
  | .sum => reduceTree (laneOp .add mode false · · 0) 6 (lanesInOrder l.length Config.laneOrder l) 0
  | .max => reduceTree (fpPick true) 6 l 0
  | _ => reduceTree (fpPick false) 6 l 0

/-- Is a vector special instruction legal? -/
def vspecLegal (op : VSpecOp) (w : Nat) (_ : BCtx) (l : Launch) : Bool :=
  wordOk w 6 [(53, 50), (31, 0)] && decide (1 ≤ l.act) && decide (op ≠ .undefined)

/-- The V registers that a vector special instruction reads. -/
def vspecReads (op : VSpecOp) (w : Nat) : List Nat := [fSrc1 w] ++ (if op = .div then [fSrc2 w] else [])

/-- The effect of a vector special instruction; a reduction writes an S register. -/
def runVspec (op : VSpecOp) (k w : Nat) (x : BCtx) (_ : Launch) (d : Dev) : Dev :=
  let a := x.vreg (fSrc1 w)
  let b := x.vreg (fSrc2 w)
  vectorDone k w (if isReduction op then
    let r := reduceOp op (roundOf w) a
    updCtx k (fun y => (y.raise r.2).setS (fDst w) r.1) d
  else putLanes k (fDst w) (lanes (fun i => specLane op (roundOf w) (a.getD i 0) (b.getD i 0))) d)

end Sys2Proof.Machine
end

