-- ==== Sys2Proof/Machine/Units.lean ====
section
/-! DEFINITION. The units of a brick at work (R67, R100, R101, R113, R119): what an issued instruction waits for, when it begins,
what it does then, how it ends, and the test that the next instruction issues. -/

namespace Sys2Proof.Machine

/-! ## What an instruction in a unit reads and writes (R101) -/

/-- A context with the registers as an instruction read them. -/
def UOp.ctx (o : UOp) (x : BCtx) : BCtx := { x with s := o.s, v := o.v }

/-- The scratch ranges that an instruction reads. -/
def UOp.reads (o : UOp) (x : BCtx) : List (Nat × Nat) :=
  match o.kind with
  | .matrix => matrixRanges o.word (o.ctx x)
  | .vload => [((o.ctx x).sreg (fSrc1 o.word), vmemBytes (fmtOf o.word))]
  | .hst false => [(o.loc, 64)]
  | _ => []

/-- The scratch ranges that an instruction writes. -/
def UOp.writes (o : UOp) (x : BCtx) : List (Nat × Nat) :=
  match o.kind with
  | .drain => if toVreg o.word then [] else [((o.ctx x).sreg (fDst o.word), drainBytes o.word)]
  | .vstore => [((o.ctx x).sreg (fSrc1 o.word), vmemBytes (fmtOf o.word))]
  | .hld false => [(o.loc, 64)]
  | _ => []

/-- The V registers that an instruction writes. -/
def UOp.vregs (o : UOp) : List Nat :=
  match o.kind with
  | .drain => if toVreg o.word then (List.range 10).map (fun i => fDst o.word + i) else []
  | .vload => [fDst o.word]
  | .hld true => [fDst o.word]
  | _ => []

/-- The accumulator bank that an instruction uses (R81). -/
def UOp.bank (o : UOp) : Option Nat :=
  match o.kind with
  | .matrix => some (fFlags o.word % 2)
  | .drain => some (fFlags o.word % 2)
  | _ => none

/-- Is an instruction one of the host path? -/
def UOp.isHost (o : UOp) : Bool :=
  match o.kind with
  | .hld _ => true
  | .hst _ => true
  | _ => false

/-- Has an instruction in a unit still to do with scratch (R113)? -/
def UOp.inScratch (o : UOp) (x : BCtx) : Bool := !(o.reads x).isEmpty || !(o.writes x).isEmpty

/-- Do some ranges meet others? -/
def rangesClash (a b : List (Nat × Nat)) : Bool :=
  a.any (fun r => b.any (fun s => decide (0 < r.2 ∧ 0 < s.2 ∧ r.1 < s.1 + s.2 ∧ s.1 < r.1 + r.2)))

/-- The scratch ranges that HLDs in flight write. -/
def BCtx.landing (x : BCtx) : List (Nat × Nat) := x.host.filterMap (fun h => match h.2 with
  | .loadS _ off _ => some (off, 64)
  | _ => none)

/-- Must accesses of scratch wait for some instructions in the units, or for an HLD in flight (R101)? Two writes of one range also keep
their order: DEDUCED (log entry 134). -/
def rangeHeld (x : BCtx) (ops : List UOp) (reads writes : List (Nat × Nat)) : Bool :=
  rangesClash (reads ++ writes) x.landing ||
  ops.any (fun o => rangesClash (reads ++ writes) (o.writes x) || rangesClash writes (o.reads x))

/-- May an instruction begin behind those that are before it (R81, R101, R119)? -/
def UOp.free (o : UOp) (before : List UOp) (x : BCtx) : Bool :=
  !rangeHeld x before (o.reads x) (o.writes x) && !before.any (fun e => e.bank.isSome && e.bank == o.bank) &&
  !(o.isHost && before.any UOp.isHost)

/-- The first instruction that can begin now. -/
def firstReady (x : BCtx) : List UOp → List UOp → Option UOp
  | _, [] => none
  | before, o :: r => if !o.begun && o.free before x then some o else firstReady x (before ++ [o]) r

/-! ## Beginning (R119) -/

/-- An instruction leaves its unit. -/
def dropOp (k id : Nat) (d : Dev) : Dev := updCtx k (fun x => { x with ops := x.ops.filter (fun o => o.id != id) }) d

/-- The host address of an access, then the rest of it; otherwise the brick waits or faults (R108, R119, R120). -/
def withHost (kind : Kind) (f : Nat → Dev → Dev) (k : Nat) (o : UOp) (x : BCtx) (l : Launch) (d : Dev) : Dev :=
  let va := x.sreg (fSrc1 o.word)
  if va % 64 ≠ 0 then faultHere k o.pc o.word (0xA, va) d
  else
    match translate l.ctx va kind (.brick x.brick) d with
    | .host a _ _ _ =>
      if !hostOpen d then faultHere k o.pc o.word (7, va) d
      else f a (fillAt l.ctx va kind (.brick x.brick) d)
    | .frame _ _ _ _ _ _ => faultHere k o.pc o.word (0xA, va) d
    | r => xlateFault k o.pc o.word va kind (.brick x.brick) l.ctx r d

/-- The record of a host instruction in flight. -/
def UOp.hins (o : UOp) (x : BCtx) (addr : Nat) : HIns := ⟨o.pc, o.word, x.sreg (fSrc1 o.word), addr, none⟩

/-- HLD goes out (R119). -/
def beginHld (toV : Bool) (k : Nat) (o : UOp) (x : BCtx) (l : Launch) (d : Dev) : Dev :=
  withHost .read (fun a d =>
    if toV then sendHost k o.id (.loadV (o.hins x a) (fDst o.word) (fImm o.word % 4) (x.forward a)) a none (dropOp k o.id d)
    else if scratchSize < o.loc + 64 then faultHere k o.pc o.word (2, 0) d
    else sendHost k o.id (.loadS (o.hins x a) o.loc (x.forward a)) a none (dropOp k o.id d)) k o x l d

/-- HST goes out with the bytes as they stand (R119). -/
def beginHst (fromV : Bool) (k : Nat) (o : UOp) (x : BCtx) (l : Launch) (d : Dev) : Dev :=
  withHost .write (fun a d =>
    let put := fun (bs : List Byte) (d : Dev) =>
      strike k o.id (sendHost k o.id (.store (o.hins x a) bs) a (some bs) (dropOp k o.id d))
    if fromV then put (((x.vreg (fDst o.word)).drop (16 * (fImm o.word % 4))).take 16 |>.flatMap (natLE 4)) d
    else
      match readScratch k x o.loc 64 d with
      | .ok bs => put bs (readsScratch k x o.loc 64 d)
      | .error e => faultScratch k o.pc o.word e d) k o x l d

/-- An instruction begins in its unit. A vector load or store is done at once, with nothing between that could see it. -/
def beginOp (k : Nat) (o : UOp) (x0 : BCtx) (l : Launch) (d : Dev) : Dev :=
  let x := o.ctx x0
  let on := updCtx k (fun y => { y with ops := y.ops.map (fun p => if p.id = o.id then { p with begun := true } else p) })
  match o.kind with
  | .matrix => runMatrix k o.pc o.word x (on d)
  | .drain => runDrain k o.pc o.word x (on d)
  | .vload => strike k o.id (runVmem true k o.pc o.word x (dropOp k o.id d))
  | .vstore => strike k o.id (runVmem false k o.pc o.word x (dropOp k o.id d))
  | .hld toV => beginHld toV k o x l d
  | .hst fromV => beginHst fromV k o x l d

/-- Every instruction in a context's units that can begin begins, in the order issued. -/
def startOps (k : Nat) : Nat → Dev → Dev
  | 0, d => d
  | fuel + 1, d =>
    match ctxAt k d with
    | none => d
    | some x =>
      if !unitsRun k x d || inFault (.brick k 8) d then d
      else
        match firstReady x [] x.ops, launchAt x.launch d with
        | some o, some l => startOps k fuel (beginOp k o x l d)
        | _, _ => d

/-- Enough steps for every instruction that a context's units hold. -/
def unitFuel : Nat := 32

/-- The units of the context on a brick look at what they hold. -/
def wakeUnits (b : Nat) (d : Dev) : Dev :=
  match (brickAt b d).cur with
  | some k => startOps k unitFuel d
  | none => d

/-! ## Ending -/

/-- The context in which a brick's unit has an instruction of a kind under way: one that has ended first, whose instruction is the
older, else the one on the brick. -/
def unitHolder (b : Nat) (kind : UKind) (d : Dev) : Option (Nat × UOp) :=
  (((ctxsOf b d).filter (fun p => p.2.wait == .ended)) ++ ((ctxsOf b d).filter (fun p => onBrick p.1 p.2 d))).findSome? (fun p =>
    (p.2.ops.find? (fun o => o.begun && o.kind == kind)).map (fun o => (p.1, o)))

/-- A unit's instruction ends: SPOSTs and instructions that waited for it go on (R101, R113). -/
def unitEnds (b : Nat) (kind : UKind) (d : Dev) : Dev :=
  match unitHolder b kind d with
  | none => d
  | some (k, o) => startOps k unitFuel (strike k o.id (dropOp k o.id d))

/-- MATRIX_END (R81): the instruction in the matrix unit ends. -/
def execMatrixEnd (b : Nat) (s : State) : Host.Outcome State Fault Refusal :=
  .next { s with dev := unitEnds b .matrix s.dev }

/-- DRAIN_END (R81): the drain ends. -/
def execDrainEnd (b : Nat) (s : State) : Host.Outcome State Fault Refusal :=
  .next { s with dev := unitEnds b .drain s.dev }

/-- An access has returned: what waited for it goes on. -/
def afterHost (k id : Nat) (d : Dev) : Dev :=
  startOps k unitFuel (pumpTiles k 16 (strike k id (updCtx k (fun x => { x with host := Tab.erase x.host id }) d)))

/-- The oldest host instruction in flight. -/
def BCtx.oldest (x : BCtx) : Option (Nat × HAcc) := x.host.find? (fun h => match h.2 with
  | .tile _ _ _ => false
  | _ => true)

/-- Host instructions that the host has answered finish, in the order issued (R101). -/
def finishHost (k : Nat) : Nat → Dev → Dev
  | 0, d => d
  | fuel + 1, d =>
    match (ctxAt k d).bind BCtx.oldest with
    | some (id, .loadV i v q _) =>
      (match i.back with
       | some l => finishHost k fuel (afterHost k id (updCtx k (fun x => x.setV v (setQuarter (x.vreg v) q l)) d))
       | none => d)
    | some (id, .loadS i off _) =>
      (match i.back with
       | some l => finishHost k fuel (afterHost k id (writeScratch k off l d).1)
       | none => d)
    | some (id, .store i _) => if i.back.isSome then finishHost k fuel (afterHost k id d) else d
    | _ => d

/-- An access with the host's answer; none where the answer is no 64 bytes. -/
def HAcc.answer (h : HAcc) (data : List Byte) : Option HAcc :=
  let bytes := fun (fwd : List Byte) => if fwd.isEmpty then data else fwd
  match h with
  | .loadV i v q fwd => if (bytes fwd).length = 64 then some (.loadV { i with back := some (bytes fwd) } v q fwd) else none
  | .loadS i off fwd => if (bytes fwd).length = 64 then some (.loadS { i with back := some (bytes fwd) } off fwd) else none
  | .store i l => some (.store { i with back := some [] } l)
  | .tile _ _ _ => none

/-- The host has answered an access of a brick (R119, R120). -/
def hostAccessReturn (b id : Nat) (data : List Byte) (d : Dev) : Dev :=
  match (ctxsOf b d).find? (fun p => Tab.has p.2.host id) with
  | none => d
  | some (k, x) =>
    match Tab.get x.host id with
    | none => d
    | some (.tile ch n off) =>
      let store := ((x.chan ch).tiles.find? (fun t => t.n == n)).map (fun t => t.desc.store)
      if store = some false then
        if data.length ≠ 64 then d
        else afterHost k id (updTile k ch n (fun t => { t with got := t.got ++ [(off, data)] }) d)
      else afterHost k id d
    | some h =>
      match h.answer data with
      | none => d
      | some g => settleCtx k (finishHost k 64 (updCtx k (fun x => { x with host := Tab.set x.host id g }) d))

/-- HOST_ACCESS_RETURN: no transaction crosses during a retrain (R389). -/
def execHostAccessReturn (b id : Nat) (data : List Byte) (s : State) : Host.Outcome State Fault Refusal :=
  overLink true (.hostAccessReturn b id data) (fun s => .next { s with dev := hostAccessReturn b id data s.dev }) s

/-! ## Issue (R100, R102, R107) -/

/-- Is a V register the target of an instruction that has not written it (R100)? -/
def BCtx.vBusy (x : BCtx) (r : Nat) : Bool := x.ops.any (fun o => o.vregs.contains r) || x.host.any (fun h => match h.2 with
  | .loadV _ v _ _ => v == r
  | _ => false)

/-- Has a unit an instruction of a kind in hand? A unit takes one at a time: DESIGN CHOICE (log entry 141). -/
def BCtx.has (x : BCtx) (kinds : List UKind) : Bool := x.ops.any (fun o => kinds.contains o.kind)

/-- An instruction is handed to its unit, and the program goes on (R100). -/
def toUnit (kind : UKind) (loc k w : Nat) (x : BCtx) (d : Dev) : Dev :=
  let p := newId d
  let o : UOp := { id := p.1, kind := kind, pc := x.pc, word := w, s := x.s, v := x.v, loc := loc, begun := false }
  startOps k unitFuel (retire k (fun y => { y with ops := y.ops ++ [o] }) p.2)

/-- Instruction fetch is counted for a context in mode COUNTERS where the line is not in the instruction buffer, which is left open: a
free value (log entry 132). -/
def countFetch (ctx lfn b : Nat) (d : Dev) : Dev :=
  if ((Tab.get d.xl.ctxs ctx).map Ctx.mode) == some 1 then
    let p := drawFree d
    if p.1 % 2 = 1 then countAccess ctx lfn 1 (b / 128) p.2 else p.2
  else d

/-- A brick issues an instruction: fetch, legality, hazards, effect. An instruction whose unit cannot take it, or that must wait
for an earlier one, stays where it is. -/
def issue (b : Nat) (word : Word64) (legal : Nat → BCtx → Launch → Bool) (busy : Nat → BCtx → Bool)
    (run : Nat → Nat → BCtx → Launch → Dev → Dev) (d0 : Dev) : Dev :=
  let d := wakeUnits b d0
  match issuing b d with
  | none => d
  | some (k, x, l) =>
    let w := word.toNat
    match translate l.ctx x.pc .fetch (.fetch b) d with
    | .frame lfn off _ _ _ _ =>
      let d1 := countFetch l.ctx lfn b (fillAt l.ctx x.pc .fetch (.fetch b) d)
      (match ldaPhys (lfn * 2 ^ 26 + off) d1 with
       | none => faultHere k x.pc w (3, x.pc) d1
       | some a =>
         match readPhys a 8 d1 with
         | .error c => faultHere k x.pc w (0xB, x.pc) (noteUe (.dev c) 1 d1)
         | .ok _ =>
           let d2 := readsDev [(a, 8)] d1
           if !legal w x l then faultHere k x.pc w (1, 0) d2
           else if busy w x then d2
           else run k w x l (updCtx k (fun x => { x with wait := .run }) d2))
    | r => xlateFault k x.pc 0 x.pc .fetch (.fetch b) l.ctx r d

/-- The outcome of an instruction of a brick. -/
def issues (b : Nat) (word : Word64) (legal : Nat → BCtx → Launch → Bool) (busy : Nat → BCtx → Bool)
    (run : Nat → Nat → BCtx → Launch → Dev → Dev) (s : State) : Host.Outcome State Fault Refusal :=
  .next { s with dev := issue b word legal busy run s.dev }

/-! ## The instructions of the matrix, vector and host units -/

/-- MATRIX. -/
def execMatrix (b : Nat) (word : Word64) (s : State) : Host.Outcome State Fault Refusal :=
  issues b word matrixLegal (fun _ x => x.has [.matrix]) (fun k w x _ d => toUnit .matrix 0 k w x d) s

/-- DRAIN. -/
def execDrain (b : Nat) (word : Word64) (s : State) : Host.Outcome State Fault Refusal :=
  issues b word drainLegal (fun _ x => x.has [.drain]) (fun k w x _ d => toUnit .drain 0 k w x d) s

/-- Must an instruction of the vector unit wait: the unit holds one that waits for scratch, or a register that it reads is still to be
written? -/
def vectorBusy (reads : List Nat) (x : BCtx) : Bool := x.has [.vload, .vstore] || reads.any x.vBusy

/-- VECTOR. -/
def execVector (b : Nat) (op : VectorOp) (word : Word64) (s : State) : Host.Outcome State Fault Refusal :=
  issues b word (vectorLegal op) (fun w x => vectorBusy (vectorReads op w) x) (runVector op) s

/-- VECTOR_MEMORY. -/
def execVectorMemory (b : Nat) (op : VMemOp) (word : Word64) (s : State) : Host.Outcome State Fault Refusal :=
  issues b word (vmemLegal op) (fun w x => vectorBusy (if op = .load then [] else [fDst w]) x)
    (fun k w x _ d => toUnit (if op = .load then .vload else .vstore) 0 k w { x with lastV := (x.pc, w) }
      (updCtx k (fun y => { y with lastV := (x.pc, w) }) d)) s

/-- VECTOR_SPECIAL. -/
def execVectorSpecial (b : Nat) (op : VSpecOp) (word : Word64) (s : State) : Host.Outcome State Fault Refusal :=
  issues b word (vspecLegal op) (fun w x => vectorBusy (vspecReads op w) x) (runVspec op) s

/-- Is a host instruction legal: with a V register IMM holds the lane quarter, else IMM is zero? -/
def hostLegal (vreg : Bool) (w : Nat) (_ : BCtx) (_ : Launch) : Bool :=
  wordOk w 9 [(53, 48), (37, 33), (31, if vreg then 2 else 0)]

/-- The scratch location of HLD or HST: 64-byte aligned; where the register holds another address the spec states no
location, and it is a free one. -/
def hostScratch (vreg : Bool) (w : Nat) (x : BCtx) (d : Dev) : Nat × Dev :=
  let a := x.sreg (fDst w)
  if vreg then (0, d)
  else if a % 64 = 0 then (a, d)
  else let p := drawFree d; (p.1 % (scratchSize / 64) * 64, p.2)

/-- A host instruction is handed to the host path. -/
def toHost (kind : UKind) (vreg : Bool) (k w : Nat) (x : BCtx) (_ : Launch) (d : Dev) : Dev :=
  let p := hostScratch vreg w x d
  toUnit kind p.1 k w x p.2

/-- HLD. -/
def execHld (b : Nat) (toV : Bool) (word : Word64) (s : State) : Host.Outcome State Fault Refusal :=
  issues b word (hostLegal toV) (fun _ x => decide (16 ≤ x.hostCount)) (toHost (.hld toV) toV) s

/-- HST. -/
def execHst (b : Nat) (fromV : Bool) (word : Word64) (s : State) : Host.Outcome State Fault Refusal :=
  issues b word (hostLegal fromV) (fun w x => decide (16 ≤ x.hostCount) || (fromV && x.vBusy (fDst w))) (toHost (.hst fromV) fromV) s

end Sys2Proof.Machine
end

