-- ==== Sys2Proof/Machine/Programs.lean ====
section
/-! DEFINITION. The scalar, branch, synchronisation and system instructions (R100 to R107, R115, R119, R121, R125). -/

namespace Sys2Proof.Machine

/-- No unit is busy. -/
def neverBusy (_ : Nat) (_ : BCtx) : Bool := false

/-! ## Scalar instructions -/

/-- A comparison of two 64-bit values. -/
def compare64 (c : Cmp) (a b : Nat) : Bool :=
  match c with
  | .eq => decide (a = b)
  | .ne => decide (a ≠ b)
  | .lt => decide (signedOf 64 a < signedOf 64 b)
  | .ge => decide (signedOf 64 b ≤ signedOf 64 a)
  | .ltu => decide (a < b)
  | .geu => decide (b ≤ a)

/-- The second operand: SRC2, or IMM where FLAGS bit 0 is set. -/
def operand2 (w : Nat) (x : BCtx) : Nat := if bitOf (fFlags w) 0 then fImm64 w else x.sreg (fSrc2 w)

/-- A shift by `n`: a shift by the width or more gives a value that the spec does not state (`none`). -/
def shift64 (op : ScalarOp) (a n : Nat) : Option Nat :=
  if 64 ≤ n then none
  else
    match op with
    | .shl => some (a * 2 ^ n % 2 ^ 64)
    | .shr => some (a / 2 ^ n)
    | _ => some (unsignedOf 64 (signedOf 64 a / (2 ^ n : Nat)))

/-- The result of a scalar operation that only computes. -/
def scalarValue (op : ScalarOp) (w : Nat) (x : BCtx) : Option Nat :=
  let a := x.sreg (fSrc1 w)
  let b := operand2 w x
  match op with
  | .add => some ((a + b) % 2 ^ 64)
  | .sub => some ((a + 2 ^ 64 - b) % 2 ^ 64)
  | .mul => some (a * b % 2 ^ 64)
  | .and => some (Nat.land a b)
  | .or => some (Nat.lor a b)
  | .xor => some (Nat.xor a b)
  | .shl => shift64 .shl a b
  | .shr => shift64 .shr a b
  | .sar => shift64 .sar a b
  | .compare c => some (if compare64 c a b then 1 else 0)
  | .movi => some (fImm64 w)
  | _ => some 0

/-- The scratch address of a scalar load or store. -/
def scalarAddr (w : Nat) (x : BCtx) : Nat := (x.sreg (fSrc1 w) + fImm64 w) % 2 ^ 64

/-- The effect of a scalar instruction. A load or store goes to SRC1 + IMM, and a store takes its value from SRC2, whatever FLAGS bit 0 says
(R105): DESIGN CHOICE (log entry 148). -/
def runScalar (op : ScalarOp) (k w : Nat) (x : BCtx) (_ : Launch) (d : Dev) : Dev :=
  match op with
  | .load =>
    (match readScratch k x (scalarAddr w x) 8 d with
     | .ok l => retire k (fun x => x.setS (fDst w) (leNat l)) (readsScratch k x (scalarAddr w x) 8 d)
     | .error e => faultScratch k x.pc w e d)
  | .store =>
    let r := writeScratch k (scalarAddr w x) (natLE 8 (x.sreg (fSrc2 w))) d
    (match r.2 with
     | none => retire k id r.1
     | some e => faultScratch k x.pc w e r.1)
  | _ =>
    match scalarValue op w x with
    | some v => retire k (fun x => x.setS (fDst w) v) d
    | none =>
      let p := drawFree d
      retire k (fun x => x.setS (fDst w) p.1) p.2

/-- Is a scalar instruction legal (R107)? -/
def scalarLegal (op : ScalarOp) (w : Nat) (_ : BCtx) (_ : Launch) : Bool :=
  wordOk w 0 [(53, 49)] && decide (op ≠ .undefined)

/-- Must a scalar load or store wait for an instruction in a unit, or for an HLD into scratch (R101)? -/
def scalarBusy (op : ScalarOp) (w : Nat) (x : BCtx) : Bool :=
  match op with
  | .load => rangeHeld x x.ops [(scalarAddr w x, 8)] []
  | .store => rangeHeld x x.ops [] [(scalarAddr w x, 8)]
  | _ => false

/-- SCALAR_INSTRUCTION. -/
def execScalarInstruction (b : Nat) (op : ScalarOp) (word : Word64) (s : State) : Host.Outcome State Fault Refusal :=
  issues b word (scalarLegal op) (scalarBusy op) (runScalar op) s

/-! ## Branches -/

/-- The address that a branch's signed offset in instructions names, counted from the branch itself (R105): DESIGN CHOICE (log entry 148). -/
def branchTarget (w : Nat) (x : BCtx) : Nat := unsignedOf 56 ((x.pc : Int) + 8 * signedOf 32 (fImm w))

/-- The comparison that a compare-and-branch names in FLAGS bits 1:0 (R105): which of the six each code is, the spec leaves open: a free
value (log entry 14). -/
def branchCmp (w : Nat) : Cmp :=
  match Config.branchCmp (fFlags w % 4) % 6 with
  | 0 => .eq
  | 1 => .ne
  | 2 => .lt
  | 3 => .ge
  | 4 => .ltu
  | _ => .geu

/-- The context after a branch (R105): a call links the address after it. A return goes to the address in SRC1, whose bits 2:0 are
dropped, and a counted loop takes 1 from SRC1 and branches while it is not zero: DESIGN CHOICE (log entry 148). -/
def branched (op : BranchOp) (w : Nat) (x : BCtx) : BCtx :=
  let go := branchTarget w x
  let on := (x.pc + 8) % 2 ^ 56
  match op with
  | .jump => { x with pc := go }
  | .branch => { x with pc := if compare64 (branchCmp w) (x.sreg (fSrc1 w)) (x.sreg (fSrc2 w)) then go else on }
  | .call => { x.setS (fDst w) on with pc := go }
  | .ret => { x with pc := x.sreg (fSrc1 w) % 2 ^ 56 / 8 * 8 }
  | .loop =>
    let n := (x.sreg (fSrc1 w) + 2 ^ 64 - 1) % 2 ^ 64
    { x.setS (fSrc1 w) n with pc := if n ≠ 0 then go else on }
  | .undefined => x

/-- Is a branch legal? -/
def branchLegal (op : BranchOp) (w : Nat) (_ : BCtx) (_ : Launch) : Bool :=
  wordOk w 1 [(53, 50)] && decide (op ≠ .undefined)

/-- BRANCH. -/
def execBranch (b : Nat) (op : BranchOp) (word : Word64) (s : State) : Host.Outcome State Fault Refusal :=
  issues b word (branchLegal op) neverBusy (fun k w _ _ d => updCtx k (branched op w) d) s

/-! ## Synchronisation (R115, R121) -/

/-- Is a synchronisation instruction legal? Only SWAIT names a channel in DST. -/
def syncLegal (channel : Bool) (w : Nat) (_ : BCtx) (_ : Launch) : Bool :=
  wordOk w 8 [(53, 48), (31, 0)] && (if channel then decide (fDst w < 8) else decide (fDst w = 0))

/-- An instruction that waits: the context moves past it and holds the wait. -/
def waits (k : Nat) (wt : BWait) (d : Dev) : Dev := retire k (fun x => { x with wait := wt }) d

/-- SWAIT (R115). -/
def execSwait (b : Nat) (word : Word64) (s : State) : Host.Outcome State Fault Refusal :=
  issues b word (syncLegal true) neverBusy
    (fun k w x _ d => waits k (.swait (fDst w) (x.sreg (fSrc1 w) % 2 ^ 32)) d) s

/-- A counter that an instruction names, where its instance owns it; otherwise the brick faults with cause 0x03. -/
def withCounter (f : Nat → Dev → Dev) (k w : Nat) (x : BCtx) (l : Launch) (d : Dev) : Dev :=
  let idx := x.sreg (fSrc1 w)
  if counterOwner idx d = some l.inst then f idx d else faultHere k x.pc w (3, 0) d

/-- CWAIT (R121). -/
def execCwait (b : Nat) (word : Word64) (s : State) : Host.Outcome State Fault Refusal :=
  issues b word (syncLegal false) neverBusy
    (fun k w x l d => withCounter (fun idx => waits k (.cwait idx (x.sreg (fSrc2 w) % 2 ^ 48) w)) k w x l d) s

/-- CADD (R121): it adds at once where everything earlier is visible. -/
def execCadd (b : Nat) (word : Word64) (s : State) : Host.Outcome State Fault Refusal :=
  issues b word (syncLegal false) neverBusy
    (fun k w x l d => withCounter (fun idx d => settleCtx k (waits k (.cadd idx (x.sreg (fSrc2 w) % 2 ^ 48) w) d)) k w x l d) s

/-- BAR (R121): one more barrier reached. -/
def execBar (b : Nat) (word : Word64) (s : State) : Host.Outcome State Fault Refusal :=
  issues b word (syncLegal false) neverBusy
    (fun k _ _ _ d => waits k .bar (updCtx k (fun x => { x with bars := x.bars + 1 }) d)) s

/-- FENCE (R121). -/
def execFence (b : Nat) (word : Word64) (s : State) : Host.Outcome State Fault Refusal :=
  issues b word (syncLegal false) neverBusy (fun k _ _ _ d => waits k .fence d) s

/-! ## The host fence and system instructions -/

/-- HFENCE (R119). -/
def execHfence (b : Nat) (word : Word64) (s : State) : Host.Outcome State Fault Refusal :=
  issues b word (fun w _ _ => wordOk w 9 [(53, 48), (37, 33), (31, 0)]) neverBusy
    (fun k _ _ _ d => waits k .hfence d) s

/-- Is a system instruction legal? END ignores IMM. -/
def sysLegal (endOp : Bool) (w : Nat) (_ : BCtx) (_ : Launch) : Bool :=
  wordOk w 0xA ([(53, 48), (42, 33)] ++ if endOp then [] else [(31, 0)])

/-- READ_FLAGS (R84). -/
def execReadFlags (b : Nat) (word : Word64) (s : State) : Host.Outcome State Fault Refusal :=
  issues b word (sysLegal false) neverBusy
    (fun k w x _ d => retire k (fun y => y.setS (fDst w) x.flags) d) s

/-- CLEAR_FLAGS (R84). -/
def execClearFlags (b : Nat) (word : Word64) (s : State) : Host.Outcome State Fault Refusal :=
  issues b word (sysLegal false) neverBusy
    (fun k _ _ _ d => retire k (fun y => { y with flags := 0 }) d) s

/-- READ_BEAT_COUNT (R102, R105): the beats of the slices that ended, and those of the present slice, which the command
gives. -/
def execReadBeatCount (b beats : Nat) (word : Word64) (s : State) : Host.Outcome State Fault Refusal :=
  issues b word (sysLegal false) neverBusy
    (fun k w x _ d => retire k (fun y => y.setS (fDst w) (x.beats + beats)) d) s

/-- A context leaves its brick: the poison of the scratch goes with it, and the brick's goes with every latent error. -/
def leaveBrick (k : Nat) (d : Dev) : Dev :=
  match ctxAt k d with
  | none => d
  | some x =>
    let p := poisonOf k x d
    let seen := p.filter (fun off => d.tiers.logged.contains (.scratch x.brick off))
    let d1 := updBrick x.brick (fun r => { r with cur := none }) (updCtx k (fun x => { x with poison := p, recorded := seen }) d)
    let keep : Place → Bool := fun q => match q with
      | .scratch b _ => b != x.brick
      | _ => true
    { d1 with tiers := { d1.tiers with
      poison := d1.tiers.poison.filter keep, logged := d1.tiers.logged.filter keep, soft := d1.tiers.soft.filter (fun s => keep s.1) } }

/-- END (R125): the brick frees its slice at once. -/
def runEnd (k : Nat) (x : BCtx) (d : Dev) : Dev :=
  let d1 := leaveBrick k (updCtx k (fun x => { x with wait := .ended }) d)
  returnGrant (.brick x.brick) (updBrick x.brick (fun r => { r with rot := r.rot.filter (fun j => j != k) }) d1)

/-- END. -/
def execEndProgram (b : Nat) (word : Word64) (s : State) : Host.Outcome State Fault Refusal :=
  issues b word (sysLegal true) neverBusy (fun k _ x _ d => runEnd k x d) s

end Sys2Proof.Machine
end

