-- ==== Sys2Proof/Machine/Streams.lean ====
section
/-! DEFINITION. Tile streams (R110 to R118, R120, R133, R136, R137): descriptors, channels, tiles in flight, remote tiles. -/

namespace Sys2Proof.Machine

/-! ## Descriptors (R110) -/

/-- What a rule of R110 asks of the fields of a descriptor. -/
def SDesc.ok (s : SDesc) : Bool :=
  let remote := decide (2 ≤ s.space)
  decide (s.scratch % 64 = 0) && decide (s.bufBytes % 64 = 0) && decide (s.rows * s.rowBytes ≤ s.bufBytes) &&
  decide (s.rowBytes % 32 = 0) && decide (1 ≤ s.buffers ∧ s.buffers ≤ 8) &&
  decide (s.scratch + s.buffers * s.bufBytes ≤ scratchSize) &&
  (!remote || decide (s.rowStride = s.rowBytes)) && (remote || decide (s.key = 0 ∧ s.node = 0)) &&
  (if s.space = 0 then decide (s.mem < 2 ^ 56) else if remote then decide (s.mem < 2 ^ 40) else true) &&
  (if s.space = 2 then s.store else if s.space = 3 then !s.store else true) &&
  decide (s.prefetch ≤ 8) && (decide (s.prefetch = 0) || (decide (s.space = 0) && !s.store)) &&
  (s.imm.isNone || decide (s.space = 2))

/-- Are the bits that R110 leaves zero zero, and the strides written as it says? -/
def descZeros (l : List Byte) : Bool :=
  zeroIn l 15 15 && decide (fieldLE l 16 4 < 2 ^ 22) && zeroIn l 30 31 && zeroIn l 50 55 && zeroIn l 60 63 &&
  decide (fieldLE l 38 2 = if bitOf (fieldLE l 32 6) 47 then 65535 else 0) &&
  decide ((l.getD 47 0).toNat < 8) && decide ((l.getD 48 0).toNat < 16) && decide ((l.getD 49 0).toNat < 2)

/-- The descriptor of 64 bytes, issued by the instruction `w` at `pc`; none where it is malformed. -/
def parseDesc (l : List Byte) (pc w : Nat) : Option SDesc :=
  let s : SDesc := {
    mem := fieldLE l 0 8, key := fieldLE l 8 4, node := fieldLE l 12 3, scratch := fieldLE l 16 4, bufBytes := fieldLE l 20 4,
    rowStride := fieldLE l 24 6, tileStride := signedOf 48 (fieldLE l 32 6), rows := fieldLE l 40 2 + 1,
    rowBytes := fieldLE l 42 2 + 1, count := fieldLE l 44 2 + 1, buffers := (l.getD 46 0).toNat % 16,
    space := (l.getD 47 0).toNat % 4, store := bitOf (l.getD 47 0).toNat 2, prefetch := (l.getD 48 0).toNat % 16,
    imm := if bitOf (l.getD 49 0).toNat 0 then some (fieldLE l 56 4) else none, first := 0, pc := pc, word := w }
  if descZeros l && s.ok then some s else none

/-- Bytes of a tile. -/
def SDesc.len (s : SDesc) : Nat := s.rows * s.rowBytes

/-- The place of a channel's tile within its descriptor. -/
def SDesc.index (s : SDesc) (n : Nat) : Nat := (n + 2 ^ 32 - s.first % 2 ^ 32) % 2 ^ 32

/-- The scratch buffer of a tile (R111). -/
def SDesc.buffer (s : SDesc) (n : Nat) : Nat := s.scratch + s.index n % s.buffers * s.bufBytes

/-- The memory address of row `r` of a tile (R111), before it is cut to the space's width. -/
def SDesc.rowAt (s : SDesc) (n r : Nat) : Int := (s.mem : Int) + (s.index n : Int) * s.tileStride + ((r * s.rowStride : Nat) : Int)

/-! ## STREAM and SPOST -/

/-- Is a STREAM legal? -/
def streamLegal (w : Nat) (_ : BCtx) (_ : Launch) : Bool :=
  wordOk w 7 [(53, 48), (37, 33), (31, 0)] && decide (fDst w < 8)

/-- The pages that one tile of a descriptor could touch (R179). -/
def SDesc.pages (s : SDesc) : Nat := min (2 * s.rows) (((s.rows - 1) * s.rowStride + s.rowBytes) / 2 ^ 26 + 2)

/-- Must a STREAM wait: its channel holds two descriptors, or an earlier instruction has yet to write the descriptor? -/
def streamBusy (w : Nat) (x : BCtx) : Bool :=
  let c := x.chan (fDst w)
  (c.cur.isSome && c.next.isSome) || rangeHeld x x.ops [(x.sreg (fSrc1 w), 64)] []

/-- A descriptor enters a channel (R112): tile numbers run on. -/
def Chan.take (c : Chan) (s : SDesc) : Chan :=
  match c.cur with
  | none => { c with cur := some { s with first := c.started } }
  | some t => { c with next := some { s with first := t.last } }

/-- The effect of STREAM: a malformed descriptor, and one whose tile could touch more than 64 pages, faults with cause 0x05 (R110, R179). -/
def runStream (k w : Nat) (x : BCtx) (l : Launch) (d : Dev) : Dev :=
  let a := x.sreg (fSrc1 w)
  let bad := brickFault k { cause := 5, pc := x.pc, word := w, addr := 0, ch := fDst w, own := 0 }
  if a % 64 ≠ 0 then bad d
  else
    match readScratch k x a 64 d with
    | .error e => faultScratch k x.pc w e d
    | .ok bs =>
      let d1 := readsScratch k x a 64 d
      match parseDesc bs x.pc w with
      | none => bad d1
      | some s =>
        if (2 ≤ s.space ∧ l.rq = 0xFFFF) ∨ 64 < s.pages then bad d1
        else updCtx k BCtx.advance (updChan k (fDst w) (fun c => c.take s) d1)

/-- STREAM. -/
def execStream (b : Nat) (word : Word64) (s : State) : Host.Outcome State Fault Refusal :=
  issues b word streamLegal streamBusy runStream s

/-- The effect of SPOST: it takes effect when everything before it has finished with scratch (R113). -/
def runSpost (k w : Nat) (x : BCtx) (_ : Launch) (d : Dev) : Dev :=
  let loads := x.host.filterMap (fun h => match h.2 with
    | .loadS _ _ _ => some h.1
    | _ => none)
  let units := (x.ops.filter (fun o => o.inScratch x)).map UOp.id
  settlePosts k (retire k (fun y => { y with posts := y.posts ++ [{ ch := fDst w, n := fImm w, after := loads ++ units }] }) d)

/-- SPOST. -/
def execSpost (b : Nat) (word : Word64) (s : State) : Host.Outcome State Fault Refusal :=
  issues b word (fun w _ _ => wordOk w 7 [(53, 48), (37, 33)] && decide (fDst w < 8)) neverBusy runSpost s

/-! ## Where a tile lies -/

/-- A part of a tile at device addresses: its offset in the tile, its address, its length. -/
structure Part where
  off : Nat
  va  : Nat
  len : Nat

/-- The parts of a tile of SPACE 0, row by row, cut at frame boundaries. -/
def tileParts (s : SDesc) (n : Nat) : List Part :=
  (List.range s.rows).flatMap (fun r =>
    let va := unsignedOf 56 (s.rowAt n r)
    (cutFrames 3 va s.rowBytes).map (fun c => { off := r * s.rowBytes + (c.1 - va), va := c.1, len := c.2 }))

/-- The spots of the parts of a tile, or the first outcome that is no mapping, with its address. -/
def spots (ctx : Nat) (kind : Kind) (e : Eng) (d : Dev) : List Part → Except (XRes × Nat) (List Spot)
  | [] => .ok []
  | p :: r =>
    let rest := spots ctx kind e d r
    match translate ctx p.va kind e d with
    | .frame lfn off _ _ _ _ =>
      (match ldaPhys (lfn * 2 ^ 26 + off) d, rest with
       | some _, .ok l => .ok ({ off := p.off, host := false, addr := lfn * 2 ^ 26 + off, len := p.len, va := p.va } :: l)
       | some _, .error x => .error x
       | none, _ => .error (.access, p.va))
    | .host a _ _ _ =>
      (match rest with
       | .ok l => .ok ({ off := p.off, host := true, addr := a, len := p.len, va := p.va } :: l)
       | .error x => .error x)
    | x => .error (x, p.va)

/-- A tile's translations enter the caches, and its accesses are counted (R172, R191). -/
def touchTile (ctx : Nat) (kind : Kind) (e : Eng) (sp : List Spot) (d : Dev) : Dev :=
  countLda ctx ((sp.filter (fun p => !p.host)).map (fun p => (p.addr, p.len))) e (each sp (fun p d => fillAt ctx p.va kind e d) d)

/-- The address of a byte of a tile by its offset in the tile. -/
def SDesc.rowVa (s : SDesc) (n off : Nat) : Nat := unsignedOf 56 (s.rowAt n (off / s.rowBytes))

/-- The 64-byte host accesses of a tile: offset in the tile and host address; none where an address of it translates to host memory and its
ROW_BYTES or a row address is no multiple of 64 (R120). -/
def hostPieces (t : SDesc) (n : Nat) (l : List Spot) : Option (List (Nat × Nat)) :=
  let h := l.filter (fun s => s.host)
  if h.isEmpty || (t.rowBytes % 64 = 0 && (List.range t.rows).all (fun r => t.rowVa n (r * t.rowBytes) % 64 == 0)) then
    some (h.flatMap (fun s => (List.range (s.len / 64)).map (fun i => (s.off + 64 * i, s.addr + 64 * i))))
  else none

/-- A tile faults its brick. -/
def tileFault (k ch : Nat) (s : SDesc) (cause addr : Nat) (d : Dev) : Dev :=
  brickFault k { cause := cause, pc := s.pc, word := s.word, addr := addr, ch := ch, own := 0 } d

/-- A tile's translation that is no mapping (R108, R177, R181). -/
def tileXlate (k b ch ctx : Nat) (s : SDesc) (kind : Kind) (r : XRes) (va : Nat) (d : Dev) : Dev :=
  match r with
  | .notMapped lv =>
    (match raiseFault ctx va lv kind (.brick b) (.brick k ch) d with
     | .ok d1 => d1
     | .error d1 => tileFault k ch s 4 va d1)
  | .malformed => tileFault k ch s 4 va d
  | .uncorrectable a => tileFault k ch s 0xB va (noteUe (.dev a) 2 d)
  | _ => tileFault k ch s 3 va d

/-- The basin address of a row of a SPACE 1 tile on the die of brick `b`, or none where it leaves the window (R133). -/
def basinAt (b inst : Nat) (off : Int) (len : Nat) (d : Dev) : Option Nat :=
  let w := windowNow inst d
  if 0 ≤ off ∧ off.toNat + len ≤ w.1 * 2 ^ 18 then some (b / 128 * 2 ^ 27 + w.2 * 2 ^ 18 + off.toNat) else none

/-- The basin rows of a tile: offset in the tile and basin address; none where the tile leaves the window. -/
def basinRows (s : SDesc) (n b inst : Nat) (d : Dev) : Option (List (Nat × Nat)) :=
  let l := (List.range s.rows).map (fun r => (r * s.rowBytes, basinAt b inst (s.rowAt n r) s.rowBytes d))
  if l.all (fun p => p.2.isSome) then some (l.map (fun p => (p.1, p.2.getD 0))) else none

/-! ## Starting a tile (R112, R114) -/

/-- May the next tile of a channel start? -/
def Chan.mayStart (c : Chan) : Option SDesc :=
  match c.cur with
  | none => none
  | some s =>
    if c.started ≠ s.last && countBelow c.started (c.posted + if s.store then 0 else s.buffers) then some s else none

/-- The tiles that a context has in flight (R114). -/
def BCtx.inFlight (x : BCtx) : Nat := (x.chans.map (fun c => c.2.tiles.length)).sum

/-- The context whose tile STREAM_TILE_START starts: the one on the brick, or one that has ended with stores posted. -/
def startCtx (b ch : Nat) (d : Dev) : Option (Nat × BCtx × SDesc) :=
  (ctxsOf b d).findSome? (fun p =>
    if (onBrick p.1 p.2 d && holdsGrant (.brick b) d && (brickAt b d).failing.isNone) || p.2.wait == .ended then
      match (p.2.chan ch).mayStart with
      | some s => if p.2.inFlight < 64 && !inFault (.brick p.1 ch) d then some (p.1, p.2, s) else none
      | none => none
    else none)

/-- A tile is in flight. -/
def addTile (k ch : Nat) (t : TileFl) (d : Dev) : Dev :=
  updChan k ch (fun c => { c with tiles := c.tiles ++ [t], started := (c.started + 1) % 2 ^ 32, asks := [] }) d

/-- A fresh tile. -/
def SDesc.tile (s : SDesc) (n : Nat) : TileFl :=
  { n := n, desc := s, data := [], landed := false, visible := false, host := [], got := [], spots := [], seq := 0 }

/-- A tile is in flight, its transfers issued now (R31). -/
def issueTile (k ch : Nat) (t : TileFl) (d : Dev) : Dev :=
  let p := newId d
  addTile k ch { t with seq := p.1 } p.2

/-- A remote tile goes to its launch's brick-fed queue (R116). -/
def queueTile (x : BCtx) (l : Launch) (ch n : Nat) (s : SDesc) (data : List Byte) (d : Dev) : Dev :=
  let t : Tile := {
    load := !s.store, len := s.len, brick := x.brick, chan := ch, index := n, data := data, key := s.key, node := s.node,
    offset := unsignedOf 40 (s.rowAt n 0), imm := if s.index n + 1 = s.count then s.imm else none, launch := x.launch }
  tryRead l.rq (updWq l.rq (fun w =>
    if w.inst = l.inst && w.feed = 2 && w.state != 2 then { w with tiles := w.tiles ++ [t] } else w) d)

/-- The bytes that the basin pool holds for a tile. -/
def stagedOf (k ch n : Nat) (d : Dev) : Option Staged :=
  d.tiers.staged.find? (fun t => t.key == k && t.chan == ch && t.tile == n)

/-- The DDR5 channels that a tile uses (R45). -/
def tileChans (sp : List Spot) (d : Dev) : List Nat :=
  ((sp.filterMap (fun s => if s.host then none else (ldaPhys s.addr d).map (· / 2 ^ 26))).filter (fun p => decide (16384 ≤ p))).map siteOf

/-- A tile of SPACE 0 starts: its addresses translate, and it waits for the current of the DDR5 channels that it uses (R45, R46); a staged
tile leaves the pool (R136). -/
def startDevice (k ch n : Nat) (x : BCtx) (l : Launch) (s : SDesc) (d : Dev) : Dev :=
  match stagedOf k ch n d with
  | some g =>
    addTile k ch { s.tile n with data := g.bytes }
      { d with tiers := { d.tiers with staged := d.tiers.staged.filter (fun t => t != g) } }
  | none =>
    let kind : Kind := if s.store then .write else .read
    let ps := tileParts s n
    match spots l.ctx kind (.brick x.brick) d ps with
    | .error (r, va) => tileXlate k x.brick ch l.ctx s kind r va d
    | .ok sp =>
      match hostPieces s n sp with
      | none => tileFault k ch s 0xA (((sp.find? (fun p => p.host)).map Spot.va).getD 0) d
      | some hs =>
        if !hs.isEmpty && !hostOpen d then tileFault k ch s 7 (((sp.find? (fun p => p.host)).map Spot.va).getD 0) d
        else
          let cs := (tileChans sp d).eraseDups
          let d0 := if cs.isEmpty then d else wantChans cs (updChan k ch (fun c => { c with asks := cs }) d)
          if !holdsChans cs d0 then d0
          else
            let d1 := touchTile l.ctx kind (.brick x.brick) sp d0
            pumpTiles k 16 (issueTile k ch { s.tile n with host := hs, spots := sp } d1)

/-- STREAM_TILE_START (R112, R114, R116, R120). -/
def streamTileStart (b ch : Nat) (d : Dev) : Dev :=
  match startCtx b ch d with
  | none => d
  | some (k, x, s) =>
    match launchAt x.launch d with
    | none => d
    | some l =>
      let n := (x.chan ch).started
      match s.space with
      | 0 => startDevice k ch n x l s d
      | 1 => if (basinRows s n b l.inst d).isNone then tileFault k ch s 2 0 d else issueTile k ch (s.tile n) d
      | 2 => addTile k ch (s.tile n) d
      | _ => queueTile x l ch n s [] (addTile k ch (s.tile n) d)

/-- STREAM_TILE_START. -/
def execStreamTileStart (b ch : Nat) (s : State) : Host.Outcome State Fault Refusal :=
  .next { s with dev := streamTileStart b ch s.dev }

/-! ## The scratch side ends (R112) -/

/-- DONE rises by one, and a descriptor whose tiles are all done gives way to the next (R112). -/
def Chan.finish (c : Chan) : Chan :=
  let done := (c.done + 1) % 2 ^ 32
  match c.cur with
  | some s =>
    if done = s.last then { c with done := done, cur := c.next, next := none }
    else { c with done := done }
  | none => { c with done := done }

/-- Puts bytes at offsets of a tile. -/
def assemble (l : List (Nat × List Byte)) : List Byte :=
  (l.mergeSort (fun a b => decide (a.1 ≤ b.1))).flatMap Prod.snd

/-- The physical pieces of the device parts of a tile, each with its offset in the tile. -/
def piecesOf (d : Dev) (sp : List Spot) : List (Nat × Nat × Nat) :=
  sp.filterMap (fun s => if s.host then none else (ldaPhys s.addr d).map (fun a => (s.off, a, s.len)))

/-- The bytes of the device parts of a tile, each with its offset, or the offset and the codeword of the first part whose read fails. -/
def readSpots (d : Dev) : List (Nat × Nat × Nat) → Except (Nat × Nat) (List (Nat × List Byte))
  | [] => .ok []
  | (off, a, n) :: r =>
    match readPhys a n d with
    | .error c => .error (off, c)
    | .ok l =>
      match readSpots d r with
      | .ok ls => .ok ((off, l) :: ls)
      | .error e => .error e

/-- The poisoned basin codewords of a range. -/
def basinPoison (a n : Nat) (d : Dev) : List Place :=
  d.tiers.poison.filter (fun p => match p with
    | .basin die off => decide (die * 2 ^ 27 + off < a + n) && decide (a < die * 2 ^ 27 + off + 16)
    | _ => false)

/-- Does a codeword lie in the pool of a die's basin (R133, R136)? -/
def inPool (die : Nat) (d : Dev) (p : Place) : Bool :=
  match p with
  | .basin x off => x == die && decide ((285 - d.tiers.poolUnits) * 2 ^ 18 ≤ off) && decide (off < 285 * 2 ^ 18)
  | _ => false

/-- A staged tile is read from its pool (R136, R145, R146). Where in the pool it lies the spec does not say: whether a poisoned codeword of
the pool is one of the tile's, and of which row, is a free value (log entry 157). -/
def loadStaged (k ch : Nat) (x : BCtx) (t : TileFl) (d : Dev) : Dev ⊕ (List Byte × Dev) :=
  let die := x.brick / 128
  match d.tiers.poison.filter (inPool die d) with
  | [] => .inr (t.data, readsSome (inPool die d) d)
  | p :: _ =>
    let n := drawFree d
    if n.1 % 2 = 1 then
      .inl (tileFault k ch t.desc 0xB (t.desc.rowVa t.n (n.1 / 2 % t.desc.rows * t.desc.rowBytes)) (noteUe p 2 n.2))
    else .inr (t.data, readsSome (inPool die n.2) n.2)

/-- What a load tile brings with the reads made, or the fault that its reading ends in. -/
def loadBytes (k ch : Nat) (x : BCtx) (l : Launch) (t : TileFl) (d : Dev) : Dev ⊕ (List Byte × Dev) :=
  let s := t.desc
  if !t.data.isEmpty then (if s.space = 0 then loadStaged k ch x t d else .inr (t.data, d))
  else if s.space = 1 then
    match basinRows s t.n x.brick l.inst d with
    | none => .inl (tileFault k ch s 2 0 d)
    | some rows =>
      match rows.flatMap (fun r => basinPoison r.2 s.rowBytes d) with
      | p :: _ => .inl (tileFault k ch s 0xB 0 (noteUe p 2 d))
      | [] => .inr (rows.flatMap (fun r => Mem.readN d.tiers.basin r.2 s.rowBytes),
          correct (metBasin (rows.map (fun r => (r.2, s.rowBytes)))) d)
  else
    let ps := piecesOf d t.spots
    match readSpots d ps with
    | .error (off, c) => .inl (tileFault k ch s 0xB (s.rowVa t.n off) (noteUe (.dev c) 2 d))
    | .ok parts => .inr (assemble (parts ++ t.got), readsDev (ps.map Prod.snd) d)

/-- The memories that a tile's transfers go to or come from, as destinations of the mortar (R31): stacks, sites, the die's basin. -/
def destsOf (t : TileFl) (d : Dev) : List Nat :=
  if t.desc.space = 1 then [32]
  else (piecesOf d t.spots).map (fun p => if p.2.1 < 2 ^ 40 then p.2.1 / 2 ^ 26 / 1536 else 16 + (p.2.1 / 2 ^ 26 - 16384) / 4096)

/-- The transfers of a brick between scratch and one memory arrive in the order issued (R31): is a store tile that was issued before
moment `seq` still on its way to a memory that a tile goes to? -/
def overtaken (b seq : Nat) (t : TileFl) (d : Dev) : Bool :=
  (ctxsOf b d).any (fun p => p.2.chans.any (fun c => c.2.tiles.any (fun u =>
    u.desc.store && u.landed && decide (u.desc.space ≤ 1) && decide (u.seq < seq) &&
    (destsOf u d).any (fun m => (destsOf t d).contains m))))

/-- May the scratch side of a tile end: a remote load has its data, a host load all its accesses, and no earlier store is on its way to
the memory that a load reads? -/
def tileReady (x : BCtx) (ch : Nat) (t : TileFl) (d : Dev) : Bool :=
  if t.desc.store then true
  else !overtaken x.brick t.seq t d && (decide (t.desc.space ≠ 3) || !t.data.isEmpty) && t.host.isEmpty &&
    !x.host.any (fun h => match h.2 with
      | .tile c n _ => c == ch && n == t.n
      | _ => false)

/-- The context and tile whose scratch side ends next on a brick's channel: tiles of a channel finish in order. -/
def doneTile (b ch : Nat) (d : Dev) : Option (Nat × BCtx × TileFl) :=
  (ctxsOf b d).findSome? (fun p =>
    match (p.2.chan ch).tiles.find? (fun t => !t.landed) with
    | some t => if tileReady p.2 ch t d && !inFault (.brick p.1 ch) d then some (p.1, p.2, t) else none
    | none => none)

/-- A load tile lands in scratch (R112). -/
def landTile (k ch : Nat) (t : TileFl) (l : List Byte) (d : Dev) : Dev :=
  let r := writeScratch k (t.desc.buffer t.n) l d
  match r.2 with
  | some e => tileFault k ch t.desc e.1 e.2 r.1
  | none => idleDdr (updChan k ch (fun c => { c.finish with tiles := c.tiles.filter (fun u => u.n != t.n) }) r.1)

/-- A store tile has been read from scratch (R112): its bytes are on their way. -/
def readTile (k ch : Nat) (x : BCtx) (l : Launch) (t : TileFl) (d : Dev) : Dev :=
  match readScratch k x (t.desc.buffer t.n) t.desc.len d with
  | .error e => tileFault k ch t.desc e.1 e.2 (when_ (decide (e.1 = 0xB)) (noteUe (.scratch x.brick e.2) 2) d)
  | .ok bs =>
    let p := newId (readsScratch k x (t.desc.buffer t.n) t.desc.len d)
    let d1 := updChan k ch (fun c => { c.finish with
      tiles := c.tiles.map (fun u => if u.n = t.n then { u with data := bs, landed := true, seq := p.1 } else u) }) p.2
    if t.desc.space = 2 then queueTile x l ch t.n t.desc bs d1 else pumpTiles k 16 d1

/-- STREAM_TILE_DONE (R112). -/
def streamTileDone (b ch : Nat) (d : Dev) : Dev :=
  match doneTile b ch d with
  | none => d
  | some (k, x, t) =>
    match launchAt x.launch d with
    | none => d
    | some l =>
      if t.desc.store then readTile k ch x l t d
      else
        match loadBytes k ch x l t d with
        | .inl d1 => d1
        | .inr r => landTile k ch t r.1 r.2

/-- STREAM_TILE_DONE. -/
def execStreamTileDone (b ch : Nat) (s : State) : Host.Outcome State Fault Refusal :=
  .next { s with dev := streamTileDone b ch s.dev }

/-! ## Visibility (R118) -/

/-- A store tile is visible: it leaves the channel, and what waited for it goes on. -/
def seeTile (k ch n : Nat) (d : Dev) : Dev :=
  settleCtx k (idleDdr (updChan k ch (fun c => { c with tiles := c.tiles.filter (fun t => t.n != n) }) d))

/-- The device parts of a store tile are written; with the offset of the first part of which a byte was not (R148). -/
def writeSpots (data : List Byte) : List (Nat × Nat × Nat) → Dev → Dev × Option Nat
  | [], d => (d, none)
  | (off, a, n) :: r, d =>
    let w := writePieces [(a, n)] ((data.drop off).take n) d
    let x := writeSpots data r w.1
    (x.1, if w.2 then x.2 else some off)

/-- A store tile of a context that may be written now: it is read, its host part is at the host, and no earlier store of the brick is on
its way to a memory that it goes to (R31). -/
def storeReady (x : BCtx) (ch n : Nat) (d : Dev) : Option TileFl :=
  (x.chan ch).tiles.find? (fun t => t.n == n && t.desc.store && t.landed && decide (t.desc.space ≤ 1) && t.host.isEmpty &&
    !overtaken x.brick t.seq t d &&
    !x.host.any (fun h => match h.2 with
      | .tile c m _ => c == ch && m == n
      | _ => false))

/-- Poison that a write of basin rows does not replace whole (R148). -/
def basinBad (rows : List (Nat × Nat)) (n : Nat) (d : Dev) : List Place :=
  rows.flatMap (fun r => (basinPoison r.2 n d).filter (fun p => match p with
    | .basin die off => !(decide (r.2 ≤ die * 2 ^ 27 + off) && decide (die * 2 ^ 27 + off + 16 ≤ r.2 + n))
    | _ => false))

/-- Writes a row of the basin, byte by byte past the poisoned codewords that it does not replace. -/
def writeBasin (bad : List Place) (a : Nat) (l : List Byte) (d : Dev) : Dev :=
  let keep := fun (p : Nat × Byte) => !bad.contains (.basin (p.1 / 2 ^ 27) (p.1 % 2 ^ 27 / 16 * 16))
  let bs := ((List.range l.length).map (fun i => (a + i, l.getD i 0))).filter keep
  let stays : Place → Bool := fun p => match p with
    | .basin die off => !(decide (a ≤ die * 2 ^ 27 + off) && decide (die * 2 ^ 27 + off + 16 ≤ a + l.length))
    | _ => true
  { d with tiers := { d.tiers with
      basin := bs.foldl (fun m p => Mem.write m p.1 p.2) d.tiers.basin, poison := d.tiers.poison.filter stays,
      logged := d.tiers.logged.filter stays, soft := d.tiers.soft.filter (fun s => stays s.1) } }

/-- STORE_TILE_VISIBLE (R118): a local store tile is written where every path reads it. -/
def storeTileVisible (b ch n : Nat) (d : Dev) : Dev :=
  match (ctxsOf b d).findSome? (fun p => (storeReady p.2 ch n d).map (fun t => (p.1, p.2, t))) with
  | none => d
  | some (k, x, t) =>
    match launchAt x.launch d with
    | none => d
    | some l =>
      let s := t.desc
      if s.space = 1 then
        match basinRows s n b l.inst d with
        | none => tileFault k ch s 2 0 d
        | some rows =>
          let bad := basinBad rows s.rowBytes d
          let d1 := each rows (fun r => writeBasin bad r.2 ((t.data.drop r.1).take s.rowBytes)) d
          if bad.isEmpty then seeTile k ch n d1 else tileFault k ch s 0xB 0 d1
      else
        let w := writeSpots t.data (piecesOf d t.spots) d
        match w.2 with
        | some off => tileFault k ch s 0xB (s.rowVa n off) w.1
        | none => seeTile k ch n w.1

/-- STORE_TILE_VISIBLE. -/
def execStoreTileVisible (b ch n : Nat) (s : State) : Host.Outcome State Fault Refusal :=
  .next { s with dev := storeTileVisible b ch n s.dev }

/-! ## Remote tiles (R117) -/

/-- A finished descriptor leaves its queue without an entry, and its slot is free (R117). -/
def silentEnd (q idx : Nat) (d : Dev) : Dev :=
  match wqAt q d with
  | none => d
  | some w =>
    if w.flight.any (fun x => x.idx == idx && x.done.isSome) then
      freeSlot w.cr (updWq q (fun w => { w with flight := w.flight.filter (fun x => !(x.idx == idx && x.done.isSome)) }) d)
    else d

/-- A remote tile's operation has ended (R117): where it ended OK its slot returns at once, whatever is before it in its queue; else its
entry is written in ring order. The brick goes on or faults. -/
def remoteTileComplete (q idx : Nat) (d : Dev) : Dev :=
  match d.bricks.ends.find? (fun e => e.q == q && e.idx == idx) with
  | none => d
  | some e =>
    let d0 := { d with bricks := { d.bricks with ends := d.bricks.ends.filter (fun f => f != e) } }
    let d1 := drainAll q (when_ (decide (e.status = 0)) (silentEnd q idx) d0)
    match (mates e.tile.launch d1).find? (fun p => p.2.brick == e.tile.brick) with
    | none => d1
    | some (k, _) =>
      if e.status ≠ 0 then
        brickFault k { cause := 6, pc := 0, word := 0, addr := 0, ch := e.tile.chan, own := e.status } d1
      else if e.tile.load then updTile k e.tile.chan e.tile.index (fun t => { t with data := e.tile.data }) d1
      else seeTile k e.tile.chan e.tile.index d1

/-- REMOTE_TILE_COMPLETE. -/
def execRemoteTileComplete (q idx : Nat) (s : State) : Host.Outcome State Fault Refusal :=
  .next { s with dev := remoteTileComplete q idx s.dev }

/-! ## The basin prefetch engine (R136, R137) -/

/-- The pool space that is taken on a die, in units of 4 KiB. -/
def poolUsed (die : Nat) (d : Dev) : Nat :=
  ((d.tiers.staged.filter (fun t => ((ctxAt t.key d).map (fun x => x.brick / 128)) == some die)).map Staged.units).sum

/-- The next tile of a channel that may be staged: it has not started and is not staged. -/
def stageable (k ch : Nat) (x : BCtx) (d : Dev) : Option (Nat × SDesc) :=
  match (x.chan ch).cur with
  | none => none
  | some s =>
    if s.space = 0 && !s.store && decide (0 < s.prefetch) then
      ((List.range (s.buffers + s.prefetch)).map (fun i => ((x.chan ch).started + i) % 2 ^ 32)).findSome? (fun n =>
        if decide (s.index n < s.count) && countBelow n ((x.chan ch).posted + s.buffers + s.prefetch) &&
           (stagedOf k ch n d).isNone then some (n, s) else none)
    else none

/-- A tile is staged where the pool has room; it is read as it stands. -/
def stageTile (k ch n : Nat) (x : BCtx) (l : Launch) (s : SDesc) (d : Dev) : Dev :=
  let units := ceilDiv s.len 4096
  if d.tiers.poolUnits * 64 < poolUsed (x.brick / 128) d + units then d
  else
    let ps := tileParts s n
    match spots l.ctx .read (.brick x.brick) d ps with
    | .error (.uncorrectable a, _) => noteUe (.dev a) 2 d
    | .error _ => d
    | .ok sp =>
      if sp.any (fun p => p.host) then d
      else
        match readSpots d (piecesOf d sp) with
        | .error (_, c) => noteUe (.dev c) 2 d
        | .ok parts =>
          let d1 := touchTile l.ctx .read (.brick x.brick) sp (readsDev ((piecesOf d sp).map Prod.snd) d)
          { d1 with tiers := { d1.tiers with
            staged := d1.tiers.staged ++ [{ key := k, chan := ch, tile := n, units := units, bytes := assemble parts }] } }

/-- BASIN_PREFETCH_STAGE (R136): under the engine's grant, which returns when the engine is idle again. -/
def basinPrefetchStage (b ch : Nat) (d : Dev) : Dev :=
  match (ctxsOf b d).findSome? (fun p =>
      if onBrick p.1 p.2 d then (stageable p.1 ch p.2 d).map (fun t => (p.1, p.2, t.1, t.2)) else none) with
  | none => d
  | some (k, x, n, s) =>
    match launchAt x.launch d with
    | none => d
    | some l =>
      if d.tiers.poolUnits = 0 then d
      else
        let d1 := wantGrant (.prefetch (b / 128)) d.upd.costs.prefetch none d
        if holdsGrant (.prefetch (b / 128)) d1 then returnGrant (.prefetch (b / 128)) (stageTile k ch n x l s d1) else d1

/-- BASIN_PREFETCH_STAGE. -/
def execBasinPrefetchStage (b ch : Nat) (s : State) : Host.Outcome State Fault Refusal :=
  .next { s with dev := basinPrefetchStage b ch s.dev }

end Sys2Proof.Machine
end

