-- ==== Sys2Proof/Machine/Launches.lean ====
section
/-! DEFINITION. Launches, slices, residue checks and the retirement of bricks (R92 to R96, R122 to R130, R402, R483, R484). -/

namespace Sys2Proof.Machine

/-! ## A launch begins (R103, R122, R127) -/

/-- Grant cost of a brick by activity (R45), in the current curves in force: 0 streams alone, 1 vectors, 2 and 3 the matrix unit. -/
def brickCost (act : Nat) (d : Dev) : Nat := d.upd.costs.brick.getD (2 - act) 0

/-- A context as a launch starts it (R103): S1, S2 and S3 set, everything else zero, scratch undefined. -/
def BCtx.start (l : Launch) (id g b seed : Nat) : BCtx :=
  { launch := id, gindex := g, brick := b,
    s := (if l.arg = 0 then [] else [(1, l.arg)]) ++ (if g = 0 then [] else [(2, g)]) ++ [(3, l.bricks.length)],
    pc := l.code, v := [], banks := [], flags := 0, chans := [], beats := 0, scratch := [], seed := seed, poison := [], recorded := [],
    wait := .run, word := 0, wordPc := 0, lastV := (0, 0), ops := [], host := [], posts := [], bars := 0 }

/-- An admitted launch takes its place in the rotation of its bricks. -/
def beginLaunch (l : Launch) (d : Dev) : Dev :=
  let id := d.bricks.nextId
  let seed := d.free
  let d1 := { d with
    free := d.free + 1, bricks := { d.bricks with nextId := id + 1, launches := Tab.set d.bricks.launches id l } }
  each ((List.range l.bricks.length).zip l.bricks) (fun p d =>
    let k := ctxKey id p.1
    updBrick p.2 (fun r => { r with rot := r.rot ++ [k] })
      { d with bricks := { d.bricks with ctxs := Tab.set d.bricks.ctxs k (BCtx.start l id p.1 p.2 seed) } }) d1

/-! ## The time of a launch (R124) -/

/-- T in microseconds of `beats` beats with `g` groups in rotation. -/
def launchT (beats g : Nat) (d : Dev) : Nat :=
  (ceilDiv beats (d.bricks.sliceUs * 1520) * (2 * g + 1) + 1) * (d.bricks.sliceUs + 120) + 200

/-- The groups in rotation on a brick, one more included where a launch would join it. -/
def groupsOn (b : Nat) (d : Dev) : Nat := (brickAt b d).rot.length

/-- The largest rotation among some bricks, with a launch over `more` of them added. -/
def largestG (bs more : List Nat) (d : Dev) : Nat :=
  bs.foldl (fun g b => max g (groupsOn b d + if more.contains b then 1 else 0)) 0

/-- The beats that a context has used: those of the slices that ended, and those of the slice in hand at the slow corner's 190 beats in
0.125 µs, which R8 makes the least (log entry 25). -/
def beatsUsed (k : Nat) (x : BCtx) (d : Dev) : Nat :=
  x.beats + (if onBrick k x d && holdsGrant (.brick x.brick) d then 190 * (clock (x.brick / 128) d - (brickAt x.brick d).began) else 0)

/-- The beats that remain to an admitted launch: those of its brick that has used least. -/
def beatsLeft (id : Nat) (l : Launch) (d : Dev) : Nat :=
  l.limit - (match ((mates id d).filter (fun p => p.2.wait != .ended)).map (fun p => beatsUsed p.1 p.2 d) with
    | [] => l.limit
    | n :: r => r.foldl min n)

/-- Does a launch fit its bound beside those admitted, with no more than 8 groups on a brick (R124)? -/
def launchFits (bs : List Nat) (limit devUs : Nat) (d : Dev) : Bool :=
  let g := largestG bs bs d
  decide (g ≤ 8) && decide (launchT limit g d ≤ devUs) &&
  d.bricks.launches.all (fun p =>
    !p.2.bricks.any (fun b => bs.contains b) ||
    decide (ceilDiv (clock (qDie p.2.q) d - p.2.since) 8 + launchT (beatsLeft p.1 p.2 d) (largestG p.2.bricks bs d) d ≤ p.2.devUs))

/-- The rotation slots that an instance's launches hold (R402). -/
def slotsHeld (n : Nat) (d : Dev) : Nat :=
  (d.bricks.launches.map (fun p => if p.2.inst = n then p.2.bricks.length else 0)).sum

/-- The most slots that SLICE_SHARE lets an instance hold (R402). -/
def slotsMost (n : Nat) (d : Dev) : Nat := 32 * getF .instShare n 0 24 16 d

/-! ## Slices (R126 to R128) -/

/-- By how much the boundaries of a brick's wave lie after those of wave 0 (R126), in ticks. -/
def waveShift (b : Nat) (d : Dev) : Nat := (2 * (b % 128 / 16) + b % 16 / 8) * usec d.bricks.sliceUs / 16

/-- The moment of a brick's next boundary after now (R126), in ticks. -/
def nextEdge (b : Nat) (d : Dev) : Nat :=
  let s := usec d.bricks.sliceUs
  (clock (b / 128) d + s - waveShift b d) / s * s + waveShift b d

/-- Does a boundary of a brick fall at this moment (R126)? -/
def onEdge (b : Nat) (d : Dev) : Bool :=
  decide (waveShift b d ≤ clock (b / 128) d) && decide ((clock (b / 128) d - waveShift b d) % usec d.bricks.sliceUs = 0)

/-- The slice of a brick on which a residue failure is resolved is over where a boundary fell meanwhile (R96). -/
def Brick.resolved (r : Brick) (now : Nat) : Brick :=
  { r with failing := none, late := r.late || (r.cur.isSome && decide (r.edge < now)) }

/-- The context after `k` in a rotation. -/
def nextIn (rot : List Nat) (k : Option Nat) : Option Nat :=
  match k with
  | none => rot.head?
  | some k =>
    match (rot.dropWhile (fun j => j != k)).drop 1 with
    | j :: _ => some j
    | [] => rot.head?

/-- Requests the grant of a brick for a context (R43, R127). -/
def requestSlice (b k : Nat) (d : Dev) : Dev :=
  match (ctxAt k d).bind (fun x => launchAt x.launch d) with
  | some l => wantGrant (.brick b) (brickCost l.act d) (some l.inst) d
  | none => d

/-- A boundary of a brick (R126, R127): it falls on the grid of its wave, or, where it fell between a failed check and what resolved it,
once that is resolved (R96). The grant returns, also one under which a context still comes in, which asks anew (R46); the same context goes on where the governor grants at once, else the brick switches.
`beats` are those used in the slice that ends. -/
def sliceBoundary (b beats : Nat) (d : Dev) : Dev :=
  let r := brickAt b d
  let now := clock (b / 128) d
  let falls := onEdge b d && decide (r.edge ≤ now)
  if r.failing.isSome then when_ (falls && r.cur.isSome) (updBrick b (fun r => { r with late := true })) d
  else if !falls && !r.late then d
  else
    let d0 := updBrick b (fun r => { r with edge := nextEdge b d, passed := 0, late := false, began := now }) d
    match r.coming with
    | some k => if holdsGrant (.brick b) d0 then requestSlice b k (returnGrant (.brick b) d0) else d0
    | none =>
      let d1 := match r.cur with
        | some k => returnGrant (.brick b) (updCtx k (fun x => { x with beats := (x.beats + beats) % 2 ^ 64 }) d0)
        | none => d0
      match nextIn r.rot r.cur with
      | none => d1
      | some k =>
        let d2 := requestSlice b k d1
        if r.cur = some k && holdsGrant (.brick b) d2 then d2
        else
          let d3 := match r.cur with
            | some j => leaveBrick j (correct (metScratch b 0 scratchSize) d2)
            | none => d2
          updBrick b (fun r => { r with coming := some k, since := clock (b / 128) d }) d3

/-- SLICE_BOUNDARY. -/
def execSliceBoundary (b beats : Nat) (s : State) : Host.Outcome State Fault Refusal :=
  .next { s with dev := if b < 1024 then sliceBoundary b beats s.dev else s.dev }

/-- Have all transfers of a context finished (R127)? -/
def BCtx.quiet (x : BCtx) : Bool := x.chans.all (fun c => c.2.tiles.isEmpty) && x.host.isEmpty

/-- The places where a die keeps saved contexts: the context store of its stack, and its transit slots (R127). -/
def inStore (die : Nat) (d : Dev) (p : Place) : Bool :=
  match p with
  | .dev a => (stackAt die d).store.contains (a / 2 ^ 26)
  | .basin x off => x == die && decide (285 * 2 ^ 18 ≤ off)
  | _ => false

/-- A poisoned codeword where a die keeps saved contexts: in its stack's context store or in the transit slots of its basin (R127,
R146). -/
def storePoison (die : Nat) (d : Dev) : Option Place :=
  d.tiers.poison.find? (inStore die d)

/-- A switch ends (R127, R128): the incoming context is on the brick under its grant. Whether a poisoned codeword of the
context store is one of its own is a free value, since the spec does not say where in the store a context lies; if it
is, the mover detects it (R150, R151) and the launch completes with INTERNAL (R146). A residue failure of the restored context waits for
its retry (R96). -/
def contextSwitchEnd (b : Nat) (d : Dev) : Dev :=
  let r := brickAt b d
  match r.coming with
  | none => d
  | some k =>
    match ctxAt k d with
    | none => d
    | some x =>
      if !holdsGrant (.brick b) d || !x.quiet then d
      else
        let hit := if (storePoison (b / 128) d).isSome then drawFree d else (0, d)
        let d1 := hit.2
        match (if hit.1 % 2 = 1 then storePoison (b / 128) d else none) with
        | some p => endLaunch x.launch 0xF (noteUe p 5 d1)
        | none =>
          let d2 := updBrick b (fun r => { r with cur := some k, coming := none, began := clock (b / 128) d })
            (updCtx k (fun x => { x with poison := [], recorded := [] }) (readsSome (inStore (b / 128) d1) d1))
          let others : Place → Bool := fun p => match p with
            | .scratch c _ => c != b
            | _ => true
          let d3 := { d2 with tiers := { d2.tiers with
            poison := d2.tiers.poison.filter others ++ x.poison.map (fun off => .scratch b off),
            logged := d2.tiers.logged.filter others ++ x.recorded.map (fun off => .scratch b off) } }
          let t := min 65535 (clock (b / 128) d - r.since)
          startOps k unitFuel (setF .switchStats (b / 128) 0 15 0 (max t (getF .switchStats (b / 128) 0 15 0 d3))
            (countF .switchStats (b / 128) 0 31 16 1 d3))

/-- CONTEXT_SWITCH_END. -/
def execContextSwitchEnd (b : Nat) (s : State) : Host.Outcome State Fault Refusal :=
  .next { s with dev := contextSwitchEnd b s.dev }

/-- A written SLICE_US takes effect where no launch is admitted (R129): the boundaries fall on the new grid. -/
def sliceUsTakes (d : Dev) : Dev :=
  if d.bricks.launches.isEmpty then
    { d with bricks := { d.bricks with
        sliceUs := max 500 (getF .brickSlice 0 0 15 0 d),
        bricks := Tab.mapVals d.bricks.bricks (fun _ r => { r with edge := 0 }) } }
  else d

/-- SLICE_US_TAKES_EFFECT. -/
def execSliceUsTakesEffect (s : State) : Host.Outcome State Fault Refusal :=
  .next { s with dev := sliceUsTakes s.dev }

/-! ## Ends (R125) -/

/-- A brick reaches its beat limit without END (R125). -/
def beatLimitReached (b : Nat) (d : Dev) : Dev :=
  match (brickAt b d).cur with
  | none => d
  | some k =>
    match (ctxAt k d).bind (fun x => launchAt x.launch d) with
    | none => d
    | some l =>
      if !holdsGrant (.brick b) d then d
      else
        brickFault k { cause := 8, pc := 0, word := 0, addr := 0, ch := noChan, own := 0 }
          (updCtx k (fun x => { x with beats := l.limit }) d)

/-- BEAT_LIMIT_REACHED. -/
def execBeatLimitReached (b : Nat) (s : State) : Host.Outcome State Fault Refusal :=
  .next { s with dev := beatLimitReached b s.dev }

/-- Has every brick of a launch ended, with every store tile visible (R125) and no HST still to go out (log entry 134)? -/
def launchEnded (id : Nat) (d : Dev) : Bool :=
  (mates id d).all (fun p => p.2.wait == .ended && p.2.storesSeen && !p.2.ops.any UOp.stores)

/-- A launch completes OK (R125); its entry follows a flush of its host writes (R384). -/
def launchComplete (id : Nat) (d : Dev) : Dev :=
  match launchAt id d with
  | none => d
  | some l =>
    if !launchEnded id d then d
    else
      okDesc l.q l.idx 0 0 (dropLaunch id d)

/-- LAUNCH_COMPLETE. -/
def execLaunchComplete (l : Nat) (s : State) : Host.Outcome State Fault Refusal :=
  .next { s with dev := launchComplete l s.dev }

/-! ## Residue failures and retirement (R92 to R96, R483, R484) -/

/-- A residue check fails on the context of a brick (R92), or on one that is being restored (R96): the block or instruction is discarded
and recomputed. -/
def residueFailure (b unit pair : Nat) (d : Dev) : Dev :=
  let r := brickAt b d
  if r.failing.isNone && ((r.cur.isSome && holdsGrant (.brick b) d) || r.coming.isSome) then
    updBrick b (fun r => { r with failing := some (unit, pair, false) }) d
  else d

/-- RESIDUE_FAILURE. -/
def execResidueFailure (b unit pair : Nat) (s : State) : Host.Outcome State Fault Refusal :=
  .next { s with dev := residueFailure b unit pair s.dev }

/-- A record about a brick (R438): die, course, position, logical brick, unit, format pair; then the outcome: 1 where the retry passes or the
spare serves, 2 where the brick or its spare is lost, since the spec gives the byte no values: DESIGN CHOICE (log entry 149). -/
def brickRecord (b unit pair cls ev outcome : Nat) (d : Dev) : Dev :=
  logEv (b / 128) cls 0x02 ev
    (bytesLE 1 (b / 128) ++ bytesLE 1 (b % 128 / 16) ++ bytesLE 1 (b % 16) ++ bytesLE 2 b ++ bytesLE 1 unit ++ bytesLE 1 pair ++
     bytesLE 1 outcome) d

/-- The course of a brick: die × 8 + course. -/
def courseOf (b : Nat) : Nat := b / 16

/-- Can the spare of a brick's course take its index: unused, not found bad, and not promised to another brick (R95, R96)? -/
def spareFree (b : Nat) (d : Dev) : Bool :=
  let c := courseOf b
  !Tab.has d.start.repair.spares c && !d.start.repair.badSpare.contains c &&
  !d.bricks.bricks.any (fun p => p.1 != b && courseOf p.1 == c && (match p.2.failing with
    | some (_, _, t) => t
    | none => false))

/-- The address and word of the instruction whose check failed (R109): the one in the matrix unit, or the latest vector instruction. -/
def BCtx.failed (x : BCtx) (unit : Nat) : Nat × Nat :=
  match (if unit = 0 then x.ops.find? (fun o => o.begun && o.kind == .matrix) else none) with
  | some o => (o.pc, o.word)
  | none => x.lastV

/-- An index is lost (R95, R483, R484): its launch and every other whose group includes it complete with RESIDUE, the brick
returns its grant and holds no rotation position. The context that failed faults first; in the others no instruction did. -/
def loseBrick (b unit pair : Nat) (d : Dev) : Dev :=
  let r := brickAt b d
  let d1 := setBit .residueEvents (b / 128) 0 0 (brickRecord b unit pair 2 3 2 d)
  let lost := d1.start.repair.lost
  let d2 := { d1 with start := { d1.start with repair := { d1.start.repair with
    lost := if lost.contains b then lost else lost ++ [b] } } }
  let fail := fun (k : Nat) (d : Dev) => match ctxAt k d with
    | some x =>
      let at_ := if r.cur = some k then x.failed unit else (0, 0)
      brickFault k { cause := 9, pc := at_.1, word := at_.2, addr := 0, ch := noChan, own := 0 } d
    | none => d
  let d3 := each (r.cur.toList ++ ((d2.bricks.ctxs.filter (fun p => p.2.brick == b)).map Prod.fst)) fail d2
  returnGrant (.brick b) (updBrick b (fun r => { r with rot := [], cur := none, coming := none, failing := none, late := false }) d3)

/-- The brick at a higher position of a brick's course for which retirement was decided at this very moment (R96). -/
def outranked (b : Nat) (d : Dev) : Option (Nat × Nat × Nat) :=
  d.bricks.bricks.findSome? (fun p => match p.2.failing with
    | some (u, f, true) =>
      if b < p.1 && courseOf p.1 == courseOf b && p.2.decided == clock (b / 128) d then some (p.1, u, f) else none
    | _ => none)

/-- Retirement is decided (R93, R95): the spare is the brick's, or that of a brick at a lower position decided at the same moment (R96).
The flag says that an index was lost. -/
def retireBrick (b unit pair : Nat) (d : Dev) : Dev × Bool :=
  let d1 := updBrick b (fun r => { r with failing := some (unit, pair, true), decided := clock (b / 128) d }) d
  if spareFree b d then (d1, false)
  else
    match outranked b d with
    | some (c, u, f) => (loseBrick c u f d1, true)
    | none => (loseBrick b unit pair d, true)

/-- A residue retry ends (R92, R93): passed, it is counted and recorded; the eighth of a slice, and a retry that fails,
retire the brick. The retry of a context that is being restored comes once the restore completes (R96). The flag says that an index was
lost. -/
def residueRetryEnd (b : Nat) (pass : Bool) (d : Dev) : Dev × Bool :=
  match (brickAt b d).failing, (brickAt b d).cur with
  | some (unit, pair, false), some k =>
    if pass then
      let n := (brickAt b d).passed + 1
      let d1 := brickRecord b unit pair 1 1 1 (countF .residueEvents (b / 128) 0 31 16 1
        (updBrick b (fun r => { r.resolved (clock (b / 128) d) with passed := n }) d))
      if n = 8 then retireBrick b unit pair d1 else (startOps k unitFuel d1, false)
    else retireBrick b unit pair d
  | _, _ => (d, false)

/-- RESIDUE_RETRY_END: a lost index goes to the repair record in flash. -/
def execResidueRetryEnd (b : Nat) (pass : Bool) (s : State) : Host.Outcome State Fault Refusal :=
  let r := residueRetryEnd b pass s.dev
  .next (if r.2 then programRepair { s with dev := r.1 } else { s with dev := r.1 })

/-- Has every transfer that was issued to scratch or from it completed (R93)? -/
def BCtx.landed (x : BCtx) : Bool := x.chans.all (fun c => c.2.tiles.all (fun t => t.landed))

/-- May a retirement complete? -/
def retireReady (b : Nat) (d : Dev) : Bool :=
  match (brickAt b d).failing with
  | some (_, _, true) => (((brickAt b d).cur.bind (fun k => ctxAt k d)).map BCtx.landed).getD true
  | _ => false

/-- A slice whose context was discarded during a retirement ends with it (R96, R395). -/
def endDiscarded (b : Nat) (d : Dev) : Dev :=
  match (brickAt b d).cur with
  | some k => if (ctxAt k d).isSome then d else returnGrant (.brick b) (updBrick b (fun r => { r with cur := none, late := false }) d)
  | none => d

/-- The spare serves the brick's index (R93, R94): context and grant stay under the index. Its record is of CLASS 2, error, as those of R437
that report a part out of service, with an outcome byte of 1: DESIGN CHOICE (log entry 149). -/
def retirementComplete (b : Nat) (d : Dev) : Dev :=
  match (brickAt b d).failing with
  | some (unit, pair, _) =>
    let d1 := updBrick b (fun r => { r.resolved (clock (b / 128) d) with passed := 0 }) d
    let d2 := { d1 with start := { d1.start with repair := { d1.start.repair with
      spares := Tab.set d1.start.repair.spares (courseOf b) (b % 16) } } }
    wakeUnits b (endDiscarded b <| brickRecord b unit pair 2 2 1 (countF .residueEvents (b / 128) 0 15 8 1 d2))
  | none => d

/-- RETIREMENT_COMPLETE. -/
def execRetirementComplete (b : Nat) (s : State) : Host.Outcome State Fault Refusal :=
  .next (if retireReady b s.dev then programRepair { s with dev := retirementComplete b s.dev } else s)

end Sys2Proof.Machine
end

