-- ==== Sys2Proof/Machine/Heads.lean ====
section
/-! DEFINITION. The descriptor at the head of a work queue: what it asks for, the status with which it completes at once
(R122, R123, R198 to R201, R207, R208, R240, R241, R267, R307, R308, R376, R377), and its device-side time (R491, R498). -/

namespace Sys2Proof.Machine

/-- Is a context gone: never created, destroyed, or being destroyed (R186)? -/
def ctxGone (ctx : Nat) (d : Dev) : Bool := !((Tab.get d.xl.ctxs ctx).map (fun c => !c.dying)).getD false

/-! ## Fragment tables (R207, R208) -/

/-- Reads a table of a descriptor before admission: no fault is raised for it (R208); its entries are accesses (R145, R191). -/
def readTable (ctx addr n : Nat) (e : Eng) (d : Dev) : Dev × Except Nat (List Byte) :=
  match mapRange ctx addr n .read e d with
  | .error (.uncorrectable a, _) => (noteUe (.dev a) 3 d, .error 0xF)
  | .error (r, _) => (d, .error (xStatus r))
  | .ok ps =>
    match readPieces d ps with
    | .ok l => (useRanges ctx [(addr, n)] .read e d, .ok l)
    | .error a => (noteUe (.dev a) 3 d, .error 0xF)

/-- The fragments of a table. -/
def tableFrags (l : List Byte) (n : Nat) : List (Nat × Nat) :=
  (List.range n).map (fun k => (fieldLE l (16 * k) 8, fieldLE l (16 * k + 8) 4))

/-- The length of joined fragments. -/
def fragsLen (l : List (Nat × Nat)) : Nat := (l.map Prod.snd).sum

/-- Does a table keep the limits of R207? -/
def tableOkay (l : List Byte) (n limit : Nat) : Bool :=
  (List.range n).all (fun k => decide (fieldLE l (16 * k) 8 < 2 ^ 56) && decide (256 ≤ fieldLE l (16 * k + 8) 4) &&
    zeroIn l (16 * k + 12) (16 * k + 15)) && decide (fragsLen (tableFrags l n) ≤ limit)

/-- The local buffer of a descriptor whose length lies in bytes 4 to 7 and its address in bytes 8 to 15: the fragment table,
or the status. A table that was read is not read again (R208): `old` is what the head keeps of it. -/
def bufferTable (ctx : Nat) (e : Eng) (l old : List Byte) (limit : Nat) (d : Dev) : Dev × Except Nat (List Byte) :=
  let n := fieldLE l 4 4
  let a := fieldLE l 8 8
  if bitOf (l.getD 1 0).toNat 1 then
    if a % 16 ≠ 0 || n = 0 || 256 < n then (d, .error 6)
    else if ctxGone ctx d then (d, .error 3)
    else if old.length = 16 * n then (d, .ok old)
    else
      let r := readTable ctx a (16 * n) e d
      match r.2 with
      | .error st => (r.1, .error st)
      | .ok t => (r.1, if tableOkay t n limit then .ok t else .error 6)
  else (d, if n = 0 || limit < n then .error 6 else .ok [])

/-- The ranges of the local buffer. -/
def bufferFrags (l table : List Byte) : List (Nat × Nat) :=
  if bitOf (l.getD 1 0).toNat 1 then tableFrags table (fieldLE l 4 4) else [(fieldLE l 8 8, fieldLE l 4 4)]

/-- The range of the fragment table itself. -/
def bufferTableRange (l : List Byte) : List (Nat × Nat) :=
  if bitOf (l.getD 1 0).toNat 1 then [(fieldLE l 8 8, 16 * fieldLE l 4 4)] else []

/-- Bytes that every layout keeps zero: 48 to 62, bits 6:0 of byte 63, and the counter fields where COUNT is 0 (R196). -/
def tailOk (l : List Byte) : Bool :=
  countFieldsOk l && zeroIn l 48 62 && decide ((l.getD 63 0).toNat % 128 = 0)

/-- Does a head name a context that is gone (R186)? -/
def headCtxGone (w : WQ) (h : Head) (d : Dev) : Bool :=
  let op := h.opcode
  if op = 0x40 then ctxGone (fieldLE h.bytes 36 2) d
  else if h.tile.isNone && h.bad.isNone && ((0x10 ≤ op ∧ op ≤ 0x12) ∨ (0x20 ≤ op ∧ op ≤ 0x25) ∨ op = 0x30 ∨ op = 0x31) then ctxGone w.ctx d
  else false

/-! ## What a head asks for -/

/-- What a remote descriptor, or a remote tile, asks for (R116, R240). -/
structure RAsk where
  op    : Nat
  len   : Nat
  off   : Nat
  key   : Nat
  node  : Nat
  imm   : Nat
  flag  : Bool
  fence : Bool
  ctx   : Nat
  frags : List (Nat × Nat)
  table : List (Nat × Nat)
  bytes : List Byte
  deriving DecidableEq, Repr

/-- The remote operation of a head. -/
def remoteAsk (w : WQ) (h : Head) : RAsk :=
  match h.tile with
  | some t =>
    { op := h.opcode, len := t.len, off := t.offset, key := t.key, node := t.node, imm := t.imm.getD 0,
      flag := t.imm.isSome, fence := false, ctx := 0xFFFF, frags := [],
      table := [], bytes := if t.load then List.replicate t.len 0 else t.data }
  | none =>
    let l := h.bytes
    let fl := (l.getD 1 0).toNat
    { op := h.opcode, len := fragsLen (bufferFrags l h.table), off := fieldLE l 16 8, key := fieldLE l 24 4, node := fieldLE l 28 3,
      imm := if h.opcode = 0x11 then fieldLE l 32 4 else if bitOf fl 2 then 1 else 0,
      flag := h.opcode = 0x11 || (h.opcode = 0x10 && bitOf fl 2), fence := bitOf fl 3, ctx := w.ctx, frags := bufferFrags l h.table,
      table := bufferTableRange l, bytes := [] }

/-- The transport engine of a queue (R164, R269). -/
def queueEng (q : Nat) : Eng := .pesyn (q % 2) (q / 2 % 16)

/-! ## Statuses at once -/

/-- The layout of a remote descriptor (R196, R240). -/
def remoteStatic (l : List Byte) : Bool :=
  let op := (l.getD 0 0).toNat
  let fl := (l.getD 1 0).toNat
  decide (0x10 ≤ op ∧ op ≤ 0x12) && decide (fl < 16) && (op == 0x10 || !bitOf fl 2) && zeroIn l 2 3 && zeroIn l 15 15 &&
  zeroIn l 21 23 && zeroIn l 31 31 && (op == 0x11 || zeroIn l 32 35) && zeroIn l 36 39 && tailOk l

/-- The longest message of a domain (R241). -/
def remoteCap (w : WQ) (d : Dev) : Nat := if (domKeys w.domain d).2 ≠ 0xFFFF then 2 ^ 24 else 2 ^ 26

/-- Limits that R241 and R267 check on length, offset and domain. -/
def remoteLimits (w : WQ) (len off : Nat) (d : Dev) : Except Nat Unit :=
  if len = 0 || remoteCap w d < len || 2 ^ 40 < off + len then .error 6
  else if w.domain = 0xFFFF || !Tab.has d.rem.doms w.domain || !nodeValid d.addr.node then .error 3
  else .ok ()

/-- The status at once of a remote head, or its fragment table (R198, R208, R241, R267). -/
def remoteStatus (q : Nat) (w : WQ) (h : Head) (d : Dev) : Dev × Except Nat (List Byte) :=
  match h.tile with
  | some t => (d, (remoteLimits w t.len t.offset d).map (fun _ => []))
  | none =>
    if !remoteStatic h.bytes then (d, .error 6)
    else
      let r := bufferTable w.ctx (queueEng q) h.bytes h.table (2 ^ 26) d
      match r.2 with
      | .error st => (r.1, .error st)
      | .ok t => (r.1, (remoteLimits w (fragsLen (bufferFrags h.bytes t)) (fieldLE h.bytes 16 8) d).map (fun _ => t))

/-- The status at once of a host DMA head (R377). -/
def dmaStatus (q : Nat) (w : WQ) (h : Head) (d : Dev) : Dev × Except Nat (List Byte) :=
  let l := h.bytes
  if !(decide ((l.getD 1 0).toNat < 4) && zeroIn l 2 3 && zeroIn l 15 15 && zeroIn l 24 39 && tailOk l) then (d, .error 6)
  else
    let r := bufferTable w.ctx (queueEng q) l h.table (2 ^ 26) d
    match r.2 with
    | .error st => (r.1, .error st)
    | .ok t =>
      (r.1, if 2 ^ 64 < fieldLE l 16 8 + fragsLen (bufferFrags l t) then .error 6
        else if !hostOpen d then .error 0xC else .ok t)

/-- The status at once of a collective head, or its exchange table (R267, R304 to R308). -/
def collStatus (q : Nat) (w : WQ) (h : Head) (d : Dev) : Dev × Except Nat (List Byte) :=
  let l := h.bytes
  if !collStatic l then (d, .error 6)
  else
    match commAt (fieldLE l 2 2) d with
    | none => (d, .error 3)
    | some x =>
      if x.inst ≠ w.inst || !nodeValid d.addr.node then (d, .error 3)
      else
        let v := fieldLE l 28 8
        let r : Dev × Except Nat (List Byte) :=
          if h.opcode ≠ 0x24 then (d, .ok [])
          else if !segsCover w.ctx .read [(v, 32 * x.n)] d then (d, .error 3)
          else if h.table.length = 32 * x.n then (d, .ok h.table)
          else readTable w.ctx v (32 * x.n) (.coll (homeDie (fieldLE l 2 2)) 0) d
        match r.2 with
        | .error st => (r.1, .error st)
        | .ok t =>
          let k := mkColl q h.idx w l t x
          let sp := k.spans x
          (r.1, if !collSizes k x t then .error 6
            else if !segsCover w.ctx .read sp.1 d || !segsCover w.ctx .write sp.2 d then .error 3
            else if x.broken || (collReduces k.op && ((lanesAt 0 d).available == 0 || (lanesAt 1 d).available == 0)) then .error 0xE
            else .ok t)

/-- The bricks of a launch (R122): indices of the instance's allocation. -/
def launchBricks (w : WQ) (l : List Byte) (d : Dev) : List Nat :=
  ((instAt w.inst d).bricks.drop (fieldLE l 2 2)).take (fieldLE l 4 2)

/-- The DEVICE_US of a queue's class (R58). -/
def devUsOf (w : WQ) (d : Dev) : Nat := max 1 (getF .boundDevice w.cls 0 19 0 d)

/-- The status at once of a LAUNCH head (R122 to R124, R402, R461, R484). -/
def launchStatus (w : WQ) (h : Head) (d : Dev) : Except Nat (List Byte) :=
  let l := h.bytes
  let bs := launchBricks w l d
  let rq := fieldLE l 38 2
  if !(decide ((l.getD 1 0).toNat < 2) && decide ((l.getD 6 0).toNat ≤ 2) && zeroIn l 7 7 && zeroIn l 15 15 && zeroIn l 31 31 &&
       decide (fieldLE l 8 8 % 64 = 0) && decide (fieldLE l 24 8 % 64 = 0) && decide (fieldLE l 32 4 ≠ 0) && tailOk l &&
       decide (1 ≤ fieldLE l 4 2 ∧ fieldLE l 4 2 ≤ 1024 ∧ bs.length = fieldLE l 4 2)) then .error 6
  else if !((Tab.get d.xl.ctxs (fieldLE l 36 2)).map (fun c => c.inst == w.inst && !c.dying)).getD false ||
      !(rq == 0xFFFF || ((wqAt rq d).map (fun r => r.inst == w.inst && r.feed == 2)).getD false) then .error 3
  else if bs.any (fun b => d.start.repair.lost.contains b) then .error 0xA
  else if slotsMost w.inst d < bs.length || !(d.upd.heldTo.map (fun sh => bs.all (Tab.getD sh.allocs w.inst []).contains)).getD true then
    .error 0xE
  else .ok []

/-- The status at once of a head: none where it goes to admission, with the table that it read (R198 to R201, R217). -/
def headStatus (q : Nat) (w : WQ) (h : Head) (d : Dev) : Dev × Except Nat (List Byte) :=
  let l := h.bytes
  let fl := (l.getD 1 0).toNat
  let op := h.opcode
  let r : Dev × Except Nat (List Byte) :=
    if op = 0 then (d, if decide (fl < 2) && zeroIn l 2 39 && tailOk l then .ok [] else .error 6)
    else if op = 1 then
      (d, if !(decide (fl < 2) && zeroIn l 2 7 && zeroIn l 12 15 && zeroIn l 22 39 && tailOk l) then .error 6
        else if counterOwner (fieldLE l 8 4) d = some w.inst then .ok [] else .error 3)
    else if op = 2 then (d, if decide (fl = 1) && zeroIn l 2 39 && tailOk l then .ok [] else .error 6)
    else if 0x10 ≤ op ∧ op ≤ 0x12 then remoteStatus q w h d
    else if 0x20 ≤ op ∧ op ≤ 0x26 then collStatus q w h d
    else if op = 0x30 ∨ op = 0x31 then dmaStatus q w h d
    else if op = 0x40 then (d, launchStatus w h d)
    else (d, .error 6)
  let o : Except Nat (List Byte) := match r.2 with
    | .ok t => if headCtxGone w h d then .error 3 else .ok t
    | x => x
  match o, countOf l with
  | .ok t, some c => (r.1, if h.tile.isSome || counterOwner c.1 d = some w.inst then .ok t else .error 3)
  | x, _ => (r.1, x)

/-! ## Device-side time of a head (R497, R498) -/

/-- A head's load comes after those admitted: its age is 0. -/
def headLoadBlank (q : Nat) (w : WQ) (h : Head) (d : Dev) : Load :=
  Load.blank q h.idx 0 (devUsOf w d) (leafOf w.leaf w.inst d)

/-- The load of a remote operation under the tag that its sequence gives it. -/
def remoteLoad (q : Nat) (w : WQ) (h : Head) (tag : Nat) (d : Dev) : Load :=
  let a := remoteAsk w h
  let i := q % 2
  let b := headLoadBlank q w h d
  let loc := decide (a.node = d.addr.node)
  let read := decide (a.op = 0x12)
  let x := termX (touched a.ctx (a.frags ++ a.table) (queueEng q) d)
  let fl := floorBytes i ((touched a.ctx a.frags (queueEng q) d).filterMap Prod.snd) []
  let turns := (if loc then 0 else grantTurns i a.len d) + (if a.flag && !loc then 1 else 0)
  let port := takePort i tag d
  { b with
    kind := if read then 1 else if loc then 2 else 0, bytes := a.len, floors := fl, fixed := 25 + x + turns * turnUs d,
    ports := (match port with
      | some p => if loc || read then [] else [(p, charge a.len d)]
      | none => []),
    noPort := !loc && port.isNone }

/-- The load of a host DMA descriptor. -/
def dmaLoad (q : Nat) (w : WQ) (h : Head) (d : Dev) : Load :=
  let fr := bufferFrags h.bytes h.table
  let x := termX (touched w.ctx (fr ++ bufferTableRange h.bytes) (queueEng q) d)
  { headLoadBlank q w h d with
    kind := 3, bytes := fragsLen fr, fixed := 25 + x + (if h.opcode = 0x30 then 1 else 2) * hostUs d + 1000,
    floors := addTo (floorBytes (q % 2) ((touched w.ctx fr (queueEng q) d).filterMap Prod.snd) []) (100 + q % 2) (fragsLen fr) }

/-- The largest remaining D of the earlier writes on a flag write's path (R498): what is left, counted from its own admission, of the D
that each was admitted with. DEDUCED (log entry 48). -/
def earlierD (q node : Nat) (w : WQ) (d : Dev) : Nat :=
  let mine := w.flight.filter (fun x => x.done.isNone && decide (x.op = 0x10 ∨ x.op = 0x11) &&
    (msgsOf q x.idx d).any (fun m => m.2.node == node))
  (mine.map (fun x => x.dUs - ceilDiv (clock (x.die q) d - x.since) 8)).foldl max 0

/-- The contributions of a collective with the tags of their sequences (R497). -/
def taggedPieces (x : Comm) (k : Coll) (d : Dev) : List (Piece × Nat) :=
  (contribsAll x k d).map (fun p => (p, mkTag d.addr.node (Tab.getD k.seqs (pieceKey p.rank p.off) 0)))

/-- The sequences of a head's collective under their contributions. -/
def keyedSeqs (x : Comm) (k : Coll) (seqs : List Nat) (d : Dev) : Tab Nat :=
  (((contribsAll x k d).map (fun p => pieceKey p.rank p.off)).zip seqs).foldl (fun t p => Tab.set t p.1 p.2) []

/-- The collective that a head asks for, with its sequences. -/
def headColl (q : Nat) (w : WQ) (h : Head) (d : Dev) : Option (Nat × Comm × Coll) :=
  let c := fieldLE h.bytes 2 2
  (commAt c d).map (fun x =>
    let k := mkColl q h.idx w h.bytes h.table x
    (c, x, { k with seqs := keyedSeqs x k h.seqs d }))

/-- The load of a head, with the time that D adds to D_min beyond sharing; none where it takes no bound time or is a
launch. -/
def headLoad (q : Nat) (w : WQ) (h : Head) (d : Dev) : Option (Load × Nat) :=
  let op := h.opcode
  if 0x10 ≤ op ∧ op ≤ 0x12 then
    let a := remoteAsk w h
    some (remoteLoad q w h (mkTag d.addr.node (h.seqs.headD 0)) d, if a.flag then earlierD q a.node w d else 0)
  else if 0x20 ≤ op ∧ op ≤ 0x26 then
    (headColl q w h d).map (fun c => (collLoad c.2.1 c.2.2 w 0 (devUsOf w d) (taggedPieces c.2.1 c.2.2 d) d, 0))
  else if op = 0x30 ∨ op = 0x31 then some (dmaLoad q w h d, 0)
  else none

/-- D_min of a head where it exceeds DEVICE_US (R61, R124, R491); that of host DMA waits for the width after a retrain (R389). -/
def overBound (q : Nat) (w : WQ) (h : Head) (d : Dev) : Option Nat :=
  let beyond : Nat → Option Nat := fun t => if devUsOf w d < t then some t else none
  if h.opcode = 0x40 then beyond (launchT (fieldLE h.bytes 32 4) 1 d)
  else if (h.opcode = 0x30 ∨ h.opcode = 0x31) ∧ d.link.retrain = true then none
  else
    match headLoad q w h d with
    | some (x, _) => if x.noPort then none else beyond (x.alone d)
    | none => none

/-- Does the bound-class check of R57 hold for a head (R491)? -/
def boundOk (q : Nat) (w : WQ) (h : Head) (d : Dev) : Bool :=
  if h.opcode = 0x40 then launchFits (launchBricks w h.bytes d) (fieldLE h.bytes 32 4) (devUsOf w d) d
  else
    match headLoad q w h d with
    | some (x, more) => fitsBound { x with fixed := x.fixed + more } d
    | none => true

/-- D of a head at this moment (R491). -/
def headD (q : Nat) (w : WQ) (h : Head) (d : Dev) : Nat :=
  match headLoad q w h d with
  | some (x, more) => { x with fixed := x.fixed + more }.time (loads d) d
  | none => 0

/-- Is a head a remote operation to the module's own node, whose residence is zero (R242)? The send window of its message is that of R282 with
the declared R: DEDUCED (log entry 154). -/
def staysHere (w : WQ) (h : Head) (d : Dev) : Bool :=
  decide (0x10 ≤ h.opcode ∧ h.opcode ≤ 0x12) && (remoteAsk w h).node == d.addr.node

/-- The end-to-end bound E of a descriptor admitted now (R59), in periods. -/
def boundE (w : WQ) (h : Head) (d : Dev) : Nat :=
  usec (devUsOf w d) + (if staysHere w h d then 0 else 2 * min (usec (getF .boundResidence w.cls 0 15 0 d)) (residence d))

/-- The moment at which E of a descriptor that a die admits now passes (R64). -/
def expiryOf (die : Nat) (w : WQ) (h : Head) (d : Dev) : Nat := clock die d + boundE w h d

end Sys2Proof.Machine
end

