-- ==== Sys2Proof/Machine/Queues.lean ====
section
/-! DEFINITION. Admission (R56 to R66, R200, R201, R211, R212, R276, R279, R311, R312, R491, R538), the descriptors of a work
queue as commands, and the doorbells (R18, R19, R204, R205, R213). -/

namespace Sys2Proof.Machine

/-! ## The READ of an admitted descriptor (R247, R279) -/

/-- Address ranges as ranges of logical device addresses, or the first outcome that is no mapping of device memory. -/
def mapLda (ctx : Nat) (k : Kind) (e : Eng) (d : Dev) : List (Nat × Nat) → Except (XRes × Nat) (List (Nat × Nat))
  | [] => .ok []
  | (va, n) :: r =>
    match translate ctx va k e d with
    | .frame lfn off _ _ _ _ => (mapLda ctx k e d r).map (fun l => (lfn * 2 ^ 26 + off, n) :: l)
    | .host _ _ _ _ => .error (.access, va)
    | x => .error (x, va)

/-- Sends the REQUEST of a READ and starts its slot: moments A and W (R279). -/
def requestRead (i seq : Nat) (d : Dev) : Dev :=
  match msgAt i seq d with
  | none => d
  | some m =>
    let first := min m.len (chunkC i d)
    sendRequest i seq false (updSlot i m.tag (fun s => { s with
      at0 := some (clock (fdie i) d), res := residence d, last := clock (fdie i) d, grantOff := 0, grantLen := first, chunkGot := 0 }) d)

/-- A READ's descriptor holds the translations of its destination until its entry is written (R247). -/
def holdPins (o : MsgOwner) (l : List (Nat × Nat)) (d : Dev) : Dev :=
  match o with
  | .desc q idx => updWq q (fun w => { w with flight := w.flight.map (fun x => if x.idx = idx then { x with pins := l } else x) }) d
  | _ => d

/-- A READ translates its destination, in increasing address order, and sends its REQUEST; where a page is not mapped it waits on a fault
(R247). -/
def beginRead (i seq : Nat) (d : Dev) : Dev :=
  match msgAt i seq d with
  | none => d
  | some m =>
    if !m.isRead || m.begun || inFault m.waiter d then d
    else if m.ctx = 0xFFFF then requestRead i seq d
    else
      let cut := m.frags.flatMap (fun f => cutFrames (f.2 / 2 ^ 26 + 2) f.1 f.2)
      match (mapLda m.ctx .write (.pesyn i m.engine) d (cut.mergeSort (fun a b => decide (a.1 ≤ b.1)))).bind
        (fun _ => mapLda m.ctx .write (.pesyn i m.engine) d cut) with
      | .ok l => requestRead i seq (holdPins m.owner l (updMsg i seq (fun m => { m with frags := l })
          (fillRanges m.ctx m.frags .write (.pesyn i m.engine) d)))
      | .error (.notMapped lv, va) =>
        (match raiseFault m.ctx va lv .write (.pesyn i m.engine) m.waiter d with
         | .ok d1 => d1
         | .error d1 => failMsg i seq 8 2 d1)
      | .error (.uncorrectable a, _) => failMsg i seq 0xF 2 (noteUe (.dev a) 3 d)
      | .error (r, _) => failMsg i seq (xStatus r) 2 d

/-! ## Heads -/

/-- A queue and its head, where the head holds its completion slot. -/
def slottedHead (q : Nat) (d : Dev) : Option (WQ × Head) :=
  (wqAt q d).bind (fun w => w.head.bind (fun h => if h.slot.isSome then some (w, h) else none))

/-- DETAIL of a head that completes at once with a status of its own (R248, R328). -/
def headDetail (w : WQ) (h : Head) (d : Dev) : Nat :=
  let op := h.opcode
  if h.bad.isSome then 0
  else if (0x10 ≤ op ∧ op ≤ 0x1F) ∨ (0x30 ≤ op ∧ op ≤ 0x3F) then originDetail 0 1
  else if 0x20 ≤ op ∧ op ≤ 0x26 then
    (match commAt (fieldLE h.bytes 2 2) d with
     | some x => if x.inst = w.inst then x.rank else 0
     | none => 0)
  else 0

/-- The head completes at once with a status. -/
def headDone (q status : Nat) (d : Dev) : Dev :=
  match slottedHead q d with
  | some (w, h) => completeHead q status 0 0 (headDetail w h d) d
  | none => d

/-- The communicator whose COLL_SEQ a head holds (R538). -/
def turnOf (q : Nat) (h : Head) (d : Dev) : Option Nat :=
  let c := fieldLE h.bytes 2 2
  match (commAt c d).bind Comm.coll with
  | some k => if h.tile.isNone && (0x20 ≤ h.opcode ∧ h.opcode ≤ 0x26) && k.q = q && k.idx = h.idx && !k.admitted then some c else none
  | none => none

/-- A head in a queue in ERROR is flushed, and what it sent stops (R252). -/
def flushHead (q : Nat) (d : Dev) : Dev :=
  match slottedHead q d with
  | none => d
  | some (w, h) =>
    match turnOf q h d with
    | some c => endPart c 1 (((commAt c d).map Comm.rank).getD 0) false d
    | none =>
      let d1 := endMsgs (fun m => decide (m.owner = .desc q h.idx) && !m.admitted) d
      let det := if 0x20 ≤ h.opcode ∧ h.opcode ≤ 0x26 then headDetail w h d else originDetail w.firstErr 5
      completeHead q 1 0 0 det d1

/-- An entry that could not be read completes, and its queue enters ERROR (R536). -/
def unreadableHead (q status : Nat) (d : Dev) : Dev :=
  match slottedHead q d with
  | none => d
  | some (_, h) =>
    let d1 := headDone q status d
    when_ (decide (((wqAt q d1).map WQ.state) = some 0)) (enterError q h.idx ((((wqAt q d1).map (fun w => w.firstOf h.idx))).getD 0)) d1

/-- The message of a head that was not admitted: its die, sequence and itself. -/
def headMsg (q : Nat) (h : Head) (d : Dev) : Option (Nat × Msg) :=
  match h.seqs with
  | [s] => (msgAt (q % 2) s d).bind (fun m => if m.owner = .desc q h.idx && !m.admitted then some (s, m) else none)
  | _ => none

/-- The port that a message took stays its port for its CANCELs (R355). -/
def keepPort (i tag : Nat) (before d : Dev) : Dev :=
  match Tab.get before.net.portOf (portKey i tag) with
  | some p => { d with net := { d.net with portOf := Tab.set d.net.portOf (portKey i tag) p } }
  | none => d

/-- A head that waits is completed with a status (R62, R186): a scheduled message sends one CANCEL (R276), and a collective ends
its part (R331). -/
def refuseNow (q status : Nat) (d : Dev) : Dev :=
  match slottedHead q d with
  | none => d
  | some (_, h) =>
    match turnOf q h d with
    | some c => endPart c status (((commAt c d).map Comm.rank).getD 0) false d
    | none =>
      match headMsg q h d with
      | some (s, m) =>
        let i := q % 2
        let d1 := endMsg i s d
        headDone q status (if m.begun then
            updPes i (fun p => { p with refused := Tab.set p.refused s m.cipher })
              (sendMsgPacket i m 8 false (List.replicate 16 0) [] (keepPort i m.tag d d1)).1
          else d1)
      | none => headDone q status d

/-! ## Sequences and messages (R497) -/

/-- A die that each first-epoch contribution of a collective uses, in order. -/
def collDies (x : Comm) (k : Coll) (d : Dev) : List Nat := (contribsAll x k d).map (fun p => contribDie x k p.off d)

/-- The head first holds its slot: its messages take their sequences (R497), and its table is kept. -/
def headFirst (q : Nat) (table : List Byte) (d : Dev) : Dev :=
  match slottedHead q d with
  | none => d
  | some (w, h0) =>
    let h := { h0 with table := table, judged := true }
    let dies := if 0x10 ≤ h.opcode ∧ h.opcode ≤ 0x12 then [q % 2]
      else if 0x20 ≤ h.opcode ∧ h.opcode ≤ 0x26 then
        (match headColl q w h d with
         | some (_, x, k) => collDies x k d
         | none => [])
      else []
    let r := dies.foldl (fun (acc : List Nat × Dev) i => let s := takeSeq i acc.2
      (acc.1 ++ [s.1], s.2)) ([], d)
    updWq q (fun w => { w with head := some { h with seqs := r.1 } }) r.2

/-- The message of a remote head (R240, R264, R292). -/
def headMessage (q : Nat) (w : WQ) (h : Head) (d : Dev) : Msg :=
  let a := remoteAsk w h
  let ks := domKeys w.domain d
  { owner := .desc q h.idx, inst := w.inst, gen := (instAt w.inst d).gen, ctx := a.ctx, leaf := leafOf w.leaf w.inst d, typ := 1,
    op := a.op, node := a.node, tag := mkTag d.addr.node (h.seqs.headD 0), ftag := ks.1, key := a.key, len := a.len, off := a.off,
    imm := a.imm, cipher := ks.2, coll := [], frags := a.frags, bytes := a.bytes, state := .awaiting, admitted := true,
    begun := false, wAt := none, answerAt := clock (qDie q) d, interval := rto d, timerAt := clock (qDie q) d, busy := 0, lastBusy := false,
    backAt := none, granted := 0, sentTo := 0, leaves := [], res := residence d }

/-- The port that the admitting decision used is the message's (R497), until it is sent only while the same ports qualify (R355). -/
def pinPort (i tag : Nat) (d : Dev) : Dev :=
  if Tab.has d.net.portOf (portKey i tag) then d
  else
    match takePort i tag d with
    | some p => { d with net := { d.net with
        portOf := Tab.set d.net.portOf (portKey i tag) p, pins := Tab.set d.net.pins (portKey i tag) (qualifying i d) } }
    | none => d

/-! ## Admission by kind -/

/-- What every head checks but its own resources: R212, and the bound class (R57, R491). -/
def commonOk (q : Nat) (w : WQ) (h : Head) (d : Dev) : Bool :=
  w.flight.all (fun x => x.done.isSome || decide (x.left q d ≤ boundE w h d)) && boundOk q w h d

/-- Current for the units of a head (R57): all are granted at one moment, or else those that do not fit wait for their grants and
the others are not taken. DESIGN CHOICE (log entry 46). -/
def current (us : List (UnitId × Nat)) (d : Dev) : Dev × Bool :=
  let want := fun (l : List (UnitId × Nat)) (d : Dev) => each l (fun u d => wantGrant u.1 u.2 none d) d
  let d1 := want us d
  if us.all (fun u => holdsGrant u.1 d1) then (d1, true) else (want (us.filter (fun u => !holdsGrant u.1 d1)) d, false)

/-- Current for a head (R57): for its units, and for the DDR5 channels that its local buffers and tables use (R45); the head keeps which
channels it asked for. -/
def currentFor (q : Nat) (us : List (UnitId × Nat)) (l : List ((Nat × Nat) × Option (Nat × Nat))) (d : Dev) : Dev × Bool :=
  let cs := (((l.filterMap (fun p => p.2.map (fun a => a.1 / 2 ^ 26))).filter (fun p => decide (16384 ≤ p))).map siteOf).eraseDups
  current (us ++ cs.map (fun k => (UnitId.ddr5 k, d.upd.costs.ddr5)))
    (if cs.isEmpty then d else updWq q (fun w => { w with head := w.head.map (fun h => { h with chans := cs }) }) d)

/-- What the local buffers and tables of a remote operation use. -/
def remoteTouched (q : Nat) (w : WQ) (h : Head) (d : Dev) : List ((Nat × Nat) × Option (Nat × Nat)) :=
  let a := remoteAsk w h
  touched a.ctx (a.frags ++ a.table) (queueEng q) d

/-- A descriptor that takes no bound time is admitted and completes OK at once (R199 to R201). -/
def admitPlain (q : Nat) (w : WQ) (h : Head) (d : Dev) : Dev :=
  okDesc q h.idx 0 0 (admitHead q (expiryOf (h.die q) w h d) (devUsOf w d) d)

/-- The units of a remote operation: its transport engine, and the die's cipher engine where its domain has a slot (R45). -/
def remoteUnits (q : Nat) (w : WQ) (d : Dev) : List (UnitId × Nat) :=
  (UnitId.pesyn (q % 2) (q / 2 % 16), d.upd.costs.pesyn) :: (if (domKeys w.domain d).2 ≠ 0xFFFF then [(UnitId.cipher (q % 2), d.upd.costs.cipher)] else [])

/-- Has every earlier descriptor of a queue completed (R201, R250)? -/
def earlierDone (w : WQ) : Bool := w.flight.isEmpty

/-- A remote write is admitted, and the D that it is admitted with is kept (R498). -/
def admitWrite (q : Nat) (w : WQ) (h : Head) (d : Dev) : Dev :=
  updWq q (fun x => { x with flight := x.flight.map (fun y => if y.idx = h.idx && y.done.isNone then { y with dUs := headD q w h d } else y) })
    (admitHead q (expiryOf (h.die q) w h d) (devUsOf w d) d)

/-- A WRITE or WRITE_IMM of up to 65,536 bytes (R274). -/
def decideUnsched (q : Nat) (w : WQ) (h : Head) (d : Dev) : Dev :=
  let a := remoteAsk w h
  let i := q % 2
  if (decide (outstanding q d + a.len ≤ w.win) || decide (outstanding q d = 0)) && (!a.fence || earlierDone w) && commonOk q w h d then
    let g := currentFor q (remoteUnits q w d) (remoteTouched q w h d) d
    if g.2 then
      let m := headMessage q w h g.1
      startMsg i (tagSeq m.tag) (addMsg i m (pinPort i m.tag (admitWrite q w h g.1)))
    else g.1
  else d

/-- A WRITE or WRITE_IMM above 65,536 bytes (R276): its REQUEST goes out from the head, and its first GRANT is its receiver
grant. -/
def decideSched (q : Nat) (w : WQ) (h : Head) (d : Dev) : Dev :=
  let i := q % 2
  match headMsg q h d with
  | none =>
    let m := { headMessage q w h d with admitted := false, state := .requesting }
    startMsg i (tagSeq m.tag) (addMsg i m d)
  | some (s, m) =>
    if m.state = .requesting || m.granted = 0 || m.backAt.isSome then d
    else if (!(remoteAsk w h).fence || earlierDone w) && commonOk q w h d then
      let g := currentFor q (remoteUnits q w d) (remoteTouched q w h d) d
      if g.2 then
        pump i s (updMsg i s (fun m => { m with admitted := true }) (pinPort i m.tag (admitWrite q w h g.1)))
      else g.1
    else d

/-- Is a slot free for a local READ (R270)? -/
def readSlotFree (i : Nat) (d : Dev) : Bool :=
  slotFree i d && decide (Tab.count (pesAt i d).slots (fun _ s => s.read.isSome) < getF .pesynLocalMax i 0 16 0 d)

/-- A READ (R247, R279): it is admitted with a local slot. -/
def decideRead (q : Nat) (w : WQ) (h : Head) (d : Dev) : Dev :=
  let i := q % 2
  if readSlotFree i d && (!(remoteAsk w h).fence || earlierDone w) && commonOk q w h d then
    let g := currentFor q (remoteUnits q w d) (remoteTouched q w h d) d
    if g.2 then
      let m := headMessage q w h g.1
      let s := { freshSlot (m.packet i 2 false [] [] d) w.inst (clock (fdie i) d) (residence d) none none none with read := some (q, h.idx) }
      let d1 := addMsg i m (pinPort i m.tag (admitHead q (expiryOf (h.die q) w h d) (devUsOf w d) g.1))
      beginRead i (tagSeq m.tag) (updPes i (fun p => { p with slots := Tab.set p.slots m.tag s }) d1)
    else g.1
  else d

/-- A host DMA descriptor (R377, R378); its admission uses the width that the link has after a retrain (R389). -/
def decideDma (q : Nat) (w : WQ) (h : Head) (d : Dev) : Dev :=
  if !d.link.retrain && commonOk q w h d then
    let fr := bufferFrags h.bytes h.table
    let g := currentFor q [(.hostDma (q % 2), d.upd.costs.hostDma)] (touched w.ctx (fr ++ bufferTableRange h.bytes) (queueEng q) d) d
    if g.2 then
      startDma q h.idx (decide (h.opcode = 0x30)) w.inst w.ctx (fieldLE h.bytes 16 8) fr (fragsLen fr)
        (admitHead q (expiryOf (h.die q) w h d) (devUsOf w d) g.1)
    else g.1
  else d

/-- A LAUNCH (R122 to R124, R402). -/
def decideLaunch (q : Nat) (w : WQ) (h : Head) (d : Dev) : Dev :=
  let l := h.bytes
  let bs := launchBricks w l d
  if commonOk q w h d && decide (slotsHeld w.inst d + bs.length ≤ slotsMost w.inst d) then
    beginLaunch
      { inst := w.inst, q := q, idx := h.idx, bricks := bs, act := (l.getD 6 0).toNat, code := fieldLE l 8 8, arg := fieldLE l 16 8,
        faultAt := fieldLE l 24 8, limit := fieldLE l 32 4, ctx := fieldLE l 36 2, rq := fieldLE l 38 2, devUs := devUsOf w d,
        since := clock (qDie q) d }
      (admitHead q (expiryOf (h.die q) w h d) (devUsOf w d) d)
  else d

/-- Is a head the first of its communicator's waiting heads (R538)? -/
def firstOfComm (q : Nat) (h : Head) (d : Dev) : Bool :=
  let c := fieldLE h.bytes 2 2
  !d.q.wqs.any (fun p => p.1 != q && decide (p.2.state = 0) && (match p.2.head with
    | some g =>
      g.slot.isSome && g.tile.isNone && g.bad.isNone && decide (0x20 ≤ g.opcode ∧ g.opcode ≤ 0x26) && fieldLE g.bytes 2 2 == c &&
      (decide (h.held q d < g.held p.1 d) || (decide (g.held p.1 d = h.held q d) && decide (p.1 < q)))
    | none => false))

/-- The units of a collective (R45, R312): its engines on both dies, and for a reducing one its lanes, which are asked for together;
none where too few lanes are free. -/
def collUnits (c : Nat) (x : Comm) (k : Coll) (d : Dev) : Option (List (UnitId × Nat)) :=
  let e := c / 2 % 16
  let us := [(.pesyn 0 e, d.upd.costs.pesyn), (.pesyn 1 e, d.upd.costs.pesyn)] ++
    (if (domKeys x.domain d).2 ≠ 0xFFFF then [(UnitId.cipher 0, d.upd.costs.cipher), (UnitId.cipher 1, d.upd.costs.cipher)] else [])
  if collReduces k.op then
    match freeLanes x 0 d, freeLanes x 1 d with
    | some a, some b => some (us ++ [(.lanes 0 c, d.upd.costs.lane * a.length), (.lanes 1 c, d.upd.costs.lane * b.length)])
    | _, _ => none
  else some us

/-- The collective that holds its communicator's COLL_SEQ is admitted where all of R312 holds. -/
def admitColl (q c : Nat) (w : WQ) (h : Head) (d : Dev) : Dev :=
  match collAt c d with
  | none => d
  | some (x, k) =>
    if k.q = q && k.idx = h.idx && !k.admitted && allEntered x k && (freeSeqr (homeDie c) d).isSome &&
       (k.op != 0x26 || earlierDone w) && commonOk q w h d then
      match collUnits c x k d with
      | none => d
      | some us =>
        let sp := k.spans x
        let g := currentFor q us (touched k.ctx (sp.1 ++ sp.2) (.coll (k.q % 2) 0) d) d
        if g.2 then
          beginColl c (each (k.seqs.map Prod.snd) (fun s => pinPort (s % 2) (mkTag d.addr.node s))
            (admitHead q (expiryOf (h.die q) w h d) (devUsOf w d) g.1))
        else g.1
    else d

/-- A collective (R311, R312, R538): it takes its turn, then waits for its ENTERs. -/
def decideColl (q : Nat) (w : WQ) (h : Head) (d : Dev) : Dev :=
  match headColl q w h d with
  | none => d
  | some (c, x, k) =>
    match x.coll with
    | some _ => admitColl q c w h d
    | none => if firstOfComm q h d then admitColl q c w h (takeTurn c k d) else d

/-- The checks of R57 for a head whose status at once is passed. -/
def decideHead (q : Nat) (w : WQ) (h : Head) (d : Dev) : Dev :=
  let op := h.opcode
  if op = 0 then (if commonOk q w h d then admitPlain q w h d else d)
  else if op = 1 then
    (if reached (fieldLE h.bytes 8 4) (fieldLE h.bytes 16 6) d && commonOk q w h d then admitPlain q w h d else d)
  else if op = 2 then (if earlierDone w then admitPlain q w h d else d)
  else if op = 0x12 then decideRead q w h d
  else if op = 0x10 ∨ op = 0x11 then
    (if 65536 < (remoteAsk w h).len then decideSched q w h d else decideUnsched q w h d)
  else if op = 0x30 ∨ op = 0x31 then decideDma q w h d
  else if op = 0x40 then decideLaunch q w h d
  else decideColl q w h d

/-- Does a head wait for an answer from another module: the first GRANT of its REQUEST, or its ENTERs? -/
def awaitsPeer (q : Nat) (h : Head) (d : Dev) : Bool := (headMsg q h d).isSome || (turnOf q h d).isSome

/-- Has a head held its slot for the delay of its REFUSE mode (R62)? A counter's change (R200, R228), a first GRANT, or an ENTER that differs
(R298, R332), at the very moment at which the delay ends comes before the refusal, so such a head is refused only after that moment. -/
def delayPast (q : Nat) (w : WQ) (h : Head) (d : Dev) : Bool :=
  w.refuse && (if w.delay = 0 then true
    else if h.opcode == 1 || awaitsPeer q h d then decide (usec w.delay < h.held q d) else decide (usec w.delay ≤ h.held q d))

/-- In REFUSE mode a head that has held its slot for the delay is refused (R62). -/
def refuseLate (q idx : Nat) (d : Dev) : Dev :=
  match slottedHead q d with
  | some (w, h) => if h.idx = idx && delayPast q w h d then refuseNow q 0xE d else d
  | none => d

/-- Is a head's status at once looked at again: a WAIT (R227), a host DMA head while the host link is lost (R377), a collective that
has not had its turn (R538), or a remote or collective head while the node identifier is not valid (R267)? -/
def rechecked (q : Nat) (h : Head) (d : Dev) : Bool :=
  h.opcode == 1 || (isRemoteOp h.opcode && !nodeValid d.addr.node) || (decide (h.opcode = 0x30 ∨ h.opcode = 0x31) && !hostOpen d) || (decide (0x20 ≤ h.opcode ∧ h.opcode ≤ 0x26) && (turnOf q h d).isNone)

/-- Has a LAUNCH more bricks than its instance's slots can ever hold (R402)? -/
def tooBig (w : WQ) (h : Head) (d : Dev) : Bool :=
  h.opcode == 0x40 && decide (slotsMost w.inst d < (launchBricks w h.bytes d).length)

/-- A head that holds its slot: its status at once, then D_min, which is tested whenever the decision runs (R61), then the decision. -/
def judgeHead (q : Nat) (w : WQ) (h : Head) (d : Dev) : Dev :=
  let r := if !h.judged || rechecked q h d then headStatus q w h d else (d, .ok h.table)
  match r.2 with
  | .error st => if h.judged then refuseNow q st r.1 else headDone q st r.1
  | .ok t =>
    let d1 := if h.judged then r.1 else headFirst q t r.1
    match slottedHead q d1 with
    | none => d1
    | some (w1, h1) =>
      match overBound q w1 h1 d1 with
      | some t => refuseNow q 0xE (setW .boundLastRefused 0 0 (min (2 ^ 32 - 1) t) d1)
      | none => if tooBig w1 h1 d1 then refuseNow q 0xE d1 else refuseLate q h1.idx (decideHead q w1 h1 d1)

/-- The decision for the descriptor at the head of a queue (R57 to R63): it takes its slot, then completes at once, is admitted,
is refused or waits. -/
def runHead (q : Nat) (d : Dev) : Dev :=
  match wqAt q d with
  | none => d
  | some w0 =>
    if w0.state = 2 || !instActive w0.inst d then d
    else
      let d1 := takeSlot q d
      match slottedHead q d1 with
      | none => d1
      | some (w, h) =>
        match h.bad with
        | some st => unreadableHead q st d1
        | none =>
          if w.state = 1 then flushHead q d1
          else if h.judged && headCtxGone w h d1 then refuseNow q 3 d1
          else if activating d1 || pairBusy (queuePair q) d1 then d1
          else judgeHead q w h d1

/-! ## The commands -/

/-- A command for a head of one opcode. -/
def runHeadOf (op q : Nat) (s : State) : Host.Outcome State Fault Refusal :=
  match ((wqAt q s.dev).bind WQ.head).map Head.opcode with
  | some o => if o = op then sends (runHead q) s else .next s
  | none => .next s

/-- ADMISSION_CHECK (R57). -/
def execAdmissionCheck (q : Nat) (s : State) : Host.Outcome State Fault Refusal := sends (runHead q) s

/-- Does a head's refusal delay end (R62)? -/
def delayOver (q : Nat) (d : Dev) : Bool :=
  match slottedHead q d with
  | some (w, h) => delayPast q w h d
  | none => false

/-- REFUSAL_DELAY_EXPIRY (R62). -/
def execRefusalDelayExpiry (q : Nat) (s : State) : Host.Outcome State Fault Refusal :=
  if delayOver q s.dev then sends (runHead q) s else .next s

/-- E passes for an admitted descriptor (R65, R66): one that failed before it, with its entry behind a flush read, has its entry written. -/
def boundExpiry (q idx : Nat) (d : Dev) : Dev :=
  if !expired q idx d then d
  else if failing q idx d then endBehind q idx d
  else
    match collOf q idx d with
    | some c => failOwn c 4 d
    | none => failDesc q idx 4 4 (queueError q idx d)

/-- BOUND_EXPIRY. -/
def execBoundExpiry (q idx : Nat) (s : State) : Host.Outcome State Fault Refusal := sends (boundExpiry q idx) s

/-- NOP (R199). -/
def execNop (q : Nat) (s : State) : Host.Outcome State Fault Refusal := runHeadOf 0x00 q s

/-- WAIT (R200). -/
def execWait (q : Nat) (s : State) : Host.Outcome State Fault Refusal := runHeadOf 0x01 q s

/-- SIGNAL (R201). -/
def execSignal (q : Nat) (s : State) : Host.Outcome State Fault Refusal := runHeadOf 0x02 q s

/-- WRITE (R240, R245). -/
def execWrite (q : Nat) (s : State) : Host.Outcome State Fault Refusal := runHeadOf 0x10 q s

/-- WRITE_IMM (R246). -/
def execWriteImm (q : Nat) (s : State) : Host.Outcome State Fault Refusal := runHeadOf 0x11 q s

/-- READ (R247). -/
def execRead (q : Nat) (s : State) : Host.Outcome State Fault Refusal := runHeadOf 0x12 q s

/-- ALL_REDUCE (R305). -/
def execAllReduce (q : Nat) (s : State) : Host.Outcome State Fault Refusal := runHeadOf 0x20 q s

/-- REDUCE_SCATTER (R305). -/
def execReduceScatter (q : Nat) (s : State) : Host.Outcome State Fault Refusal := runHeadOf 0x21 q s

/-- ALL_GATHER (R305). -/
def execAllGather (q : Nat) (s : State) : Host.Outcome State Fault Refusal := runHeadOf 0x22 q s

/-- ALL_TO_ALL (R305). -/
def execAllToAll (q : Nat) (s : State) : Host.Outcome State Fault Refusal := runHeadOf 0x23 q s

/-- ALL_TO_ALL_V (R305, R308). -/
def execAllToAllV (q : Nat) (s : State) : Host.Outcome State Fault Refusal := runHeadOf 0x24 q s

/-- BROADCAST (R305). -/
def execBroadcast (q : Nat) (s : State) : Host.Outcome State Fault Refusal := runHeadOf 0x25 q s

/-- BARRIER (R305). -/
def execBarrier (q : Nat) (s : State) : Host.Outcome State Fault Refusal := runHeadOf 0x26 q s

/-- HOST_TO_DEVICE (R376, R379). -/
def execHostToDevice (q : Nat) (s : State) : Host.Outcome State Fault Refusal := runHeadOf 0x30 q s

/-- DEVICE_TO_HOST (R376, R379). -/
def execDeviceToHost (q : Nat) (s : State) : Host.Outcome State Fault Refusal := runHeadOf 0x31 q s

/-- LAUNCH (R122). -/
def execLaunch (q : Nat) (s : State) : Host.Outcome State Fault Refusal := runHeadOf 0x40 q s

/-- UNREADABLE_ENTRY (R536). -/
def execUnreadableEntry (q : Nat) (s : State) : Host.Outcome State Fault Refusal := runHeadOf 0xFF q s

/-- MOD_US has passed since the oldest entry that no notification covered (R216). -/
def moderationTimer (r : Nat) (d : Dev) : Dev :=
  match crAt r d with
  | none => d
  | some c => if decide (0 < c.unseen) && decide (c.oldest + usec c.modUs ≤ clock iodie d) then notify r d else d

/-- MODERATION_TIMER. -/
def execModerationTimer (r : Nat) (s : State) : Host.Outcome State Fault Refusal :=
  .next { s with dev := moderationTimer r s.dev }

/-! ## Doorbells (R18, R19, R204, R205, R213) -/

/-- The control-space address of a function's access (R523): the physical function is 0xFF. -/
def ctrlAddr (fn off : Nat) : Nat := if fn = 0xFF then off else 0x01000000 * (fn + 1) + off

/-- May a function make an access at an offset of its window (R16, R523), and does the link carry it (R389, R479)? Before READY no
instance is known to the module. -/
def hasWindow (fn off : Nat) (d : Dev) : Bool :=
  (!d.start.ready || linkOpen d) && ((fn == 0xFF && decide (off < 2 ^ 31)) ||
  (decide (fn < 64) && decide (off < 0x01000000) && (!d.start.ready || (instAt fn d).state != 0)))

/-- A doorbell as it reaches the module: instance, page, QUEUE and PRODUCER, where R19 does not discard it for its form, its
generation or its instance's state (R395). -/
def doorbell (fn off width data : Nat) (d : Dev) : Option (Nat × Nat × Nat × Nat) :=
  let a := ctrlAddr fn off
  let n := a / 0x01000000 - 1
  let o := a % 0x01000000
  if width = 8 && a % 8 = 0 && 0x01000000 ≤ a && a < 0x41000000 && o < 0x100000 && instActive n d &&
     decide (bitsOf data 47 32 = (instAt n d).gen) then some (n, o / 4096, data % 65536, bitsOf data 31 16)
  else none

/-- A doorbell command: it stands in its function's own window (R16), and before READY it is discarded and counted (R478). -/
def ringing (fn off width data : Nat) (f : Nat → Nat → Nat → Nat → Dev → Dev) (d : Dev) : Dev :=
  if !hasWindow fn off d then d
  else if !d.start.ready then countErr 5 fn (ctrlAddr fn off) width true d
  else
    match doorbell fn off width data d with
    | some (n, page, q, p) => f n page q p d
    | none => d

/-- A doorbell of a work queue (R204). -/
def wqDoorbell (n page q p : Nat) (d : Dev) : Dev :=
  match wqAt q d with
  | some w => if 1 ≤ page && page ≤ 127 && w.inst = n && w.feed = 0 && w.page = page then setProducer q p d else d
  | none => d

/-- WQ_DOORBELL. -/
def execWqDoorbell (fn off width data : Nat) (s : State) : Host.Outcome State Fault Refusal :=
  overLink true (.wqDoorbell fn off width data) (fun s => .next { s with dev := ringing fn off width data wqDoorbell s.dev }) s

/-- How many entries a return index returns (R213): none where it names an entry not yet written. -/
def returned (size ret written h : Nat) : Nat :=
  let k := (h % size + size - ret) % size
  if k = 0 then (if written = size then size else 0) else if k ≤ written then k else 0

/-- A return doorbell of a completion ring (R213). -/
def returnDoorbell (n page r h : Nat) (d : Dev) : Dev :=
  match crAt r d with
  | some c =>
    if 128 ≤ page && page ≤ 255 && c.inst = n && c.page = page && !c.detached then
      let k := returned (2 ^ c.log2) c.ret c.written h
      updCr r (fun c => { c with written := c.written - k, ret := (c.ret + k) % 2 ^ c.log2 }) d
    else d
  | none => d

/-- RETURN_DOORBELL. -/
def execReturnDoorbell (fn off width data : Nat) (s : State) : Host.Outcome State Fault Refusal :=
  overLink true (.returnDoorbell fn off width data) (fun s => .next { s with dev := ringing fn off width data returnDoorbell s.dev }) s

/-- A doorbell on page 0 (R205): of the admin queue, or of its completion ring. -/
def adminDoorbell (n page q p : Nat) (d : Dev) : Dev :=
  if page ≠ 0 || !adminOn n d then d
  else if q = 0xFFFF then
    tryAdmin n (updAdmin n (fun a => { a with p := p % (adminSizes n d).1, stalled := false, again := a.reading && a.head.isNone }) d)
  else if q = 0xFFFE then
    let a := adminAt n d
    let k := returned (adminSizes n d).2 a.ret a.written p
    writeNotices n 2 (updAdmin n (fun a => { a with written := a.written - k, ret := (a.ret + k) % (adminSizes n d).2 }) d)
  else d

/-- ADMIN_DOORBELL. -/
def execAdminDoorbell (fn off width data : Nat) (s : State) : Host.Outcome State Fault Refusal :=
  overLink true (.adminDoorbell fn off width data) (fun s => .next { s with dev := ringing fn off width data adminDoorbell s.dev }) s

/-- A doorbell page takes each doorbell by its page (R205). -/
def anyDoorbell (n page q p : Nat) (d : Dev) : Dev :=
  if page = 0 then adminDoorbell n page q p d
  else if page ≤ 127 then wqDoorbell n page q p d
  else returnDoorbell n page q p d

end Sys2Proof.Machine
end

