-- ==== Sys2Proof/Machine/Xlate.lean ====
section
/-! DEFINITION. Walks and faults as events (R173, R174, R177, R180 to R183): a walk, the fault record, how a fault resumes and how
it fails. -/

namespace Sys2Proof.Machine

/-! ## Walks (R172 to R174, R177) -/

/-- The vent-log source code of a reader (R146): 1 brick, 3 Pesyn and collective, 4 host DMA. -/
def engSource (e : Eng) : Nat :=
  match e with
  | .fetch _ => 1
  | .brick _ => 1
  | .pesyn _ _ => 3
  | .coll _ _ => 3
  | _ => 4

/-- A walk by itself ends: a permitted mapping enters the caches; a demand walk of a page that is not mapped waits in a fault;
a refusal, a malformed entry and whatever a prefetch walk finds leave nothing (R174, R177). -/
def translationWalk (eng : Eng) (ctx va : Nat) (kind : Kind) (prefetch : Bool) (d : Dev) : Dev :=
  match translate ctx va kind eng d with
  | .frame _ _ _ _ _ _ => fillAt ctx va kind eng d
  | .host _ _ _ _ => fillAt ctx va kind eng d
  | .notMapped lv =>
    if prefetch then walked ctx va eng d
    else
      (match raiseFault ctx va lv kind eng (.walk eng kind) (walked ctx va eng d) with
       | .ok d1 => d1
       | .error d1 => d1)
  | .uncorrectable a => noteUe (.dev a) (engSource eng) d
  | _ => walked ctx va eng d

/-- TRANSLATION_WALK. -/
def execTranslationWalk (eng : Eng) (ctx va : Nat) (kind : Kind) (prefetch : Bool) (s : State) :
    Host.Outcome State Fault Refusal :=
  .next { s with dev := translationWalk eng ctx va kind prefetch s.dev }

/-! ## The record (R180 to R182) -/

/-- Bits of a map as a number. -/
def bitMap (l : List Nat) : Nat := (l.eraseDups.map (fun b => 2 ^ b)).sum

/-- The 64 bytes of a fault's record (R182). -/
def XFault.record (f : XFault) (id gen : Nat) : List Byte :=
  natLE 8 f.address ++ natLE 2 f.ctx ++ natLE 1 f.level ++ natLE 1 f.kinds ++ natLE 4 id ++ natLE 2 (bitMap (f.engines.map Prod.fst)) ++
  natLE 2 (min 65535 f.engines.length) ++ natLE 1 f.die ++ [0, 0, 0] ++
  natLE 16 (bitMap ((f.engines.filter (fun e => e.1 == f.die)).map Prod.snd)) ++ natLE 2 gen ++ List.replicate 21 0 ++ [0x80]

/-- A fault's record is written in its instance's ring, from 2 µs after the first fault, and the vector is raised; it waits for a turn of its
die's firmware (R463). That the
ring's slot is free, which its software decides, is the command's own premise. -/
def faultRecordWrite (id : Nat) (d : Dev) : Dev :=
  match Tab.get d.xl.faults id with
  | none => d
  | some f =>
    match Tab.get d.xl.rings f.inst with
    | none => d
    | some r =>
      if f.written || decide (clock f.die d < f.since + usec 2) || pairBusy (faultPair f.die) d then d
      else
        let d1 := hostWrite f.inst (r.addr + 64 * r.next) (f.record id (instAt f.inst d).gen) d
        let d2 := { d1 with xl := { d1.xl with
          faults := Tab.modify d1.xl.faults id (fun f => { f with written := true }),
          rings := Tab.set d1.xl.rings f.inst { r with next := (r.next + 1) % max 1 r.entries } } }
        raiseVector f.inst r.vector (countF .xlateFaultStats 0 0 31 16 1 d2)

/-- FAULT_RECORD_WRITE. -/
def execFaultRecordWrite (id : Nat) (s : State) : Host.Outcome State Fault Refusal :=
  .next { s with dev := faultRecordWrite id s.dev }

/-! ## How a fault ends (R181, R183) -/

/-- What a descriptor does again after its fault: its READ, its messages, its host DMA. -/
def resumeDesc (q idx : Nat) (d : Dev) : Dev :=
  let d1 := each (msgsOf q idx d) (fun m d =>
    if m.2.isRead && !m.2.begun then beginRead m.1 (tagSeq m.2.tag) d else pump m.1 (tagSeq m.2.tag) d) d
  pumpDma q idx dmaFuel d1

/-- The contributions of a communicator go on, and the packets that wait for DEST meet it. -/
def resumeColl (c : Nat) (d : Dev) : Dev :=
  meetAgain c (each [0, 1] (fun i d => each ((Tab.keep (pesAt i d).msgs (fun _ m => match m.owner with
    | .contrib a _ _ _ => a == c
    | _ => false)).map Prod.fst) (fun s d => pump i s d) d) d)

/-- A waiter walks again (R181). A brick's tile does so with the next STREAM_TILE_START, its instruction with the next one. -/
def resumeWaiter (ctx : Nat) (w : Waiter × Nat) (d : Dev) : Dev :=
  match w.1 with
  | .brick k ch => when_ (decide (ch = 8)) (startOps k unitFuel) d
  | .desc q idx => resumeDesc q idx d
  | .coll c => resumeColl c d
  | .walk e k => translationWalk e ctx w.2 k false d

/-- The stream descriptor that a channel's waiting tile belongs to. -/
def Chan.waitingDesc (c : Chan) : Option SDesc :=
  match c.cur with
  | some s => some s
  | none => c.tiles.head?.map TileFl.desc

/-- A waiter fails with XLATE_FAULT, or with brick cause 0x04 (R181). -/
def failWaiter (w : Waiter × Nat) (d : Dev) : Dev :=
  match w.1 with
  | .brick k ch =>
    (match ctxAt k d with
     | none => d
     | some x =>
       if ch = 8 then faultHere k x.wordPc x.word (4, w.2) d
       else
         match (x.chan ch).waitingDesc with
         | some s => tileFault k ch s 4 w.2 d
         | none => d)
  | .desc q idx => pumpEngine (q % 2) (failDesc q idx 8 2 d)
  | .coll c => failOwn c 8 d
  | .walk _ _ => d

/-- A fault is taken out of the table. -/
def takeFault (id : Nat) (d : Dev) : Dev := { d with xl := { d.xl with faults := Tab.erase d.xl.faults id } }

/-- Every engine of a fault walks again (R181). -/
def resumeFault (id : Nat) (d : Dev) : Dev :=
  match Tab.get d.xl.faults id with
  | none => d
  | some f => each f.waiters (resumeWaiter f.ctx) (takeFault id d)

/-- Every engine of a fault fails (R181). -/
def endFault (id : Nat) (d : Dev) : Dev :=
  match Tab.get d.xl.faults id with
  | none => d
  | some f => each f.waiters failWaiter (takeFault id d)

/-- A fault is failed by FAULT_FAIL or by its limit, which is counted (R193). -/
def failFault (id : Nat) (d : Dev) : Dev :=
  if Tab.has d.xl.faults id then endFault id (countF .xlateFaultStats 0 0 15 0 1 d) else d

/-- Has the limit of a fault's context passed (R181)? -/
def faultLate (f : XFault) (d : Dev) : Bool :=
  match Tab.get d.xl.ctxs f.ctx with
  | some c => decide (f.since + usec c.limit ≤ clock f.die d)
  | none => true

/-- The limit passes since a fault's first one (R181). -/
def faultLimitExpiry (id : Nat) (d : Dev) : Dev :=
  match Tab.get d.xl.faults id with
  | some f => if faultLate f d then failFault id d else d
  | none => d

/-- FAULT_LIMIT_EXPIRY. -/
def execFaultLimitExpiry (id : Nat) (s : State) : Host.Outcome State Fault Refusal := sends (faultLimitExpiry id) s

end Sys2Proof.Machine
end

