-- ==== Sys2Proof/Machine/AdminX.lean ====
section
/-! DEFINITION. Admin commands (R222, R223): how one is taken from the head, what an accepted one waits for, and the translation
commands (R184 to R186, R192). A command is judged in the order LENGTH, ACCESS, XLATE_FAULT, ADMISSION_REFUSED; one that is refused
changes nothing. -/

namespace Sys2Proof.Machine

/-! ## Taking a command -/

/-- The opcodes of the admin commands (R184, R224, R239, R302). -/
def adminOps : List Nat :=
  [0x80, 0x81, 0x82, 0x83, 0x84, 0x85, 0x86, 0x88, 0x89, 0x8A, 0x90, 0x91, 0x92, 0x94, 0x95, 0x96, 0x97] ++
  [0xA0, 0xA1, 0xA2, 0xA3, 0xA4, 0xA5, 0xA6, 0xA7, 0xA8, 0xA9, 0xAA, 0xAB, 0xAC, 0xB0, 0xB1, 0xB2, 0xB3]

/-- An entry that could not be read completes (R536), and one with a reserved opcode or the opcode of a work queue completes
with LENGTH (R198). -/
def settleAdmin (n : Nat) (d : Dev) : Dev :=
  let a := adminAt n d
  match a.head with
  | none => d
  | some h =>
    if a.wait.isSome || !instActive n d || !adminOn n d || adminFree n d = 0 then d
    else
      match h.bad with
      | some st => completeAdmin n st 0 d
      | none => if adminOps.contains (h.bytes.getD 0 0).toNat then d else completeAdmin n 6 0 d

/-- Runs the command at the head of an instance's admin queue where it has the opcode given. -/
def runAdmin (n op : Nat) (f : List Byte → Dev → Dev) (s : State) : Host.Outcome State Fault Refusal :=
  sends (fun d0 =>
    if activating d0 || pairBusy (adminPair n) d0 then d0
    else
      let d := settleAdmin n d0
      match adminHead n op d with
      | some l => f l d
      | none => d) s

/-- Completes a command by its outcome: a status, or its result and the device after it. -/
def concludeAdmin (n : Nat) (r : Except Nat (Nat × Dev)) (d : Dev) : Dev :=
  match r with
  | .error st => completeAdmin n st 0 d
  | .ok (v, d1) => completeAdmin n 0 v d1

/-- May a range lie in a context: addresses of 56 bits (R162)? -/
def vaOk (va len : Nat) : Bool := decide (va < 2 ^ 56 ∧ va + len ≤ 2 ^ 56)

/-- A context that an instance holds and does not destroy. -/
def ctxHeld (n c : Nat) (d : Dev) : Option Ctx :=
  match Tab.get d.xl.ctxs c with
  | some x => if x.inst = n && !x.dying then some x else none
  | none => none

/-- The structures that a create command is held to: the one in force, and from arming the new one (R461). -/
def shapes (d : Dev) : List Structure_ := d.upd.shape :: d.upd.heldTo.toList

/-- A module limit with the pool sizes of the structures (R194, R446, R461). -/
def poolMax (k limit : Nat) (d : Dev) : Nat := ((shapes d).map (fun s => s.pools.getD k limit)).foldl min limit

/-- A quota of an instance: its register's value, up to the bound that each structure sets (R446, R461). The kinds are numbered as
`Structure_.quotas` lists them. -/
def quotaMax (k v : Nat) (d : Dev) : Nat := ((shapes d).map (fun s => s.quotas.getD k v)).foldl min v

/-! ## What an accepted command waits for -/

/-- Does an admitted descriptor use a context (R186)? -/
def Desc.usesCtx (w : WQ) (x : Desc) (c : Nat) : Bool :=
  if x.op = 0x40 then fieldLE x.bytes 36 2 == c
  else w.ctx == c && x.tile.isNone && decide ((0x10 ≤ x.op ∧ x.op ≤ 0x12) ∨ (0x20 ≤ x.op ∧ x.op ≤ 0x25) ∨ x.op = 0x30 ∨ x.op = 0x31)

/-- Does any admitted work use a context? -/
def ctxBusy (c : Nat) (d : Dev) : Bool :=
  d.q.wqs.any (fun p => p.2.flight.any (fun x => x.done.isNone && x.usesCtx p.2 c))

/-- The READs that hold the translations of their destinations, until their entries are written (R247): queue, context, descriptor. -/
def heldReads (d : Dev) : List (Nat × Nat × Desc) :=
  d.q.wqs.flatMap (fun p => (p.2.flight.filter (fun x => !x.pins.isEmpty)).map (fun x => (p.1, p.2.ctx, x)))

/-- Does a READ use a translation of a range? -/
def Desc.readUses (x : Desc) (va len : Nat) : Bool := (bufferFrags x.bytes x.table).any (fun f => rangesMeet f (va, len))

/-- The tiles in flight of which a part answers a test. -/
def tileUses (mine : BCtx → Bool) (f : Spot → Bool) (d : Dev) : List Use :=
  (d.bricks.ctxs.filter (fun k => mine k.2)).flatMap (fun k => k.2.chans.flatMap (fun c =>
    (c.2.tiles.filter (fun t => t.spots.any f)).map (fun t => .tile k.1 c.1 t.n)))

/-- The host-window address of a host instruction in flight. -/
def HAcc.va (h : HAcc) : Option Nat :=
  match h with
  | .loadV i _ _ _ => some i.va
  | .loadS i _ _ => some i.va
  | .store i _ => some i.va
  | .tile _ _ _ => none

/-- The host instructions in flight at addresses of a range. -/
def hostUses (mine : BCtx → Bool) (va len : Nat) (d : Dev) : List Use :=
  (d.bricks.ctxs.filter (fun k => mine k.2)).flatMap (fun k =>
    (k.2.host.filter (fun h => ((HAcc.va h.2).map (fun a => rangesMeet (a, 64) (va, len))).getD false)).map (fun h => .host k.1 h.1))

/-- The accesses that use a translation of a range of a context now (R176). -/
def rangeUses (c va len : Nat) (d : Dev) : List Use :=
  let mine : BCtx → Bool := fun x => (launchAt x.launch d).map Launch.ctx == some c
  tileUses mine (fun s => rangesMeet (s.va, s.len) (va, len)) d ++ hostUses mine va len d ++
  ((heldReads d).filter (fun r => r.2.1 == c && r.2.2.readUses va len)).map (fun r => .read r.1 r.2.2.idx)

/-- The accesses that use frames of a run of LFNs now (R185). -/
def frameUses (base n : Nat) (d : Dev) : List Use :=
  let run := (base * 2 ^ 26, n * 2 ^ 26)
  tileUses (fun _ => true) (fun s => !s.host && rangesMeet (s.addr, s.len) run) d ++
  ((heldReads d).filter (fun r => r.2.2.pins.any (fun f => rangesMeet f run))).map (fun r => .read r.1 r.2.2.idx)

/-- Is an access that held a translation still under way? -/
def Use.on (u : Use) (d : Dev) : Bool :=
  match u with
  | .tile k ch n => ((ctxAt k d).map (fun x => (x.chan ch).tiles.any (fun t => t.n == n))).getD false
  | .host k id => ((ctxAt k d).map (fun x => Tab.has x.host id)).getD false
  | .read q idx => ((wqAt q d).map (fun w => w.flight.any (fun x => x.idx == idx))).getD false

/-- Is a frame of a run of LFNs moving (R185)? -/
def framesMove (base n : Nat) (d : Dev) : Bool :=
  match d.xl.move with
  | some m => !m.store && decide (m.lfn < base + n ∧ base < m.lfn + m.n)
  | none => false

/-- Does a frame lie where a PLACE code allows it? -/
def inPlace (place lfn : Nat) (d : Dev) : Bool :=
  match Tab.get d.xl.lfns lfn with
  | some l => (placeUnits place).any (fun us => us.contains (unitOf l.pfn))
  | none => true

/-- Does a frame lie in the tier that a PLACE code prefers (R184, R192)? -/
def inFirst (place lfn : Nat) (d : Dev) : Bool :=
  match Tab.get d.xl.lfns lfn with
  | some l => ((placeUnits place).headD []).contains (unitOf l.pfn)
  | none => true

/-- The move by advice of a frame, or of the 4 GiB run that it belongs to. -/
def adviceMove (place lfn : Nat) (d : Dev) : Move :=
  match (Tab.get d.xl.lfns lfn).bind Lfn.run with
  | some r => mkMove .advice r 64 place false
  | none => mkMove .advice lfn 1 place false

/-- Is a frame still to be moved for a MIGRATE_PREFETCH: its move runs, or waits and can find a destination? -/
def stillMoves (place lfn : Nat) (d : Dev) : Bool :=
  let m := adviceMove place lfn d
  let same : Move → Bool := fun x => x.kind == .advice && x.lfn == m.lfn && x.place == place
  (match d.xl.move with
   | some x => same x || (x.lfn ≤ lfn && lfn < x.lfn + x.n && !x.store)
   | none => false) ||
  (d.xl.queued.any same && (moveDest m d).isSome)

/-- Frames return to the free pool (R185): zero-filled, their LFNs free; what is left of a 4 GiB run is single frames. -/
def releaseFrames (base n : Nat) (d : Dev) : Dev :=
  let gone := (d.xl.lfns.filter (fun p => decide (base ≤ p.1 ∧ p.1 < base + n)))
  let d1 := each gone (fun p => zeroFrame p.2.pfn) d
  let cut := gone.filterMap (fun p => p.2.run)
  kickMover { d1 with xl := { d1.xl with
    queued := d1.xl.queued.filter (fun m => m.store || !decide (m.lfn < base + n ∧ base < m.lfn + m.n)),
    lfns := Tab.mapVals (Tab.keep d1.xl.lfns (fun k _ => !decide (base ≤ k ∧ k < base + n)))
      (fun _ l => if (l.run.map cut.contains).getD false then { l with run := none } else l) } }

/-- A context is gone with its cached translations (R186). -/
def dropCtx (c : Nat) (d : Dev) : Dev :=
  kickMover (dropCache (fun t => t.ctx == c) { d with xl := { d.xl with ctxs := Tab.erase d.xl.ctxs c } })

/-- The end of a wait: the command's result and the device after it, where the wait is over (R176, R185, R186, R192, R226). -/
def adminOver (w : AdminWait) (d : Dev) : Option (Nat × Dev) :=
  match w with
  | .wqDestroy q k =>
    (match wqAt q d with
     | some x => if x.flight.isEmpty then some (k, { d with q := { d.q with wqs := Tab.erase d.q.wqs q } }) else none
     | none => some (k, d))
  | .ctxDestroy c => if ctxBusy c d then none else some (0, dropCtx c d)
  | .invalidate uses => if uses.any (fun u => u.on d) then none else some (0, d)
  | .frameFree base n uses => if framesMove base n d || uses.any (fun u => u.on d) then none else some (0, releaseFrames base n d)
  | .prefetch left place =>
    let rest := left.filter (fun l => !inFirst place l d)
    if rest.any (fun l => stillMoves place l d) then none
    else
      let d1 := { d with xl := { d.xl with
        queued := d.xl.queued.filter (fun m => !(m.kind == .advice && m.place == place && rest.any (fun l => decide (m.lfn ≤ l ∧ l < m.lfn + m.n)))) } }
      some ((left.filter (fun l => !inPlace place l d)).length, d1)

/-- The command that waits completes where its wait is over (R223). -/
def adminWaitEnd (n : Nat) (d : Dev) : Dev :=
  match (adminAt n d).wait.bind (fun w => adminOver w d) with
  | some (v, d1) => endAdminWait n 0 v d1
  | none => d

/-- ADMIN_WAIT_END. -/
def execAdminWaitEnd (n : Nat) (s : State) : Host.Outcome State Fault Refusal :=
  sends (fun d => adminWaitEnd n (settleAdmin n d)) s

/-- A command is accepted and waits; it completes at once where nothing is to wait for. -/
def holdFor (n : Nat) (w : AdminWait) (d : Dev) : Dev := adminWaitEnd n (holdAdmin n w d)

/-! ## Contexts (R162, R184, R186) -/

/-- Is a ROOT one that a context may take? -/
def rootStatus (n root : Nat) (d : Dev) : Except Nat Unit :=
  if root % 32768 ≠ 0 then .error 6 else if root = 0 || tableOk root 32768 n d then .ok () else .error 3

/-- CTX_CREATE: the lowest free number (R537). -/
def ctxCreate (n : Nat) (l : List Byte) (d : Dev) : Except Nat (Nat × Dev) :=
  let root := fieldLE l 16 8
  if !adminZeros l [(16, 28)] || 2 ^ 20 ≤ fieldLE l 24 4 || 2 < fieldLE l 28 1 then .error 6
  else
    match rootStatus n root d with
    | .error st => .error st
    | .ok () =>
      if quotaMax 0 (getF .xlateQuota n 0 12 0 d) d ≤ Tab.count d.xl.ctxs (fun _ c => c.inst == n) then .error 0xE
      else
        match Tab.lowestFree d.xl.ctxs 0 4096 with
        | none => .error 0xE
        | some c => .ok (c, { d with xl := { d.xl with ctxs := Tab.set d.xl.ctxs c {
            inst := n, root := root, limit := fieldLE l 24 4, mode := fieldLE l 28 1, segs := [], dying := false } } })

/-- CTX_CREATE as a command. -/
def execCtxCreate (n : Nat) (s : State) : Host.Outcome State Fault Refusal :=
  runAdmin n 0xA0 (fun l d => concludeAdmin n (ctxCreate n l d) d) s

/-- CTX_MODIFY: the fields that SELECT names; counters move no frame of a context that leaves their mode (R190). -/
def ctxModify (n : Nat) (l : List Byte) (d : Dev) : Except Nat (Nat × Dev) :=
  let sel := fieldLE l 10 1
  let root := fieldLE l 16 8
  if !adminZeros l [(8, 10), (16, 28)] || 8 ≤ sel || (bitOf sel 1 && 2 ^ 20 ≤ fieldLE l 24 4) || (bitOf sel 2 && 2 < fieldLE l 28 1) then
    .error 6
  else
    match (if bitOf sel 0 then rootStatus n root d else .ok ()), ctxHeld n (fieldLE l 8 2) d with
    | .error 6, _ => .error 6
    | _, none => .error 3
    | .error st, _ => .error st
    | .ok (), some c =>
      .ok (0, kickMover { d with xl := { d.xl with ctxs := Tab.set d.xl.ctxs (fieldLE l 8 2) { c with
        root := if bitOf sel 0 then root else c.root, limit := if bitOf sel 1 then fieldLE l 24 4 else c.limit,
        mode := if bitOf sel 2 then fieldLE l 28 1 else c.mode } } })

/-- CTX_MODIFY as a command. -/
def execCtxModify (n : Nat) (s : State) : Host.Outcome State Fault Refusal :=
  runAdmin n 0xA1 (fun l d => concludeAdmin n (ctxModify n l d) d) s

/-- Faults of a context fail with it (R183); they count as failed by nothing that R193 counts. -/
def failFaultsOf (c : Nat) (d : Dev) : Dev :=
  each ((Tab.keep d.xl.faults (fun _ f => f.ctx == c)).map Prod.fst) endFault d

/-- CTX_DESTROY (R186): from its acceptance unadmitted work that names the context is refused, and its faults fail (R183). -/
def ctxDestroy (n : Nat) (l : List Byte) (d : Dev) : Dev :=
  let c := fieldLE l 8 2
  if !adminZeros l [(8, 9)] then completeAdmin n 6 0 d
  else if (ctxHeld n c d).isNone then completeAdmin n 3 0 d
  else
    holdFor n (.ctxDestroy c)
      (failFaultsOf c { d with xl := { d.xl with ctxs := Tab.modify d.xl.ctxs c (fun x => { x with dying := true }) } })

/-- CTX_DESTROY as a command. -/
def execCtxDestroy (n : Nat) (s : State) : Host.Outcome State Fault Refusal := runAdmin n 0xA2 (ctxDestroy n) s

/-! ## Segments (R167, R168) -/

/-- Cached translations of a range go, and the command waits until every access that holds one has ended (R168, R176). -/
def invalidate (n c va len : Nat) (d : Dev) : Dev :=
  holdFor n (.invalidate (rangeUses c va len d)) (dropCache (fun t => t.ctx == c && rangesMeet (t.base, t.size) (va, len)) d)

/-- May a segment be set: the limits of R167, and what R168 refuses? -/
def segStatus (n : Nat) (l : List Byte) (d : Dev) : Except Nat (Nat × Nat × Ctx × Seg) :=
  let c := fieldLE l 8 2
  let i := fieldLE l 10 1
  let g : Seg := { va := fieldLE l 16 8, len := fieldLE l 26 2, lfn := fieldLE l 24 2, perm := fieldLE l 11 1 }
  if !adminZeros l [(8, 11), (16, 27)] || 15 < i || 7 < g.perm || g.len = 0 || g.va % 2 ^ 26 ≠ 0 || !vaOk g.va (g.len * 2 ^ 26) then .error 6
  else
    match ctxHeld n c d with
    | none => .error 3
    | some x =>
      if x.segs.any (fun p => p.1 != i && rangesMeet (p.2.va, p.2.len * 2 ^ 26) (g.va, g.len * 2 ^ 26)) ||
         !(List.range g.len).all (fun k => lfnHeld (g.lfn + k) n d) then .error 3
      else .ok (c, i, x, g)

/-- SEG_SET. -/
def segSet (n : Nat) (l : List Byte) (d : Dev) : Dev :=
  match segStatus n l d with
  | .error st => completeAdmin n st 0 d
  | .ok (c, i, x, g) =>
    let d1 := { d with xl := { d.xl with ctxs := Tab.set d.xl.ctxs c { x with segs := Tab.set x.segs i g } } }
    match Tab.get x.segs i with
    | some o => invalidate n c o.va (o.len * 2 ^ 26) d1
    | none => completeAdmin n 0 0 d1

/-- SEG_SET as a command. -/
def execSegSet (n : Nat) (s : State) : Host.Outcome State Fault Refusal := runAdmin n 0xA3 (segSet n) s

/-- SEG_CLEAR. -/
def segClear (n : Nat) (l : List Byte) (d : Dev) : Dev :=
  let c := fieldLE l 8 2
  let i := fieldLE l 10 1
  if !adminZeros l [(8, 10)] || 15 < i then completeAdmin n 6 0 d
  else
    match ctxHeld n c d with
    | none => completeAdmin n 3 0 d
    | some x =>
      let d1 := { d with xl := { d.xl with ctxs := Tab.set d.xl.ctxs c { x with segs := Tab.erase x.segs i } } }
      match Tab.get x.segs i with
      | some o => invalidate n c o.va (o.len * 2 ^ 26) d1
      | none => completeAdmin n 0 0 d1

/-- SEG_CLEAR as a command. -/
def execSegClear (n : Nat) (s : State) : Host.Outcome State Fault Refusal := runAdmin n 0xA4 (segClear n) s

/-! ## Frames (R163, R185) -/

/-- How many LFNs an instance holds. -/
def framesHeld (n : Nat) (d : Dev) : Nat := Tab.count d.xl.lfns (fun _ l => l.inst == n)

/-- The LFNs of an allocation and their frames enter the frame map. -/
def takeFrames (n base : Nat) (big table fixed : Bool) (pfns : List Nat) (d : Dev) : Dev :=
  let ents := (List.range pfns.length).zip pfns
  let d1 := each ents (fun p => zeroFrame p.2) d
  each ents (fun p d => { d with xl := { d.xl with lfns := Tab.set d.xl.lfns (base + p.1) {
    inst := n, pfn := p.2, table := table, fixed := fixed, run := if big then some (base + p.1 / 64 * 64) else none, keep := false,
    count := 0, dying := false } } }) d1

/-- FRAME_ALLOC: every frame under consecutive LFNs, or none (R185, R537). A TABLE frame lies in HBM. -/
def frameAlloc (n : Nat) (l : List Byte) (d : Dev) : Except Nat (Nat × Dev) :=
  let count := fieldLE l 8 2
  let size := fieldLE l 10 1
  let place := fieldLE l 11 1
  let table := bitOf (fieldLE l 12 1) 0
  if !adminZeros l [(8, 12)] || count = 0 || 1 < size || (size = 1 && count % 64 ≠ 0) || !placeOk place || 3 < fieldLE l 12 1 ||
     (table && 0x10 ≤ place && place ≤ 0x18) then .error 6
  else if quotaMax 1 (getF .xlateQuota n 0 31 16 d) d < framesHeld n d + count then .error 0xE
  else
    match freeLfnRun count d.xl.lfns (d.xl.lfns.length + 1) 0, chooseFrames count (size = 1) (if table && place = 0x20 then 8 else place) d with
    | some base, some (pfns, rots) =>
      .ok (base, kickMover (setRotation rots (takeFrames n base (size = 1) table (bitOf (fieldLE l 12 1) 1) pfns d)))
    | _, _ => .error 0xE

/-- FRAME_ALLOC as a command. -/
def execFrameAlloc (n : Nat) (s : State) : Host.Outcome State Fault Refusal :=
  runAdmin n 0xA5 (fun l d => concludeAdmin n (frameAlloc n l d) d) s

/-- Is an LFN of a run named by a segment, the root of a context, a region, a ring or a mirror (R184, R225)? -/
def framesNamed (base n : Nat) (d : Dev) : Bool :=
  let run := (base * 2 ^ 26, n * 2 ^ 26)
  d.xl.ctxs.any (fun c => (c.2.root != 0 && rangesMeet (c.2.root, 32768) run) ||
    c.2.segs.any (fun g => rangesMeet (g.2.lfn * 2 ^ 26, g.2.len * 2 ^ 26) run)) ||
  d.rem.regions.any (fun r => r.2.pages.any (fun p => rangesMeet (p.2.2, p.2.1) run)) ||
  d.q.wqs.any (fun w => w.2.loc == 1 && w.2.feed != 2 && rangesMeet (w.2.lda, 64 * 2 ^ w.2.log2) run) ||
  d.q.crs.any (fun c => c.2.loc == 1 && rangesMeet (c.2.lda, 32 * 2 ^ c.2.log2) run) ||
  d.q.ctrs.any (fun c => match c.2.mirror with
    | some (1, a) => rangesMeet (a, 8) run
    | _ => false)

/-- FRAME_FREE (R185): every translation that names the LFNs goes, moves and accesses end, and the frames are zero-filled. -/
def frameFree (n : Nat) (l : List Byte) (d : Dev) : Dev :=
  let base := fieldLE l 8 2
  let k := fieldLE l 10 2
  if !adminZeros l [(8, 11)] then completeAdmin n 6 0 d
  else if !(List.range k).all (fun i => lfnHeld (base + i) n d) || framesNamed base k d then completeAdmin n 3 0 d
  else
    let d1 := dropCache (fun t => !t.host && rangesMeet (t.lfn, t.size / 2 ^ 26) (base, k)) d
    holdFor n (.frameFree base k (frameUses base k d)) { d1 with xl := { d1.xl with
      queued := d1.xl.queued.filter (fun m => m.store || !rangesMeet (m.lfn, m.n) (base, k)),
      lfns := Tab.mapVals d1.xl.lfns (fun j x => if base ≤ j && j < base + k then { x with dying := true } else x) } }

/-- FRAME_FREE as a command. -/
def execFrameFree (n : Nat) (s : State) : Host.Outcome State Fault Refusal := runAdmin n 0xA6 (frameFree n) s

/-- XLATE_INVALIDATE (R176): a range, or the whole context for a LENGTH of 0. -/
def xlateInvalidate (n : Nat) (l : List Byte) (d : Dev) : Dev :=
  let c := fieldLE l 8 2
  let len := fieldLE l 24 8
  if !adminZeros l [(8, 9), (16, 31)] || !vaOk (fieldLE l 16 8) len then completeAdmin n 6 0 d
  else if (ctxHeld n c d).isNone then completeAdmin n 3 0 d
  else if len = 0 then invalidate n c 0 (2 ^ 56) d
  else invalidate n c (fieldLE l 16 8) len d

/-- XLATE_INVALIDATE as a command. -/
def execXlateInvalidate (n : Nat) (s : State) : Host.Outcome State Fault Refusal := runAdmin n 0xA7 (xlateInvalidate n) s

/-! ## Faults (R181, R183, R184) -/

/-- The sizes that a fault ring may have. -/
def faultRingSizes : List Nat := [64, 128, 256, 512, 1024, 2048, 4096]

/-- FAULT_RING_SET. -/
def faultRingSet (n : Nat) (l : List Byte) (d : Dev) : Except Nat (Nat × Dev) :=
  let a := fieldLE l 16 8
  let k := fieldLE l 24 2
  if !adminZeros l [(16, 26)] || a % 4096 ≠ 0 || !(k = 0 || faultRingSizes.contains k) || 63 < fieldLE l 26 1 then .error 6
  else if d.xl.faults.any (fun f => f.2.inst == n) then .error 0xE
  else if k = 0 then .ok (0, { d with xl := { d.xl with rings := Tab.erase d.xl.rings n } })
  else .ok (0, { d with xl := { d.xl with rings := Tab.set d.xl.rings n { addr := a, entries := k, vector := fieldLE l 26 1, next := 0 } } })

/-- FAULT_RING_SET as a command. -/
def execFaultRingSet (n : Nat) (s : State) : Host.Outcome State Fault Refusal :=
  runAdmin n 0xA8 (fun l d => concludeAdmin n (faultRingSet n l d) d) s

/-- FAULT_RESUME or FAULT_FAIL: the fault must be outstanding (R183). -/
def faultEnd (n : Nat) (resume : Bool) (l : List Byte) (d : Dev) : Dev :=
  let id := fieldLE l 8 4
  if !adminZeros l [(8, 11)] then completeAdmin n 6 0 d
  else
    match Tab.get d.xl.faults id with
    | none => completeAdmin n 3 0 d
    | some f =>
      if f.inst ≠ n then completeAdmin n 3 0 d
      else completeAdmin n 0 0 (if resume && !faultLate f d then resumeFault id d else failFault id d)

/-- FAULT_RESUME as a command. -/
def execFaultResume (n : Nat) (s : State) : Host.Outcome State Fault Refusal := runAdmin n 0xA9 (faultEnd n true) s

/-- FAULT_FAIL as a command. -/
def execFaultFail (n : Nat) (s : State) : Host.Outcome State Fault Refusal := runAdmin n 0xAA (faultEnd n false) s

/-! ## Advice (R190, R192) -/

/-- The LFNs of the frames that a range maps. -/
def rangeLfns (c va len : Nat) (d : Dev) : List Nat :=
  ((cutFrames (len / 2 ^ 26 + 2) va len).filterMap (fun p => match walk c p.1 d with
    | .frame lfn _ _ _ _ _ => some lfn
    | _ => none)).eraseDups

/-- What MIGRATE_PREFETCH and MIGRATE_ADVISE check alike: limits, then the context and its mode. -/
def adviceStatus (n : Nat) (l : List Byte) (limits : Bool) (d : Dev) : Except Nat (List Nat) :=
  let c := fieldLE l 8 2
  if !limits || !vaOk (fieldLE l 16 8) (fieldLE l 24 8) then .error 6
  else
    match ctxHeld n c d with
    | none => .error 3
    | some x => if x.mode = 0 then .error 3 else .ok (rangeLfns c (fieldLE l 16 8) (fieldLE l 24 8) d)

/-- May advice move a frame? A TABLE frame moves only under retirement (R185). -/
def adviceMoves (lfn : Nat) (d : Dev) : Bool := ((Tab.get d.xl.lfns lfn).map (fun l => !l.table)).getD false

/-- Queues the moves by advice of frames. -/
def adviseMoves (place : Nat) (ls : List Nat) (d : Dev) : Dev :=
  queueMoves (((ls.filter (fun x => adviceMoves x d && !inFirst place x d)).map (fun x => adviceMove place x d)).eraseDups) d

/-- MIGRATE_PREFETCH: the command waits for its frames. -/
def migratePrefetch (n : Nat) (l : List Byte) (d : Dev) : Dev :=
  match adviceStatus n l (adminZeros l [(8, 9), (11, 11), (16, 31)] && placeOk (fieldLE l 11 1)) d with
  | .error st => completeAdmin n st 0 d
  | .ok ls => holdFor n (.prefetch ls (fieldLE l 11 1)) (adviseMoves (fieldLE l 11 1) ls d)

/-- MIGRATE_PREFETCH as a command. -/
def execMigratePrefetch (n : Nat) (s : State) : Host.Outcome State Fault Refusal := runAdmin n 0xAB (migratePrefetch n) s

/-- MIGRATE_ADVISE: COLD demotes, KEEP exempts and NORMAL ends KEEP. -/
def migrateAdvise (n : Nat) (l : List Byte) (d : Dev) : Except Nat (Nat × Dev) :=
  let adv := fieldLE l 10 1
  match adviceStatus n l (adminZeros l [(8, 10), (16, 31)] && decide (adv ≤ 2)) d with
  | .error st => .error st
  | .ok ls =>
    if adv = 1 then .ok (0, adviseMoves 0x18 ls d)
    else
      .ok (0, kickMover { d with xl := { d.xl with
        lfns := Tab.mapVals d.xl.lfns (fun k x => if ls.contains k then { x with keep := decide (adv = 2) } else x) } })

/-- MIGRATE_ADVISE as a command. -/
def execMigrateAdvise (n : Nat) (s : State) : Host.Outcome State Fault Refusal :=
  runAdmin n 0xAC (fun l d => concludeAdmin n (migrateAdvise n l d) d) s

end Sys2Proof.Machine
end

