-- ==== Sys2Proof/Machine/AdminW.lean ====
section
/-! DEFINITION. The admin commands of work queues, completion rings and counters (R194, R217, R221, R224 to R227, R388, R537). -/

namespace Sys2Proof.Machine

/-! ## Places in memory -/

/-- The logical device address of a ring or mirror in device memory, which lies within one segment of a context (R225): 0 for one in
host memory; a status where it may not lie there. -/
def placeRing (n loc addr len ctx perm : Nat) (d : Dev) : Except Nat Nat :=
  if loc = 0 then .ok 0
  else
    match ctxHeld n ctx d with
    | none => .error 3
    | some c =>
      match inOneSeg c addr len perm with
      | some a => .ok a
      | none => .error 3

/-- May a ring or mirror have this address: aligned, within its address space (R162, R224, R225)? -/
def addrOk (loc addr align len : Nat) : Bool :=
  decide (addr % align = 0) && decide (loc ≤ 1) && (if loc = 1 then vaOk addr len else decide (addr + len ≤ 2 ^ 64))

/-! ## Work queues -/

/-- How many work queues an instance holds. -/
def wqsHeld (n : Nat) (d : Dev) : Nat := Tab.count d.q.wqs (fun _ w => w.inst == n)

/-- May a queue of an instance name a leaf (R393, R461)? -/
def leafStatus (n leaf : Nat) (d : Dev) : Except Nat Unit :=
  if leaf = 0xFFFF then .ok ()
  else if (Tab.get d.upd.shape.leaves leaf).map Prod.fst ≠ some n then .error 3
  else if (shapes d).all (fun s => Tab.get s.leaves leaf == Tab.get d.upd.shape.leaves leaf) then .ok () else .error 0xE

/-- The limits of WQ_CREATE (R194, R224). -/
def wqLimits (l : List Byte) : Bool :=
  let k := fieldLE l 10 1
  let feed := fieldLE l 13 1
  let page := fieldLE l 14 1
  adminZeros l [(8, 35)] && decide (fieldLE l 11 1 < 8 ∧ fieldLE l 12 1 < 2 ∧ feed ≤ 2) &&
  (if feed = 2 then decide (k = 0 ∧ fieldLE l 16 8 = 0 ∧ fieldLE l 15 1 ≤ 1)
   else decide (6 ≤ k ∧ k ≤ 16) && addrOk (fieldLE l 15 1) (fieldLE l 16 8) 4096 (64 * 2 ^ k)) &&
  (if feed = 0 then decide (1 ≤ page ∧ page ≤ 127) else page == 0) && (feed == 1 || fieldLE l 32 4 == 0)

/-- The objects that WQ_CREATE names, each held by the instance and no ring detached (R224, R225, R388): the LDA of a device
ring. -/
def wqNames (n : Nat) (l : List Byte) (d : Dev) : Except Nat Nat :=
  let dom := fieldLE l 28 2
  if !((crAt (fieldLE l 8 2) d).map (fun c => c.inst == n && !c.detached)).getD false then .error 3
  else if (ctxHeld n (fieldLE l 24 2) d).isNone then .error 3
  else if dom ≠ 0xFFFF && (Tab.get d.rem.doms dom).map Dom.inst ≠ some n then .error 3
  else if fieldLE l 13 1 = 1 && counterOwner (fieldLE l 32 4) d ≠ some n then .error 3
  else
    match leafStatus n (fieldLE l 30 2) d with
    | .error st => .error st
    | .ok () =>
      if fieldLE l 13 1 = 2 then .ok 0
      else placeRing n (fieldLE l 15 1) (fieldLE l 16 8) (64 * 2 ^ fieldLE l 10 1) (fieldLE l 24 2) 0 d

/-- A new queue: READY, with nothing posted; a queue fed by a counter takes its P from it at once (R206). -/
def freshWq (n : Nat) (l : List Byte) (lda : Nat) (d : Dev) : WQ :=
  let k := fieldLE l 10 1
  { inst := n, cr := fieldLE l 8 2, log2 := k, cls := fieldLE l 11 1, refuse := bitOf (fieldLE l 12 1) 0, delay := fieldLE l 26 2,
    feed := fieldLE l 13 1, page := fieldLE l 14 1, loc := fieldLE l 15 1, ring := fieldLE l 16 8, lda := lda, ctx := fieldLE l 24 2,
    domain := fieldLE l 28 2, leaf := fieldLE l 30 2, prodCtr := fieldLE l 32 4,
    p := if fieldLE l 13 1 = 1 then counterVal (fieldLE l 32 4) d % 2 ^ k else 0, c := 0, state := 0, head := none,
    reading := false, stalled := true, again := false, tiles := [], flight := [], firstErr := 0, win := winInit d, winAcked := 0, winCut := false, errIdx := 0, errAt := 0, muted := false,
    detached := false }

/-- WQ_CREATE: the lowest free number, never 0xFFFF for a brick-fed queue (R225, R537). -/
def wqCreate (n : Nat) (l : List Byte) (d : Dev) : Except Nat (Nat × Dev) :=
  if !wqLimits l then .error 6
  else
    match wqNames n l d with
    | .error st => .error st
    | .ok lda =>
      if quotaMax 2 (getF .queueQuota n 0 31 15 d) d ≤ wqsHeld n d || poolMax 0 65536 d ≤ d.q.wqs.length then .error 0xE
      else
        match Tab.lowestFree d.q.wqs 0 65536 with
        | none => .error 0xE
        | some q =>
          if q = 0xFFFF && fieldLE l 13 1 = 2 then .error 0xE
          else .ok (q, { d with q := { d.q with wqs := Tab.set d.q.wqs q (freshWq n l lda d) } })

/-- WQ_CREATE as a command. -/
def execWqCreate (n : Nat) (s : State) : Host.Outcome State Fault Refusal :=
  runAdmin n 0x80 (fun l d => concludeAdmin n (wqCreate n l d) d) s

/-- A queue that an instance holds. -/
def wqHeld (n q : Nat) (d : Dev) : Option WQ := (wqAt q d).bind (fun w => if w.inst = n then some w else none)

/-- WQ_MODIFY (R221, R226, R388): the fields that SELECT names, all or none; a queue that recovers goes on reading its ring. -/
def wqModify (n : Nat) (l : List Byte) (d : Dev) : Except Nat (Nat × Dev) :=
  let q := fieldLE l 8 2
  let sel := fieldLE l 10 1
  if !adminZeros l [(8, 35)] || 16 ≤ sel || (bitOf sel 0 && 8 ≤ fieldLE l 11 1) || (bitOf sel 1 && 2 ≤ fieldLE l 12 1) then .error 6
  else
    match wqHeld n q d with
    | none => .error 3
    | some w =>
      match (if bitOf sel 3 then leafStatus n (fieldLE l 30 2) d else .ok ()) with
      | .error st => .error st
      | .ok () =>
        if w.state = 2 || (bitOf sel 2 && (w.state != 1 || w.detached || !w.flight.isEmpty)) then .error 0xE
        else
          .ok (0, when_ (bitOf sel 2) (tryRead q) <| updWq q (fun w => { w with
            cls := if bitOf sel 0 then fieldLE l 11 1 else w.cls,
            refuse := if bitOf sel 1 then bitOf (fieldLE l 12 1) 0 else w.refuse,
            delay := if bitOf sel 1 then fieldLE l 26 2 else w.delay,
            leaf := if bitOf sel 3 then fieldLE l 30 2 else w.leaf,
            state := if bitOf sel 2 then 0 else w.state, firstErr := if bitOf sel 2 then 0 else w.firstErr }) d)

/-- WQ_MODIFY as a command. -/
def execWqModify (n : Nat) (s : State) : Host.Outcome State Fault Refusal :=
  runAdmin n 0x81 (fun l d => concludeAdmin n (wqModify n l d) d) s

/-- Entries that wait in a queue (R204), its head among them. -/
def WQ.waiting (w : WQ) : Nat :=
  if w.feed = 2 then w.tiles.length + (if w.head.isSome then 1 else 0)
  else
    let k := (w.p + 2 ^ w.log2 - w.ix w.c) % 2 ^ w.log2
    if k = 0 && w.head.isSome then 2 ^ w.log2 else k

/-- The head of a queue that is being destroyed goes without an entry: its slot is free, and what it sent stops. -/
def dropHead (q : Nat) (d : Dev) : Dev :=
  match wqAt q d with
  | none => d
  | some w =>
    match w.head with
    | none => d
    | some h =>
      let d1 := if h.slot.isSome then freeSlot w.cr d else d
      let d2 := updWq q (fun w => { w with head := none }) (endMsgs (fun m => decide (m.owner = .desc q h.idx) && !m.admitted) d1)
      match turnOf q h d with
      | some c => endPart c 1 (((commAt c d).map Comm.rank).getD 0) false d2
      | none => d2

/-- A read of host memory for a queue's ring is forgotten. -/
def dropEntryRead (q : Nat) (d : Dev) : Dev :=
  { d with link := { d.link with
    reads := Tab.keep d.link.reads (fun _ r => match r.why with
    | .wqEntry p _ => p != q
    | _ => true) } }

/-- WQ_DESTROY (R226): pending entries are discarded, admitted ones run to their end, and no entry of the ring is read again. -/
def wqDestroy (n : Nat) (l : List Byte) (d : Dev) : Dev :=
  let q := fieldLE l 8 2
  if !adminZeros l [(8, 9)] then completeAdmin n 6 0 d
  else
    match wqHeld n q d with
    | none => completeAdmin n 3 0 d
    | some w =>
      if w.state = 2 then completeAdmin n 0xE 0 d
      else
        holdFor n (.wqDestroy q w.waiting)
          (updWq q (fun w => { w with state := 2, muted := w.state == 1, tiles := [], reading := false }) (dropEntryRead q (dropHead q d)))

/-- WQ_DESTROY as a command. -/
def execWqDestroy (n : Nat) (s : State) : Host.Outcome State Fault Refusal := runAdmin n 0x82 (wqDestroy n) s

/-- WQ_QUERY: C and the state (R224). -/
def wqQuery (n : Nat) (l : List Byte) (d : Dev) : Except Nat (Nat × Dev) :=
  if !adminZeros l [(8, 9)] then .error 6
  else
    match wqHeld n (fieldLE l 8 2) d with
    | none => .error 3
    | some w => .ok (w.ix w.c + 65536 * w.state, d)

/-- WQ_QUERY as a command. -/
def execWqQuery (n : Nat) (s : State) : Host.Outcome State Fault Refusal :=
  runAdmin n 0x83 (fun l d => concludeAdmin n (wqQuery n l d) d) s

/-! ## Completion rings -/

/-- How many completion rings an instance holds. -/
def crsHeld (n : Nat) (d : Dev) : Nat := Tab.count d.q.crs (fun _ c => c.inst == n)

/-- May a ring have this vector (R216, R393)? -/
def vectorOk (v : Nat) : Bool := decide (v ≤ 63 ∨ v = 0xFF)

/-- CR_CREATE: the lowest free number (R537); the ring's counter is zero (R215). -/
def crCreate (n : Nat) (l : List Byte) (d : Dev) : Except Nat (Nat × Dev) :=
  let k := fieldLE l 10 1
  let loc := fieldLE l 11 1
  let page := fieldLE l 13 1
  let a := fieldLE l 16 8
  if !adminZeros l [(10, 27)] || k < 6 || 16 < k || !vectorOk (fieldLE l 12 1) || page < 128 || !addrOk loc a 4096 (32 * 2 ^ k) then .error 6
  else
    match placeRing n loc a (32 * 2 ^ k) (fieldLE l 24 2) 0 d with
    | .error st => .error st
    | .ok lda =>
      if quotaMax 3 (getF .queueQuota n 0 14 0 d) d ≤ crsHeld n d || poolMax 1 16384 d ≤ d.q.crs.length then .error 0xE
      else
        match Tab.lowestFree d.q.crs 0 16384 with
        | none => .error 0xE
        | some r => .ok (r, { d with q := { d.q with crs := Tab.set d.q.crs r {
            inst := n, log2 := k, loc := loc, vector := fieldLE l 12 1, page := page, modCount := fieldLE l 14 2, modUs := fieldLE l 26 2,
            ring := a, lda := lda, ctx := fieldLE l 24 2, wr := 0, ret := 0, written := 0, held := 0, unseen := 0, oldest := 0,
            counter := 0, detached := false } } })

/-- CR_CREATE as a command. -/
def execCrCreate (n : Nat) (s : State) : Host.Outcome State Fault Refusal :=
  runAdmin n 0x84 (fun l d => concludeAdmin n (crCreate n l d) d) s

/-- A ring that an instance holds. -/
def crHeld (n r : Nat) (d : Dev) : Option CR := (crAt r d).bind (fun c => if c.inst = n then some c else none)

/-- CR_MODIFY (R224, R388); a condition for a notification that holds now raises the vector (R216). -/
def crModify (n : Nat) (l : List Byte) (d : Dev) : Except Nat (Nat × Dev) :=
  let r := fieldLE l 8 2
  if !adminZeros l [(8, 9), (12, 12), (14, 15), (26, 27)] || !vectorOk (fieldLE l 12 1) then .error 6
  else
    match crHeld n r d with
    | none => .error 3
    | some c =>
      if c.detached then .error 3
      else .ok (0, notify r <| updCr r (fun c => { c with vector := fieldLE l 12 1, modCount := fieldLE l 14 2, modUs := fieldLE l 26 2 }) d)

/-- CR_MODIFY as a command. -/
def execCrModify (n : Nat) (s : State) : Host.Outcome State Fault Refusal :=
  runAdmin n 0x85 (fun l d => concludeAdmin n (crModify n l d) d) s

/-- Every CWAIT on a counter faults its brick with cause 0x03 (R227). -/
def failCwaits (lo k : Nat) (d : Dev) : Dev :=
  each (d.bricks.ctxs.filterMap (fun p => match p.2.wait with
    | .cwait idx _ w => if lo ≤ idx ∧ idx < lo + k then some (p.1, (p.2.pc + 2 ^ 56 - 8) % 2 ^ 56, w) else none
    | _ => none)) (fun p d => faultHere p.1 p.2.1 p.2.2 (3, 0) d) d

/-- Every WAIT on a counter completes with ACCESS (R227). -/
def failWaits (lo k : Nat) (d : Dev) : Dev :=
  each (d.q.wqs.map Prod.fst) (fun q d =>
    match slottedHead q d with
    | some (w, h) =>
      let idx := fieldLE h.bytes 8 4
      if h.bad.isNone && h.tile.isNone && h.opcode == 1 && w.state == 0 && decide (lo ≤ idx ∧ idx < lo + k) then headDone q 3 d else d
    | none => d) d

/-- Counters are gone: every wait on one ends (R227). -/
def endWaits (lo k : Nat) (d : Dev) : Dev := failCwaits lo k (failWaits lo k d)

/-- Does a queue take its P from a counter of a run (R206, R224)? -/
def feedsQueue (lo k : Nat) (d : Dev) : Bool :=
  d.q.wqs.any (fun p => p.2.feed == 1 && decide (lo ≤ p.2.prodCtr ∧ p.2.prodCtr < lo + k))

/-- CR_DESTROY: not while a queue or a domain names the ring (R224, R239), or a queue its counter (R227). -/
def crDestroy (n : Nat) (l : List Byte) (d : Dev) : Except Nat (Nat × Dev) :=
  let r := fieldLE l 8 2
  if !adminZeros l [(8, 9)] then .error 6
  else if (crHeld n r d).isNone then .error 3
  else if d.q.wqs.any (fun p => p.2.cr == r) || d.rem.doms.any (fun p => p.2.ring == r) || feedsQueue r 1 d then .error 0xE
  else .ok (0, endWaits r 1 { d with q := { d.q with crs := Tab.erase d.q.crs r } })

/-- CR_DESTROY as a command. -/
def execCrDestroy (n : Nat) (s : State) : Host.Outcome State Fault Refusal :=
  runAdmin n 0x86 (fun l d => concludeAdmin n (crDestroy n l d) d) s

/-! ## Free counters -/

/-- How many free counters an instance holds. -/
def ctrsHeld (n : Nat) (d : Dev) : Nat := Tab.count d.q.ctrs (fun _ c => c.inst == n)

/-- The lowest run of `k` free counters (R537). -/
def freeCtrRun (k : Nat) (t : Tab Ctr) : Nat → Nat → Option Nat
  | 0, _ => none
  | fuel + 1, base =>
    if base + k ≤ 0x20000 then
      match t.find? (fun p => decide (base ≤ p.1 ∧ p.1 < base + k)) with
      | none => some base
      | some p => freeCtrRun k t fuel (p.1 + 1)
    else none

/-- COUNTER_ALLOC: a run of counters at zero, with their mirrors (R217, R218, R225); where a mirror cannot be written it completes with
INTERNAL (R148, R160) and changes nothing: DEDUCED (log entry 156). -/
def counterAlloc (n : Nat) (l : List Byte) (d : Dev) : Except Nat (Nat × Dev) :=
  let k := fieldLE l 8 2
  let loc := fieldLE l 10 1
  let a := fieldLE l 16 8
  if !adminZeros l [(8, 10), (16, 25)] || k = 0 || 1024 < k || !addrOk loc a 8 (if a = 0 then 0 else 8 * k) then .error 6
  else
    match (if a = 0 then .ok 0 else placeRing n loc a (8 * k) (fieldLE l 24 2) 2 d) with
    | .error st => .error st
    | .ok lda =>
      if quotaMax 4 (getF .counterQuota n 0 16 0 d) d < ctrsHeld n d + k || poolMax 2 65536 d < d.q.ctrs.length + k then .error 0xE
      else
        match freeCtrRun k d.q.ctrs (d.q.ctrs.length + 1) 0x10000 with
        | none => .error 0xE
        | some base =>
          let d1 := each (List.range k) (fun i d =>
            setCounter (base + i) 0 { d with q := { d.q with ctrs := Tab.set d.q.ctrs (base + i) {
              inst := n, value := 0,
              mirror := if a = 0 then none else some (loc, (if loc = 0 then a else lda) + 8 * i) } } }) d
          if a ≠ 0 && (List.range k).any (fun i => ringLost loc (lda + 8 * i) 8 d) then .error 0xF else .ok (base, d1)

/-- COUNTER_ALLOC as a command. -/
def execCounterAlloc (n : Nat) (s : State) : Host.Outcome State Fault Refusal :=
  runAdmin n 0x88 (fun l d => concludeAdmin n (counterAlloc n l d) d) s

/-- Is an index a free counter that an instance holds? -/
def freeCtrHeld (n idx : Nat) (d : Dev) : Bool := decide (0x10000 ≤ idx) && counterOwner idx d == some n

/-- COUNTER_FREE (R224, R227). -/
def counterFree (n : Nat) (l : List Byte) (d : Dev) : Except Nat (Nat × Dev) :=
  let a := fieldLE l 8 4
  let k := fieldLE l 12 2
  if !adminZeros l [(8, 13)] then .error 6
  else if !(List.range k).all (fun i => freeCtrHeld n (a + i) d) then .error 3
  else if feedsQueue a k d then .error 0xE
  else .ok (0, endWaits a k { d with q := { d.q with ctrs := Tab.keep d.q.ctrs (fun i _ => !decide (a ≤ i ∧ i < a + k)) } })

/-- COUNTER_FREE as a command. -/
def execCounterFree (n : Nat) (s : State) : Host.Outcome State Fault Refusal :=
  runAdmin n 0x89 (fun l d => concludeAdmin n (counterFree n l d) d) s

/-- COUNTER_SET of a free counter (R217, R224). -/
def counterSet (n : Nat) (l : List Byte) (d : Dev) : Except Nat (Nat × Dev) :=
  if !adminZeros l [(8, 11), (16, 21)] then .error 6
  else if !freeCtrHeld n (fieldLE l 8 4) d then .error 3
  else .ok (0, setCounter (fieldLE l 8 4) (fieldLE l 16 6) d)

/-- COUNTER_SET completes: with INTERNAL where the counter's mirror could not be written (R148, R160). -/
def counterSetEnd (n : Nat) (l : List Byte) (d : Dev) : Dev :=
  match counterSet n l d with
  | .ok (v, d1) => completeAdmin n (if mirrorLost (fieldLE l 8 4) d then 0xF else 0) v d1
  | .error st => completeAdmin n st 0 d

/-- COUNTER_SET as a command. -/
def execCounterSet (n : Nat) (s : State) : Host.Outcome State Fault Refusal := runAdmin n 0x8A (counterSetEnd n) s

/-! ## The registers of the admin queue (R222) -/

/-- Reads of host memory for an admin queue are forgotten. -/
def dropAdminReads (n : Nat) (d : Dev) : Dev :=
  { d with link := { d.link with
    reads := Tab.keep d.link.reads (fun _ r => match r.why with
    | .adminEntry m _ => m != n
    | .members m => m != n
    | _ => true) } }

/-- A write of ADMIN_CTRL_n: the sizes are refused with CONFLICT while ENABLE is 1 before and after it; ENABLE going from 0 to 1 sets
both indices to zero. -/
def adminCtrlWrite (n data : Nat) (d : Dev) : Dev :=
  let w := data % 2 ^ 32
  let on := adminOn n d
  let lim : Nat → Nat := fun k => max 6 (min k 12)
  let clash := on && bitOf w 31
  let held := if bitOf w 30 then 0 else getF .adminCtrl n 0 30 30 d
  let sizes := if clash then (getF .adminCtrl n 0 19 16 d, getF .adminCtrl n 0 15 12 d)
    else (lim (bitsOf w 19 16), lim (bitsOf w 15 12))
  let d1 := setW .adminCtrl n 0 (bitsOf w 31 31 * 2 ^ 31 + (if clash then 1 else held) * 2 ^ 30 + sizes.1 * 2 ^ 16 +
    sizes.2 * 2 ^ 12 + bitsOf w 11 6 * 64) d
  if !on && bitOf w 31 then
    updAdmin n (fun a => { a with
      p := 0, c := 0, head := none, reading := false, stalled := true, again := false, wr := 0, ret := 0, written := 0, detached := false })
      (dropAdminReads n d1)
  else d1

/-- ADMIN_CTRL_WRITE. -/
def execAdminCtrlWrite (n data : Nat) (s : State) : Host.Outcome State Fault Refusal :=
  overLink true (.adminCtrlWrite n data) (fun s => sends (fun d => managerWrite (addrOf .adminCtrl n 0) (fun d => writeNotices n 2 (adminCtrlWrite n data d)) d) s) s

end Sys2Proof.Machine
end

