-- ==== Sys2Proof/Machine/AdminR.lean ====
section
/-! DEFINITION. The admin commands of protection domains, regions and communicators (R230, R233, R234, R236, R237, R239, R300, R302,
R303). -/

namespace Sys2Proof.Machine

/-! ## Protection domains -/

/-- How many domains an instance holds. -/
def domsHeld (n : Nat) (d : Dev) : Nat := Tab.count d.rem.doms (fun _ x => x.inst == n)

/-- Is a traffic key slot assigned to an instance (R230, R413, R414)? -/
def slotAssigned (n k : Nat) (d : Dev) : Bool :=
  decide (16 ≤ k ∧ k < 1024) && getF .keySlot k 0 29 29 d == 1 && getF .keySlot k 0 21 16 d == n

/-- May a domain of an instance name a ring as TARGET_RING (R230, R388)? -/
def targetOk (n r : Nat) (d : Dev) : Bool :=
  r == 0xFFFF || ((crAt r d).map (fun c => c.inst == n && !c.detached)).getD false

/-- PD_CREATE: the lowest free number (R537). -/
def pdCreate (n : Nat) (l : List Byte) (d : Dev) : Except Nat (Nat × Dev) :=
  let k := fieldLE l 20 2
  let r := fieldLE l 22 2
  if !adminZeros l [(8, 14), (16, 18), (20, 23)] then .error 6
  else if !(k == 0xFFFF || slotAssigned n k d) || !targetOk n r d then .error 3
  else if quotaMax 6 (getF .domainQuota n 0 12 0 d) d ≤ domsHeld n d then .error 0xE
  else
    match Tab.lowestFree d.rem.doms 0 4096 with
    | none => .error 0xE
    | some x => .ok (x, { d with rem := { d.rem with doms := Tab.set d.rem.doms x {
        inst := n, tag := fieldLE l 8 4, nmatch := fieldLE l 12 3, nmask := fieldLE l 16 3, slot := k, ring := r } } })

/-- PD_CREATE as a command. -/
def execPdCreate (n : Nat) (s : State) : Host.Outcome State Fault Refusal :=
  runAdmin n 0x90 (fun l d => concludeAdmin n (pdCreate n l d) d) s

/-- A domain that an instance holds. -/
def domHeld (n x : Nat) (d : Dev) : Option Dom :=
  match Tab.get d.rem.doms x with
  | some y => if y.inst = n then some y else none
  | none => none

/-- PD_MODIFY changes only the node filter and TARGET_RING (R230). -/
def pdModify (n : Nat) (l : List Byte) (d : Dev) : Except Nat (Nat × Dev) :=
  let sel := fieldLE l 10 1
  if !adminZeros l [(8, 10), (12, 14), (16, 18), (22, 23)] || 4 ≤ sel then .error 6
  else
    match domHeld n (fieldLE l 8 2) d with
    | none => .error 3
    | some x =>
      if bitOf sel 1 && !targetOk n (fieldLE l 22 2) d then .error 3
      else .ok (0, { d with rem := { d.rem with doms := Tab.set d.rem.doms (fieldLE l 8 2) { x with
        nmatch := if bitOf sel 0 then fieldLE l 12 3 else x.nmatch, nmask := if bitOf sel 0 then fieldLE l 16 3 else x.nmask,
        ring := if bitOf sel 1 then fieldLE l 22 2 else x.ring } } })

/-- PD_MODIFY as a command. -/
def execPdModify (n : Nat) (s : State) : Host.Outcome State Fault Refusal :=
  runAdmin n 0x91 (fun l d => concludeAdmin n (pdModify n l d) d) s

/-- Does a region, a queue or a communicator name a domain (R239, R300)? -/
def domNamed (x : Nat) (d : Dev) : Bool :=
  d.rem.regions.any (fun r => r.2.domain == x) || d.q.wqs.any (fun w => w.2.domain == x) ||
  d.colls.comms.any (fun c => c.2.domain == x)

/-- PD_DESTROY. -/
def pdDestroy (n : Nat) (l : List Byte) (d : Dev) : Except Nat (Nat × Dev) :=
  let x := fieldLE l 8 2
  if !adminZeros l [(8, 9)] then .error 6
  else if (domHeld n x d).isNone then .error 3
  else if domNamed x d then .error 0xE
  else .ok (0, { d with rem := { d.rem with doms := Tab.erase d.rem.doms x } })

/-- PD_DESTROY as a command. -/
def execPdDestroy (n : Nat) (s : State) : Host.Outcome State Fault Refusal :=
  runAdmin n 0x92 (fun l d => concludeAdmin n (pdDestroy n l d) d) s

/-! ## Regions -/

/-- How many regions an instance holds. -/
def regionsHeld (n : Nat) (d : Dev) : Nat := Tab.count d.rem.regions (fun _ r => r.inst == n)

/-- How many pin entries an instance holds. -/
def pinsHeld (n : Nat) (d : Dev) : Nat := ((d.rem.regions.filter (fun r => r.2.inst == n)).map (fun r => r.2.pages.length)).sum

/-- How many pin entries the module holds. -/
def pinsAll (d : Dev) : Nat := (d.rem.regions.map (fun r => r.2.pages.length)).sum

/-- One page of a registration: its first address, its size and its LDA, or the status that refuses it (R165, R177, R236). -/
def regPage (ctx va access : Nat) (d : Dev) : Except Nat (Nat × Nat × Nat) :=
  let kinds : List Kind := (if bitOf access 0 then [.read] else []) ++ (if bitOf access 1 then [.write] else [])
  match kinds.map (fun k => translate ctx va k .reg d) with
  | .frame lfn off base size _ _ :: r =>
    if r.all (fun x => xStatus x == 0) then .ok (base, size, lfn * 2 ^ 26 + off - (va - base)) else .error 3
  | .uncorrectable _ :: _ => .error 0xF
  | x :: _ => .error (xStatus x)
  | [] => .error 6

/-- The pages of a range, in address order, or the first status that refuses one (R236). -/
def regPages (ctx access stop : Nat) (d : Dev) : Nat → Nat → Except Nat (List (Nat × Nat × Nat))
  | 0, _ => .ok []
  | fuel + 1, va =>
    if stop ≤ va then .ok []
    else
      match regPage ctx va access d with
      | .error st => .error st
      | .ok p => (regPages ctx access stop d fuel (p.1 + p.2.1)).map (fun l => p :: l)

/-- The index that a registration takes (R234): the next one never used, then the one freed longest ago. -/
def regionIndex (d : Dev) : Option Nat :=
  if d.rem.regions.length + d.rem.freed.length < 2 ^ 20 then some (d.rem.regions.length + d.rem.freed.length) else d.rem.freed.head?

/-- REG_REGISTER (R236). -/
def regRegister (n : Nat) (l : List Byte) (d : Dev) : Except Nat (Nat × Dev) :=
  let x := fieldLE l 8 2
  let c := fieldLE l 10 2
  let acc := fieldLE l 12 1
  let va := fieldLE l 16 8
  let len := fieldLE l 24 8
  if !adminZeros l [(8, 12), (16, 31)] || acc = 0 || 3 < acc || len = 0 || 2 ^ 40 < len || !vaOk va len then .error 6
  else if (domHeld n x d).isNone || (ctxHeld n c d).isNone then .error 3
  else
    match regPages c acc (va + len) d (len / 2 ^ 26 + 2) va with
    | .error st => .error st
    | .ok ps =>
      if quotaMax 5 (getF .regionQuota n 0 20 0 d) d ≤ regionsHeld n d || quotaMax 7 (getF .pinQuota n 0 18 0 d) d < pinsHeld n d + ps.length ||
         262144 < pinsAll d + ps.length then .error 0xE
      else
        match regionIndex d with
        | none => .error 0xE
        | some i =>
          .ok (i * 4096 + regionTag i d, { d with rem := { d.rem with
            regions := Tab.set d.rem.regions i { inst := n, domain := x, ctx := c, access := acc, va := va, len := len, pages := ps },
            freed := d.rem.freed.filter (fun k => k != i) } })

/-- REG_REGISTER as a command. -/
def execRegRegister (n : Nat) (s : State) : Host.Outcome State Fault Refusal :=
  runAdmin n 0x94 (fun l d => concludeAdmin n (regRegister n l d) d) s

/-- The tag of an index advances, from 0xFFF to 0x001 (R233). -/
def advanceTag (i : Nat) (d : Dev) : Dev :=
  let t := regionTag i d
  { d with rem := { d.rem with tags := Tab.set d.rem.tags i (if 0xFFF ≤ t then 1 else t + 1) } }

/-- The region that a key of an instance names, or the status that refuses it (R239). -/
def keyHeld (n : Nat) (l : List Byte) (d : Dev) : Except Nat Region :=
  if !adminZeros l [(8, 11)] then .error 6
  else
    match regionOf (fieldLE l 8 4) d with
    | none => .error 2
    | some r => if r.inst = n then .ok r else .error 3

/-- REG_DEREGISTER (R237): the key is refused from now on, and index and pins are free. -/
def regDeregister (n : Nat) (l : List Byte) (d : Dev) : Except Nat (Nat × Dev) :=
  match keyHeld n l d with
  | .error st => .error st
  | .ok _ =>
    let i := fieldLE l 8 4 / 4096
    let d1 := advanceTag i d
    .ok (0, { d1 with rem := { d1.rem with regions := Tab.erase d1.rem.regions i, freed := d1.rem.freed ++ [i] } })

/-- REG_DEREGISTER as a command. -/
def execRegDeregister (n : Nat) (s : State) : Host.Outcome State Fault Refusal :=
  runAdmin n 0x95 (fun l d => concludeAdmin n (regDeregister n l d) d) s

/-- REG_REKEY (R237): range, permissions, pins and index stay, the tag advances. -/
def regRekey (n : Nat) (l : List Byte) (d : Dev) : Except Nat (Nat × Dev) :=
  match keyHeld n l d with
  | .error st => .error st
  | .ok _ =>
    let i := fieldLE l 8 4 / 4096
    let d1 := advanceTag i d
    .ok (i * 4096 + regionTag i d1, d1)

/-- REG_REKEY as a command. -/
def execRegRekey (n : Nat) (s : State) : Host.Outcome State Fault Refusal :=
  runAdmin n 0x96 (fun l d => concludeAdmin n (regRekey n l d) d) s

/-- REG_QUERY: is a key valid? -/
def regQuery (n : Nat) (l : List Byte) (d : Dev) : Except Nat (Nat × Dev) :=
  match keyHeld n l d with
  | .ok _ => .ok (1, d)
  | .error 2 => .ok (0, d)
  | .error st => .error st

/-- REG_QUERY as a command. -/
def execRegQuery (n : Nat) (s : State) : Host.Outcome State Fault Refusal :=
  runAdmin n 0x97 (fun l d => concludeAdmin n (regQuery n l d) d) s

/-! ## Communicators -/

/-- How many communicators an instance holds. -/
def commsHeld (n : Nat) (d : Dev) : Nat := Tab.count d.colls.comms (fun _ x => x.inst == n)

/-- How many member entries an instance holds. -/
def membersHeld (n : Nat) (d : Dev) : Nat := ((d.colls.comms.filter (fun c => c.2.inst == n)).map (fun c => c.2.n)).sum

/-- How many member entries the module holds (R300). -/
def membersAll (d : Dev) : Nat := (d.colls.comms.map (fun c => c.2.n)).sum

/-- What COMM_CREATE checks before it reads the member table (R300, R302). -/
def commStatus (n : Nat) (l : List Byte) (d : Dev) : Except Nat Unit :=
  let k := fieldLE l 12 2
  let loc := fieldLE l 24 1
  if !adminZeros l [(8, 26), (28, 33)] || fieldLE l 8 4 = 0 || k = 0 || 4096 < k || k ≤ fieldLE l 14 2 ||
     !addrOk loc (fieldLE l 16 8) 4 (4 * k) || fieldLE l 25 1 < 16 || 20 < fieldLE l 25 1 || fieldLE l 26 1 = 0 || 64 < fieldLE l 26 1 then
    .error 6
  else if (domHeld n (fieldLE l 28 2) d).isNone || (loc = 1 && (ctxHeld n (fieldLE l 32 2) d).isNone) then .error 3
  else if (commById (fieldLE l 8 4) d).isSome || quotaMax 8 (getF .commQuota n 0 12 0 d) d ≤ commsHeld n d ||
      poolMax 4 4096 d ≤ d.colls.comms.length || quotaMax 9 (getF .memberQuota n 0 20 0 d) d < membersHeld n d + k || 1048576 < membersAll d + k ||
      (Tab.lowestFree d.colls.comms 0 4096).isNone then .error 0xE
  else .ok ()

/-- The node identifiers of a member table. -/
def memberNodes (t : List Byte) (k : Nat) : List Nat := (List.range k).map (fun i => fieldLE t (4 * i) 4)

/-- May a member table be taken (R302)? -/
def membersOk (ms : List Nat) (rank : Nat) (d : Dev) : Bool :=
  ms.getD rank 0 == d.addr.node && ms.all (fun m => decide (m ≠ 0 ∧ m < 0xFFFFFF)) && ms.eraseDups.length == ms.length

/-- COMM_CREATE with its member table: the lowest free number (R537). -/
def commEnter (n : Nat) (l t : List Byte) (d : Dev) : Except Nat (Nat × Dev) :=
  match commStatus n l d with
  | .error st => .error st
  | .ok () =>
    let k := fieldLE l 12 2
    let ms := memberNodes t k
    if !membersOk ms (fieldLE l 14 2) d then .error 6
    else
      match Tab.lowestFree d.colls.comms 0 4096 with
      | none => .error 0xE
      | some c => .ok (c, { d with colls := { d.colls with comms := Tab.set d.colls.comms c {
          inst := n, id := fieldLE l 8 4, n := k, rank := fieldLE l 14 2, members := ms, domain := fieldLE l 28 2,
          chunk := fieldLE l 25 1, lanes := fieldLE l 26 1, gen := fieldLE l 30 2, seq := 0, broken := false, win := winInit d,
          winAcked := 0, winCut := false, enters := [], nexts := [], coll := none } } })

/-- The member table in device memory (R302): no fault is recorded. -/
def deviceTable (ctx va n : Nat) (d : Dev) : Dev × Except Nat (List Byte) :=
  match mapRange ctx va n .read (.hostDma 0) d with
  | .error (.uncorrectable a, _) => (noteUe (.dev a) 3 d, .error 0xF)
  | .error (r, _) => (d, .error (xStatus r))
  | .ok ps =>
    match readPieces d ps with
    | .ok l => (useRanges ctx [(va, n)] .read (.hostDma 0) d, .ok l)
    | .error a => (noteUe (.dev a) 3 d, .error 0xF)

/-- COMM_CREATE: a table in host memory is asked for, and the command goes on when the host answers. -/
def commCreate (n : Nat) (l : List Byte) (d : Dev) : Dev :=
  let bytes := 4 * fieldLE l 12 2
  if (adminAt n d).reading then d
  else
    match commStatus n l d with
    | .error st => completeAdmin n st 0 d
    | .ok () =>
      if fieldLE l 24 1 = 1 then
        let r := deviceTable (fieldLE l 32 2) (fieldLE l 16 8) bytes d
        match r.2 with
        | .error st => completeAdmin n st 0 r.1
        | .ok t => concludeAdmin n (commEnter n l t r.1) r.1
      else if hostOpen d then
        hostRead n (fieldLE l 16 8) bytes (.members n) (updAdmin n (fun a => { a with reading := true }) d)
      else d

/-- COMM_CREATE as a command. -/
def execCommCreate (n : Nat) (s : State) : Host.Outcome State Fault Refusal := runAdmin n 0xB0 (commCreate n) s

/-- The host answers the read of a member table: its bytes, or the status of its refusal (R302). -/
def membersRead (n : Nat) (r : Except Nat (List Byte)) (d : Dev) : Dev :=
  if !(adminAt n d).reading then d
  else
    let d1 := updAdmin n (fun a => { a with reading := false }) d
    match adminHead n 0xB0 d1 with
    | none => d1
    | some l =>
      match r with
      | .error st => completeAdmin n st 0 d1
      | .ok t => concludeAdmin n (commEnter n l t d1) d1

/-- A communicator that an instance holds. -/
def commHeld (n c : Nat) (d : Dev) : Option Comm :=
  match commAt c d with
  | some x => if x.inst = n then some x else none
  | none => none

/-- Is a collective of a communicator admitted? -/
def Comm.busy (x : Comm) : Bool := (x.coll.map Coll.admitted).getD false

/-- COMM_ADVANCE (R303): a collective that waits for entry sends its ENTER again under the new values. -/
def commAdvance (n : Nat) (l : List Byte) (d : Dev) : Except Nat (Nat × Dev) :=
  let c := fieldLE l 8 2
  let g := fieldLE l 10 2
  if !adminZeros l [(8, 11)] then .error 6
  else
    match commHeld n c d with
    | none => .error 3
    | some x =>
      if x.gen = g then .error 6
      else if x.busy then .error 0xE
      else
        let d1 := updComm c (fun x => { x with
            gen := g, seq := 0, broken := false, enters := [], nexts := [], coll := none, win := winInit d, winAcked := 0, winCut := false })
          (endMsgs (ofColl c) d)
        match x.coll with
        | none => .ok (0, d1)
        | some k =>
          match (wqAt k.q d1).bind (fun w => w.head.map (fun h => (w, h))) with
          | none => .ok (0, d1)
          | some (w, h) =>
            match headColl k.q w h d1 with
            | none => .ok (0, d1)
            | some (c1, _, k1) => .ok (0, takeTurn c1 k1 d1)

/-- COMM_ADVANCE as a command. -/
def execCommAdvance (n : Nat) (s : State) : Host.Outcome State Fault Refusal :=
  runAdmin n 0xB1 (fun l d => concludeAdmin n (commAdvance n l d) d) s

/-- COMM_DESTROY (R302, R303, R538): a collective that waits for entry, and every head that waits for its turn, ends with ACCESS. -/
def commDestroy (n : Nat) (l : List Byte) (d : Dev) : Except Nat (Nat × Dev) :=
  let c := fieldLE l 8 2
  if !adminZeros l [(8, 9)] then .error 6
  else
    match commHeld n c d with
    | none => .error 3
    | some x =>
      if x.busy then .error 0xE
      else
        let d1 := stopPart c 3 x.rank false d
        .ok (0, refuseWaiters c 3 0 { d1 with colls := { d1.colls with comms := Tab.erase d1.colls.comms c } })

/-- COMM_DESTROY as a command. -/
def execCommDestroy (n : Nat) (s : State) : Host.Outcome State Fault Refusal :=
  runAdmin n 0xB2 (fun l d => concludeAdmin n (commDestroy n l d) d) s

/-- COMM_QUERY: the generation and BROKEN. -/
def commQuery (n : Nat) (l : List Byte) (d : Dev) : Except Nat (Nat × Dev) :=
  if !adminZeros l [(8, 9)] then .error 6
  else
    match commHeld n (fieldLE l 8 2) d with
    | none => .error 3
    | some x => .ok (x.gen + (if x.broken then 65536 else 0), d)

/-- COMM_QUERY as a command. -/
def execCommQuery (n : Nat) (s : State) : Host.Outcome State Fault Refusal :=
  runAdmin n 0xB3 (fun l d => concludeAdmin n (commQuery n l d) d) s

end Sys2Proof.Machine
end

