-- ==== Sys2Proof/Machine/Banks.lean ====
section
/-! DEFINITION. What the management flash holds of images and settings, as bytes (R446 to R453, R471): the keys of slots 0 and 1, the bank
selector, the settings store, stored units, the image header, and the checks of an image. -/

namespace Sys2Proof.Machine

/-! ## The keys of slots 0 and 1 (R413, R430) -/

/-- A sealed key under the PUF secret that the MC has: only the secret that it was sealed under unseals it. -/
def unsealed (secret : Option (BitVec 256)) (k : Option Sealed) : Option (BitVec 256) :=
  match secret, k with
  | some x, some s => if s.secret = x then some s.key else none
  | _, _ => none

/-- The key of slot 0, the image key. -/
def slotZero (s : State) : Option (BitVec 256) := unsealed s.dev.mc.secret s.flash.imageKey

/-- The key of slot 1, the wrapping key. -/
def slotOne (s : State) : Option (BitVec 256) := unsealed s.dev.mc.secret s.flash.wrapKey

/-! ## The bank selector (R449) -/

/-- What the CRC of a selector's copy covers: the sequence number and the active bank. -/
def Selector.bytes (x : Selector) : List Byte := natLE 4 x.seq ++ natLE 1 x.active

/-- Is the CRC of a copy valid? -/
def Selector.valid (x : Selector) : Bool := x.crc == crc32c x.bytes

/-- A copy of the selector. -/
def selectorAt (k : Nat) (f : Flash) : Selector := f.selectors.getD k ⟨0, 0, 0, 0⟩

/-- The copy that governs: the one with the valid CRC and the higher sequence number. -/
def governing (f : Flash) : Nat :=
  let a := selectorAt 0 f
  let b := selectorAt 1 f
  if b.valid && (!a.valid || decide (a.seq < b.seq)) then 1 else 0

/-- The selector in force. -/
def selector (f : Flash) : Selector := selectorAt (governing f) f

/-- The active bank. -/
def Flash.active (f : Flash) : Nat := (selector f).active

/-- The copy that the next selection is written to: its number, the bank and the settings copy that it names, and its CRC. -/
def nextSelector (bank store : Nat) (f : Flash) : Selector :=
  let x : Selector := { seq := ((selector f).seq + 1) % 2 ^ 32, active := bank, crc := 0, store := store }
  { x with crc := crc32c x.bytes }

/-- A copy is written whole. -/
def putSelector (k : Nat) (x : Selector) (f : Flash) : Flash := { f with selectors := f.selectors.set k x }

/-- The selector comes to name a bank and a settings copy: the copy that does not govern is written. -/
def writeSelector (bank store : Nat) (f : Flash) : Flash := putSelector (1 - governing f) (nextSelector bank store f) f

/-- The copy that does not govern is being programmed: until it is whole its CRC fails (R469, R474). -/
def tearSelector (f : Flash) : Flash :=
  let x := selectorAt (1 - governing f) f
  putSelector (1 - governing f) { x with crc := ~~~(crc32c x.bytes) } f

/-! ## The settings store (R450) -/

/-- The entries of a store as bytes. -/
def entryBytes (l : List (Nat × Nat)) : List Byte := l.flatMap (fun e => natLE 4 e.1 ++ natLE 4 e.2)

/-- A settings store with its header: TSET, the format, COUNT, the CRC-32C of the entries. -/
def storeBytes (fmt : Nat) (l : List (Nat × Nat)) : List Byte :=
  let e := entryBytes l
  [0x54, 0x53, 0x45, 0x54] ++ natLE 2 fmt ++ natLE 2 0 ++ natLE 4 l.length ++ natLE 4 (crc32c e).toNat ++ List.replicate 48 0 ++ e

/-- A store as it is read. -/
def settingsOf (l : List Byte) : Settings :=
  { fmt := fieldLE l 4 2, entries := (pieces 8 (l.drop 64)).map (fun e => (fieldLE e 0 4, fieldLE e 4 4)) }

/-- Is a store laid out as R450 states? -/
def storeWhole (l : List Byte) : Bool :=
  decide (l.take 4 = [0x54, 0x53, 0x45, 0x54] ∧ 64 ≤ l.length ∧ fieldLE l 8 4 ≤ 131064 ∧ l.length = 64 + 8 * fieldLE l 8 4 ∧
    fieldLE l 6 2 = 0) && ((l.drop 16).take 48).all (fun b => b == 0) && fieldLE l 12 4 == (crc32c (l.drop 64)).toNat

/-- The copy of the store that is in force, where one was ever written. -/
def storeInForce (f : Flash) : Option (List Byte) :=
  match f.stores.getD (selector f).store [] with
  | [] => none
  | l => some l

/-- A copy of the store is programmed. -/
def putStore (k : Nat) (l : List Byte) (f : Flash) : Flash := { f with stores := f.stores.set k l }

/-- The copy of the store that a commit programs: the one that is not in force. -/
def otherStore (f : Flash) : Nat := 1 - (selector f).store

/-- Does a register's Reset column read Image in its RW fields, so that DEFAULTS holds it (R446, R450)? -/
def imageReg (n : RegName) : Bool :=
  match n with
  | .boundDevice | .boundResidence | .basinPool | .basinWindow | .xlateQuota | .queueQuota | .counterQuota | .regionQuota
  | .domainQuota | .pinQuota | .pesynNode | .pesynAddrCtrl | .pesynPrefix6Lo | .pesynPrefix6Hi | .pesynMark | .gatewayMacLo
  | .gatewayMacHi | .commQuota | .memberQuota | .portCtrl | .flowCtrl | .prioBuf | .dscpMap | .schedLeaf | .schedNode
  | .egressCtrl | .ctrlShaper | .shaperRate | .shaperBurst | .policerCfg | .policerRate1 | .policerRate2 | .policerBurst
  | .policeMapLo | .policeMapHi | .instShare => true
  | _ => false

/-- The bits of a register that lie in RW fields. -/
def rwMask (r : RegRow) : Nat :=
  r.fields.foldl (fun m f => if f.acc = .rw then m + (2 ^ (f.hi + 1 - f.lo) - 1) * 2 ^ f.lo else m) 0

/-- Is a settings entry valid by itself (R451)? -/
def entryOk (e : Nat × Nat) : Bool :=
  match findReg e.1 with
  | some (r, _, _) => imageReg r.name && decide (rwMask r ≠ 0) && decide (Nat.land e.2 (rwMask r) = e.2)
  | none => false

/-- The index of the first entry of a store that is not valid (R451): by itself, or because an earlier entry names its offset. -/
def firstInvalid : Nat → List Nat → List (Nat × Nat) → Option Nat
  | _, _, [] => none
  | i, seen, e :: r => if !entryOk e || seen.contains e.1 then some i else firstInvalid (i + 1) (e.1 :: seen) r

/-! ## Banks and stored units (R448, R449) -/

/-- The bank that is not active. -/
def otherBank (f : Flash) : Nat := 1 - f.active

/-- A bank of the flash. -/
def bankAt (k : Nat) (f : Flash) : Bank := f.banks.getD k ⟨0, [], none, []⟩

/-- Changes a bank. -/
def updBank (k : Nat) (g : Bank → Bank) (f : Flash) : Flash := { f with banks := f.banks.set k (g (bankAt k f)) }

/-- The copy of the management firmware that does not run (R471). -/
def otherCopy (f : Flash) : Nat := 1 - f.mgmtActive

/-- A copy of the management firmware. -/
def copyAt (k : Nat) (f : Flash) : Bank := f.mgmt.getD k ⟨0, [], none, []⟩

/-- Changes a copy of the management firmware. -/
def updCopy (k : Nat) (g : Bank → Bank) (f : Flash) : Flash := { f with mgmt := f.mgmt.set k (g (copyAt k f)) }

/-- The storage IV of a unit: 0x53, the serial number, the bank write count, UNIT_INDEX. -/
def storageIv (serial writes idx : Nat) : List Byte := 0x53 :: (natLE 6 serial ++ natLE 4 writes ++ natLE 1 idx)

/-- The 32 bytes of a unit header. -/
def unitHeader (serial writes idx len : Nat) : List Byte :=
  natLE 4 idx ++ natLE 4 len ++ storageIv serial writes idx ++ List.replicate 12 0

/-- A unit as a bank stores it: its header, the ciphertext and the tag. -/
def sealUnit (key : BitVec 256) (serial writes idx : Nat) (pt : List Byte) : List Byte :=
  let h := unitHeader serial writes idx pt.length
  h ++ gcm key (storageIv serial writes idx) h pt

/-- The plaintext of a stored unit, where its header and its tag pass. -/
def openUnit (key : BitVec 256) (damaged : List Nat) (idx : Nat) (u : List Byte) : Option (List Byte) :=
  let h := u.take 32
  if damaged.contains idx || fieldLE h 0 4 != idx || fieldLE h 4 4 + 48 != u.length then none
  else gcmOpen key ((h.drop 8).take 12) h (u.drop 32)

/-- The plaintext of stored units from an index on, where every unit opens. -/
def openUnits (key : BitVec 256) (damaged : List Nat) : Nat → List (List Byte) → Option (List Byte)
  | _, [] => some []
  | idx, u :: r =>
    match openUnit key damaged idx u, openUnits key damaged (idx + 1) r with
    | some a, some b => some (a ++ b)
    | _, _ => none

/-! ## The image header (R446, R447) -/

/-- Are the bytes of a header from `a` up to `b` zero? -/
def zeroFrom (l : List Byte) (a b : Nat) : Bool := ((l.drop a).take (b - a)).all (fun x => x == 0)

/-- An entry of SECTION_TABLE: TYPE, OFFSET, LENGTH and the section's digest. -/
structure SectionEntry where
  typ    : Nat
  off    : Nat
  len    : Nat
  digest : BitVec 256
  deriving DecidableEq, Repr, Inhabited

/-- SECTION_COUNT, up to the 16 entries of the table. -/
def sectionCount (l : List Byte) : Nat := min 16 (fieldLE l 28 4)

/-- The entries of SECTION_TABLE in use. -/
def sectionTable (l : List Byte) : List SectionEntry :=
  (List.range (sectionCount l)).map (fun k =>
    let e := l.drop (32 + 48 * k)
    { typ := fieldLE e 0 2, off := fieldLE e 4 4, len := fieldLE e 8 4, digest := BitVec.ofNat 256 (fieldBE e 16 32) })

/-- Do the header's fixed fields pass (R447, R452 step 2); PART_CODE and STEPPING are no matter in a management firmware image (R458)? -/
def headerPasses (mgmt : Bool) (l : List Byte) : Bool :=
  decide (l.take 4 = [0x54, 0x48, 0x49, 0x42] ∧ fieldLE l 4 2 = 1 ∧ (mgmt = true ∨ (fieldLE l 6 2 = 0x768 ∧ fieldLE l 8 1 = 0xB0)) ∧
    fieldLE l 16 4 = l.length ∧ 4096 ≤ l.length ∧ l.length ≤ 134217728 ∧ 1 ≤ fieldLE l 28 4 ∧ fieldLE l 28 4 ≤ 16) &&
  zeroFrom l 9 12 && zeroFrom l 22 24 && zeroFrom l 800 3712

/-- Do sections follow one another from a place, without overlap, to the end? -/
def inOrder (total : Nat) : Nat → List SectionEntry → Bool
  | a, [] => a == total
  | a, e :: r => decide (a ≤ e.off) && inOrder total (e.off + e.len) r

/-- Does the section table pass: its reserved bytes, its unused entries, and the order and the end of the sections? -/
def tablePasses (l : List Byte) : Bool :=
  (List.range (sectionCount l)).all (fun k => zeroFrom l (34 + 48 * k) (36 + 48 * k) && zeroFrom l (44 + 48 * k) (48 + 48 * k)) &&
  zeroFrom l (32 + 48 * sectionCount l) 800 && inOrder l.length 4096 (sectionTable l)

/-- Are the sections those of their kind of image: each of the types 0x01 to 0x07 once, or only type 0x10 (R446)? -/
def typesPass (mgmt : Bool) (l : List Byte) : Bool :=
  let t := (sectionTable l).map SectionEntry.typ
  if mgmt then t.all (fun x => x == 0x10) else t.length == 7 && (List.range 7).all (fun k => t.contains (k + 1))

/-- Has each section the digest that the table gives it? -/
def digestsPass (l : List Byte) : Bool :=
  (sectionTable l).all (fun e => sha256 ((l.drop e.off).take e.len) == e.digest)

/-- The first check of R452 step 2 that an image fails, as RESULT reports it (R458), 0 for none: its tags, its header, its signature under
the image-signing key, its section table and types, its digests. -/
def imageCode (mgmt : Bool) (key : BitVec 256) (signer : Option (BitVec 256)) (plain : Option (List Byte)) : Nat :=
  match plain with
  | none => 6
  | some l =>
    if !headerPasses mgmt l then 6
    else if signer ≠ some key then 7
    else if !tablePasses l || !typesPass mgmt l then 6
    else if !digestsPass l then 7
    else 0

/-- The image in a plaintext, with what its sections say. -/
def imageOf (l : List Byte) (c : Contents) : Image :=
  { length := fieldLE l 16 4, version := fieldLE l 12 4, fmt := fieldLE l 20 2, from_ := fieldLE l 24 4, digest := sha256 l,
    sections := (sectionTable l).foldl (fun t e => Tab.set t e.typ e.digest) [], contents := c }

/-- The digest of a section by its type (R447); zero where an image has none. -/
def sectionDigest (im : Image) (t : Nat) : BitVec 256 := Tab.getD im.sections t 0

/-- The plaintext of an image that a bank holds: of its units, or, of the image that the module left the factory with, bytes that the
spec does not give (log entry 160). -/
def bankPlain (key : BitVec 256) (damaged : List Nat) (b : Bank) : Option (List Byte) :=
  match b.units, b.image with
  | [], some im => if damaged.isEmpty then some ((List.range im.length).map Config.factoryByte) else none
  | l, _ => openUnits key damaged 0 l

/-- Does a bank pass step 2 of R452 under the image key and the image-signing key? The bytes of the factory's image are not held, so that
of it the tags and the signature are looked at. -/
def bankPasses (key : Option (BitVec 256)) (sign : BitVec 256) (f : BankFindings) (b : Bank) : Bool :=
  match key, b.image with
  | some k, some _ =>
    if b.units.isEmpty then f.damaged.isEmpty && f.signer == some sign
    else imageCode false sign f.signer (openUnits k f.damaged 0 b.units) == 0
  | _, _ => false

/-- The image that runs: the active bank's. -/
def runningImage (f : Flash) : Option Image := (bankAt f.active f).image

/-! ## Units as a staging makes them (R448, R457) -/

/-- Where the units of an image end, by its first 4,096 bytes and its length: the header is unit 0, and each section, and whatever lies
between two, is cut into units of 16 MiB. -/
def cutEnds (total : Nat) : Nat → Nat → List Nat → List Nat
  | 0, _, _ => []
  | n + 1, a, cuts =>
    if total ≤ a then []
    else
      let e := min (((cuts.filter (fun c => decide (a < c))).foldl min total)) (a + 16777216)
      e :: cutEnds total n e cuts

/-- The ends of the units of an image in order. -/
def imageCuts (front : List Byte) (total : Nat) : List Nat :=
  let cuts := ((sectionTable front).flatMap (fun e => [e.off, e.off + e.len])).filter (fun c => decide (4096 < c ∧ c ≤ total))
  if total ≤ 4096 then (if total = 0 then [] else [total]) else 4096 :: cutEnds total 64 4096 cuts

/-! ## Control cores (R460, R462) -/

/-- Changes every pair of control cores. -/
def updPairs (f : CorePair → CorePair) (d : Dev) : Dev := { d with upd := { d.upd with cores := d.upd.cores.map f } }

/-- A pair both cores of which hold a firmware, the first running. -/
def CorePair.start (fw : BitVec 256) : CorePair := ⟨0, [fw, fw], false, none, false⟩

/-- A standby core loads a firmware; the flag says that an instance starts there. -/
def CorePair.load (fw : BitVec 256) (starts : Bool) (p : CorePair) : CorePair :=
  { p with loaded := p.loaded.set (1 - p.runs) fw, standby := starts, record := none, ready := false }

/-- The firmware that a pair runs. -/
def CorePair.runsNow (p : CorePair) : BitVec 256 := p.loaded.getD p.runs 0

/-- The standby cores return to the running firmware (R454, R460). -/
def standbyBack (d : Dev) : Dev := updPairs (fun p => p.load p.runsNow false) d

/-! ## The end of a staging (R454, R457) -/

/-- Does a staging take a management firmware package (R455, R471)? -/
def Update.stagesMgmt (u : Update) : Bool := (u.staging.bind Staging.header).any (fun h => h.getD 6 0 == 2)

/-- What a staging or its verification was writing becomes EMPTY: the inactive bank, or with a management firmware package the copy that
does not run (R457, R471). -/
def emptyBank (u : Update) (f : Flash) : Flash :=
  if u.stagesMgmt then updCopy (otherCopy f) (fun _ => ⟨0, [], none, []⟩) f
  else updBank (otherBank f) (fun _ => ⟨0, [], none, []⟩) f

/-- A staging under way ends with a status, its bank becomes EMPTY, and the lease is kept (R457, R473). -/
def dropStaging (status detail : Nat) (s : State) : State :=
  let u := { s.dev.upd with state := 1, staging := none, pulling := none, result := some status, detail := detail }
  { s with flash := emptyBank s.dev.upd s.flash, dev := imageIdle { s.dev with upd := u } }

end Sys2Proof.Machine
end

