-- ==== Sys2Proof/Machine/HostLink.lean ====
section
/-! DEFINITION. The Melel host link (R371 to R373), the device-memory aperture (R382, R383), and the loss and return of the host
(R385 to R388). -/

namespace Sys2Proof.Machine

/-! ## Flits and retrains (R372, R373) -/

/-- Replays within the last millisecond. -/
def recentReplays (d : Dev) : List Nat := d.link.replays.filter (fun t => decide (clock iodie d < t + msec 1))

/-- A flit arrives (R372): the next in sequence is accepted, any other asks for replay from the first missing one; what was sent behind
a missing flit before its replay asks for no second one. DEDUCED (log entry 151). -/
def flitError (seq : Nat) (crcOk : Bool) (d : Dev) : Dev :=
  if !d.link.up || d.link.retrain then d
  else if crcOk && seq % 4096 = d.link.seqNext then { d with link := { d.link with seqNext := (seq + 1) % 4096, replaying := false } }
  else if d.link.replaying && seq % 4096 ≠ d.link.seqNext then d
  else
    countF .melelCounts 0 0 31 16 1
      (emit (.replay d.link.seqNext) { d with link := { d.link with replays := recentReplays d ++ [clock iodie d], replaying := true } })

/-- FLIT_ERROR. -/
def execFlitError (seq : Nat) (crcOk : Bool) (s : State) : Host.Outcome State Fault Refusal :=
  .next { s with dev := flitError seq crcOk s.dev }

/-- A retrain begins; the first of a row starts the count of DOWN_MS (R373). -/
def beginRetrain (d : Dev) : Dev :=
  countF .melelCounts 0 0 15 8 1 { d with link := { d.link with
    retrain := true, replays := [], firstTry := some (d.link.firstTry.getD (clock iodie d)) } }

/-- LINK_RETRAIN (R373): a lane lost alignment, or 16 replays fell within 1 ms. -/
def linkRetrain (laneLost : Bool) (d : Dev) : Dev :=
  if d.link.up && !d.link.retrain && (laneLost || decide (16 ≤ (recentReplays d).length)) then beginRetrain d else d

/-- LINK_RETRAIN. -/
def execLinkRetrain (laneLost : Bool) (s : State) : Host.Outcome State Fault Refusal :=
  .next { s with dev := linkRetrain laneLost s.dev }

/-- The width that a set of trained lanes gives (R373): 2 for ×8, 1 for ×4, 0 for none. -/
def laneWidth (lanes : Nat) : Nat :=
  if lanes % 256 = 255 then 2 else if lanes % 16 = 15 || lanes / 16 % 16 = 15 then 1 else 0

/-- The width that the link takes (R373): a ×4 link stays one but in the retrain that WIDEN started. -/
def newWidth (lanes : Nat) (d : Dev) : Nat := if d.link.width = 1 && !d.link.widening then min 1 (laneWidth lanes) else laneWidth lanes

/-- A retrain ends with a set of lanes trained (R373): at no width the link retrains again, else the module's transactions that waited go
out (R381). -/
def retrainEnd (lanes : Nat) (d : Dev) : Dev :=
  if !d.link.retrain then d
  else if laneWidth lanes = 0 then beginRetrain d
  else
    let d1 := when_ (laneWidth lanes = 1) (setBit .melelEvents 0 0 2)
      { d with link := { d.link with
        retrain := false, widening := false, replaying := false, firstTry := none, up := true, trained := true, width := newWidth lanes d } }
    let d2 := pumpLink d1.link.waiting.length d1
    each (d2.q.wqs.map Prod.fst) drainAll d2

/-- A write of MELEL_CTRL.WIDEN (R373): a ×4 link retrains once. -/
def widen (d : Dev) : Dev :=
  if d.link.up && !d.link.retrain && d.link.width = 1 then
    let d1 := beginRetrain d
    { d1 with link := { d1.link with widening := true } }
  else d

/-- WIDEN. -/
def execWiden (s : State) : Host.Outcome State Fault Refusal :=
  overLink true (.widen) (fun s => .next { s with dev := managerWrite (addrOf .melelCtrl 0 0) widen s.dev }) s

/-- A link that had not trained by the end of start-up trains (R479). -/
def melelLinkTrained (lanes : Nat) (d : Dev) : Dev :=
  match laneWidth lanes with
  | 0 => d
  | w =>
    if d.link.trained || !d.start.ready then d
    else { d with link := { d.link with up := true, trained := true, width := w } }

/-- MELEL_LINK_TRAINED. -/
def execMelelLinkTrained (lanes : Nat) (s : State) : Host.Outcome State Fault Refusal :=
  .next { s with dev := melelLinkTrained lanes s.dev }

/-! ## The aperture (R382, R383) -/

/-- The virtual address of an aperture offset, and the context. -/
def aperture (n off : Nat) (d : Dev) : Option (Nat × Nat) :=
  let c := getF .memwinCtrl n 0 11 0 d
  if getF .memwinCtrl n 0 31 31 d = 1 && instActive n d && (ctxHeld n c d).isSome then
    some (c, getF .memwinHi n 0 23 0 d * 2 ^ 32 + getF .memwinLo n 0 31 26 d * 2 ^ 26 + off)
  else none

/-- The physical pieces of an aperture access with the device after its walk, where it is permitted (R383); a walk that meets an
uncorrectable entry is counted (R146). -/
def apertureMap (n off len : Nat) (k : Kind) (d : Dev) : Dev × Option (List (Nat × Nat)) :=
  if 2 ^ 30 < off + len then (d, none)
  else
    match aperture n off d with
    | none => (d, none)
    | some (c, va) =>
      match mapRange c va len k (.aperture n) d with
      | .ok ps => (countRange c va len (.aperture n) (fillRanges c [(va, len)] k (.aperture n) d), some ps)
      | .error (.uncorrectable a, _) => (noteUe (.dev a) 4 d, none)
      | .error (_, at_) => (walked c at_ (.aperture n) d, none)

/-- The codewords of pieces that cannot be read. -/
def badWords (ps : List (Nat × Nat)) (d : Dev) : List Nat :=
  ps.flatMap (fun p => poisonIn p.1 p.2 d ++
    (if frameLost (p.1 / 2 ^ 26) d then (List.range (ceilDiv (p.1 % 8 + p.2) 8)).map (fun k => p.1 / 8 * 8 + 8 * k) else []))

/-- The bytes of pieces, with those of a poisoned codeword as zero (R383). -/
def apertureBytes (ps : List (Nat × Nat)) (bad : List Nat) (d : Dev) : List Byte :=
  ps.flatMap (fun p => (List.range p.2).map (fun k => if bad.contains (cwBase (p.1 + k)) then 0 else Mem.read d.tiers.dev (p.1 + k)))

/-- A host read through the aperture of function `n`. -/
def apertureRead (n off width : Nat) (d : Dev) : Dev :=
  if !hostOpen d || d.link.retrain then d
  else
    match apertureMap n off width .read d with
    | (d0, none) => answer .unsupported (hostError 3 d0)
    | (d0, some ps) =>
      let bad := badWords ps d0
      let d1 := each bad (fun x => noteUe (.dev x) 4) (readsDev ps d0)
      answer (.bytes (apertureBytes ps bad d0) (!bad.isEmpty)) d1

/-- APERTURE_READ. -/
def execApertureRead (n off width : Nat) (s : State) : Host.Outcome State Fault Refusal :=
  overLink true (.apertureRead n off width) (fun s => .next { s with dev := apertureRead n off width s.dev }) s

/-- A host write through the aperture of function `n`. -/
def apertureWrite (n off : Nat) (data : List Byte) (d : Dev) : Dev :=
  if !hostOpen d || d.link.retrain then d
  else
    match apertureMap n off data.length .write d with
    | (d0, none) => hostError 3 d0
    | (d0, some ps) => (writePieces ps data d0).1

/-- APERTURE_WRITE. -/
def execApertureWrite (n off : Nat) (data : List Byte) (s : State) : Host.Outcome State Fault Refusal :=
  overLink true (.apertureWrite n off data) (fun s => .next { s with dev := apertureWrite n off data s.dev }) s

/-! ## Losing the host (R385, R386) -/

/-- Does a launch have host accesses in flight (R120)? -/
def launchHost (l : Nat) (d : Dev) : Option Nat :=
  (d.bricks.ctxs.find? (fun p => keyLaunch p.1 == l &&
    (!p.2.host.isEmpty || p.2.chans.any (fun c => c.2.tiles.any (fun t => !t.host.isEmpty))))).map Prod.fst

/-- The descriptors of a queue whose data moves to or from host memory, in ring order (R386). -/
def hostDescs (q : Nat) (w : WQ) (d : Dev) : List Nat :=
  (w.flight.filter (fun x => x.done.isNone && (decide (x.op = 0x30 ∨ x.op = 0x31) || (endingOf q x.idx d).isSome ||
    (decide (x.op = 0x40) && d.bricks.launches.any (fun l => l.2.q == q && l.2.idx == x.idx && (launchHost l.1 d).isSome))))).map Desc.idx

/-- The address that an offset of a tile has in the host window. -/
def TileFl.vaAt (t : TileFl) (off : Nat) : Nat :=
  ((t.spots.find? (fun s => s.host && decide (s.off ≤ off ∧ off < s.off + s.len))).map (fun s => s.va + (off - s.off))).getD 0

/-- A fault of cause 0x07 at an instruction and an address. -/
def hostDown (pc word va : Nat) : BFault := { cause := 7, pc := pc, word := word, addr := va, ch := noChan, own := 0 }

/-- The oldest host access of a context that fails with the link: its instruction and its address (R109). -/
def BCtx.failedHost (x : BCtx) : BFault :=
  match x.host.head?.map Prod.snd with
  | some (.loadV i _ _ _) => hostDown i.pc i.word i.va
  | some (.loadS i _ _) => hostDown i.pc i.word i.va
  | some (.store i _) => hostDown i.pc i.word i.va
  | some (.tile ch n off) =>
    ((((x.chan ch).tiles.find? (fun t => t.n == n)).map (fun t => hostDown t.desc.pc t.desc.word (t.vaAt off))).getD (hostDown 0 0 0))
  | none =>
    (((x.chans.flatMap (fun c => c.2.tiles)).find? (fun t => !t.host.isEmpty)).map
      (fun t => hostDown t.desc.pc t.desc.word (t.vaAt ((t.host.head?.map Prod.fst).getD 0)))).getD (hostDown 0 0 0)

/-- The fault record of a launch whose host accesses failed: cause 0x07 (R108, R120). -/
def recordHostFault (q idx : Nat) (d : Dev) : Dev :=
  match d.bricks.launches.find? (fun l => l.2.q == q && l.2.idx == idx) with
  | none => d
  | some (l, x) =>
    match launchHost l d with
    | none => d
    | some k =>
      match ctxAt k d with
      | none => d
      | some c => recordFault k c x c.failedHost d

/-- A descriptor whose host data is lost ends with HOST_LINK_DOWN, or with the status with which it failed before; its entry waits for its
turn. -/
def loseDesc (q idx : Nat) (d : Dev) : Dev :=
  let own := (endingOf q idx d).bind (fun b => if b.status = 0 then none else some (b.status, b.detail))
  let d1 := stopDesc q idx (recordHostFault q idx d)
  updWq q (fun w => { w with
    flight := w.flight.map (fun x =>
    if x.idx = idx && x.done.isNone then
      let e := own.getD (0xC, if x.op = 0x40 then 0 else originDetail 0 4)
      { x with done := some (workEntry q idx x.op e.1 0 0 e.2 x.gen) }
    else x) }) d1

/-- A queue with such descriptors enters ERROR at the first of them, and those behind it are flushed (R252, R386). -/
def loseHost (q : Nat) (d : Dev) : Dev :=
  match wqAt q d with
  | none => d
  | some w =>
    match hostDescs q w d with
    | [] => d
    | i :: r => drainAll q (loseDesc q i (queueError q i (each r (loseDesc q) d)))

/-- A queue that is detached, or feeds a detached ring, enters ERROR (R386); no descriptor of it has failed, so FIRST_ERROR is open. -/
def detachQueue (q : Nat) (d : Dev) : Dev :=
  let r := drawFree d
  match wqAt q d with
  | none => d
  | some w =>
    if w.state = 0 && (w.detached || ((crAt w.cr d).map CR.detached).getD false) then
      enterError q w.c (r.1 % 65536) r.2
    else d

/-- Every object in host memory is detached (R386, step 2). -/
def detachAll (d : Dev) : Dev :=
  let d1 := each (List.range 64) (fun n d => updAdmin n (fun a => { a with detached := true, mute := a.wait.isSome, head := none, reading := false, again := false })
    (setF .adminCtrl n 0 31 31 0 d)) d
  { d1 with
    xl := { d1.xl with rings := [] },
    q := { d1.q with
      wqs := Tab.mapVals d1.q.wqs (fun _ w =>
        if w.loc = 0 && w.feed ≠ 2 then { w with detached := true, reading := false, again := false } else w),
      crs := Tab.mapVals d1.q.crs (fun _ c => if c.loc = 0 then { c with detached := true } else c),
      ctrs := Tab.mapVals d1.q.ctrs (fun _ c => if (c.mirror.map Prod.fst) = some 0 then { c with mirror := none } else c) } }

/-- The host link is lost (R385, R386); `event` is the bit of MELEL_EVENTS. A loss while it is lost sets the bit only. -/
def hostLost (event : Nat) (d : Dev) : Dev :=
  let d0 := setBit .melelEvents 0 0 event d
  if d.link.lost then d0
  else
    let d1 := countF .melelCounts 0 0 7 0 1 { d0 with link := { d0.link with
      lost := true, waiting := [], held := [], epoch := (d0.link.epoch + 1) % 65536 } }
    let d2 := detachAll (logEv 14 2 0x07 1 (bytesLE 2 d1.link.epoch ++ bytesLE 1 d1.link.width) d1)
    let d3 := each d0.link.waiting (fun t => match t.what with
      | .entry r _ _ count => entryNowhere r count
      | _ => id) d2
    let d4 := each (d3.q.wqs.map Prod.fst) loseHost d3
    let d5 := { d4 with link := { d4.link with reads := [], flushes := [], behind := [] } }
    let d6 := each (d5.xl.faults.map Prod.fst) endFault d5
    each (d6.q.wqs.map Prod.fst) (fun q d => drainAll q (detachQueue q d)) d6

/-- A loss with the PULL that it ends. -/
def loseLink (event : Nat) (s : State) : State :=
  let s1 := { s with dev := localPath (hostLost event s.dev) }
  if s.dev.upd.pulling.isSome && !s.dev.link.lost then dropStaging 0xC 0 s1 else s1

/-- DOWN_MS has passed since the first retrain of a row began (R373, R385). -/
def execDownMsExpiry (s : State) : Host.Outcome State Fault Refusal :=
  match s.dev.link.firstTry with
  | some t =>
    if s.dev.link.retrain && s.dev.link.up && decide (t + msec (max 1 (getF .melelCtrl 0 0 7 0 s.dev)) ≤ clock iodie s.dev) then
      let s1 := loseLink 0 s
      .next { s1 with dev := { s1.dev with link := { s1.dev.link with up := false, width := 0 } } }
    else .next s
  | none => .next s

/-- The bit of MELEL_EVENTS for a report of the card (R385). -/
def lossBit (c : LossCause) : Nat :=
  match c with
  | .fundamentalReset => 1
  | .hotReset => 1
  | .pfReset => 1
  | .pcieDown => 0

/-- HOST_LINK_LOSS: the card reports a reset, or its PCIe link down (R385). -/
def execHostLinkLoss (cause : LossCause) (s : State) : Host.Outcome State Fault Refusal :=
  .next (if s.dev.link.up then loseLink (lossBit cause) s else s)

/-- The link carries traffic and the card reports its PCIe link up with the host out of reset (R388). -/
def hostLinkRestored (d : Dev) : Dev :=
  if d.link.up && !d.link.retrain && d.link.lost then
    setBit .melelEvents 0 0 3 { d with link := { d.link with lost := false } }
  else d

/-- HOST_LINK_RESTORED. -/
def execHostLinkRestored (s : State) : Host.Outcome State Fault Refusal := .next { s with dev := hostLinkRestored s.dev }

end Sys2Proof.Machine
end

