-- ==== Sys2Proof/Machine/Instances.lean ====
section
/-! DEFINITION. Virtual instances (chapter 14): reset, quiescence and release (R394 to R399), shares (R401 to R404) and notices
(R405). -/

namespace Sys2Proof.Machine

/-- Changes an instance's record. -/
def updInst (n : Nat) (f : Inst → Inst) (d : Dev) : Dev := { d with insts := Tab.set d.insts n (f (instAt n d)) }

/-- Does the image configure an instance (R391)? -/
def configured (n : Nat) (d : Dev) : Bool := (instAt n d).state != 0

/-! ## Notices (R405) -/

/-- A notice's entry: KIND 3, QUEUE 0xFFFF, INDEX 0, STATUS OK. -/
def noticeEntry (n op result detail : Nat) (d : Dev) : Entry :=
  { result := result, bytes := 0, queue := 0xFFFF, index := 0, status := 0, opcode := op, kind := 3, gen := (instAt n d).gen,
    node := 0, detail := detail }

/-- RATE of an instance node's enabled shapers: the lesser, 0 where none is enabled. -/
def nodeRate (n : Nat) (d : Dev) : Nat :=
  let s := 4096 + (instAt n d).node
  let on := fun i => bitOf (getW .shaperRate i s d) 31
  let rate := fun i => getF .shaperRate i s 19 0 d
  if on 0 && on 1 then min (rate 0) (rate 1) else if on 0 then rate 0 else if on 1 then rate 1 else 0

/-- The SHARE_CHANGED notice of the shares in force. -/
def shareEntry (n : Nat) (d : Dev) : Entry :=
  noticeEntry n 2 (nodeRate n d)
    (getF .instShare n 0 8 0 d + 2 ^ 9 * getF .instShare n 0 24 16 d + 2 ^ 18 * max 1 (getF .schedNode (instAt n d).node 0 15 0 d)) d

/-- A part of an instance's share changed: a notice while it is ACTIVE, and after the next GENERATION notice otherwise. -/
def shareChanged (n : Nat) (d : Dev) : Dev :=
  match (instAt n d).state with
  | 0 => d
  | 1 => postNotice n (shareEntry n d) d
  | _ => updInst n (fun x => { x with shareDue := true }) d

/-- The instance whose instance node a scheduler node is (R364). -/
def instOfNode (x : Nat) (d : Dev) : Option Nat :=
  (d.insts.find? (fun p => p.2.node == x && p.2.state != 0)).map Prod.fst

/-- A change of a scheduler node's weight or shaper counts as a change of its instance's share. -/
def nodeChanged (x : Nat) (d : Dev) : Dev :=
  match instOfNode x d with
  | some n => shareChanged n d
  | none => d

/-! ## Shares (R401 to R404) -/

/-- Sum of a share's field over every configured instance but one. -/
def shareSum (n hi lo : Nat) (d : Dev) : Nat :=
  (((List.range 64).filter (fun m => m != n && configured m d)).map (fun m => getF .instShare m 0 hi lo d)).sum

/-- A write of INST_SHARE_n (R403): what would pass 256 keeps both values and sets CONFLICT. DESIGN CHOICE (log entry 138): a changed
share decides the requests that already wait at once (R49: it governs the next request). -/
def instShareWrite (n data : Nat) (d : Dev) : Dev :=
  let w := data % 2 ^ 32
  let led := bitsOf w 8 0
  let sl := bitsOf w 24 16
  let base := if configured n d then (shareSum n 8 0 d, shareSum n 24 16 d) else (0, 0)
  let flag := if bitOf w 31 then 0 else getF .instShare n 0 31 31 d
  let old := (getF .instShare n 0 8 0 d, getF .instShare n 0 24 16 d)
  if 256 < led || 256 < sl || 256 < base.1 + led || 256 < base.2 + sl then
    setW .instShare n 0 (2 ^ 31 + old.2 * 2 ^ 16 + old.1) d
  else
    let d1 := setW .instShare n 0 (flag * 2 ^ 31 + sl * 2 ^ 16 + led) d
    if old = (led, sl) then d1 else regrantAll (shareChanged n d1)

/-- The shares of instances, in an order, are limited so that neither a field nor a sum passes 256 (R403): at a load, and where a structure brings
new instances. DESIGN CHOICE (log entry 163): what a load or a structure brings in excess is cut, the later instance first. -/
def limitShares (l : List Nat) (d : Dev) : Dev :=
  (l.foldl (fun (p : Nat × Nat × Dev) n =>
    let a := min (getF .instShare n 0 8 0 p.2.2) (256 - p.1)
    let b := min (getF .instShare n 0 24 16 p.2.2) (256 - p.2.1)
    (p.1 + a, p.2.1 + b, setF .instShare n 0 8 0 a (setF .instShare n 0 24 16 b p.2.2))) (0, 0, d)).2.2

/-- INST_SHARE_WRITE. -/
def execInstShareWrite (n data : Nat) (s : State) : Host.Outcome State Fault Refusal :=
  overLink true (.instShareWrite n data) (fun s => .next { s with dev := managerWrite (addrOf .instShare n 0) (instShareWrite n data) s.dev }) s

/-- A write of a shaper (R363), which changes the share of the instance whose node it shapes (R401, R405). -/
def shaperShareWrite (i x word data : Nat) (d : Dev) : Dev :=
  let old := getW .shaperRate i x d
  let d1 := shaperWrite i x word data d
  if 4096 ≤ x && getW .shaperRate i x d1 ≠ old then nodeChanged (x - 4096) d1 else d1

/-- SHAPER_WRITE. -/
def execShaperWrite (die sh word data : Nat) (s : State) : Host.Outcome State Fault Refusal :=
  overLink true (.shaperWrite die sh word data) (fun s => let f : Dev → Dev := fun d => if die < 2 && sh < 4608 && word < 2 then shaperShareWrite die sh word data d else d
  .next { s with dev := managerWrite (addrOf (shaperReg word) die sh) f s.dev }) s

/-! ## Reset (R394, R395, R398) -/

/-- The mark of a reset's flush reads. -/
def resetMark (n : Nat) : Nat := 0x20000 + n

/-- The work queues of an instance. -/
def wqsOf (n : Nat) (d : Dev) : List Nat := (d.q.wqs.filter (fun p => p.2.inst == n)).map Prod.fst

/-- One CANCEL for each outstanding write message of an instance (R395). -/
def cancelWrites (n : Nat) (d : Dev) : Dev :=
  each [0, 1] (fun i d => each ((pesAt i d).msgs.map Prod.snd) (fun m d =>
    if m.inst = n && m.begun && (m.op = 0x10 || m.op = 0x11) && m.typ ≠ 11 then
      (sendMsgPacket i m 8 false (List.replicate 16 0) [] d).1
    else d) d) d

/-- The initiator and the target stop for an instance (R395): frames leave unsent, messages end, and slots into its regions are
abandoned. A slot of a contribution goes with its communicator and enters no filter, so that later packets of it draw the
KEY_INVALID that the other members receive (R331). DEDUCED (log entry 91). -/
def resetPesyn (n : Nat) (d : Dev) : Dev :=
  let d1 := withdraw (fun f => f.inst == some n) d
  let d2 := cancelWrites n d1
  let d3 := each [0, 1] (fun i d => each ((Tab.keep (pesAt i d).msgs (fun _ m => m.inst == n)).map Prod.fst) (fun s d => retireMsg i s d) d) d2
  let d4 := closeReads (fun x => (wqsOf n d3).contains x.1) d3
  each [0, 1] (fun i d => each ((Tab.keep (pesAt i d).slots (fun _ s => s.inst == n && s.read.isNone)).map Prod.fst)
    (fun t d => if ((slotAt i t d).bind Slot.contrib).isSome then dropSlot i t d else closeSlot i t 1 d) d) d4

/-- The communicators of an instance are destroyed, and the grants of their lanes return (R395). -/
def resetComms (n : Nat) (d : Dev) : Dev :=
  each (d.colls.comms.filter (fun p => p.2.inst == n)) (fun p d =>
    let d1 := match p.2.coll with
      | some k => each (k.seqs.map Prod.snd) (fun x => dropPort (x % 2) (mkTag d.addr.node x)) (each (k.laneUnits ++ [UnitId.lanes 0 p.1, UnitId.lanes 1 p.1]) returnGrant d)
      | none => d
    { d1 with colls := { d1.colls with comms := Tab.erase d1.colls.comms p.1 } }) d

/-- The host DMA engines stop for an instance, and what waits for the link for it is dropped (R394): one flush read for each engine with its
pieces on the link, and those of the I/O die, under the instance's function and under the physical function for what its admin queue
wrote (R375, R395, R396). DEDUCED (log entry 152). -/
def resetHost (n : Nat) (d : Dev) : Dev :=
  let mine := wqsOf n d
  let busy := fun i => d.link.dmas.any (fun p => p.2.inst == n && p.2.q % 2 == i)
  let d1 := { d with link := { d.link with
    dmas := Tab.keep d.link.dmas (fun _ x => x.inst != n),
    reads := Tab.keep d.link.reads (fun _ r => match r.why with
      | .wqEntry q _ => !mine.contains q
      | .adminEntry m _ => m != n
      | .members m => m != n
      | .piece q _ _ => !mine.contains q
      | .pull _ => true),
    flushes := Tab.keep d.link.flushes (fun _ f => !mine.contains f.1),
    behind := d.link.behind.filter (fun b => !mine.contains b.q), waiting := d.link.waiting.filter (fun t => t.inst != n) } }
  let d2 := if hostOpen d then
      sendFlush 3 0xFF n (resetMark n) 3 (each (([0, 1].filter busy) ++ [2]) (fun i => sendFlush (1 + i) n n (resetMark n) i) d1)
    else d1
  pumpEngine 1 (pumpEngine 0 d2)

/-- The mover gives up advice and counter moves of an instance's frames (R395): those that wait at once, the one in hand at its next piece
boundary. -/
def resetMoves (n : Nat) (d : Dev) : Dev :=
  let mine : Move → Bool := fun m => !m.store && ((Tab.get d.xl.lfns m.lfn).map (fun l => l.inst == n)).getD false &&
    (m.kind == .advice || m.kind == .counters)
  { d with xl := { d.xl with queued := d.xl.queued.filter (fun m => !mine m) } }

/-- The regions of an instance go, in increasing order of index, and their keys with them (R233, R395). -/
def resetRegions (n : Nat) (d : Dev) : Dev :=
  each ((d.rem.regions.filter (fun p => p.2.inst == n)).map Prod.fst) (fun i d =>
    let d1 := advanceTag i d
    { d1 with rem := { d1.rem with regions := Tab.erase d1.rem.regions i, freed := d1.rem.freed ++ [i] } }) d

/-- The admin state of an instance is zeroed (R398): the OWN bytes of its rings are written. -/
def resetAdmin (n : Nat) (d : Dev) : Dev :=
  let sz := adminSizes n d
  let d1 := each (List.range sz.2) (fun k => adminPut n (adminAddr n true d + 32 * k + 31) [0])
    (each (List.range sz.1) (fun k => adminPut n (adminAddr n false d + 64 * k + 63) [0]) d)
  updAdmin n (fun a => { a with
    p := 0, c := 0, head := none, reading := false, stalled := true, again := false, wait := none, mute := false, wr := 0, ret := 0, written := 0, notices := [] }) d1

/-- Every object of an instance but its frames is destroyed (R398). -/
def resetObjects (n : Nat) (d : Dev) : Dev :=
  let mine := wqsOf n d
  let own : Nat → Bool := fun c => ((Tab.get d.xl.ctxs c).map (fun x => x.inst == n)).getD false
  let d1 := dropCache (fun t => own t.ctx) d
  let d2 := { d1 with
    xl := { d1.xl with
      ctxs := Tab.keep d1.xl.ctxs (fun _ c => c.inst != n), rings := Tab.erase d1.xl.rings n,
      faults := Tab.keep d1.xl.faults (fun _ f => f.inst != n),
      lfns := Tab.mapVals d1.xl.lfns (fun _ l => if l.inst = n then { l with dying := true } else l) },
    q := { d1.q with
      wqs := Tab.keep d1.q.wqs (fun _ w => w.inst != n), crs := Tab.keep d1.q.crs (fun _ c => c.inst != n),
      ctrs := Tab.keep d1.q.ctrs (fun _ c => c.inst != n) },
    rem := { d1.rem with doms := Tab.keep d1.rem.doms (fun _ x => x.inst != n) },
    bricks := { d1.bricks with ends := d1.bricks.ends.filter (fun t => !mine.contains t.q) } }
  zeroUnits (windowNow n d2).1 (windowNow n d2).2 d2

/-- The launches of an instance stop and their contexts are discarded (R130, R395). -/
def resetLaunches (n : Nat) (d : Dev) : Dev :=
  each ((Tab.keep d.bricks.launches (fun _ l => l.inst == n)).map Prod.fst) dropLaunch d

/-- An instance reset begins (R394, R395, R407): not while one is under way, nor for an instance that is not configured. -/
def instanceReset (n : Nat) (d : Dev) : Dev :=
  let x := instAt n d
  if !d.start.ready || x.state = 0 || x.state = 2 then d
  else
    let d1 := countF .instUsage n 0 31 24 1 (updInst n (fun x => { x with
      state := 2, gen := (x.gen + 1) % 65536, lastGen := if x.state = 1 then x.gen else x.lastGen, started := clock iodie d }) d)
    resetAdmin n (resetObjects n (resetRegions n (resetMoves n (resetHost n (resetComms n (resetPesyn n (resetLaunches n d1)))))))

/-- INSTANCE_RESET. -/
def execInstanceReset (n : Nat) (s : State) : Host.Outcome State Fault Refusal := sends (instanceReset n) s

/-! ## Quiescence and release (R397, R399) -/

/-- An instance becomes ACTIVE (R399): its GENERATION notice, then the SHARE_CHANGED that waited (R405). -/
def becomeActive (n : Nat) (d : Dev) : Dev :=
  let x := instAt n d
  let d1 := updInst n (fun x => { x with state := 1, shareDue := false }) d
  let d2 := postNotice n (noticeEntry n 1 0 x.lastGen d1) d1
  if x.shareDue then postNotice n (shareEntry n d2) d2 else d2

/-- Does anything of the old generation remain: a flush read, a retirement of one of its bricks that goes on without a context (R96,
R395), or a move of one of its frames? -/
def oldTokens (n : Nat) (d : Dev) : Bool :=
  d.link.flushes.any (fun f => f.2.1 == resetMark n) ||
  (instAt n d).bricks.any (fun b => let r := brickAt b d
    r.failing.isSome && (r.cur.bind (fun k => ctxAt k d)).isNone && r.coming.isNone) ||
  (match d.xl.move with
   | some m => !m.store && (List.range m.n).any (fun k => ((Tab.get d.xl.lfns (m.lfn + k)).map (fun l => l.inst == n)).getD false)
   | none => false)

/-- The frames of an instance are zero-filled and free (R397). -/
def freeFramesOf (n : Nat) (d : Dev) : Dev :=
  let gone := d.xl.lfns.filter (fun p => p.2.inst == n)
  let d1 := each gone (fun p => zeroFrame p.2.pfn) d
  let d2 := { d1 with xl := { d1.xl with lfns := Tab.keep d1.xl.lfns (fun _ l => l.inst != n) } }
  kickMover { d2 with xl := { d2.xl with queued := d2.xl.queued.filter (fun m => (m.source d2).isSome) } }

/-- The bit of an instance in INST_QUIESCED_LO or INST_QUIESCED_HI is set. -/
def setQuiesced (n : Nat) (d : Dev) : Dev :=
  if n < 32 then setBit .instQuiescedLo 0 0 n d else setBit .instQuiescedHi 0 0 (n - 32) d

/-- An instance becomes QUIESCED (R397), and ACTIVE at once with AUTO_RELEASE (R399). -/
def instanceQuiesced (n : Nat) (d : Dev) : Dev :=
  if (instAt n d).state ≠ 2 || oldTokens n d then d
  else
    let d1 := setQuiesced n (updInst n (fun x => { x with state := 3 }) (freeFramesOf n d))
    let d2 := when_ (getF .instEventCtrl 0 0 31 31 d1 = 1) (raiseVector 0xFF (getF .instEventCtrl 0 0 2 0 d1)) d1
    if getF .instCtrl n 0 30 30 d2 = 1 then becomeActive n d2 else d2

/-- INSTANCE_QUIESCED. -/
def execInstanceQuiesced (n : Nat) (s : State) : Host.Outcome State Fault Refusal := sends (instanceQuiesced n) s

/-- A write of INST_CTRL_n.RELEASE (R399, R407). -/
def release (n : Nat) (d : Dev) : Dev := if (instAt n d).state = 3 then becomeActive n d else d

/-- Is a write of INST_CTRL_n refused from arming on: the new structure has no such instance, and it is not QUIESCED (R461)? -/
def ctrlHeld (n : Nat) (d : Dev) : Bool :=
  (d.upd.heldTo.map (fun sh => !Tab.has sh.insts n)).getD false && (instAt n d).state != 3

/-- RELEASE. -/
def execRelease (n : Nat) (s : State) : Host.Outcome State Fault Refusal :=
  overLink true (.release n) (fun s => sends (fun d => managerWrite (addrOf .instCtrl n 0) (fun d => if ctrlHeld n d then d else release n d) d) s) s

end Sys2Proof.Machine
end

