-- ==== Sys2Proof/Machine/Keys.lean ====
section
/-! DEFINITION. The key store (R413 to R421): loads under the wrapping key, erasure, and the assignment of slots. -/

namespace Sys2Proof.Machine

/-- A write of KEY_LOAD_CTRL (R415, R420): a command starts with the data registers as they stand, or is discarded while one runs. -/
def keyCommand (cmd slot : Nat) (d : Dev) : Dev :=
  if d.keys.running.isSome then setF .keyLoadStatus 0 0 7 0 7 d
  else setF .keyLoadStatus 0 0 17 8 (slot % 1024) { d with keys := { d.keys with running := some (cmd, slot % 1024, d.keys.data) } }

/-- LOAD_WRAPPED. -/
def execLoadWrapped (slot : Nat) (s : State) : Host.Outcome State Fault Refusal :=
  overLink true (.loadWrapped slot) (fun s => .next { s with dev := managerWrite (addrOf .keyLoadCtrl 0 0) (keyCommand 1 slot) s.dev }) s

/-- ERASE. -/
def execErase (slot : Nat) (s : State) : Host.Outcome State Fault Refusal :=
  overLink true (.erase slot) (fun s => .next { s with dev := managerWrite (addrOf .keyLoadCtrl 0 0) (keyCommand 2 slot) s.dev }) s

/-- A load of a slot completes: its LOADS count rises (R415, R421). -/
def countLoad (slot : Nat) (d : Dev) : Dev := setF .keySlot slot 0 7 0 ((getF .keySlot slot 0 7 0 d + 1) % 256) d

/-- A slot's key, and for a load its count (R415). -/
def loadKey (slot : Nat) (key : BitVec 256) (d : Dev) : Dev :=
  countLoad slot
    { d with keys := { d.keys with keys := Tab.set d.keys.keys slot key } }

/-- The outcome of a key-store command under the wrapping key (R415, R421): RESULT, and the device after it. The key is unwrapped by KW, and
its integrity value is checked. -/
def keyOutcome (wrap : Option (BitVec 256)) (cmd slot : Nat) (data : List Nat) (d : Dev) : Nat × Dev :=
  if cmd ≠ 1 ∧ cmd ≠ 2 then (2, d)
  else if slot < 16 then (3, d)
  else if cmd = 2 then (1, { d with keys := { d.keys with keys := Tab.erase d.keys.keys slot } })
  else
    match wrap with
    | none => (5, d)
    | some w =>
      match keyUnwrap w (data.flatMap (natLE 4)) with
      | none => (4, d)
      | some k => (1, loadKey slot k d)

/-- The key-store command ends: its outcome is reported and the data registers are cleared (R415). -/
def keyLoadDone (wrap : Option (BitVec 256)) (d : Dev) : Dev :=
  match d.keys.running with
  | none => d
  | some (cmd, slot, data) =>
    let r := keyOutcome wrap cmd slot data d
    setF .keyLoadStatus 0 0 7 0 r.1
      { r.2 with keys := { r.2.keys with data := List.replicate 10 0, running := none } }

/-- KEY_LOAD_DONE. -/
def execKeyLoadDone (s : State) : Host.Outcome State Fault Refusal :=
  .next { s with dev := keyLoadDone (slotOne s) s.dev }

/-- A write of KEY_SLOT_k (R414, R421): it assigns the slot, or is discarded with CONFLICT where a domain names the slot and the
assignment would change. -/
def keySlotWrite (k data : Nat) (d : Dev) : Dev :=
  if k < 16 ∨ 1024 ≤ k then d
  else
    let w := data % 2 ^ 32
    let old := (getF .keySlot k 0 29 29 d, getF .keySlot k 0 21 16 d)
    let new := (bitsOf w 29 29, bitsOf w 21 16)
    if old ≠ new && d.rem.doms.any (fun p => p.2.slot == k) then setBit .keySlot k 0 28 d
    else
      let d1 := when_ (bitOf w 28) (setF .keySlot k 0 28 28 0) d
      setF .keySlot k 0 29 29 new.1 (setF .keySlot k 0 21 16 new.2 d1)

/-- KEY_SLOT_WRITE. -/
def execKeySlotWrite (k data : Nat) (s : State) : Host.Outcome State Fault Refusal :=
  overLink true (.keySlotWrite k data) (fun s => .next { s with dev := managerWrite (addrOf .keySlot k 0) (keySlotWrite k data) s.dev }) s

end Sys2Proof.Machine
end

