-- ==== Sys2Proof/Machine/VentLog.lean ====
section
/-! DEFINITION. The vent log (R437 to R442): records, their programming, the log's window, and its erasure. -/

namespace Sys2Proof.Machine

/-! ## Records (R437) -/

/-- Bytes 0 to 59 of a record. -/
def LogRec.head (seq : Nat) (r : LogRec) : List Byte :=
  natLE 4 seq ++ natLE 4 r.boot ++ natLE 1 r.source ++ natLE 1 r.cls ++ natLE 1 r.event ++ natLE 1 r.area ++
    (r.data ++ List.replicate 48 0).take 48

/-- The 64 bytes of a record as stored. -/
def LogRec.bytes (seq : Nat) (r : LogRec) : List Byte := r.head seq ++ natLE 4 (crc32c (r.head seq)).toNat

/-- The 64 bytes of a slot whose programming was cut short: any bytes, but a CRC that fails (R439). -/
def tornBytes (i : Nat) : List Byte :=
  let l := (List.range 60).map (fun k => Config.tornByte i k)
  l ++ natLE 4 ((crc32c l).toNat + 1 + (Config.tornCrc i) % (2 ^ 32 - 1))

/-- The 64 bytes that the slot of an index holds: a slot not written since the last clear reads 0xFF (R437, R441). -/
def slotBytes (f : Flash) (i : Nat) : List Byte :=
  match Tab.get f.log i with
  | some (.good seq r) => r.bytes seq
  | some .torn => tornBytes i
  | none => List.replicate 64 0xFF

/-- LOG_STATUS (R445). -/
def logStatusWord (d : Dev) : Nat :=
  (if d.mc.next = 65536 then 2 ^ 31 else 0) + (if d.mc.clearing then 2 ^ 30 else 0) + d.mc.next

/-! ## Platform events (R427) -/

/-- The MC sends an event to the receiver in force, where there is one. -/
def sendEvent (sensor : Option Nat) (cross seq : Nat) (d : Dev) : Dev :=
  match d.mc.receiver with
  | none => d
  | some dest =>
    emit (.event sensor (if sensor.isSome then cross else seq) dest)
      { d with mc := { d.mc with
        events := d.mc.events ++ [{ sensor := sensor, cross := cross, seq := seq, dest := dest, tries := 1, sent := clock iodie d }] } }

/-- Changes the record of a waiting event, or removes it. -/
def setEvent (k : Nat) (e : Option MgmtEvent) (d : Dev) : Dev :=
  { d with mc := { d.mc with
    events := match e with
    | some x => d.mc.events.set k x
    | none => d.mc.events.eraseIdx k } }

/-- The receiver accepted an event, or did not within 100 ms (R427, R444): sent twice more, 100 ms apart, each time to the
receiver in force, it is dropped. -/
def eventRetry (k : Nat) (accepted : Bool) (d : Dev) : Dev :=
  match d.mc.events[k]? with
  | none => d
  | some e =>
    if accepted then setEvent k none d
    else if clock iodie d < e.sent + msec 100 then d
    else if 3 ≤ e.tries then setEvent k none d
    else
      match d.mc.receiver with
      | none => setEvent k none d
      | some dest =>
        let e1 := { e with dest := dest, tries := e.tries + 1, sent := clock iodie d }
        emit (.event e.sensor (if e.sensor.isSome then e.cross else e.seq) dest) (setEvent k (some e1) d)

/-- EVENT_RETRY. -/
def execEventRetry (k : Nat) (accepted : Bool) (s : State) : Host.Outcome State Fault Refusal :=
  .next { s with dev := eventRetry k accepted s.dev }

/-! ## Programming (R439, R440) -/

/-- The first record of the buffer is in flash (R439): one of class 2 or 3 is sent as an event of class 0xF0 (R427). -/
def programRecord (s : State) : State :=
  match s.dev.mc.buffer with
  | [] => s
  | r :: rest =>
    let n := s.dev.mc.next
    if !s.dev.mc.up || s.dev.mc.clearing || decide (65536 ≤ n) then s
    else
      let d1 := { s.dev with mc := { s.dev.mc with buffer := rest, next := n + 1 } }
      { s with
        flash := { s.flash with log := Tab.set s.flash.log n (.good s.flash.seq r), seq := s.flash.seq + 1 },
        dev := when_ (decide (2 ≤ r.cls)) (sendEvent none 0 s.flash.seq) d1 }

/-- LOG_RECORD_PROGRAM. -/
def execLogRecordProgram (s : State) : Host.Outcome State Fault Refusal := .next (programRecord s)

/-- The record that a clear writes (R438, R442): records erased, and LOG_DROPPED before the clear. -/
def clearedRecord (d : Dev) : LogRec :=
  { boot := d.mc.boot, source := 11, cls := 0, area := 0x0A, event := 5,
    data := bytesLE 4 d.mc.next ++ bytesLE 4 d.mc.dropped }

/-- The erase ends (R442): LOG_FULL, LOG_DROPPED and NEXT are cleared, and LOG_CLEARED is written at index 0. -/
def eraseDone (s : State) : State :=
  if s.dev.mc.up && s.dev.mc.clearing then
    let m := { s.dev.mc with next := 1, dropped := 0, clearing := false }
    { s with
      flash := { s.flash with log := [(0, .good s.flash.seq (clearedRecord s.dev))], seq := s.flash.seq + 1 },
      dev := { s.dev with mc := m } }
  else s

/-- LOG_ERASE_DONE. -/
def execLogEraseDone (s : State) : Host.Outcome State Fault Refusal := .next (eraseDone s)

/-! ## The window of the manager (R441) -/

/-- LOG_WINDOW_j as the copy holds it; 0xFFFF_FFFF before the first copy (R445). -/
def windowWord (j : Nat) (d : Dev) : Nat :=
  match d.mc.window with
  | none => 2 ^ 32 - 1
  | some l => fieldLE l (4 * j) 4

/-- A read of LOG_WINDOW_0 copies the whole record at LOG_CURSOR.INDEX (R441). -/
def window0Read (s : State) : State :=
  let w := some (slotBytes s.flash (getF .logCursor 0 0 15 0 s.dev))
  let d1 := { s.dev with mc := { s.dev.mc with window := w } }
  { s with dev := answer (.value (windowWord 0 d1)) d1 }

/-- A read of LOG_WINDOW_15 advances INDEX where AUTO_ADVANCE is 1 (R441). -/
def window15Read (d : Dev) : Dev :=
  let i := getF .logCursor 0 0 15 0 d
  answer (.value (windowWord 15 d))
    (when_ (bitOf (getW .logCursor 0 0 d) 31) (setF .logCursor 0 0 15 0 ((i + 1) % 65536)) d)

/-- A read of a register by the physical function (R478): before READY it returns zero and has no effect; no other function
reaches device control space (R523). -/
def managerRead (fn : Nat) (f : State → State) (s : State) : State :=
  if fn ≠ 0xFF then s
  else if !s.dev.start.ready then { s with dev := answer (.value 0) s.dev }
  else if linkOpen s.dev then f s else s

/-- LOG_WINDOW_0_READ. -/
def execLogWindow0Read (fn : Nat) (s : State) : Host.Outcome State Fault Refusal :=
  overLink true (.logWindow0Read fn) (fun s => .next (managerRead fn window0Read s)) s

/-- LOG_WINDOW_15_READ. -/
def execLogWindow15Read (fn : Nat) (s : State) : Host.Outcome State Fault Refusal :=
  overLink true (.logWindow15Read fn) (fun s => .next (managerRead fn (fun s => { s with dev := window15Read s.dev }) s)) s

end Sys2Proof.Machine
end

