-- ==== Sys2Proof/Machine/Mgmt.lean ====
section
/-! DEFINITION. The management controller's MCTP, PLDM and OEM commands, its sensors and their events (R423 to R429). Codes
of DSP0236 and DSP0240 that the spec names without a number are PRESUMED (log entry 60). -/

namespace Sys2Proof.Machine

/-! ## Who is answered (R423, R424, R433) -/

/-- An open session. -/
def sessionOf (r : MReq) (d : Dev) : Option Session := r.sess.bind (fun k => d.mc.sessions.find? (fun x => x.id == k))

/-- The MC's 7-bit slave address, from the straps as sampled at its start (R423, R510). -/
def slaveAddress (d : Dev) : Nat := 0x60 + d.pwr.straps % 8

/-- Does a message reach the MC whole (R423): at its slave address, in packets of the baseline transmission unit, each with the right error
code? -/
def delivered (r : MReq) (d : Dev) : Bool := r.addr == slaveAddress d && decide (r.unit ≤ 64) && r.pecOk

/-- The MCTP message type that a request of a kind travels under (R423): control 0, PLDM 1 and SPDM 5, and inside a session 6. -/
def typeOf (kind : Nat) (r : MReq) : Nat := if kind ≠ 0 ∧ r.sess.isSome then 6 else kind

/-- Does the MC answer a message (R423)? What does not reach it whole, or is of another message type, is discarded. Without an endpoint ID it answers
control messages to the null endpoint ID alone; a secured message needs its session. -/
def heard (kind : Nat) (r : MReq) (d : Dev) : Bool :=
  d.mc.up && delivered r d && r.typ == typeOf kind r && (decide (d.mc.eid ≠ 0) || (kind == 0 && r.toNull)) &&
    (r.sess.isNone || (sessionOf r d).isSome)

/-- A session carried a message (R433). -/
def touch (r : MReq) (d : Dev) : Dev :=
  { d with mc := { d.mc with sessions := d.mc.sessions.map (fun x => if r.sess = some x.id then { x with last := clock iodie d } else x) } }

/-- Does a request come inside an authorised session (R429, R434)? -/
def authorised (r : MReq) (d : Dev) : Bool := (sessionOf r d).any (fun x => x.authorised)

/-- An MCTP control message: answered where it is heard. -/
def mctp (r : MReq) (f : Dev → Dev) (s : State) : State :=
  { s with dev := if heard 0 r s.dev then f (touch r s.dev) else answer .silent s.dev }

/-- A PLDM request (R424): a fifth at once gets ERROR_NOT_READY; inside a session, its handshake must have ended; one that is not well formed gets
a base error code (R429), ERROR_INVALID_LENGTH: PRESUMED (log entry 60). -/
def pldm (r : MReq) (f : State → State) (s : State) : State :=
  if !heard 1 r s.dev || !((sessionOf r s.dev).map Session.finished).getD true then { s with dev := answer .silent s.dev }
  else if 4 ≤ r.held then { s with dev := answer (.pldm 4 none []) (touch r s.dev) }
  else if !r.formed then { s with dev := answer (.pldm 3 none []) (touch r s.dev) }
  else f { s with dev := touch r s.dev }

/-- A PLDM request that changes nothing beyond the MC. -/
def pldmDev (r : MReq) (f : Dev → Dev) (s : State) : State := pldm r (fun s => { s with dev := f s.dev }) s

/-- An OEM request that must come inside an authorised session (R429). -/
def pldmAuth (r : MReq) (f : State → State) (s : State) : State :=
  pldm r (fun s => if authorised r s.dev then f s else { s with dev := answer (.pldm 0 (some 3) []) s.dev }) s

/-- An OEM response without data. -/
def status (code : Nat) (d : Dev) : Dev := answer (.pldm 0 (some code) []) d

/-! ## MCTP control (R423) -/

/-- SET_ENDPOINT_ID. -/
def execSetEndpointId (r : MReq) (eid : Nat) (s : State) : Host.Outcome State Fault Refusal :=
  .next (mctp r (fun d =>
    if 8 ≤ eid ∧ eid ≤ 254 then answer (.mctp 0 [eid]) { d with mc := { d.mc with eid := eid } } else answer (.mctp 2 []) d) s)

/-- GET_ENDPOINT_ID. -/
def execGetEndpointId (r : MReq) (s : State) : Host.Outcome State Fault Refusal :=
  .next (mctp r (fun d => answer (.mctp 0 [d.mc.eid]) d) s)

/-- GET_ENDPOINT_UUID. -/
def execGetEndpointUuid (r : MReq) (s : State) : Host.Outcome State Fault Refusal :=
  .next (mctp r (fun d => answer (.mctp 0 ((Config.uuid s.flash.serial).map BitVec.toNat)) d) s)

/-- What Get MCTP Version Support answers: the base and control protocols at 1.3, the message types at their bindings'. -/
def mctpVersions (typ : Nat) : Option (List Nat) :=
  if typ = 0xFF ∨ typ = 0 then some [1, 3]
  else if typ = 1 ∨ typ = 5 ∨ typ = 6 then some (Config.versionOf (256 + typ))
  else none

/-- GET_MCTP_VERSION_SUPPORT. -/
def execGetMctpVersionSupport (r : MReq) (typ : Nat) (s : State) : Host.Outcome State Fault Refusal :=
  .next (mctp r (fun d => match mctpVersions typ with
    | some l => answer (.mctp 0 l) d
    | none => answer (.mctp 0x80 []) d) s)

/-- GET_MESSAGE_TYPE_SUPPORT. -/
def execGetMessageTypeSupport (r : MReq) (s : State) : Host.Outcome State Fault Refusal :=
  .next (mctp r (answer (.mctp 0 [1, 5, 6])) s)

/-! ## PLDM base (R428) -/

/-- SET_TID. -/
def execSetTid (r : MReq) (tid : Nat) (s : State) : Host.Outcome State Fault Refusal :=
  .next (pldmDev r (fun d =>
    if tid = 0 ∨ 255 ≤ tid then answer (.pldm 2 none []) d else answer (.pldm 0 none []) { d with mc := { d.mc with tid := tid } }) s)

/-- GET_TID. -/
def execGetTid (r : MReq) (s : State) : Host.Outcome State Fault Refusal :=
  .next (pldmDev r (fun d => answer (.pldm 0 none [d.mc.tid]) d) s)

/-- GET_PLDM_VERSION: type 2 is at 1.2 (R428). -/
def execGetPldmVersion (r : MReq) (typ : Nat) (s : State) : Host.Outcome State Fault Refusal :=
  .next (pldmDev r (answer (
    if typ = 2 then .pldm 0 none [1, 2]
    else if typ = 0 ∨ typ = 63 then .pldm 0 none (Config.versionOf typ)
    else .pldm 0x83 none [])) s)

/-- GET_PLDM_TYPES. -/
def execGetPldmTypes (r : MReq) (s : State) : Host.Outcome State Fault Refusal :=
  .next (pldmDev r (answer (.pldm 0 none [0, 2, 63])) s)

/-- The commands of a PLDM type (R428, R429, R472), those of types 0 and 2 under the numbers of DSP0240 and DSP0248. -/
def pldmCommands (typ : Nat) : Option (List Nat) :=
  match typ with
  | 0 => some [1, 2, 3, 4, 5]
  | 2 => some [0x04, 0x05, 0x0A, 0x11, 0x21, 0x50, 0x51]
  | 63 => some [0x01, 0x02, 0x03, 0x10, 0x11, 0x20, 0x21, 0x22, 0x23, 0x30, 0x31, 0x32, 0x33, 0x34, 0x35, 0x36]
  | _ => none

/-- GET_PLDM_COMMANDS. -/
def execGetPldmCommands (r : MReq) (typ : Nat) (s : State) : Host.Outcome State Fault Refusal :=
  .next (pldmDev r (answer (match pldmCommands typ with
    | some l => .pldm 0 none l
    | none => .pldm 0x83 none [])) s)

/-! ## Sensors (R425 to R427) -/

/-- The reading of a numeric sensor: those of the input voltage, the beat rates and the grants are the registers' (R425). -/
def sensorReading (id : Nat) (d : Dev) : Int :=
  if id = 46 then (getF .inputVoltage 0 0 15 0 d : Nat)
  else if 49 ≤ id ∧ id < 60 then (getF .paceRate (id - 49) 0 15 0 d : Nat)
  else if 60 ≤ id then (min 1023 (railAt (id - 60) d).granted : Nat)
  else Tab.getD d.mc.sensors id 0

/-- Is there a numeric sensor of the ID (R425)? -/
def isSensor (id : Nat) : Bool := decide (1 ≤ id ∧ id ≤ 70)

/-- The state code of a state sensor: laser unit 100 + u, DDR5 site 108 + s (R425). -/
def stateSensor (id : Nat) (d : Dev) : Option Nat :=
  if 100 ≤ id ∧ id < 108 then some (laserAt (id - 100) d).state
  else if 108 ≤ id ∧ id < 116 then some (siteAt (id - 108) d).state
  else none

/-- The upper thresholds of a sensor, warning, critical and fatal (R425, R518), temperatures in units of 0.25 °C. -/
def upperLimits (id : Nat) : List (Nat × Int) :=
  if id < 12 then [(0, 400), (1, 420), (2, 460)]
  else if id < 20 then [(0, 380), (1, 420), (2, 440)]
  else if id < 28 then [(0, 340), (1, 380), (2, 400)]
  else if id < 36 then [(0, 320), (1, 340), (2, 380)]
  else if id < 44 then [(0, (Config.laserLimit (id - 36)).1), (1, (Config.laserLimit (id - 36)).2)]
  else if id < 46 then [(0, 248), (1, 260)]
  else if id = 46 then [(0, 5800)]
  else if id = 48 then [(0, 1600)]
  else []

/-- The lower thresholds of a sensor (R425). -/
def lowerLimits (id : Nat) : List (Nat × Int) :=
  if id = 46 then [(3, 4400), (4, 4200), (5, 3800)]
  else if 49 ≤ id ∧ id < 60 then [(4, 1520)]
  else []

/-- The thresholds that a reading has reached, one bit each: upper warning, critical, fatal in bits 0 to 2, lower in 3 to 5. -/
def zoneOf (id : Nat) (v : Int) : Nat :=
  (((upperLimits id).filter (fun p => decide (p.2 ≤ v))) ++ ((lowerLimits id).filter (fun p => decide (v ≤ p.2)))).foldl
    (fun w p => w + 2 ^ p.1) 0

/-- What a crossing's event says: the threshold's bit, and in bit 3 whether it is reached. -/
def crossCode (k : Nat) (reached : Bool) : Nat := k + (if reached then 8 else 0)

/-- The MC samples a numeric sensor (R425): an event for each threshold crossed, in either direction (R427), and the time from
which a fatal threshold is held (R426). -/
def sensorSample (id : Nat) (value : Int) (d : Dev) : Dev :=
  if d.mc.up && isSensor id then
    let live := decide (id = 46 ∨ 49 ≤ id)
    let v := if live then sensorReading id d else value
    let old := Tab.getD d.mc.zones id 0
    let z := zoneOf id v
    let fatal := bitOf z 2 && decide (id < 36)
    let held := Tab.getD d.mc.fatalSince id (clock iodie d)
    let m := { d.mc with
      sensors := Tab.set d.mc.sensors id v, zones := Tab.set d.mc.zones id z,
      fatalSince := if fatal then Tab.set d.mc.fatalSince id held else Tab.erase d.mc.fatalSince id }
    each ((List.range 6).filter (fun k => bitOf old k != bitOf z k))
      (fun k => sendEvent (some id) (crossCode k (bitOf z k)) 0) { d with mc := m }
  else d

/-- SENSOR_SAMPLE. -/
def execSensorSample (id : Nat) (value : Int) (s : State) : Host.Outcome State Fault Refusal :=
  .next { s with dev := sensorSample id value s.dev }

/-- GET_SENSOR_READING: the reading and the thresholds reached. -/
def execGetSensorReading (r : MReq) (id : Nat) (s : State) : Host.Outcome State Fault Refusal :=
  .next (pldmDev r (fun d =>
    if isSensor id then answer (.pldm 0 none [unsignedOf 32 (sensorReading id d), Tab.getD d.mc.zones id 0]) d
    else answer (.pldm 0x80 none []) d) s)

/-- GET_STATE_SENSOR_READINGS. -/
def execGetStateSensorReadings (r : MReq) (id : Nat) (s : State) : Host.Outcome State Fault Refusal :=
  .next (pldmDev r (fun d => match stateSensor id d with
    | some x => answer (.pldm 0 none [x]) d
    | none => answer (.pldm 0x80 none []) d) s)

/-- GET_PDR_REPOSITORY_INFO: the spec does not give the repository's contents. -/
def execGetPdrRepositoryInfo (r : MReq) (s : State) : Host.Outcome State Fault Refusal :=
  .next (pldmDev r (answer (.pldmBytes 0 none Config.pdrInfo)) s)

/-- GET_PDR. -/
def execGetPdr (r : MReq) (handle : Nat) (s : State) : Host.Outcome State Fault Refusal :=
  .next (pldmDev r (answer (match Config.pdr handle with
    | some l => .pldmBytes 0 none l
    | none => .pldm 0x82 none [])) s)

/-- SET_EVENT_RECEIVER. -/
def execSetEventReceiver (r : MReq) (dest : Option Nat) (s : State) : Host.Outcome State Fault Refusal :=
  .next (pldmDev r (fun d => answer (.pldm 0 none []) { d with mc := { d.mc with receiver := dest } }) s)

/-- GET_EVENT_RECEIVER. -/
def execGetEventReceiver (r : MReq) (s : State) : Host.Outcome State Fault Refusal :=
  .next (pldmDev r (fun d => answer (.pldm 0 none d.mc.receiver.toList) d) s)

/-! ## OEM commands (R429, R434, R442) -/

/-- READ_COUNTER: the extended counter and its INEXACT mark; a port or an index that R351 does not define gets LENGTH. -/
def execReadCounter (r : MReq) (port idx : Nat) (s : State) : Host.Outcome State Fault Refusal :=
  .next (pldmDev r (fun d =>
    if port < 32 ∧ idx < 12 then
      let p := portAt port d
      answer (.pldmBytes 0 (some 0) (natLE 8 (Tab.getD p.ext idx 0) ++ natLE 1 (if p.inexact.contains idx then 1 else 0))) d
    else status 6 d) s)

/-- READ_LOG. -/
def execReadLog (r : MReq) (idx : Nat) (s : State) : Host.Outcome State Fault Refusal :=
  .next (pldmDev r (fun d =>
    if idx < 65536 then answer (.pldmBytes 0 (some 0) (slotBytes s.flash idx ++ natLE 4 (logStatusWord d))) d else status 6 d) s)

/-- READ_LOG_STATUS. -/
def execReadLogStatus (r : MReq) (s : State) : Host.Outcome State Fault Refusal :=
  .next (pldmDev r (fun d =>
    answer (.pldmBytes 0 (some 0) (natLE 4 (logStatusWord d) ++ natLE 4 d.mc.dropped ++ natLE 4 d.mc.boot)) d) s)

/-- CLEAR_LOG (R442): answered at once, then it runs; another while it runs gets ADMISSION_REFUSED. -/
def execClearLog (r : MReq) (s : State) : Host.Outcome State Fault Refusal :=
  .next (pldmAuth r (fun s =>
    let d := s.dev
    { s with dev := if d.mc.clearing then status 0xE d else status 0 { d with mc := { d.mc with clearing := true } } }) s)

/-- The wrapping key is sealed in flash under the PUF secret (R429, R430), and slot 1 is LOADED; without the secret nothing can be sealed. -/
def loadWrappingKey (key : BitVec 256) (s : State) : State :=
  match s.dev.mc.secret with
  | none => { s with dev := status 0xF s.dev }
  | some x =>
    let f := { s.flash with wrapKey := some ⟨x, key⟩ }
    { s with flash := f, dev := status 0 (countLoad 1 (logEv 11 0 0x0A 7 [1] s.dev)) }

/-- LOAD_WRAPPING_KEY (R429). -/
def execLoadWrappingKey (r : MReq) (key : BitVec 256) (s : State) : Host.Outcome State Fault Refusal :=
  .next (pldmAuth r (loadWrappingKey key) s)

/-- ERASE_WRAPPING_KEY (R429). -/
def execEraseWrappingKey (r : MReq) (s : State) : Host.Outcome State Fault Refusal :=
  .next (pldmAuth r (fun s =>
    let f := { s.flash with wrapKey := none }
    { s with flash := f, dev := status 0 (logEv 11 0 0x0A 7 [2] s.dev) }) s)

/-- REPLACE_ANCHOR (R434): it takes effect for sessions whose FINISH is verified later. -/
def execReplaceAnchor (r : MReq) (digest : BitVec 256) (s : State) : Host.Outcome State Fault Refusal :=
  .next (pldmAuth r (fun s =>
    let f := { s.flash with anchor := digest }
    { s with flash := f, dev := status 0 (logEv 11 0 0x0A 6 ((digestBytes digest).take 8) s.dev) }) s)

end Sys2Proof.Machine
end

