-- ==== Sys2Proof/Machine/Spdm.lean ====
section
/-! DEFINITION. SPDM: identity, measurements and sessions (R430 to R436). Response and error codes and capability bits are
those of DSP0274, which the spec names without their numbers: PRESUMED (log entry 61). -/

namespace Sys2Proof.Machine

/-- An SPDM request (R423, R424): answered where it is heard; a fifth at once gets Busy. -/
def spdm (r : MReq) (f : Dev → Dev) (s : State) : State :=
  { s with
    dev :=
    if !heard 5 r s.dev then answer .silent s.dev
    else if 4 ≤ r.held then answer (.spdmError 3) (touch r s.dev)
    else f (touch r s.dev) }

/-- An SPDM response: what follows its version and code. -/
def spdmOk (name : Nat) (data : List Byte) (d : Dev) : Dev := answer (.spdm name data) d

/-- An SPDM ERROR response. -/
def spdmErr (code : Nat) (d : Dev) : Dev := answer (.spdmError code) d

/-- A request that needs negotiated algorithms: an earlier one gets UnexpectedRequest. -/
def negotiatedOnly (f : Dev → Dev) (d : Dev) : Dev := if d.mc.negotiated then f d else spdmErr 4 d

/-- A request that needs the identity key (R432): where identity failed it gets Unspecified. -/
def identityOnly (f : Dev → Dev) (d : Dev) : Dev := if d.mc.identityFail = 0 then f d else spdmErr 5 d

/-- A request that version 1.0 does not define (R433): under it, it gets UnsupportedRequest. -/
def fromOne (f : Dev → Dev) (d : Dev) : Dev := if d.mc.version = 0x10 then spdmErr 7 d else f d

/-- The bytes of a message of the version in force. -/
def spdmMsg (code : Nat) (body : List Byte) (d : Dev) : List Byte := natLE 1 d.mc.version ++ natLE 1 code ++ body

/-- What the responder draws for a message (R433): free bytes. -/
def spdmDraw (n : Nat) (d : Dev) : List Byte × Dev := (((Config.spdmBytes d.free n).take n ++ List.replicate n 0).take n, { d with free := d.free + 1 })

/-- Messages join the transcript of the version, capabilities and algorithms exchange. -/
def addVca (l : List Byte) (d : Dev) : Dev := { d with mc := { d.mc with vca := d.mc.vca ++ l } }

/-- Messages join the transcript of digests and certificates. -/
def addMsgB (l : List Byte) (d : Dev) : Dev := { d with mc := { d.mc with msgB := d.mc.msgB ++ l } }

/-- A signature with the identity key, which is derived from the PUF secret (R430), over a transcript. -/
def sign (l : List Byte) (d : Dev) : List Byte :=
  match d.mc.secret with
  | some x => Config.signature (Config.identityPrivate x) l
  | none => []

/-! ## Version, capabilities, algorithms (R433) -/

/-- The body of VERSION: versions 1.0, 1.1 and 1.2. -/
def versionBody : List Byte := [0, 0, 0, 3, 0, 0x10, 0, 0x11, 0, 0x12]

/-- GET_VERSION: negotiation and the transcripts begin anew. -/
def execGetVersion (r : MReq) (s : State) : Host.Outcome State Fault Refusal :=
  .next (spdm r (fun d => spdmOk 0x04 versionBody
    { d with mc := { d.mc with
        version := 0, negotiated := false, vca := r.raw ++ [0x10, 0x04] ++ versionBody, msgB := [], msgL := [] } }) s)

/-- The capability flags that a version defines (R433). -/
def capabilityFlags (version : Nat) : Nat := if version = 0x10 then 0x16 else 0x73D6

/-- The body of CAPABILITIES: CTExponent 17 and the flags; version 1.2 adds the sizes of transfers and messages, which the spec does not
give. -/
def capabilityBody (version : Nat) (sizes : List Byte) : List Byte :=
  [0, 0, 0, 17, 0, 0] ++ natLE 4 (capabilityFlags version) ++ (if version = 0x12 then sizes else [])

/-- GET_CAPABILITIES: it selects the version. -/
def getCapabilities (raw : List Byte) (version : Nat) (d : Dev) : Dev :=
  let sizes := spdmDraw 8 d
  let d1 := { sizes.2 with mc := { sizes.2.mc with version := version, negotiated := false } }
  let body := capabilityBody version sizes.1
  spdmOk 0x61 body (addVca (raw ++ spdmMsg 0x61 body d1) d1)

/-- GET_CAPABILITIES. -/
def execGetCapabilities (r : MReq) (version : Nat) (s : State) : Host.Outcome State Fault Refusal :=
  .next (spdm r (fun d =>
    if version = 0x10 ∨ version = 0x11 ∨ version = 0x12 then getCapabilities r.raw version d else spdmErr 0x41 d) s)

/-- The body of ALGORITHMS (R433): DMTF measurements with SHA-256, RSAPSS-3072 and SHA-256, and from version 1.1 on secp384r1, AES-256-GCM,
RSAPSS-3072 of the requester and the SPDM key schedule. -/
def algorithmsBody (version : Nat) : List Byte :=
  let more : List Byte := if version = 0x10 then [] else
    [2, 0x20, 0x10, 0, 3, 0x20, 2, 0, 4, 0x20, 8, 0, 5, 0x20, 1, 0]
  natLE 1 (more.length / 4) ++ [0] ++ natLE 2 (36 + more.length) ++ [1, 0] ++ natLE 4 2 ++ natLE 4 8 ++ natLE 4 1 ++
    List.replicate 16 0 ++ more

/-- NEGOTIATE_ALGORITHMS: the algorithms supported, where the requester offers them. -/
def execNegotiateAlgorithms (r : MReq) (ok : Bool) (s : State) : Host.Outcome State Fault Refusal :=
  .next (spdm r (fun d =>
    if d.mc.version = 0 then spdmErr 4 d
    else if ok then
      let body := algorithmsBody d.mc.version
      spdmOk 0x63 body (addVca (r.raw ++ spdmMsg 0x63 body d) { d with mc := { d.mc with negotiated := true } })
    else spdmErr 1 d) s)

/-! ## Identity (R431, R432, R433) -/

/-- The certificate chain of slot 0 as DSP0274 lays it out: its length, the digest of the root certificate, the certificates. -/
def chainBytes (f : Flash) : List Byte :=
  let l := f.chain.flatMap Cert.der
  natLE 2 (36 + l.length) ++ [0, 0] ++ digestBytes (sha256 ((f.chain.head?.map Cert.der).getD [])) ++ l

/-- GET_DIGESTS: slot 0 alone holds a chain. -/
def execGetDigests (r : MReq) (s : State) : Host.Outcome State Fault Refusal :=
  .next (spdm r (negotiatedOnly (fun d =>
    let body := [0, 1] ++ digestBytes (sha256 (chainBytes s.flash))
    spdmOk 0x01 body (addMsgB (r.raw ++ spdmMsg 0x01 body d) d))) s)

/-- The body of CERTIFICATE: a part of the chain, and how many bytes follow it. -/
def certificateBody (chain : List Byte) (off len : Nat) : List Byte :=
  let part := (chain.drop off).take len
  [0, 0] ++ natLE 2 part.length ++ natLE 2 (chain.length - off - part.length) ++ part

/-- GET_CERTIFICATE: a part of the chain of slot 0; slots 1 to 7 are empty. -/
def execGetCertificate (r : MReq) (slot off len : Nat) (s : State) : Host.Outcome State Fault Refusal :=
  .next (spdm r (identityOnly (negotiatedOnly (fun d =>
    let chain := chainBytes s.flash
    if slot ≠ 0 ∨ chain.length ≤ off then spdmErr 1 d
    else
      let body := certificateBody chain off len
      spdmOk 0x02 body (addMsgB (r.raw ++ spdmMsg 0x02 body d) d)))) s)

/-- The answer to CHALLENGE: the digest of the chain, a nonce, and the signature over the transcript, which then begins anew. -/
def challengeAuth (f : Flash) (nonce : Nat) (d : Dev) : Dev :=
  let n := spdmDraw 32 d
  let body := [0, 1] ++ digestBytes (sha256 (chainBytes f)) ++ n.1 ++ [0, 0]
  let m := d.mc.vca ++ d.mc.msgB ++ spdmMsg 0x83 ([0, 0] ++ natLE 32 nonce) d ++ spdmMsg 0x03 body d
  spdmOk 0x03 (body ++ sign m d) { n.2 with mc := { n.2.mc with msgB := [] } }

/-- CHALLENGE. -/
def execChallenge (r : MReq) (slot nonce : Nat) (s : State) : Host.Outcome State Fault Refusal :=
  .next (spdm r (identityOnly (negotiatedOnly (fun d =>
    if slot ≠ 0 then spdmErr 1 d else challengeAuth s.flash nonce d))) s)

/-- The DMTF value type of a measurement (R435). -/
def measureType (k : Nat) : Nat := if k = 1 then 0x80 else if k ≤ 4 then 0x01 else 0x03

/-- The measurement blocks of an index (R435): none for 0, one, or all six; index, value type, value. -/
def measuresOf (idx : Nat) (d : Dev) : Option (List (Nat × Nat × List Byte)) :=
  let block := fun k => (k, measureType k, d.mc.measures.getD (k - 1) [])
  if idx = 0 then some []
  else if idx = 0xFF then some ((List.range 6).map (fun k => block (k + 1)))
  else if idx ≤ 6 then some [block idx]
  else none

/-- A measurement block as DSP0274 lays it out. -/
def blockBytes (b : Nat × Nat × List Byte) : List Byte :=
  natLE 1 b.1 ++ [1] ++ natLE 2 (3 + b.2.2.length) ++ natLE 1 b.2.1 ++ natLE 2 b.2.2.length ++ b.2.2

/-- The body of MEASUREMENTS before its signature; for index 0 its first byte is the count. -/
def measuresBody (idx : Nat) (l : List (Nat × Nat × List Byte)) (nonce : List Byte) : List Byte :=
  let rec_ := l.flatMap blockBytes
  [if idx = 0 then 6 else 0, 0] ++ natLE 1 l.length ++ natLE 3 rec_.length ++ rec_ ++ nonce ++ [0, 0]

/-- The answer to GET_MEASUREMENTS (R435, R436): one snapshot of the values asked for, or for index 0 the count; where it is asked for, signed over
the transcript, which then begins anew. -/
def answerMeasures (idx : Nat) (signed : Bool) (nonce : Nat) (d : Dev) : Dev :=
  match measuresOf idx d with
  | none => spdmErr 1 d
  | some l =>
    let n := spdmDraw 32 d
    let ask := spdmMsg 0xE0 (natLE 1 (if signed then 1 else 0) ++ natLE 1 idx ++ (if signed then natLE 32 nonce ++ [0] else [])) d
    let m := d.mc.msgL ++ ask ++ spdmMsg 0x60 (measuresBody idx l n.1) d
    let d1 := { n.2 with mc := { n.2.mc with msgL := if signed then [] else m } }
    spdmOk 0x60 (measuresBody idx l n.1 ++ (if signed then sign ((if d.mc.version = 0x12 then d.mc.vca else []) ++ m) d else [])) d1

/-- GET_MEASUREMENTS (R435, R436). -/
def execGetMeasurements (r : MReq) (idx : Nat) (signed : Bool) (nonce : Nat) (s : State) : Host.Outcome State Fault Refusal :=
  .next (spdm r (if signed then identityOnly (negotiatedOnly (answerMeasures idx signed nonce))
    else negotiatedOnly (answerMeasures idx signed nonce)) s)

/-! ## Sessions (R433, R434) -/

/-- Changes an open session. -/
def updSession (k : Nat) (f : Session → Session) (d : Dev) : Dev :=
  { d with mc := { d.mc with sessions := d.mc.sessions.map (fun x => if x.id = k then f x else x) } }

/-- A session ends. -/
def dropSession (k : Nat) (d : Dev) : Dev :=
  { d with mc := { d.mc with sessions := d.mc.sessions.filter (fun x => x.id != k) } }

/-- A session opens (R433, R434): KEY_EXCHANGE_RSP carries the heartbeat period of 10 s, the session's number, whether mutual authentication is
asked for through encapsulated requests, what the responder draws, its signature over the transcript, and the HMAC that verifies it. -/
def openSession (f : Flash) (raw : List Byte) (mutAuth : Bool) (d : Dev) : Dev :=
  let x : Session := { id := d.mc.nextSess, mutAsked := mutAuth, chain := none, chainOk := false, finished := false,
                       authorised := false, last := clock iodie d, keyEpoch := 0 }
  let n := spdmDraw 128 d
  let h := spdmDraw 32 n.2
  let body := [10, 0] ++ natLE 2 x.id ++ [if mutAuth then 2 else 0, 0] ++ n.1 ++ [0, 0]
  let m := d.mc.vca ++ digestBytes (sha256 (chainBytes f)) ++ raw ++ spdmMsg 0x64 body d
  spdmOk 0x64 (body ++ sign m d ++ h.1)
    { h.2 with mc := { h.2.mc with sessions := d.mc.sessions ++ [x], nextSess := d.mc.nextSess + 1 } }

/-- KEY_EXCHANGE: at most two sessions are open; version 1.0 does not define it. -/
def execKeyExchange (r : MReq) (mutAuth : Bool) (s : State) : Host.Outcome State Fault Refusal :=
  .next (spdm r (identityOnly (negotiatedOnly (fromOne (fun d =>
    if 2 ≤ d.mc.sessions.length then spdmErr 0x0A d
    else openSession s.flash r.raw mutAuth d)))) s)

/-- A request about an open session. -/
def inSession (k : Nat) (ok : Session → Bool) (f : Session → Dev → Dev) (d : Dev) : Dev :=
  match d.mc.sessions.find? (fun x => x.id == k) with
  | some x => if ok x then f x d else spdmErr 4 d
  | none => spdmErr 1 d

/-- FINISH (R434): the handshake ends, and the session is authorised where the MC asked for mutual authentication and the
requester's chain verifies up to the anchor in force. -/
def execFinish (r : MReq) (sess : Nat) (macOk : Bool) (s : State) : Host.Outcome State Fault Refusal :=
  .next (spdm r (fromOne (inSession sess (fun x => !x.finished) (fun x d =>
    if macOk then
      let auth := x.mutAsked && x.chainOk && decide (x.chain = some s.flash.anchor)
      spdmOk 0x65 [0, 0] (updSession sess (fun x => { x with finished := true, authorised := auth, last := clock iodie d }) d)
    else spdmErr 6 (dropSession sess d)))) s)

/-- The session that secures a request. -/
def ownSession (r : MReq) (f : Session → Dev → Dev) (d : Dev) : Dev :=
  match r.sess with
  | some k => inSession k (fun x => x.finished) f d
  | none => spdmErr 4 d

/-- HEARTBEAT. -/
def execHeartbeat (r : MReq) (s : State) : Host.Outcome State Fault Refusal :=
  .next (spdm r (fromOne (ownSession r (fun _ d => spdmOk 0x68 [0, 0] d))) s)

/-- KEY_UPDATE. -/
def execKeyUpdate (r : MReq) (s : State) : Host.Outcome State Fault Refusal :=
  .next (spdm r (fromOne (ownSession r (fun x d =>
    spdmOk 0x69 ((r.raw.drop 2).take 2) (updSession x.id (fun x => { x with keyEpoch := x.keyEpoch + 1 }) d)))) s)

/-- END_SESSION. -/
def execEndSession (r : MReq) (s : State) : Host.Outcome State Fault Refusal :=
  .next (spdm r (fromOne (ownSession r (fun x d => spdmOk 0x6C [0, 0] (dropSession x.id d)))) s)

/-- GET_ENCAPSULATED_REQUEST: the MC asks for the requester's chain where it asked for mutual authentication. -/
def execGetEncapsulatedRequest (r : MReq) (s : State) : Host.Outcome State Fault Refusal :=
  .next (spdm r (fromOne (fun d => match r.sess with
    | some k => inSession k (fun x => x.mutAsked && !x.finished && x.chain.isNone)
        (fun _ d => spdmOk 0x6A ([1, 0] ++ spdmMsg 0x82 [0, 0, 0, 0, 0xFF, 0xFF] d) d) d
    | none => spdmErr 4 d)) s)

/-- DELIVER_ENCAPSULATED_RESPONSE: the digest of the chain's root key, and whether the chain verifies. -/
def execDeliverEncapsulatedResponse (r : MReq) (sess : Nat) (root : BitVec 256) (verifies : Bool) (s : State) :
    Host.Outcome State Fault Refusal :=
  .next (spdm r (fromOne (inSession sess (fun x => x.mutAsked && !x.finished) (fun _ d =>
    spdmOk 0x6B [0, 0] (updSession sess (fun x => { x with chain := some root, chainOk := verifies, last := clock iodie d }) d)))) s)

/-- A session without a message for 20 s ends (R433). -/
def sessionIdle (k : Nat) (d : Dev) : Dev :=
  if d.mc.sessions.any (fun x => x.id == k && decide (x.last + msec 20000 ≤ clock iodie d)) then dropSession k d else d

/-- SESSION_IDLE_TIMEOUT. -/
def execSessionIdleTimeout (sess : Nat) (s : State) : Host.Outcome State Fault Refusal :=
  .next { s with dev := sessionIdle sess s.dev }

end Sys2Proof.Machine
end

