-- ==== Sys2Proof/Machine/Update.lean ====
section
/-! DEFINITION. Firmware update (R446 to R474): the lease, packages and deltas, verification, arming, handover, coordinated
activation, commit and fallback. STATE is coded as UPDATE_STATUS codes it. -/

namespace Sys2Proof.Machine

/-! ## Status words (R473) -/

/-- UPDATE_STATUS. -/
def updateStatusWord (d : Dev) : Nat :=
  let u := d.upd
  u.holder % 4 * 2 ^ 30 + u.state % 16 * 2 ^ 26 + (if u.result.isSome then 2 ^ 24 else 0) +
    u.result.getD 0 % 256 * 2 ^ 16 + u.lease % 65536

/-- BANK_STATUS. -/
def bankStatusWord (s : State) : Nat :=
  s.flash.active % 2 * 2 ^ 31 + (bankAt 0 s.flash).state % 16 * 2 ^ 24 + (bankAt 1 s.flash).state % 16 * 2 ^ 20 +
    (if s.dev.upd.settingsIgnored then 2 ^ 16 else 0) + ((runningImage s.flash).map Image.fmt).getD 0 % 65536

/-- Changes what the device knows of the update. -/
def updUpd (f : Update → Update) (s : State) : State :=
  let u := f s.dev.upd
  { s with dev := { s.dev with upd := u } }

/-- The outcome of the last command or step (R473). -/
def setResult (r : Option Nat) (detail : Nat) (s : State) : State := updUpd (fun u => { u with result := r, detail := detail }) s

/-! ## The lease (R454, R474) -/

/-- The code of a source in HOLDER. -/
def holderOf (src : UpdSrc) : Nat :=
  match src with
  | .platform _ => 1
  | .manager => 2

/-- The answer to an update command: the platform's STATUS, the manager's RESULT. -/
def updAnswer (src : UpdSrc) (code : Nat) (s : State) : State :=
  match src with
  | .platform _ => { s with dev := status code s.dev }
  | .manager => setResult (some code) 0 s

/-- The lease ends (R454): in STAGING or VERIFYING what was written becomes EMPTY; a bank that was armed stays VERIFIED, and the standby
cores return to the running firmware. -/
def endLease (s : State) : State :=
  let u := s.dev.upd
  let u1 := { u with holder := 0, state := 0, lease := 0, staging := none, pulling := none, heldTo := none, oldShape := none,
                     newStore := none, pairs := 0, actStep := 0, commitStep := 0 }
  let d1 := imageIdle { s.dev with upd := u1 }
  { s with
    flash := if u.state = 2 ∨ u.state = 3 then emptyBank u s.flash else s.flash,
    dev := when_ (decide (u.state = 5 ∨ u.state = 6)) standbyBack d1 }

/-- Has the lease run out: 60 s after the last command in LEASED, STAGING or VERIFIED, 600 s after arming in ARMED? -/
def leaseOver (d : Dev) : Bool :=
  let u := d.upd
  if u.state = 1 ∨ u.state = 2 ∨ u.state = 4 then decide (u.lastCmd + msec 60000 ≤ clock iodie d)
  else if u.state = 6 then decide (u.armedAt + msec 600000 ≤ clock iodie d)
  else false

/-- The limits of R454 take effect before a command that meets them (R474). -/
def expireLease (s : State) : State := if leaseOver s.dev then endLease s else s

/-- LEASE_TIMEOUT. -/
def execLeaseTimeout (s : State) : Host.Outcome State Fault Refusal := .next (expireLease s)

/-- An update command reaches the MC: the platform's inside an authorised session (R429), the manager's through UPDATE_CMD. -/
def fromSource (src : UpdSrc) (f : State → State) (s : State) : State :=
  match src with
  | .platform r => pldmAuth r (fun s => f (expireLease s)) s
  | .manager =>
    if !s.dev.start.ready then { s with dev := countErr 5 0xFF (addrOf .updateCmd 0 0) 4 true s.dev }
    else if linkOpen s.dev then f (expireLease s) else s

/-- A command of the lease's holder has come, answered as it may be (R454). -/
def holderSpoke (src : UpdSrc) (s : State) : State :=
  updUpd (fun u => if u.holder = holderOf src then { u with lastCmd := clock iodie s.dev } else u) s

/-- A command other than LEASE_TAKE (R454, R472): it needs the lease, its LEASE_ID where it carries one, and a state that allows it. -/
def leased (src : UpdSrc) (lease : Option Nat) (ok : State → Bool) (f : State → State) (s : State) : State :=
  fromSource src (fun s0 =>
    let s := holderSpoke src s0
    let u := s.dev.upd
    if u.holder = 0 then updAnswer src 3 s
    else if u.holder ≠ holderOf src then updAnswer src 0x11 s
    else if decide (holderOf src = 1) && lease.any (fun l => l != u.lease) then updAnswer src 3 s
    else if ok s then f s else updAnswer src 0xE s) s

/-- The next LEASE_ID: it changes at every grant and is never zero. -/
def nextLease (last : Nat) : Nat := if 65535 ≤ last then 1 else last + 1

/-- The lease is granted. -/
def grantLease (src : UpdSrc) (s : State) : State :=
  let l := nextLease s.dev.upd.lastLease
  let s1 := updUpd (fun u => { u with holder := holderOf src, state := 1, lease := l, lastLease := l, lastCmd := clock iodie s.dev,
                                      result := some 0, detail := 0 }) s
  match src with
  | .platform _ => { s1 with dev := answer (.pldmBytes 0 (some 0) (natLE 2 l)) s1.dev }
  | .manager => s1

/-- LEASE_TAKE (R454): the holder's own is a command that the state does not allow (R472). -/
def leaseTake (src : UpdSrc) (s : State) : State :=
  fromSource src (fun s =>
    if s.dev.upd.holder = 0 then grantLease src s
    else updAnswer src (if s.dev.upd.holder ≠ holderOf src then 0x11 else 0xE) (holderSpoke src s)) s

/-- LEASE_TAKE. -/
def execLeaseTake (src : UpdSrc) (s : State) : Host.Outcome State Fault Refusal :=
  overLink (isManager src) (.leaseTake src) (fun s => .next (leaseTake src s)) s

/-- LEASE_RELEASE (R454): refused in ARMING, ACTIVATING, TRIAL and FALLING_BACK. -/
def leaseRelease (src : UpdSrc) (lease : Nat) (s : State) : State :=
  leased src (some lease) (fun s => decide (s.dev.upd.state ≤ 4 ∨ s.dev.upd.state = 6))
    (fun s => updAnswer src 0 (setResult (some 0) 0 (endLease s))) s

/-- LEASE_RELEASE. -/
def execLeaseRelease (src : UpdSrc) (lease : Nat) (s : State) : Host.Outcome State Fault Refusal :=
  overLink (isManager src) (.leaseRelease src lease) (fun s => .next (leaseRelease src lease s)) s

/-! ## Packages (R455 to R457) -/

/-- The KIND of a package header. -/
def kindOf (h : List Byte) : Nat := fieldLE h 6 1

/-- The length of the settings block that a header announces. -/
def setLenOf (h : List Byte) : Nat := if bitOf (fieldLE h 7 1) 0 then fieldLE h 84 4 else 0

/-- What is wrong with a package header, as R457 answers it. -/
def headerFault (h : List Byte) (run : Option Image) : Option Nat :=
  let set := bitOf (fieldLE h 7 1) 0
  if h.take 4 ≠ [0x54, 0x50, 0x4B, 0x47] ∨ fieldLE h 4 2 ≠ 1 ∨ 2 < kindOf h ∨ 1 < fieldLE h 7 1 ∨
     134217728 < fieldLE h 8 4 ∨ fieldLE h 12 4 = 0 ∨ 64 < fieldLE h 12 4 ∨ (h.drop 88).any (fun b => b != 0) ∨
     (if set then fieldLE h 84 4 < 64 ∨ 1048576 < fieldLE h 84 4 else fieldLE h 84 4 ≠ 0) then some 6
  else if kindOf h = 0 ∧ (run.map Image.digest).map digestBytes ≠ some ((h.drop 20).take 32) then some 3
  else none

/-- A staging that begins over a bank in a state. -/
def Staging.start (prior : Nat) : Staging :=
  { bytes := 0, buf := [], header := none, segs := 0, stream := [], off := 0, front := [], out := [], outLen := 0, fresh := [], done := 0,
    setBytes := [], prior := prior }

/-- The target length of a staging. -/
def Staging.target (st : Staging) : Nat := fieldLE (st.header.getD []) 8 4

/-- What a staging works with: the image key, where slot 0 holds it, the serial number and the bank write count of its storage IVs
(R448), and the plaintext of the running image (R456). -/
structure Works where
  key    : Option (BitVec 256)
  serial : Nat
  writes : Nat
  run    : Option Image
  base   : Nat → Nat → List Byte

/-- Bytes of the new image are written (R456). -/
def Staging.put (l : List Byte) (st : Staging) : Staging :=
  { st with front := (st.front ++ l).take 4096, out := st.out ++ l, outLen := st.outLen + l.length }

/-- Units whose plaintext is whole are encrypted, to be programmed (R448, R457). -/
def Staging.cut (key : BitVec 256) (serial writes : Nat) : Nat → Staging → Staging
  | 0, st => st
  | n + 1, st =>
    if st.front.length < min 4096 st.target then st
    else
      let ends := imageCuts st.front st.target
      match ends[st.done]? with
      | none => st
      | some e =>
        let len := e - (if st.done = 0 then 0 else ends.getD (st.done - 1) 0)
        if st.out.length < len then st
        else Staging.cut key serial writes n { st with
          fresh := st.fresh ++ [sealUnit key serial writes st.done (st.out.take len)], out := st.out.drop len, done := st.done + 1 }

/-- The records at the front of the plaintext are applied (R456): a record that is not there whole waits, and what follows the delta
stream is the settings block. An error is LENGTH with the offset of the record. -/
def applyRecords (w : Works) (key : BitVec 256) : Nat → Staging → Except Nat Staging
  | 0, st => .ok st
  | n + 1, st =>
    let h := st.header.getD []
    let len := fieldLE st.stream 4 4
    let op := fieldLE st.stream 0 4
    let src := fieldLE st.stream 8 8
    let next := fun (k : Nat) (l : List Byte) =>
      applyRecords w key n (Staging.cut key w.serial w.writes 64
        { st.put l with stream := st.stream.drop k, off := st.off + k })
    if st.outLen = st.target then
      if setLenOf h < st.setBytes.length + st.stream.length then .error st.off
      else .ok { st with setBytes := st.setBytes ++ st.stream, stream := [] }
    else if st.stream.length < 8 then .ok st
    else if len = 0 ∨ st.target < st.outLen + len then .error st.off
    else if op = 1 ∧ kindOf h = 0 then
      if st.stream.length < 16 then .ok st
      else if (w.run.map Image.length).getD 0 < src + len then .error st.off
      else next 16 (w.base src len)
    else if op = 2 then
      if st.stream.length < 8 + len then .ok st else next (8 + len) ((st.stream.drop 8).take len)
    else .error st.off

/-- Why a package is refused: the status, UPDATE_DETAIL, and what CIPHER_STATS_2 counts: 1 a tag that failed, 2 no key (R421, R457). -/
structure Refused where
  status : Nat
  detail : Nat
  stat   : Nat
  deriving DecidableEq, Repr

/-- The next part of a package: its header, or a whole segment; none where more bytes are needed. A segment's IV begins with 0x54 (R455); what
slot 0 EMPTY makes of a segment is that of R413. -/
def feedPart (w : Works) (st : Staging) : Except Refused (Option Staging) :=
  match st.header with
  | none =>
    if st.buf.length < 256 then .ok none
    else
      match headerFault (st.buf.take 256) w.run with
      | some c => .error ⟨c, 0, 0⟩
      | none => .ok (some { st with header := some (st.buf.take 256), buf := st.buf.drop 256 })
  | some h =>
    let sh := st.buf.take 32
    let n := fieldLE sh 4 4
    if st.segs = fieldLE h 12 4 then if st.buf.isEmpty then .ok none else .error ⟨6, 0, 0⟩
    else if st.buf.length < 32 then .ok none
    else if fieldLE sh 0 4 ≠ st.segs ∨ n = 0 ∨ 16777216 < n ∨ fieldLE sh 8 1 ≠ 0x54 ∨ (sh.drop 20).any (fun b => b != 0) then .error ⟨6, 0, 0⟩
    else if st.buf.length < 48 + n then .ok none
    else
      match w.key with
      | none => .error ⟨3, 0, 2⟩
      | some key =>
        match gcmOpen key ((sh.drop 8).take 12) (h ++ sh) ((st.buf.drop 32).take (n + 16)) with
        | none => .error ⟨7, 0, 1⟩
        | some pt =>
          let s1 := { st with buf := st.buf.drop (48 + n), segs := st.segs + 1, stream := st.stream ++ pt }
          match applyRecords w key (s1.stream.length + 1) s1 with
          | .ok s2 => .ok (some s2)
          | .error off => .error ⟨6, off, 0⟩

/-- Every part that has arrived whole. -/
def feedAll (w : Works) : Nat → Staging → Except Refused Staging
  | 0, st => .ok st
  | n + 1, st =>
    match feedPart w st with
    | .error e => .error e
    | .ok none => .ok st
    | .ok (some s1) => feedAll w n s1

/-- Is a package whole: every segment, the target length, and the settings block? -/
def Staging.whole (st : Staging) : Bool :=
  match st.header with
  | none => false
  | some h => decide (st.segs = fieldLE h 12 4 ∧ st.outLen = st.target ∧ st.setBytes.length = setLenOf h) && st.stream.isEmpty &&
      st.buf.isEmpty

/-- The image that runs, where the active bank's did not fail at start-up (R453). -/
def baseImage (f : Flash) : Option Image := if (bankAt f.active f).state = 5 then none else runningImage f

/-- What a staging works with now. -/
def worksOf (s : State) : Works :=
  { key := slotZero s, serial := s.flash.serial, writes := s.flash.writes, run := baseImage s.flash,
    base := fun src len =>
      (((slotZero s).bind (fun k => bankPlain k [] (bankAt s.flash.active s.flash))).getD [] |>.drop src).take len }

/-- Staging begins (R457): the inactive bank becomes STAGING, the bank write count rises (R448), and the I/O-die cipher engine that serves it is
busy (R45): it requests its level of the allowance. -/
def beginStaging (s : State) : State :=
  let o := otherBank s.flash
  let s1 := updUpd (fun u => { u with state := 2, staging := some (Staging.start (bankAt o s.flash).state), detail := 0 }) s
  { s1 with
    flash := updBank o (fun b => { b with state := 2 }) { s1.flash with writes := (s1.flash.writes + 1) % 2 ^ 32 },
    dev := wantImage .iodCipher s1.dev }

/-- The header of a package has been taken: a management firmware package writes the copy that does not run, and gives the bank back as it
was (R471); any other overwrites the inactive bank. -/
def markBank (before after : Staging) (f : Flash) : Flash :=
  match before.header, after.header with
  | none, some h =>
    if kindOf h = 2 then
      updCopy (otherCopy f) (fun _ => ⟨2, [], none, []⟩)
        (updBank (otherBank f) (fun b => { b with state := if before.prior = 4 then 0 else before.prior }) f)
    else updBank (otherBank f) (fun _ => ⟨2, [], none, []⟩) f
  | _, _ => f

/-- The units that a staging has made are programmed (R457). -/
def programUnits (st : Staging) (f : Flash) : Flash :=
  let add := fun (b : Bank) => { b with units := b.units ++ st.fresh }
  match st.header with
  | none => f
  | some h => if kindOf h = 2 then updCopy (otherCopy f) add f else updBank (otherBank f) add f

/-- CIPHER_STATS_2 counts an operation of the I/O-die engine that failed (R421). -/
def countIodCipher (stat : Nat) (d : Dev) : Dev :=
  if stat = 1 then countF .cipherStats 2 0 31 16 1 d else if stat = 2 then countF .cipherStats 2 0 15 0 1 d else d

/-- A package that has got its header taken before it is refused writes what the header says. -/
def refusePackage (e : Refused) (st : Staging) (s : State) : State :=
  dropStaging e.status e.detail (updUpd (fun u => { u with staging := some st }) { s with dev := countIodCipher e.stat s.dev })

/-- Bytes of a package arrive: they are applied, or the package is refused and its staging ends (R457). The answer is the status. While
the cipher engine waits for its grant, the bytes are held as they came (R45, R52; log entry 129). -/
def packageBytes (l : List Byte) (s : State) : State × Nat :=
  match s.dev.upd.staging with
  | none => (s, 0xE)
  | some st =>
    let st1 := { st with bytes := st.bytes + l.length, buf := st.buf ++ l }
    if 142606336 < st1.bytes then (dropStaging 6 0 s, 6)
    else if !holdsGrant .iodCipher s.dev then (updUpd (fun u => { u with staging := some st1 }) s, 0)
    else
      match feedAll (worksOf s) 70 st1 with
      | .error e => (refusePackage e st s, e.status)
      | .ok st2 =>
        ({ updUpd (fun u => { u with staging := some { st2 with fresh := [] } }) s with
            flash := programUnits st2 (markBank st st2 s.flash) }, 0)

/-- PACKAGE_WRITE (R472): OFFSET is the number of bytes written so far, and LENGTH the number of bytes, 1 to 1,024. -/
def packageWrite (r : MReq) (lease off len : Nat) (bytes : List Byte) (s : State) : State :=
  leased (.platform r) (some lease) (fun s => decide (s.dev.upd.state = 1) || (decide (s.dev.upd.state = 2) && s.dev.upd.pulling.isNone))
    (fun s =>
      let so := (s.dev.upd.staging.map Staging.bytes).getD 0
      if off ≠ so ∨ len = 0 ∨ 1024 < len ∨ bytes.length ≠ len then updAnswer (.platform r) 6 s
      else
        let p := packageBytes bytes (if s.dev.upd.state = 1 then beginStaging s else s)
        updAnswer (.platform r) p.2 (setResult (some p.2) p.1.dev.upd.detail p.1)) s

/-- PACKAGE_WRITE. -/
def execPackageWrite (r : MReq) (lease off len : Nat) (bytes : List Byte) (s : State) : Host.Outcome State Fault Refusal :=
  .next (packageWrite r lease off len bytes s)

/-- VERIFYING begins: the cipher engine's work on the staging has ended, and with the image checks it requests the level in force anew (R45, R52,
R458). -/
def beginVerify (s : State) : State :=
  let s1 := updUpd (fun u => { u with state := 3, pulling := none, result := none, detail := 0 }) s
  { s1 with dev := imageBusy (imageIdle s1.dev) }

/-- The package has ended (R456, R458): the bytes that waited for the cipher engine are applied, and the update enters VERIFYING, or the
stream ended short. Where the cipher engine still waits for its grant, VERIFYING begins and applies them (log entry 129). -/
def packageOver (s0 : State) : State :=
  let s := (packageBytes [] s0).1
  match s.dev.upd.staging with
  | none => s
  | some st =>
    if st.whole || !holdsGrant .iodCipher s.dev then beginVerify s
    else dropStaging 6 st.off s

/-- PACKAGE_END. -/
def execPackageEnd (r : MReq) (lease : Nat) (s : State) : Host.Outcome State Fault Refusal :=
  .next (leased (.platform r) (some lease) (fun s => decide (s.dev.upd.state = 2))
    (fun s => updAnswer (.platform r) 0 (packageOver s)) s)

/-! ## PULL (R473) -/

/-- Reads the next piece of the package from host memory through the physical function. -/
def pullNext (off : Nat) (s : State) : State :=
  let src := getF .updateSrcHi 0 0 31 0 s.dev * 2 ^ 32 + getF .updateSrcLo 0 0 31 12 s.dev * 4096
  { s with dev := hostRead 0xFF (src + off) (min 4096 (s.dev.upd.pulling.getD 0 - off)) (.pull off) s.dev }

/-- PULL: the package comes from UPDATE_SRC, UPDATE_SRC_LEN bytes of it. -/
def pull (s : State) : State :=
  leased .manager none (fun s => decide (s.dev.upd.state = 1)) (fun s =>
    let len := getF .updateSrcLen 0 0 27 0 s.dev
    if len = 0 ∨ 142606336 < len then updAnswer .manager 6 s
    else if !hostOpen s.dev then updAnswer .manager 0xC s
    else pullNext 0 (updUpd (fun u => { u with pulling := some len, result := none }) (beginStaging s))) s

/-- PULL. -/
def execPull (s : State) : Host.Outcome State Fault Refusal :=
  overLink true (.pull) (fun s => .next (pull s)) s

/-- A piece of a PULL has arrived: its bytes are applied; the last of them ends the package. -/
def pullData (off : Nat) (l : List Byte) (s : State) : State :=
  match s.dev.upd.pulling with
  | none => s
  | some len =>
    let p := packageBytes l s
    if p.2 ≠ 0 then p.1
    else if len ≤ off + l.length then packageOver p.1
    else pullNext (off + l.length) p.1

/-- A piece of a PULL could not be read: the staging ends. -/
def pullFailed (code : Nat) (s : State) : State := if s.dev.upd.pulling.isSome then dropStaging code 0 s else s

/-! ## Verification (R458) -/

/-- The first check of R458 that a read-back image fails, 0 for none: those of R452 step 2, then TARGET_DIGEST, and the version that the package
header announces (DEDUCED, log entry 164). -/
def verifyCode (mgmt : Bool) (sign : BitVec 256) (signer : Option (BitVec 256)) (h : List Byte) (plain : Option (List Byte)) : Nat :=
  let c := imageCode mgmt sign signer plain
  if c ≠ 0 then c
  else if digestBytes (sha256 (plain.getD [])) ≠ (h.drop 52).take 32 then 7
  else if fieldLE (plain.getD []) 12 4 ≠ fieldLE h 16 4 then 6
  else 0

/-- May the image work that is in hand end: do the cipher engine and the image checks hold their grants (R45, R52)? -/
def verifyPowered (d : Dev) : Bool := holdsGrant .iodCipher d && holdsGrant .imageCheck d

/-- The plaintext that the units of a staged image read back as (R458). -/
def readBack (damaged : List Nat) (s : State) : Option (List Byte) :=
  let b := if s.dev.upd.stagesMgmt then copyAt (otherCopy s.flash) s.flash else bankAt (otherBank s.flash) s.flash
  (slotZero s).bind (fun k => openUnits k damaged 0 b.units)

/-- What a staging wrote has passed every check (R458): the bank, or the copy of the management firmware, is VERIFIED. -/
def verified (st : Staging) (plain : List Byte) (c : Contents) (s : State) : State :=
  let mgmt := s.dev.upd.stagesMgmt
  let g := fun (b : Bank) => { b with state := 3, image := some (imageOf plain c), sets := st.setBytes }
  { updUpd (fun u => { u with state := 4, staging := none, result := some 0, mgmtStaged := mgmt }) s with
    flash := if mgmt then updCopy (otherCopy s.flash) g s.flash else updBank (otherBank s.flash) g s.flash }

/-- VERIFYING ends (R458): the bank becomes VERIFIED, or EMPTY with AUTH_FAIL or LENGTH, and the image work is idle. -/
def verifyEnd (f : ImageFindings) (s0 : State) : State :=
  if s0.dev.upd.state ≠ 3 ∨ !verifyPowered s0.dev then s0
  else
    let p := packageBytes [] s0
    let s := { p.1 with dev := imageIdle p.1.dev }
    match s.dev.upd.staging with
    | none => s
    | some st =>
      let plain := readBack f.read.damaged s
      let c := verifyCode s.dev.upd.stagesMgmt s.flash.signKey f.read.signer (st.header.getD []) plain
      if !st.whole then dropStaging 6 st.off s
      else if c ≠ 0 then
        dropStaging c 0 { s with dev := when_ plain.isNone (countIodCipher (if (slotZero s).isSome then 1 else 2)) s.dev }
      else verified st (plain.getD []) f.contents s

/-- VERIFY_END. -/
def execVerifyEnd (f : ImageFindings) (s : State) : Host.Outcome State Fault Refusal := .next (verifyEnd f s)

/-! ## Arming (R459 to R461, R464, R471) -/

/-- The image in the inactive bank. -/
def newImage (s : State) : Option Image := (bankAt (otherBank s.flash) s.flash).image

/-- May the update be armed: VERIFIED, or a later holder's LEASED over a bank that stayed VERIFIED (R454)? -/
def mayArm (s : State) : Bool :=
  decide (s.dev.upd.state = 4) ||
  (decide (s.dev.upd.state = 1) &&
    (if s.dev.upd.mgmtStaged then decide ((copyAt (otherCopy s.flash) s.flash).state = 3)
     else decide ((bankAt (otherBank s.flash) s.flash).state = 3)))

/-- ARM of a management firmware (R471): the lease ends, the selector names the new copy, and the MC restarts. -/
def armMgmt (src : UpdSrc) (s : State) : State :=
  let s1 := updAnswer src 0 (setResult (some 0) 0 (endLease s))
  let m := { s1.dev.mc with up := false }
  let u := { s1.dev.upd with mgmtStaged := false }
  { s1 with flash := { s1.flash with mgmtActive := otherCopy s1.flash }, dev := { s1.dev with mc := m, upd := u } }

/-- The update enters ARMING (R460): the standby cores load the new FIRMWARE and start it, and the work draws on the allowance (R470). -/
def beginArming (src : UpdSrc) (mode count : Nat) (s : State) : State :=
  let s1 := updAnswer src 0 s
  let s2 := updUpd (fun u => { u with state := 5, mode := mode, armCount := count, result := none, detail := 0 }) s1
  let fw := ((newImage s).map (fun im => sectionDigest im 7)).getD 0
  { s2 with dev := imageBusy (updPairs (CorePair.load fw true) s2.dev) }

/-- Is a change firmware-only (R446): are the sections whose change is structural the same? -/
def firmwareOnly (a b : Image) : Bool := (List.range 5).all (fun k => sectionDigest a (k + 1) == sectionDigest b (k + 1))

/-- May the change be activated by handover (R459): is it firmware-only, and may the running version hand over to it? -/
def handoverOk (s : State) : Bool :=
  match runningImage s.flash, newImage s with
  | some a, some b => firmwareOnly a b && decide (b.from_ ≤ a.version)
  | _, _ => false

/-- ARM for handover (R459, R460). -/
def armHandover (src : UpdSrc) (lease : Nat) (s : State) : State :=
  leased src (some lease) mayArm (fun s =>
    if s.dev.upd.mgmtStaged then armMgmt src s
    else if handoverOk s then beginArming src 0 0 s
    else updAnswer src 0xE s) s

/-- ARM_HANDOVER. -/
def execArmHandover (src : UpdSrc) (lease : Nat) (s : State) : Host.Outcome State Fault Refusal :=
  overLink (isManager src) (.armHandover src lease) (fun s => .next (armHandover src lease s)) s

/-- The count of a command: the manager's is UPDATE_COUNT (R473). -/
def countFrom (src : UpdSrc) (count : Nat) (d : Dev) : Nat :=
  match src with
  | .platform _ => count % 2 ^ 32
  | .manager => getF .updateCount 0 0 31 0 d

/-- ARM for coordinated activation (R464): its count exceeds ACTIVATION_COUNT. -/
def armCoordinated (src : UpdSrc) (lease count : Nat) (s : State) : State :=
  leased src (some lease) mayArm (fun s =>
    let c := countFrom src count s.dev
    if c ≤ s.flash.actCount then updAnswer src 3 s
    else if s.dev.upd.mgmtStaged then armMgmt src s
    else beginArming src 1 c s) s

/-- ARM_COORDINATED. -/
def execArmCoordinated (src : UpdSrc) (lease count : Nat) (s : State) : Host.Outcome State Fault Refusal :=
  overLink (isManager src) (.armCoordinated src lease count) (fun s => .next (armCoordinated src lease count s)) s

/-- Does an instance hold an object that a structure has no place for: a number beyond a pool, a leaf that lies elsewhere, a brick outside its
allocation, or more than the upper bound of a quota (R460, R461, R468)? -/
def outOfShape (sh : Structure_) (n : Nat) (d : Dev) : Bool :=
  let q := fun (k held : Nat) => decide (sh.quotas.getD k held < held)
  d.q.wqs.any (fun p => p.2.inst == n && (Tab.get sh.leaves p.2.leaf != Tab.get d.upd.shape.leaves p.2.leaf ||
    decide (sh.pools.getD 0 65536 ≤ p.1))) ||
  d.q.crs.any (fun p => p.2.inst == n && decide (sh.pools.getD 1 16384 ≤ p.1)) ||
  d.q.ctrs.any (fun p => p.2.inst == n && decide (0x10000 + sh.pools.getD 2 65536 ≤ p.1)) ||
  d.colls.comms.any (fun p => p.2.inst == n && decide (sh.pools.getD 4 4096 ≤ p.1)) ||
  d.bricks.launches.any (fun p => p.2.inst == n && !p.2.bricks.all (Tab.getD sh.allocs n []).contains) ||
  q 0 (Tab.count d.xl.ctxs (fun _ c => c.inst == n)) || q 1 (framesHeld n d) || q 2 (wqsHeld n d) || q 3 (crsHeld n d) ||
  q 4 (ctrsHeld n d) || q 5 (regionsHeld n d) || q 6 (domsHeld n d) || q 7 (pinsHeld n d) || q 8 (commsHeld n d) || q 9 (membersHeld n d)

/-- Does a new structure contain every object in use (R460, R461): is each instance that it removes QUIESCED or UNCONFIGURED, does it hold
what each instance holds, and do the reassembly slots in use fit? -/
def shapeFits (new : Structure_) (d : Dev) : Bool :=
  d.insts.all (fun p => Tab.has new.insts p.1 || decide (p.2.state = 0 ∨ p.2.state = 3)) &&
  (List.range 64).all (fun n => !outOfShape new n d) &&
  d.pes.all (fun p => decide (p.slots.length ≤ new.pools.getD 3 65536))

/-- The settings that the new firmware takes over, as a store in its own format (R460): the package's block where it brought one, else those in
force, converted where the formats differ; an error is the index of the first entry that fails under R451. -/
def armSettings (f : ArmFindings) (im : Image) (s : State) : Except Nat (List Byte) :=
  let blk := (bankAt (otherBank s.flash) s.flash).sets
  let old := if s.dev.upd.settingsIgnored then storeBytes im.fmt [] else (storeInForce s.flash).getD (storeBytes im.fmt [])
  let l := if blk.isEmpty then old else blk
  if !storeWhole l then .error 0
  else
    let st := settingsOf l
    match (if st.fmt = im.fmt then some st.entries else f.converted) with
    | none => .error f.failedAt
    | some e =>
      match firstInvalid 0 [] e with
      | some k => .error k
      | none => .ok (storeBytes im.fmt e)

/-- ARMING ends (R460): SETTINGS_INCOMPATIBLE rejects the bank and ends the lease, a structure that does not fit returns the update
to VERIFIED, and otherwise the handover begins or the update is ARMED. -/
def armingEnd (f : ArmFindings) (s0 : State) : State :=
  if s0.dev.upd.state ≠ 5 ∨ !verifyPowered s0.dev then s0
  else
    let s := { s0 with dev := imageIdle s0.dev }
    match newImage s with
    | none => s
    | some im =>
      match armSettings f im s with
      | .error k =>
        let s1 := { s with flash := updBank (otherBank s.flash) (fun b => { b with state := 4 }) s.flash }
        setResult (some 0x10) k (endLease s1)
      | .ok st =>
        if !shapeFits im.contents.shape s.dev then
          updUpd (fun u => { u with state := 4, result := some 0xE, detail := 0 }) { s with dev := standbyBack s.dev }
        else
          let go := decide (s.dev.upd.mode = 0)
          updUpd (fun u => { u with
            state := if go then 7 else 6, pairs := 0, actStep := 0, newStore := some st, heldTo := some im.contents.shape,
            armedAt := clock iodie s.dev, result := if go then none else some 0 }) s

/-- ARMING_END. -/
def execArmingEnd (f : ArmFindings) (s : State) : Host.Outcome State Fault Refusal := .next (armingEnd f s)

/-! ## Activation (R462 to R466) -/

/-- TOKEN (R464): the armed count starts the activation, any other gets ACCESS. -/
def token (src : UpdSrc) (lease count : Nat) (s : State) : State :=
  leased src (some lease) (fun s => decide (s.dev.upd.state = 6)) (fun s =>
    if countFrom src count s.dev ≠ s.dev.upd.armCount then updAnswer src 3 s
    else updUpd (fun u => { u with state := 7, pairs := 0, actStep := 1, result := none }) (updAnswer src 0 s)) s

/-- TOKEN. -/
def execToken (src : UpdSrc) (lease count : Nat) (s : State) : Host.Outcome State Fault Refusal :=
  overLink (isManager src) (.token src lease count) (fun s => .next (token src lease count s)) s

/-- An engine takes its port mode (R466): where it changes, its ports go down. -/
def setMode (e mode : Nat) (d : Dev) : Dev :=
  if (engAt e d).mode = mode then d
  else
    let d1 := each ((List.range 4).map (fun k => 4 * e + k)) (fun p d =>
      if portExists p d && (portAt p d).align then linkFalls p false (portAt p d).local_ (portAt p d).remote d else d) d
    updEng e (fun x => { x with mode := mode }) d1

/-- An instance follows a structure (R466): a new one is ACTIVE, one that is gone is UNCONFIGURED. -/
def setInst (sh : Structure_) (n : Nat) (d : Dev) : Dev :=
  if !Tab.has sh.insts n then { d with insts := Tab.erase d.insts n }
  else
    let x := Inst.start sh n
    if configured n d then updInst n (fun i => { i with bricks := x.bricks, node := x.node, leaf0 := x.leaf0, leaves := x.leaves }) d
    else { d with insts := Tab.set d.insts n x }

/-- The tree of a port takes a new shape (R466): a node or leaf that is new, or that hangs elsewhere than before, wakes under R358, and a new
node's virtual time is 0. -/
def rehang (old : Dev) (p : Nat) (d : Dev) : Dev :=
  let was := backlogged (portAt p d) old
  let woken := (backlogged (portAt p d) d).filter (fun c => !was.contains c || parentOf c old != parentOf c d)
  updPort p (fun r =>
    let vt := Tab.keep r.vtime (fun x _ => x == 0 || Tab.has old.upd.shape.nodes x)
    { r with
      vtime := vt, held := r.held.filter (fun c => !woken.contains c),
      starts := woken.foldl (fun t c => Tab.set t c (Tab.getD vt (parentOf c d) 0)) r.starts }) d

/-- A structure takes effect (R465 step 4, R466); the shares of instances that it brings are limited after those of the others (R403). -/
def applyShape (sh : Structure_) (d : Dev) : Dev :=
  let old := (List.range 64).filter (fun n => configured n d && Tab.has sh.insts n)
  let new := (List.range 64).filter (fun n => !configured n d && Tab.has sh.insts n)
  let d1 := each (List.range 8) (fun e d => setMode e (sh.modes.getD e 0) d) d
  let d2 := each (List.range 64) (fun n d => setInst sh n d) d1
  let d3 := each (d2.net.ports.map Prod.fst) (rehang d2) { d2 with upd := { d2.upd with shape := sh } }
  when_ (!new.isEmpty) (limitShares (old ++ new)) d3

/-- The curves that cost later requests, and the rails' standing reservations and allowance (R45, R466); a grant keeps the cost it was made
at. -/
def applyCosts (c : Costs) (d : Dev) : Dev :=
  let kind := fun (r : Nat) => if r < 8 then 0 else if r < 10 then 1 else 2
  each dies (fun r d => updRail r (fun x => { x with
    standing := c.standing.getD (kind r) 0, allowFull := if r = 10 then c.allowance else x.allowFull }) d)
    { d with upd := { d.upd with costs := c } }

/-- The tables and curves that the engines keep (R466): those in force, and those in force at the admission of work that goes on. -/
def engineTables (d : Dev) : Tab (List (BitVec 256)) :=
  Tab.keep d.upd.eras (fun k _ => k == d.upd.era || d.q.wqs.any (fun p => p.2.flight.any (fun x => x.done.isNone && x.era == k)))

/-- The digests of an image's PESYN_TABLES, HEADER_TABLES, CURRENT_CURVES and BEAT_CURVES, which the engines load. -/
def tablesOf (im : Image) : List (BitVec 256) := (List.range 4).map (fun k => sectionDigest im (k + 2))

/-- A pair hands over (R462): its running core writes the handover record and stops, and its standby core takes up the work. -/
def handPair (k : Nat) (d : Dev) : Dev :=
  { d with upd := { d.upd with
    cores := d.upd.cores.set k (let p := d.upd.cores.getD k (CorePair.start 0); { p with runs := 1 - p.runs, record := some k }) } }

/-- The update falls back to the old firmware whole (R468): the old structure and curves return, with a reset of each instance that holds what they
cannot hold, the bank is REJECTED, the update answers INTERNAL, and the lease ends. -/
def restoreShape (old : Structure_ × Costs × Nat) (d : Dev) : Dev :=
  let sh := old.1
  let gone := (List.range 64).filter (fun n => configured n d && !Tab.has sh.insts n)
  let bad := (List.range 64).filter (fun n => configured n d && Tab.has sh.insts n && outOfShape sh n d)
  let d1 := applyShape sh (each bad instanceReset (each gone (fun n d => freeFramesOf n (instanceReset n d)) d))
  applyCosts old.2.1 { d1 with upd := { d1.upd with era := old.2.2 } }

/-- What an activation that does not commit changed is taken back (R468, R469). -/
def undoShape (d : Dev) : Dev :=
  match d.upd.oldShape with
  | some old => localPath (restoreShape old d)
  | none => d

/-- The last pair has handed back, and the update ends (R468). -/
def endFallback (s : State) : State :=
  let f1 := updBank (otherBank s.flash) (fun b => { b with state := 4 }) s.flash
  setResult (some 0xF) 0 (endLease { s with flash := f1, dev := standbyBack (undoShape s.dev) })

/-- A step of a coordinated activation ends (R465): every pair has handed over; the tables and curves are loaded beside the old ones; the
structure is applied; admission resumes under the new curves, and the update enters TRIAL (R467). -/
def activationStep (s : State) : State :=
  let u := s.dev.upd
  match newImage s with
  | none => s
  | some im =>
    if u.actStep = 1 then
      updUpd (fun u => { u with pairs := 18, actStep := 2 }) { s with dev := each (List.range 18) handPair s.dev }
    else if u.actStep = 2 then
      updUpd (fun u => { u with actStep := 3, eras := Tab.set (engineTables s.dev) (u.era + 1) (tablesOf im) }) s
    else if u.actStep = 3 then
      let s1 := updUpd (fun u => { u with oldShape := some (u.shape, u.costs, u.era), actStep := 4 }) s
      { s1 with dev := localPath (applyShape im.contents.shape s1.dev) }
    else
      let s1 := updUpd (fun u => { u with era := u.era + 1, actStep := 5, state := 8 }) s
      { s1 with dev := applyCosts im.contents.costs s1.dev }

/-- A turn ends: of a handover (R462), after whose last turn the update enters TRIAL (R467); of a coordinated activation, one of its steps
(R465); of a fallback, in which the pairs hand back in the reverse order (R468). -/
def handoverTurn (s : State) : State :=
  let u := s.dev.upd
  if u.state = 9 then
    let s1 := updUpd (fun u => { u with pairs := u.pairs - 1 }) { s with dev := handPair (u.pairs - 1) s.dev }
    if u.pairs ≤ 1 then endFallback s1 else s1
  else if u.state ≠ 7 then s
  else if u.mode = 0 then
    updUpd (fun u => { u with pairs := u.pairs + 1, state := if u.pairs + 1 = 18 then 8 else 7 }) { s with dev := handPair u.pairs s.dev }
  else activationStep s

/-- HANDOVER_TURN. -/
def execHandoverTurn (s : State) : Host.Outcome State Fault Refusal := .next (handoverTurn s)

/-! ## Commit and fallback (R467 to R469) -/

/-- Measurement 6 (R450): the SHA-256 of the header and the entries in force, or of a header whose COUNT is 0. -/
def settingsMeasure (fmt : Nat) (store : Option (List Byte)) : List Byte := digestBytes (sha256 (store.getD (storeBytes fmt [])))

/-- Measurements 4 to 6 of an image and its settings (R435, R436, R447). -/
def setMeasures (im : Image) (store : Option (List Byte)) (d : Dev) : Dev :=
  { d with mc := { d.mc with
    measures := d.mc.measures.take 3 ++ [digestBytes (sectionDigest im 7), digestBytes (sectionDigest im 1), settingsMeasure im.fmt store] } }

/-- The record of area 0x09 about a bank: its number and its image's version (R438). -/
def bankRecord (k cls ev : Nat) (f : Flash) (d : Dev) : Dev :=
  logEv 11 cls 0x09 ev (bytesLE 1 k ++ bytesLE 4 ((bankAt k f).image.map Image.version |>.getD 0)) d

/-- A store that is being programmed: its CRC fails until it is whole (R469). -/
def tornStore (l : List Byte) : List Byte := l.take 12 ++ natLE 4 (~~~(crc32c (l.drop 64))).toNat ++ l.drop 16

/-- The commit is done (R467): the selector names the new bank and the settings programmed with it, ACTIVATION_COUNT, the measurements and the
record follow, the lease ends, and each standby core loads the new firmware. -/
def finishCommit (im : Image) (st : List Byte) (s : State) : State :=
  let k := otherBank s.flash
  let f1 := writeSelector k (otherStore s.flash) (updBank k (fun b => { b with state := 1, sets := [] }) s.flash)
  let f2 := { f1 with actCount := if s.dev.upd.mode = 1 then s.dev.upd.armCount else f1.actCount }
  let d1 := bankRecord k 0 1 f2 (setMeasures im (some st) { s.dev with upd := { s.dev.upd with settingsIgnored := false } })
  setResult (some 0) 0 (endLease { s with flash := f2, dev := updPairs (CorePair.load (sectionDigest im 7) false) d1 })

/-- COMMIT (R467) in three events, because a loss of standby power can come within step 1 and within step 2 (R469; log entry 165): every new
firmware instance reports ready, and the settings store's other copy is being programmed; that copy is whole, and the selector's other
copy is being programmed; that copy is whole, and the rest follows. -/
def commit (s : State) : State :=
  match newImage s, s.dev.upd.newStore with
  | some im, some st =>
    if s.dev.upd.state ≠ 8 then s
    else if s.dev.upd.commitStep = 0 then
      let s1 := updUpd (fun u => { u with commitStep := 1 }) { s with dev := updPairs (fun p => { p with ready := true }) s.dev }
      { s1 with flash := putStore (otherStore s.flash) (tornStore st) s.flash }
    else if s.dev.upd.commitStep = 1 then
      { updUpd (fun u => { u with commitStep := 2 }) s with flash := tearSelector (putStore (otherStore s.flash) st s.flash) }
    else finishCommit im st s
  | _, _ => s

/-- COMMIT. -/
def execCommit (s : State) : Host.Outcome State Fault Refusal := .next (commit s)

/-- FALLBACK (R468): a pair reports no ready, or a new firmware instance stops, before the selector is written: every pair that has handed over
hands back, one in each turn, and the update has ended where none had. -/
def fallback (s : State) : State :=
  let u := s.dev.upd
  if (u.state = 6 ∨ u.state = 7 ∨ u.state = 8) ∧ u.commitStep < 2 then
    if u.pairs = 0 then endFallback s else updUpd (fun u => { u with state := 9, result := none, detail := 0 }) s
  else s

/-- FALLBACK. -/
def execFallback (s : State) : Host.Outcome State Fault Refusal := .next (fallback s)

/-- UPDATE_QUERY (R472). -/
def execUpdateQuery (r : MReq) (s : State) : Host.Outcome State Fault Refusal :=
  .next (leased (.platform r) none (fun _ => true) (fun s =>
    { s with
      dev := answer (.pldmBytes 0 (some 0)
        (natLE 4 (updateStatusWord s.dev) ++ natLE 4 s.dev.upd.detail ++ natLE 4 (bankStatusWord s))) s.dev }) s)

end Sys2Proof.Machine
end

