-- ==== Sys2Proof/Machine/HostReads.lean ====
section
/-! DEFINITION. What the host's answers to the module's reads of its memory do (R202, R225, R302, R379, R380, R473, R536). -/

namespace Sys2Proof.Machine

/-- A read of host memory that ended: its bytes, cut or filled with zeros to the length asked for, or why there are none: 0 refused,
1 poisoned, 2 no answer in time (R380). -/
def readEnd (len : Nat) (a : HostAnswer) : Except Nat (List Byte) :=
  match a with
  | .data l => .ok ((l ++ List.replicate len 0).take len)
  | .poisoned => .error 1
  | .refused => .error 0

/-- The status of a failed read: ACCESS for a refusal, INTERNAL otherwise (R380, R536). -/
def readStatus (e : Nat) : Nat := if e = 0 then 3 else 0xF

/-- A work queue's entry has been read (R203), or cannot be (R536). -/
def wqEntryRead (q idx : Nat) (r : Except Nat (List Byte)) (d : Dev) : Dev :=
  match wqAt q d with
  | none => d
  | some w =>
    if w.reading && decide (w.c = idx) && decide (w.state ≠ 2) && !w.detached then
      let d1 := updWq q (fun w => { w with reading := false }) d
      match r with
      | .ok l => tryRead q (takeCopy q idx l d1)
      | .error e => updWq q (fun w => { w with again := false, head := some (mkHead (qDie q) idx [] none (some (readStatus e)) d1) }) d1
    else d

/-- An admin queue's entry has been read (R223), or cannot be (R536). -/
def adminEntryRead (n idx : Nat) (r : Except Nat (List Byte)) (d : Dev) : Dev :=
  let a := adminAt n d
  if a.reading && decide (a.c = idx) then
    let d1 := updAdmin n (fun a => { a with reading := false }) d
    match r with
    | .ok l =>
      if bitOf (l.getD 63 0).toNat 7 then updAdmin n (fun a => { a with again := false, head := some (mkHead iodie idx l none none d1) }) d1
      else tryAdmin n (updAdmin n (fun a => { a with again := false, stalled := !a.again }) d1)
    | .error e => updAdmin n (fun a => { a with again := false, head := some (mkHead iodie idx [] none (some (readStatus e)) d1) }) d1
  else d

/-- What a read was for goes on. -/
def readDone (x : HostRead) (r : Except Nat (List Byte)) (s : State) : State :=
  match x.why, r with
  | .wqEntry q idx, r => { s with dev := localPath (wqEntryRead q idx r s.dev) }
  | .adminEntry n idx, r => { s with dev := adminEntryRead n idx r s.dev }
  | .members n, .ok l => { s with dev := localPath (membersRead n (.ok l) s.dev) }
  | .members n, .error e => { s with dev := localPath (membersRead n (.error (readStatus e)) s.dev) }
  | .piece q idx off, .ok l => { s with dev := localPath (placePiece q idx off l s.dev) }
  | .piece q idx _, .error e => { s with dev := localPath (failPiece q idx (readStatus e) (if e = 2 then 4 else 3) s.dev) }
  | .pull off, .ok l => pullData off l s
  | .pull _, .error e => pullFailed (readStatus e) s

/-- A read ends: it is outstanding no more, and a failure is counted (R380). -/
def endRead (id : Nat) (x : HostRead) (r : Except Nat (List Byte)) (s : State) : State :=
  let d1 := { s.dev with link := { s.dev.link with reads := Tab.erase s.dev.link.reads id } }
  let d2 := match r with
    | .ok _ => d1
    | .error e => hostError e d1
  readDone x r { s with dev := d2 }

/-- The host answers a read of its memory, or refuses or poisons a flush read (R380). -/
def hostReadCompletion (id : Nat) (a : HostAnswer) (s : State) : State :=
  match Tab.get s.dev.link.reads id with
  | some x => endRead id x (readEnd x.len a) s
  | none =>
    if !Tab.has s.dev.link.flushes id then s
    else
      match readEnd 0 a with
      | .ok _ => { s with dev := localPath (flushReturn id s.dev) }
      | .error e => { s with dev := localPath (flushFailed id (readStatus e) 3 (hostError e s.dev)) }

/-- HOST_READ_COMPLETION: it waits for a retrain to end (R373, R389). -/
def execHostReadCompletion (id : Nat) (answer : HostAnswer) (s : State) : Host.Outcome State Fault Refusal :=
  overLink true (.hostReadCompletion id answer) (fun s => .next (hostReadCompletion id answer s)) s

/-- No completion came within the card's 10 ms (R380): a read fails, and so does a transfer whose flush read did not return. -/
def completionTimeout (id : Nat) (s : State) : State :=
  match Tab.get s.dev.link.reads id with
  | some x => if x.since + msec 10 ≤ clock iodie s.dev then endRead id x (.error 2) s else s
  | none =>
    match Tab.get s.dev.link.flushes id with
    | none => s
    | some (_, _, since) =>
      if clock iodie s.dev < since + msec 10 then s else { s with dev := localPath (flushFailed id 0xF 4 (hostError 2 s.dev)) }

/-- HOST_COMPLETION_TIMEOUT. -/
def execHostCompletionTimeout (id : Nat) (s : State) : Host.Outcome State Fault Refusal := .next (completionTimeout id s)

/-- FLUSH_READ_RETURN (R384): it waits for a retrain to end (R389). -/
def execFlushReadReturn (id : Nat) (s : State) : Host.Outcome State Fault Refusal :=
  overLink true (.flushReadReturn id) (fun s => sends (flushReturn id) s) s

end Sys2Proof.Machine
end

