-- ==== Sys2Proof/Machine/Startup.lean ====
section
/-! DEFINITION. Starts and resets of the module (R422, R426, R430, R443, R444, R452, R453, R475 to R486, R507, R508, R511): what a
start clears and keeps, the requests and events that lead to one, the start of the management controller, and main start-up. -/

namespace Sys2Proof.Machine

/-! ## What a start clears (R486) -/

/-- Is a register held by the management controller, so that no start of the module changes it (R530)? -/
def mcReg (a : Nat) : Bool := decide (0x130000 ≤ a ∧ a < 0x140000) || a == 0x160000

/-- A rail after a start: no grant and no request; its capacity follows the input (R52, R53). -/
def restartRail (r : Rail) : Rail := { r with grants := [], waiting := [], slowHold := false, goodSince := none }

/-- Everything that a start of the module clears (R486); the cause is that of the start to come (R485). The input's level and the
memory of the host are not the module's to clear. The interval timers of the brick dies and fabric dies start again (log entry 9). -/
def clearDev (f : Flash) (cause : Nat) (d : Dev) : Dev :=
  let level := getF .brownoutStatus 0 0 3 0 d
  let volts := getW .inputVoltage 0 0 d
  let st := { Startup.reset with nextCause := cause, repair := f.repair, epochs := d.start.epochs }
  let d1 := restartTimers (List.range 10) { d with
    regs := d.regs.filter (fun p => mcReg p.1),
    pwr := { d.pwr with rails := d.pwr.rails.map restartRail, readings := [], readyPin := false, asked := [] },
    tiers := Tiers.reset, xl := { Xlate.reset with epochAt := clock iodie d }, q := Queues.reset, rem := Remote.reset,
    pes := [Pesyn.reset 0, Pesyn.reset 1], addr := PesynAddr.reset, colls := Colls.reset, net := Net.reset,
    link := { Link.reset with hostMem := d.link.hostMem, nextRead := d.link.nextRead }, insts := [], keys := KeyStore.reset,
    start := st, bricks := { Bricks.reset with nextHost := d.bricks.nextHost }, upd := { d.upd with eras := [] } }
  setW .inputVoltage 0 0 volts (setF .brownoutStatus 0 0 3 0 level d1)

/-- The module is reset (R485, R486): its lease ends (R454, R469), and everything that a start clears is gone. -/
def clearMain (cause : Nat) (s : State) : State :=
  let s1 := endLease s
  { s1 with dev := clearDev s1.flash cause s1.dev }

/-- Main power goes on or off. -/
def setMain (on : Bool) (d : Dev) : Dev := { d with pwr := { d.pwr with mainOn := on } }

/-- The reset that is being carried out (R444), or none. -/
def setReset (r : Option Nat) (d : Dev) : Dev := { d with mc := { d.mc with resetReq := r } }

/-- Changes the device. -/
def onDev (f : Dev → Dev) (s : State) : State := { s with dev := f s.dev }

/-! ## The input falls or rises out of range (R54, R507) -/

/-- The input falls through 38 V (R54): the MC records it, and the module resets. -/
def brownoutReset (v : Nat) (s : State) : State :=
  if v < 3800 then
    let low := if warned s.dev then min s.dev.pwr.lowest v else v
    let d1 := inputLevel v (tally42 v { s.dev with pwr := { s.dev.pwr with lowest := low } })
    let d2 := when_ d1.mc.up (logEv 11 3 0x0A 2 (bytesLE 2 low)) d1
    onDev (setMain false) (clearMain 3 { s with dev := d2 })
  else s

/-- BROWNOUT_RESET. -/
def execBrownoutReset (mv : Nat) (s : State) : Host.Outcome State Fault Refusal := .next (brownoutReset mv s)

/-- The input rises above 60 V (R507): the stage opens, a brownout warning ends with main power (R521), and the start to come
carries cause 3. -/
def inputOvervoltage (v : Nat) (s : State) : State :=
  if v ≤ 6000 then s
  else
    let d1 := inputLevel v (tally42 v s.dev)
    if d1.pwr.stageOpen then { s with dev := d1 }
    else
      let d2 := when_ d1.mc.up (logEv 11 3 0x01 4 (bytesLE 1 iodie ++ bytesLE 2 v)) (setBit .platformStatus 0 0 31 d1)
      let d3 := setF .brownoutStatus 0 0 1 0 0 { d2 with pwr := { d2.pwr with
        stageOpen := true, rails := dies.map Rail.start, asked := [], stepAt := none, below42 := 0, below42Since := none } }
      onDev (setMain false) (clearMain 3 { s with dev := d3 })

/-- INPUT_OVERVOLTAGE. -/
def execInputOvervoltage (mv : Nat) (s : State) : Host.Outcome State Fault Refusal := .next (inputOvervoltage mv s)

/-- The input has stayed at or below 58 V for 10 ms: the stage closes (R507). -/
def overvoltageRecovery (v : Nat) (d : Dev) : Dev :=
  if d.pwr.stageOpen && decide (v ≤ 5800) && d.pwr.under58Since.any (fun t => decide (t + msec 10 ≤ clock iodie d)) then
    inputLevel v { d with pwr := { d.pwr with stageOpen := false } }
  else d

/-- OVERVOLTAGE_RECOVERY. -/
def execOvervoltageRecovery (mv : Nat) (s : State) : Host.Outcome State Fault Refusal :=
  .next { s with dev := overvoltageRecovery mv s.dev }

/-! ## Reset and power cycle (R443, R444, R511, R521) -/

/-- The answer to a request by PLDM; the manager's MGMT_REQUEST has none. -/
def resetAnswer (r : Option MReq) (code : Nat) (d : Dev) : Dev := if r.isSome then status code d else d

/-- The POWER_REQUEST record (R438): what was requested, and by which path. -/
def powerRecord (what : Nat) (r : Option MReq) (d : Dev) : Dev :=
  logEv 11 0 0x0A 8 (bytesLE 1 what ++ bytesLE 1 (if r.isSome then 0 else 1)) d

/-- A request reaches the MC: by PLDM, or by a write of MGMT_REQUEST. -/
def requested (r : Option MReq) (f : State → State) (s : State) : State :=
  match r with
  | some m => pldm m f s
  | none =>
    if !s.dev.start.ready then { s with dev := countErr 5 0xFF (addrOf .mgmtRequest 0 0) 4 true s.dev }
    else if linkOpen s.dev then f s else s

/-- MODULE_RESET (R443, R444): refused while another reset is carried out, and while a thermal shutdown holds main power off. -/
def moduleReset (r : Option MReq) (s : State) : State :=
  requested r (fun s =>
    if s.dev.mc.resetReq.isSome || s.dev.pwr.thermtrip then { s with dev := resetAnswer r 0xE s.dev }
    else
      let s1 := clearMain 1 { s with dev := resetAnswer r 0 (powerRecord 1 r s.dev) }
      onDev (setReset (if s1.dev.mc.identityFail = 0 then some 1 else none)) s1) s

/-- MODULE_RESET. -/
def execModuleReset (r : Option MReq) (s : State) : Host.Outcome State Fault Refusal :=
  overLink r.isNone (.moduleReset r) (fun s => .next (moduleReset r s)) s

/-- Main power is off for a power cycle. -/
def cycleOff (d : Dev) : Dev :=
  { d with
    mc := { d.mc with resetReq := some 2, offReason := 2, offAt := clock iodie d },
    pwr := { d.pwr with mainOn := false, thermtrip := false } }

/-- POWER_CYCLE (R443, R444): it ends a thermal shutdown as well. -/
def powerCycle (r : Option MReq) (s : State) : State :=
  requested r (fun s =>
    if s.dev.mc.resetReq.isSome then { s with dev := resetAnswer r 0xE s.dev }
    else onDev cycleOff (clearMain 2 { s with dev := resetAnswer r 0 (powerRecord 2 r s.dev) })) s

/-- POWER_CYCLE. -/
def execPowerCycle (r : Option MReq) (s : State) : Host.Outcome State Fault Refusal :=
  overLink r.isNone (.powerCycle r) (fun s => .next (powerCycle r s)) s

/-- Main power has been off for 2 s, and it is reapplied (R443). -/
def powerReapply (d : Dev) : Dev :=
  if d.mc.offReason = 2 ∧ d.mc.offAt + msec 2000 ≤ clock iodie d then
    { d with mc := { d.mc with offReason := 0, resetReq := if d.mc.identityFail = 0 then d.mc.resetReq else none } }
  else d

/-- POWER_CYCLE_REAPPLY. -/
def execPowerCycleReapply (s : State) : Host.Outcome State Fault Refusal := .next (onDev powerReapply s)

/-- MOD_RESET_N has been low for 10 µs (R511): the reset is carried out once, unless another came first (R521). -/
def connectorReset (s : State) : State :=
  if !s.dev.pwr.standby || s.dev.mc.resetReq.isSome then s
  else
    let s1 := clearMain 5 s
    onDev (setReset (if s1.dev.mc.identityFail = 0 && !s1.dev.pwr.thermtrip then some 5 else none)) s1

/-- CONNECTOR_RESET. -/
def execConnectorReset (s : State) : Host.Outcome State Fault Refusal := .next (connectorReset s)

/-- A fatal threshold has been held for 1 ms (R426, R475): the record and the shutdown mark are written, and main power is off until
a POWER_CYCLE or a loss of standby power. -/
def thermalShutdown (id : Nat) (s : State) : State :=
  let held := (Tab.get s.dev.mc.fatalSince id).any (fun t => decide (t + msec 1 ≤ clock iodie s.dev))
  if s.dev.mc.up && held && decide (1 ≤ id ∧ id < 36) && !s.dev.pwr.thermtrip then
    let d1 := logEv 11 3 0x0A 3 (bytesLE 2 id ++ bytesLE 2 (unsignedOf 16 (sensorReading id s.dev))) s.dev
    let f1 := { s.flash with mark := true }
    onDev (fun d => { d with
        pwr := { d.pwr with mainOn := false, thermtrip := true }, mc := { d.mc with resetReq := none, offReason := 0 } })
      (clearMain 4 { s with flash := f1, dev := d1 })
  else s

/-- THERMAL_SHUTDOWN. -/
def execThermalShutdown (id : Nat) (s : State) : Host.Outcome State Fault Refusal := .next (thermalShutdown id s)

/-! ## Standby power and the management controller (R422, R430, R432, R485, R508, R510) -/

/-- A record that was being programmed is cut short (R439): its slot counts as written. -/
def tearRecord (s : State) : State :=
  if s.dev.mc.up && !s.dev.mc.clearing && !s.dev.mc.buffer.isEmpty && decide (s.dev.mc.next < 65536) then
    let m := { s.dev.mc with next := s.dev.mc.next + 1 }
    { s with
      flash := { s.flash with log := Tab.set s.flash.log s.dev.mc.next .torn, seq := s.flash.seq + 1 },
      dev := { s.dev with mc := m } }
  else s

/-- The MC without power: what flash holds of the log is left. -/
def mcOff (m : Mc) : Mc :=
  { Mc.off with next := m.next, dropped := m.dropped, clearing := m.clearing, boot := m.boot, nextSess := m.nextSess,
                measures := m.measures }

/-- Standby power is lost (R508): records in the buffer are lost (R439), the stage opens, and the next start is a power-up. -/
def standbyLoss (s : State) : State :=
  if !s.dev.pwr.standby then s
  else
    let s1 := clearMain 0 (tearRecord s)
    let m := mcOff s1.dev.mc
    { s1 with dev := { s1.dev with
      pwr := { s1.dev.pwr with standby := false, mainOn := false, thermtrip := false }, mc := m } }

/-- STANDBY_LOSS. -/
def execStandbyLoss (s : State) : Host.Outcome State Fault Refusal := .next (standbyLoss s)

/-- Power is first applied, or standby returns (R485, R508). -/
def powerUp (s : State) : State :=
  if s.dev.pwr.standby && (s.dev.mc.up || s.dev.start.begun.isSome) then s
  else
    let s1 := clearMain 0 s
    let m := mcOff s1.dev.mc
    { s1 with dev := { s1.dev with pwr := { s1.dev.pwr with standby := true, mainOn := false }, mc := m } }

/-- POWER_UP. -/
def execPowerUp (s : State) : Host.Outcome State Fault Refusal := .next (powerUp s)

/-- What a start of the MC finds of its identity (R430, R432): 0 nothing wrong, 1 no PUF secret, 2 an identity key other than the one that the
device certificate holds. -/
def identityCode (puf : Option (BitVec 256)) (f : Flash) : Nat :=
  match puf with
  | none => 1
  | some x => if f.chain.any (fun c => c.device == some x) then 0 else 2

/-- A copy of the management firmware starts: it is VALID. -/
def copyStarts (k : Nat) (f : Flash) : Flash := updCopy k (fun b => { b with state := 1 }) { f with mgmtActive := k }

/-- Stage one starts the copy of the management firmware that its selector names; where that copy does not start, it is FAILED, and the other, where
it is VALID or VERIFIED and starts, is started in its place, the selector names it and a record is written (R453, R471). The flag says that one
started. -/
def startCopy (c : FirmwareCheck) (s : State) : State × Bool :=
  let k := s.flash.mgmtActive
  let o := otherCopy s.flash
  if c.copies.getD k false then ({ s with flash := copyStarts k s.flash }, true)
  else
    let s1 := { s with flash := updCopy k (fun b => { b with state := 5 }) s.flash }
    if ((copyAt o s.flash).state = 1 ∨ (copyAt o s.flash).state = 3) ∧ c.copies.getD o false = true then
      ({ s1 with
        flash := copyStarts o s1.flash,
        dev := logEv 11 2 0x09 5 (bytesLE 1 k ++ bytesLE 4 ((copyAt k s.flash).image.map Image.version |>.getD 0)) s1.dev }, true)
    else (s1, false)

/-- Measurement 3 (R435): the management firmware that runs. -/
def firmwareMeasure (f : Flash) : List Byte :=
  digestBytes (((copyAt f.mgmtActive f).image.map (fun im => sectionDigest im 0x10)).getD 0)

/-- The MC's state after a start (R422): sessions, endpoint, receiver and sensors begin anew; the log, a reset under way and
measurements 4 to 6 stay; the PUF gives its secret anew (R430), and measurements 1 to 3 are taken (R435). -/
def mcStarted (f : Flash) (fail : Nat) (puf : Option (BitVec 256)) (m : Mc) : Mc :=
  { mcOff m with
    up := true, identityFail := fail, secret := puf, boot := f.boot, buffer := m.buffer, resetReq := m.resetReq, offReason := m.offReason,
    offAt := m.offAt,
    measures := [natLE 4 Config.romVersion.toNat, digestBytes Config.stageOne, firmwareMeasure f] ++ m.measures.drop 3 }

/-- An update that has not committed ends at a restart of the MC (R454, R469): the pairs that handed over run the old firmware again, and the
structure of a coordinated activation goes back. -/
def updateStops (s : State) : State :=
  let d := each (List.range s.dev.upd.pairs).reverse handPair s.dev
  endLease { s with dev := when_ (decide (7 ≤ s.dev.upd.state)) (fun d => standbyBack (undoShape d)) d }

/-- The MC without a copy of its firmware that starts (R471): it answers nothing. -/
def mcDown (d : Dev) : Dev := { d with mc := { mcOff d.mc with buffer := d.mc.buffer } }

/-- The MC starts, or restarts while the module runs on (R422, R471): an update that has not committed ends. -/
def mcStart (straps : Nat) (puf : Option (BitVec 256)) (c : FirmwareCheck) (s : State) : State :=
  let r := startCopy c (updateStops s)
  let s1 := r.1
  if !s.dev.pwr.standby then s
  else if !r.2 then { s1 with dev := mcDown s1.dev }
  else
    let fail := identityCode puf s1.flash
    let seen := getF .platformStatus 0 0 31 31 s1.dev
    let m := mcStarted s1.flash fail puf s1.dev.mc
    let d1 := { s1.dev with
      mc := m, pwr := { s1.dev.pwr with straps := straps % 8 }, regs := s1.dev.regs.filter (fun p => !mcReg p.1) }
    let d2 := when_ (decide (seen = 1)) (setBit .platformStatus 0 0 31) d1
    { s1 with dev := when_ (decide (fail ≠ 0)) (logEv 11 3 0x0A 4 (bytesLE 1 fail)) d2 }

/-- MC_START. -/
def execMcStart (straps : Nat) (puf : Option (BitVec 256)) (firmware : FirmwareCheck) (s : State) : Host.Outcome State Fault Refusal :=
  .next (mcStart straps puf firmware s)

/-! ## Main start-up: the image (R449 to R453) -/

/-- An Image register takes its start-up value in its RW fields, limited by its field map (R450, R535). -/
def applyEntry (e : Nat × Nat) (d : Dev) : Dev :=
  match findReg e.1 with
  | some (r, i, j) =>
    if imageReg r.name then setW r.name i j (r.write (resetWord r.name i j) (Nat.land e.2 (rwMask r))) d else d
  | none => d

/-- What reading a bank meets at this start. -/
def bankFound (k : Nat) (f : StartFindings) : BankFindings := f.banks.getD k ⟨[], none⟩

/-- Does a bank hold an image, and does it pass step 2 of R452? -/
def bankLoads (k : Nat) (f : StartFindings) (s : State) : Bool :=
  bankPasses (slotZero s) s.flash.signKey (bankFound k f) (bankAt k s.flash)

/-- May the other bank be tried (R453)? -/
def mayTry (k : Nat) (fl : Flash) : Bool := decide ((bankAt k fl).state = 1 ∨ (bankAt k fl).state = 3)

/-- Does the I/O-die cipher engine find a tag of a bank's units wrong, so that CIPHER_STATS_2 counts it (R421)? -/
def tagFails (k : Nat) (f : StartFindings) (s : State) : Bool :=
  (bankAt k s.flash).image.isSome &&
    ((slotZero s).bind (fun key => bankPlain key (bankFound k f).damaged (bankAt k s.flash))).isNone

/-- A bank fails at start-up (R453). -/
def bankFails (k : Nat) (f : StartFindings) (s : State) : State :=
  let d1 := when_ (tagFails k f s) (countIodCipher (if (slotZero s).isSome then 1 else 2)) s.dev
  { s with
    flash := updBank k (fun b => { b with state := 5 }) s.flash,
    dev := bankRecord k 2 2 s.flash d1 }

/-- The bank selection (R452, R453): the active bank, or the other where it fails; the flag says that one loads. -/
def chooseBank (f : StartFindings) (s : State) : State × Bool :=
  let k := s.flash.active
  let o := otherBank s.flash
  if bankLoads k f s then ({ s with flash := updBank k (fun b => { b with state := 1 }) s.flash }, true)
  else
    let s1 := bankFails k f s
    if !mayTry o s1.flash then (s1, false)
    else if bankLoads o f s1 then
      let f1 := updBank o (fun b => { b with state := 1 }) s1.flash
      let f2 := writeSelector o (selector f1).store f1
      let st := { s1.dev.start with fallback := true }
      ({ s1 with flash := f2, dev := bankRecord o 1 3 f2 { s1.dev with start := st } }, true)
    else (bankFails o f s1, false)

/-- The settings that apply at start-up (R450, R451), as the store that is in force and its entries: nothing where no store was ever written;
converted where the formats differ; none where an entry is invalid, the store is damaged, or the firmware cannot convert it. -/
def startSettings (f : StartFindings) (im : Image) (fl : Flash) : Option (Option (List Byte) × List (Nat × Nat)) :=
  match storeInForce fl with
  | none => some (none, [])
  | some l =>
    if !storeWhole l then none
    else
      let st := settingsOf l
      match (if st.fmt = im.fmt then some (l, st.entries) else f.converted.map (fun e => (storeBytes im.fmt e, e))) with
      | none => none
      | some (raw, e) => if (firstInvalid 0 [] e).isSome then none else some (some raw, e)

/-- The structure, the curves, the tables and the control firmware of an image are loaded (R452 step 4). -/
def loadSections (im : Image) (d : Dev) : Dev :=
  applyCosts im.contents.costs { d with upd := { d.upd with
    shape := im.contents.shape, cores := List.replicate 18 (CorePair.start (sectionDigest im 7)), era := 0,
    eras := [(0, tablesOf im)] } }

/-- The image takes effect (R450 to R452): settings that do not apply leave DEFAULTS alone in force. -/
def loadImage (im : Image) (f : StartFindings) (s : State) : State :=
  let st := startSettings f im s.flash
  let d1 := setMeasures im (st.bind Prod.fst) s.dev
  let d2 := each im.contents.defaults applyEntry (loadSections im d1)
  let d3 := each ((st.map Prod.snd).getD []) applyEntry { d2 with upd := { d2.upd with settingsIgnored := st.isNone } }
  { s with dev := when_ st.isNone (logEv 11 2 0x09 4 (bytesLE 1 s.flash.active ++ bytesLE 4 im.version)) d3 }

/-! ## Main start-up: self-test, memories and links (R476, R480 to R482) -/

/-- An unused spare brick that fails its self-test (R481): its course has no spare. -/
def spareFails (c : Nat) (d : Dev) : Dev :=
  let r := d.start.repair
  if Tab.has r.spares c || r.badSpare.contains c then d
  else
    let r1 := { r with badSpare := r.badSpare ++ [c] }
    logEv (c / 8) 2 0x02 4 (bytesLE 1 (c / 8) ++ bytesLE 1 (c % 8) ++ bytesLE 1 16) { d with start := { d.start with repair := r1 } }

/-- A brick that fails its self-test (R481, R483): the spare takes its index, or the index is lost. -/
def brickFails (b : Nat) (d : Dev) : Dev :=
  let r := d.start.repair
  if r.lost.contains b then d
  else
    let ok := spareFree b d
    let r1 := if ok then { r with spares := Tab.set r.spares (courseOf b) (b % 16) } else { r with lost := r.lost ++ [b] }
    brickRecord b 0 0 2 (if ok then 2 else 3) (if ok then 1 else 2) { d with start := { d.start with repair := r1 } }

/-- A lane cell that fails its self-test: substituted, or its position is down (R337, R338, R481). -/
def cellFails (p : Nat × Nat) (d : Dev) : Dev := substitutionEnd p.1 (cellFault p.1 p.2 d)

/-- A reduction lane that fails its self-test: retired for a spare, or out of service (R325, R481). -/
def laneFails (p : Nat × Nat) (d : Dev) : Dev :=
  let l := lanesAt p.1 d
  if 2 ≤ p.1 ∨ l.out.contains p.2 then d
  else
    let l1 := { l with
      out := l.out ++ [p.2], spares := l.spares - 1, available := if l.spares = 0 then l.available - 1 else l.available }
    logEv (8 + p.1) 2 0x05 4 (bytesLE 1 p.1 ++ bytesLE 2 0 ++ bytesLE 1 p.2)
      { d with colls := { d.colls with lanes := d.colls.lanes.set p.1 l1 } }

/-- A pseudo-channel that fails the interface check: retired (R153, R481). -/
def channelFails (p : Nat × Nat) (d : Dev) : Dev :=
  if 8 ≤ p.1 ∨ 64 ≤ p.2 ∨ (stackAt p.1 d).retired.contains p.2 then d
  else logEv p.1 2 0x03 3 (memData p.1 (p.2 / 8) p.2 0) (updStack p.1 (fun st => { st with retired := st.retired ++ [p.2] }) d)

/-- The state of a group by its pseudo-channels in service: NORMAL, REDUCED, or OUT below 4 (R156). -/
def groupStart (st : Stack) (g : Nat) : Nat :=
  let n := (pcsInService st g).length
  if n = 8 then 0 else if n < 4 then 4 else 3

/-- The frames of a group from its highest down. -/
def groupTop (n : Nat) (st : Stack) (g : Nat) : List Nat :=
  let k := groupFrames st g
  (List.range k).map (fun i => 1536 * n + 192 * g + (k - 1 - i))

/-- The context store of a stack at start-up (R140): the top frames of each group in service; what a group that is OUT would give
comes from the others in rotation. -/
def startStore (n : Nat) (st : Stack) : List Nat :=
  let own := fun g => if g < 2 then 7 else 6
  let base := (List.range 8).flatMap (fun g => (groupTop n st g).take (own g))
  let more := (List.range 192).flatMap (fun r => (List.range 8).filterMap (fun g => (groupTop n st g)[own g + r]?))
  base ++ more.take (50 - base.length)

/-- A stack after step 5 (R476): its groups and its context store. -/
def startStack (n : Nat) (d : Dev) : Dev :=
  updStack n (fun st =>
    let s1 := { st with groups := (List.range 8).map (groupStart st) }
    { s1 with store := startStore n s1 }) d

/-- The repair record is applied (R480): spare maps, cells, retired pseudo-channels, rows and lanes. -/
def applyRepair (d : Dev) : Dev :=
  let r := d.start.repair
  let d1 := each (List.range 8) (fun n d => updStack n (fun st => { st with
    retired := Tab.getD r.retired n [], rows := Tab.getD r.rows n 0 }) d) d
  let serve := fun e =>
    let l0 := match Tab.get r.s0 e with
      | some k => (List.range 16).set k 16
      | none => List.range 16
    match Tab.get r.s1 e with
    | some k => l0.set k 17
    | none => l0
  let d2 := each (List.range 8) (fun e d => updEng e (fun x => { x with
    mode := d.upd.shape.modes.getD e 0, serves := serve e, down := Tab.getD r.posDown e [], bad := Tab.getD r.badCells e [] }) d) d1
  let lane := fun i =>
    let out := r.lanesOut.getD i []
    let sp := r.lanesSpare.getD i 4
    ({ available := 64 - (out.length - (4 - sp)), spares := sp, out := out } : Lanes)
  { d2 with colls := { d2.colls with lanes := [lane 0, lane 1] } }

/-- Step 4 and the interface check of step 5 (R481); of cells that fail together the lower position is served first (R338). -/
def selfTest (f : StartFindings) (d : Dev) : Dev :=
  let d1 := each f.spares spareFails d
  let d2 := each (f.bricks.mergeSort (fun a b => decide (a ≤ b))) brickFails d1
  let d3 := each (f.cells.mergeSort (fun a b => decide (a.1 < b.1 ∨ (a.1 = b.1 ∧ a.2 ≤ b.2)))) cellFails d2
  let d4 := each f.lanes laneFails d3
  each f.channels channelFails d4

/-- A DDR5 site after step 6 (R141, R157): what is in it was checked and trained. -/
def startSite (p : Nat × Nat × Bool × Bool) (d : Dev) : Dev :=
  let (s, cap, supported, trains) := p
  if 8 ≤ s then d
  else if !supported || decide (256 < cap) then
    logEv 13 2 0x03 7 (siteData s) (updSite s (fun _ => { state := 2, present := true, capGiB := min cap 256, lost := [] }) d)
  else if trains then updSite s (fun _ => { state := 4, present := true, capGiB := cap, lost := [] }) d
  else logEv 13 2 0x03 6 (siteData s) (updSite s (fun _ => { state := 7, present := true, capGiB := cap, lost := [] }) d)

/-- Step 7 for the laser bays (R339, R341): a unit that fails its check is UNSUPPORTED, one that does not report its connector mated stays
in CHECKING, the others rise, sharing their group. -/
def startLasers (t : Tab (Bool × Bool)) (d : Dev) : Dev :=
  let good := fun u => Tab.get t u == some (true, true)
  each (t.filter (fun p => decide (p.1 < 8))) (fun p d =>
    let d1 := updLaser p.1 (fun _ => { state := 1, present := true, fault := 0, draw := 0, rising := none }) d
    if !p.2.1 then logEv 12 2 0x06 4 (netData 0 0 0 p.1 0) (laserState p.1 2 0 d1)
    else if !p.2.2 then d1
    else if good (partner p.1) then laserState p.1 3 60 d1
    else laserState p.1 4 120 d1) d

/-- Step 8 (R479): the Melel link trains, or keeps training. -/
def startMelel (lanes : Nat) (d : Dev) : Dev :=
  match laneWidth lanes with
  | 0 => d
  | w => { d with link := { d.link with up := true, trained := true, width := w } }

/-- The fields that are limited against another field, or against the port's rate, hold their limited values from the start (R450, R535,
R370); the shares of the instances keep within 256 (R403). -/
def startLimits (d : Dev) : Dev :=
  let d1 := each (List.range 8) (relimit .migrationWater) d
  let d2 := relimit .pesynGrant 1 (relimit .pesynGrant 0 (relimit .pesynWindow 0 (relimit .pesynTimers 0 d1)))
  let d3 := limitShares ((List.range 64).filter (Tab.has d2.upd.shape.insts)) d2
  each (List.range 32) (fun p d => setW .ctrlShaper p 0 (min (portRate p d) (getW .ctrlShaper p 0 d)) d) d3

/-- What is in force from the registers' start-up values: addresses, pool, windows, slice length, epoch of the counters. -/
def startInForce (d : Dev) : Dev :=
  let wins := (List.range 64).filterMap (fun n =>
    if (windowReg n d).1 = 0 then none else some (n, windowReg n d))
  { d with
    addr := addrWritten d,
    tiers := { d.tiers with poolUnits := getF .basinPool 0 0 6 0 d, windows := wins },
    bricks := { d.bricks with sliceUs := getF .brickSlice 0 0 15 0 d },
    xl := { d.xl with epochMs := getF .migrationCtrl 0 0 7 0 d, epochAt := clock iodie d } }

/-- Start tags of regions (R233) and the cipher epoch, beyond every one recorded (R295). -/
def startCounters (boot : Nat) (d : Dev) : Dev :=
  let e := (d.start.epochs + 1) % 2 ^ 23
  { d with
    rem := { d.rem with fresh := 1 + boot % 4095 },
    pes := d.pes.map (fun p => { p with epoch := e, count := 0 }),
    start := { d.start with epochs := e + 1 } }

/-- The conditions of R475, with what holds main power off. -/
def mayStart (d : Dev) : Bool :=
  d.pwr.standby && d.mc.up && decide (d.mc.identityFail = 0) && !d.pwr.thermtrip && !d.pwr.stageOpen &&
  decide (d.mc.offReason ≠ 2) && d.start.begun.isNone && d.pwr.inRangeSince.any (fun t => decide (t + msec 10 ≤ clock iodie d))

/-- A start begins (R438, R475): BOOT_COUNT rises, the BOOT record carries the cause, and the shutdown mark is cleared. -/
def beginStart (f : StartFindings) (s : State) : State :=
  let boot := (s.flash.boot + 1) % 2 ^ 32
  let cause := if s.flash.mark then 4 else s.dev.start.nextCause
  let blank := !f.recordOk
  let st := { s.dev.start with
    begun := some (clock iodie s.dev), cause := cause, step := 2, rebuilt := blank, repair := if blank then RepairRec.blank else s.flash.repair }
  let m := { s.dev.mc with boot := boot, resetReq := none }
  let d1 := { s.dev with start := st, mc := m, regs := s.dev.regs.filter (fun p => mcReg p.1 || p.1 == 0x12000 || p.1 == 0x12004) }
  let d2 := logEv 11 0 0x0A 1 (bytesLE 4 cause) d1
  { s with
    flash := { s.flash with boot := boot, mark := false },
    dev := when_ blank (logEv 11 2 0x03 8 (memData 0 0 0 0)) d2 }

/-- Main start-up runs its steps (R476), while MOD_RESET_N is high (R511): with no bank that loads it stops after step 2, and main logic stays
without power (R453). The I/O-die cipher engine draws on the allowance while the image is decrypted (R45). -/
def mainStartup (f : StartFindings) (s : State) : State :=
  if !mayStart s.dev || !f.pinHigh then s
  else
    let s0 := beginStart f s
    let r := chooseBank f { s0 with dev := wantImage .iodCipher s0.dev }
    match r.2, runningImage r.1.flash with
    | true, some im =>
      let s1 := onDev imageIdle (loadImage im f r.1)
      let d1 := selfTest f (applyRepair (setMain true s1.dev))
      let d2 := each (List.range 8) startStack d1
      let d3 := startLasers f.lasers (each f.sites startSite d2)
      let d4 := startMelel f.melel d3
      let d5 := startCounters s1.flash.boot (startInForce (startLimits d4))
      programRepair { s1 with dev := { d5 with start := { d5.start with step := 8 } } }
    | _, _ => onDev (fun d => setMain false (imageIdle d)) r.1

/-- MAIN_STARTUP. -/
def execMainStartup (f : StartFindings) (s : State) : Host.Outcome State Fault Refusal := .next (mainStartup f s)

/-- Main start-up ends (R477, R478): READY is set, and every configured instance is ACTIVE at generation 0; a DDR5 module that was put in
after step 6 is checked (R489). -/
def startupReady (d : Dev) : Dev :=
  match d.start.begun with
  | none => d
  | some t =>
    if d.start.ready || decide (d.start.step ≠ 8) then d
    else
      let st := { d.start with ready := true, step := 9, readyTime := min 65535 ((clock iodie d - t) / 80000), inserted := [] }
      each d.start.inserted (fun p d => ddr5ModuleInserted p.1 p.2.1 p.2.2 d) { d with
        start := st, insts := d.upd.shape.insts.map (fun p => (p.1, Inst.start d.upd.shape p.1)),
        pwr := { d.pwr with readyPin := true } }

/-- STARTUP_READY. -/
def execStartupReady (s : State) : Host.Outcome State Fault Refusal := .next (onDev startupReady s)

end Sys2Proof.Machine
end

