-- ==== Sys2Proof/Machine/ControlSpace.lean ====
section
/-! DEFINITION. Control space (R11 to R17, R478, R523 to R535): what an access reaches, what each register reads, what a write of it
does, and the accesses that are counted. -/

namespace Sys2Proof.Machine

/-! ## Registers that show state (R529: Sensed, Flash, Repair record, Selector, and counts in use) -/

/-- A flag as the bit at a place. -/
def flagAt (b : Bool) (k : Nat) : Nat := if b then 2 ^ k else 0

/-- A word with the bit of each element of a list set. -/
def bitSet (l : List Nat) : Nat := ((List.range 32).map (fun k => flagAt (l.contains k) k)).sum

/-- LEDGER_CAP (R50). -/
def ledgerCapWord (i : Nat) (d : Dev) : Nat :=
  let r := railAt i d
  r.sixteenths * 2 ^ 26 + r.capacity * 2 ^ 16 + r.full

/-- LEDGER_GRANTED (R50). -/
def ledgerGrantedWord (i : Nat) (d : Dev) : Nat :=
  let r := railAt i d
  (r.standing + r.allowance) * 2 ^ 16 + r.granted

/-- LEDGER_WAIT (R50). -/
def ledgerWaitWord (i : Nat) (d : Dev) : Nat :=
  let w := (railAt i d).waiting
  ((w.head?.map (fun x => x.req.cost)).getD 0) * 2 ^ 16 + min 65535 w.length

/-- A course entry (R97): course `c` of the module is die × 8 + course. -/
def courseEntry (c : Nat) (d : Dev) : Nat :=
  let r := d.start.repair
  flagAt (Tab.has r.spares c) 7 + flagAt (r.lost.any (fun b => b / 16 == c)) 6 + Tab.getD r.spares c 0 % 16

/-- BRICK_SPARE_LO and BRICK_SPARE_HI: four course entries. -/
def courseWord (c : Nat) (d : Dev) : Nat := ((List.range 4).map (fun k => courseEntry (c + k) d * 2 ^ (8 * k))).sum

/-- BRICK_HEALTH (R490). -/
def brickHealthWord (i : Nat) (d : Dev) : Nat :=
  let r := d.start.repair
  (r.lost.filter (fun b => b / 128 == i)).length * 2 ^ 16 + ((List.range 8).map (fun c => flagAt (r.badSpare.contains (8 * i + c)) c)).sum

/-- HBM_REPAIR (R156): the fewest spare rows left are a value that the spec leaves open. -/
def hbmRepairWord (n : Nat) (d : Dev) : Nat :=
  let rows := (stackAt n d).rows
  min 255 (Config.sparesLeft n rows) * 2 ^ 16 + min 65535 rows

/-- DDR5_SITE (R161). -/
def ddr5SiteWord (k : Nat) (d : Dev) : Nat :=
  let x := siteAt k d
  x.state * 2 ^ 28 + flagAt x.present 27 + x.capGiB * 2 ^ 16 + siteHeld k d

/-- MIGRATION_STATUS.ACTIVE (R193). -/
def moveCode (d : Dev) : Nat :=
  match d.xl.move.map Move.kind with
  | none => 0
  | some .retire => 1
  | some .evacuate => 2
  | some .advice => 3
  | some .counters => 4

/-- ADMIN_STATUS (R222). -/
def adminStatusWord (n : Nat) (d : Dev) : Nat :=
  let a := adminAt n d
  flagAt (a.wait.isSome || (a.reading && a.head.isSome)) 17 + flagAt (adminOn n d && !a.detached) 16 + a.c % 65536

/-- COLL_LANES (R333). -/
def collLanesWord (i : Nat) (d : Dev) : Nat :=
  (lanesAt i d).available * 2 ^ 16 + (lanesHeld i d).length * 2 ^ 8 + (lanesAt i d).spares

/-- ENGINE_STATUS (R342). -/
def engineStatusWord (e : Nat) (d : Dev) : Nat :=
  let x := engAt e d
  x.mode % 2 * 2 ^ 31 + flagAt x.s1.isSome 30 + x.s1.getD 0 * 2 ^ 26 + flagAt x.s0.isSome 25 + x.s0.getD 0 * 2 ^ 21 + bitSet x.down

/-- LASER_STATUS (R342). -/
def laserStatusWord (u : Nat) (d : Dev) : Nat :=
  let x := laserAt u d
  x.state * 2 ^ 28 + flagAt x.present 27 + (if x.state = 7 then x.fault * 2 ^ 16 else 0) + x.draw

/-- PORT_STATUS (R350): the link and its faults beside the stored bits. -/
def portStatusWord (p : Nat) (d : Dev) : Nat :=
  flagAt (linkUp p d) 31 + flagAt (portAt p d).local_ 30 + flagAt (portAt p d).remote 29 + getF .portStatus p 0 4 0 d

/-- SCHED_LEAF and SCHED_NODE (R370): what the shape says beside the weight. -/
def schedLeafWord (l : Nat) (d : Dev) : Nat :=
  (match Tab.get d.upd.shape.leaves l with
   | some (n, x) => n * 2 ^ 26 + 2 ^ 25 + x * 2 ^ 16
   | none => 0) + getF .schedLeaf l 0 15 0 d

/-- SCHED_NODE: the root is in every shape. -/
def schedNodeWord (x : Nat) (d : Dev) : Nat :=
  (match Tab.get d.upd.shape.nodes x with
   | some p => 2 ^ 31 + p * 2 ^ 16
   | none => if x = 0 then 2 ^ 31 else 0) + getF .schedNode x 0 15 0 d

/-- STATE of a key slot (R414): the image key, the wrapping key, and the keys loaded. -/
def slotLoaded (k : Nat) (s : State) : Bool :=
  if k = 0 then s.flash.imageKey.isSome else if k = 1 then s.flash.wrapKey.isSome else Tab.has s.dev.keys.keys k

/-- MGMT_STATUS (R445). -/
def mgmtStatusWord (s : State) : Nat :=
  flagAt s.dev.mc.up 31 + flagAt (s.dev.mc.identityFail != 0) 30 + flagAt s.flash.wrapKey.isSome 29 + s.dev.mc.sessions.length % 4

/-- SENSOR_VALUE (R445): of a numeric sensor its reading, of a state sensor its state (R425). -/
def sensorWord (d : Dev) : Nat :=
  let id := getF .sensorSelect 0 0 7 0 d
  if isSensor id then unsignedOf 32 (sensorReading id d) else (stateSensor id d).getD (2 ^ 31)

/-- START_STATUS (R490). -/
def startStatusWord (d : Dev) : Nat :=
  let x := d.start
  flagAt x.ready 31 + flagAt x.rebuilt 30 + flagAt x.fallback 29 + x.step % 16 * 2 ^ 24 + x.cause % 16 * 2 ^ 16 + x.readyTime % 65536

/-- PLATFORM_STATUS (R516, R522). -/
def platformWord (d : Dev) : Nat :=
  let shows := fun st => d.pwr.standby && (st == 6 || st == 2 || st == 7)
  getF .platformStatus 0 0 31 31 d * 2 ^ 31 + flagAt d.pwr.standby 30 + d.pwr.straps % 8 * 2 ^ 16 +
    bitSet ((List.range 8).filter (fun u => shows (laserAt u d).state)) * 2 ^ 8 +
    bitSet ((List.range 8).filter (fun k => shows (siteAt k d).state))

/-- The version of the image in a bank. -/
def versionIn (k : Nat) (f : Flash) : Nat := ((bankAt k f).image.map Image.version).getD 0

/-- A register of the device that shows state rather than what was stored in it; none for a stored register. -/
def devWord (n : RegName) (i j : Nat) (d : Dev) : Option Nat :=
  match n with
  | .ledgerCap => some (ledgerCapWord i d)
  | .ledgerGranted => some (ledgerGrantedWord i d)
  | .ledgerWait => some (ledgerWaitWord i d)
  | .brickSpareLo => some (courseWord (8 * i) d)
  | .brickSpareHi => some (courseWord (8 * i + 4) d)
  | .brickLost => some (bitSet ((d.start.repair.lost.filter (fun b => b / 32 == 4 * i + j)).map (fun b => b % 32)))
  | .brickHealth => some (brickHealthWord i d)
  | .brickSlice => some (flagAt (getF .brickSlice 0 0 15 0 d != d.bricks.sliceUs) 16 + getF .brickSlice 0 0 15 0 d)
  | .hbmRepair => some (hbmRepairWord i d)
  | .hbmPcRetiredLo => some (bitSet (stackAt i d).retired)
  | .hbmPcRetiredHi => some (bitSet (((stackAt i d).retired.filter (fun p => decide (32 ≤ p))).map (fun p => p - 32)))
  | .hbmGroupState => some (((List.range 8).map (fun g => (stackAt i d).groups.getD g 0 * 16 ^ g)).sum)
  | .ddr5Site => some (ddr5SiteWord i d)
  | .basinPool => some (withBits (getW .basinPool 0 0 d) 16 16 (flagAt (getF .basinPool 0 0 6 0 d != d.tiers.poolUnits) 0))
  | .basinWindow => some (withBits (getW .basinWindow i 0 d) 30 30 (flagAt (windowReg i d != windowNow i d) 0))
  | .xlateUsage => some (framesHeld i d * 2 ^ 16 + Tab.count d.xl.ctxs (fun _ c => c.inst == i))
  | .migrationStatus => some (withBits (getW .migrationStatus 0 0 d) 2 0 (moveCode d))
  | .queueUsage => some (wqsHeld i d * 2 ^ 15 + crsHeld i d)
  | .counterUsage => some (ctrsHeld i d)
  | .adminStatus => some (adminStatusWord i d)
  | .regionUsage => some (regionsHeld i d)
  | .domainUsage => some (domsHeld i d)
  | .pinUsage => some (pinsHeld i d)
  | .commUsage => some (commsHeld i d)
  | .memberUsage => some (membersHeld i d)
  | .pesynNode => some (flagAt d.addr.waits 31 + getF .pesynNode 0 0 23 0 d)
  | .pesynSlots => some (pesAt i d).slots.length
  | .pesynFilter => some (getF .pesynFilter i 0 31 31 d * 2 ^ 31 + (pesAt i d).filter.length)
  | .collLanes => some (collLanesWord i d)
  | .collChunks => some (chunksInUse i d)
  | .engineStatus => some (engineStatusWord i d)
  | .laserStatus => some (laserStatusWord i d)
  | .portStatus => some (portStatusWord i d)
  | .prioBuf => some (withBits (getW .prioBuf i j d) 31 24 (min 255 ((bufAt i j d).fill / 16384)))
  | .statsSelect => some (flagAt (statsNow d).2 31 + getW .statsSelect 0 0 d)
  | .statsDataLo => some ((statsNow d).1 % 2 ^ 32)
  | .statsDataHi => some d.net.latchHi
  | .policeStatsSelect => some (flagAt (policeNow d).2 31 + getW .policeStatsSelect 0 0 d)
  | .policeStatsDataLo => some ((policeNow d).1 % 2 ^ 32)
  | .policeStatsDataHi => some d.net.latchPol
  | .schedLeaf => some (schedLeafWord i d)
  | .schedNode => some (schedNodeWord i d)
  | .instSched => some ((instAt i d).leaf0 * 2 ^ 16 + (instAt i d).node)
  | .shaperTokens => some (unsignedOf 32 (tokens i j d / 32))
  | .melelStatus => some (flagAt d.link.up 31 + flagAt d.link.retrain 30 + d.link.width % 4 * 2 ^ 28 + d.link.epoch % 65536)
  | .instStatus => some ((instAt i d).state * 2 ^ 29 + (instAt i d).gen % 65536)
  | .instUsage => some (withBits (getW .instUsage i 0 d) 13 0 (slotsHeld i d))
  | .instSelf => some ((instAt i d).state % 4 * 2 ^ 30 + i * 2 ^ 16 + (instAt i d).gen % 65536)
  | .keyLoadStatus => some (withBits (getW .keyLoadStatus 0 0 d) 31 31 (flagAt d.keys.running.isSome 0))
  | .logStatus => some (logStatusWord d)
  | .logDropped => some d.mc.dropped
  | .logWindow => some (windowWord i d)
  | .sensorValue => some (sensorWord d)
  | .updateStatus => some (updateStatusWord d)
  | .updateDetail => some d.upd.detail
  | .startStatus => some (startStatusWord d)
  | .platformStatus => some (platformWord d)
  | _ => none

/-- A register that shows what management flash holds; none for any other. -/
def flashWord (n : RegName) (i j : Nat) (s : State) : Option Nat :=
  match n with
  | .modSerialLo => some (s.flash.serial % 2 ^ 32)
  | .modSerialHi => some (s.flash.serial / 2 ^ 32)
  | .keySlot => some (withBits (getW .keySlot i j s.dev) 31 30 (flagAt (slotLoaded i s) 0))
  | .mgmtStatus => some (mgmtStatusWord s)
  | .bootCount => some s.flash.boot
  | .bankStatus => some (bankStatusWord s)
  | .imageVersionA => some (versionIn 0 s.flash)
  | .imageVersionB => some (versionIn 1 s.flash)
  | .activationCount => some s.flash.actCount
  | .mgmtVersion => some (((copyAt s.flash.mgmtActive s.flash).image.map Image.version).getD 0)
  | _ => none

/-- The word of a register as it stands. -/
def regWord (n : RegName) (i j : Nat) (s : State) : Nat :=
  match flashWord n i j s with
  | some w => w
  | none => (devWord n i j s.dev).getD (getW n i j s.dev)

/-! ## What an address reaches (R16, R17, R334, R526) -/

/-- What one 32-bit half of an access reaches: a register, a doorbell page, or nothing, with the KIND that counts it (R532). -/
inductive Reach where
  | reg (r : RegRow) (i j : Nat)
  | page
  | bad (kind : Nat)
  deriving DecidableEq, Repr

/-- Does a register stand in a port's block (R350)? -/
def portBlock (n : RegName) : Bool :=
  match n with
  | .portCtrl | .portStatus | .flowCtrl | .flowTiming | .ucastLo | .ucastHi | .mcastLo | .mcastHi | .prioBuf | .dscpMap => true
  | _ => false

/-- What a control-space address reaches. -/
def reach (a : Nat) (d : Dev) : Reach :=
  if 0x41000000 ≤ a then .bad 2
  else if 0x01000000 ≤ a && !configured (a / 0x01000000 - 1) d then .bad 4
  else if 0x01000000 ≤ a && decide (a % 0x01000000 < 0x100000) then .page
  else
    match findReg a with
    | some (r, i, j) => if portBlock r.name && !portExists i d then .bad 3 else .reg r i j
    | none => .bad 3

/-- Is an access of a width that R15 allows, naturally aligned? -/
def wellSized (off width : Nat) : Bool := (width == 4 || width == 8) && off % width == 0

/-- The 32-bit halves of an access (R525). -/
def halves (a width : Nat) : List Nat := if width = 8 then [a, a + 4] else [a]

/-! ## Writes -/

/-- A write by the access codes alone (R11, R14, R535). -/
def plainWrite (n : RegName) (i j w : Nat) (d : Dev) : Dev := setW n i j (taken n (getW n i j d) w) d

/-- INST_CTRL_n (R395, R399, R407): refused as a whole where R461 holds the instance. A QUIESCED instance becomes ACTIVE with
RELEASE, and at once where AUTO_RELEASE becomes 1. -/
def instCtrlWrite (n w : Nat) (d : Dev) : Dev :=
  if ctrlHeld n d then d
  else
    let d1 := when_ (bitOf w 31) (instanceReset n) (plainWrite .instCtrl n 0 w d)
    when_ (bitOf w 29 || bitOf w 30) (release n) d1

/-- An address register of an admin queue: refused while ENABLE is 1, with CONFLICT. -/
def adminAddrWrite (r : RegName) (n w : Nat) (d : Dev) : Dev :=
  if adminOn n d then setBit .adminCtrl n 0 30 d else plainWrite r n 0 w d

/-- PHOT_SERVICE (R342). -/
def photService (w : Nat) (d : Dev) : Dev :=
  let u := bitsOf w 10 8
  match bitsOf w 31 28 with
  | 1 => laserDrain u d
  | 2 => laserCancel u d
  | 3 => laneSubstitute u (bitsOf w 3 0) d
  | c => photResult c u 2 d

/-- UPDATE_CMD (R473). -/
def updateCmd (w : Nat) (s : State) : State :=
  let l := s.dev.upd.lease
  match bitsOf w 31 28 with
  | 1 => leaseTake .manager s
  | 2 => leaseRelease .manager l s
  | 3 => pull s
  | 4 => armHandover .manager l s
  | 5 => armCoordinated .manager l 0 s
  | 6 => token .manager l 0 s
  | _ => setResult (some 6) 0 s

/-- MGMT_REQUEST (R443). -/
def mgmtRequest (w : Nat) (s : State) : State :=
  match bitsOf w 31 28 with
  | 1 => moduleReset none s
  | 2 => powerCycle none s
  | _ => s

/-- CTRL_SHAPER_p (R356, R370): a rate above the port's is taken as the port's, and tokens gathered so far stay. -/
def ctrlShaperWrite (p w : Nat) (d : Dev) : Dev :=
  let t := ctrlTokens p d
  let d1 := setW .ctrlShaper p 0 (min (portRate p d) (taken .ctrlShaper (getW .ctrlShaper p 0 d) w)) d
  { d1 with net := { d1.net with ctrlTok := Tab.set d1.net.ctrlTok p ⟨t, clock (fdie (p / 16)) d1⟩ } }

/-- A written addressing value is not in force yet (R299). -/
def addrWaits (d : Dev) : Dev := { d with addr := { d.addr with waits := true } }

/-- A write to a register whose effect stays in the device. -/
def devWrite (n : RegName) (i j w : Nat) (d : Dev) : Dev :=
  match n with
  | .portCtrl => portCtrlWrite i w d
  | .prioBuf => prioBufWrite i j w d
  | .statsSelect => statsSelect w d
  | .policeStatsSelect => policeSelect w d
  | .shaperRate => shaperShareWrite i j 0 w d
  | .shaperBurst => shaperShareWrite i j 1 w d
  | .policerCfg => policerWrite i j 0 w d
  | .policerRate1 => policerWrite i j 1 w d
  | .policerRate2 => policerWrite i j 2 w d
  | .policerBurst => policerWrite i j 3 w d
  | .ctrlShaper => ctrlShaperWrite i w d
  | .flowCtrl => settlePort i (plainWrite n i j w d)
  | .egressCtrl => placeUnsent (plainWrite n i j w d)
  | .schedNode =>
    let d1 := plainWrite n i j w d
    if getW n i j d1 = getW n i j d then d1 else nodeChanged i d1
  | .instShare => instShareWrite i w d
  | .instCtrl => instCtrlWrite i w d
  | .keySlot => keySlotWrite i w d
  | .keyLoadCtrl => keyCommand (bitsOf w 31 28) (bitsOf w 9 0) d
  | .keyLoadData => { d with keys := { d.keys with data := d.keys.data.set i (w % 2 ^ 32) } }
  | .memService => memService w d
  | .photService => photService w d
  | .melelCtrl => when_ (bitOf w 31) widen (plainWrite n i j w d)
  | .adminCtrl => writeNotices i 2 (adminCtrlWrite i w d)
  | .adminWqLo => adminAddrWrite n i w d
  | .adminWqHi => adminAddrWrite n i w d
  | .adminCrLo => adminAddrWrite n i w d
  | .adminCrHi => adminAddrWrite n i w d
  | .basinPool => basinPoolWrite w d
  | .basinWindow => basinWindowWrite i w d
  | .pesynAddrCtrl => addrWaits (relimit .pesynGrant 1 (relimit .pesynGrant 0 (plainWrite n i j w d)))
  | .pesynNode => addrWaits (plainWrite n i j w d)
  | .pesynPrefix6Lo => addrWaits (plainWrite n i j w d)
  | .pesynPrefix6Hi => addrWaits (plainWrite n i j w d)
  | _ => relimit n i (plainWrite n i j w d)

/-- A write to a register. -/
def regWrite (n : RegName) (i j w : Nat) (s : State) : State :=
  match n with
  | .updateCmd => updateCmd w s
  | .mgmtRequest => mgmtRequest w s
  | _ => { s with dev := devWrite n i j w s.dev }

/-- One 32-bit half of a write (R525). -/
def writeHalf (fn width a w : Nat) (s : State) : State :=
  match reach a s.dev with
  | .reg r i j => regWrite r.name i j w s
  | .page => s
  | .bad k => { s with dev := countErr k fn a width true s.dev }

/-- A write of control space at READY: misaligned, a doorbell, or its halves in turn (R15, R17 to R19, R525). DESIGN CHOICE (log entry 128): an
access that is narrow or misaligned counts with KIND 1 alone, whatever its address reaches. -/
def writeReady (fn off width data : Nat) (s : State) : State :=
  let a := ctrlAddr fn off
  if !wellSized off width then { s with dev := countErr 1 fn a width true s.dev }
  else
    match reach a s.dev with
    | .page =>
      match doorbell fn off width data s.dev with
      | some (n, page, q, p) => { s with dev := anyDoorbell n page q p s.dev }
      | none => s
    | _ =>
      let s1 := writeHalf fn width a (data % 2 ^ 32) s
      if width = 8 then writeHalf fn width (a + 4) (data / 2 ^ 32 % 2 ^ 32) s1 else s1

/-- A write of control space (R478, R523). -/
def controlWrite (fn off width data : Nat) (s : State) : State :=
  if !hasWindow fn off s.dev then s
  else if !s.dev.start.ready then { s with dev := countErr 5 fn (ctrlAddr fn off) width true s.dev }
  else
    let s1 := writeReady fn off width data s
    { s1 with dev := localPath s1.dev }

/-- CONTROL_SPACE_WRITE. -/
def execControlSpaceWrite (fn off width data : Nat) (s : State) : Host.Outcome State Fault Refusal :=
  overLink true (.controlSpaceWrite fn off width data) (fun s => .next (controlWrite fn off width data s)) s

/-! ## Reads -/

/-- What a read of a register leaves: its RC fields are cleared (R11), and a window's read latches or copies (R352, R370, R441). -/
def readEffect (r : RegRow) (i j : Nat) (s : State) : State :=
  match r.name with
  | .statsDataLo => { s with dev := statsLatch s.dev }
  | .policeStatsDataLo => { s with dev := policeLatch s.dev }
  | .logWindow => if i = 0 then window0Read s else if i = 15 then { s with dev := window15Read s.dev } else s
  | n =>
    if r.fields.any (fun f => decide (f.acc = .rc)) then { s with dev := setW n i j (r.afterRead (getW n i j s.dev)) s.dev } else s

/-- A read of a register: what it returns, and what it leaves. LOG_WINDOW_0 returns the copy that its read makes. -/
def regRead (r : RegRow) (i j : Nat) (s : State) : Nat × State :=
  let s1 := readEffect r i j s
  (r.readVal (regWord r.name i j (if r.name = .logWindow && i == 0 then s1 else s)), s1)

/-- One 32-bit half of a read. -/
def readHalf (fn width a : Nat) (s : State) : Nat × State :=
  match reach a s.dev with
  | .reg r i j => regRead r i j s
  | .page => (0, s)
  | .bad k => (0, { s with dev := countErr k fn a width false s.dev })

/-- A read of control space at READY (R15, R17, R525): the value read, and what it leaves. -/
def readReady (fn off width : Nat) (s : State) : Nat × State :=
  let a := ctrlAddr fn off
  if !wellSized off width then (0, { s with dev := countErr 1 fn a width false s.dev })
  else
    let p := readHalf fn width a s
    if width = 8 then
      let q := readHalf fn width (a + 4) p.2
      (p.1 + 2 ^ 32 * q.1, q.2)
    else p

/-- A read before READY returns zero (R478), but for MOD_IDENT and START_STATUS. -/
def readEarly (off width : Nat) (d : Dev) : Nat :=
  if !wellSized off width then 0
  else if off = 0 then getW .modIdent 0 0 d
  else if off = 0x150000 then startStatusWord d
  else 0

/-- A read of control space, answered with the value read. -/
def controlRead (fn off width : Nat) (s : State) : State :=
  if !hasWindow fn off s.dev then s
  else if !s.dev.start.ready then
    { s with dev := answer (.value (if fn = 0xFF then readEarly off width s.dev else 0)) s.dev }
  else
    let p := readReady fn off width s
    { p.2 with dev := answer (.value p.1) p.2.dev }

/-- CONTROL_SPACE_READ_CLEAR. -/
def execControlSpaceReadClear (fn off width : Nat) (s : State) : Host.Outcome State Fault Refusal :=
  overLink true (.controlSpaceReadClear fn off width) (fun s => .next (controlRead fn off width s)) s

/-- STATS_DATA_LO_READ (R352): a 32-bit read of its window. -/
def execStatsDataLoRead (fn : Nat) (s : State) : Host.Outcome State Fault Refusal :=
  overLink true (.statsDataLoRead fn) (fun s => .next (managerRead fn (fun s => { s with
    dev := answer (.value ((statsNow s.dev).1 % 2 ^ 32)) (statsLatch s.dev) }) s)) s

/-- POLICE_STATS_DATA_LO_READ (R370). -/
def execPoliceStatsDataLoRead (fn : Nat) (s : State) : Host.Outcome State Fault Refusal :=
  overLink true (.policeStatsDataLoRead fn) (fun s => .next (managerRead fn (fun s => { s with
    dev := answer (.value ((policeNow s.dev).1 % 2 ^ 32)) (policeLatch s.dev) }) s)) s

/-! ## Accesses that are counted (R15, R17) -/

/-- SIZE_ALIGN_ERROR (R15): an access narrower than 32 bits, of another width than 4 or 8 bytes, or not naturally aligned. -/
def execSizeAlignError (fn off width : Nat) (write : Bool) (s : State) : Host.Outcome State Fault Refusal :=
  overLink true (.sizeAlignError fn off width write) (fun s => .next (if wellSized off width then s else if write then controlWrite fn off width 0 s else controlRead fn off width s)) s

/-- Counts the halves of a write that reach nothing. -/
def countBad (fn width : Nat) (l : List Nat) (s : State) : State :=
  { s with
    dev := each l (fun a d => match reach a d with
      | .bad k => countErr k fn a width true d
      | _ => d) s.dev }

/-- Does a half of an access reach nothing? -/
def reachesNothing (l : List Nat) (d : Dev) : Bool :=
  l.any (fun a => match reach a d with
    | .bad _ => true
    | _ => false)

/-- UNDECODED_ACCESS (R17): an access of which a half reaches nothing; of a write only those halves are the command's. -/
def execUndecodedAccess (fn off width : Nat) (write : Bool) (s : State) : Host.Outcome State Fault Refusal :=
  overLink true (.undecodedAccess fn off width write) (fun s => let l := halves (ctrlAddr fn off) width
  .next (if !wellSized off width || (s.dev.start.ready && !reachesNothing l s.dev) then s
         else if !write then controlRead fn off width s
         else if s.dev.start.ready && hasWindow fn off s.dev then countBad fn width l s
         else controlWrite fn off width 0 s)) s

end Sys2Proof.Machine
end

