-- ==== Sys2Proof/Machine/Replay.lean ====
section
/-! DEFINITION. The end of a retrain of the Melel link (R373, R389): the module's transactions that waited go out, and the host's happen, each
once and in the order given. -/

namespace Sys2Proof.Machine

/-- What a transaction of the host does. -/
def hostRow (i : HostTx) (s : State) : Host.Outcome State Fault Refusal :=
  match i with
  | .loadWrapped slot => execLoadWrapped slot s
  | .erase slot => execErase slot s
  | .keySlotWrite k data => execKeySlotWrite k data s
  | .laneSubstitute e pos => execLaneSubstitute e pos s
  | .laserDrain u => execLaserDrain u s
  | .laserCancel u => execLaserCancel u s
  | .basinPoolWrite data => execBasinPoolWrite data s
  | .basinWindowWrite n data => execBasinWindowWrite n data s
  | .hbmRetire stack pc => execHbmRetire stack pc s
  | .ddr5Evacuate site => execDdr5Evacuate site s
  | .ddr5Online site => execDdr5Online site s
  | .ddr5Cancel site => execDdr5Cancel site s
  | .leaseTake src => execLeaseTake src s
  | .leaseRelease src lease => execLeaseRelease src lease s
  | .pull => execPull s
  | .armHandover src lease => execArmHandover src lease s
  | .armCoordinated src lease count => execArmCoordinated src lease count s
  | .token src lease count => execToken src lease count s
  | .widen => execWiden s
  | .apertureRead n off width => execApertureRead n off width s
  | .apertureWrite n off data => execApertureWrite n off data s
  | .hostAccessReturn b id data => execHostAccessReturn b id data s
  | .moduleReset r => execModuleReset r s
  | .powerCycle r => execPowerCycle r s
  | .portCtrlWrite p data => execPortCtrlWrite p data s
  | .prioBufWrite p k data => execPrioBufWrite p k data s
  | .policerWrite die k word data => execPolicerWrite die k word data s
  | .statsSelectWrite data => execStatsSelectWrite data s
  | .policeStatsSelectWrite data => execPoliceStatsSelectWrite data s
  | .controlSpaceWrite fn off width data => execControlSpaceWrite fn off width data s
  | .controlSpaceReadClear fn off width => execControlSpaceReadClear fn off width s
  | .statsDataLoRead fn => execStatsDataLoRead fn s
  | .policeStatsDataLoRead fn => execPoliceStatsDataLoRead fn s
  | .sizeAlignError fn off width write => execSizeAlignError fn off width write s
  | .undecodedAccess fn off width write => execUndecodedAccess fn off width write s
  | .adminCtrlWrite n data => execAdminCtrlWrite n data s
  | .wqDoorbell fn off width data => execWqDoorbell fn off width data s
  | .returnDoorbell fn off width data => execReturnDoorbell fn off width data s
  | .adminDoorbell fn off width data => execAdminDoorbell fn off width data s
  | .logWindow0Read fn => execLogWindow0Read fn s
  | .logWindow15Read fn => execLogWindow15Read fn s
  | .instShareWrite n data => execInstShareWrite n data s
  | .shaperWrite die sh word data => execShaperWrite die sh word data s
  | .release n => execRelease n s
  | .hostReadCompletion id answer => execHostReadCompletion id answer s
  | .flushReadReturn id => execFlushReadReturn id s

/-- A transaction of the host that waited for a retrain happens. -/
def replayRow (s : State) (i : HostTx) : State :=
  match hostRow i s with
  | .next t => t
  | _ => s

/-- RETRAIN_END. -/
def execRetrainEnd (lanes : Nat) (s : State) : Host.Outcome State Fault Refusal :=
  let d := localPath (retrainEnd lanes s.dev)
  .next (if d.link.retrain then { s with dev := d }
    else d.link.held.foldl replayRow { s with dev := { d with link := { d.link with held := [] } } })

end Sys2Proof.Machine
end

