-- ==== Sys2Proof/Machine/Scrub.lean ====
section
/-! DEFINITION. Errors that arise in memory and the background scrub (R145, R146, R149), with the work that an error in a die's own SRAM
meets. -/

namespace Sys2Proof.Machine

/-- The codeword that holds a place. -/
def codewordOf (p : Place) : Place :=
  match p with
  | .scratch b off => .scratch b (off / 16 * 16)
  | .basin x off => .basin x (off / 16 * 16)
  | .sram x off => .sram x (off / 16 * 16)
  | .dev a => .dev (cwBase a)

/-- Work whose state a die's own SRAM holds: a frame of a caldera, a context of a brick, an admitted descriptor, or the admin command of an
instance. -/
inductive SramWork where
  | frame (f : Frame ⊕ (Nat × Nat × Nat))
  | brick (k : Nat)
  | desc (q idx : Nat)
  | admin (n : Nat)
  deriving DecidableEq, Repr

/-- What the SRAM of a die serves at this moment: of a brick die the contexts of its bricks, of a fabric die the frames of its caldera and
the descriptors of its queues, of the I/O die the admin commands. -/
def sramWork (die : Nat) (d : Dev) : List SramWork :=
  if die < 8 then (d.bricks.ctxs.filter (fun p => p.2.brick / 128 == die)).map (fun p => .brick p.1)
  else if die < 10 then
    (calderaFrames (die - 8) d).map .frame ++
    d.q.wqs.flatMap (fun p => if p.1 % 2 = die - 8 then (p.2.flight.filter (fun x => x.done.isNone)).map (fun x => .desc p.1 x.idx) else [])
  else (d.q.admin.filter (fun p => p.2.wait.isSome)).map (fun p => .admin p.1)

/-- Work that a memory error meets: a frame is lost; other work completes with INTERNAL (R146), that of a brick by a fault with cause
0x0B. -/
def meets (die : Nat) (w : SramWork) (d : Dev) : Dev :=
  match w with
  | .frame f => loseFrame (die - 8) f d
  | .brick k => brickFault k { cause := 0xB, pc := ((ctxAt k d).map BCtx.pc).getD 0, word := 0, addr := 0, ch := noChan, own := 0 } d
  | .desc q idx =>
    (match collOf q idx d with
     | some c => failOwn c 0xF d
     | none => failDesc q idx 0xF 2 d)
  | .admin n => endAdminWait n 0xF 0 d

/-- An uncorrectable error in a die's SRAM meets one work that the SRAM serves, or none: the spec does not say where in it what lies, so
which one is a free value (log entry 136). -/
def meetWork (p : Place) (d : Dev) : Dev :=
  match p with
  | .sram x _ =>
    (match sramWork x d with
     | [] => d
     | ws =>
       let n := drawFree d
       match ws[n.1 % (ws.length + 1)]? with
       | some w => meets x w (noteUe p (if x < 8 then 1 else 3) n.2)
       | none => n.2)
  | _ => d

/-- Does a codeword's memory exist (R138, R139, R157)? -/
def placeThere (p : Place) (d : Dev) : Bool :=
  match p with
  | .dev a => pfnExists (a / 2 ^ 26) d
  | _ => true

/-- Does the background scrub reach a codeword: its memory exists, and a DDR5 site is ONLINE (R149)? -/
def scrubReaches (p : Place) (d : Dev) : Bool :=
  placeThere p d && (match p with
    | .dev a => decide (a / 2 ^ 26 < 16384) || decide ((siteAt (siteOf (a / 2 ^ 26)) d).state = 4)
    | _ => true)

/-- An error arises in a codeword that no read has met yet. -/
def latentError (p : Place) (found : Finding) (d : Dev) : Dev :=
  let t := d.tiers
  match found with
  | .clean => d
  | .corrected row sym =>
    if t.poison.contains p || t.soft.any (fun s => s.1 == p) then d else { d with tiers := { t with soft := t.soft ++ [(p, row, sym)] } }
  | .uncorrectable =>
    if t.poison.contains p then d
    else
      meetWork p { d with tiers := { t with
        poison := t.poison ++ [p], logged := t.logged.filter (fun q => q != p), soft := t.soft.filter (fun s => s.1 != p) } }

/-- What the background scrub finds at a codeword (R145, R146, R149), with what was latent there. -/
def scrubbed (p : Place) (found : Finding) (d : Dev) : Dev :=
  if d.tiers.poison.contains p then noteUe p 0 d
  else
    match found with
    | .clean => correct (fun q => q == p) d
    | .corrected row sym => noteCe p row sym { d with tiers := { d.tiers with soft := d.tiers.soft.filter (fun s => s.1 != p) } }
    | .uncorrectable => meetWork p (noteUe p 0 { d with tiers := { d.tiers with soft := d.tiers.soft.filter (fun s => s.1 != p) } })

/-- PATROL_SCRUB: the scrub reaches a codeword and finds what it finds, or, with `reached` false, an error has arisen there that waits for
the first read: DESIGN CHOICE (log entry 136). Memory that is not there, and for the scrub a site that is not ONLINE, is passed over. -/
def patrolScrub (place : Place) (found : Finding) (reached : Bool) (d : Dev) : Dev :=
  let p := codewordOf place
  if reached then (if scrubReaches p d then scrubbed p found d else d)
  else if placeThere p d then latentError p found d else d

/-- PATROL_SCRUB. -/
def execPatrolScrub (place : Place) (scrub : Scrub) (s : State) : Host.Outcome State Fault Refusal :=
  sends (patrolScrub place scrub.found scrub.reached) s

end Sys2Proof.Machine
end

