-- ==== Sys2Proof/Machine/Dispatch.lean ====
section
/-! DEFINITION. What each command does: one direct call of its meaning. -/

namespace Sys2Proof.Machine

/-- The effect of a command on everything but the queue of waiting commands. -/
def exec (i : Instr) (s : State) : Host.Outcome State Fault Refusal :=
  match i with
  | .controlSpaceWrite fn off width data => Sys2Proof.Machine.execControlSpaceWrite fn off width data s
  | .sizeAlignError fn off width write => Sys2Proof.Machine.execSizeAlignError fn off width write s
  | .undecodedAccess fn off width write => Sys2Proof.Machine.execUndecodedAccess fn off width write s
  | .wqDoorbell fn off width data => Sys2Proof.Machine.execWqDoorbell fn off width data s
  | .returnDoorbell fn off width data => Sys2Proof.Machine.execReturnDoorbell fn off width data s
  | .adminDoorbell fn off width data => Sys2Proof.Machine.execAdminDoorbell fn off width data s
  | .paceMeasurement die mon rate predicted => Sys2Proof.Machine.execPaceMeasurement die mon rate predicted s
  | .railGrantResume die => Sys2Proof.Machine.execRailGrantResume die s
  | .grantRequest unit cost inst => Sys2Proof.Machine.execGrantRequest unit cost inst s
  | .grantReturn unit => Sys2Proof.Machine.execGrantReturn unit s
  | .inputHigh mv => Sys2Proof.Machine.execInputHigh mv s
  | .inputLow mv => Sys2Proof.Machine.execInputLow mv s
  | .brownoutWarning mv => Sys2Proof.Machine.execBrownoutWarning mv s
  | .capacityHalved => Sys2Proof.Machine.execCapacityHalved s
  | .brownoutRecovery mv => Sys2Proof.Machine.execBrownoutRecovery mv s
  | .capacityStep => Sys2Proof.Machine.execCapacityStep s
  | .brownoutReset mv => Sys2Proof.Machine.execBrownoutReset mv s
  | .inputVoltageSample mv => Sys2Proof.Machine.execInputVoltageSample mv s
  | .admissionCheck q => Sys2Proof.Machine.execAdmissionCheck q s
  | .refusalDelayExpiry q => Sys2Proof.Machine.execRefusalDelayExpiry q s
  | .boundExpiry q idx => Sys2Proof.Machine.execBoundExpiry q idx s
  | .scalarInstruction b op word => Sys2Proof.Machine.execScalarInstruction b op word s
  | .branch b op word => Sys2Proof.Machine.execBranch b op word s
  | .matrix b word => Sys2Proof.Machine.execMatrix b word s
  | .matrixEnd b => Sys2Proof.Machine.execMatrixEnd b s
  | .drain b word => Sys2Proof.Machine.execDrain b word s
  | .drainEnd b => Sys2Proof.Machine.execDrainEnd b s
  | .vector b op word => Sys2Proof.Machine.execVector b op word s
  | .vectorMemory b op word => Sys2Proof.Machine.execVectorMemory b op word s
  | .vectorSpecial b op word => Sys2Proof.Machine.execVectorSpecial b op word s
  | .stream b word => Sys2Proof.Machine.execStream b word s
  | .spost b word => Sys2Proof.Machine.execSpost b word s
  | .swait b word => Sys2Proof.Machine.execSwait b word s
  | .cwait b word => Sys2Proof.Machine.execCwait b word s
  | .cadd b word => Sys2Proof.Machine.execCadd b word s
  | .bar b word => Sys2Proof.Machine.execBar b word s
  | .fence b word => Sys2Proof.Machine.execFence b word s
  | .hld b toV word => Sys2Proof.Machine.execHld b toV word s
  | .hst b fromV word => Sys2Proof.Machine.execHst b fromV word s
  | .hfence b word => Sys2Proof.Machine.execHfence b word s
  | .hostAccessReturn b id data => Sys2Proof.Machine.execHostAccessReturn b id data s
  | .readFlags b word => Sys2Proof.Machine.execReadFlags b word s
  | .clearFlags b word => Sys2Proof.Machine.execClearFlags b word s
  | .readBeatCount b beats word => Sys2Proof.Machine.execReadBeatCount b beats word s
  | .endProgram b word => Sys2Proof.Machine.execEndProgram b word s
  | .streamTileStart b ch => Sys2Proof.Machine.execStreamTileStart b ch s
  | .streamTileDone b ch => Sys2Proof.Machine.execStreamTileDone b ch s
  | .storeTileVisible b ch n => Sys2Proof.Machine.execStoreTileVisible b ch n s
  | .beatLimitReached b => Sys2Proof.Machine.execBeatLimitReached b s
  | .launch q => Sys2Proof.Machine.execLaunch q s
  | .launchComplete l => Sys2Proof.Machine.execLaunchComplete l s
  | .sliceBoundary b beats => Sys2Proof.Machine.execSliceBoundary b beats s
  | .contextSwitchEnd b => Sys2Proof.Machine.execContextSwitchEnd b s
  | .sliceUsTakesEffect => Sys2Proof.Machine.execSliceUsTakesEffect s
  | .remoteTileComplete q idx => Sys2Proof.Machine.execRemoteTileComplete q idx s
  | .residueFailure b unit pair => Sys2Proof.Machine.execResidueFailure b unit pair s
  | .residueRetryEnd b pass => Sys2Proof.Machine.execResidueRetryEnd b pass s
  | .retirementComplete b => Sys2Proof.Machine.execRetirementComplete b s
  | .basinPoolWrite data => Sys2Proof.Machine.execBasinPoolWrite data s
  | .basinWindowWrite n data => Sys2Proof.Machine.execBasinWindowWrite n data s
  | .basinWindowTakesEffect n => Sys2Proof.Machine.execBasinWindowTakesEffect n s
  | .basinPrefetchStage b ch => Sys2Proof.Machine.execBasinPrefetchStage b ch s
  | .patrolScrub place scrub => Sys2Proof.Machine.execPatrolScrub place scrub s
  | .rowRepair stack pc row => Sys2Proof.Machine.execRowRepair stack pc row s
  | .pseudoChannelRetirement stack pc cause => Sys2Proof.Machine.execPseudoChannelRetirement stack pc cause s
  | .groupRebuild stack group => Sys2Proof.Machine.execGroupRebuild stack group s
  | .hbmRetire stack pc => Sys2Proof.Machine.execHbmRetire stack pc s
  | .ddr5Evacuate site => Sys2Proof.Machine.execDdr5Evacuate site s
  | .ddr5Online site => Sys2Proof.Machine.execDdr5Online site s
  | .ddr5Cancel site => Sys2Proof.Machine.execDdr5Cancel site s
  | .siteEvacuated site => Sys2Proof.Machine.execSiteEvacuated site s
  | .siteTrainingEnd site ok => Sys2Proof.Machine.execSiteTrainingEnd site ok s
  | .ddr5ModuleRemoved site => Sys2Proof.Machine.execDdr5ModuleRemoved site s
  | .ddr5ModuleInserted site capGiB supported => Sys2Proof.Machine.execDdr5ModuleInserted site capGiB supported s
  | .translationWalk eng ctx va kind prefetch => Sys2Proof.Machine.execTranslationWalk eng ctx va kind prefetch s
  | .faultRecordWrite id => Sys2Proof.Machine.execFaultRecordWrite id s
  | .faultLimitExpiry id => Sys2Proof.Machine.execFaultLimitExpiry id s
  | .ctxCreate n => Sys2Proof.Machine.execCtxCreate n s
  | .ctxModify n => Sys2Proof.Machine.execCtxModify n s
  | .ctxDestroy n => Sys2Proof.Machine.execCtxDestroy n s
  | .segSet n => Sys2Proof.Machine.execSegSet n s
  | .segClear n => Sys2Proof.Machine.execSegClear n s
  | .frameAlloc n => Sys2Proof.Machine.execFrameAlloc n s
  | .frameFree n => Sys2Proof.Machine.execFrameFree n s
  | .xlateInvalidate n => Sys2Proof.Machine.execXlateInvalidate n s
  | .faultRingSet n => Sys2Proof.Machine.execFaultRingSet n s
  | .faultResume n => Sys2Proof.Machine.execFaultResume n s
  | .faultFail n => Sys2Proof.Machine.execFaultFail n s
  | .migratePrefetch n => Sys2Proof.Machine.execMigratePrefetch n s
  | .migrateAdvise n => Sys2Proof.Machine.execMigrateAdvise n s
  | .frameMovePiece => Sys2Proof.Machine.execFrameMovePiece s
  | .frameMoveEnd => Sys2Proof.Machine.execFrameMoveEnd s
  | .epochBoundary => Sys2Proof.Machine.execEpochBoundary s
  | .nop q => Sys2Proof.Machine.execNop q s
  | .wait q => Sys2Proof.Machine.execWait q s
  | .signal q => Sys2Proof.Machine.execSignal q s
  | .unreadableEntry q => Sys2Proof.Machine.execUnreadableEntry q s
  | .moderationTimer r => Sys2Proof.Machine.execModerationTimer r s
  | .wqCreate n => Sys2Proof.Machine.execWqCreate n s
  | .wqModify n => Sys2Proof.Machine.execWqModify n s
  | .wqDestroy n => Sys2Proof.Machine.execWqDestroy n s
  | .wqQuery n => Sys2Proof.Machine.execWqQuery n s
  | .crCreate n => Sys2Proof.Machine.execCrCreate n s
  | .crModify n => Sys2Proof.Machine.execCrModify n s
  | .crDestroy n => Sys2Proof.Machine.execCrDestroy n s
  | .counterAlloc n => Sys2Proof.Machine.execCounterAlloc n s
  | .counterFree n => Sys2Proof.Machine.execCounterFree n s
  | .counterSet n => Sys2Proof.Machine.execCounterSet n s
  | .adminCtrlWrite n data => Sys2Proof.Machine.execAdminCtrlWrite n data s
  | .adminWaitEnd n => Sys2Proof.Machine.execAdminWaitEnd n s
  | .pdCreate n => Sys2Proof.Machine.execPdCreate n s
  | .pdModify n => Sys2Proof.Machine.execPdModify n s
  | .pdDestroy n => Sys2Proof.Machine.execPdDestroy n s
  | .regRegister n => Sys2Proof.Machine.execRegRegister n s
  | .regDeregister n => Sys2Proof.Machine.execRegDeregister n s
  | .regRekey n => Sys2Proof.Machine.execRegRekey n s
  | .regQuery n => Sys2Proof.Machine.execRegQuery n s
  | .write q => Sys2Proof.Machine.execWrite q s
  | .writeImm q => Sys2Proof.Machine.execWriteImm q s
  | .read q => Sys2Proof.Machine.execRead q s
  | .data p => Sys2Proof.Machine.execData p s
  | .request p => Sys2Proof.Machine.execRequest p s
  | .grant p => Sys2Proof.Machine.execGrant p s
  | .ack p => Sys2Proof.Machine.execAck p s
  | .nack p => Sys2Proof.Machine.execNack p s
  | .resend p => Sys2Proof.Machine.execResend p s
  | .response p => Sys2Proof.Machine.execResponse p s
  | .cancel p => Sys2Proof.Machine.execCancel p s
  | .grantChunk die => Sys2Proof.Machine.execGrantChunk die s
  | .retransmitTimeout die seq => Sys2Proof.Machine.execRetransmitTimeout die seq s
  | .resendTimer die tag => Sys2Proof.Machine.execResendTimer die tag s
  | .sendWindowEnd die seq => Sys2Proof.Machine.execSendWindowEnd die seq s
  | .requestTimeout die seq => Sys2Proof.Machine.execRequestTimeout die seq s
  | .slotAbandon die tag => Sys2Proof.Machine.execSlotAbandon die tag s
  | .filterStep die => Sys2Proof.Machine.execFilterStep die s
  | .backoffEnd die seq => Sys2Proof.Machine.execBackoffEnd die seq s
  | .pesynAddressTakesEffect => Sys2Proof.Machine.execPesynAddressTakesEffect s
  | .commCreate n => Sys2Proof.Machine.execCommCreate n s
  | .commAdvance n => Sys2Proof.Machine.execCommAdvance n s
  | .commDestroy n => Sys2Proof.Machine.execCommDestroy n s
  | .commQuery n => Sys2Proof.Machine.execCommQuery n s
  | .allReduce q => Sys2Proof.Machine.execAllReduce q s
  | .reduceScatter q => Sys2Proof.Machine.execReduceScatter q s
  | .allGather q => Sys2Proof.Machine.execAllGather q s
  | .allToAll q => Sys2Proof.Machine.execAllToAll q s
  | .allToAllV q => Sys2Proof.Machine.execAllToAllV q s
  | .broadcast q => Sys2Proof.Machine.execBroadcast q s
  | .barrier q => Sys2Proof.Machine.execBarrier q s
  | .enter p => Sys2Proof.Machine.execEnter p s
  | .contribution p => Sys2Proof.Machine.execContribution p s
  | .restart p => Sys2Proof.Machine.execRestart p s
  | .seal p => Sys2Proof.Machine.execSeal p s
  | .enterTimeout die seq => Sys2Proof.Machine.execEnterTimeout die seq s
  | .laneResidueFailure die lane chunk => Sys2Proof.Machine.execLaneResidueFailure die lane chunk s
  | .linkUp p => Sys2Proof.Machine.execLinkUp p s
  | .linkDown p alignLost localFault remoteFault => Sys2Proof.Machine.execLinkDown p alignLost localFault remoteFault s
  | .linkHoldExpiry p => Sys2Proof.Machine.execLinkHoldExpiry p s
  | .portCtrlWrite p data => Sys2Proof.Machine.execPortCtrlWrite p data s
  | .cellFault e pos => Sys2Proof.Machine.execCellFault e pos s
  | .laneSubstitute e pos => Sys2Proof.Machine.execLaneSubstitute e pos s
  | .substitutionEnd e => Sys2Proof.Machine.execSubstitutionEnd e s
  | .laserUnitInserted u => Sys2Proof.Machine.execLaserUnitInserted u s
  | .laserCheckEnd u outputs wavelength report => Sys2Proof.Machine.execLaserCheckEnd u outputs wavelength report s
  | .laserUnitRemoved u => Sys2Proof.Machine.execLaserUnitRemoved u s
  | .laserUnitFault u code => Sys2Proof.Machine.execLaserUnitFault u code s
  | .laserDrain u => Sys2Proof.Machine.execLaserDrain u s
  | .laserCancel u => Sys2Proof.Machine.execLaserCancel u s
  | .frameReceive p f => Sys2Proof.Machine.execFrameReceive p f s
  | .xoffRepeat p k => Sys2Proof.Machine.execXoffRepeat p k s
  | .pauseFrame p opcode enables quanta => Sys2Proof.Machine.execPauseFrame p opcode enables quanta s
  | .pauseExpiry p k => Sys2Proof.Machine.execPauseExpiry p k s
  | .pauseStormGuard p k => Sys2Proof.Machine.execPauseStormGuard p k s
  | .bufferStormGuard p k => Sys2Proof.Machine.execBufferStormGuard p k s
  | .prioBufWrite p k data => Sys2Proof.Machine.execPrioBufWrite p k data s
  | .bufferSizeTakesEffect p k => Sys2Proof.Machine.execBufferSizeTakesEffect p k s
  | .statsSample p => Sys2Proof.Machine.execStatsSample p s
  | .statsSelectWrite data => Sys2Proof.Machine.execStatsSelectWrite data s
  | .statsDataLoRead fn => Sys2Proof.Machine.execStatsDataLoRead fn s
  | .portFrameBoundary p => Sys2Proof.Machine.execPortFrameBoundary p s
  | .shaperTokensPositive die k0 => Sys2Proof.Machine.execShaperTokensPositive die k0 s
  | .shaperWrite die k0 word data => Sys2Proof.Machine.execShaperWrite die k0 word data s
  | .policerWrite die k word data => Sys2Proof.Machine.execPolicerWrite die k word data s
  | .policeStatsSelectWrite data => Sys2Proof.Machine.execPoliceStatsSelectWrite data s
  | .policeStatsDataLoRead fn => Sys2Proof.Machine.execPoliceStatsDataLoRead fn s
  | .flitError seq crcOk => Sys2Proof.Machine.execFlitError seq crcOk s
  | .linkRetrain laneLost => Sys2Proof.Machine.execLinkRetrain laneLost s
  | .retrainEnd lanes => Sys2Proof.Machine.execRetrainEnd lanes s
  | .downMsExpiry => Sys2Proof.Machine.execDownMsExpiry s
  | .widen => Sys2Proof.Machine.execWiden s
  | .hostToDevice q => Sys2Proof.Machine.execHostToDevice q s
  | .deviceToHost q => Sys2Proof.Machine.execDeviceToHost q s
  | .flushReadReturn id => Sys2Proof.Machine.execFlushReadReturn id s
  | .hostCompletionTimeout id => Sys2Proof.Machine.execHostCompletionTimeout id s
  | .apertureRead n off width => Sys2Proof.Machine.execApertureRead n off width s
  | .apertureWrite n off data => Sys2Proof.Machine.execApertureWrite n off data s
  | .hostLinkLoss cause => Sys2Proof.Machine.execHostLinkLoss cause s
  | .hostLinkRestored => Sys2Proof.Machine.execHostLinkRestored s
  | .instanceReset n => Sys2Proof.Machine.execInstanceReset n s
  | .instanceQuiesced n => Sys2Proof.Machine.execInstanceQuiesced n s
  | .release n => Sys2Proof.Machine.execRelease n s
  | .instShareWrite n data => Sys2Proof.Machine.execInstShareWrite n data s
  | .loadWrapped slot => Sys2Proof.Machine.execLoadWrapped slot s
  | .erase slot => Sys2Proof.Machine.execErase slot s
  | .keyLoadDone => Sys2Proof.Machine.execKeyLoadDone s
  | .keySlotWrite k data => Sys2Proof.Machine.execKeySlotWrite k data s
  | .setEndpointId r eid => Sys2Proof.Machine.execSetEndpointId r eid s
  | .getEndpointId r => Sys2Proof.Machine.execGetEndpointId r s
  | .getEndpointUuid r => Sys2Proof.Machine.execGetEndpointUuid r s
  | .getMctpVersionSupport r typ => Sys2Proof.Machine.execGetMctpVersionSupport r typ s
  | .getMessageTypeSupport r => Sys2Proof.Machine.execGetMessageTypeSupport r s
  | .setTid r tid => Sys2Proof.Machine.execSetTid r tid s
  | .getTid r => Sys2Proof.Machine.execGetTid r s
  | .getPldmVersion r typ => Sys2Proof.Machine.execGetPldmVersion r typ s
  | .getPldmTypes r => Sys2Proof.Machine.execGetPldmTypes r s
  | .getPldmCommands r typ => Sys2Proof.Machine.execGetPldmCommands r typ s
  | .getSensorReading r id => Sys2Proof.Machine.execGetSensorReading r id s
  | .getStateSensorReadings r id => Sys2Proof.Machine.execGetStateSensorReadings r id s
  | .getPdrRepositoryInfo r => Sys2Proof.Machine.execGetPdrRepositoryInfo r s
  | .getPdr r handle => Sys2Proof.Machine.execGetPdr r handle s
  | .setEventReceiver r dest => Sys2Proof.Machine.execSetEventReceiver r dest s
  | .getEventReceiver r => Sys2Proof.Machine.execGetEventReceiver r s
  | .eventRetry k accepted => Sys2Proof.Machine.execEventRetry k accepted s
  | .readCounter r port idx => Sys2Proof.Machine.execReadCounter r port idx s
  | .readLog r idx => Sys2Proof.Machine.execReadLog r idx s
  | .readLogStatus r => Sys2Proof.Machine.execReadLogStatus r s
  | .moduleReset r => Sys2Proof.Machine.execModuleReset r s
  | .powerCycle r => Sys2Proof.Machine.execPowerCycle r s
  | .powerCycleReapply => Sys2Proof.Machine.execPowerCycleReapply s
  | .clearLog r => Sys2Proof.Machine.execClearLog r s
  | .logEraseDone => Sys2Proof.Machine.execLogEraseDone s
  | .loadWrappingKey r key => Sys2Proof.Machine.execLoadWrappingKey r key s
  | .eraseWrappingKey r => Sys2Proof.Machine.execEraseWrappingKey r s
  | .replaceAnchor r digest => Sys2Proof.Machine.execReplaceAnchor r digest s
  | .getVersion r => Sys2Proof.Machine.execGetVersion r s
  | .getCapabilities r version => Sys2Proof.Machine.execGetCapabilities r version s
  | .negotiateAlgorithms r ok => Sys2Proof.Machine.execNegotiateAlgorithms r ok s
  | .getDigests r => Sys2Proof.Machine.execGetDigests r s
  | .getCertificate r slot off len => Sys2Proof.Machine.execGetCertificate r slot off len s
  | .challenge r slot nonce => Sys2Proof.Machine.execChallenge r slot nonce s
  | .getMeasurements r idx signed nonce => Sys2Proof.Machine.execGetMeasurements r idx signed nonce s
  | .keyExchange r mutAuth => Sys2Proof.Machine.execKeyExchange r mutAuth s
  | .finish r sess macOk => Sys2Proof.Machine.execFinish r sess macOk s
  | .heartbeat r => Sys2Proof.Machine.execHeartbeat r s
  | .keyUpdate r => Sys2Proof.Machine.execKeyUpdate r s
  | .endSession r => Sys2Proof.Machine.execEndSession r s
  | .getEncapsulatedRequest r => Sys2Proof.Machine.execGetEncapsulatedRequest r s
  | .deliverEncapsulatedResponse r sess root verifies => Sys2Proof.Machine.execDeliverEncapsulatedResponse r sess root verifies s
  | .sessionIdleTimeout sess => Sys2Proof.Machine.execSessionIdleTimeout sess s
  | .sensorSample id value => Sys2Proof.Machine.execSensorSample id value s
  | .thermalShutdown id => Sys2Proof.Machine.execThermalShutdown id s
  | .mcStart straps pufOk firmware => Sys2Proof.Machine.execMcStart straps pufOk firmware s
  | .logRecordProgram => Sys2Proof.Machine.execLogRecordProgram s
  | .logWindow0Read fn => Sys2Proof.Machine.execLogWindow0Read fn s
  | .logWindow15Read fn => Sys2Proof.Machine.execLogWindow15Read fn s
  | .leaseTake src => Sys2Proof.Machine.execLeaseTake src s
  | .leaseRelease src lease => Sys2Proof.Machine.execLeaseRelease src lease s
  | .leaseTimeout => Sys2Proof.Machine.execLeaseTimeout s
  | .packageWrite r lease off len bytes => Sys2Proof.Machine.execPackageWrite r lease off len bytes s
  | .packageEnd r lease => Sys2Proof.Machine.execPackageEnd r lease s
  | .pull => Sys2Proof.Machine.execPull s
  | .verifyEnd f => Sys2Proof.Machine.execVerifyEnd f s
  | .armHandover src lease => Sys2Proof.Machine.execArmHandover src lease s
  | .armCoordinated src lease count => Sys2Proof.Machine.execArmCoordinated src lease count s
  | .armingEnd f => Sys2Proof.Machine.execArmingEnd f s
  | .token src lease count => Sys2Proof.Machine.execToken src lease count s
  | .handoverTurn => Sys2Proof.Machine.execHandoverTurn s
  | .updateQuery r => Sys2Proof.Machine.execUpdateQuery r s
  | .commit => Sys2Proof.Machine.execCommit s
  | .fallback => Sys2Proof.Machine.execFallback s
  | .mainStartup f => Sys2Proof.Machine.execMainStartup f s
  | .startupReady => Sys2Proof.Machine.execStartupReady s
  | .connectorReset => Sys2Proof.Machine.execConnectorReset s
  | .inputOvervoltage mv => Sys2Proof.Machine.execInputOvervoltage mv s
  | .overvoltageRecovery mv => Sys2Proof.Machine.execOvervoltageRecovery mv s
  | .standbyLoss => Sys2Proof.Machine.execStandbyLoss s
  | .powerUp => Sys2Proof.Machine.execPowerUp s
  | .controlSpaceReadClear fn off width => Sys2Proof.Machine.execControlSpaceReadClear fn off width s
  | .inputInRange mv => Sys2Proof.Machine.execInputInRange mv s
  | .highSer p uncorrectable => Sys2Proof.Machine.execHighSer p uncorrectable s
  | .laserRiseEnd u => Sys2Proof.Machine.execLaserRiseEnd u s
  | .pauseGuardEnd p k => Sys2Proof.Machine.execPauseGuardEnd p k s
  | .hostReadCompletion id answer => Sys2Proof.Machine.execHostReadCompletion id answer s
  | .melelLinkTrained lanes => Sys2Proof.Machine.execMelelLinkTrained lanes s

end Sys2Proof.Machine
end

