-- ==== Sys2Proof/Machine/Step.lean ====
section
/-! DEFINITION. One step of the block: the command at the front of the queue, or, where none waits, one period of 0.125 µs of the
oscillator that every die's interval timer counts (R10, R40). -/

namespace Sys2Proof.Machine

/-- The device one period of the oscillator later: each die's own interval timer counts one (R10, R40). -/
def tick (d : Dev) : Dev := { d with timers := d.timers.map (fun t => t + 1) }

/-- What a period of the oscillator without a command does: the timers count, and the last checks of the lanes have passed (R323, R326).
DESIGN CHOICE (log entry 2): every timed event of the spec is a command of its own, so nothing else happens of itself. -/
def idle (d : Dev) : Dev := if (fullComms d).isEmpty then tick d else localPath (settleFull (tick d))

/-- Takes the command at the front of the queue and runs it with the rest of the queue; an empty queue idles. -/
def step (s : State) : Host.Outcome State Fault Refusal :=
  match s.pending with
  | [] => .next { s with dev := idle s.dev }
  | c :: r => exec c { s with pending := r }

/-- A command that a word of the table spells, at the front of the queue. -/
def State.withFetchWord (s : State) (nbits w : Nat) : State :=
  match decodeTableWord nbits w with
  | some c => { s with pending := c :: s.pending }
  | none => s

end Sys2Proof.Machine
end

