-- ==== Sys2Proof/Safety.lean ====
section
/-! DEFINITION. What counts as a safe run of the block, in the terms that the statements use. -/

namespace Sys2Proof.Safety

open Sys2Proof.Machine

/-- The block goes on: a command is taken without a fault and without a refusal. -/
def Goes (s : State) : Prop := ∃ t, step s = .next t

/-- The byte memories of the module and of the host are in their canonical form. -/
def MemOk (d : Dev) : Prop :=
  Mem.wf d.tiers.dev = true ∧ Mem.wf d.tiers.basin = true ∧ Mem.wf d.link.hostMem = true

/-- Nothing waits on the local path of either fabric die, no host DMA transfer is under way, and no unit of a fabric-die rail and no DDR5
channel holds a grant or waits for one. -/
def Quiet (d : Dev) : Prop :=
  (∀ p ∈ d.pes, p.loop = []) ∧ d.link.dmas = [] ∧
  (∀ r, r = 8 ∨ r = 9 → (railAt r d).grants = [] ∧ (railAt r d).waiting = []) ∧
  (∀ g ∈ (railAt 10 d).grants, ∀ k, g.unit ≠ .ddr5 k) ∧ (∀ w ∈ (railAt 10 d).waiting, ∀ k, w.req.unit ≠ .ddr5 k)

/-- Every register reads in `e` as in `d`, but those at the addresses listed. -/
def SameRegs (but : List Nat) (d e : Dev) : Prop := ∀ a, a ∉ but → Tab.get e.regs a = Tab.get d.regs a

/-- The device `e` is `d` with one access counted (R532, R533): its counter rises and saturates, SEEN and VALID are set, ADDR and
SOURCE say the access, and nothing else changes. -/
def Counted (kind fn a width : Nat) (write : Bool) (d e : Dev) : Prop :=
  e = { d with regs := e.regs } ∧
  getF .cspaceErrCount 0 0 31 24 e = (if kind = 1 then min 255 (getF .cspaceErrCount 0 0 31 24 d + 1) else getF .cspaceErrCount 0 0 31 24 d) ∧
  getF .cspaceErrCount 0 0 23 16 e =
    (if kind = 2 ∨ kind = 3 ∨ kind = 4 then min 255 (getF .cspaceErrCount 0 0 23 16 d + 1) else getF .cspaceErrCount 0 0 23 16 d) ∧
  getF .cspaceErrCount 0 0 15 8 e = (if kind = 5 then min 255 (getF .cspaceErrCount 0 0 15 8 d + 1) else getF .cspaceErrCount 0 0 15 8 d) ∧
  getF .cspaceErrCount 0 0 0 0 e = 1 ∧
  getF .cspaceErrAddr 0 0 31 31 e = (if write then 1 else 0) ∧ getF .cspaceErrAddr 0 0 30 0 e = a % 2 ^ 31 ∧
  getF .cspaceErrSource 0 0 31 31 e = 1 ∧ getF .cspaceErrSource 0 0 23 16 e = kind ∧
  getF .cspaceErrSource 0 0 15 8 e = width % 256 ∧ getF .cspaceErrSource 0 0 7 0 e = fn % 256 ∧
  SameRegs [0x100, 0x108, 0x10C] d e

/-- Device control-space registers that hold what was written to them, by their fields' access codes and limits alone. -/
def plainRegs : List RegName := [
  .cspaceErrCount, .cspaceErrSource, .paceLow, .ledgerEvents, .brownoutStatus, .boundDevice, .boundResidence, .boundDeclare,
  .residueEvents, .switchStats, .sramErr, .hbmErr, .ddr5Err, .melelEvents, .melelCounts, .pesynMark, .pesynResidence]

/-! ## Bricks -/

/-- What a brick needs to issue an instruction: its context may issue, and the instruction's address is fetched from device memory. `e` is the
device on which the instruction then acts: what the units held has begun where it could, the fetch's translation has entered the caches,
and what the fetch met is corrected and counted (R145, R191). -/
def Fetched (b : Nat) (s : State) (k : Nat) (x : BCtx) (l : Launch) (e : Dev) : Prop :=
  let d := wakeUnits b s.dev
  issuing b d = some (k, x, l) ∧ x.brick = b ∧
  ∃ lfn off base size perm seg a bs, translate l.ctx x.pc .fetch (.fetch b) d = .frame lfn off base size perm seg ∧
    let d1 := countFetch l.ctx lfn b (fillAt l.ctx x.pc .fetch (.fetch b) d)
    ldaPhys (lfn * 2 ^ 26 + off) d1 = some a ∧ readPhys a 8 d1 = .ok bs ∧ e = readsDev [(a, 8)] d1 ∧ issuing b e = some (k, x, l)

/-- `t` is `s` on the device `e` with the context `k` now `y`: nothing else differs. -/
def CtxStep (s : State) (e : Dev) (t : State) (k : Nat) (y : BCtx) : Prop :=
  t = { s with dev := { e with bricks := { e.bricks with ctxs := t.dev.bricks.ctxs } } } ∧
  ctxAt k t.dev = some y ∧ ∀ j, j ≠ k → ctxAt j t.dev = ctxAt j e

/-- An instruction of the matrix, vector or host units as it is handed over with the registers as they stand, not begun yet (R67, R100). -/
def handed (kind : UKind) (w loc : Nat) (x : BCtx) (e : Dev) : UOp :=
  { id := e.bricks.nextHost, kind := kind, pc := x.pc, word := w, s := x.s, v := x.v, loc := loc, begun := false }

/-- Nothing before it in the units keeps an instruction from beginning as it is handed over, nothing else there can begin, and its number is
its own. -/
def BeginsAt (o : UOp) (x : BCtx) : Prop :=
  firstReady x [] x.ops = none ∧ o.free x.ops x = true ∧ ∀ p ∈ x.ops, p.id ≠ o.id

/-- A write of scratch that leaves no byte out: each poisoned codeword that it meets it replaces whole (R148). -/
def WritesAll (k : Nat) (x : BCtx) (off n : Nat) (d : Dev) : Prop :=
  off + n ≤ 0x300000 ∧ ∀ c ∈ poisonOf k x d, c + 16 ≤ off ∨ off + n ≤ c ∨ (off ≤ c ∧ c + 16 ≤ off + n)

/-- The bytes of scratch that a write leaves: those written, and every other as it was. -/
def Wrote (x y : BCtx) (off : Nat) (l : List Byte) : Prop :=
  (∀ i, (h : i < l.length) → y.byte (off + i) = l[i]) ∧ (∀ j, j < off ∨ off + l.length ≤ j → y.byte j = x.byte j)

/-- The comparison of R105 on values of one width. -/
def compareBits {n : Nat} (c : Cmp) (a b : BitVec n) : Bool :=
  match c with
  | .eq => a == b
  | .ne => a != b
  | .lt => a.slt b
  | .ge => b.sle a
  | .ltu => a.ult b
  | .geu => b.ule a

/-- What a scalar operation gives for two operands (R105): integers modulo 2^64; a shift by 64 or more has no stated result. -/
def scalarSpec (op : ScalarOp) (a b : BitVec 64) : Option (BitVec 64) :=
  match op with
  | .add => some (a + b)
  | .sub => some (a - b)
  | .mul => some (a * b)
  | .and => some (a &&& b)
  | .or => some (a ||| b)
  | .xor => some (a ^^^ b)
  | .shl => if b.toNat < 64 then some (a <<< b.toNat) else none
  | .shr => if b.toNat < 64 then some (a >>> b.toNat) else none
  | .sar => if b.toNat < 64 then some (a.sshiftRight b.toNat) else none
  | .compare c => some (if compareBits c a b then 1 else 0)
  | _ => none

/-- What a 32-bit integer or bitwise lane operation gives without saturation (R85, R86). -/
def laneSpec (fn : VecFn) (a b : BitVec 32) : Option (BitVec 32) :=
  match fn with
  | .iadd => some (a + b)
  | .isub => some (a - b)
  | .imul => some (a * b)
  | .imin => some (if b.slt a then b else a)
  | .imax => some (if a.slt b then b else a)
  | .icompare c => some (if compareBits c a b then 1 else 0)
  | .and => some (a &&& b)
  | .or => some (a ||| b)
  | .xor => some (a ^^^ b)
  | .not => some (~~~a)
  | _ => none

/-! ## Admin commands -/

/-- The command at the head of an instance's admin queue may be executed now, has the opcode and the bytes given, and no activation
of an image and no handover of the pair of cores that executes it is under way (R463, R465). -/
def AdminTakes (n op : Nat) (l : List Byte) (s : State) : Prop :=
  activating s.dev = false ∧ pairBusy (adminPair n) s.dev = false ∧ adminHead n op s.dev = some l

/-- The outcome of an admin command that completes with a status and a result, the device otherwise being `d`. -/
def adminNext (n status result : Nat) (d : Dev) (s : State) : Host.Outcome State Fault Refusal :=
  .next { s with dev := localPath (completeAdmin n status result d) }

/-- The outcome of an admin command that is accepted on the device `d` and waits for `w` (R223): its entry is consumed and its slot stays held;
where there is nothing to wait for, it completes at once with the result that the end of its wait gives. -/
def adminHolds (n : Nat) (w : AdminWait) (d : Dev) (s : State) : Host.Outcome State Fault Refusal :=
  .next { s with dev := localPath (match adminOver w (holdAdmin n w d) with
    | some r => endAdminWait n 0 r.1 r.2
    | none => holdAdmin n w d) }

/-- The bytes of an admin completion entry (R209, R223): RESULT, QUEUE 0xFFFF, the index, STATUS, the opcode, kind 1, the generation, OWN. -/
def adminEntry (idx op status result gen : Nat) : List Byte :=
  natLE 4 (if status = 0 then result else 0) ++ [0, 0, 0, 0, 0xFF, 0xFF] ++ natLE 2 idx ++ natLE 1 status ++ natLE 1 op ++ [1, 0] ++
  natLE 2 gen ++ List.replicate 13 0 ++ [0x80]

/-! ## Work queues -/

/-- The head of queue `q` may run now, with nothing admitted before it in its queue and a completion slot for it. -/
def HeadAt (q : Nat) (w : WQ) (h : Head) (c : CR) (d : Dev) : Prop :=
  wqAt q d = some w ∧ w.head = some h ∧ crAt w.cr d = some c ∧ w.cr < 0x4000 ∧ w.flight = [] ∧ w.feed ≠ 2 ∧ h.tile = none ∧
  instActive w.inst d = true ∧ activating d = false ∧ pairBusy (queuePair q) d = false ∧ d.link.retrain = false ∧ d.link.waiting = [] ∧
  c.detached = false ∧ (h.slot.isSome = true ∨ earlierWaiters q w h d < freeSlots c) ∧
  (∀ b ∈ d.link.behind, ¬(b.q = q ∧ b.idx = h.idx)) ∧ (∀ t ∈ d.bricks.ends, ¬(t.q = q ∧ t.idx = h.idx))

/-- The head has completed with a status (R203, R209 to R211, R215): the queue is past it, its ring holds one entry more and counts it, the
descriptor's own counter has its addition, and memory changed in the entry and in the descriptor's last byte alone. -/
def HeadEnds (q status : Nat) (w : WQ) (h : Head) (c : CR) (d e : Dev) : Prop :=
  let slot := hostKey c.inst (c.ring + 32 * c.wr)
  let own := hostKey w.inst (w.entryAt h.idx + 63)
  (wqAt q e).map WQ.c = some (w.c + 1) ∧ (wqAt q e).map WQ.flight = some [] ∧
  (crAt w.cr e).map CR.written = some (c.written + 1) ∧ (crAt w.cr e).map CR.wr = some ((c.wr + 1) % 2 ^ c.log2) ∧
  (∀ x, countOf h.bytes = some x → x.1 ≠ w.cr → counterOwner x.1 d = some w.inst → counterVal x.1 e = (counterVal x.1 d + x.2) % 2 ^ 48) ∧
  (countOf h.bytes = none → counterVal w.cr e = (c.counter + 1) % 2 ^ 48) ∧
  (countOf h.bytes = none → c.loc = 0 → linkOpen d = true →
    (∀ i < 32, Mem.read e.link.hostMem (slot + i) =
      (workEntry q (w.ix h.idx) h.opcode status 0 0 0 (instAt w.inst d).gen).bytesOf.getD i 0) ∧
    (∀ a, (a < slot ∨ slot + 32 ≤ a) → ¬(w.loc = 0 ∧ a = own) → Mem.read e.link.hostMem a = Mem.read d.link.hostMem a) ∧
    (w.loc = 0 → h.bad = none → (own < slot ∨ slot + 32 ≤ own) → Mem.read e.link.hostMem own = 0)) ∧
  (countOf h.bytes = none → c.loc = 0 → d.xl.move = none →
    ∀ a, ¬(w.loc ≠ 0 ∧ ldaPhys (w.entryAt h.idx + 63) d = some a) → Mem.read e.tiers.dev a = Mem.read d.tiers.dev a)

/-- The status of a NOP, WAIT or SIGNAL that is admitted and completes (R199 to R201): INTERNAL where the write that clears its OWN bit is
discarded (R148, R160). -/
def plainStatus (w : WQ) (h : Head) (d : Dev) : Nat := if ringLost w.loc (w.entryAt h.idx + 63) 1 d then 0xF else 0

/-- The head of queue `q`, which holds its completion slot on the device `d`, has passed the checks made once (R198, R208, R61), and
the admitting decision is made for it now. -/
def Judged (q : Nat) (w : WQ) (h : Head) (s : State) (d : Dev) : Prop :=
  let d0 := takeSlot q s.dev
  ((wqAt q s.dev).bind WQ.head).map Head.opcode = some h.opcode ∧
  ∃ w1 h1, slottedHead q d0 = some (w1, h1) ∧ w1.state = 0 ∧ instActive w1.inst s.dev = true ∧ h1.bad = none ∧
    activating d0 = false ∧ pairBusy (queuePair q) d0 = false ∧ (h1.judged = true → headCtxGone w1 h1 d0 = false) ∧
    (let r := if !h1.judged || rechecked q h1 d0 then headStatus q w1 h1 d0 else (d0, .ok h1.table)
     ∃ t, r.2 = .ok t ∧ d = (if h1.judged then r.1 else headFirst q t r.1)) ∧
    slottedHead q d = some (w, h) ∧ overBound q w h d = none ∧ tooBig w h d = false ∧ d.pes.length = 2

/-- The outcome of a decision for the head of queue `q` that leaves the device `d`: in REFUSE mode a head that still waits when its delay
is over is refused (R62). -/
def decided (q : Nat) (h : Head) (d : Dev) (s : State) : Host.Outcome State Fault Refusal :=
  .next { s with dev := localPath (refuseLate q h.idx d) }

/-- The outcome of a command that leaves the device `d` and what it put on the local path delivered (R242). -/
def sent (d : Dev) (s : State) : Host.Outcome State Fault Refusal := .next { s with dev := localPath d }

/-! ## Pesyn -/

/-- A packet has left its receive buffer (R345): whether it is marked CE, by the fabric or by the buffer, and the device then; none where
the frame was lost in its buffer (R146). -/
def taken (x : RxPkt) (d : Dev) : Option (Bool × Dev) :=
  match x.buf with
  | some (p, k, n) => (leaveBuffer p k n d).map (fun b => (x.ce || b.1, b.2))
  | none => some (x.ce, d)

/-- The device after a packet has left its receive buffer. -/
def arrived (x : RxPkt) (d : Dev) : Dev := ((taken x d).map Prod.snd).getD d

/-- Is the packet marked CE, by the fabric or by its receive buffer? -/
def arrivedCe (x : RxPkt) (d : Dev) : Bool := ((taken x d).map Prod.fst).getD false

/-- The packet as its die's cipher engine takes it, and whether it passes authentication (R411, R416). -/
def deciphered (x : RxPkt) (d : Dev) : RxPkt × Bool := opened x (arrived x d)

/-- The device when the packet is handled: it has left its buffer, and an encrypted one makes the cipher engine ask its grant (R45). -/
def engaged (x : RxPkt) (d : Dev) : Dev :=
  when_ (parse (deciphered x d).1).enc (wantCipher x.die) (arrived x d)

/-- A well-formed packet of a type, not lost in its buffer, arrives at a fabric die of a module with a valid node identifier (R262, R266,
R267); it is no encrypted answer to a message whose cipher slot has become EMPTY (R413). -/
def Arrives (typ : Nat) (x : RxPkt) (s : State) : Prop :=
  x.die < 2 ∧ nodeValid (arrived x s.dev).addr.node = true ∧ malformed (deciphered x s.dev).1 (deciphered x s.dev).2 = false ∧
  keyless (parse (deciphered x s.dev).1) (engaged x s.dev) = false ∧
  (x.hdr.getD 1 0).toNat = typ ∧ s.dev.pes.length = 2 ∧ (taken x s.dev).isSome = true

/-! ## Firmware update -/

/-- An update command of a source is received (R424, R429, R473): the platform's inside an authorised session and with fewer than four
requests held, the manager's over the link at READY; and the lease has not run out. -/
def Commands (src : UpdSrc) (s : State) : Prop :=
  leaseOver s.dev = false ∧
  match src with
  | .platform r =>
    heard 1 r s.dev = true ∧ r.formed = true ∧ ((sessionOf r s.dev).map Session.finished).getD true = true ∧ r.held < 4 ∧ authorised r s.dev = true
  | .manager => s.dev.start.ready = true ∧ linkOpen s.dev = true

/-- As `Commands`, from the holder of the lease and, from the platform, with its LEASE_ID (R454, R472). -/
def CommandsHeld (src : UpdSrc) (lease : Nat) (s : State) : Prop :=
  Commands src s ∧ s.dev.upd.holder = holderOf src ∧ (holderOf src = 1 → s.dev.upd.lease = lease)

/-- How the outcome of an update command shows (R472, R473): the platform's response, or the manager's RESULT. -/
def Answered (src : UpdSrc) (code : Nat) (t : State) : Prop :=
  match src with
  | .platform _ => t.dev.reply = .pldm 0 (some code) []
  | .manager => t.dev.upd.result = some code

end Sys2Proof.Safety
end

