-- ==== Sys2Proof/WellFormed.lean ====
section
/-! DEFINITION. Which commands are well formed: every operand lies in the range that the spec gives what it numbers. A command that
is not well formed stands for nothing that can reach the block; its meaning is still total. -/

namespace Sys2Proof

/-- A function of the host link (R375, R523): a virtual function, or 0xFF for the physical function. -/
def fnOk (fn : Nat) : Bool := decide (fn < 64) || fn == 0xFF

/-- An instance number (R391). -/
def instOk (n : Nat) : Bool := decide (n < 64)

/-- A packet carries a header of 64 bytes and at most 8,192 bytes of payload, at a fabric die (R259, R264). -/
def RxPkt.ok (p : RxPkt) : Bool :=
  decide (p.die < 2) && p.hdr.length == 64 && decide (p.payload.length ≤ 8208) &&
    p.buf.all (fun b => decide (b.1 < 32) && decide (b.2.1 < 8))

/-- A frame's destination address has 48 bits, and its priorities three (R344, R345). -/
def RxFrame.ok (f : RxFrame) : Bool :=
  decide (f.dst < 2 ^ 48) && f.pcp.all (fun k => decide (k < 8)) && f.ip.all (fun x => decide (x.2.1 < 64) && decide (x.2.2 < 4))

/-- A unit that reserves current exists (R45). -/
def UnitId.ok (u : UnitId) : Bool :=
  match u with
  | .brick b => decide (b < 1024)
  | .prefetch d => decide (d < 8)
  | .pesyn i e => decide (i < 2) && decide (e < 16)
  | .lane i l => decide (i < 2) && decide (l < 68)
  | .lanes i c => decide (i < 2) && decide (c < 4096)
  | .cipher i => decide (i < 2)
  | .hostDma i => decide (i < 2)
  | .ddr5 c => decide (c < 8)
  | .mover | .iodCipher | .imageCheck => true

/-- A codeword's memory exists (R144). -/
def Place.ok (p : Place) : Bool :=
  match p with
  | .scratch _ off => decide (off < 0x300000)
  | .basin d off => decide (d < 8) && decide (off < 2 ^ 27)
  | .sram d _ => decide (d < 11)
  | .dev a => decide (a < 49152 * 2 ^ 26)

/-- An engine that translates exists (R164). -/
def Eng.ok (e : Eng) : Bool :=
  match e with
  | .fetch b | .brick b => decide (b < 1024)
  | .pesyn i _ | .coll i _ => decide (i < 2)
  | .hostDma _ | .reg => true
  | .aperture n => instOk n

/-- Is a command well formed? -/
def wellFormed (c : Instr) : Bool :=
  match c with
  | .controlSpaceWrite fn off width data => fnOk fn && decide (off < 2 ^ 31) && decide (width < 256) && decide (data < 2 ^ 64)
  | .sizeAlignError fn off width _ | .undecodedAccess fn off width _ => fnOk fn && decide (off < 2 ^ 31) && decide (width < 256)
  | .wqDoorbell fn off width data | .returnDoorbell fn off width data | .adminDoorbell fn off width data => fnOk fn && decide (off < 2 ^ 31) && decide (width < 256) && decide (data < 2 ^ 64)
  | .paceMeasurement die mon _ _ => decide (die < 11) && decide (mon < 8)
  | .railGrantResume die => decide (die < 11)
  | .grantRequest unit _ inst => unit.ok && inst.all instOk
  | .grantReturn unit => unit.ok
  | .inputHigh mv | .inputLow mv | .brownoutWarning mv => decide (mv < 65536)
  | .capacityHalved => true
  | .brownoutRecovery mv => decide (mv < 65536)
  | .capacityStep => true
  | .brownoutReset mv | .inputVoltageSample mv => decide (mv < 65536)
  | .admissionCheck q | .refusalDelayExpiry q => decide (q < 65536)
  | .boundExpiry q _ => decide (q < 65536)
  | .scalarInstruction b _ _ | .branch b _ _ | .matrix b _ | .matrixEnd b | .drain b _ | .drainEnd b | .vector b _ _
  | .vectorMemory b _ _ | .vectorSpecial b _ _ | .stream b _ | .spost b _ | .swait b _ | .cwait b _ | .cadd b _
  | .bar b _ | .fence b _ | .hld b _ _ | .hst b _ _ | .hfence b _ => decide (b < 1024)
  | .hostAccessReturn b _ data => decide (b < 1024) && decide (data.length ≤ 64)
  | .readFlags b _ | .clearFlags b _ | .readBeatCount b _ _ | .endProgram b _ => decide (b < 1024)
  | .streamTileStart b ch | .streamTileDone b ch | .storeTileVisible b ch _ => decide (b < 1024) && decide (ch < 8)
  | .beatLimitReached b => decide (b < 1024)
  | .launch q => decide (q < 65536)
  | .launchComplete _ => true
  | .sliceBoundary b _ | .contextSwitchEnd b => decide (b < 1024)
  | .sliceUsTakesEffect => true
  | .remoteTileComplete q _ => decide (q < 65536)
  | .residueFailure b _ _ | .residueRetryEnd b _ | .retirementComplete b => decide (b < 1024)
  | .basinPoolWrite data => decide (data < 2 ^ 32)
  | .basinWindowWrite n data => instOk n && decide (data < 2 ^ 32)
  | .basinWindowTakesEffect n => n.all instOk
  | .basinPrefetchStage b ch => decide (b < 1024) && decide (ch < 8)
  | .patrolScrub place _ => place.ok
  | .rowRepair stack pc _ | .pseudoChannelRetirement stack pc _ => decide (stack < 8) && decide (pc < 64)
  | .groupRebuild stack group => decide (stack < 8) && decide (group < 8)
  | .hbmRetire stack pc => decide (stack < 8) && decide (pc < 64)
  | .ddr5Evacuate site | .ddr5Online site | .ddr5Cancel site | .siteEvacuated site | .siteTrainingEnd site _
  | .ddr5ModuleRemoved site | .ddr5ModuleInserted site _ _ => decide (site < 8)
  | .translationWalk eng _ _ _ _ => eng.ok
  | .faultRecordWrite _ | .faultLimitExpiry _ => true
  | .ctxCreate n | .ctxModify n | .ctxDestroy n | .segSet n | .segClear n | .frameAlloc n | .frameFree n
  | .xlateInvalidate n | .faultRingSet n | .faultResume n | .faultFail n | .migratePrefetch n | .migrateAdvise n => instOk n
  | .frameMovePiece | .frameMoveEnd | .epochBoundary => true
  | .nop q | .wait q | .signal q | .unreadableEntry q => decide (q < 65536)
  | .moderationTimer r => decide (r < 16384)
  | .wqCreate n | .wqModify n | .wqDestroy n | .wqQuery n | .crCreate n | .crModify n | .crDestroy n | .counterAlloc n
  | .counterFree n | .counterSet n => instOk n
  | .adminCtrlWrite n data => instOk n && decide (data < 2 ^ 32)
  | .adminWaitEnd n | .pdCreate n | .pdModify n | .pdDestroy n | .regRegister n | .regDeregister n | .regRekey n
  | .regQuery n => instOk n
  | .write q | .writeImm q | .read q => decide (q < 65536)
  | .data p | .request p | .grant p | .ack p | .nack p | .resend p | .response p | .cancel p => p.ok
  | .grantChunk die | .retransmitTimeout die _ | .resendTimer die _ | .sendWindowEnd die _ | .requestTimeout die _
  | .slotAbandon die _ | .filterStep die | .backoffEnd die _ => decide (die < 2)
  | .pesynAddressTakesEffect => true
  | .commCreate n | .commAdvance n | .commDestroy n | .commQuery n => instOk n
  | .allReduce q | .reduceScatter q | .allGather q | .allToAll q | .allToAllV q | .broadcast q | .barrier q => decide (q < 65536)
  | .enter p | .contribution p | .restart p | .seal p => p.ok
  | .enterTimeout die _ => decide (die < 2)
  | .laneResidueFailure die lane _ => decide (die < 2) && decide (lane < 68)
  | .linkUp p | .linkDown p _ _ _ | .linkHoldExpiry p => decide (p < 32)
  | .portCtrlWrite p data => decide (p < 32) && decide (data < 2 ^ 32)
  | .cellFault e pos | .laneSubstitute e pos => decide (e < 8) && decide (pos < 16)
  | .substitutionEnd e => decide (e < 8)
  | .laserUnitInserted u | .laserCheckEnd u _ _ _ | .laserUnitRemoved u => decide (u < 8)
  | .laserUnitFault u code => decide (u < 8) && decide (code < 256)
  | .laserDrain u | .laserCancel u => decide (u < 8)
  | .frameReceive p f => decide (p < 32) && f.ok
  | .xoffRepeat p k => decide (p < 32) && decide (k < 9)
  | .pauseFrame p _ _ quanta => decide (p < 32) && decide (quanta.length ≤ 8)
  | .pauseExpiry p k | .pauseStormGuard p k => decide (p < 32) && decide (k < 9)
  | .bufferStormGuard p k => decide (p < 32) && decide (k < 8)
  | .prioBufWrite p k data => decide (p < 32) && decide (k < 8) && decide (data < 2 ^ 32)
  | .bufferSizeTakesEffect p k => decide (p < 32) && decide (k < 8)
  | .statsSample p => decide (p < 32)
  | .statsSelectWrite data => decide (data < 2 ^ 32)
  | .statsDataLoRead fn => fnOk fn
  | .portFrameBoundary p => decide (p < 32)
  | .shaperTokensPositive die s => decide (die < 2) && decide (s < 4608)
  | .shaperWrite die s word data => decide (die < 2) && decide (s < 4608) && decide (word < 2) && decide (data < 2 ^ 32)
  | .policerWrite die k word data => decide (die < 2) && decide (k < 128) && decide (word < 4) && decide (data < 2 ^ 32)
  | .policeStatsSelectWrite data => decide (data < 2 ^ 32)
  | .policeStatsDataLoRead fn => fnOk fn
  | .flitError _ _ | .linkRetrain _ => true
  | .retrainEnd lanes => decide (lanes < 256)
  | .downMsExpiry | .widen => true
  | .hostToDevice q | .deviceToHost q => decide (q < 65536)
  | .flushReadReturn _ | .hostCompletionTimeout _ => true
  | .apertureRead n _ width => instOk n && decide (width < 256)
  | .apertureWrite n _ data => instOk n && decide (data.length ≤ 4096)
  | .hostLinkLoss _ | .hostLinkRestored => true
  | .instanceReset n | .instanceQuiesced n | .release n => instOk n
  | .instShareWrite n data => instOk n && decide (data < 2 ^ 32)
  | .loadWrapped slot | .erase slot => decide (slot < 1024)
  | .keyLoadDone => true
  | .keySlotWrite k data => decide (k < 1024) && decide (data < 2 ^ 32)
  | .setEndpointId _ eid => decide (eid < 256)
  | .getEndpointId _ | .getEndpointUuid _ => true
  | .getMctpVersionSupport _ typ => decide (typ < 256)
  | .getMessageTypeSupport _ => true
  | .setTid _ tid => decide (tid < 256)
  | .getTid _ => true
  | .getPldmVersion _ typ => decide (typ < 256)
  | .getPldmTypes _ => true
  | .getPldmCommands _ typ => decide (typ < 256)
  | .getSensorReading _ _ | .getStateSensorReadings _ _ | .getPdrRepositoryInfo _ | .getPdr _ _ => true
  | .setEventReceiver _ dest => dest.all (fun x => decide (x < 256))
  | .getEventReceiver _ | .eventRetry _ _ => true
  | .readCounter _ port _ => decide (port < 32)
  | .readLog _ _ | .readLogStatus _ | .moduleReset _ | .powerCycle _ | .powerCycleReapply | .clearLog _
  | .logEraseDone | .loadWrappingKey _ _ | .eraseWrappingKey _ | .replaceAnchor _ _ | .getVersion _
  | .getCapabilities _ _ | .negotiateAlgorithms _ _ | .getDigests _ => true
  | .getCertificate _ slot _ _ | .challenge _ slot _ => decide (slot < 1024)
  | .getMeasurements _ _ _ _ | .keyExchange _ _ | .finish _ _ _ | .heartbeat _ | .keyUpdate _ | .endSession _
  | .getEncapsulatedRequest _ | .deliverEncapsulatedResponse _ _ _ _ | .sessionIdleTimeout _ | .sensorSample _ _
  | .thermalShutdown _ => true
  | .mcStart straps _ _ => decide (straps < 8)
  | .logRecordProgram => true
  | .logWindow0Read fn | .logWindow15Read fn => fnOk fn
  | .leaseTake _ => true
  | .leaseRelease _ lease => decide (lease < 65536)
  | .leaseTimeout => true
  | .packageWrite _ lease _ _ _ | .packageEnd _ lease => decide (lease < 65536)
  | .pull | .verifyEnd _ => true
  | .armHandover _ lease => decide (lease < 65536)
  | .armCoordinated _ lease count => decide (lease < 65536) && decide (count < 2 ^ 32)
  | .armingEnd _ => true
  | .token _ lease count => decide (lease < 65536) && decide (count < 2 ^ 32)
  | .handoverTurn | .updateQuery _ | .commit | .fallback | .mainStartup _ | .startupReady | .connectorReset => true
  | .inputOvervoltage mv | .overvoltageRecovery mv => decide (mv < 65536)
  | .standbyLoss | .powerUp => true
  | .controlSpaceReadClear fn off width => fnOk fn && decide (off < 2 ^ 31) && decide (width < 256)
  | .inputInRange mv => decide (mv < 65536)
  | .highSer p _ => decide (p < 32)
  | .laserRiseEnd u => decide (u < 8)
  | .pauseGuardEnd p k => decide (p < 32) && decide (k < 9)
  | .hostReadCompletion _ _ => true
  | .melelLinkTrained lanes => decide (lanes < 256)

end Sys2Proof
end

