-- ==== Sys2Proof/Certificates/Slice0/Obligations.lean ====
section
/-! DEFINITION. The statements for the provers. -/

open Sys2Proof Sys2Proof.Machine

/-! ## The block as a whole -/

/-- A step takes the command at the front of the queue and runs it with the queue's rest (the model's form of a block). -/
def Obligations.StepTakesFront : Prop :=
  ∀ (c : Instr) (r : List Instr) (s : State), step { s with pending := c :: r } = exec c { s with pending := r }

/-- With no command waiting and no chunk of a collective whose last checks are still out, each die's interval timer counts one period of
0.125 µs and nothing else changes (the model's choice, log entries 2 and 9). -/
def Obligations.EmptyQueueIdles : Prop :=
  ∀ s : State, s.pending = [] → fullComms s.dev = [] →
    ∃ t, step s = .next t ∧ t = { s with dev := { s.dev with timers := t.dev.timers } } ∧
      (∀ die < s.dev.timers.length, clock die t.dev = clock die s.dev + 1)

/-- No command stops the block, and none touches the queue of waiting commands: each answers a next state with the queue as
it was. -/
def Obligations.NoCommandStops : Prop :=
  ∀ (c : Instr) (s : State), ∃ t, exec c s = .next t ∧ t.pending = s.pending

/-- The byte memories of the module and of the host keep their canonical form in every step: addresses strictly rising, no
byte zero, so that equal memories are equal data. -/
def Obligations.StepKeepsMemoryForm : Prop :=
  ∀ s t : State, Safety.MemOk s.dev → step s = .next t → Safety.MemOk t.dev

/-- The canonical form of the memories holds right after reset. -/
def Obligations.ResetMemoryForm : Prop := Safety.MemOk State.reset.dev

/-- What reset leaves: every register of the index but five (log entry 4) holds its Reset column, every brick-die rail has
600 units of which 56 are taken, every fabric-die rail 400 and 140, the I/O-die rail 240 and 120 (R44, R45: 96 standing and the 24 of its allowance); the module's memories read zero, no
queue, ring, counter, context, region, domain or communicator exists, no key slot is loaded and READY is 0. -/
def Obligations.ResetState : Prop :=
  (∀ r ∈ regRows, (r.name ≠ .boundDevice ∧ r.name ≠ .prioBuf ∧ r.name ≠ .flowCtrl ∧ r.name ≠ .pesynMark ∧ r.name ≠ .hbmRepair) →
      ∀ i j, getW r.name i j State.reset.dev = r.reset) ∧
  (∀ k < 8, (railAt k State.reset.dev).full = 600 ∧ (railAt k State.reset.dev).granted = 56) ∧
  (∀ k, k = 8 ∨ k = 9 → (railAt k State.reset.dev).full = 400 ∧ (railAt k State.reset.dev).granted = 140) ∧
  (railAt 10 State.reset.dev).full = 240 ∧ (railAt 10 State.reset.dev).granted = 120 ∧
  (∀ a, Mem.read State.reset.dev.tiers.dev a = 0 ∧ Mem.read State.reset.dev.tiers.basin a = 0) ∧
  State.reset.dev.q.wqs = [] ∧ State.reset.dev.q.crs = [] ∧ State.reset.dev.q.ctrs = [] ∧ State.reset.dev.xl.ctxs = [] ∧
  State.reset.dev.rem.regions = [] ∧ State.reset.dev.rem.doms = [] ∧ State.reset.dev.colls.comms = [] ∧
  State.reset.dev.keys.keys = [] ∧ State.reset.dev.start.ready = false ∧ State.reset.pending = []

/-! ## Control space (01, 21) -/

/-- R11, R14: a written word changes each field by its access code (RO and RC keep, RW takes the value as R535 limits it, RW1C
clears by ones, WO holds nothing); a read returns each field but a write-only one, and leaves each but an RC one; and every reserved bit reads as
zero, stays zero, and a write takes no notice of what is written to it, for every register of the index. -/
def Obligations.FieldsByAccessCode : Prop :=
  ∀ r ∈ regRows, ∀ old w : Nat,
    (∀ f ∈ r.fields,
      bitsOf (r.write old w) f.hi f.lo =
        (match f.acc with
        | .ro => bitsOf old f.hi f.lo
        | .rc => bitsOf old f.hi f.lo
        | .wo => 0
        | .rw => f.lim.take (bitsOf w f.hi f.lo)
        | .rw1s => bitsOf old f.hi f.lo ||| bitsOf w f.hi f.lo
        | .rw1c => bitsOf old f.hi f.lo - (bitsOf old f.hi f.lo &&& bitsOf w f.hi f.lo)) ∧
      bitsOf (r.readVal old) f.hi f.lo = (if f.acc = .wo then 0 else bitsOf old f.hi f.lo) ∧
      bitsOf (r.afterRead old) f.hi f.lo = (if f.acc = .rc then 0 else bitsOf old f.hi f.lo)) ∧
    (∀ k, (∀ f ∈ r.fields, k < f.lo ∨ f.hi < k) →
      bitOf (r.readVal old) k = false ∧ bitOf (r.afterRead old) k = false ∧ bitOf (r.write old w) k = false) ∧
    (∀ v, (∀ k, (∃ f ∈ r.fields, f.lo ≤ k ∧ k ≤ f.hi) → bitOf v k = bitOf w k) → r.write old v = r.write old w)

/-- R11, R15: at READY and over an open link, the manager's aligned 32-bit write of a stored register takes effect field by field, and an aligned 32-bit
read answers the register's value and clears its RC fields; neither changes anything else. -/
def Obligations.ControlSpaceAccess : Prop :=
  ∀ (s : State) (n : RegName) (i j : Nat) (r : RegRow), n ∈ Safety.plainRegs → rowOf n = some r →
    findReg (addrOf n i j) = some (r, i, j) → s.dev.start.ready = true → linkOpen s.dev = true →
    (∀ w < 2 ^ 32, exec (.controlSpaceWrite 0xFF (addrOf n i j) 4 w) s =
      .next { s with dev := localPath (setW n i j (r.write (getW n i j s.dev) w) s.dev) }) ∧
    exec (.controlSpaceReadClear 0xFF (addrOf n i j) 4) s =
      .next { s with dev :=
        { s.dev with
          reply := .value (r.readVal (getW n i j s.dev)),
          regs := if r.fields.any (fun f => decide (f.acc = .rc)) then
              Tab.set s.dev.regs (addrOf n i j) (BitVec.ofNat 32 (r.afterRead (getW n i j s.dev)))
            else s.dev.regs } }

/-- R15, R17, R478, R533: at READY an access that is not a naturally aligned access of 4 or 8 bytes is counted with KIND 1, and one of an
address at or above 0x4100_0000, of an unconfigured instance's range, or of a reserved offset with KIND 2, 4 or 3; a write is discarded, and
a read returns zero. And: before READY every write and every doorbell is discarded and counted once with KIND 5, whatever its width, alignment or
address, and every read returns zero without being counted, except the manager's aligned reads of MOD_IDENT and START_STATUS. -/
def Obligations.CountedAccesses : Prop :=
  (∀ (s : State) (fn off width : Nat), hasWindow fn off s.dev = true → s.dev.start.ready = true →
    (wellSized off width = false →
      (∃ e, Safety.Counted 1 fn (ctrlAddr fn off) width true s.dev e ∧
        exec (.sizeAlignError fn off width true) s = .next { s with dev := localPath e }) ∧
      (∃ e, Safety.Counted 1 fn (ctrlAddr fn off) width false s.dev e ∧
        exec (.sizeAlignError fn off width false) s = .next { s with dev := { e with reply := .value 0 } })) ∧
    (∀ k, off % 4 = 0 → reach (ctrlAddr fn off) s.dev = .bad k → 2 ≤ k ∧ k ≤ 4 →
      (∃ e, Safety.Counted k fn (ctrlAddr fn off) 4 true s.dev e ∧
        exec (.undecodedAccess fn off 4 true) s = .next { s with dev := e }) ∧
      (∃ e, Safety.Counted k fn (ctrlAddr fn off) 4 false s.dev e ∧
        exec (.undecodedAccess fn off 4 false) s = .next { s with dev := { e with reply := .value 0 } }))) ∧
  (∀ (s : State) (fn off width data : Nat), hasWindow fn off s.dev = true → s.dev.start.ready = false →
    (∃ e, Safety.Counted 5 fn (ctrlAddr fn off) width true s.dev e ∧
      exec (.controlSpaceWrite fn off width data) s = .next { s with dev := e } ∧
      exec (.wqDoorbell fn off width data) s = .next { s with dev := e } ∧
      exec (.returnDoorbell fn off width data) s = .next { s with dev := e } ∧
      exec (.adminDoorbell fn off width data) s = .next { s with dev := e }) ∧
    (¬(fn = 0xFF ∧ wellSized off width = true ∧ (off = 0 ∨ off = 0x150000)) →
      exec (.controlSpaceReadClear fn off width) s = .next { s with dev := { s.dev with reply := .value 0 } }))

/-- R18, R204, R205, R213, R225: at READY a 64-bit doorbell in its function's window, of an ACTIVE instance with its current generation, sets P of the host-fed queue that
it names on the queue's page. And: a return doorbell on a completion ring's page moves its return index to H and frees one slot for each entry returned; at the
previous return index it returns every entry of a full ring and none of any other; an index past the entries written frees nothing. And: a doorbell with QUEUE 0xFFFF on page 0 sets the producer limit of the instance's enabled admin queue, and the module asks
the host for the entry at C where it may; with QUEUE 0xFFFE it returns entries of the admin completion ring. -/
def Obligations.Doorbells : Prop :=
  (∀ (s : State) (fn off n o data : Nat), hasWindow fn off s.dev = true → ctrlAddr fn off = 0x01000000 * (n + 1) + o → n < 64 →
    s.dev.start.ready = true → 4096 ≤ o → o < 0x80000 → o % 8 = 0 → instActive n s.dev = true → bitsOf data 47 32 = (instAt n s.dev).gen →
    ∀ w, wqAt (data % 65536) s.dev = some w → w.inst = n → w.feed = 0 → w.page = o / 4096 → w.state ≠ 2 → w.detached = false →
      ∃ e, exec (.wqDoorbell fn off 8 data) s = .next { s with dev := e } ∧
        (wqAt (data % 65536) e).map WQ.p = some (bitsOf data 31 16 % 2 ^ w.log2) ∧
        (wqAt (data % 65536) e).map WQ.c = some w.c ∧
        ∀ q, q ≠ data % 65536 → wqAt q e = wqAt q s.dev) ∧
  (∀ (s : State) (fn off n o data : Nat) (c : CR), hasWindow fn off s.dev = true → ctrlAddr fn off = 0x01000000 * (n + 1) + o → n < 64 →
    s.dev.start.ready = true → 0x80000 ≤ o → o < 0x100000 → o % 8 = 0 →
    instActive n s.dev = true → bitsOf data 47 32 = (instAt n s.dev).gen →
    crAt (data % 65536) s.dev = some c → c.inst = n → c.page = o / 4096 → c.detached = false → c.ret < 2 ^ c.log2 →
    let h := bitsOf data 31 16 % 2 ^ c.log2
    let k := (h + 2 ^ c.log2 - c.ret) % 2 ^ c.log2
    (k ≠ 0 → k ≤ c.written → exec (.returnDoorbell fn off 8 data) s =
      .next { s with dev := updCr (data % 65536) (fun c => { c with written := c.written - k, ret := h }) s.dev }) ∧
    (k = 0 → c.written = 2 ^ c.log2 → exec (.returnDoorbell fn off 8 data) s =
      .next { s with dev := updCr (data % 65536) (fun c => { c with written := 0 }) s.dev }) ∧
    (k = 0 ∧ c.written ≠ 2 ^ c.log2 ∨ c.written < k → exec (.returnDoorbell fn off 8 data) s = .next s)) ∧
  (∀ (s : State) (fn off n o data : Nat), hasWindow fn off s.dev = true → ctrlAddr fn off = 0x01000000 * (n + 1) + o → n < 64 →
    s.dev.start.ready = true → o < 4096 → o % 8 = 0 →
    instActive n s.dev = true → bitsOf data 47 32 = (instAt n s.dev).gen → adminOn n s.dev = true →
    (data % 65536 = 0xFFFF → ∃ e, exec (.adminDoorbell fn off 8 data) s = .next { s with dev := e } ∧
      (adminAt n e).p = bitsOf data 31 16 % (adminSizes n s.dev).1 ∧ (adminAt n e).c = (adminAt n s.dev).c ∧
      ((adminAt n s.dev).head = none → (adminAt n s.dev).reading = false → (adminAt n s.dev).wait = none →
        (adminAt n e).reading = true ∧
        Tab.get e.link.reads s.dev.link.nextRead =
          some ⟨0xFF, adminAddr n false s.dev + 64 * (adminAt n s.dev).c, 64, .adminEntry n (adminAt n s.dev).c, clock iodie s.dev⟩)) ∧
    (data % 65536 = 0xFFFE → (adminAt n s.dev).notices = [] →
      ∃ e, exec (.adminDoorbell fn off 8 data) s = .next { s with dev := e } ∧
        (adminAt n e).written = (adminAt n s.dev).written -
          returned (adminSizes n s.dev).2 (adminAt n s.dev).ret (adminAt n s.dev).written (bitsOf data 31 16) ∧
        (adminAt n e).p = (adminAt n s.dev).p ∧ (adminAt n e).c = (adminAt n s.dev).c))

/-- R19: a doorbell that is not one 64-bit write, whose GENERATION is not its instance's current one, or whose QUEUE the instance of the page does
not own changes nothing at all: no queue, no register, no answer; where a retrain holds it, it waits (R389), and none is held here. -/
def Obligations.DiscardedDoorbells : Prop :=
  ∀ (s : State) (fn off n o data width : Nat), ctrlAddr fn off = 0x01000000 * (n + 1) + o → n < 64 → o < 0x100000 → s.dev.start.ready = true →
    s.dev.link.retrain = false →
    (width ≠ 8 ∨ bitsOf data 47 32 ≠ (instAt n s.dev).gen →
      exec (.wqDoorbell fn off width data) s = .next s ∧ exec (.returnDoorbell fn off width data) s = .next s ∧
      exec (.adminDoorbell fn off width data) s = .next s) ∧
    ((∀ w, wqAt (data % 65536) s.dev = some w → w.inst ≠ n) → exec (.wqDoorbell fn off width data) s = .next s) ∧
    ((∀ c, crAt (data % 65536) s.dev = some c → c.inst ≠ n) → exec (.returnDoorbell fn off width data) s = .next s) ∧
    (data % 65536 ≠ 0xFFFF → data % 65536 ≠ 0xFFFE → exec (.adminDoorbell fn off width data) s = .next s)

/-! ## Self-timing, the current ledger, brownout (02) -/

/-- R43, R45, R47, R49: a request for a level that the current curves cost, on an open rail on which none waits, is granted when its cost fits
and its instance's share allows it, and waits otherwise; a cost that is no level asks for nothing; a grant returned is taken off. Nothing
but that rail's ledger changes, and the list of the units that such requests made busy. And: whatever is granted, returned or waits, no grant takes a rail past its present capacity: where
GRANTED is within NOW and the allowance's grants within the allowance before a request, they are so after it, and every other rail is as
it was. -/
def Obligations.CurrentLedger : Prop :=
  (∀ (s : State) (u : UnitId) (cost : Nat) (i : Option Nat),
    (asksLevel ⟨u, cost, i⟩ s.dev = false → exec (.grantRequest u cost i) s = .next s) ∧
    (railOf u < s.dev.pwr.rails.length → (railAt (railOf u) s.dev).open_ = true → (railAt (railOf u) s.dev).waiting = [] →
      (asksLevel ⟨u, cost, i⟩ s.dev = true → fits (railAt (railOf u) s.dev) ⟨u, cost, i⟩ = true →
        shareOk (railAt (railOf u) s.dev) ⟨u, cost, i⟩ s.dev = true →
        exec (.grantRequest u cost i) s =
          .next { s with dev := updRail (railOf u) (fun r => { r with grants := r.grants ++ [⟨u, cost, i⟩] }) (setAsked (· ++ [u]) s.dev) }) ∧
      (asksLevel ⟨u, cost, i⟩ s.dev = true →
        ¬(fits (railAt (railOf u) s.dev) ⟨u, cost, i⟩ = true ∧ shareOk (railAt (railOf u) s.dev) ⟨u, cost, i⟩ s.dev = true) →
        exec (.grantRequest u cost i) s =
          .next { s with dev := updRail (railOf u) (fun r => { r with waiting := [⟨⟨u, cost, i⟩, 0⟩] }) (setAsked (· ++ [u]) s.dev) }) ∧
      exec (.grantReturn u) s =
        .next { s with dev := updRail (railOf u) (fun r => { r with grants := r.grants.filter (fun g => decide (g.unit ≠ u)) }) (setAsked (·.filter (fun x => decide (x ≠ u))) s.dev) })) ∧
  (∀ (s t : State) (u : UnitId) (cost : Nat) (i : Option Nat), railOf u < s.dev.pwr.rails.length →
    (railAt (railOf u) s.dev).granted ≤ (railAt (railOf u) s.dev).capacity →
    (railAt (railOf u) s.dev).fromAllow ≤ (railAt (railOf u) s.dev).allowance →
    exec (.grantRequest u cost i) s = .next t →
    (railAt (railOf u) t.dev).granted ≤ (railAt (railOf u) t.dev).capacity ∧
    (railAt (railOf u) t.dev).fromAllow ≤ (railAt (railOf u) t.dev).allowance ∧
    (∀ r, r ≠ railOf u → railAt r t.dev = railAt r s.dev))

/-- R36, R37, R39: a measurement of a monitor in service that is within 8 % of its prediction is kept, one further off takes the monitor out
of service with its kept readings as they were; either way PACE_RATE.RATE becomes the least of the readings kept of the die's monitors in
service, and where that is below 1,520, or fewer than four monitors are in service, the die's rail grants nothing; PACE_RATE and PACE_LOW of
the die are the only registers that change. Once the rate has been at or above 1,540 for 1 ms, RAIL_GRANT_RESUME makes the rail grant again
where no brownout stops it. R51, R53, R55: the level bits of BROWNOUT_STATUS follow the input, HIGH above 58 V, LOW from 42 V to below 44 V, neither from 44 V
to 58 V, and nothing else but the times that the input levels began changes; a report of the input monitor is held in INPUT_VOLTAGE, and below its
lowest so far during a warning becomes the lowest. R52, R53: a fall through 42 V stops every rail's governor with every grant kept, sets WARN and WARN_SEEN, clears
RECOVERING and raises DIP_COUNT; the capacities then become 8/16 of FULL and the allowances half, with every grant still held; a rise through
43 V ends WARN, sets RECOVERING and puts the first step 1 ms off; each step raises every capacity by one sixteenth of FULL until FULL, where the
steps end, the allowances are whole and RECOVERING is clear. -/
def Obligations.PaceAndInput : Prop :=
  (∀ (s : State) (die mon rate predicted : Nat), die < 11 → mon < 8 → rate < 65536 →
    bitOf (getF .paceRate die 0 23 16 s.dev) mon = true →
    let near := 100 * (rate - predicted + (predicted - rate)) ≤ 8 * predicted
    ∃ t, exec (.paceMeasurement die mon rate predicted) s = .next t ∧
      (near → Tab.get t.dev.pwr.readings (8 * die + mon) = some rate ∧
        (∀ k, k ≠ 8 * die + mon → Tab.get t.dev.pwr.readings k = Tab.get s.dev.pwr.readings k) ∧
        getF .paceRate die 0 23 16 t.dev = getF .paceRate die 0 23 16 s.dev) ∧
      (¬near → t.dev.pwr.readings = s.dev.pwr.readings ∧
        ∀ k < 8, bitOf (getF .paceRate die 0 23 16 t.dev) k = (bitOf (getF .paceRate die 0 23 16 s.dev) k && k != mon)) ∧
      ((∀ k v, Tab.get s.dev.pwr.readings k = some v → v < 65536) →
        ∀ k v, k < 8 → bitOf (getF .paceRate die 0 23 16 t.dev) k = true → Tab.get t.dev.pwr.readings (8 * die + k) = some v →
          getF .paceRate die 0 15 0 t.dev ≤ v ∧
          ∃ j < 8, bitOf (getF .paceRate die 0 23 16 t.dev) j = true ∧
            Tab.get t.dev.pwr.readings (8 * die + j) = some (getF .paceRate die 0 15 0 t.dev)) ∧
      (die < s.dev.pwr.rails.length →
        (getF .paceRate die 0 15 0 t.dev ≠ 0 ∧ getF .paceRate die 0 15 0 t.dev < 1520) ∨ (monitorsOk die t.dev).length < 4 →
        (railAt die t.dev).open_ = false) ∧
      Safety.SameRegs [addrOf .paceRate die 0, addrOf .paceLow die 0] s.dev t.dev ∧
      t = { s with dev := { s.dev with regs := t.dev.regs, pwr := t.dev.pwr, mc := t.dev.mc } }) ∧
  (∀ (s : State) (die t0 : Nat), die < s.dev.pwr.rails.length → (railAt die s.dev).goodSince = some t0 → t0 + 8000 ≤ clock die s.dev →
    ∃ t, exec (.railGrantResume die) s = .next t ∧ (railAt die t.dev).slowHold = false ∧ (railAt die t.dev).goodSince = none ∧
      ((railAt die s.dev).stopped = false → (railAt die t.dev).open_ = true) ∧
      (∀ r, r ≠ die → railAt r t.dev = railAt r s.dev)) ∧
  (∀ (s : State) (v : Nat), v < 65536 →
    let levels := fun (t : State) (high low : Nat) =>
      getF .brownoutStatus 0 0 3 3 t.dev = high ∧ getF .brownoutStatus 0 0 2 2 t.dev = low ∧ Safety.SameRegs [0x12000] s.dev t.dev ∧
      t.dev.pwr.rails = s.dev.pwr.rails ∧ t = { s with dev := { s.dev with regs := t.dev.regs, pwr := t.dev.pwr } }
    (5800 < v → ∃ t, exec (.inputHigh v) s = .next t ∧ levels t 1 0) ∧
    (4200 ≤ v → v < 4400 → ∃ t, exec (.inputLow v) s = .next t ∧ levels t 0 1) ∧
    (4400 ≤ v → v ≤ 5800 → ∃ t, exec (.inputInRange v) s = .next t ∧ levels t 0 0) ∧
    (∃ t, exec (.inputVoltageSample v) s = .next t ∧ getF .inputVoltage 0 0 15 0 t.dev = v ∧ Safety.SameRegs [0x12004] s.dev t.dev ∧
      t = { s with dev := { s.dev with
        regs := t.dev.regs,
        pwr := { s.dev.pwr with lowest := if getF .brownoutStatus 0 0 0 0 s.dev = 1 then min s.dev.pwr.lowest v else s.dev.pwr.lowest } } })) ∧
  (∀ (s : State) (v : Nat), v < 4200 → ∃ t, exec (.brownoutWarning v) s = .next t ∧
    (∀ r ∈ t.dev.pwr.rails, r.open_ = false) ∧ t.dev.pwr.rails.map Rail.grants = s.dev.pwr.rails.map Rail.grants ∧
    getF .brownoutStatus 0 0 0 0 t.dev = 1 ∧ getF .brownoutStatus 0 0 1 1 t.dev = 0 ∧ getF .brownoutStatus 0 0 8 8 t.dev = 1 ∧
    getF .brownoutStatus 0 0 23 16 t.dev = min 255 (getF .brownoutStatus 0 0 23 16 s.dev + 1) ∧
    Safety.SameRegs [0x12000] s.dev t.dev ∧ t = { s with dev := { s.dev with regs := t.dev.regs, pwr := t.dev.pwr } }) ∧
  (∀ s : State, s.dev.pwr.rails.any Rail.stopped = true → ∃ t, exec .capacityHalved s = .next t ∧
    (∀ k < s.dev.pwr.rails.length, k < 11 →
      (railAt k t.dev).sixteenths = 8 ∧ (railAt k t.dev).capacity = (railAt k s.dev).full * 8 / 16 ∧
      (railAt k t.dev).allowance = (railAt k s.dev).allowFull / 2 ∧ (railAt k t.dev).stopped = false ∧
      (∀ g ∈ (railAt k s.dev).grants, g ∈ (railAt k t.dev).grants))) ∧
  (∀ (s : State) (v : Nat), 4300 ≤ v → v < 65536 → getF .brownoutStatus 0 0 0 0 s.dev = 1 →
    ∃ t, exec (.brownoutRecovery v) s = .next t ∧ t.dev.pwr.stepAt = some (clock iodie s.dev + 8000) ∧
      getF .brownoutStatus 0 0 0 0 t.dev = 0 ∧ getF .brownoutStatus 0 0 1 1 t.dev = 1 ∧ t.dev.pwr.rails = s.dev.pwr.rails ∧
      Safety.SameRegs [0x12000] s.dev t.dev) ∧
  (∀ (s : State) (t0 : Nat), s.dev.pwr.stepAt = some t0 → t0 ≤ clock iodie s.dev → s.dev.pwr.rails.any Rail.stopped = false →
    s.dev.pwr.rails ≠ [] →
    ∃ t, exec .capacityStep s = .next t ∧
      (∀ k < s.dev.pwr.rails.length, k < 11 →
        (railAt k t.dev).sixteenths = min 16 ((railAt k s.dev).sixteenths + 1) ∧
        (railAt k t.dev).capacity = (railAt k s.dev).full * min 16 ((railAt k s.dev).sixteenths + 1) / 16 ∧
        (15 ≤ (railAt k s.dev).sixteenths → (railAt k t.dev).allowance = (railAt k s.dev).allowFull)) ∧
      ((∀ r ∈ s.dev.pwr.rails, r.sixteenths + 1 < 16) → t.dev.pwr.stepAt = some (t0 + 8000)) ∧
      ((∀ r ∈ s.dev.pwr.rails, 15 ≤ r.sixteenths) → t.dev.pwr.stepAt = none ∧ getF .brownoutStatus 0 0 1 1 t.dev = 0))

/-! ## Bricks: programs (03, 04) -/

/-- R102, R105, R148: a legal scalar operation on registers writes its result to DST (a write to S0 is ignored) and moves the program counter
past itself: integers modulo 2^64, the second operand SRC2 or, with FLAGS bit 0, the signed immediate; move immediate writes the
immediate. A shift by 64 or more writes a value that the spec leaves open, and counts a free draw. Nothing else of the machine changes. And: a
scalar load reads eight bytes of scratch, least significant first, into DST; a scalar store writes SRC2 there, and every other byte of scratch
is as it was; either stays where it is while an instruction in a unit or a host load has yet to write what it accesses (R101). And: where no
memory error waits to be found, the context counts no accesses and its units hold nothing, the fetch itself changes only the cached
translations. -/
def Obligations.ScalarInstructions : Prop :=
  (∀ (s : State) (b k : Nat) (x : BCtx) (l : Launch) (e : Dev) (op : ScalarOp) (word : Word64), Safety.Fetched b s k x l e →
    scalarLegal op word.toNat x l = true →
    let a := BitVec.ofNat 64 (x.sreg (fSrc1 word.toNat))
    let c := if word.getLsbD 48 then (word.extractLsb' 0 32).signExtend 64 else BitVec.ofNat 64 (x.sreg (fSrc2 word.toNat))
    let next := fun (v : BitVec 64) => { (x.setS (fDst word.toNat) v.toNat) with pc := (x.pc + 8) % 2 ^ 56, wait := .run }
    (∀ v, Safety.scalarSpec op a c = some v →
      ∃ t, exec (.scalarInstruction b op word) s = .next t ∧ Safety.CtxStep s e t k (next v)) ∧
    (op = .movi → ∃ t, exec (.scalarInstruction b op word) s = .next t ∧
      Safety.CtxStep s e t k (next ((word.extractLsb' 0 32).signExtend 64))) ∧
    (op = .shl ∨ op = .shr ∨ op = .sar → 64 ≤ c.toNat →
      ∃ t v, exec (.scalarInstruction b op word) s = .next t ∧ Safety.CtxStep s { e with free := e.free + 1 } t k (next v))) ∧
  (∀ (s : State) (b k : Nat) (x : BCtx) (l : Launch) (e : Dev) (word : Word64), Safety.Fetched b s k x l e →
    let a := scalarAddr word.toNat x
    a + 8 ≤ 0x300000 → (∀ c ∈ poisonOf k x e, c + 16 ≤ a ∨ a + 8 ≤ c) →
    (scalarLegal .load word.toNat x l = true →
      (rangeHeld x x.ops [(a, 8)] [] = false → ∃ t, exec (.scalarInstruction b .load word) s = .next t ∧
        Safety.CtxStep s (readsScratch k x a 8 e) t k
          { (x.setS (fDst word.toNat) (leNat ((List.range 8).map (fun i => x.byte (a + i))))) with
            pc := (x.pc + 8) % 2 ^ 56, wait := .run }) ∧
      (rangeHeld x x.ops [(a, 8)] [] = true → exec (.scalarInstruction b .load word) s = .next { s with dev := e })) ∧
    (scalarLegal .store word.toNat x l = true →
      (rangeHeld x x.ops [] [(a, 8)] = false → ∃ t y, exec (.scalarInstruction b .store word) s = .next t ∧ Safety.CtxStep s e t k y ∧
        y = { x with pc := (x.pc + 8) % 2 ^ 56, wait := .run, scratch := y.scratch } ∧
        (∀ i < 8, y.byte (a + i) = BitVec.ofNat 8 (x.sreg (fSrc2 word.toNat) / 256 ^ i)) ∧
        (∀ j, j < a ∨ a + 8 ≤ j → y.byte j = x.byte j)) ∧
      (rangeHeld x x.ops [] [(a, 8)] = true → exec (.scalarInstruction b .store word) s = .next { s with dev := e }))) ∧
  (∀ (s : State) (b k : Nat) (x y : BCtx) (l : Launch) (e : Dev), Safety.Fetched b s k x l e → s.dev.tiers.soft = [] →
    (brickAt b s.dev).cur = some k → ctxAt k s.dev = some y → y.ops = [] →
    (∀ c, Tab.get s.dev.xl.ctxs l.ctx = some c → c.mode ≠ 1) →
    e = { s.dev with xl := { s.dev.xl with cache := e.xl.cache } })

/-- R84, R102, R105, R125: a jump goes to the address IMM instructions on from itself; a compare-and-branch goes there when the comparison that
FLAGS names holds and past itself otherwise (which comparison each code of FLAGS is, the spec leaves open: log entry 14); a call links the address
after it in DST; a return goes to the address in SRC1; a counted loop counts SRC1 down and goes on until it is zero. And: reading the flags word
or the beat count writes DST; clearing the flags zeroes them; END ends the program and frees the brick's slice and grant at once. -/
def Obligations.BranchesAndSystem : Prop :=
  (∀ (s : State) (b k : Nat) (x : BCtx) (l : Launch) (e : Dev) (op : BranchOp) (word : Word64), Safety.Fetched b s k x l e →
    branchLegal op word.toNat x l = true → x.pc < 2 ^ 56 →
    let a := BitVec.ofNat 64 (x.sreg (fSrc1 word.toNat))
    let c := BitVec.ofNat 64 (x.sreg (fSrc2 word.toNat))
    let past := (x.pc + 8) % 2 ^ 56
    let there := (BitVec.ofNat 56 x.pc + 8 * (word.extractLsb' 0 32).signExtend 56).toNat
    ∃ t, exec (.branch b op word) s = .next t ∧
      (op = .jump → Safety.CtxStep s e t k { x with pc := there, wait := .run }) ∧
      (op = .branch → Safety.CtxStep s e t k
        { x with pc := if Safety.compareBits (branchCmp word.toNat) a c then there else past, wait := .run }) ∧
      (op = .call → Safety.CtxStep s e t k { (x.setS (fDst word.toNat) past) with pc := there, wait := .run }) ∧
      (op = .ret → Safety.CtxStep s e t k { x with pc := x.sreg (fSrc1 word.toNat) % 2 ^ 56 / 8 * 8, wait := .run }) ∧
      (op = .loop → Safety.CtxStep s e t k
        { (x.setS (fSrc1 word.toNat) (a - 1).toNat) with pc := if a - 1 ≠ 0 then there else past, wait := .run })) ∧
  (∀ (s : State) (b k : Nat) (x : BCtx) (l : Launch) (e : Dev) (word : Word64), Safety.Fetched b s k x l e →
    let w := word.toNat
    let on := fun (y : BCtx) => { y with pc := (x.pc + 8) % 2 ^ 56, wait := .run }
    (sysLegal false w x l = true →
      (∃ t, exec (.readFlags b word) s = .next t ∧ Safety.CtxStep s e t k (on (x.setS (fDst w) x.flags))) ∧
      (∃ t, exec (.clearFlags b word) s = .next t ∧ Safety.CtxStep s e t k (on { x with flags := 0 })) ∧
      (∀ beats, ∃ t, exec (.readBeatCount b beats word) s = .next t ∧ Safety.CtxStep s e t k (on (x.setS (fDst w) (x.beats + beats))))) ∧
    (sysLegal true w x l = true →
      ∃ t y, exec (.endProgram b word) s = .next t ∧ ctxAt k t.dev = some y ∧ y.wait = .ended ∧ y.s = x.s ∧ y.scratch = x.scratch ∧
        (brickAt b t.dev).cur = none ∧ k ∉ (brickAt b t.dev).rot ∧ (∀ j ∈ (brickAt b e).rot, j ≠ k → j ∈ (brickAt b t.dev).rot) ∧
        ∀ g ∈ (railAt (b / 128) t.dev).grants, g.unit ≠ .brick b))

/-- R119, R121: CWAIT, BAR, FENCE and HFENCE move the program counter past themselves and leave the context waiting for what each
names (CWAIT only on a counter that the instance owns); a CADD with everything earlier visible adds SRC2 to the counter modulo 2^48 at once
(where the counter has a mirror, one that can be written), and one with a store still on its way holds it; and a context issues nothing while what it waits for is not there. -/
def Obligations.BrickWaits : Prop :=
  (∀ (s : State) (b k : Nat) (x : BCtx) (l : Launch) (e : Dev) (word : Word64), Safety.Fetched b s k x l e →
    let w := word.toNat
    let at_ := fun (wt : BWait) => { x with pc := (x.pc + 8) % 2 ^ 56, wait := wt }
    (syncLegal false w x l = true → counterOwner (x.sreg (fSrc1 w)) e = some l.inst → ∃ t, exec (.cwait b word) s = .next t ∧
      Safety.CtxStep s e t k (at_ (.cwait (x.sreg (fSrc1 w)) (x.sreg (fSrc2 w) % 2 ^ 48) w))) ∧
    (syncLegal false w x l = true → ∃ t, exec (.bar b word) s = .next t ∧
      Safety.CtxStep s e t k { at_ .bar with bars := x.bars + 1 }) ∧
    (syncLegal false w x l = true → ∃ t, exec (.fence b word) s = .next t ∧ Safety.CtxStep s e t k (at_ .fence)) ∧
    (wordOk w 9 [(53, 48), (37, 33), (31, 0)] = true → ∃ t, exec (.hfence b word) s = .next t ∧ Safety.CtxStep s e t k (at_ .hfence)) ∧
    (syncLegal false w x l = true → counterOwner (x.sreg (fSrc1 w)) e = some l.inst →
      (x.allSeen = true → mirrorLost (x.sreg (fSrc1 w)) e = false →
        ∃ t, exec (.cadd b word) s = .next t ∧ ctxAt k t.dev = some (at_ .run) ∧
          counterVal (x.sreg (fSrc1 w)) t.dev = (counterVal (x.sreg (fSrc1 w)) e + x.sreg (fSrc2 w) % 2 ^ 48) % 2 ^ 48) ∧
      (x.allSeen = false → ∃ t, exec (.cadd b word) s = .next t ∧
        Safety.CtxStep s e t k (at_ (.cadd (x.sreg (fSrc1 w)) (x.sreg (fSrc2 w) % 2 ^ 48) w))))) ∧
  (∀ (d : Dev) (b k : Nat) (x : BCtx), (brickAt b d).cur = some k → ctxAt k d = some x → waitOver x d = false → issuing b d = none)

/-- R115: SWAIT leaves its context waiting for its channel; the wait is over exactly when (DONE − n) modulo 2^32, read as a signed 32-bit value, is zero or
more, with n the value in SRC1, and no time ends it: until then the brick issues nothing; and at each slice boundary the waiting brick's beats are
counted. -/
def Obligations.SwaitWaits : Prop :=
  (∀ (s : State) (b k : Nat) (x : BCtx) (l : Launch) (e : Dev) (word : Word64), Safety.Fetched b s k x l e → syncLegal true word.toNat x l = true →
    ∃ t, exec (.swait b word) s = .next t ∧
      Safety.CtxStep s e t k { x with pc := (x.pc + 8) % 2 ^ 56, wait := .swait (fDst word.toNat) (x.sreg (fSrc1 word.toNat) % 2 ^ 32) }) ∧
  (∀ (d : Dev) (b k ch n : Nat) (times : List Nat) (x : BCtx), x.wait = .swait ch n →
    (waitOver x d = true ↔ 0 ≤ (BitVec.ofNat 32 (x.chan ch).done - BitVec.ofNat 32 n).toInt) ∧
    waitOver x { d with timers := times } = waitOver x d ∧
    ((brickAt b d).cur = some k → ctxAt k d = some x → waitOver x d = false → issuing b d = none)) ∧
  (∀ (s : State) (b beats k ch n : Nat) (x : BCtx), b < 1024 → (brickAt b s.dev).edge ≤ clock (b / 128) s.dev → onEdge b s.dev = true →
    (brickAt b s.dev).failing = none →
    (brickAt b s.dev).coming = none → (brickAt b s.dev).cur = some k → (brickAt b s.dev).rot = [k] → ctxAt k s.dev = some x → x.brick = b →
    x.wait = .swait ch n →
    ∃ t y, exec (.sliceBoundary b beats) s = .next t ∧ ctxAt k t.dev = some y ∧ y.beats = (x.beats + beats) % 2 ^ 64 ∧ y.wait = x.wait)

/-- R67, R74 to R80, R81 to R83, R100, R101, R106: a matrix or drain instruction is handed to its unit, the program goes on, and it begins at once
where nothing earlier holds its bank or its scratch, else it waits in the unit; where the unit still has one in hand, the instruction stays where it
is. A matrix instruction that begins writes every value of its bank, each the cell's chain over the K / 32 blocks from the old value or, with
ZERO, from +0, and leaves the other bank alone. A drain to V registers writes the 64 lanes of ten registers, the ten values of a lane in the ten
registers (lane-major: log entry 133); one to scratch writes the converted and packed values. MATRIX_END and DRAIN_END end the instruction, and the
posts and instructions that waited for it go on. -/
def Obligations.MatrixAndDrain : Prop :=
  (∀ (s : State) (b k : Nat) (x : BCtx) (l : Launch) (e : Dev) (word : Word64) (ma mb sa sb : List Byte),
    let w := word.toNat
    let o := Safety.handed .matrix w 0 x e
    Safety.Fetched b s k x l e → matrixLegal w x l = true →
    (x.has [.matrix] = true → exec (.matrix b word) s = .next { s with dev := e }) ∧
    (x.has [.matrix] = false → firstReady x [] x.ops = none → o.free x.ops x = false →
      ∃ t, exec (.matrix b word) s = .next t ∧
        Safety.CtxStep s (newId e).2 t k { x with pc := (x.pc + 8) % 2 ^ 56, wait := .run, ops := x.ops ++ [o] }) ∧
    (x.has [.matrix] = false → Safety.BeginsAt o x → readRanges k x e (matrixRanges w x) = .ok [ma, mb, sa, sb] →
      ∃ t y, exec (.matrix b word) s = .next t ∧
        Safety.CtxStep s (each (matrixRanges w x) (fun r => readsScratch k x r.1 r.2) (newId e).2) t k y ∧
        y = { x with pc := (x.pc + 8) % 2 ^ 56, wait := .run, ops := x.ops ++ [{ o with begun := true }], banks := y.banks, flags := y.flags } ∧
        (∀ n, bankVal y (1 - fFlags w % 2) n = bankVal x (1 - fFlags w % 2) n) ∧
        (∀ i < 128, ∀ j < 80, bankVal y (fFlags w % 2) (80 * i + j) =
          ((cellBlocks (matFa w) (matFb w) (matK w) i j ma mb sa sb).foldl (cellBlock ((matrixPath (matFa w) (matFb w)).getD false))
            (if word.getLsbD 49 then 0 else bankVal x (fFlags w % 2) (80 * i + j), 0)).1))) ∧
  (∀ (s : State) (b k : Nat) (x : BCtx) (l : Launch) (e : Dev) (word : Word64),
    let w := word.toNat
    let o := Safety.handed .drain w 0 x e
    Safety.Fetched b s k x l e → drainLegal w x l = true →
    (x.has [.drain] = true → exec (.drain b word) s = .next { s with dev := e }) ∧
    (x.has [.drain] = false → firstReady x [] x.ops = none → o.free x.ops x = false →
      ∃ t, exec (.drain b word) s = .next t ∧
        Safety.CtxStep s (newId e).2 t k { x with pc := (x.pc + 8) % 2 ^ 56, wait := .run, ops := x.ops ++ [o] }) ∧
    (x.has [.drain] = false → Safety.BeginsAt o x → toVreg w = true →
      ∃ t y, exec (.drain b word) s = .next t ∧ Safety.CtxStep s (newId e).2 t k y ∧
        y = { x with pc := (x.pc + 8) % 2 ^ 56, wait := .run, ops := x.ops ++ [{ o with begun := true }], v := y.v, flags := y.flags } ∧
        (∀ r < 10, ∀ i < 64, (y.vreg (fDst w + r)).getD i 0 = (drainVal w x (640 * bitsOf w 7 4 + 10 * i + r)).1) ∧
        (∀ r, r < fDst w ∨ fDst w + 10 ≤ r → y.vreg r = x.vreg r)) ∧
    (x.has [.drain] = false → Safety.BeginsAt o x → toVreg w = false →
      let bytes := (packVals (fmtOf w) (bitOf (fFlags w) 1) ((drainOrder w).map (fun n => val32 (drainVal w x n).1))).1
      Safety.WritesAll k x (x.sreg (fDst w)) bytes.length e →
      ∃ t y, exec (.drain b word) s = .next t ∧ ctxAt k t.dev = some y ∧
        y = { x with pc := (x.pc + 8) % 2 ^ 56, wait := .run, ops := x.ops ++ [{ o with begun := true }], scratch := y.scratch, flags := y.flags } ∧
        Safety.Wrote x y (x.sreg (fDst w)) bytes ∧ (∀ j, j ≠ k → ctxAt j t.dev = ctxAt j e) ∧ t.dev.regs = e.regs)) ∧
  (∀ (s : State) (b k : Nat) (x : BCtx) (o : UOp) (kind : UKind), unitHolder b kind s.dev = some (k, o) → ctxAt k s.dev = some x →
    (∀ i v u, x.wait ≠ .cadd i v u) →
    let rest := x.ops.filter (fun p => p.id != o.id)
    let ends := fun (c : Instr) =>
      (x.posts = [] → firstReady x [] rest = none → ∃ t, exec c s = .next t ∧ Safety.CtxStep s s.dev t k { x with ops := rest }) ∧
      (∀ ch n, x.posts = [⟨ch, n, [o.id]⟩] → firstReady x [] rest = none → ∃ t y, exec c s = .next t ∧ Safety.CtxStep s s.dev t k y ∧
        y.posts = [] ∧ y.ops = rest ∧ (y.chan ch).posted = ((x.chan ch).posted + n) % 2 ^ 32)
    (kind = .matrix → ends (.matrixEnd b)) ∧ (kind = .drain → ends (.drainEnd b)))

/-- R82, R83, R85 to R87, R100, R101: a vector instruction computes each of the 64 lanes from the same lane of its sources, or from the broadcast immediate,
and writes DST: integer and bitwise lanes wrap modulo 2^32, FP32 add, subtract, multiply and multiply-add round their exact result once in the
instruction's mode. Every other register is as it was. And: a vector load converts 64 elements of scratch to lanes and a vector store converts lanes
and writes them to scratch, at once where nothing earlier holds that scratch; division, square root and the other special operations act on each
lane; a reduction combines the 64 lanes by a pairwise tree and writes an S register. An instruction of the vector unit stays where it is while a
register that it reads is still to be written or the unit waits for scratch. -/
def Obligations.VectorInstructions : Prop :=
  (∀ (s : State) (b k : Nat) (x : BCtx) (l : Launch) (d : Dev) (op : VectorOp) (word : Word64),
    let w := word.toNat
    Safety.Fetched b s k x l d → vectorLegal op w x l = true →
    (vectorBusy (vectorReads op w) x = true → exec (.vector b op word) s = .next { s with dev := d }) ∧
    (vectorBusy (vectorReads op w) x = false → (∀ r i, (x.vreg r).getD i 0 < 2 ^ 32) →
      let a := fun i => (x.vreg (fSrc1 w)).getD i 0
      let c := fun i => if op.imm then fImm w else (x.vreg (fSrc2 w)).getD i 0
      let e := fun i => (x.vreg (fDst w)).getD i 0
      ∃ t y, exec (.vector b op word) s = .next t ∧ Safety.CtxStep s d t k y ∧
        y = { x with pc := (x.pc + 8) % 2 ^ 56, wait := .run, v := y.v, flags := y.flags, lastV := y.lastV } ∧
        (∀ r, r ≠ fDst w → y.vreg r = x.vreg r) ∧
        ∀ i < 64,
          (∀ v, word.getLsbD 50 = false → Safety.laneSpec op.fn (BitVec.ofNat 32 (a i)) (BitVec.ofNat 32 (c i)) = some v →
            (y.vreg (fDst w)).getD i 0 = v.toNat) ∧
          (op.fn = .add → (y.vreg (fDst w)).getD i 0 = round32 (roundOf w) (Val.add (roundOf w) (val32 (a i)) (val32 (c i)))) ∧
          (op.fn = .sub → (y.vreg (fDst w)).getD i 0 = round32 (roundOf w) (Val.add (roundOf w) (val32 (a i)) (val32 (c i)).neg)) ∧
          (op.fn = .mul → (y.vreg (fDst w)).getD i 0 = round32 (roundOf w) (Val.mul (val32 (a i)) (val32 (c i)))) ∧
          (op.fn = .fma → (y.vreg (fDst w)).getD i 0 =
            round32 (roundOf w) (Val.add (roundOf w) (Val.mul (val32 (a i)) (val32 (c i))) (val32 (e i)))) ∧
          (op.fn = .select → (y.vreg (fDst w)).getD i 0 = if e i ≠ 0 then a i else c i))) ∧
  (∀ (s : State) (b k : Nat) (x : BCtx) (l : Launch) (e : Dev) (word : Word64),
    let w := word.toNat
    let a := x.sreg (fSrc1 w)
    Safety.Fetched b s k x l e →
    (vmemLegal .load w x l = true → vectorBusy [] x = false → Safety.BeginsAt (Safety.handed .vload w 0 x e) x →
      a + vmemBytes (fmtOf w) ≤ 0x300000 → (∀ c ∈ poisonOf k x e, c + 16 ≤ a ∨ a + vmemBytes (fmtOf w) ≤ c) →
      ∃ t y, exec (.vectorMemory b .load word) s = .next t ∧
        Safety.CtxStep s (readsScratch k x a (vmemBytes (fmtOf w)) (newId e).2) t k y ∧
        y.pc = (x.pc + 8) % 2 ^ 56 ∧ y.ops = x.ops ∧ y.s = x.s ∧ y.scratch = x.scratch ∧ (∀ r, r ≠ fDst w → y.vreg r = x.vreg r) ∧
        ∀ i < 64, (y.vreg (fDst w)).getD i 0 =
          (loadElem (fmtOf w) ((List.range (vmemBytes (fmtOf w))).map (fun n => x.byte (a + n))) i).1) ∧
    (vmemLegal .store w x l = true → vectorBusy [fDst w] x = false → Safety.BeginsAt (Safety.handed .vstore w 0 x e) x →
      let bytes := (storeLanes (fmtOf w) (bitOf (fFlags w) 2) (x.vreg (fDst w))).1
      Safety.WritesAll k x a bytes.length e →
      ∃ t y, exec (.vectorMemory b .store word) s = .next t ∧ ctxAt k t.dev = some y ∧ y.pc = (x.pc + 8) % 2 ^ 56 ∧ y.v = x.v ∧ y.s = x.s ∧
        y.ops = x.ops ∧ Safety.Wrote x y a bytes ∧ (∀ j, j ≠ k → ctxAt j t.dev = ctxAt j e) ∧ t.dev.regs = e.regs) ∧
    (∀ op, vspecLegal op w x l = true →
      (vectorBusy (vspecReads op w) x = true → exec (.vectorSpecial b op word) s = .next { s with dev := e }) ∧
      (vectorBusy (vspecReads op w) x = false →
        ∃ t y, exec (.vectorSpecial b op word) s = .next t ∧ Safety.CtxStep s e t k y ∧ y.pc = (x.pc + 8) % 2 ^ 56 ∧ y.scratch = x.scratch ∧
          (op = .sum ∨ op = .max ∨ op = .min → y.v = x.v ∧
            y.sreg (fDst w) = (if fDst w = 0 then 0 else (reduceOp op (roundOf w) (x.vreg (fSrc1 w))).1 % 2 ^ 64) ∧
            ∀ r, r ≠ fDst w → y.sreg r = x.sreg r) ∧
          (¬(op = .sum ∨ op = .max ∨ op = .min) → y.s = x.s ∧ (∀ r, r ≠ fDst w → y.vreg r = x.vreg r) ∧
            ∀ i < 64, (y.vreg (fDst w)).getD i 0 =
              (specLane op (roundOf w) ((x.vreg (fSrc1 w)).getD i 0) ((x.vreg (fSrc2 w)).getD i 0)).1))))

/-! ## Bricks: streams, the host window, launches, slices, residue (03, 04) -/

/-- R101, R110 to R114, R116, R117, R179: STREAM enters a well-formed descriptor, whose tiles can touch at most 64 pages each, in its channel as the
descriptor in progress, or as the pending one with tile numbers running on; SPOST with nothing earlier at work in scratch raises POSTED by its count at
once, and otherwise the post waits for it. And: the next tile of a channel that may start is started, one of device memory once the DDR5 channels that it
uses hold their current, and until then it waits for it (R45): it is in flight, STARTED rises by one, and a remote load goes to the launch's brick-fed queue; a remote operation that ended OK frees its slot at once, whatever is unfinished before it in its queue,
gives a load tile its data, and makes a store tile visible. -/
def Obligations.StreamsAndTiles : Prop :=
  (∀ (s : State) (b k : Nat) (x : BCtx) (l : Launch) (e : Dev) (word : Word64) (f : SDesc),
    let w := word.toNat
    let a := x.sreg (fSrc1 w)
    Safety.Fetched b s k x l e →
    (streamLegal w x l = true → streamBusy w x = true → exec (.stream b word) s = .next { s with dev := e }) ∧
    (streamLegal w x l = true → streamBusy w x = false → a % 64 = 0 → a + 64 ≤ 0x300000 →
      (∀ c ∈ poisonOf k x e, c + 16 ≤ a ∨ a + 64 ≤ c) →
      parseDesc ((List.range 64).map (fun n => x.byte (a + n))) x.pc w = some f → (f.space < 2 ∨ l.rq ≠ 0xFFFF) → f.pages ≤ 64 →
      ∃ t y, exec (.stream b word) s = .next t ∧ Safety.CtxStep s (readsScratch k x a 64 e) t k y ∧
        y = { x with pc := (x.pc + 8) % 2 ^ 56, wait := .run, chans := y.chans } ∧
        (∀ ch, ch ≠ fDst w → y.chan ch = x.chan ch) ∧
        ((x.chan (fDst w)).cur = none → y.chan (fDst w) =
          { x.chan (fDst w) with cur := some { f with first := (x.chan (fDst w)).started } }) ∧
        (∀ g, (x.chan (fDst w)).cur = some g → y.chan (fDst w) =
          { x.chan (fDst w) with next := some { f with first := (g.first + g.count) % 2 ^ 32 } })) ∧
    (wordOk w 7 [(53, 48), (37, 33)] = true → fDst w < 8 →
      ((∀ o ∈ x.ops, o.inScratch x = false) → x.posts = [] → (∀ h ∈ x.host, ∀ i off l, h.2 ≠ .loadS i off l) →
        ∃ t y, exec (.spost b word) s = .next t ∧ Safety.CtxStep s e t k y ∧
          y = { x with pc := (x.pc + 8) % 2 ^ 56, wait := .run, chans := y.chans } ∧
          y.chan (fDst w) = { x.chan (fDst w) with posted := ((x.chan (fDst w)).posted + fImm w) % 2 ^ 32 } ∧
          (∀ ch, ch ≠ fDst w → y.chan ch = x.chan ch)) ∧
      (∀ o, x.ops = [o] → o.inScratch x = true → x.posts = [] → x.host = [] →
        ∃ t, exec (.spost b word) s = .next t ∧ Safety.CtxStep s e t k
          { x with pc := (x.pc + 8) % 2 ^ 56, wait := .run, posts := [⟨fDst w, fImm w, [o.id]⟩] }))) ∧
  (∀ (s : State) (b ch k : Nat) (x : BCtx) (f : SDesc) (l : Launch), startCtx b ch s.dev = some (k, x, f) →
    launchAt x.launch s.dev = some l → 1 ≤ f.space → f.space ≤ 3 → (f.space = 1 → (basinRows f (x.chan ch).started b l.inst s.dev).isSome = true) →
    ctxAt k s.dev = some x →
    ∃ t y, exec (.streamTileStart b ch) s = .next t ∧ ctxAt k t.dev = some y ∧
      (y.chan ch).started = ((x.chan ch).started + 1) % 2 ^ 32 ∧
      (y.chan ch).tiles = (x.chan ch).tiles ++
        [{ f.tile (x.chan ch).started with seq := if f.space = 1 then s.dev.bricks.nextHost else 0 }] ∧
      (∀ c, c ≠ ch → y.chan c = x.chan c) ∧ y.scratch = x.scratch ∧ y.s = x.s ∧
      (f.space = 3 → ∀ q, wqAt l.rq s.dev = some q → q.inst = l.inst → q.feed = 2 → q.state = 0 → q.head.isSome = true →
        ∃ g e, wqAt l.rq t.dev = some g ∧ g.tiles = q.tiles ++ [e] ∧ e.load = true ∧ e.len = f.rows * f.rowBytes ∧ e.key = f.key ∧ e.node = f.node)) ∧
  (∀ (s : State) (b ch k : Nat) (x : BCtx) (f : SDesc) (l : Launch) (sp : List Spot), startCtx b ch s.dev = some (k, x, f) →
    launchAt x.launch s.dev = some l → ctxAt k s.dev = some x → f.space = 0 → stagedOf k ch (x.chan ch).started s.dev = none →
    spots l.ctx (if f.store then .write else .read) (.brick x.brick) s.dev (tileParts f (x.chan ch).started) = .ok sp →
    hostPieces f (x.chan ch).started sp = some [] → (∀ c ∈ x.chans, ∀ v ∈ c.2.tiles, v.host = []) →
    ((∃ c ∈ tileChans sp s.dev, holdsGrant (.ddr5 c) s.dev = false) → (railAt 10 s.dev).open_ = false →
      ∃ t y, exec (.streamTileStart b ch) s = .next t ∧ ctxAt k t.dev = some y ∧
        y.chan ch = { x.chan ch with asks := (tileChans sp s.dev).eraseDups } ∧ (∀ c, c ≠ ch → y.chan c = x.chan c) ∧
        t.dev.tiers = s.dev.tiers) ∧
    ((∀ c ∈ tileChans sp s.dev, holdsGrant (.ddr5 c) s.dev = true) → ∃ t y, exec (.streamTileStart b ch) s = .next t ∧ ctxAt k t.dev = some y ∧
      (y.chan ch).started = ((x.chan ch).started + 1) % 2 ^ 32 ∧
      (y.chan ch).tiles = (x.chan ch).tiles ++ [{ f.tile (x.chan ch).started with spots := sp, seq := s.dev.bricks.nextHost }] ∧
      (∀ c, c ≠ ch → y.chan c = x.chan c) ∧ y.scratch = x.scratch ∧ t.dev.tiers.basin = s.dev.tiers.basin ∧
      t.dev.tiers.dev = s.dev.tiers.dev)) ∧
  (∀ (s : State) (q idx k : Nat) (e : TileEnd) (x : BCtx) (w : WQ) (c : CR),
    s.dev.bricks.ends.find? (fun e => e.q == q && e.idx == idx) = some e → e.status = 0 →
    wqAt q s.dev = some w → crAt w.cr s.dev = some c → (∃ f ∈ w.flight, f.idx = idx ∧ f.done.isSome = true) →
    (∀ f ∈ w.flight, f.idx ≠ idx → f.done = none) → (∀ f ∈ w.flight, f.idx = idx → f.done.isSome = true) →
    (mates e.tile.launch s.dev).find? (fun p => p.2.brick == e.tile.brick) = some (k, x) → ctxAt k s.dev = some x → (∀ i v u, x.wait ≠ .cadd i v u) →
    ∃ t, exec (.remoteTileComplete q idx) s = .next t ∧ e ∉ t.dev.bricks.ends ∧
      wqAt q t.dev = some { w with flight := w.flight.filter (fun f => f.idx != idx) } ∧
      crAt w.cr t.dev = some { c with held := c.held - 1 } ∧
      (ctxAt k t.dev).map (fun y => (y.chan e.tile.chan).tiles) =
        some (if e.tile.load = true then (x.chan e.tile.chan).tiles.map (fun u => if u.n = e.tile.index then { u with data := e.tile.data } else u)
          else (x.chan e.tile.chan).tiles.filter (fun u => u.n != e.tile.index)))

/-- R112, R118, R133: a load tile whose bytes are there lands in its buffer of scratch, DONE rises by one and the tile leaves the channel, and the bytes of a
basin tile are those of its rows, those of a staged tile what the pool holds where no codeword of the pool is bad; a store tile is read from scratch and stays until it is visible, when its bytes stand in the basin or in device
memory and no other byte has changed. -/
def Obligations.TileEnds : Prop :=
  ∀ (s : State) (b ch k : Nat) (x : BCtx) (u : TileFl) (l : Launch), ctxAt k s.dev = some x → launchAt x.launch s.dev = some l → x.brick = b →
    (∀ bs d, doneTile b ch s.dev = some (k, x, u) → u.desc.store = false → loadBytes k ch x l u s.dev = .inr (bs, d) →
      u.desc.buffer u.n + bs.length ≤ 0x300000 →
      (∀ c ∈ poisonOf k x s.dev, c + 16 ≤ u.desc.buffer u.n ∨ u.desc.buffer u.n + bs.length ≤ c) →
      ∃ t y, exec (.streamTileDone b ch) s = .next t ∧ ctxAt k t.dev = some y ∧ (y.chan ch).done = ((x.chan ch).done + 1) % 2 ^ 32 ∧
        (∀ v ∈ (y.chan ch).tiles, v.n ≠ u.n) ∧ Safety.Wrote x y (u.desc.buffer u.n) bs ∧
        t.dev.tiers.basin = s.dev.tiers.basin ∧ t.dev.tiers.dev = s.dev.tiers.dev) ∧
    (u.desc.space = 1 → u.data = [] → ∀ rows, basinRows u.desc u.n b l.inst s.dev = some rows →
      (∀ r ∈ rows, basinPoison r.2 u.desc.rowBytes s.dev = []) →
      loadBytes k ch x l u s.dev = .inr (rows.flatMap (fun r => Mem.readN s.dev.tiers.basin r.2 u.desc.rowBytes),
        correct (metBasin (rows.map (fun r => (r.2, u.desc.rowBytes)))) s.dev)) ∧
    (u.desc.space = 0 → u.data = [] → ∀ parts, readSpots s.dev (piecesOf s.dev u.spots) = .ok parts →
      loadBytes k ch x l u s.dev = .inr (assemble (parts ++ u.got), readsDev ((piecesOf s.dev u.spots).map Prod.snd) s.dev)) ∧
    (u.desc.space = 0 → u.data ≠ [] → s.dev.tiers.poison.filter (inPool (b / 128) s.dev) = [] →
      loadBytes k ch x l u s.dev = .inr (u.data, readsSome (inPool (b / 128) s.dev) s.dev)) ∧
    (doneTile b ch s.dev = some (k, x, u) → u.desc.store = true → u.desc.space < 2 → u.desc.buffer u.n + u.desc.len ≤ 0x300000 →
      (∀ c ∈ poisonOf k x s.dev, c + 16 ≤ u.desc.buffer u.n ∨ u.desc.buffer u.n + u.desc.len ≤ c) →
      (∀ c ∈ x.chans, ∀ v ∈ c.2.tiles, v.host = []) →
      ∃ t y, exec (.streamTileDone b ch) s = .next t ∧ ctxAt k t.dev = some y ∧ (y.chan ch).done = ((x.chan ch).done + 1) % 2 ^ 32 ∧
        (∀ v ∈ (x.chan ch).tiles, v.n = u.n →
          { v with data := (List.range u.desc.len).map (fun i => x.byte (u.desc.buffer u.n + i)), landed := true, seq := s.dev.bricks.nextHost } ∈
            (y.chan ch).tiles) ∧
        y.scratch = x.scratch ∧ t.dev.tiers.dev = s.dev.tiers.dev ∧ t.dev.tiers.basin = s.dev.tiers.basin) ∧
    (doneTile b ch s.dev = some (k, x, u) → u.desc.store = true → u.desc.space = 2 → u.desc.buffer u.n + u.desc.len ≤ 0x300000 →
      (∀ c ∈ poisonOf k x s.dev, c + 16 ≤ u.desc.buffer u.n ∨ u.desc.buffer u.n + u.desc.len ≤ c) →
      ∀ q, wqAt l.rq s.dev = some q → q.inst = l.inst → q.feed = 2 → q.state = 0 → q.head.isSome = true →
      ∃ t y g e, exec (.streamTileDone b ch) s = .next t ∧ ctxAt k t.dev = some y ∧ (y.chan ch).done = ((x.chan ch).done + 1) % 2 ^ 32 ∧
        wqAt l.rq t.dev = some g ∧ g.tiles = q.tiles ++ [e] ∧ e.load = false ∧ e.key = u.desc.key ∧ e.node = u.desc.node ∧
        e.data = (List.range u.desc.len).map (fun i => x.byte (u.desc.buffer u.n + i))) ∧
    (∀ n, (ctxsOf b s.dev).findSome? (fun p => (storeReady p.2 ch n s.dev).map (fun t => (p.1, p.2, t))) = some (k, x, u) →
      (∀ i v u, x.wait ≠ .cadd i v u) →
      (u.desc.space = 1 → ∀ rows, basinRows u.desc n b l.inst s.dev = some rows → basinBad rows u.desc.rowBytes s.dev = [] →
        ∃ t y, exec (.storeTileVisible b ch n) s = .next t ∧ ctxAt k t.dev = some y ∧ (∀ v ∈ (y.chan ch).tiles, v.n ≠ n) ∧
          (∀ r, rows = [r] → ∀ i < u.desc.rowBytes, r.1 + i < u.data.length →
            Mem.read t.dev.tiers.basin (r.2 + i) = u.data.getD (r.1 + i) 0) ∧
          (∀ a, (∀ r ∈ rows, a < r.2 ∨ r.2 + u.desc.rowBytes ≤ a) → Mem.read t.dev.tiers.basin a = Mem.read s.dev.tiers.basin a) ∧
          t.dev.tiers.dev = s.dev.tiers.dev) ∧
      (u.desc.space = 0 → (writeSpots u.data (piecesOf s.dev u.spots) s.dev).2 = none →
        ∃ t y, exec (.storeTileVisible b ch n) s = .next t ∧ ctxAt k t.dev = some y ∧ (∀ v ∈ (y.chan ch).tiles, v.n ≠ n) ∧
          (∀ p, piecesOf s.dev u.spots = [p] → s.dev.xl.move = none → ∀ a, a < p.2.1 ∨ p.2.1 + p.2.2 ≤ a →
            Mem.read t.dev.tiers.dev a = Mem.read s.dev.tiers.dev a) ∧
          t.dev.tiers.dev = (writeSpots u.data (piecesOf s.dev u.spots) s.dev).1.tiers.dev ∧ t.dev.tiers.basin = s.dev.tiers.basin))

/-- R101, R119, R120, R136, R171: a tile of device memory that a descriptor lets the engine prefetch is staged in the die's pool where the pool has room:
what it holds is what memory holds, and neither memory nor any context changes. And: HLD and HST of a 64-byte aligned host-window address, with fewer than
16 accesses in flight, over an open link and with nothing earlier in the way, send one access under their instance's function and go on; an HST
puts the 64 bytes at the host. The host's answer to the oldest HLD fills the lane quarter named, leaving the other 48 lanes; an answer to a later one
is kept until those before it have finished. -/
def Obligations.PrefetchAndHostWindow : Prop :=
  (∀ (s : State) (b ch k n : Nat) (x : BCtx) (f : SDesc) (l : Launch) (sp : List Spot) (parts : List (Nat × List Byte)),
    (ctxsOf b s.dev).findSome? (fun p =>
      if onBrick p.1 p.2 s.dev then (stageable p.1 ch p.2 s.dev).map (fun t => (p.1, p.2, t.1, t.2)) else none) = some (k, x, n, f) →
    launchAt x.launch s.dev = some l → x.brick = b → s.dev.tiers.poolUnits ≠ 0 →
    holdsGrant (.prefetch (b / 128)) s.dev = true →
    poolUsed (b / 128) s.dev + ceilDiv f.len 4096 ≤ s.dev.tiers.poolUnits * 64 →
    spots l.ctx .read (.brick b) s.dev (tileParts f n) = .ok sp → sp.any (fun p => p.host) = false → readSpots s.dev (piecesOf s.dev sp) = .ok parts →
    ∃ t, exec (.basinPrefetchStage b ch) s = .next t ∧
      t.dev.tiers.staged = s.dev.tiers.staged ++ [⟨k, ch, n, ceilDiv f.len 4096, assemble parts⟩] ∧
      t.dev.tiers.dev = s.dev.tiers.dev ∧ t.dev.tiers.basin = s.dev.tiers.basin ∧ t.dev.bricks = s.dev.bricks ∧
      holdsGrant (.prefetch (b / 128)) t.dev = false) ∧
  (∀ (s : State) (b k : Nat) (x : BCtx) (l : Launch) (e : Dev) (word : Word64) (toV : Bool) (a base size perm : Nat),
    let w := word.toNat
    let loc := if toV then 0 else x.sreg (fDst w)
    let id := e.bricks.nextHost
    let on := fun (t : State) (h : HAcc) => ∃ y, ctxAt k t.dev = some y ∧ y.pc = (x.pc + 8) % 2 ^ 56 ∧ y.v = x.v ∧ y.s = x.s ∧
      y.scratch = x.scratch ∧ y.ops = x.ops ∧ Tab.get y.host id = some h ∧ (∀ i, i ≠ id → Tab.get y.host i = Tab.get x.host i) ∧
      (∀ j, j ≠ k → ctxAt j t.dev = ctxAt j e) ∧ t.dev.tiers.dev = e.tiers.dev
    Safety.Fetched b s k x l e → x.sreg (fSrc1 w) % 64 = 0 → linkOpen e = true → x.hostCount < 16 → hostLegal toV w x l = true →
    loc % 64 = 0 → loc + 64 ≤ 0x300000 →
    (Safety.BeginsAt (Safety.handed (.hld toV) w loc x e) x → translate l.ctx (x.sreg (fSrc1 w)) .read (.brick b) e = .host a base size perm →
      ∃ t, exec (.hld b toV word) s = .next t ∧
        on t (if toV then .loadV ⟨x.pc, w, x.sreg (fSrc1 w), a, none⟩ (fDst w) (fImm w % 4) (x.forward a)
              else .loadS ⟨x.pc, w, x.sreg (fSrc1 w), a, none⟩ loc (x.forward a)) ∧
        t.dev.out = e.out ++ [.hostAccess l.inst b id a false] ∧ t.dev.link.hostMem = e.link.hostMem) ∧
    (Safety.BeginsAt (Safety.handed (.hst toV) w loc x e) x → translate l.ctx (x.sreg (fSrc1 w)) .write (.brick b) e = .host a base size perm →
      (toV = true → x.vBusy (fDst w) = false) → (toV = false → ∀ c ∈ poisonOf k x e, c + 16 ≤ loc ∨ loc + 64 ≤ c) →
      let bytes := if toV then ((((x.vreg (fDst w)).drop (16 * (fImm w % 4))).take 16).flatMap (natLE 4))
        else (List.range 64).map (fun i => x.byte (loc + i))
      ∃ t, exec (.hst b toV word) s = .next t ∧ (toV = true → on t (.store ⟨x.pc, w, x.sreg (fSrc1 w), a, none⟩ bytes)) ∧
        (ctxAt k t.dev).map (fun y => (y.pc, Tab.get y.host id)) =
          some ((x.pc + 8) % 2 ^ 56, some (.store ⟨x.pc, w, x.sreg (fSrc1 w), a, none⟩ bytes)) ∧
        t.dev.link.hostMem = Mem.writeN e.link.hostMem (hostKey l.inst a) bytes ∧
        t.dev.out = e.out ++ [.hostAccess l.inst b id a true])) ∧
  (∀ (s : State) (b id k v q : Nat) (i : HIns) (x : BCtx) (data : List Byte), s.dev.link.retrain = false →
    (ctxsOf b s.dev).find? (fun p => Tab.has p.2.host id) = some (k, x) → ctxAt k s.dev = some x → q < 4 → data.length = 64 →
    (x.host = [(id, .loadV i v q [])] → (x.vreg v).length = 64 → x.ops = [] →
      x.posts = [] → (∀ i u v, x.wait ≠ .cadd i u v) → (∀ c ∈ x.chans, ∀ u ∈ c.2.tiles, u.host = []) →
      ∃ t y, exec (.hostAccessReturn b id data) s = .next t ∧ Safety.CtxStep s s.dev t k y ∧ y = { x with host := [], v := y.v } ∧
        (∀ m < 16, (y.vreg v).getD (16 * q + m) 0 = leNat ((data.drop (4 * m)).take 4)) ∧
        (∀ i < 64, (i < 16 * q ∨ 16 * q + 16 ≤ i) → (y.vreg v).getD i 0 = (x.vreg v).getD i 0) ∧
        (∀ r, r ≠ v → y.vreg r = x.vreg r)) ∧
    (∀ id0 v0 q0 f0 j, x.host = [(id0, .loadV j v0 q0 f0), (id, .loadV i v q [])] → id0 < id → j.back = none → (∀ i u v, x.wait ≠ .cadd i u v) →
      ∃ t, exec (.hostAccessReturn b id data) s = .next t ∧
        Safety.CtxStep s s.dev t k { x with host := [(id0, .loadV j v0 q0 f0), (id, .loadV { i with back := some data } v q [])] }))

/-- R92 to R96, R483, R484: a residue failure holds the brick until its retry ends; a retry that passes is counted and the brick goes on, the eighth
of a slice, and a retry that fails, begin retirement where the course has a free spare; without one the index is lost with its launch; a completed
retirement puts the spare in the brick's place. -/
def Obligations.ResidueAndRetirement : Prop :=
  ∀ (s : State) (b unit pair : Nat), b < 1024 →
    ((brickAt b s.dev).failing = none →
      ((brickAt b s.dev).cur.isSome = true ∧ holdsGrant (.brick b) s.dev = true) ∨ (brickAt b s.dev).coming.isSome = true →
      exec (.residueFailure b unit pair) s =
        .next { s with dev := updBrick b (fun r => { r with failing := some (unit, pair, false) }) s.dev }) ∧
    (∀ k, (brickAt b s.dev).failing = some (unit, pair, false) → (brickAt b s.dev).cur = some k →
      ((brickAt b s.dev).passed < 7 → (∀ x, ctxAt k s.dev = some x → firstReady x [] x.ops = none) →
        ∃ t, exec (.residueRetryEnd b true) s = .next t ∧ (brickAt b t.dev).failing = none ∧
        (brickAt b t.dev).passed = (brickAt b s.dev).passed + 1 ∧ (brickAt b t.dev).rot = (brickAt b s.dev).rot ∧ (brickAt b t.dev).cur = some k ∧
        getF .residueEvents (b / 128) 0 31 16 t.dev = min 65535 (getF .residueEvents (b / 128) 0 31 16 s.dev + 1)) ∧
      ((brickAt b s.dev).passed = 7 → spareFree b s.dev = true → ∃ t, exec (.residueRetryEnd b true) s = .next t ∧
        (brickAt b t.dev).failing = some (unit, pair, true) ∧ t.dev.start.repair = s.dev.start.repair ∧
        getF .residueEvents (b / 128) 0 31 16 t.dev = min 65535 (getF .residueEvents (b / 128) 0 31 16 s.dev + 1)) ∧
      (spareFree b s.dev = true → ∃ t, exec (.residueRetryEnd b false) s = .next t ∧
        (brickAt b t.dev).failing = some (unit, pair, true) ∧ t.dev.start.repair = s.dev.start.repair ∧ t.dev.regs = s.dev.regs) ∧
      (spareFree b s.dev = false → outranked b s.dev = none → ∃ t, exec (.residueRetryEnd b false) s = .next t ∧ b ∈ t.dev.start.repair.lost ∧
        b ∈ t.flash.repair.lost ∧ (brickAt b t.dev).cur = none ∧ (brickAt b t.dev).rot = []) ∧
      (∀ c u f, spareFree b s.dev = false → outranked b s.dev = some (c, u, f) → ∃ t, exec (.residueRetryEnd b false) s = .next t ∧
        c ∈ t.dev.start.repair.lost ∧ c ∈ t.flash.repair.lost ∧ (brickAt c t.dev).cur = none ∧ (brickAt c t.dev).rot = [])) ∧
    ((brickAt b s.dev).failing = some (unit, pair, true) → retireReady b s.dev = true →
      (∀ k x, (brickAt b s.dev).cur = some k → ctxAt k s.dev = some x → firstReady x [] x.ops = none) →
      ∃ t, exec (.retirementComplete b) s = .next t ∧ Tab.get t.dev.start.repair.spares (b / 16) = some (b % 16) ∧
        Tab.get t.flash.repair.spares (b / 16) = some (b % 16) ∧ (brickAt b t.dev).failing = none ∧
        getF .residueEvents (b / 128) 0 15 8 t.dev = min 255 (getF .residueEvents (b / 128) 0 15 8 s.dev + 1))

/-- R125 to R129: at a slice boundary on the grid of the brick's wave the grant returns and, with one context in rotation and its grant given again, the same context goes on; a switch ends with the
incoming context on the brick under its grant; a written SLICE_US takes effect when no launch is admitted; a launch whose bricks have all ended leaves its bricks,
and a brick at its beat limit stops its launch. -/
def Obligations.SlicesAndLaunches : Prop :=
  (∀ (s : State) (b beats k : Nat) (x : BCtx), b < 1024 →
    (onEdge b s.dev = true ∧ (brickAt b s.dev).edge ≤ clock (b / 128) s.dev) ∨ (brickAt b s.dev).late = true → (brickAt b s.dev).failing = none →
    (brickAt b s.dev).coming = none → (brickAt b s.dev).cur = some k → (brickAt b s.dev).rot = [k] → ctxAt k s.dev = some x → x.brick = b →
    ∃ t y, exec (.sliceBoundary b beats) s = .next t ∧ ctxAt k t.dev = some y ∧ y.beats = (x.beats + beats) % 2 ^ 64 ∧ y.pc = x.pc ∧ y.s = x.s ∧
      y.scratch = x.scratch ∧ (brickAt b t.dev).edge = nextEdge b s.dev ∧ (brickAt b t.dev).passed = 0 ∧
      (holdsGrant (.brick b) t.dev = true → (brickAt b t.dev).cur = some k ∧ (brickAt b t.dev).coming = none) ∧
      (holdsGrant (.brick b) t.dev = false → (brickAt b t.dev).cur = none ∧ (brickAt b t.dev).coming = some k)) ∧
  (∀ (s : State) (b k : Nat) (x : BCtx), (brickAt b s.dev).coming = some k → ctxAt k s.dev = some x → holdsGrant (.brick b) s.dev = true →
    x.quiet = true → storePoison (b / 128) s.dev = none → firstReady x [] x.ops = none →
    ∃ t, exec (.contextSwitchEnd b) s = .next t ∧ (brickAt b t.dev).cur = some k ∧ (brickAt b t.dev).coming = none ∧
      ctxAt k t.dev = some { x with poison := [], recorded := [] } ∧
      getF .switchStats (b / 128) 0 31 16 t.dev = min 65535 (getF .switchStats (b / 128) 0 31 16 s.dev + 1)) ∧
  (∀ s : State, s.dev.bricks.launches = [] → exec .sliceUsTakesEffect s =
    .next { s with dev := { s.dev with bricks := { s.dev.bricks with
      sliceUs := max 500 (getF .brickSlice 0 0 15 0 s.dev), bricks := Tab.mapVals s.dev.bricks.bricks (fun _ r => { r with edge := 0 }) } } }) ∧
  (∀ (s : State) (id : Nat) (l : Launch), launchAt id s.dev = some l → launchEnded id s.dev = true →
    ∃ t, exec (.launchComplete id) s = .next t ∧ launchAt id t.dev = none ∧ ∀ k, k / 1024 = id → ctxAt k t.dev = none) ∧
  (∀ (s : State) (b k : Nat) (x : BCtx) (l : Launch), (brickAt b s.dev).cur = some k → ctxAt k s.dev = some x → launchAt x.launch s.dev = some l →
    holdsGrant (.brick b) s.dev = true →
    ∃ t, exec (.beatLimitReached b) s = .next t ∧ launchAt x.launch t.dev = none)

/-! ## Memory tiers, migration (05, 06) -/

/-- R134: a window or pool size that overlaps nothing and stays within unit 284 is taken by its register; one that would overlap or reach past is not, and the
register's CONFLICT bit is set; a taken window value comes into force when no launch of its instance is admitted, zero-filled on every basin, and a
pool value when no launch is admitted. -/
def Obligations.BasinWindows : Prop :=
  ∀ (s : State) (n data : Nat), n < 64 → s.dev.start.ready = true → linkOpen s.dev = true → data < 2 ^ 32 →
    (windowClash n (bitsOf data 24 16, bitsOf data 8 0) s.dev = false → ∃ t, exec (.basinWindowWrite n data) s = .next t ∧
      windowReg n t.dev = (bitsOf data 24 16, bitsOf data 8 0) ∧ t.dev.tiers = s.dev.tiers ∧ Safety.SameRegs [0x30500 + 4 * n] s.dev t.dev) ∧
    (windowClash n (bitsOf data 24 16, bitsOf data 8 0) s.dev = true → ∃ t, exec (.basinWindowWrite n data) s = .next t ∧
      windowReg n t.dev = windowReg n s.dev ∧ getF .basinWindow n 0 31 31 t.dev = 1 ∧ t.dev.tiers = s.dev.tiers ∧
      Safety.SameRegs [0x30500 + 4 * n] s.dev t.dev) ∧
    (poolClash (min (bitsOf data 6 0) 64) s.dev = false → ∃ t, exec (.basinPoolWrite data) s = .next t ∧
      getF .basinPool 0 0 6 0 t.dev = min (bitsOf data 6 0) 64 ∧ t.dev.tiers = s.dev.tiers ∧ Safety.SameRegs [0x30400] s.dev t.dev) ∧
    (poolClash (min (bitsOf data 6 0) 64) s.dev = true → ∃ t, exec (.basinPoolWrite data) s = .next t ∧
      getF .basinPool 0 0 6 0 t.dev = getF .basinPool 0 0 6 0 s.dev ∧ getF .basinPool 0 0 17 17 t.dev = 1 ∧ t.dev.tiers = s.dev.tiers ∧
      Safety.SameRegs [0x30400] s.dev t.dev) ∧
    (windowReg n s.dev ≠ windowNow n s.dev → s.dev.bricks.launches.any (fun l => l.2.inst == n) = false →
      ∃ t, exec (.basinWindowTakesEffect (some n)) s = .next t ∧ windowNow n t.dev = windowReg n s.dev ∧ t.dev.regs = s.dev.regs ∧
        (∀ die < 8, ∀ i < (windowReg n s.dev).1 * 2 ^ 18,
          Mem.read t.dev.tiers.basin (die * 2 ^ 27 + (windowReg n s.dev).2 * 2 ^ 18 + i) = 0) ∧
        (∀ m, m ≠ n → windowNow m t.dev = windowNow m s.dev)) ∧
    (s.dev.bricks.launches = [] → exec (.basinWindowTakesEffect none) s =
      .next { s with dev := { s.dev with tiers := { s.dev.tiers with poolUnits := getF .basinPool 0 0 6 0 s.dev } } })

/-- R145, R146, R149, R151, R152, R153, R154, R156, R161: what the scrub corrects is counted in CE_COUNT and changes no memory; what it cannot correct is counted in UE_COUNT, sets UE_SEEN and
leaves the codeword poisoned; an error that no read has met yet is held and counts nothing (the model's form: log entry 136), and the scrub passes over
memory that is not there and a site that is not ONLINE; a candidate row is repaired once, with the repair kept in flash. And: a pseudo-channel in service whose group is not emptying begins to retire, through HBM_RETIRE with RESULT 0x01 or for a cause that holds, and
its group leaves READY; where it may not, HBM_RETIRE answers 0x04 and retires nothing; an emptied group is rebuilt without it, as REDUCED or, below four, as OUT. -/
def Obligations.ScrubRepairRetirement : Prop :=
  ((∀ (s : State) (die off row sym : Nat), Safety.Quiet s.dev → die < 11 → .sram die (off / 16 * 16) ∉ s.dev.tiers.poison →
    (∃ t, exec (.patrolScrub (.sram die off) ⟨.corrected row sym, true⟩) s = .next t ∧
      getF .sramErr die 0 15 0 t.dev = min 65535 (getF .sramErr die 0 15 0 s.dev + 1) ∧
      t.dev.tiers = { s.dev.tiers with soft := s.dev.tiers.soft.filter (fun x => x.1 != .sram die (off / 16 * 16)) } ∧
      Safety.SameRegs [0x30000 + 4 * die] s.dev t.dev) ∧
    (sramWork die s.dev = [] → ∃ t, exec (.patrolScrub (.sram die off) ⟨.uncorrectable, true⟩) s = .next t ∧
      getF .sramErr die 0 23 16 t.dev = min 255 (getF .sramErr die 0 23 16 s.dev + 1) ∧ getF .sramErr die 0 31 31 t.dev = 1 ∧
      .sram die (off / 16 * 16) ∈ t.dev.tiers.poison ∧ t.dev.tiers.dev = s.dev.tiers.dev ∧ t.dev.tiers.basin = s.dev.tiers.basin)) ∧
  (∀ (s : State) (a row sym : Nat), Safety.Quiet s.dev → a / 2 ^ 26 < 12288 → pfnExists (a / 2 ^ 26) s.dev = true →
    (poisonedAt a s.dev = false → ∃ t, exec (.patrolScrub (.dev a) ⟨.corrected row sym, true⟩) s = .next t ∧
      getF .hbmErr (a / 2 ^ 26 / 1536) 0 15 0 t.dev = min 65535 (getF .hbmErr (a / 2 ^ 26 / 1536) 0 15 0 s.dev + 1) ∧
      t.dev.tiers.dev = s.dev.tiers.dev ∧ t.dev.tiers.poison = s.dev.tiers.poison) ∧
    (∃ t, exec (.patrolScrub (.dev a) ⟨.uncorrectable, true⟩) s = .next t ∧
      getF .hbmErr (a / 2 ^ 26 / 1536) 0 23 16 t.dev = min 255 (getF .hbmErr (a / 2 ^ 26 / 1536) 0 23 16 s.dev + 1) ∧
      poisonedAt a t.dev = true ∧ t.dev.tiers.dev = s.dev.tiers.dev)) ∧
  (∀ (s : State) (place : Place), Safety.Quiet s.dev → (scrubReaches (codewordOf place) s.dev = false → ∀ f, exec (.patrolScrub place ⟨f, true⟩) s = .next s) ∧
    (codewordOf place ∉ s.dev.tiers.poison → (∀ x ∈ s.dev.tiers.soft, x.1 ≠ codewordOf place) →
    exec (.patrolScrub place ⟨.clean, true⟩) s = .next s ∧
    (placeThere (codewordOf place) s.dev = true → ∀ row sym, exec (.patrolScrub place ⟨.corrected row sym, false⟩) s = .next { s with dev := { s.dev with tiers := { s.dev.tiers with
      soft := s.dev.tiers.soft ++ [(codewordOf place, row, sym)] } } }))) ∧
  (∀ (s : State) (n pc row : Nat), rowReady n pc row s.dev = true → n < s.dev.tiers.hbm.length →
    ∃ t, exec (.rowRepair n pc row) s = .next t ∧ (stackAt n t.dev).rows = min 65535 ((stackAt n s.dev).rows + 1) ∧
      (pc, row) ∉ (stackAt n t.dev).candidates ∧ rowReady n pc row t.dev = false ∧
      Tab.get t.flash.repair.rows n = some (min 65535 ((stackAt n s.dev).rows + 1)) ∧ t.dev.tiers.dev = s.dev.tiers.dev)) ∧
  (∀ (s : State) (n pc : Nat), n < 8 → pc < 64 → n < s.dev.tiers.hbm.length → (stackAt n s.dev).groups.length = 8 → s.dev.start.ready = true →
    linkOpen s.dev = true →
    (mayRetire n pc s.dev = true →
      (∃ t, exec (.hbmRetire n pc) s = .next t ∧ getF .memServiceStatus 0 0 15 0 t.dev = 4 * 4096 + n * 256 + 1 ∧
        Tab.get (stackAt n t.dev).leaving (pc / 8) = some pc ∧
        ((stackAt n t.dev).groups.getD (pc / 8) 0 = 1 ∨ (stackAt n t.dev).groups.getD (pc / 8) 0 = 2) ∧
        (stackAt n t.dev).retired = (stackAt n s.dev).retired) ∧
      (∀ c, retireCauseOk n pc c s.dev = true → ∃ t, exec (.pseudoChannelRetirement n pc c) s = .next t ∧
        Tab.get (stackAt n t.dev).leaving (pc / 8) = some pc ∧
        ((stackAt n t.dev).groups.getD (pc / 8) 0 = 1 ∨ (stackAt n t.dev).groups.getD (pc / 8) 0 = 2))) ∧
    (mayRetire n pc s.dev = false → ∃ t, exec (.hbmRetire n pc) s = .next t ∧ getF .memServiceStatus 0 0 15 0 t.dev = 4 * 4096 + n * 256 + 4 ∧
      t.dev.tiers = s.dev.tiers ∧ t.dev.xl = s.dev.xl ∧ Safety.SameRegs [0x30304] s.dev t.dev) ∧
    (∀ g, g < 8 → rebuildReady n g s.dev = true → Tab.get (stackAt n s.dev).leaving g = some pc →
      ∃ t, exec (.groupRebuild n g) s = .next t ∧ (stackAt n t.dev).retired = (stackAt n s.dev).retired ++ [pc] ∧
        Tab.get (stackAt n t.dev).leaving g = none ∧
        (stackAt n t.dev).groups.getD g 0 = (if (pcsInService (stackAt n s.dev) g).length - 1 < 4 then 4 else 3) ∧
        ∃ l, Tab.get t.flash.repair.retired n = some l ∧ pc ∈ l))

/-- R157 to R161, R187, R191, R193: the DDR5 service commands move a site between the states that allow them and answer RESULT 0x01, and in any other state answer 0x03 and change nothing
else; a site that has emptied enters EVACUATED, one whose training ends enters ONLINE zero-filled, or FAILED; a removed module leaves its site, and an inserted one is
READY or refused. And: a piece of the move in hand, where no handover of the cores that drive it is under way (R463), is copied from the source frame to the destination and nothing else of memory changes; when the last piece has been copied the
frame map names the destination and the source frame reads zero; an epoch boundary halves every access count. -/
def Obligations.SitesAndMigration : Prop :=
  (∀ (s : State) (k : Nat), k < 8 → k < s.dev.tiers.sites.length → s.dev.start.ready = true → linkOpen s.dev = true →
    ((siteAt k s.dev).state = 4 → ∃ t, exec (.ddr5Evacuate k) s = .next t ∧ (siteAt k t.dev).state = 5 ∧
      getF .memServiceStatus 0 0 15 0 t.dev = 0x1001 + 256 * k ∧ t.dev.tiers.dev = s.dev.tiers.dev) ∧
    ((siteAt k s.dev).state = 1 → ∃ t, exec (.ddr5Online k) s = .next t ∧ (siteAt k t.dev).state = 3 ∧
      getF .memServiceStatus 0 0 15 0 t.dev = 0x2001 + 256 * k ∧ t.dev.tiers.dev = s.dev.tiers.dev) ∧
    ((siteAt k s.dev).state = 5 → ∃ t, exec (.ddr5Cancel k) s = .next t ∧ (siteAt k t.dev).state = 4 ∧
      getF .memServiceStatus 0 0 15 0 t.dev = 0x3001 + 256 * k ∧ t.dev.tiers.dev = s.dev.tiers.dev ∧ t.dev.xl.lfns = s.dev.xl.lfns) ∧
    ((siteAt k s.dev).state ≠ 4 → exec (.ddr5Evacuate k) s = .next { s with dev := setW .memServiceStatus 0 0 (0x1003 + 256 * k) s.dev }) ∧
    ((siteAt k s.dev).state ≠ 1 → exec (.ddr5Online k) s = .next { s with dev := setW .memServiceStatus 0 0 (0x2003 + 256 * k) s.dev }) ∧
    ((siteAt k s.dev).state ≠ 5 → exec (.ddr5Cancel k) s = .next { s with dev := setW .memServiceStatus 0 0 (0x3003 + 256 * k) s.dev }) ∧
    ((siteAt k s.dev).state = 5 → siteFrames k s.dev = [] → ∃ t, exec (.siteEvacuated k) s = .next t ∧ (siteAt k t.dev).state = 6 ∧
      (siteAt k t.dev).present = (siteAt k s.dev).present ∧ t.dev.tiers.dev = s.dev.tiers.dev) ∧
    ((siteAt k s.dev).state = 3 →
      (∃ t, exec (.siteTrainingEnd k true) s = .next t ∧ (siteAt k t.dev).state = 4 ∧
        (∀ i < 4096 * 2 ^ 26, Mem.read t.dev.tiers.dev ((16384 + 4096 * k) * 2 ^ 26 + i) = 0) ∧
        (∀ a, a < (16384 + 4096 * k) * 2 ^ 26 ∨ (16384 + 4096 * (k + 1)) * 2 ^ 26 ≤ a →
          Mem.read t.dev.tiers.dev a = Mem.read s.dev.tiers.dev a)) ∧
      (∃ t, exec (.siteTrainingEnd k false) s = .next t ∧ (siteAt k t.dev).state = 7 ∧ t.dev.tiers.dev = s.dev.tiers.dev)) ∧
    ((siteAt k s.dev).present = true → (siteAt k s.dev).state = 1 ∨ (siteAt k s.dev).state = 2 ∨ (siteAt k s.dev).state = 6 ∨ (siteAt k s.dev).state = 7 → ∃ t, exec (.ddr5ModuleRemoved k) s = .next t ∧
      (siteAt k t.dev).state = 0 ∧ (siteAt k t.dev).present = false ∧ (siteAt k t.dev).capGiB = 0) ∧
    ((siteAt k s.dev).present = true → (siteAt k s.dev).state = 4 ∨ (siteAt k s.dev).state = 5 → ∃ t, exec (.ddr5ModuleRemoved k) s = .next t ∧
      (siteAt k t.dev).state = 7 ∧ (siteAt k t.dev).present = false) ∧
    ((siteAt k s.dev).state = 0 → ∀ cap,
      (cap ≤ 256 → ∃ t, exec (.ddr5ModuleInserted k cap true) s = .next t ∧ (siteAt k t.dev).state = 1 ∧ (siteAt k t.dev).present = true ∧
        (siteAt k t.dev).capGiB = cap) ∧
      (∃ t, exec (.ddr5ModuleInserted k cap false) s = .next t ∧ (siteAt k t.dev).state = 2 ∧ (siteAt k t.dev).present = true)) ∧
    ((siteAt k s.dev).state ≠ 0 → ∀ cap ok, ∃ t, exec (.ddr5ModuleInserted k cap ok) s = .next t ∧ (siteAt k t.dev).present = true ∧
      (siteAt k t.dev).state = (siteAt k s.dev).state)) ∧
  ((∀ (s : State) (m : Move) (src : Nat), s.dev.xl.move = some m → m.source s.dev = some src → m.piece < 256 * m.n →
    (pairBusy moverPair s.dev = true → exec .frameMovePiece s = .next s) ∧
    (pairBusy moverPair s.dev = false → ∃ t, exec .frameMovePiece s = .next t ∧
      (m.kind = .retire → t.dev.xl.move = some { m with piece := m.piece + 1 }) ∧
      ((∀ n < 8, ∀ g < 8, emptying n g s.dev = false) → (∀ k < 8, (siteAt k s.dev).state ≠ 5) → s.dev.xl.queued = [] → anyCounters s.dev = false →
        t.dev.xl.move = if resetStops m s.dev then none else some { m with piece := m.piece + 1 }) ∧
      (src * 2 ^ 26 + m.piece * 2 ^ 18 + 2 ^ 18 ≤ m.dest * 2 ^ 26 + m.piece * 2 ^ 18 ∨ m.dest * 2 ^ 26 + m.piece * 2 ^ 18 + 2 ^ 18 ≤ src * 2 ^ 26 + m.piece * 2 ^ 18 →
        Mem.wf s.dev.tiers.dev = true →
        ∀ i < 2 ^ 18, Mem.read t.dev.tiers.dev (m.dest * 2 ^ 26 + m.piece * 2 ^ 18 + i) =
          Mem.read s.dev.tiers.dev (src * 2 ^ 26 + m.piece * 2 ^ 18 + i)) ∧
      (∀ a, a < m.dest * 2 ^ 26 + m.piece * 2 ^ 18 ∨ m.dest * 2 ^ 26 + (m.piece + 1) * 2 ^ 18 ≤ a →
        Mem.read t.dev.tiers.dev a = Mem.read s.dev.tiers.dev a) ∧ t.dev.xl.lfns = s.dev.xl.lfns)) ∧
  (∀ (s : State) (m : Move) (l : Lfn), s.dev.xl.move = some m → m.store = false → m.n = 1 → Tab.get s.dev.xl.lfns m.lfn = some l → m.piece = 256 →
    l.pfn ≠ m.dest →
    ∃ t, exec .frameMoveEnd s = .next t ∧ (Tab.get t.dev.xl.lfns m.lfn).map Lfn.pfn = some m.dest ∧
      (∀ i < 2 ^ 26, Mem.read t.dev.tiers.dev (l.pfn * 2 ^ 26 + i) = 0) ∧
      (∀ a, a < l.pfn * 2 ^ 26 ∨ (l.pfn + 1) * 2 ^ 26 ≤ a → Mem.read t.dev.tiers.dev a = Mem.read s.dev.tiers.dev a) ∧
      getF .migrationStatus 0 0 31 16 t.dev = min 65535 (getF .migrationStatus 0 0 31 16 s.dev + 1)) ∧
  (∀ s : State, s.dev.xl.epochAt + msec s.dev.xl.epochMs ≤ clock iodie s.dev → ∃ t, exec .epochBoundary s = .next t ∧
    (∀ k, (Tab.get t.dev.xl.lfns k).map Lfn.count = (Tab.get s.dev.xl.lfns k).map (fun l => l.count / 2)) ∧
    (∀ k, (Tab.get t.dev.xl.lfns k).map Lfn.pfn = (Tab.get s.dev.xl.lfns k).map Lfn.pfn) ∧
    t.dev.xl.epochAt = clock iodie s.dev ∧ t.dev.xl.epochMs = getF .migrationCtrl 0 0 7 0 s.dev ∧ t.dev.regs = s.dev.regs))

/-! ## Translation, admin commands (06, 07, 08, 10) -/

/-- R209, R222, R223, R162, R167, R168, R184, R537: a command of the admin queue that completes writes one 32-byte entry in the next slot of the instance's admin completion
ring, clears byte 63 of its own entry, advances C and raises the queue's vector; no other byte of host memory changes and no object does. And: CTX_CREATE takes
the lowest free context number, or answers ADMISSION_REFUSED past the quota; CTX_MODIFY changes the fields that SELECT names; CTX_DESTROY from its
acceptance marks the context, fails its faults, and completes once no admitted work names the context, which is then gone with its cached
translations; SEG_SET and SEG_CLEAR set and clear a segment, and where one stood before, its cached translations go and the command waits for the
accesses that use them; CTX_MODIFY, CTX_DESTROY, SEG_SET and SEG_CLEAR complete with ACCESS where their instance holds no such context. -/
def Obligations.AdminQueueAndContexts : Prop :=
  (∀ (d : Dev) (n status result : Nat) (h : Head), (adminAt n d).head = some h → h.bad = none → (adminAt n d).notices = [] →
    (adminAt n d).detached = false → linkOpen d = true →
    let e := completeAdmin n status result d
    let slot := hostKey 0xFF (adminAddr n true d + 32 * (adminAt n d).wr)
    let own := hostKey 0xFF (adminAddr n false d + 64 * h.idx + 63)
    let entry := Safety.adminEntry h.idx (h.bytes.getD 0 0).toNat status result (instAt n d).gen
    (∀ i < 32, Mem.read e.link.hostMem (slot + i) = entry.getD i 0) ∧
    (own < slot ∨ slot + 32 ≤ own → Mem.read e.link.hostMem own = 0) ∧
    (∀ a, (a < slot ∨ slot + 32 ≤ a) → a ≠ own → Mem.read e.link.hostMem a = Mem.read d.link.hostMem a) ∧
    (adminAt n e).c = ((adminAt n d).c + 1) % (adminSizes n d).1 ∧ (adminAt n e).wr = ((adminAt n d).wr + 1) % (adminSizes n d).2 ∧
    (adminAt n e).written = (adminAt n d).written + 1 ∧ (adminAt n e).head = none ∧ (∀ m, m ≠ n → adminAt m e = adminAt m d) ∧
    .vector n (getF .adminCtrl n 0 11 6 d) ∈ e.out ∧
    e = { d with q := { d.q with admin := e.q.admin }, link := e.link, out := e.out }) ∧
  (∀ (s : State) (n : Nat) (l : List Byte),
    let c := fieldLE l 8 2
    let root := fieldLE l 16 8
    let put := fun k v => { s.dev with xl := { s.dev.xl with ctxs := Tab.set s.dev.xl.ctxs k v } }
    (Safety.AdminTakes n 0xA0 l s → adminZeros l [(16, 28)] = true → fieldLE l 24 4 < 2 ^ 20 → fieldLE l 28 1 ≤ 2 → root % 32768 = 0 →
      (root ≠ 0 ∧ tableOk root 32768 n s.dev = false → exec (.ctxCreate n) s = Safety.adminNext n 3 0 s.dev s) ∧
      (root = 0 ∨ tableOk root 32768 n s.dev = true →
        (Tab.count s.dev.xl.ctxs (fun _ x => x.inst == n) < quotaMax 0 (getF .xlateQuota n 0 12 0 s.dev) s.dev → ∀ k, Tab.lowestFree s.dev.xl.ctxs 0 4096 = some k →
          exec (.ctxCreate n) s = Safety.adminNext n 0 k (put k
            { inst := n, root := root, limit := fieldLE l 24 4, mode := fieldLE l 28 1, segs := [], dying := false }) s) ∧
        (quotaMax 0 (getF .xlateQuota n 0 12 0 s.dev) s.dev ≤ Tab.count s.dev.xl.ctxs (fun _ x => x.inst == n) →
          exec (.ctxCreate n) s = Safety.adminNext n 0xE 0 s.dev s))) ∧
    (Safety.AdminTakes n 0xA1 l s → adminZeros l [(8, 10), (16, 28)] = true → fieldLE l 10 1 < 8 →
      (bitOf (fieldLE l 10 1) 1 = true → fieldLE l 24 4 < 2 ^ 20) → (bitOf (fieldLE l 10 1) 2 = true → fieldLE l 28 1 ≤ 2) →
      (bitOf (fieldLE l 10 1) 0 = true → root % 32768 = 0 ∧ (root = 0 ∨ tableOk root 32768 n s.dev = true)) →
      (∀ x, ctxHeld n c s.dev = some x → exec (.ctxModify n) s = Safety.adminNext n 0 0 (kickMover (put c { x with
        root := if bitOf (fieldLE l 10 1) 0 then root else x.root, limit := if bitOf (fieldLE l 10 1) 1 then fieldLE l 24 4 else x.limit,
        mode := if bitOf (fieldLE l 10 1) 2 then fieldLE l 28 1 else x.mode })) s) ∧
      (ctxHeld n c s.dev = none → exec (.ctxModify n) s = Safety.adminNext n 3 0 s.dev s)) ∧
    (Safety.AdminTakes n 0xA2 l s → adminZeros l [(8, 9)] = true →
      (ctxHeld n c s.dev = none → exec (.ctxDestroy n) s = Safety.adminNext n 3 0 s.dev s) ∧
      (∀ x, ctxHeld n c s.dev = some x →
        exec (.ctxDestroy n) s = Safety.adminHolds n (.ctxDestroy c) (failFaultsOf c (put c { x with dying := true })) s)) ∧
    (Safety.AdminTakes n 0xA2 l s → adminZeros l [(8, 9)] = true → Safety.Quiet s.dev → ∀ x, ctxHeld n c s.dev = some x →
      (∀ f ∈ s.dev.xl.faults, f.2.ctx ≠ c) → (adminAt n s.dev).notices = [] →
      ∃ t, exec (.ctxDestroy n) s = .next t ∧
        (ctxBusy c s.dev = false → Tab.get t.dev.xl.ctxs c = none ∧ (∀ e ∈ t.dev.xl.cache, e.ctx ≠ c) ∧ (adminAt n t.dev).wait = none) ∧
        (ctxBusy c s.dev = true → Tab.get t.dev.xl.ctxs c = some { x with dying := true } ∧ (adminAt n t.dev).wait = some (.ctxDestroy c)) ∧
        (∀ k, k ≠ c → Tab.get t.dev.xl.ctxs k = Tab.get s.dev.xl.ctxs k) ∧ t.dev.tiers.dev = s.dev.tiers.dev ∧ t.dev.xl.lfns = s.dev.xl.lfns) ∧
    (Safety.AdminTakes n 0xA3 l s → adminZeros l [(8, 11), (16, 27)] = true → fieldLE l 10 1 ≤ 15 → fieldLE l 11 1 ≤ 7 → fieldLE l 26 2 ≠ 0 →
      root % 2 ^ 26 = 0 → vaOk root (fieldLE l 26 2 * 2 ^ 26) = true → ctxHeld n c s.dev = none →
      exec (.segSet n) s = Safety.adminNext n 3 0 s.dev s) ∧
    (Safety.AdminTakes n 0xA3 l s → adminZeros l [(8, 11), (16, 27)] = true → ∀ i x g, segStatus n l s.dev = .ok (c, i, x, g) →
      i = fieldLE l 10 1 ∧ g = { va := root, len := fieldLE l 26 2, lfn := fieldLE l 24 2, perm := fieldLE l 11 1 } ∧
      (Tab.get x.segs i = none → exec (.segSet n) s = Safety.adminNext n 0 0 (put c { x with segs := Tab.set x.segs i g }) s) ∧
      (∀ o, Tab.get x.segs i = some o → exec (.segSet n) s =
        Safety.adminHolds n (.invalidate (rangeUses c o.va (o.len * 2 ^ 26) s.dev))
          (dropCache (fun t => t.ctx == c && rangesMeet (t.base, t.size) (o.va, o.len * 2 ^ 26))
            (put c { x with segs := Tab.set x.segs i g })) s) ∧
      (∀ o, Tab.get x.segs i = some o → Safety.Quiet s.dev → rangeUses c o.va (o.len * 2 ^ 26) s.dev = [] →
        ∃ t, exec (.segSet n) s = .next t ∧ Tab.get t.dev.xl.ctxs c = some { x with segs := Tab.set x.segs i g } ∧
          (∀ e ∈ t.dev.xl.cache, e.ctx = c → rangesMeet (e.base, e.size) (o.va, o.len * 2 ^ 26) = false) ∧ t.dev.tiers = s.dev.tiers)) ∧
    (Safety.AdminTakes n 0xA4 l s → adminZeros l [(8, 10)] = true → fieldLE l 10 1 ≤ 15 →
      (ctxHeld n c s.dev = none → exec (.segClear n) s = Safety.adminNext n 3 0 s.dev s) ∧
      ∀ x, ctxHeld n c s.dev = some x →
        (Tab.get x.segs (fieldLE l 10 1) = none →
          exec (.segClear n) s = Safety.adminNext n 0 0 (put c { x with segs := Tab.erase x.segs (fieldLE l 10 1) }) s) ∧
        (∀ o, Tab.get x.segs (fieldLE l 10 1) = some o → exec (.segClear n) s =
          Safety.adminHolds n (.invalidate (rangeUses c o.va (o.len * 2 ^ 26) s.dev))
            (dropCache (fun t => t.ctx == c && rangesMeet (t.base, t.size) (o.va, o.len * 2 ^ 26))
              (put c { x with segs := Tab.erase x.segs (fieldLE l 10 1) })) s)) ∧
    (Safety.AdminTakes n 0xA4 l s → adminZeros l [(8, 10)] = true → fieldLE l 10 1 ≤ 15 → Safety.Quiet s.dev →
      ∀ x o, ctxHeld n c s.dev = some x → Tab.get x.segs (fieldLE l 10 1) = some o → rangeUses c o.va (o.len * 2 ^ 26) s.dev = [] →
        ∃ t, exec (.segClear n) s = .next t ∧ Tab.get t.dev.xl.ctxs c = some { x with segs := Tab.erase x.segs (fieldLE l 10 1) } ∧
          (∀ e ∈ t.dev.xl.cache, e.ctx = c → rangesMeet (e.base, e.size) (o.va, o.len * 2 ^ 26) = false) ∧ t.dev.tiers = s.dev.tiers))

/-- R163, R176, R185, R192, R537: FRAME_ALLOC enters consecutive LFNs, the first of them its result, on zero-filled frames, or allocates nothing; FRAME_FREE of frames
that nothing names returns them; XLATE_INVALIDATE drops the cached translations of its range; advice queues moves or marks
frames; and the command that waits completes when what it waits for is over. -/
def Obligations.AdminFrames : Prop :=
  ∀ (s : State) (n : Nat) (l : List Byte),
    let c := fieldLE l 8 2
    (Safety.AdminTakes n 0xA5 l s → adminZeros l [(8, 12)] = true → 0 < c → fieldLE l 10 1 = 0 → placeOk (fieldLE l 11 1) = true →
      fieldLE l 12 1 = 0 →
      (quotaMax 1 (getF .xlateQuota n 0 31 16 s.dev) s.dev < framesHeld n s.dev + c → exec (.frameAlloc n) s = Safety.adminNext n 0xE 0 s.dev s) ∧
      (framesHeld n s.dev + c ≤ quotaMax 1 (getF .xlateQuota n 0 31 16 s.dev) s.dev →
        ∀ base pfns rots, freeLfnRun c s.dev.xl.lfns (s.dev.xl.lfns.length + 1) 0 = some base →
          chooseFrames c false (fieldLE l 11 1) s.dev = some (pfns, rots) →
          ∃ e, exec (.frameAlloc n) s = Safety.adminNext n 0 base (kickMover e) s ∧ pfns.length = c ∧ pfns.Nodup ∧
            (∀ i < c, ∃ x, Tab.get e.xl.lfns (base + i) = some x ∧ x.inst = n ∧ x.pfn = pfns.getD i 0 ∧ x.table = false ∧ x.run = none) ∧
            (∀ k, k < base ∨ base + c ≤ k → Tab.get e.xl.lfns k = Tab.get s.dev.xl.lfns k) ∧
            (∀ p ∈ pfns, p ∉ usedFrames s.dev ∧ ∀ i < 2 ^ 26, Mem.read e.tiers.dev (p * 2 ^ 26 + i) = 0) ∧
            (∀ a, a / 2 ^ 26 ∉ pfns → Mem.read e.tiers.dev a = Mem.read s.dev.tiers.dev a))) ∧
    (Safety.AdminTakes n 0xA6 l s → adminZeros l [(8, 11)] = true → Safety.Quiet s.dev → (adminAt n s.dev).notices = [] →
      ∀ x, fieldLE l 10 2 = 1 → Tab.get s.dev.xl.lfns c = some x → (∀ p ∈ s.dev.xl.lfns, p.1 = c → p.2 = x) → lfnHeld c n s.dev = true → framesNamed c 1 s.dev = false → frameUses c 1 s.dev = [] →
        s.dev.xl.move = none → s.dev.xl.queued = [] →
        ∃ t, exec (.frameFree n) s = .next t ∧ Tab.get t.dev.xl.lfns c = none ∧ (∀ i < 2 ^ 26, Mem.read t.dev.tiers.dev (x.pfn * 2 ^ 26 + i) = 0) ∧
          (∀ a, a / 2 ^ 26 ≠ x.pfn → Mem.read t.dev.tiers.dev a = Mem.read s.dev.tiers.dev a) ∧
          (∀ k, k ≠ c → (Tab.get t.dev.xl.lfns k).map Lfn.pfn = (Tab.get s.dev.xl.lfns k).map Lfn.pfn)) ∧
    (Safety.AdminTakes n 0xA6 l s → adminZeros l [(8, 11)] = true → framesNamed c (fieldLE l 10 2) s.dev = true →
      exec (.frameFree n) s = Safety.adminNext n 3 0 s.dev s) ∧
    (Safety.AdminTakes n 0xA7 l s → adminZeros l [(8, 9), (16, 31)] = true → Safety.Quiet s.dev → fieldLE l 16 8 < 2 ^ 56 →
      0 < fieldLE l 24 8 → fieldLE l 16 8 + fieldLE l 24 8 ≤ 2 ^ 56 → (ctxHeld n c s.dev).isSome = true →
      rangeUses c (fieldLE l 16 8) (fieldLE l 24 8) s.dev = [] →
      ∃ t, exec (.xlateInvalidate n) s = .next t ∧ (adminAt n t.dev).wait = none ∧ t.dev.xl.ctxs = s.dev.xl.ctxs ∧ t.dev.tiers = s.dev.tiers ∧
        ∀ e, e ∈ t.dev.xl.cache ↔ e ∈ s.dev.xl.cache ∧
          ¬(e.ctx = c ∧ rangesMeet (e.base, e.size) (fieldLE l 16 8, fieldLE l 24 8) = true)) ∧
    (Safety.AdminTakes n 0xAC l s → ∀ ls, fieldLE l 10 1 ≤ 2 →
      adviceStatus n l (adminZeros l [(8, 10), (16, 31)] && decide (fieldLE l 10 1 ≤ 2)) s.dev = .ok ls →
      (fieldLE l 10 1 = 1 → exec (.migrateAdvise n) s = Safety.adminNext n 0 0 (adviseMoves 0x18 ls s.dev) s) ∧
      (fieldLE l 10 1 ≠ 1 → exec (.migrateAdvise n) s = Safety.adminNext n 0 0 (kickMover { s.dev with xl := { s.dev.xl with
        lfns := Tab.mapVals s.dev.xl.lfns (fun k x => if k ∈ ls then { x with keep := decide (fieldLE l 10 1 = 2) } else x) } }) s)) ∧
    (Safety.AdminTakes n 0xAB l s → Safety.Quiet s.dev → ∀ ls,
      adviceStatus n l (adminZeros l [(8, 9), (11, 11), (16, 31)] && placeOk (fieldLE l 11 1)) s.dev = .ok ls →
      (∀ x ∈ ls, inFirst (fieldLE l 11 1) x s.dev = true) →
      ∃ t, exec (.migratePrefetch n) s = .next t ∧ (adminAt n t.dev).wait = none ∧ t.dev.tiers.dev = s.dev.tiers.dev ∧ t.dev.xl.lfns = s.dev.xl.lfns) ∧
    (∀ w v d1, (adminAt n s.dev).wait = some w → adminOver w s.dev = some (v, d1) →
      exec (.adminWaitEnd n) s = .next { s with dev := localPath (endAdminWait n 0 v d1) })

/-- R173, R174, R180 to R184: a walk that finds a permitted page enters it in the engine's caches and a demand walk of a page not mapped opens a fault; the
fault's record is written 2 µs later, or after a handover of its cores that is under way (R463); FAULT_RESUME and FAULT_FAIL end an outstanding fault of their instance; the context's limit fails it;
FAULT_RING_SET gives the instance its ring while no fault is outstanding. -/
def Obligations.TranslationFaults : Prop :=
  (∀ (s : State) (eng : Eng) (ctx va : Nat) (kind : Kind) (pre : Bool),
    (∀ lfn off base size perm seg, translate ctx va kind eng s.dev = .frame lfn off base size perm seg →
      exec (.translationWalk eng ctx va kind pre) s =
        .next { s with dev := fillCache ctx eng (.frame lfn off base size perm seg) (walked ctx va eng s.dev) }) ∧
    (translate ctx va kind eng s.dev = .access → exec (.translationWalk eng ctx va kind pre) s = .next { s with dev := walked ctx va eng s.dev }) ∧
    (∀ lv, translate ctx va kind eng s.dev = .notMapped lv →
      exec (.translationWalk eng ctx va kind true) s = .next { s with dev := walked ctx va eng s.dev }) ∧
    (s.dev.tiers.soft = [] → walked ctx va eng s.dev = s.dev) ∧
    (∀ lv c, translate ctx va kind eng s.dev = .notMapped lv → Tab.get s.dev.xl.ctxs ctx = some c → 0 < c.limit → c.dying = false →
      Tab.has s.dev.xl.rings c.inst = true → faultOn ctx va s.dev = none →
      ∃ t f, exec (.translationWalk eng ctx va kind false) s = .next t ∧ Tab.get t.dev.xl.faults (s.dev.xl.nextId % 2 ^ 32) = some f ∧
        f.ctx = ctx ∧ f.address = va ∧ f.level = lv ∧ f.since = clock (engDie eng) s.dev ∧ f.written = false ∧ f.inst = c.inst ∧
        t.dev = { walked ctx va eng s.dev with xl := { s.dev.xl with faults := t.dev.xl.faults, nextId := s.dev.xl.nextId + 1 } })) ∧
  (∀ (s : State) (id : Nat) (f : XFault) (r : FaultRing), Tab.get s.dev.xl.faults id = some f → Tab.get s.dev.xl.rings f.inst = some r →
    f.written = false → f.since + 16 ≤ clock f.die s.dev → linkOpen s.dev = true →
    (pairBusy (faultPair f.die) s.dev = true → exec (.faultRecordWrite id) s = .next s) ∧
    (pairBusy (faultPair f.die) s.dev = false → ∃ t, exec (.faultRecordWrite id) s = .next t ∧ Tab.get t.dev.xl.faults id = some { f with written := true } ∧
      t.dev.link.hostMem = Mem.writeN s.dev.link.hostMem (hostKey f.inst (r.addr + 64 * r.next)) (f.record id (instAt f.inst s.dev).gen) ∧
      t.dev.out = s.dev.out ++ [.vector f.inst r.vector] ∧
      getF .xlateFaultStats 0 0 31 16 t.dev = min 65535 (getF .xlateFaultStats 0 0 31 16 s.dev + 1) ∧ t.dev.tiers = s.dev.tiers)) ∧
  (∀ (s : State) (id : Nat) (f : XFault), Tab.get s.dev.xl.faults id = some f →
    (faultLate f s.dev = true → exec (.faultLimitExpiry id) s = .next
      { s with dev := localPath (each f.waiters failWaiter (takeFault id (countF .xlateFaultStats 0 0 15 0 1 s.dev))) }) ∧
    (faultLate f s.dev = false → exec (.faultLimitExpiry id) s = .next { s with dev := localPath s.dev })) ∧
  (∀ (s : State) (n : Nat) (l : List Byte),
    let id := fieldLE l 8 4
    (Safety.AdminTakes n 0xA9 l s → adminZeros l [(8, 11)] = true →
      (∀ f, Tab.get s.dev.xl.faults id = some f → f.inst = n → faultLate f s.dev = false →
        exec (.faultResume n) s = Safety.adminNext n 0 0 (each f.waiters (resumeWaiter f.ctx) (takeFault id s.dev)) s) ∧
      (∀ f, Tab.get s.dev.xl.faults id = some f → f.inst ≠ n → exec (.faultResume n) s = Safety.adminNext n 3 0 s.dev s)) ∧
    (Safety.AdminTakes n 0xAA l s → adminZeros l [(8, 11)] = true →
      (∀ f, Tab.get s.dev.xl.faults id = some f → f.inst = n →
        exec (.faultFail n) s = Safety.adminNext n 0 0 (each f.waiters failWaiter (takeFault id (countF .xlateFaultStats 0 0 15 0 1 s.dev))) s) ∧
      (Tab.get s.dev.xl.faults id = none → exec (.faultFail n) s = Safety.adminNext n 3 0 s.dev s)) ∧
    (Safety.AdminTakes n 0xA8 l s → adminZeros l [(16, 26)] = true → fieldLE l 16 8 % 4096 = 0 → fieldLE l 26 1 ≤ 63 →
      (∀ f ∈ s.dev.xl.faults, f.2.inst ≠ n) →
      (fieldLE l 24 2 ∈ faultRingSizes → exec (.faultRingSet n) s = Safety.adminNext n 0 0 { s.dev with xl := { s.dev.xl with
        rings := Tab.set s.dev.xl.rings n { addr := fieldLE l 16 8, entries := fieldLE l 24 2, vector := fieldLE l 26 1, next := 0 } } } s) ∧
      (fieldLE l 24 2 = 0 → exec (.faultRingSet n) s =
        Safety.adminNext n 0 0 { s.dev with xl := { s.dev.xl with rings := Tab.erase s.dev.xl.rings n } } s)))

/-- R206, R221, R224 to R226, R537: WQ_CREATE takes the lowest free queue number for a READY queue with nothing posted, and refuses one past its instance's quota;
WQ_MODIFY changes what SELECT names; WQ_QUERY answers C and the state; WQ_DESTROY refuses a queue that is being destroyed, drops the head and what
waits, and completes, with the number of entries that waited, once no admitted descriptor is left, the queue then being gone; WQ_MODIFY, WQ_DESTROY
and WQ_QUERY complete with ACCESS where their instance holds no such queue. -/
def Obligations.AdminWorkQueues : Prop :=
  ∀ (s : State) (n : Nat) (l : List Byte),
    let q := fieldLE l 8 2
    (Safety.AdminTakes n 0x80 l s → wqLimits l = true → ∀ lda, wqNames n l s.dev = .ok lda →
      (quotaMax 2 (getF .queueQuota n 0 31 15 s.dev) s.dev ≤ wqsHeld n s.dev → exec (.wqCreate n) s = Safety.adminNext n 0xE 0 s.dev s) ∧
      (wqsHeld n s.dev < quotaMax 2 (getF .queueQuota n 0 31 15 s.dev) s.dev → s.dev.q.wqs.length < poolMax 0 65536 s.dev →
        ∀ k, Tab.lowestFree s.dev.q.wqs 0 65536 = some k → ¬(k = 0xFFFF ∧ fieldLE l 13 1 = 2) →
        ∃ w, exec (.wqCreate n) s = Safety.adminNext n 0 k { s.dev with q := { s.dev.q with wqs := Tab.set s.dev.q.wqs k w } } s ∧
          w.inst = n ∧ w.cr = q ∧ w.log2 = fieldLE l 10 1 ∧ w.cls = fieldLE l 11 1 ∧ w.feed = fieldLE l 13 1 ∧ w.page = fieldLE l 14 1 ∧
          w.loc = fieldLE l 15 1 ∧ w.ring = fieldLE l 16 8 ∧ w.lda = lda ∧ w.ctx = fieldLE l 24 2 ∧ w.delay = fieldLE l 26 2 ∧
          w.domain = fieldLE l 28 2 ∧ w.leaf = fieldLE l 30 2 ∧ w.refuse = bitOf (fieldLE l 12 1) 0 ∧ w.c = 0 ∧ w.state = 0 ∧
          w.head = none ∧ w.flight = [] ∧ w.p = if w.feed = 1 then counterVal (fieldLE l 32 4) s.dev % 2 ^ w.log2 else 0)) ∧
    (Safety.AdminTakes n 0x81 l s → adminZeros l [(8, 35)] = true → fieldLE l 10 1 < 16 → (bitOf (fieldLE l 10 1) 0 = true → fieldLE l 11 1 < 8) →
      (bitOf (fieldLE l 10 1) 1 = true → fieldLE l 12 1 < 2) →
      (wqHeld n q s.dev = none → exec (.wqModify n) s = Safety.adminNext n 3 0 s.dev s) ∧
      ∀ w, wqHeld n q s.dev = some w → w.state ≠ 2 → (bitOf (fieldLE l 10 1) 3 = true → leafStatus n (fieldLE l 30 2) s.dev = .ok ()) →
        (bitOf (fieldLE l 10 1) 2 = true → w.state = 1 ∧ w.detached = false ∧ w.flight = []) →
        exec (.wqModify n) s = Safety.adminNext n 0 0 (when_ (bitOf (fieldLE l 10 1) 2) (tryRead q) (updWq q (fun w => { w with
          cls := if bitOf (fieldLE l 10 1) 0 then fieldLE l 11 1 else w.cls,
          refuse := if bitOf (fieldLE l 10 1) 1 then bitOf (fieldLE l 12 1) 0 else w.refuse,
          delay := if bitOf (fieldLE l 10 1) 1 then fieldLE l 26 2 else w.delay,
          leaf := if bitOf (fieldLE l 10 1) 3 then fieldLE l 30 2 else w.leaf,
          state := if bitOf (fieldLE l 10 1) 2 then 0 else w.state, firstErr := if bitOf (fieldLE l 10 1) 2 then 0 else w.firstErr }) s.dev)) s) ∧
    (Safety.AdminTakes n 0x83 l s → adminZeros l [(8, 9)] = true →
      (∀ w, wqHeld n q s.dev = some w → exec (.wqQuery n) s = Safety.adminNext n 0 (w.ix w.c + 65536 * w.state) s.dev s) ∧
      (wqHeld n q s.dev = none → exec (.wqQuery n) s = Safety.adminNext n 3 0 s.dev s)) ∧
    (Safety.AdminTakes n 0x82 l s → adminZeros l [(8, 9)] = true →
      (wqHeld n q s.dev = none → exec (.wqDestroy n) s = Safety.adminNext n 3 0 s.dev s) ∧
      ∀ w, wqHeld n q s.dev = some w →
        (w.state = 2 → exec (.wqDestroy n) s = Safety.adminNext n 0xE 0 s.dev s) ∧
        (w.state ≠ 2 → exec (.wqDestroy n) s = Safety.adminHolds n (.wqDestroy q w.waiting)
          (updWq q (fun w => { w with state := 2, muted := w.state == 1, tiles := [], reading := false })
            (dropEntryRead q (dropHead q s.dev))) s)) ∧
    (Safety.AdminTakes n 0x82 l s → adminZeros l [(8, 9)] = true → Safety.Quiet s.dev →
      ∀ w, wqHeld n q s.dev = some w → w.state ≠ 2 → w.head = none →
        ∃ t, exec (.wqDestroy n) s = .next t ∧
          (w.flight = [] → wqAt q t.dev = none ∧ (adminAt n t.dev).wait = none) ∧
          (w.flight ≠ [] → wqAt q t.dev = some { w with state := 2, muted := w.state == 1, tiles := [], reading := false } ∧
            (adminAt n t.dev).wait = some (.wqDestroy q (if w.feed = 2 then w.tiles.length else (w.p + 2 ^ w.log2 - w.c % 2 ^ w.log2) % 2 ^ w.log2))) ∧
          (∀ k, k ≠ q → wqAt k t.dev = wqAt k s.dev) ∧ t.dev.q.crs = s.dev.q.crs ∧ t.dev.tiers = s.dev.tiers)

/-- R213 to R218, R222, R224, R227, R537: CR_CREATE, CR_MODIFY and CR_DESTROY make, change and remove a completion ring; COUNTER_ALLOC, COUNTER_FREE and COUNTER_SET do
so with free counters, at zero when allocated, COUNTER_SET with INTERNAL where the counter's mirror cannot be written (R148); ADMIN_CTRL takes effect as written, its sizes fixed while the queue is enabled, with CONFLICT set,
and enabling starts the queue at index zero. -/
def Obligations.AdminRingsAndCounters : Prop :=
  (∀ (s : State) (n : Nat) (l : List Byte),
    let r := fieldLE l 8 2
    let k := fieldLE l 10 1
    (Safety.AdminTakes n 0x84 l s → adminZeros l [(10, 27)] = true → 6 ≤ k → k ≤ 16 → vectorOk (fieldLE l 12 1) = true → 128 ≤ fieldLE l 13 1 →
      addrOk (fieldLE l 11 1) (fieldLE l 16 8) 4096 (32 * 2 ^ k) = true →
      ∀ lda, placeRing n (fieldLE l 11 1) (fieldLE l 16 8) (32 * 2 ^ k) (fieldLE l 24 2) 0 s.dev = .ok lda →
      (quotaMax 3 (getF .queueQuota n 0 14 0 s.dev) s.dev ≤ crsHeld n s.dev → exec (.crCreate n) s = Safety.adminNext n 0xE 0 s.dev s) ∧
      (crsHeld n s.dev < quotaMax 3 (getF .queueQuota n 0 14 0 s.dev) s.dev → s.dev.q.crs.length < poolMax 1 16384 s.dev →
        ∀ i, Tab.lowestFree s.dev.q.crs 0 16384 = some i →
        ∃ c, exec (.crCreate n) s = Safety.adminNext n 0 i { s.dev with q := { s.dev.q with crs := Tab.set s.dev.q.crs i c } } s ∧
          c.inst = n ∧ c.log2 = k ∧ c.loc = fieldLE l 11 1 ∧ c.vector = fieldLE l 12 1 ∧ c.page = fieldLE l 13 1 ∧
          c.modCount = fieldLE l 14 2 ∧ c.modUs = fieldLE l 26 2 ∧ c.ring = fieldLE l 16 8 ∧ c.lda = lda ∧ c.wr = 0 ∧ c.ret = 0 ∧ c.written = 0 ∧
          c.counter = 0)) ∧
    (Safety.AdminTakes n 0x85 l s → adminZeros l [(8, 9), (12, 12), (14, 15), (26, 27)] = true → vectorOk (fieldLE l 12 1) = true →
      ∀ c, crHeld n r s.dev = some c → c.detached = false →
        exec (.crModify n) s = Safety.adminNext n 0 0 (notify r (updCr r (fun c =>
          { c with vector := fieldLE l 12 1, modCount := fieldLE l 14 2, modUs := fieldLE l 26 2 }) s.dev)) s) ∧
    (Safety.AdminTakes n 0x86 l s → adminZeros l [(8, 9)] = true → (crHeld n r s.dev).isSome = true →
      ((∃ p ∈ s.dev.q.wqs, p.2.cr = r) → exec (.crDestroy n) s = Safety.adminNext n 0xE 0 s.dev s) ∧
      ((∀ p ∈ s.dev.q.wqs, p.2.cr ≠ r) → (∀ p ∈ s.dev.rem.doms, p.2.ring ≠ r) → feedsQueue r 1 s.dev = false →
        (∀ p ∈ s.dev.bricks.ctxs, ∀ i v w, p.2.wait ≠ .cwait i v w) → (∀ p ∈ s.dev.q.wqs, ∀ h, p.2.head = some h → h.opcode ≠ 1) →
        exec (.crDestroy n) s = Safety.adminNext n 0 0 { s.dev with q := { s.dev.q with crs := Tab.erase s.dev.q.crs r } } s)) ∧
    (Safety.AdminTakes n 0x88 l s → adminZeros l [(8, 10), (16, 25)] = true → 0 < r → r ≤ 1024 → fieldLE l 16 8 = 0 → k ≤ 1 →
      (quotaMax 4 (getF .counterQuota n 0 16 0 s.dev) s.dev < ctrsHeld n s.dev + r → exec (.counterAlloc n) s = Safety.adminNext n 0xE 0 s.dev s) ∧
      (ctrsHeld n s.dev + r ≤ quotaMax 4 (getF .counterQuota n 0 16 0 s.dev) s.dev → s.dev.q.ctrs.length + r ≤ poolMax 2 65536 s.dev →
        ∀ base, freeCtrRun r s.dev.q.ctrs (s.dev.q.ctrs.length + 1) 0x10000 = some base →
          (∀ p ∈ s.dev.q.wqs, ¬(p.2.feed = 1 ∧ base ≤ p.2.prodCtr ∧ p.2.prodCtr < base + r)) →
          ∃ e, exec (.counterAlloc n) s = Safety.adminNext n 0 base e s ∧
            (∀ i < r, Tab.get e.q.ctrs (base + i) = some { inst := n, value := 0, mirror := none }) ∧
            (∀ i, i < base ∨ base + r ≤ i → Tab.get e.q.ctrs i = Tab.get s.dev.q.ctrs i) ∧
            e = { s.dev with q := { s.dev.q with ctrs := e.q.ctrs } })) ∧
    (Safety.AdminTakes n 0x89 l s → adminZeros l [(8, 13)] = true → (∀ i < fieldLE l 12 2, freeCtrHeld n (fieldLE l 8 4 + i) s.dev = true) →
      (feedsQueue (fieldLE l 8 4) (fieldLE l 12 2) s.dev = true → exec (.counterFree n) s = Safety.adminNext n 0xE 0 s.dev s) ∧
      (feedsQueue (fieldLE l 8 4) (fieldLE l 12 2) s.dev = false → (∀ p ∈ s.dev.bricks.ctxs, ∀ i v w, p.2.wait ≠ .cwait i v w) →
        (∀ p ∈ s.dev.q.wqs, ∀ h, p.2.head = some h → h.opcode ≠ 1) →
        exec (.counterFree n) s = Safety.adminNext n 0 0 { s.dev with q := { s.dev.q with
          ctrs := Tab.keep s.dev.q.ctrs (fun i _ => !decide (fieldLE l 8 4 ≤ i ∧ i < fieldLE l 8 4 + fieldLE l 12 2)) } } s)) ∧
    (Safety.AdminTakes n 0x8A l s → adminZeros l [(8, 11), (16, 21)] = true →
      (freeCtrHeld n (fieldLE l 8 4) s.dev = true → ∃ e, exec (.counterSet n) s =
          Safety.adminNext n (if mirrorLost (fieldLE l 8 4) s.dev then 0xF else 0) 0 e s ∧
        counterVal (fieldLE l 8 4) e = fieldLE l 16 6 ∧ ∀ i, i ≠ fieldLE l 8 4 → counterVal i e = counterVal i s.dev) ∧
      (freeCtrHeld n (fieldLE l 8 4) s.dev = false → exec (.counterSet n) s = Safety.adminNext n 3 0 s.dev s))) ∧
  (∀ (s : State) (n data : Nat), data < 2 ^ 32 → Safety.Quiet s.dev → s.dev.start.ready = true → (adminAt n s.dev).notices = [] → n < 64 → linkOpen s.dev = true →
    ∃ t, exec (.adminCtrlWrite n data) s = .next t ∧ getF .adminCtrl n 0 31 31 t.dev = bitsOf data 31 31 ∧
      getF .adminCtrl n 0 11 6 t.dev = bitsOf data 11 6 ∧ Safety.SameRegs [addrOf .adminCtrl n 0] s.dev t.dev ∧ t.dev.tiers = s.dev.tiers ∧
      (adminOn n s.dev = true → bitOf data 31 = true → adminSizes n t.dev = adminSizes n s.dev ∧ getF .adminCtrl n 0 30 30 t.dev = 1 ∧
        adminAt n t.dev = adminAt n s.dev) ∧
      (adminOn n s.dev = false → adminSizes n t.dev = (2 ^ max 6 (min (bitsOf data 19 16) 12), 2 ^ max 6 (min (bitsOf data 15 12) 12)) ∧
        (bitOf data 31 = true → (adminAt n t.dev).p = 0 ∧ (adminAt n t.dev).c = 0 ∧ (adminAt n t.dev).wr = 0 ∧ (adminAt n t.dev).head = none)))

/-- R230, R233, R234, R236, R237, R239, R537: PD_CREATE, PD_MODIFY and PD_DESTROY make, change and remove a protection domain; REG_REGISTER pins the pages of a range and
answers a key of index and tag; REG_DEREGISTER and REG_REKEY advance the tag, so that the key before is valid no more, and the region goes or
stays under its new key; REG_QUERY answers whether a key is valid. -/
def Obligations.AdminDomainsAndRegions : Prop :=
  ∀ (s : State) (n : Nat) (l : List Byte),
    let x := fieldLE l 8 2
    let key := fieldLE l 8 4
    let doms := fun t => { s.dev with rem := { s.dev.rem with doms := t } }
    let pinned := fun i ps =>
      let g : Region := ⟨n, x, fieldLE l 10 2, fieldLE l 12 1, fieldLE l 16 8, fieldLE l 24 8, ps⟩
      let free := s.dev.rem.freed.filter (fun k => k != i)
      { s.dev with rem := { s.dev.rem with regions := Tab.set s.dev.rem.regions i g, freed := free } }
    (Safety.AdminTakes n 0x90 l s → adminZeros l [(8, 14), (16, 18), (20, 23)] = true →
      (fieldLE l 20 2 = 0xFFFF ∨ slotAssigned n (fieldLE l 20 2) s.dev = true) → targetOk n (fieldLE l 22 2) s.dev = true →
      (quotaMax 6 (getF .domainQuota n 0 12 0 s.dev) s.dev ≤ domsHeld n s.dev → exec (.pdCreate n) s = Safety.adminNext n 0xE 0 s.dev s) ∧
      (domsHeld n s.dev < quotaMax 6 (getF .domainQuota n 0 12 0 s.dev) s.dev → ∀ k, Tab.lowestFree s.dev.rem.doms 0 4096 = some k →
        exec (.pdCreate n) s = Safety.adminNext n 0 k (doms (Tab.set s.dev.rem.doms k
          { inst := n, tag := key, nmatch := fieldLE l 12 3, nmask := fieldLE l 16 3, slot := fieldLE l 20 2, ring := fieldLE l 22 2 })) s)) ∧
    (Safety.AdminTakes n 0x91 l s → adminZeros l [(8, 10), (12, 14), (16, 18), (22, 23)] = true → fieldLE l 10 1 < 4 →
      targetOk n (fieldLE l 22 2) s.dev = true →
      (∀ y, domHeld n x s.dev = some y → exec (.pdModify n) s = Safety.adminNext n 0 0 (doms (Tab.set s.dev.rem.doms x { y with
          nmatch := if bitOf (fieldLE l 10 1) 0 then fieldLE l 12 3 else y.nmatch, nmask := if bitOf (fieldLE l 10 1) 0 then fieldLE l 16 3 else y.nmask,
          ring := if bitOf (fieldLE l 10 1) 1 then fieldLE l 22 2 else y.ring })) s) ∧
      (domHeld n x s.dev = none → exec (.pdModify n) s = Safety.adminNext n 3 0 s.dev s)) ∧
    (Safety.AdminTakes n 0x92 l s → adminZeros l [(8, 9)] = true → (domHeld n x s.dev).isSome = true →
      (domNamed x s.dev = true → exec (.pdDestroy n) s = Safety.adminNext n 0xE 0 s.dev s) ∧
      (domNamed x s.dev = false → exec (.pdDestroy n) s =
        Safety.adminNext n 0 0 (doms (Tab.erase s.dev.rem.doms x)) s)) ∧
    (Safety.AdminTakes n 0x94 l s → adminZeros l [(8, 12), (16, 31)] = true → 0 < fieldLE l 12 1 → fieldLE l 12 1 ≤ 3 → 0 < fieldLE l 24 8 →
      fieldLE l 24 8 ≤ 2 ^ 40 → vaOk (fieldLE l 16 8) (fieldLE l 24 8) = true → (domHeld n x s.dev).isSome = true →
      (ctxHeld n (fieldLE l 10 2) s.dev).isSome = true →
      (∀ st, regPages (fieldLE l 10 2) (fieldLE l 12 1) (fieldLE l 16 8 + fieldLE l 24 8) s.dev (fieldLE l 24 8 / 2 ^ 26 + 2) (fieldLE l 16 8) = .error st →
        exec (.regRegister n) s = Safety.adminNext n st 0 s.dev s) ∧
      (∀ ps, regPages (fieldLE l 10 2) (fieldLE l 12 1) (fieldLE l 16 8 + fieldLE l 24 8) s.dev (fieldLE l 24 8 / 2 ^ 26 + 2) (fieldLE l 16 8) = .ok ps →
        (quotaMax 5 (getF .regionQuota n 0 20 0 s.dev) s.dev ≤ regionsHeld n s.dev → exec (.regRegister n) s = Safety.adminNext n 0xE 0 s.dev s) ∧
        (regionsHeld n s.dev < quotaMax 5 (getF .regionQuota n 0 20 0 s.dev) s.dev →
          pinsHeld n s.dev + ps.length ≤ quotaMax 7 (getF .pinQuota n 0 18 0 s.dev) s.dev →
          pinsAll s.dev + ps.length ≤ 262144 → ∀ i, regionIndex s.dev = some i →
          exec (.regRegister n) s = Safety.adminNext n 0 (i * 4096 + regionTag i s.dev) (pinned i ps) s))) ∧
    (adminZeros l [(8, 11)] = true → ∀ r, regionOf key s.dev = some r → r.inst = n →
      (Safety.AdminTakes n 0x95 l s → ∃ e, exec (.regDeregister n) s = Safety.adminNext n 0 0 e s ∧ regionOf key e = none ∧
        Tab.get e.rem.regions (key / 4096) = none ∧ (∀ i, i ≠ key / 4096 → Tab.get e.rem.regions i = Tab.get s.dev.rem.regions i) ∧
        e = { s.dev with rem := e.rem }) ∧
      (Safety.AdminTakes n 0x96 l s → ∃ e k, exec (.regRekey n) s = Safety.adminNext n 0 k e s ∧ k / 4096 = key / 4096 ∧
        k ≠ key ∧ regionOf k e = some r ∧ regionOf key e = none ∧
        e = { s.dev with rem := { s.dev.rem with tags := e.rem.tags } }) ∧
      (Safety.AdminTakes n 0x97 l s → exec (.regQuery n) s = Safety.adminNext n 0 1 s.dev s)) ∧
    (adminZeros l [(8, 11)] = true → regionOf key s.dev = none →
      (Safety.AdminTakes n 0x95 l s → exec (.regDeregister n) s = Safety.adminNext n 2 0 s.dev s) ∧
      (Safety.AdminTakes n 0x96 l s → exec (.regRekey n) s = Safety.adminNext n 2 0 s.dev s) ∧
      (Safety.AdminTakes n 0x97 l s → exec (.regQuery n) s = Safety.adminNext n 0 0 s.dev s))

/-- R300, R302, R303, R537: COMM_CREATE with a member table in device memory makes the communicator in the lowest free number; one in host memory is asked for first;
COMM_ADVANCE gives a communicator with nothing admitted a new generation, COLL_SEQ 0, and ends BROKEN; COMM_QUERY answers generation and BROKEN;
COMM_DESTROY removes one with nothing under way. -/
def Obligations.AdminCommunicators : Prop :=
  ∀ (s : State) (n : Nat) (l : List Byte),
    let c := fieldLE l 8 2
    (Safety.AdminTakes n 0xB0 l s → (adminAt n s.dev).reading = false → commStatus n l s.dev = .ok () →
      (fieldLE l 24 1 = 1 → ∀ d t, deviceTable (fieldLE l 32 2) (fieldLE l 16 8) (4 * fieldLE l 12 2) s.dev = (d, .ok t) →
        (membersOk (memberNodes t (fieldLE l 12 2)) (fieldLE l 14 2) d = false → exec (.commCreate n) s = Safety.adminNext n 6 0 d s) ∧
        (membersOk (memberNodes t (fieldLE l 12 2)) (fieldLE l 14 2) d = true → ∀ k, Tab.lowestFree d.colls.comms 0 4096 = some k →
          ∃ m, exec (.commCreate n) s = Safety.adminNext n 0 k { d with colls := { d.colls with comms := Tab.set d.colls.comms k m } } s ∧
            m.inst = n ∧ m.id = fieldLE l 8 4 ∧ m.n = fieldLE l 12 2 ∧ m.rank = fieldLE l 14 2 ∧ m.members = memberNodes t (fieldLE l 12 2) ∧
            m.chunk = fieldLE l 25 1 ∧ m.lanes = fieldLE l 26 1 ∧ m.domain = fieldLE l 28 2 ∧ m.gen = fieldLE l 30 2 ∧ m.seq = 0 ∧
            m.broken = false ∧ m.coll = none)) ∧
      (fieldLE l 24 1 = 0 → hostOpen s.dev = true → Safety.Quiet s.dev → ∃ t, exec (.commCreate n) s = .next t ∧
        Tab.get t.dev.link.reads s.dev.link.nextRead = some ⟨n, fieldLE l 16 8, 4 * fieldLE l 12 2, .members n, clock iodie s.dev⟩ ∧
        (adminAt n t.dev).reading = true ∧ (adminAt n t.dev).head = (adminAt n s.dev).head ∧ t.dev.colls = s.dev.colls)) ∧
    (Safety.AdminTakes n 0xB1 l s → adminZeros l [(8, 11)] = true → ∀ m, commHeld n c s.dev = some m → m.coll = none → m.gen ≠ fieldLE l 10 2 →
      ∃ e, exec (.commAdvance n) s = Safety.adminNext n 0 0 e s ∧
        commAt c e = some { m with
          gen := fieldLE l 10 2, seq := 0, broken := false, enters := [], nexts := [], coll := none, win := winInit s.dev, winAcked := 0,
          winCut := false } ∧
        ∀ k, k ≠ c → commAt k e = commAt k s.dev) ∧
    (Safety.AdminTakes n 0xB1 l s → adminZeros l [(8, 11)] = true → ∀ m, commHeld n c s.dev = some m →
      (m.gen = fieldLE l 10 2 → exec (.commAdvance n) s = Safety.adminNext n 6 0 s.dev s) ∧
      (m.gen ≠ fieldLE l 10 2 → m.busy = true → exec (.commAdvance n) s = Safety.adminNext n 0xE 0 s.dev s)) ∧
    (Safety.AdminTakes n 0xB2 l s → adminZeros l [(8, 9)] = true → ∀ m, commHeld n c s.dev = some m →
      (m.busy = true → exec (.commDestroy n) s = Safety.adminNext n 0xE 0 s.dev s) ∧
      (m.coll = none → commWaiters c s.dev = [] → exec (.commDestroy n) s =
        Safety.adminNext n 0 0 { s.dev with colls := { s.dev.colls with comms := Tab.erase s.dev.colls.comms c } } s)) ∧
    (Safety.AdminTakes n 0xB3 l s → adminZeros l [(8, 9)] = true →
      (∀ m, commHeld n c s.dev = some m → exec (.commQuery n) s = Safety.adminNext n 0 (m.gen + if m.broken then 65536 else 0) s.dev s) ∧
      (commHeld n c s.dev = none → exec (.commQuery n) s = Safety.adminNext n 3 0 s.dev s))

/-! ## Work descriptors (02, 07, 08, 12, 13) -/

/-- R199 to R201, R203, R209 to R211, R62, R216, R536, R65, R66, R252: NOP completes with OK, or with INTERNAL where the write of its entry's OWN bit is discarded (R148); WAIT so once its counter has reached
its target and waits otherwise, or is refused with ADMISSION_REFUSED after its queue's refusal delay (a change of the counter at the very moment of the
delay's end comes first, R228); SIGNAL adds its COUNT; an entry that could not be read completes with its
status and puts its queue into ERROR. ADMISSION_CHECK does for any head what the head's own command does, and the moderation timer raises the
ring's vector for entries not yet notified. And: an admitted descriptor whose moment E has passed is completed with BOUND_EXPIRED: the first of its queue writes its entry, its queue
enters ERROR with it as FIRST_ERROR, and its messages are gone; before E nothing happens. -/
def Obligations.LocalDescriptorsAndExpiry : Prop :=
  ((∀ (s : State) (q : Nat) (w : WQ) (h : Head) (c : CR), Safety.HeadAt q w h c s.dev → Safety.Quiet s.dev →
    (h.bad = none → w.state = 0 → headStatus q w h (takeSlot q s.dev) = (takeSlot q s.dev, .ok []) →
      (h.opcode = 0 → ∃ t, exec (.nop q) s = .next t ∧ Safety.HeadEnds q (Safety.plainStatus w h s.dev) w h c s.dev t.dev) ∧
      (h.opcode = 1 → reached (fieldLE h.bytes 8 4) (fieldLE h.bytes 16 6) s.dev = true →
        ∃ t, exec (.wait q) s = .next t ∧ Safety.HeadEnds q (Safety.plainStatus w h s.dev) w h c s.dev t.dev) ∧
      (h.opcode = 1 → reached (fieldLE h.bytes 8 4) (fieldLE h.bytes 16 6) s.dev = false → h.slot.isSome = true → h.judged = true → w.refuse = false →
        exec (.wait q) s = .next s) ∧
      (h.opcode = 2 → ∃ t, exec (.signal q) s = .next t ∧ Safety.HeadEnds q (Safety.plainStatus w h s.dev) w h c s.dev t.dev) ∧
      (h.opcode = 1 → reached (fieldLE h.bytes 8 4) (fieldLE h.bytes 16 6) s.dev = false → w.refuse = true → h.seqs = [] →
        ∀ t0, h.slot = some t0 → w.delay = 0 ∨ t0 + 8 * w.delay < clock (qDie q) s.dev →
          ∃ t, exec (.refusalDelayExpiry q) s = .next t ∧ Safety.HeadEnds q 0xE w h c s.dev t.dev)) ∧
    (∀ st, h.bad = some st → w.state = 0 → ∃ t, exec (.unreadableEntry q) s = .next t ∧ Safety.HeadEnds q st w h c s.dev t.dev ∧
      (wqAt q t.dev).map WQ.state = some 1 ∧ (wqAt q t.dev).map WQ.firstErr = some (w.ix h.idx))) ∧
  (∀ (s : State) (q : Nat) (h : Head), ((wqAt q s.dev).bind WQ.head) = some h →
    (h.opcode = 0x00 → exec (.admissionCheck q) s = exec (.nop q) s) ∧ (h.opcode = 0x01 → exec (.admissionCheck q) s = exec (.wait q) s) ∧
    (h.opcode = 0x02 → exec (.admissionCheck q) s = exec (.signal q) s) ∧ (h.opcode = 0x10 → exec (.admissionCheck q) s = exec (.write q) s) ∧
    (h.opcode = 0x11 → exec (.admissionCheck q) s = exec (.writeImm q) s) ∧ (h.opcode = 0x12 → exec (.admissionCheck q) s = exec (.read q) s) ∧
    (h.opcode = 0x20 → exec (.admissionCheck q) s = exec (.allReduce q) s) ∧ (h.opcode = 0x21 → exec (.admissionCheck q) s = exec (.reduceScatter q) s) ∧
    (h.opcode = 0x22 → exec (.admissionCheck q) s = exec (.allGather q) s) ∧ (h.opcode = 0x23 → exec (.admissionCheck q) s = exec (.allToAll q) s) ∧
    (h.opcode = 0x24 → exec (.admissionCheck q) s = exec (.allToAllV q) s) ∧ (h.opcode = 0x25 → exec (.admissionCheck q) s = exec (.broadcast q) s) ∧
    (h.opcode = 0x26 → exec (.admissionCheck q) s = exec (.barrier q) s) ∧ (h.opcode = 0xFF → exec (.admissionCheck q) s = exec (.unreadableEntry q) s) ∧ (h.opcode = 0x30 → exec (.admissionCheck q) s = exec (.hostToDevice q) s) ∧
    (h.opcode = 0x31 → exec (.admissionCheck q) s = exec (.deviceToHost q) s) ∧ (h.opcode = 0x40 → exec (.admissionCheck q) s = exec (.launch q) s)) ∧
  (∀ (s : State) (r : Nat) (c : CR), crAt r s.dev = some c → 0 < c.unseen → c.oldest + 8 * c.modUs ≤ clock iodie s.dev → c.vector ≠ 0xFF →
    linkOpen s.dev = true →
    exec (.moderationTimer r) s = .next { s with dev := emit (.vector c.inst c.vector) (updCr r (fun c => { c with unseen := 0 }) s.dev) })) ∧
  (∀ (s : State) (q idx : Nat) (w : WQ) (x : Desc), wqAt q s.dev = some w → w.state = 0 → w.feed ≠ 2 → w.flight = [x] → x.idx = idx → x.done = none →
    x.tile = none → 0x10 ≤ x.op → x.op ≤ 0x3F → collOf q idx s.dev = none → failing q idx s.dev = false →
    (clock (x.die q) s.dev < x.expiry → exec (.boundExpiry q idx) s = .next { s with dev := localPath s.dev }) ∧
    (x.expiry ≤ clock (x.die q) s.dev → ∃ e, exec (.boundExpiry q idx) s = .next { s with dev := localPath e } ∧
      (wqAt q e).map WQ.state = some 1 ∧ (wqAt q e).map WQ.firstErr = some (w.ix idx) ∧ descAt q idx e = none ∧
      ∀ i m, i < 2 → m ∈ (pesAt i e).msgs → m.2.owner ≠ .desc q idx))

/-- R57 to R60, R203: a head that is admitted leaves the head of its queue, C advances, and the queue holds the descriptor with E, the present moment plus
DEVICE_US and twice its residence; for LAUNCH the group joins the rotation of its bricks; with any check unmet the head waits. -/
def Obligations.LaunchAdmission : Prop :=
  (∀ (d : Dev) (q e u : Nat) (w : WQ) (h : Head), wqAt q d = some w → w.head = some h → w.feed ≠ 2 →
    ∃ x, (wqAt q (admitHead q e u d)).map WQ.flight = some (w.flight ++ [x]) ∧ x.idx = h.idx ∧ x.op = h.opcode ∧ x.bytes = h.bytes ∧ x.expiry = e ∧
      x.devUs = u ∧ x.since = clock (opDie q h.opcode h.bytes) d ∧ x.done = none ∧ (wqAt q (admitHead q e u d)).map WQ.c = some (w.c + 1) ∧
      ∀ k, k ≠ q → wqAt k (admitHead q e u d) = wqAt k d) ∧
  (∀ (s : State) (q : Nat) (w : WQ) (h : Head) (d : Dev), Safety.Judged q w h s d → h.opcode = 0x40 →
    let l := h.bytes
    let bs := launchBricks w l d
    let e := clock (qDie q) d + 8 * devUsOf w d + 2 * min (8 * getF .boundResidence w.cls 0 15 0 d) (residence d)
    (commonOk q w h d = true → slotsHeld w.inst d + bs.length ≤ slotsMost w.inst d →
      exec (.launch q) s = Safety.decided q h (beginLaunch
        { inst := w.inst, q := q, idx := h.idx, bricks := bs, act := (l.getD 6 0).toNat, code := fieldLE l 8 8, arg := fieldLE l 16 8,
          faultAt := fieldLE l 24 8, limit := fieldLE l 32 4, ctx := fieldLE l 36 2, rq := fieldLE l 38 2, devUs := devUsOf w d,
          since := clock (qDie q) d } (admitHead q e (devUsOf w d) d)) s) ∧
    (commonOk q w h d = false ∨ slotsMost w.inst d < slotsHeld w.inst d + bs.length → exec (.launch q) s = Safety.decided q h d s)) ∧
  (∀ (d : Dev) (l : Launch), l.bricks.Nodup →
    (∀ g, g < l.bricks.length → g < 1024 → ∃ x, ctxAt (d.bricks.nextId * 1024 + g) (beginLaunch l d) = some x ∧ x.brick = l.bricks.getD g 0 ∧
      x.launch = d.bricks.nextId ∧ x.pc = l.code ∧
      (brickAt (l.bricks.getD g 0) (beginLaunch l d)).rot = (brickAt (l.bricks.getD g 0) d).rot ++ [d.bricks.nextId * 1024 + g]) ∧
    launchAt d.bricks.nextId (beginLaunch l d) = some l ∧ (∀ b, b ∉ l.bricks → brickAt b (beginLaunch l d) = brickAt b d))

/-- R245 to R247, R274, R276, R277, R279: an admitted WRITE or WRITE_IMM of up to 65,536 bytes starts its message; a longer one first sends its REQUEST and is admitted with its
first GRANT; a READ is admitted with a local slot and sends its REQUEST; each message carries the descriptor's operation, key, offset,
length and node, under the sequence that its head took; where a check is unmet the head waits. -/
def Obligations.RemoteAdmission : Prop :=
  ∀ (s : State) (q : Nat) (w : WQ) (h : Head) (d : Dev), Safety.Judged q w h s d →
    let a := remoteAsk w h
    let i := q % 2
    let g := currentFor q (remoteUnits q w d) (remoteTouched q w h d) d
    let m := headMessage q w h g.1
    let sq := tagSeq m.tag
    (∀ (c : Instr), (h.opcode = 0x10 ∧ c = .write q) ∨ (h.opcode = 0x11 ∧ c = .writeImm q) →
      m.op = h.opcode ∧ m.key = a.key ∧ m.len = a.len ∧ m.off = a.off ∧ m.node = a.node ∧ m.imm = a.imm ∧ m.owner = .desc q h.idx ∧
      (a.len ≤ 65536 → (outstanding q d + a.len ≤ w.win ∨ outstanding q d = 0) → (a.fence = true → w.flight = []) → commonOk q w h d = true →
        (g.2 = true → exec c s = Safety.decided q h (startMsg i sq (addMsg i m (pinPort i m.tag (admitWrite q w h g.1)))) s) ∧
        (g.2 = false → exec c s = Safety.decided q h g.1 s)) ∧
      (a.len ≤ 65536 → (w.win < outstanding q d + a.len ∧ outstanding q d ≠ 0 ∨ commonOk q w h d = false) → exec c s = Safety.decided q h d s) ∧
      (65536 < a.len → headMsg q h d = none → exec c s =
        Safety.decided q h (startMsg i (tagSeq (headMessage q w h d).tag) (addMsg i { headMessage q w h d with admitted := false, state := .requesting } d)) s) ∧
      (65536 < a.len → ∀ k n, headMsg q h d = some (k, n) → n.state ≠ .requesting → 0 < n.granted → n.backAt = none →
        (a.fence = true → w.flight = []) → commonOk q w h d = true → g.2 = true →
        exec c s = Safety.decided q h (pump i k (updMsg i k (fun m => { m with admitted := true }) (pinPort i n.tag (admitWrite q w h g.1)))) s)) ∧
    (h.opcode = 0x12 → readSlotFree i d = true → (a.fence = true → w.flight = []) → commonOk q w h d = true → g.2 = true →
      ∃ e, exec (.read q) s = Safety.decided q h (beginRead i sq e) s ∧ msgAt i sq e = some m ∧ m.op = 0x12 ∧ m.key = a.key ∧ m.len = a.len ∧
        (slotAt i m.tag e).map Slot.read = some (some (q, h.idx)) ∧
        (∃ x, (wqAt q e).map WQ.flight = some (w.flight ++ [x]) ∧ x.idx = h.idx ∧ x.op = 0x12)) ∧
    (h.opcode = 0x12 → readSlotFree i d = false → exec (.read q) s = Safety.decided q h d s)

/-- R304, R305, R308, R311, R312, R538: the collective whose head is first of its communicator's waiting heads takes the communicator's COLL_SEQ and sends its ENTERs; it is admitted
when every other member has entered with the same block and the resources are free, and waits otherwise. So does each of the seven. -/
def Obligations.CollectiveAdmission : Prop :=
  ∀ (s : State) (q c : Nat) (w : WQ) (h : Head) (d : Dev) (x : Comm) (k : Coll), Safety.Judged q w h s d → headColl q w h d = some (c, x, k) →
    ∀ i, (h.opcode = 0x20 ∧ i = .allReduce q) ∨ (h.opcode = 0x21 ∧ i = .reduceScatter q) ∨ (h.opcode = 0x22 ∧ i = .allGather q) ∨
      (h.opcode = 0x23 ∧ i = .allToAll q) ∨ (h.opcode = 0x24 ∧ i = .allToAllV q) ∨ (h.opcode = 0x25 ∧ i = .broadcast q) ∨
      (h.opcode = 0x26 ∧ i = .barrier q) →
    (x.coll = none → firstOfComm q h d = false → exec i s = Safety.decided q h d s) ∧
    (x.coll = none → firstOfComm q h d = true →
      exec i s = Safety.decided q h (admitColl q c w h (takeTurn c k d)) s ∧ k.q = q ∧ k.idx = h.idx ∧ k.op = h.opcode) ∧
    (∀ y, x.coll = some y → y.q = q → y.idx = h.idx → y.admitted = false →
      (allEntered x y = false → exec i s = Safety.decided q h d s) ∧
      (allEntered x y = true → (freeSeqr (homeDie c) d).isSome = true → (y.op = 0x26 → w.flight = []) → commonOk q w h d = true →
        ∀ us, collUnits c x y d = some us →
        (currentFor q us (touched y.ctx ((y.spans x).1 ++ (y.spans x).2) (.coll (y.q % 2) 0) d) d).2 = true →
        ∃ e, exec i s = Safety.decided q h (beginColl c e) s ∧ (commAt c e).bind Comm.coll = some y ∧
          ∃ z, (wqAt q e).map WQ.flight = some (w.flight ++ [z]) ∧ z.idx = h.idx ∧ z.op = h.opcode))

/-! ## Pesyn transport and collectives (08, 09, 10) -/

/-- R243, R252, R266, R271 to R273, R276 to R279, R281, R286, R287: at the target, a packet of a PACKET_SHIFT that is not its slot's is dropped as malformed; a DATA packet that holds all of an unscheduled write is placed in its region and acknowledged, its tag enters the filter;
a repeated one is acknowledged again, meets the budget where its message was scheduled, and changes no memory; one that fails a check is refused with NACK and changes no memory; a REQUEST of a
write takes a slot, which keeps its CE mark, and waits for a grant, one of a READ is answered with responses; CANCEL and 3 × R abandon a slot; a grant goes
to the slot at the front of the list while it fits the budget, unless it is a READ whose queue is in ERROR; a filter entry retires at its step. -/
def Obligations.PesynTarget : Prop :=
  (∀ (s : State) (x : RxPkt),
    let o := Safety.deciphered x s.dev
    let p := parse o.1
    let a := slotAbandon p.die p.tag (Safety.engaged x s.dev)
    let d := filterStep p.die a
    let known := Tab.get (pesAt p.die d).filter p.tag
    (Safety.Arrives 1 x s → (∀ sl, slotAt p.die p.tag a = some sl → sl.shift ≠ p.shift → exec (.data x) s = Safety.sent (dropMalformed p.die a) s)) ∧
    (Safety.Arrives 1 x s → (∀ sl, slotAt p.die p.tag a = some sl → sl.shift = p.shift) →
      (∀ e, known = some e → e.outcome = 0 → exec (.data x) s =
        Safety.sent (sendAck p e.ece (answerSlot p d) (dropDuplicate p.die (budgetAfter p (Safety.arrivedCe x s.dev) d))) s) ∧
      (∀ st, known = none → slotAt p.die p.tag d = none → p.len ≤ 65536 → checkRegion p 1 p.off32 p.payload.length d = .error st →
        exec (.data x) s = Safety.sent (sendNack p st (answerSlot p d) (countRefusal st d)) s) ∧
      (∀ r, known = none → slotAt p.die p.tag d = none → p.len ≤ 65536 → p.op = 0x10 → p.off32 = 0 → p.payload.length = p.len →
        checkRegion p 1 0 p.len d = .ok r → (p.enc = true → o.2 = true) → filterFull p.die d = false → slotFree p.die d = true →
        (writePieces (regionPieces r p.off p.len d) p.payload d).2 = true →
        ∃ e, exec (.data x) s = Safety.sent e s ∧ slotAt p.die p.tag e = none ∧
          (Tab.get (pesAt p.die e).filter p.tag).map FiltEnt.outcome = some 0 ∧
          e.tiers.dev = (writePieces (regionPieces r p.off p.len d) p.payload d).1.tiers.dev)) ∧
    (Safety.Arrives 2 x s → (∀ sl, slotAt p.die p.tag a = some sl → sl.shift = p.shift) →
      (∀ r, p.op = 0x10 → known = none → slotAt p.die p.tag d = none → checkRegion p 1 0 p.len d = .ok r → (p.enc = true → o.2 = true) →
        filterFull p.die d = false → slotFree p.die d = true →
        ∃ e, exec (.request x) s = Safety.sent e s ∧
          slotAt p.die p.tag e = some { freshSlot p r.inst (clock (fdie p.die) d) (residence d) none none none with ce := Safety.arrivedCe x s.dev } ∧ p.tag ∈ (pesAt p.die e).grants ∧
          e.tiers = d.tiers) ∧
      (∀ r, p.op = 0x12 → checkRegion p 0 0 p.len a = .ok r → (p.enc = true → o.2 = true) →
        exec (.request x) s = Safety.sent (sendResponses p r (bitOf p.flags 2) (min p.len p.off32) maxPackets 0 a) s)) ∧
    (Safety.Arrives 8 x s → ∀ sl, known = none → slotAt p.die p.tag d = some sl → sl.shift = p.shift → p.ftag = sl.ftag → sl.read = none →
      p.enc = decide (slotCipher sl d ≠ 0xFFFF) → (p.enc = true → o.2 = true) →
      ∃ e, exec (.cancel x) s = Safety.sent e s ∧ slotAt p.die p.tag e = none ∧
        (Tab.get (pesAt p.die e).filter p.tag).map FiltEnt.outcome = some 1 ∧ e.tiers = d.tiers)) ∧
  (∀ (s : State) (die tag : Nat) (rest : List Nat) (sl : Slot), die < s.dev.pes.length → (pesAt die s.dev).grants = tag :: rest →
    slotAt die tag s.dev = some sl → (nextChunk die sl s.dev).2 ≠ 0 →
    (sl.halted die s.dev = true → ∃ e, exec (.grantChunk die) s = Safety.sent e s ∧ (pesAt die e).grants = rest ∧ (pesAt die e).slots = (pesAt die s.dev).slots) ∧
    (sl.halted die s.dev = false → effBudget die s.dev < owed die s.dev + (nextChunk die sl s.dev).2 → exec (.grantChunk die) s = Safety.sent s.dev s) ∧
    (sl.halted die s.dev = false → owed die s.dev + (nextChunk die sl s.dev).2 ≤ effBudget die s.dev → ∃ e sl2, exec (.grantChunk die) s = Safety.sent (sendGrant die tag false e) s ∧
      slotAt die tag e = some sl2 ∧ sl2.grantOff = (nextChunk die sl s.dev).1 ∧ sl2.grantLen = (nextChunk die sl s.dev).2 ∧ sl2.last = clock (fdie die) s.dev ∧
      sl2.base = sl.base ∧ sl2.count = sl.count ∧ (pesAt die e).grants = rest ∧ e.tiers = s.dev.tiers)) ∧
  (∀ (s : State) (die tag : Nat) (sl : Slot) (a : Nat), die < s.dev.pes.length → slotAt die tag s.dev = some sl → sl.at0 = some a →
    (sl.read = none → a + 3 * sl.res ≤ clock (fdie die) s.dev → ∃ e, exec (.slotAbandon die tag) s = Safety.sent e s ∧ slotAt die tag e = none ∧
      (Tab.get (pesAt die e).filter tag).map FiltEnt.outcome = some 1) ∧
    (sl.read = none → clock (fdie die) s.dev < a + 3 * sl.res → exec (.slotAbandon die tag) s = Safety.sent s.dev s) ∧
    (sl.read = none → sl.last + 8 * max 1 (getF .pesynTimers2 0 0 15 0 s.dev) ≤ clock (fdie die) s.dev → sl.count < sl.len →
      ∀ o n, missingRun sl sl.expects = some (o, n) → exec (.resendTimer die tag) s =
        Safety.sent (sendResend die tag o n (updSlot die tag (fun y => { y with last := clock (fdie die) s.dev }) s.dev)) s)) ∧
  (∀ (s : State) (die : Nat), die < s.dev.pes.length → ∃ e, exec (.filterStep die) s = Safety.sent e s ∧ e.tiers = s.dev.tiers ∧
    (pesAt die e).slots = (pesAt die s.dev).slots ∧ ∀ f, f ∈ (pesAt die e).filter ↔ f ∈ (pesAt die s.dev).filter ∧ clock (fdie die) s.dev < f.2.retire)

/-- R247, R275, R276, R279 to R284, R291, R292, R299: at the initiator, an ACK completes its message; a REMOTE_BUSY NACK stops sending until the backoff ends and any other fails the message; a GRANT lets it send up to its
end; a RESEND sends its range again, but for a message in its backoff; a RESPONSE is placed, and the last one completes its READ; the retransmission timer sends again with a longer interval; the
end of the send window, or 2 × R without an answer, fails the message, an answer at the very moment W + 2 × R still counting (R298); after its backoff a write sends its
packets or its REQUEST again, and a READ its REQUEST, with its slot eligible for GRANTs; written addressing values take effect when nothing remote is under way. -/
def Obligations.PesynInitiator : Prop :=
  (∀ (s : State) (x : RxPkt) (m : Msg),
    let o := Safety.deciphered x s.dev
    let p := parse o.1
    let sq := tagSeq p.tag
    let b := slotAbandon p.die p.tag (Safety.engaged x s.dev)
    let d := sendWindowEnd p.die sq b
    let dn := noteAnswer p.die sq d
    (∀ sl, slotAt p.die p.tag b = some sl → sl.shift = p.shift) → answered p d = some m → answerOk p x.srcNode x.srcDie o.2 m = (true, false) →
    (Safety.Arrives 4 x s → m.isRead = false → m.state ≠ .requesting → ∀ q idx, m.owner = .desc q idx →
      exec (.ack x) s = Safety.sent (releaseFlags p.die q (okDesc q idx 0 m.len
        (retireMsg p.die sq (updWin m (fun w => winAck (bitOf p.flags 1) m.len w dn) dn)))) s) ∧
    (Safety.Arrives 5 x s →
      (p.reason = 0xD → ∃ e y, exec (.nack x) s = Safety.sent e s ∧ msgAt p.die sq e = some y ∧ y.busy = m.busy + 1 ∧
        y.lastBusy = true ∧ y.backAt.isSome = true ∧ y.timerAt = clock (fdie p.die) d ∧ y.state = m.state ∧ y.sentTo = m.sentTo) ∧
      (p.reason ≠ 0xD → exec (.nack x) s = Safety.sent (failMsg p.die sq p.reason 3 dn) s)) ∧
    (Safety.Arrives 3 x s → p.op ≠ 0x12 → m.sched = true → ∃ e y, exec (.grant x) s = Safety.sent (pump p.die sq e) s ∧
      msgAt p.die sq e = some y ∧ y.granted = max m.granted (min m.len (p.off32 + p.len32)) ∧ y.state = .awaiting ∧ y.busy = 0 ∧
      y.backAt = (if m.state = .requesting then none else m.backAt) ∧ y.wAt = (if m.wAt.isSome then m.wAt else some (clock (fdie p.die) d)) ∧ e.tiers = d.tiers) ∧
    (Safety.Arrives 6 x s → m.isRead = false → m.admitted = true → m.typ ≠ 11 → m.state ≠ .requesting →
      (m.backAt = none → exec (.resend x) s = Safety.sent (sendUpTo p.die sq
        (min m.limit (ceilDiv (p.off32 + p.len32) (pktSize dn) * pktSize dn)) true maxPackets (p.off32 / pktSize dn * pktSize dn) dn) s) ∧
      (m.backAt.isSome = true → exec (.resend x) s = Safety.sent dn s)) ∧
    (Safety.Arrives 7 x s → m.isRead = true → m.ctx ≠ 0xFFFF → ∀ sl k q idx, slotAt p.die p.tag dn = some sl →
      sl.place p.off32 = (some k, false) → m.owner = .desc q idx →
      let w := writePieces (ldaPieces dn (sliceFrags m.frags p.off32 p.payload.length)) p.payload dn
      w.2 = true →
      (sl.count + p.payload.length < sl.len → ∃ e, exec (.response x) s = Safety.sent (eligibleAgain p.die p.tag e) s ∧
        slotAt p.die p.tag e = some (({ sl with ce := sl.ce || Safety.arrivedCe x s.dev, last := clock (fdie p.die) d } : Slot).take k p.off32 p.payload.length) ∧ e.tiers.dev = w.1.tiers.dev) ∧
      (sl.len ≤ sl.count + p.payload.length → ∃ e, exec (.response x) s =
          Safety.sent (okDesc q idx 0 m.len (retireMsg p.die sq (dropSlot p.die p.tag e))) s ∧ e.tiers.dev = w.1.tiers.dev))) ∧
  (∀ (s : State) (die sq : Nat) (m : Msg), msgAt die sq s.dev = some m →
    (m.timerAt + m.interval ≤ clock (fdie die) s.dev → m.backAt = none → m.begun = true → exec (.retransmitTimeout die sq) s =
      Safety.sent (resendAll die sq (updMsg die sq (fun m => { m with interval := min (rtoMax s.dev) (2 * m.interval), timerAt := clock (fdie die) s.dev })
        (winFall m s.dev))) s) ∧
    (clock (fdie die) s.dev < m.timerAt + m.interval → exec (.retransmitTimeout die sq) s = Safety.sent s.dev s) ∧
    (∀ w, m.wAt = some w → (∀ c r, m.owner ≠ .enter c r) →
      (clock (fdie die) s.dev ≤ w + 2 * m.res → exec (.sendWindowEnd die sq) s = Safety.sent s.dev s) ∧ (w + 2 * m.res < clock (fdie die) s.dev →
      exec (.sendWindowEnd die sq) s = Safety.sent (failMsg die sq (if m.lastBusy then 0xD else 5) (if m.lastBusy then 3 else 4) (countF .pesynRetx die 0 15 0 1 s.dev)) s)) ∧
    (m.state = .requesting → m.begun = true → m.answerAt + 2 * m.res ≤ clock (fdie die) s.dev →
      exec (.requestTimeout die sq) s = Safety.sent (failMsg die sq 5 4 s.dev) s) ∧
    (∀ t0, m.backAt = some t0 → t0 ≤ clock (fdie die) s.dev →
      let e := updMsg die sq (fun m => { m with backAt := none, timerAt := clock (fdie die) s.dev }) s.dev
      (m.isRead = false → exec (.backoffEnd die sq) s = Safety.sent (resendAll die sq e) s) ∧
      (m.isRead = true → exec (.backoffEnd die sq) s = Safety.sent (updPes die (fun p => { p with
        grants := if m.tag ∈ p.grants ∨ Tab.has p.slots m.tag = false then p.grants else p.grants ++ [m.tag] }) (sendRequest die sq true e)) s)) ∧
    (∀ t0, m.backAt = some t0 → clock (fdie die) s.dev < t0 → exec (.backoffEnd die sq) s = Safety.sent s.dev s)) ∧
  (∀ s : State,
    (addrFree s.dev = true → s.dev.addr.waits = true → ∃ t, exec .pesynAddressTakesEffect s = .next t ∧ t.dev.addr = addrWritten s.dev ∧
      t.dev.tiers = s.dev.tiers ∧ t.dev.regs = s.dev.regs) ∧
    (addrFree s.dev = false ∨ s.dev.addr.waits = false → exec .pesynAddressTakesEffect s = .next s))

/-- R301, R311, R313, R318 to R327, R331: an ENTER is acknowledged and held with its block, a difference ends the collective; a CONTRIBUTION that passes the checks takes a slot and meets DEST; a RESTART makes its
contributions be sent again under the new epoch; a SEAL of success is kept, one of failure fails the part with its status; an ENTER without an answer for 2 × R fails it; a
lane's first failed check restarts its chunk and a second one retires the lane. -/
def Obligations.CollectivePackets : Prop :=
  (∀ (s : State) (x : RxPkt) (c : Nat),
    let o := Safety.deciphered x s.dev
    let p := parse o.1
    let b := slotAbandon p.die p.tag (Safety.engaged x s.dev)
    let d := filterStep p.die b
    let ce := Safety.arrivedCe x s.dev
    (∀ sl, slotAt p.die p.tag b = some sl → sl.shift = p.shift) →
    Tab.get (pesAt p.die d).filter p.tag = none → (p.enc = true → o.2 = true) → filterFull p.die d = false → slotFree p.die d = true →
    let a := sendAck p ce (collSlot p d) (enterFilter p.die p.tag 0 ce d)
    (Safety.Arrives 11 x s →
      ((p.payload.getD 0 0).toNat = 1 → collVerdict p 1 d = .pass c → ∀ m, commAt c d = some m →
        (p.cseq = m.seq → exec (.enter x) s = Safety.sent (checkEnters c (updComm c (fun m => { m with enters := Tab.set m.enters p.rank ((p.payload.drop 4).take 12) }) a)) s) ∧
        (p.cseq ≠ m.seq → exec (.enter x) s = Safety.sent (updComm c (fun m => { m with nexts := Tab.set m.nexts p.rank ((p.payload.drop 4).take 12) }) a) s)) ∧
      ((p.payload.getD 0 0).toNat = 2 → collVerdict p 2 d = .pass c → exec (.restart x) s = Safety.sent (actRestart p c a) s) ∧
      ((p.payload.getD 0 0).toNat = 3 → collVerdict p 3 d = .pass c → ∀ m k, collAt c d = some (m, k) →
        let z := updColl c (fun k => { k with seals := Tab.set k.seals p.rank (fieldLE p.payload 2 2) }) a
        ((p.payload.getD 1 0).toNat = 0 → k.op ≠ 0x24 → exec (.seal x) s = Safety.sent (collProgress c z) s) ∧
        ((p.payload.getD 1 0).toNat = 0 → k.op = 0x24 →
          (fieldLE p.payload 4 4 = (k.vtab.getD p.rank ⟨0, 0, 0, 0⟩).recvCnt → exec (.seal x) s = Safety.sent (collProgress c z) s) ∧
          (fieldLE p.payload 4 4 ≠ (k.vtab.getD p.rank ⟨0, 0, 0, 0⟩).recvCnt → exec (.seal x) s = Safety.sent (failOwn c 9 z) s)) ∧
        (0 < (p.payload.getD 1 0).toNat → (p.payload.getD 1 0).toNat ≤ 0xF → exec (.seal x) s = Safety.sent (failPart c (p.payload.getD 1 0).toNat p.rank true z) s) ∧
        (0xF < (p.payload.getD 1 0).toNat → exec (.seal x) s = Safety.sent (failPart c 0xF p.rank true z) s))) ∧
    (Safety.Arrives 10 x s → collVerdict p 0 d = .pass c → slotAt p.die p.tag d = none → p.len ≤ 65536 →
      ∃ e, exec (.contribution x) s = Safety.sent (contribArrives c p ce o.2 e) s ∧ e.tiers = d.tiers ∧
        (slotAt p.die p.tag e).map Slot.contrib = some (some (c, p.rank, p.off, p.epoch16)) ∧ (slotAt p.die p.tag e).map Slot.count = some 0)) ∧
  (∀ (d : Dev) (p : Packet) (c : Nat) (m : Comm) (k : Coll), collAt c d = some (m, k) →
    (∀ q ∈ contribsTo m k p.rank d, q.red = true → q.off / collC m k d = fieldLE p.payload 4 4 →
      laterEpoch (Tab.getD k.epochs (pieceKey p.rank q.off) 0) p.epoch16 = false) → actRestart p c d = kickColl c d) ∧
  (∀ (s : State) (die sq c r : Nat) (m : Msg), msgAt die sq s.dev = some m → m.owner = .enter c r →
    (m.answerAt + 2 * m.res ≤ clock (fdie die) s.dev → exec (.enterTimeout die sq) s = Safety.sent (failMsg die sq 5 0 s.dev) s) ∧
    (clock (fdie die) s.dev < m.answerAt + 2 * m.res → exec (.enterTimeout die sq) s = Safety.sent s.dev s)) ∧
  (∀ (s : State) (i lane chunk c off : Nat) (m : Comm) (k : Coll) (h : Chunk),
    (s.dev.colls.comms.find? (fun p => match p.2.coll with
      | some k => (k.lanes i).contains lane
      | none => false)).map Prod.fst = some c → collAt c s.dev = some (m, k) →
    k.chunks.find? (fun p => p.1 / collC m k s.dev == chunk && contribDie m k p.1 s.dev == i && !p.2.clean && p.2.counts.length != 0) = some (off, h) →
    h.restarts < 4 → k.lanes i ≠ [] → i < s.dev.colls.lanes.length →
    (lane ∉ k.failed i → ∃ t, exec (.laneResidueFailure i lane chunk) s = .next t ∧
      t.dev = localPath (restartChunk c off (updColl c (fun k => k.setLanes i (k.lanes i) (k.failed i ++ [lane])) s.dev))) ∧
    (lane ∈ k.failed i → 0 < (lanesAt i s.dev).spares → ∃ t e, exec (.laneResidueFailure i lane chunk) s = .next t ∧
      t.dev = localPath (restartChunk c off e) ∧ (lanesAt i e).spares = (lanesAt i s.dev).spares - 1 ∧ lane ∈ (lanesAt i e).out ∧
      (lanesAt i e).available = (lanesAt i s.dev).available))

/-! ## Optics and ports (11, 12) -/

/-- R29, R336: a port whose engine has light and whose positions all have working cells comes up, and stays down without light; when it goes down the frame on
the wire is lost, waiting frames wait, and the fall is counted; they are discarded and counted when LINK_HOLD_US ends, or at once when ENABLE 0 is written. -/
def Obligations.PortLinks : Prop :=
  ∀ (s : State) (p : Nat), portExists p s.dev = true →
    (engineLit (p / 4) s.dev = true → portWhole p s.dev = true → s.dev.net.unsent = [] →
      ∃ t, exec (.linkUp p) s = .next t ∧ linkUp p t.dev = true ∧ (portAt p t.dev).downAt = none ∧
        (portAt p t.dev).control = (portAt p s.dev).control ∧ (portAt p t.dev).data = (portAt p s.dev).data ∧
        (∀ q, q ≠ p → portAt q t.dev = portAt q s.dev) ∧ Safety.SameRegs [addrOf .portStatus p 0] s.dev t.dev ∧
        (linkUp p s.dev = false → getF .portStatus p 0 1 1 t.dev = 1) ∧ t.dev.tiers = s.dev.tiers) ∧
    (engineLit (p / 4) s.dev = false ∨ portWhole p s.dev = false → exec (.linkUp p) s = .next s) ∧
    (∀ a l r, (a || l || r) = true → s.dev.net.outside = [] → ∃ t, exec (.linkDown p a l r) s = .next t ∧ linkUp p t.dev = false ∧ (portAt p t.dev).wire = none ∧
      (portAt p t.dev).control = (portAt p s.dev).control ∧ (portAt p t.dev).data = (portAt p s.dev).data ∧
      (∀ q, q ≠ p → portAt q t.dev = portAt q s.dev) ∧ Safety.SameRegs [addrOf .portStatus p 0] s.dev t.dev ∧
      (linkUp p s.dev = true → getF .portStatus p 0 1 1 t.dev = 1 ∧ (portAt p t.dev).downAt = some (clock (fdie (p / 16)) s.dev) ∧
        Tab.getD (portAt p t.dev).hw 10 0 = min 63 (Tab.getD (portAt p s.dev).hw 10 0 + 1)) ∧
      (a = true → (portAt p s.dev).align = true →
        Tab.getD (portAt p t.dev).hw 9 0 = min 63 (Tab.getD (portAt p s.dev).hw 9 0 + 1))) ∧
    (∀ t0, (portAt p s.dev).downAt = some t0 → linkUp p s.dev = false → t0 + 8 * getF .photCtrl 0 0 15 0 s.dev ≤ clock (fdie (p / 16)) s.dev →
      s.dev.net.outside = [] →
      ∃ t, exec (.linkHoldExpiry p) s = .next t ∧ (portAt p t.dev).control = [] ∧ (portAt p t.dev).data = [] ∧
        Tab.getD (portAt p t.dev).hw 7 0 =
          min 63 (Tab.getD (portAt p s.dev).hw 7 0 + ((portAt p s.dev).control.length + (portAt p s.dev).data.length)) ∧
        (∀ q, q ≠ p → portAt q t.dev = portAt q s.dev) ∧ t.dev.regs = s.dev.regs) ∧
    (∀ t0, (portAt p s.dev).downAt = some t0 → clock (fdie (p / 16)) s.dev < t0 + 8 * getF .photCtrl 0 0 15 0 s.dev →
      exec (.linkHoldExpiry p) s = .next s) ∧
    (∀ data, data < 2 ^ 32 → s.dev.start.ready = true → linkOpen s.dev = true → s.dev.net.outside = [] →
      (bitOf data 31 = false → ∃ t, exec (.portCtrlWrite p data) s = .next t ∧ getF .portCtrl p 0 31 31 t.dev = 0 ∧
        (portAt p t.dev).control = [] ∧ (portAt p t.dev).data = [] ∧ (portAt p t.dev).wire = (portAt p s.dev).wire ∧
        Tab.getD (portAt p t.dev).hw 7 0 =
          min 63 (Tab.getD (portAt p s.dev).hw 7 0 + ((portAt p s.dev).control.length + (portAt p s.dev).data.length)) ∧
        Safety.SameRegs [addrOf .portCtrl p 0] s.dev t.dev) ∧
      (bitOf data 31 = true → s.dev.net.unsent = [] → ∃ t, exec (.portCtrlWrite p data) s = .next t ∧ getF .portCtrl p 0 31 31 t.dev = 1 ∧
        getF .portCtrl p 0 30 29 t.dev = bitsOf data 30 29 ∧ (∀ q, q ≠ p → portAt q t.dev = portAt q s.dev) ∧
        (portEnabled p s.dev = true → t.dev.net.ports = s.dev.net.ports) ∧ (portAt p t.dev).control = (portAt p s.dev).control ∧
        (portAt p t.dev).data = (portAt p s.dev).data ∧ linkUp p t.dev = linkUp p s.dev ∧
        Safety.SameRegs [addrOf .portCtrl p 0] s.dev t.dev))

/-- R337, R338, R342: a cell that fails, and a LANE_SUBSTITUTE that is accepted, start the training of the first free spare for the position, and the position is
served by it at the end, as the repair record keeps, the link of its port being down until the far end has realigned; with no spare left the position of a failed cell goes down with its port, and the command is refused with 0x04. -/
def Obligations.SpareCells : Prop :=
  ∀ (s : State) (e pos : Nat), e < s.dev.net.engines.length → e < 8 → pos < 16 → (engAt e s.dev).sub = none → (engAt e s.dev).waits = [] →
    let x := engAt e s.dev
    let now := clock (fdie (e / 4)) s.dev
    let bad := { x with bad := x.bad ++ [x.serves.getD pos pos] }
    (x.down.contains pos = false →
      (∀ c r, freeSpares bad = c :: r → ∃ t, exec (.cellFault e pos) s = .next t ∧ engAt e t.dev = { bad with sub := some (pos, c, now) } ∧ t.flash.repair = repairNow t.dev ∧
        (∀ k, k ≠ e → engAt k t.dev = engAt k s.dev) ∧ t.dev.net.ports = s.dev.net.ports ∧ t.dev.regs = s.dev.regs) ∧
      (freeSpares bad = [] → s.dev.net.outside = [] → ∃ t, exec (.cellFault e pos) s = .next t ∧ pos ∈ (engAt e t.dev).down ∧ t.flash.repair = repairNow t.dev ∧
        (∀ p, p / 4 = e → portExists p s.dev = true → (portLanes p s.dev).contains pos = true → linkUp p t.dev = false) ∧
        (∀ p, ¬(p / 4 = e ∧ (portLanes p s.dev).contains pos = true) → portAt p t.dev = portAt p s.dev))) ∧
    (s.dev.start.ready = true → linkOpen s.dev = true →
      (∀ c r, freeSpares x = c :: r → ∃ t, exec (.laneSubstitute e pos) s = .next t ∧ engAt e t.dev = { x with sub := some (pos, c, now) } ∧
        getW .photServiceStatus 0 0 t.dev = 3 * 4096 + e * 256 + 1 ∧ t.dev.net.ports = s.dev.net.ports ∧
        Safety.SameRegs [addrOf .photServiceStatus 0 0] s.dev t.dev) ∧
      (freeSpares x = [] → ∃ t, exec (.laneSubstitute e pos) s = .next t ∧ t.dev.net = s.dev.net ∧
        getW .photServiceStatus 0 0 t.dev = 3 * 4096 + e * 256 + 4 ∧ Safety.SameRegs [addrOf .photServiceStatus 0 0] s.dev t.dev)) ∧
    (∀ (u : State) (c t0 : Nat), engAt e u.dev = { x with sub := some (pos, c, t0) } → e < u.dev.net.engines.length → pos < x.serves.length →
      u.dev.net.outside = [] →
      ∃ t, exec (.substitutionEnd e) u = .next t ∧ (engAt e t.dev).serves = x.serves.set pos c ∧ (engAt e t.dev).sub = none ∧
        pos ∉ (engAt e t.dev).down ∧ t.flash.repair = repairNow t.dev ∧
        (∀ p, p / 4 = e → portExists p u.dev = true → (portLanes p u.dev).contains pos = true → linkUp p t.dev = false) ∧
        (∀ p, ¬(p / 4 = e ∧ (portLanes p u.dev).contains pos = true) → portAt p t.dev = portAt p u.dev) ∧
        Safety.SameRegs ((List.range 4).map (fun k => addrOf .portStatus (4 * e + k) 0)) u.dev t.dev)

/-- R29, R34, R339 to R342: a laser unit inserted is CHECKING; one that reports 16 outputs at 1311 nm and 12 W or less rises once it reports its connector mated, any other is UNSUPPORTED and dark; a rise beside a lit partner
ends with both SHARING at 6 W or less, without one ALONE at 12 W or less; a unit that is removed or fails leaves its partner ALONE; LASER_DRAIN needs both SHARING, and leaves the group within 12 W;
LASER_CANCEL returns a DRAINING or DRAINED unit. -/
def Obligations.LaserUnits : Prop :=
  ∀ (s : State) (u : Nat), u < 8 → s.dev.net.lasers.length = 8 →
    let x := laserAt u s.dev
    let y := laserAt (partner u) s.dev
    let others := fun (t : State) => (∀ k, k ≠ u → k ≠ partner u → laserAt k t.dev = laserAt k s.dev) ∧ t.dev.tiers = s.dev.tiers
    (x.present = false → ∃ t, exec (.laserUnitInserted u) s = .next t ∧ others t ∧ laserAt (partner u) t.dev = y ∧
      laserAt u t.dev = { state := 1, present := true, fault := 0, draw := 0, rising := none }) ∧
    (x.state = 1 → x.rising = none →
      (∀ w, w ≤ 12 → ∃ t, exec (.laserCheckEnd u 16 1311 ⟨w, true⟩) s = .next t ∧ others t ∧ laserAt (partner u) t.dev = y ∧
        laserAt u t.dev = { x with rising := some (if lit (partner u) s.dev then 3 else 4) }) ∧
      (∀ w, w ≤ 12 → exec (.laserCheckEnd u 16 1311 ⟨w, false⟩) s = .next s) ∧
      (∀ o l w m, ¬(o = 16 ∧ l = 1311 ∧ w ≤ 12) → ∃ t, exec (.laserCheckEnd u o l ⟨w, m⟩) s = .next t ∧ others t ∧ laserAt (partner u) t.dev = y ∧
        (laserAt u t.dev).state = 2 ∧ (laserAt u t.dev).draw = 0)) ∧
    ((x.rising = some 3 ∨ x.rising = some 4 ∧ lit (partner u) s.dev = true) → ∃ t, exec (.laserRiseEnd u) s = .next t ∧ others t ∧
      (laserAt u t.dev).state = 3 ∧ (laserAt u t.dev).draw ≤ 60 ∧ (laserAt (partner u) t.dev).state = 3 ∧ (laserAt (partner u) t.dev).draw ≤ 60) ∧
    (x.rising = some 4 → lit (partner u) s.dev = false → ∃ t, exec (.laserRiseEnd u) s = .next t ∧ others t ∧
      (laserAt u t.dev).state = 4 ∧ (laserAt u t.dev).draw ≤ 120 ∧ laserAt (partner u) t.dev = y) ∧
    (x.rising = some 6 → ∃ t, exec (.laserRiseEnd u) s = .next t ∧ others t ∧
      (laserAt u t.dev).state = 6 ∧ (laserAt u t.dev).draw = 0 ∧ (y.state ≠ 4 → laserAt (partner u) t.dev = y) ∧
      (y.state = 4 → (laserAt (partner u) t.dev).state = 4 ∧ (laserAt (partner u) t.dev).draw ≤ 120)) ∧
    (x.present = true → lit (partner u) s.dev = true →
      (∃ t, exec (.laserUnitRemoved u) s = .next t ∧ others t ∧ laserAt u t.dev = Laser.empty ∧ (laserAt (partner u) t.dev).state = 4 ∧
        (laserAt (partner u) t.dev).draw ≤ 120 ∧ t.dev.net.ports = s.dev.net.ports) ∧
      (∀ c, ∃ t, exec (.laserUnitFault u c) s = .next t ∧ others t ∧ (laserAt u t.dev).state = 7 ∧ (laserAt u t.dev).fault = c % 256 ∧
        (laserAt u t.dev).draw = 0 ∧ (laserAt (partner u) t.dev).state = 4 ∧ (laserAt (partner u) t.dev).draw ≤ 120 ∧
        t.dev.net.ports = s.dev.net.ports)) ∧
    (x.present = true → lit (partner u) s.dev = false → ∃ t, exec (.laserUnitRemoved u) s = .next t ∧
      ∀ p, p / 8 = u / 2 → portExists p s.dev = true → linkUp p t.dev = false) ∧
    (s.dev.start.ready = true → linkOpen s.dev = true →
      (x.state = 3 → y.state = 3 → ∃ t, exec (.laserDrain u) s = .next t ∧ others t ∧ (laserAt u t.dev).state = 5 ∧ (laserAt u t.dev).rising = some 6 ∧
        (laserAt (partner u) t.dev).state = 4 ∧
        (laserAt u t.dev).draw = x.draw ∧ (laserAt (partner u) t.dev).draw ≤ 120 - x.draw ∧ getW .photServiceStatus 0 0 t.dev = 1 * 4096 + u * 256 + 1) ∧
      (¬(x.state = 3 ∧ y.state = 3) → ∃ t, exec (.laserDrain u) s = .next t ∧ t.dev.net = s.dev.net ∧
        getW .photServiceStatus 0 0 t.dev = 1 * 4096 + u * 256 + 3) ∧
      (x.state = 5 ∨ x.state = 6 → ∃ t, exec (.laserCancel u) s = .next t ∧ others t ∧ laserAt (partner u) t.dev = y ∧
        laserAt u t.dev = { x with rising := some (if lit (partner u) s.dev then 3 else 4) } ∧
        getW .photServiceStatus 0 0 t.dev = 2 * 4096 + u * 256 + 1) ∧
      (x.state ≠ 5 → x.state ≠ 6 → ∃ t, exec (.laserCancel u) s = .next t ∧ t.dev.net = s.dev.net ∧
        getW .photServiceStatus 0 0 t.dev = 2 * 4096 + u * 256 + 3))

/-- R17, R334, R337, R344, R345, R349: a frame that is received on a port that is up is counted under the first check that it fails, or, where it is not policed, enters its priority's receive
buffer where it fits, with the die's buffers at 64 MiB together at most (the model's choice, log entry 130), and is counted where it does not; a high symbol error ratio sets HIGH_SER; a watermark write that breaks a rule is discarded and sets
CONFLICT, and any other takes effect at once, but for a SIZE, which waits until its buffer is empty; a write to the block of a port that its engine's mode leaves unused is
counted and changes nothing else. -/
def Obligations.ReceiveBuffers : Prop :=
  (∀ (s : State) (p : Nat) (f : RxFrame), portExists p s.dev = true → linkUp p s.dev = true → bitOf (getW .portCtrl p 0 s.dev) 29 = false →
    let counted := fun (k : Nat) (d : Dev) => exec (.frameReceive p f) s = .next { s with dev := countPort p k 1 d }
    let k := framePrio p f s.dev
    (f.fcsOk = false → counted 0 s.dev) ∧
    (f.fcsOk = true → (f.length < 64 ∨ min 9216 (getF .portCtrl p 0 15 0 s.dev) < f.length) → counted 1 s.dev) ∧
    (f.fcsOk = true → 64 ≤ f.length → f.length ≤ min 9216 (getF .portCtrl p 0 15 0 s.dev) →
      (∀ op en q, f.macCtrl = some (op, en, q) → f.dst = 0x0180C2000001 →
        ((flowMode p s.dev = 1 ∧ op = 0x0101) ∨ (flowMode p s.dev = 2 ∧ op = 0x0001) →
          ∃ t, exec (.frameReceive p f) s = .next t ∧ exec (.pauseFrame p op en q) s = .next t ∧
            Tab.getD (portAt p t.dev).hw 5 0 = min 63 (Tab.getD (portAt p s.dev).hw 5 0 + 1)) ∧
        (¬((flowMode p s.dev = 1 ∧ op = 0x0101) ∨ (flowMode p s.dev = 2 ∧ op = 0x0001)) → exec (.frameReceive p f) s = .next s)) ∧
      ((f.macCtrl = none ∨ f.dst ≠ 0x0180C2000001) → filterPass p f.dst s.dev = false → counted 2 s.dev) ∧
      ((f.macCtrl = none ∨ f.dst ≠ 0x0180C2000001) → filterPass p f.dst s.dev = true → isPesyn p f s.dev = false → counted 3 s.dev) ∧
      (f.macCtrl = none → filterPass p f.dst s.dev = true → isPesyn p f s.dev = true → policerFor p k s.dev = none →
        ((bufAt p k s.dev).size * 16384 < (bufAt p k s.dev).fill + f.length ∨ 2 ^ 26 < bufferUse (p / 16) s.dev + f.length → counted 4 s.dev) ∧
        ((bufAt p k s.dev).fill + f.length ≤ (bufAt p k s.dev).size * 16384 → bufferUse (p / 16) s.dev + f.length ≤ 2 ^ 26 → ∃ t, exec (.frameReceive p f) s = .next t ∧
          (bufAt p k t.dev).frames = (bufAt p k s.dev).frames ++ [(f.length, false)] ∧ (∀ q, q ≠ p → portAt q t.dev = portAt q s.dev) ∧
          (flowMode p s.dev = 1 → bitOf (getF .flowCtrl p 0 23 16 s.dev) k = true → (bufAt p k s.dev).xoff = false → (bufAt p k s.dev).guarded = false →
            (portEnabled p s.dev = true → highOf p k s.dev ≤ (bufAt p k s.dev).fill + f.length →
              t.dev.out = s.dev.out ++ [.xoff p k (quantaOf p s.dev)] ∧ (bufAt p k t.dev).xoff = true) ∧
            ((bufAt p k s.dev).fill + f.length < highOf p k s.dev → t.dev.out = s.dev.out ∧ (bufAt p k t.dev).xoff = false)) ∧
          t.dev.regs = s.dev.regs ∧ t.dev.tiers = s.dev.tiers)))) ∧
  (∀ (s : State) (p : Nat) (unc : Bool), portExists p s.dev = true → ∃ t, exec (.highSer p unc) s = .next t ∧ getF .portStatus p 0 2 2 t.dev = 1 ∧
    Safety.SameRegs [addrOf .portStatus p 0] s.dev t.dev ∧
    (unc = true → Tab.getD (portAt p t.dev).hw 8 0 = min 63 (Tab.getD (portAt p s.dev).hw 8 0 + 1)) ∧ (unc = false → t.dev.net = s.dev.net)) ∧
  (∀ (s : State) (p k data : Nat), portExists p s.dev = true → k < 8 → s.dev.start.ready = true → linkOpen s.dev = true →
    let size := bitsOf data 23 16
    let high := bitsOf data 15 8
    let low := bitsOf data 7 0
    let old := getF .prioBuf p k 23 16 s.dev
    ((high ≤ low ∨ size < high ∨ (old < size ∧ 4096 < sizeSum (p / 16) s.dev - old + size)) →
      exec (.prioBufWrite p k data) s = .next { s with dev := setBit .portStatus p 0 4 s.dev }) ∧
    (¬(high ≤ low ∨ size < high ∨ (old < size ∧ 4096 < sizeSum (p / 16) s.dev - old + size)) →
      ∃ t, exec (.prioBufWrite p k data) s = .next t ∧ getF .prioBuf p k 23 0 t.dev = data % 2 ^ 24 ∧
        (bufAt p k t.dev).frames = (bufAt p k s.dev).frames ∧
        ((bufAt p k s.dev).frames = [] → (bufAt p k t.dev).size = size) ∧
        ((bufAt p k s.dev).frames ≠ [] → (bufAt p k t.dev).size = (bufAt p k s.dev).size) ∧
        Safety.SameRegs [addrOf .prioBuf p k] s.dev t.dev)) ∧
  (∀ (s : State) (p k data : Nat), portExists p s.dev = false → p < 32 → k < 8 → s.dev.start.ready = true → linkOpen s.dev = true →
    (∃ e, Safety.Counted 3 0xFF (addrOf .prioBuf p k) 4 true s.dev e ∧ exec (.prioBufWrite p k data) s = .next { s with dev := e }) ∧
    ∃ e, Safety.Counted 3 0xFF (addrOf .portCtrl p 0) 4 true s.dev e ∧ exec (.portCtrlWrite p data) s = .next { s with dev := e }) ∧
  (∀ (s : State) (p k : Nat), portExists p s.dev = true → k < 8 →
    ((bufAt p k s.dev).frames = [] → ∃ t, exec (.bufferSizeTakesEffect p k) s = .next t ∧
      bufAt p k t.dev = { bufAt p k s.dev with size := getF .prioBuf p k 23 16 s.dev } ∧ t.dev.regs = s.dev.regs) ∧
    ((bufAt p k s.dev).frames ≠ [] → exec (.bufferSizeTakesEffect p k) s = .next s))

/-- R346, R347, R348: an honoured pause holds its priorities, or the port, for its quanta, and a pause of quanta 0 or the end of the quanta releases them; XOFF is repeated while the fill
stays at or above LOW and FLOW_CTRL makes the port send it; each guard acts once STORM_MS has passed, sets STORM_SEEN and counts in PAUSE_GUARD, and a guarded priority honours pause again once 1 ms
passes without one. -/
def Obligations.PauseAndGuards : Prop :=
  ∀ (s : State) (p k : Nat), portExists p s.dev = true →
    let guarded := fun (t : State) => getF .portStatus p 0 3 3 t.dev = 1 ∧
      Tab.getD (portAt p t.dev).hw 11 0 = min 63 (Tab.getD (portAt p s.dev).hw 11 0 + 1) ∧ Safety.SameRegs [addrOf .portStatus p 0] s.dev t.dev
    (linkUp p s.dev = true → bitOf (getW .portCtrl p 0 s.dev) 29 = false → 64 ≤ getF .portCtrl p 0 15 0 s.dev → flowMode p s.dev = 1 → ∀ en q, ∃ t, exec (.pauseFrame p 0x0101 en q) s = .next t ∧
      (∀ j < 8, (bitOf en j = true ∧ bitOf (getF .flowCtrl p 0 23 16 s.dev) j = true) →
        ((∀ x, Tab.get (portAt p s.dev).pauses j = some x → x.ignored = false) → prioPaused p j t.dev = decide (q.getD j 0 % 65536 ≠ 0))) ∧
      (∀ j, ¬(j < 8 ∧ bitOf en j = true ∧ bitOf (getF .flowCtrl p 0 23 16 s.dev) j = true) →
        Tab.get (portAt p t.dev).pauses j = Tab.get (portAt p s.dev).pauses j) ∧
      Tab.getD (portAt p t.dev).hw 5 0 = min 63 (Tab.getD (portAt p s.dev).hw 5 0 + 1) ∧
      (∀ r, r ≠ p → portAt r t.dev = portAt r s.dev) ∧ t.dev.regs = s.dev.regs) ∧
    (linkUp p s.dev = true → bitOf (getW .portCtrl p 0 s.dev) 29 = false → 64 ≤ getF .portCtrl p 0 15 0 s.dev → flowMode p s.dev = 2 → (∀ x, Tab.get (portAt p s.dev).pauses 8 = some x → x.ignored = false) → ∀ en q,
      ∃ t, exec (.pauseFrame p 0x0001 en q) s = .next t ∧ (∀ j, prioPaused p j t.dev = decide (q.getD 0 0 % 65536 ≠ 0)) ∧ t.dev.regs = s.dev.regs) ∧
    (∀ x t0, Tab.get (portAt p s.dev).pauses k = some x → x.until_ = some t0 → t0 ≤ clock (fdie (p / 16)) s.dev →
      ∃ t, exec (.pauseExpiry p k) s = .next t ∧ Tab.get (portAt p t.dev).pauses k = some { x with until_ := none } ∧
        (∀ j, j ≠ k → Tab.get (portAt p t.dev).pauses j = Tab.get (portAt p s.dev).pauses j) ∧ t.dev.regs = s.dev.regs) ∧
    (∀ x, Tab.get (portAt p s.dev).pauses k = some x → pausedKey p k s.dev = true →
      (x.since + stormTicks p s.dev ≤ clock (fdie (p / 16)) s.dev → ∃ t, exec (.pauseStormGuard p k) s = .next t ∧ guarded t ∧
        Tab.get (portAt p t.dev).pauses k = some { x with ignored := true, until_ := none } ∧ pausedKey p k t.dev = false) ∧
      (clock (fdie (p / 16)) s.dev < x.since + stormTicks p s.dev → exec (.pauseStormGuard p k) s = .next s)) ∧
    (∀ x, Tab.get (portAt p s.dev).pauses k = some x → x.ignored = true →
      (x.lastSeen + 8000 ≤ clock (fdie (p / 16)) s.dev → ∃ t, exec (.pauseGuardEnd p k) s = .next t ∧
        Tab.get (portAt p t.dev).pauses k = some { x with ignored := false } ∧ t.dev.regs = s.dev.regs) ∧
      (clock (fdie (p / 16)) s.dev < x.lastSeen + 8000 → exec (.pauseGuardEnd p k) s = .next s)) ∧
    (∀ t0, k < 8 → flowMode p s.dev = 1 → bitOf (getF .flowCtrl p 0 23 16 s.dev) k = true → (bufAt p k s.dev).highAt = some t0 →
      (bufAt p k s.dev).guarded = false → t0 + stormTicks p s.dev ≤ clock (fdie (p / 16)) s.dev →
      ∃ t, exec (.bufferStormGuard p k) s = .next t ∧ guarded t ∧ (bufAt p k t.dev).guarded = true ∧ (bufAt p k t.dev).xoff = false ∧
        (bufAt p k t.dev).frames = (bufAt p k s.dev).frames ∧
        (portSends p s.dev = true → bitOf (getW .portCtrl p 0 s.dev) 29 = false → t.dev.out = s.dev.out ++ [.xoff p k 0]) ∧
        (portSends p s.dev = false → t.dev.out = s.dev.out)) ∧
    (k < 8 → keySends p k s.dev = false → exec (.xoffRepeat p k) s = .next s) ∧
    (k < 8 → keySends p k s.dev = true → (bufAt p k s.dev).xoff = true → lowOf p k s.dev ≤ (bufAt p k s.dev).fill →
      ((bufAt p k s.dev).repAt ≤ clock (fdie (p / 16)) s.dev → portSends p s.dev = true → bitOf (getW .portCtrl p 0 s.dev) 29 = false → ∃ t, exec (.xoffRepeat p k) s = .next t ∧ t.dev.out = s.dev.out ++ [.xoff p k (quantaOf p s.dev)] ∧
        bufAt p k t.dev = { bufAt p k s.dev with repAt := clock (fdie (p / 16)) s.dev + quantaTicks p (quantaOf p s.dev) s.dev / 2 } ∧
        Tab.getD (portAt p t.dev).hw 6 0 = min 63 (Tab.getD (portAt p s.dev).hw 6 0 + 1) ∧ t.dev.regs = s.dev.regs) ∧
      (clock (fdie (p / 16)) s.dev < (bufAt p k s.dev).repAt → exec (.xoffRepeat p k) s = .next s))

/-- R351, R352, R370: a sample adds each hardware counter of the port to its 64-bit counter, clears it, and marks a saturated one inexact; STATS_SELECT and POLICE_STATS_SELECT choose
a counter or clear it with its mark, and a read of the low half answers it and latches the high half. -/
def Obligations.PortStatistics : Prop :=
  (∀ (s : State) (p : Nat), portExists p s.dev = true → Tab.wf (portAt p s.dev).hw = true → (∀ k, Tab.getD (portAt p s.dev).ext k 0 < 2 ^ 64) →
    ∃ t, exec (.statsSample p) s = .next t ∧ (portAt p t.dev).hw = [] ∧
      (∀ k, Tab.getD (portAt p t.dev).ext k 0 = (Tab.getD (portAt p s.dev).ext k 0 + Tab.getD (portAt p s.dev).hw k 0) % 2 ^ 64) ∧
      (∀ k, k ∈ (portAt p t.dev).inexact ↔ k ∈ (portAt p s.dev).inexact ∨ Tab.get (portAt p s.dev).hw k = some 63) ∧
      ((∃ k, Tab.get (portAt p s.dev).hw k = some 63) → getF .portStatus p 0 0 0 t.dev = 1) ∧
      Safety.SameRegs [addrOf .portStatus p 0] s.dev t.dev ∧ (portAt p t.dev).data = (portAt p s.dev).data ∧
      (∀ q, q ≠ p → portAt q t.dev = portAt q s.dev)) ∧
  (∀ (s : State) (data : Nat), s.dev.start.ready = true → linkOpen s.dev = true →
    (∃ t, exec (.statsSelectWrite data) s = .next t ∧ getF .statsSelect 0 0 12 8 t.dev = bitsOf data 12 8 ∧
      getF .statsSelect 0 0 3 0 t.dev = bitsOf data 3 0 ∧ Safety.SameRegs [addrOf .statsSelect 0 0] s.dev t.dev ∧
      (bitOf data 30 = false → t.dev.net = s.dev.net) ∧
      (bitOf data 30 = true → statsNow t.dev = (0, false) ∧
        ∀ q, q ≠ bitsOf data 12 8 → portAt q t.dev = portAt q s.dev)) ∧
    (∃ t, exec (.policeStatsSelectWrite data) s = .next t ∧ getF .policeStatsSelect 0 0 9 0 t.dev = data % 2 ^ 10 ∧
      Safety.SameRegs [addrOf .policeStatsSelect 0 0] s.dev t.dev ∧ t.dev.net.ports = s.dev.net.ports ∧
      (bitOf data 30 = false → t.dev.net = s.dev.net) ∧ (bitOf data 30 = true → policeNow t.dev = (0, false)))) ∧
  (∀ s : State, s.dev.start.ready = true → linkOpen s.dev = true →
    exec (.statsDataLoRead 0xFF) s = .next { s with dev :=
      { s.dev with reply := .value ((statsNow s.dev).1 % 2 ^ 32), net := { s.dev.net with latchHi := (statsNow s.dev).1 / 2 ^ 32 } } } ∧
    exec (.policeStatsDataLoRead 0xFF) s = .next { s with dev :=
      { s.dev with reply := .value ((policeNow s.dev).1 % 2 ^ 32), net := { s.dev.net with latchPol := (policeNow s.dev).1 / 2 ^ 32 } } })

/-- R282, R356, R358, R359, R362, R363: a frame whose message's send window is over leaves its port unsent; at a frame boundary the frame on the wire goes out whole and, on an enabled port that is up, the first control frame starts where the control shaper has tokens,
else a data frame; a port that is down or disabled starts none; a leaf whose shaper reaches positive tokens is held no more, and starts at the later of its start tag and its node's virtual time; a write that changes a shaper sets its
tokens full or empty. -/
def Obligations.EgressAndShapers : Prop :=
  (∀ (s : State) (p : Nat), portExists p s.dev = true → (portAt p s.dev).wire = none → s.dev.net.outside = [] →
    ∃ t, exec (.portFrameBoundary p) s = .next t ∧ (∀ f, (portAt p t.dev).wire = some f → f.late s.dev = false) ∧
      ∀ f ∈ (portAt p t.dev).control ++ (portAt p t.dev).data, f.late s.dev = false) ∧
  (∀ (s : State) (p : Nat), portExists p s.dev = true → (∀ f ∈ (portAt p s.dev).control ++ (portAt p s.dev).data, f.late s.dev = false) →
    (∀ f, (portAt p s.dev).wire = some f → (linkUp p s.dev && portEnabled p s.dev) = false → bitOf (getW .portCtrl p 0 s.dev) 29 = false →
      s.dev.net.outside = [] → ∃ t, exec (.portFrameBoundary p) s = .next t ∧
      (portAt p t.dev).wire = none ∧ t.dev.out = s.dev.out ++ [.frame p f (List.replicate 7 0x55 ++ [0xD5] ++ f.octets)] ∧
      (portAt p t.dev).control = (portAt p s.dev).control ∧ (portAt p t.dev).data = (portAt p s.dev).data) ∧
    ((portAt p s.dev).wire = none → linkUp p s.dev = true → portEnabled p s.dev = true →
      (∀ f r, (portAt p s.dev).control = f :: r → 0 < ctrlTokens p s.dev → prioPaused p (getF .pesynMark 0 0 30 28 s.dev) s.dev = false →
        ∃ t, exec (.portFrameBoundary p) s = .next t ∧ (portAt p t.dev).wire = some f ∧ (portAt p t.dev).control = r ∧
          (portAt p t.dev).data = (portAt p s.dev).data ∧
          ctrlTokens p t.dev = max (-303072) (ctrlTokens p s.dev - ((f.bytes + 20) * 32 : Nat)) ∧
          t.dev.net.shapers = s.dev.net.shapers ∧ t.dev.out = s.dev.out) ∧
      (∀ f r l, (portAt p s.dev).control = [] → (portAt p s.dev).data = f :: r → (∀ g ∈ f :: r, g.leaf = some l) → l < 4096 → leafParent l s.dev = 0 →
        prioPaused p (getF .pesynMark 0 0 27 25 s.dev) s.dev = false → shaperOpen (p / 16) l s.dev = true → shaperOpen (p / 16) 4096 s.dev = true →
        ∃ t, exec (.portFrameBoundary p) s = .next t ∧ (portAt p t.dev).wire = some f ∧ (portAt p t.dev).data = r ∧ t.dev.out = s.dev.out ∧
          (∀ k, k = l ∨ k = 4096 → shaperOn (p / 16) k s.dev = true → tokens (p / 16) k t.dev =
            max (-303072) (tokens (p / 16) k s.dev - ((f.bytes + getF .shaperBurst (p / 16) k 31 24 s.dev) * 32 : Nat)))) ∧
      ((portAt p s.dev).control = [] → (portAt p s.dev).data ≠ [] → prioPaused p (getF .pesynMark 0 0 27 25 s.dev) s.dev = true →
        exec (.portFrameBoundary p) s = .next s))) ∧
  (∀ (s : State) (i k : Nat), i < 2 → k < 4608 → shaperOpen i k s.dev = true → ∃ t, exec (.shaperTokensPositive i k) s = .next t ∧
    (∀ p, p / 16 = i → (portAt p t.dev).data = (portAt p s.dev).data ∧ (portAt p t.dev).vtime = (portAt p s.dev).vtime ∧
      (k < 4096 → k ∉ (portAt p t.dev).held ∧ (k ∈ (portAt p s.dev).held → k ∈ backlogged (portAt p s.dev) s.dev →
        let v := Tab.getD (portAt p s.dev).vtime (leafParent k s.dev) 0
        Tab.getD (portAt p t.dev).starts k 0 = if tagBefore (startOf (portAt p s.dev) k) v then v else startOf (portAt p s.dev) k))) ∧
    (∀ p, p / 16 ≠ i → portAt p t.dev = portAt p s.dev) ∧ t.dev.regs = s.dev.regs) ∧
  (∀ (s : State) (i k word data : Nat), i < 2 → k < 4096 → word < 2 → s.dev.start.ready = true → linkOpen s.dev = true → data < 2 ^ 32 →
    let n := if word = 0 then RegName.shaperRate else RegName.shaperBurst
    (∀ r, rowOf n = some r → r.write (getW n i k s.dev) data = getW n i k s.dev → exec (.shaperWrite i k word data) s = .next s) ∧
    (∀ r, rowOf n = some r → r.write (getW n i k s.dev) data ≠ getW n i k s.dev → ∃ t, exec (.shaperWrite i k word data) s = .next t ∧
      getW n i k t.dev = r.write (getW n i k s.dev) data ∧
      (shaperOn i k t.dev = true → tokens i k t.dev =
        if getF .shaperRate i k 30 30 t.dev = 1 then ((getF .shaperBurst i k 15 0 t.dev * 32768 : Nat) : Int) else 0) ∧
      Safety.SameRegs [addrOf n i k] s.dev t.dev ∧ ∀ p, (portAt p t.dev).control = (portAt p s.dev).control ∧
        (portAt p t.dev).data = (portAt p s.dev).data ∧ (portAt p t.dev).wire = (portAt p s.dev).wire))

/-- R368: a write that changes any field of a policer sets both of its buckets full, and the next frame that reaches it is coloured by the words as
written, from full buckets; a write that changes nothing does nothing. -/
def Obligations.PolicerWrites : Prop :=
  ∀ (s : State) (i k word data : Nat) (r : RegRow), i < 2 → k < 128 → word < 4 → s.dev.start.ready = true → linkOpen s.dev = true → data < 2 ^ 32 →
    rowOf (policerReg word) = some r →
    (r.write (getW (policerReg word) i k s.dev) data = getW (policerReg word) i k s.dev → exec (.policerWrite i k word data) s = .next s) ∧
    (r.write (getW (policerReg word) i k s.dev) data ≠ getW (policerReg word) i k s.dev → ∃ t, exec (.policerWrite i k word data) s = .next t ∧
      getW (policerReg word) i k t.dev = r.write (getW (policerReg word) i k s.dev) data ∧ polNow i k t.dev = polSizes i k t.dev ∧
      Safety.SameRegs [addrOf (policerReg word) i k] s.dev t.dev ∧ t.dev.net.ports = s.dev.net.ports ∧
      ∀ (p prio : Nat) (f : RxFrame), p / 16 = i → policerFor p prio t.dev = some k → bitOf (getW .policerCfg i k t.dev) 31 = true →
        let c := meter (bitOf (getW .policerCfg i k t.dev) 30) (priorColour (getW .policerCfg i k t.dev) f t.dev) (f.length * 32) (polSizes i k t.dev)
        (police p prio f t.dev).1 = (decide (c.1 ≠ 2) || decide (bitsOf (getW .policerCfg i k t.dev) 26 25 = 1 ∨ bitsOf (getW .policerCfg i k t.dev) 26 25 = 2)) ∧
        polNow i k (police p prio f t.dev).2.2 = c.2)

/-! ## The host link (13) -/

/-- R372, R373, R385, R386, R388, R389: the flit in sequence is accepted, any other makes the module ask for replay, once for a missing flit (log entry 151);
16 replays in 1 ms or a lost lane retrain the link, and a retrain ends at ×8 or ×4, a ×4 link widening only after WIDEN, or goes on; the host's
transactions that are given in a retrain wait, and happen at its end in their order; when
retrains fail for DOWN_MS, or the card reports a loss, HOST_EPOCH rises, reads of host memory fail, queues, rings and mirrors in host memory are detached and detached queues
enter ERROR; a restored link sets LINK_RESTORED and re-attaches nothing. -/
def Obligations.MelelLink : Prop :=
  (∀ (s : State) (seq : Nat) (ok : Bool), s.dev.link.up = true → s.dev.link.retrain = false →
    (ok = true → seq % 4096 = s.dev.link.seqNext → ∃ t, exec (.flitError seq ok) s = .next t ∧
      t.dev.link.seqNext = (seq + 1) % 4096 ∧ t.dev.regs = s.dev.regs ∧ t.dev.out = s.dev.out) ∧
    (s.dev.link.replaying = true → seq % 4096 ≠ s.dev.link.seqNext → exec (.flitError seq ok) s = .next s) ∧
    (¬(ok = true ∧ seq % 4096 = s.dev.link.seqNext) → (s.dev.link.replaying = false ∨ seq % 4096 = s.dev.link.seqNext) → ∃ t, exec (.flitError seq ok) s = .next t ∧ t.dev.link.seqNext = s.dev.link.seqNext ∧
      t.dev.out = s.dev.out ++ [.replay s.dev.link.seqNext] ∧ clock iodie s.dev ∈ t.dev.link.replays ∧
      getF .melelCounts 0 0 31 16 t.dev = min 65535 (getF .melelCounts 0 0 31 16 s.dev + 1) ∧ Safety.SameRegs [addrOf .melelCounts 0 0] s.dev t.dev)) ∧
  (∀ (s : State) (lost : Bool), s.dev.link.up = true → s.dev.link.retrain = false →
    ((lost = true ∨ 16 ≤ (s.dev.link.replays.filter (fun r => decide (clock iodie s.dev < r + 8000))).length) →
      ∃ t, exec (.linkRetrain lost) s = .next t ∧ t.dev.link.retrain = true ∧ t.dev.link.width = s.dev.link.width ∧
        (s.dev.link.firstTry = none → t.dev.link.firstTry = some (clock iodie s.dev)) ∧ t.dev.link.seqNext = s.dev.link.seqNext ∧ t.dev.q = s.dev.q ∧
        t.dev.link.reads = s.dev.link.reads ∧ getF .melelCounts 0 0 15 8 t.dev = min 255 (getF .melelCounts 0 0 15 8 s.dev + 1)) ∧
    (lost = false → (s.dev.link.replays.filter (fun r => decide (clock iodie s.dev < r + 8000))).length < 16 → exec (.linkRetrain lost) s = .next s) ∧
    (s.dev.start.ready = true → linkOpen s.dev = true → s.dev.link.width = 1 → ∃ t, exec .widen s = .next t ∧ t.dev.link.retrain = true ∧ t.dev.q = s.dev.q) ∧
    (s.dev.start.ready = true → linkOpen s.dev = true → s.dev.link.width ≠ 1 → exec .widen s = .next s)) ∧
  (∀ s : State, s.dev.start.ready = true → s.dev.link.up = true → s.dev.link.lost = false → s.dev.link.retrain = true →
    let held := fun (i : HostTx) => Host.Outcome.next { s with dev := { s.dev with link := { s.dev.link with held := s.dev.link.held ++ [i] } } }
    exec .widen s = held .widen ∧
    (∀ n off data, exec (.apertureWrite n off data) s = held (.apertureWrite n off data)) ∧
    (∀ fn off width data, exec (.wqDoorbell fn off width data) s = held (.wqDoorbell fn off width data)) ∧
    (∀ fn off width data, exec (.controlSpaceWrite fn off width data) s = held (.controlSpaceWrite fn off width data)) ∧
    (∀ id a, exec (.hostReadCompletion id a) s = held (.hostReadCompletion id a)) ∧
    (∀ id, exec (.flushReadReturn id) s = held (.flushReadReturn id))) ∧
  (∀ (s : State) (lanes : Nat), lanes < 256 → s.dev.link.retrain = true → Safety.Quiet s.dev → s.dev.link.waiting = [] →
    (∀ p ∈ s.dev.q.wqs, ∀ x ∈ p.2.flight, x.done = none) →
    ((lanes % 16 = 15 ∨ lanes / 16 = 15) → ∃ e, exec (.retrainEnd lanes) s = .next (s.dev.link.held.foldl replayRow { s with dev := e }) ∧
      e.link.width = (if lanes = 255 ∧ (s.dev.link.width ≠ 1 ∨ s.dev.link.widening = true) then 2 else 1) ∧ e.link.retrain = false ∧
      e.link.firstTry = none ∧ e.link.widening = false ∧ e.link.held = [] ∧ e.q = s.dev.q ∧ e.tiers = s.dev.tiers ∧
      (lanes = 255 → e.regs = s.dev.regs) ∧ (lanes ≠ 255 → getF .melelEvents 0 0 2 2 e = 1)) ∧
    (lanes % 16 ≠ 15 → lanes / 16 ≠ 15 → ∃ t, exec (.retrainEnd lanes) s = .next t ∧ t.dev.link.retrain = true ∧ t.dev.q = s.dev.q ∧
      (∀ t0, s.dev.link.firstTry = some t0 → t.dev.link.firstTry = some t0))) ∧
  (∀ (s : State), s.dev.start.ready = true → s.dev.link.trained = false →
    ∃ t, exec (.melelLinkTrained 255) s = .next t ∧ t.dev.link.up = true ∧ t.dev.link.width = 2 ∧ t.dev.link.trained = true ∧ t.dev.q = s.dev.q) ∧
  (∀ (s : State), Safety.Quiet s.dev → s.dev.link.up = true → s.dev.link.lost = false → s.dev.xl.faults = [] → s.dev.link.behind = [] → s.dev.link.waiting = [] →
    (∀ p ∈ s.dev.q.wqs, p.2.flight = []) → s.dev.upd.pulling = none →
    let lost := fun (bit : Nat) (t : State) => t.dev.link.lost = true ∧ t.dev.link.epoch = (s.dev.link.epoch + 1) % 65536 ∧
      getF .melelEvents 0 0 bit bit t.dev = 1 ∧ getF .melelCounts 0 0 7 0 t.dev = min 255 (getF .melelCounts 0 0 7 0 s.dev + 1) ∧
      t.dev.link.reads = [] ∧ t.dev.link.flushes = [] ∧ t.dev.xl.rings = [] ∧ t.dev.link.hostMem = s.dev.link.hostMem ∧ t.dev.tiers = s.dev.tiers ∧
      (∀ n, n < 64 → getF .adminCtrl n 0 31 31 t.dev = 0) ∧
      (∀ q w, wqAt q s.dev = some w → w.loc = 0 → w.feed ≠ 2 → ∃ x, wqAt q t.dev = some x ∧ x.detached = true ∧
        x.state = (if w.state = 0 then 1 else w.state) ∧ x.c = w.c) ∧
      (∀ q w, wqAt q s.dev = some w → w.loc ≠ 0 → w.detached = false → (∀ c, crAt w.cr s.dev = some c → c.loc ≠ 0 ∧ c.detached = false) →
        wqAt q t.dev = some w) ∧
      (∀ r c, crAt r s.dev = some c → crAt r t.dev = some (if c.loc = 0 then { c with detached := true } else c)) ∧
      (∀ r c, Tab.get s.dev.q.ctrs r = some c → Tab.get t.dev.q.ctrs r =
        some (if c.mirror.map Prod.fst = some 0 then { c with mirror := none } else c))
    (∀ c, ∃ t, exec (.hostLinkLoss c) s = .next t ∧ lost (match c with | .pcieDown => 0 | _ => 1) t ∧ t.dev.link.up = true) ∧
    (∀ t0, s.dev.link.retrain = true → s.dev.link.firstTry = some t0 → t0 + 8000 * max 1 (getF .melelCtrl 0 0 7 0 s.dev) ≤ clock iodie s.dev →
      ∃ t, exec .downMsExpiry s = .next t ∧ lost 0 t ∧ t.dev.link.up = false)) ∧
  (∀ (s : State), s.dev.link.up = true → s.dev.link.retrain = false → s.dev.link.lost = true →
    ∃ t, exec .hostLinkRestored s = .next t ∧ t.dev.link = { s.dev.link with lost := false } ∧ getF .melelEvents 0 0 3 3 t.dev = 1 ∧
      Safety.SameRegs [addrOf .melelEvents 0 0] s.dev t.dev ∧ t.dev.q = s.dev.q)

/-- R203, R223, R377, R378, R380, R382 to R384, R536: a host DMA descriptor that is admitted takes the engine's grant and those of the DDR5 channels that it uses, and starts its transfer; the
host's answer to the read of an admin entry becomes the head, stops the reading where OWN is clear and no doorbell came meanwhile, or ends it with ACCESS or INTERNAL and is
counted; without an answer for 10 ms the read ends with INTERNAL; a flush read that returns ends its transfer with OK, or the descriptor whose end waited for it, and one that the
host refuses fails its transfer;
an aperture access reads or writes the bytes of its pages, and one that is refused is counted and changes no memory. -/
def Obligations.HostTransfers : Prop :=
  (∀ (s : State) (q : Nat) (w : WQ) (h : Head) (d : Dev) (c : Instr), Safety.Judged q w h s d →
    (h.opcode = 0x30 ∧ c = .hostToDevice q ∨ h.opcode = 0x31 ∧ c = .deviceToHost q) →
    let fr := bufferFrags h.bytes h.table
    let g := currentFor q [(.hostDma (q % 2), d.upd.costs.hostDma)] (touched w.ctx (fr ++ bufferTableRange h.bytes) (queueEng q) d) d
    let e := startDma q h.idx (decide (h.opcode = 0x30)) w.inst w.ctx (fieldLE h.bytes 16 8) fr (fragsLen fr)
      (admitHead q (expiryOf (h.die q) w h d) (devUsOf w d) g.1)
    (d.link.retrain = false → commonOk q w h d = true → g.2 = true → exec c s = Safety.decided q h e s) ∧
    (d.link.retrain = false → commonOk q w h d = true → g.2 = false → exec c s = Safety.decided q h g.1 s) ∧
    (d.link.retrain = true ∨ commonOk q w h d = false → exec c s = Safety.decided q h d s)) ∧
  (∀ (s : State) (id n idx : Nat) (x : HostRead), Tab.get s.dev.link.reads id = some x → x.why = .adminEntry n idx → x.len = 64 →
    (adminAt n s.dev).reading = true → (adminAt n s.dev).c = idx →
    let took := fun (t : State) (st : Nat) => (adminAt n t.dev).reading = false ∧
      ∃ h, (adminAt n t.dev).head = some h ∧ h.idx = idx ∧ h.bad = some st ∧ t.dev.link.hostMem = s.dev.link.hostMem
    (s.dev.link.retrain = false →
      (∀ l, l.length = 64 → bitOf (l.getD 63 0).toNat 7 = true → ∃ t h, exec (.hostReadCompletion id (.data l)) s = .next t ∧
        (adminAt n t.dev).reading = false ∧ (adminAt n t.dev).head = some h ∧ h.bytes = l ∧ h.idx = idx ∧ h.bad = none ∧ t.dev.regs = s.dev.regs) ∧
      (∀ l, l.length = 64 → bitOf (l.getD 63 0).toNat 7 = false →
        ((adminAt n s.dev).again = false → ∃ t, exec (.hostReadCompletion id (.data l)) s = .next t ∧
          (adminAt n t.dev).reading = false ∧ (adminAt n t.dev).stalled = true ∧ (adminAt n t.dev).head = (adminAt n s.dev).head) ∧
        ((adminAt n s.dev).again = true → ∃ e, exec (.hostReadCompletion id (.data l)) s = .next { s with dev := tryAdmin n e } ∧
          (adminAt n e).reading = false ∧ (adminAt n e).stalled = false ∧ (adminAt n e).again = false ∧ e.regs = s.dev.regs)) ∧
      (∃ t, exec (.hostReadCompletion id .refused) s = .next t ∧ took t 3 ∧
        getF .hostErrors 0 0 31 24 t.dev = min 255 (getF .hostErrors 0 0 31 24 s.dev + 1)) ∧
      (∃ t, exec (.hostReadCompletion id .poisoned) s = .next t ∧ took t 0xF ∧
        getF .hostErrors 0 0 23 16 t.dev = min 255 (getF .hostErrors 0 0 23 16 s.dev + 1))) ∧
    (x.since + 80000 ≤ clock iodie s.dev → ∃ t, exec (.hostCompletionTimeout id) s = .next t ∧ took t 0xF ∧
      getF .hostErrors 0 0 15 8 t.dev = min 255 (getF .hostErrors 0 0 15 8 s.dev + 1)) ∧
    (clock iodie s.dev < x.since + 80000 → exec (.hostCompletionTimeout id) s = .next s)) ∧
  (∀ (s : State) (id q idx since k : Nat) (m : Dma), Tab.get s.dev.link.flushes id = some (q, idx, since) → dmaAt q idx s.dev = some (k, m) →
    m.flush = true → s.dev.link.retrain = false →
    let gone := fun (d : Dev) => { d with link := { d.link with flushes := Tab.erase d.link.flushes id } }
    ((∀ b ∈ s.dev.link.behind, b.id ≠ id) → exec (.flushReadReturn id) s = Safety.sent (pumpEngine (q % 2) (okDesc q idx 0 m.len
      { markHost q idx false (gone s.dev) with link := { (gone s.dev).link with dmas := Tab.erase s.dev.link.dmas k } })) s) ∧
    (Tab.get s.dev.link.reads id = none → exec (.hostReadCompletion id .refused) s =
      Safety.sent (pumpEngine (q % 2) (failDesc q idx 3 3 (markHost q idx false (gone (countF .hostErrors 0 0 31 24 1 s.dev))))) s)) ∧
  (∀ (s : State) (id q idx since : Nat) (b : Behind), Tab.get s.dev.link.flushes id = some (q, idx, since) →
    s.dev.link.behind.find? (fun b => b.id == id) = some b → s.dev.link.retrain = false →
    exec (.flushReadReturn id) s =
      Safety.sent (endBehind b.q b.idx { s.dev with link := { s.dev.link with flushes := Tab.erase s.dev.link.flushes id } }) s) ∧
  (∀ (s : State) (n off : Nat), hostOpen s.dev = true → s.dev.link.retrain = false →
    (∀ width d0, apertureMap n off width .read s.dev = (d0, none) → ∃ t, exec (.apertureRead n off width) s = .next t ∧ t.dev.reply = .unsupported ∧
      getF .hostErrors 0 0 7 0 t.dev = min 255 (getF .hostErrors 0 0 7 0 s.dev + 1) ∧ t.dev.tiers.dev = s.dev.tiers.dev ∧ t.dev.xl = s.dev.xl) ∧
    (∀ width d0 ps, apertureMap n off width .read s.dev = (d0, some ps) → badWords ps d0 = [] →
      ∃ t, exec (.apertureRead n off width) s = .next t ∧
        t.dev.reply = .bytes (ps.flatMap (fun p => Mem.readN s.dev.tiers.dev p.1 p.2)) false ∧ t.dev.tiers.dev = s.dev.tiers.dev ∧
        t.dev.q = s.dev.q ∧ t.dev.link = s.dev.link) ∧
    (∀ data d0, apertureMap n off data.length .write s.dev = (d0, none) → ∃ t, exec (.apertureWrite n off data) s = .next t ∧
      getF .hostErrors 0 0 7 0 t.dev = min 255 (getF .hostErrors 0 0 7 0 s.dev + 1) ∧ t.dev.tiers.dev = s.dev.tiers.dev ∧ t.dev.xl = s.dev.xl) ∧
    (∀ data d0 ps, apertureMap n off data.length .write s.dev = (d0, some ps) → exec (.apertureWrite n off data) s =
      .next { s with dev := (writePieces ps data d0).1 } ∧ d0.tiers.dev = s.dev.tiers.dev) ∧
    (∀ data d0 a, apertureMap n off data.length .write s.dev = (d0, some [(a, data.length)]) → d0.xl.move = none → badWords [(a, data.length)] d0 = [] →
      a / 2 ^ 26 = (a + data.length - 1) / 2 ^ 26 → frameLost (a / 2 ^ 26) d0 = false →
      ∃ t, exec (.apertureWrite n off data) s = .next t ∧ (∀ i, (h : i < data.length) → Mem.read t.dev.tiers.dev (a + i) = data[i]) ∧
        (∀ b, b < a ∨ a + data.length ≤ b → Mem.read t.dev.tiers.dev b = Mem.read s.dev.tiers.dev b) ∧ t.dev.regs = d0.regs))

/-! ## Virtual instances and keys (14, 15) -/

/-- R135, R394, R395, R397 to R399, R403, R405, R407: an instance reset raises the generation, enters RESETTING and destroys every object of its instance and no other's; QUIESCED follows with every frame
of the instance zero-filled and free and its bit set; RELEASE makes it ACTIVE, with a GENERATION notice where its admin queue is enabled; a share is taken
where both sums stay within 256, and refused with CONFLICT otherwise. -/
def Obligations.InstanceLife : Prop :=
  (∀ (s : State) (n : Nat), n < 64 → s.dev.start.ready = true → (instAt n s.dev).state = 1 ∨ (instAt n s.dev).state = 3 →
    (∀ l ∈ s.dev.bricks.launches, l.2.inst ≠ n) → (∀ i, (pesAt i s.dev).msgs = [] ∧ (pesAt i s.dev).slots = []) →
    (∀ c ∈ s.dev.colls.comms, c.2.inst ≠ n) → s.dev.link.dmas = [] → s.dev.xl.move = none → s.dev.xl.queued = [] →
    let g := ((instAt n s.dev).gen + 1) % 65536
    ∃ e, exec (.instanceReset n) s = Safety.sent e s ∧ (instAt n e).state = 2 ∧ (instAt n e).gen = g ∧
      (∀ m, m ≠ n → instAt m e = instAt m s.dev) ∧
      (∀ q w, wqAt q e = some w → w.inst ≠ n) ∧ (∀ r c, crAt r e = some c → c.inst ≠ n) ∧ (∀ k c, Tab.get e.q.ctrs k = some c → c.inst ≠ n) ∧
      (∀ k c, Tab.get e.xl.ctxs k = some c → c.inst ≠ n) ∧ (∀ k x, Tab.get e.rem.doms k = some x → x.inst ≠ n) ∧
      (∀ k r, Tab.get e.rem.regions k = some r → r.inst ≠ n) ∧ (∀ key r, regionOf key s.dev = some r → r.inst = n → regionOf key e = none) ∧
      (∀ q w, wqAt q s.dev = some w → w.inst ≠ n → wqAt q e = some w) ∧
      (∀ k c, Tab.get s.dev.xl.ctxs k = some c → c.inst ≠ n → Tab.get e.xl.ctxs k = some c) ∧
      (adminAt n e).p = 0 ∧ (adminAt n e).c = 0 ∧ (adminAt n e).wr = 0 ∧ (adminAt n e).written = 0 ∧ (adminAt n e).head = none ∧
      (∀ die < 8, ∀ i < (windowNow n s.dev).1 * 2 ^ 18, Mem.read e.tiers.basin (die * 2 ^ 27 + (windowNow n s.dev).2 * 2 ^ 18 + i) = 0) ∧
      e.tiers.dev = s.dev.tiers.dev ∧
      getF .instUsage n 0 31 24 e = min 255 (getF .instUsage n 0 31 24 s.dev + 1)) ∧
  (∀ (s : State) (n : Nat), (instAt n s.dev).state = 2 → exec (.instanceReset n) s = Safety.sent s.dev s) ∧
  (∀ (s : State) (n : Nat), n < 64 → (instAt n s.dev).state = 2 → oldTokens n s.dev = false → s.dev.xl.move = none → s.dev.xl.queued = [] →
    getF .instCtrl n 0 30 30 s.dev = 0 →
    ∃ e, exec (.instanceQuiesced n) s = Safety.sent e s ∧ (instAt n e).state = 3 ∧ (instAt n e).gen = (instAt n s.dev).gen ∧
      (∀ k l, Tab.get e.xl.lfns k = some l → l.inst ≠ n) ∧
      (∀ p ∈ s.dev.xl.lfns, p.2.inst = n → ∀ i < 2 ^ 26, Mem.read e.tiers.dev (p.2.pfn * 2 ^ 26 + i) = 0) ∧
      (∀ a, (∀ p ∈ s.dev.xl.lfns, p.2.inst = n → p.2.pfn ≠ a / 2 ^ 26) → Mem.read e.tiers.dev a = Mem.read s.dev.tiers.dev a) ∧
      (n < 32 → getF .instQuiescedLo 0 0 n n e = 1) ∧ (32 ≤ n → getF .instQuiescedHi 0 0 (n - 32) (n - 32) e = 1) ∧
      (getF .instEventCtrl 0 0 31 31 s.dev = 1 → linkOpen s.dev = true →
        e.out = s.dev.out ++ [.vector 0xFF (getF .instEventCtrl 0 0 2 0 s.dev)])) ∧
  (∀ (s : State) (n : Nat), n < 64 → s.dev.start.ready = true → linkOpen s.dev = true → s.dev.upd.heldTo = none →
    ((instAt n s.dev).state = 3 → (instAt n s.dev).shareDue = false → (adminAt n s.dev).notices = [] →
      ∃ e, exec (.release n) s = Safety.sent e s ∧ (instAt n e).state = 1 ∧ (instAt n e).gen = (instAt n s.dev).gen ∧ e.tiers = s.dev.tiers ∧
        (adminOn n s.dev = false → e.link = s.dev.link ∧ e.out = s.dev.out) ∧
        (adminOn n s.dev = true → (adminAt n s.dev).detached = false → 0 < adminFree n s.dev → (instAt n s.dev).lastGen < 65536 → ∀ i < 32,
          Mem.read e.link.hostMem (hostKey 0xFF (adminAddr n true s.dev + 32 * (adminAt n s.dev).wr) + i) =
            ([0, 0, 0, 0, 0, 0, 0, 0, 0xFF, 0xFF, 0, 0, 0, 1, 3, 0] ++ natLE 2 (instAt n s.dev).gen ++ natLE 6 0 ++
              natLE 2 (instAt n s.dev).lastGen ++ natLE 5 0 ++ [0x80]).getD i 0)) ∧
    ((instAt n s.dev).state = 2 → exec (.release n) s = Safety.sent s.dev s)) ∧
  (∀ (s : State) (n data : Nat), n < 64 → configured n s.dev = true → s.dev.start.ready = true → linkOpen s.dev = true → data < 2 ^ 32 →
    (shareSum n 8 0 s.dev + bitsOf data 8 0 ≤ 256 → shareSum n 24 16 s.dev + bitsOf data 24 16 ≤ 256 →
      ∃ t, exec (.instShareWrite n data) s = .next t ∧ getF .instShare n 0 8 0 t.dev = bitsOf data 8 0 ∧
        getF .instShare n 0 24 16 t.dev = bitsOf data 24 16 ∧ t.dev.bricks = s.dev.bricks ∧ t.dev.net = s.dev.net ∧
        (∀ k < s.dev.pwr.rails.length, ∀ g ∈ (railAt k s.dev).grants, g ∈ (railAt k t.dev).grants)) ∧
    (256 < shareSum n 8 0 s.dev + bitsOf data 8 0 ∨ 256 < shareSum n 24 16 s.dev + bitsOf data 24 16 →
      ∃ t, exec (.instShareWrite n data) s = .next t ∧ getF .instShare n 0 8 0 t.dev = getF .instShare n 0 8 0 s.dev ∧
        getF .instShare n 0 24 16 t.dev = getF .instShare n 0 24 16 s.dev ∧ getF .instShare n 0 31 31 t.dev = 1 ∧
        Safety.SameRegs [addrOf .instShare n 0] s.dev t.dev ∧ t.dev.pwr = s.dev.pwr))

/-- R413 to R415, R420, R421: LOAD_WRAPPED and ERASE start with the data registers as they stand, or set RESULT 0x07 while one runs; a load that unwraps under slot 1 fills its traffic slot and raises LOADS, an
erase empties it, a failed command leaves the slot, and every outcome clears the data registers; a write of KEY_SLOT assigns a traffic slot that no domain names. -/
def Obligations.KeyStore : Prop :=
  (∀ (s : State) (slot cmd : Nat) (c : Instr), slot < 1024 → s.dev.start.ready = true → linkOpen s.dev = true → (cmd = 1 ∧ c = .loadWrapped slot ∨ cmd = 2 ∧ c = .erase slot) →
    (s.dev.keys.running = none → ∃ t, exec c s = .next t ∧ t.dev.keys = { s.dev.keys with running := some (cmd, slot, s.dev.keys.data) } ∧
      getF .keyLoadStatus 0 0 17 8 t.dev = slot ∧ Safety.SameRegs [addrOf .keyLoadStatus 0 0] s.dev t.dev) ∧
    (s.dev.keys.running.isSome = true → ∃ t, exec c s = .next t ∧ t.dev.keys = s.dev.keys ∧ getF .keyLoadStatus 0 0 7 0 t.dev = 7 ∧
      Safety.SameRegs [addrOf .keyLoadStatus 0 0] s.dev t.dev)) ∧
  (∀ (s : State) (cmd slot : Nat) (data : List Nat), s.dev.keys.running = some (cmd, slot, data) → slot < 1024 →
    ∃ t, exec .keyLoadDone s = .next t ∧ t.dev.keys.running = none ∧ t.dev.keys.data = List.replicate 10 0 ∧
      (∀ k, k ≠ slot → Tab.get t.dev.keys.keys k = Tab.get s.dev.keys.keys k) ∧
      Safety.SameRegs [addrOf .keyLoadStatus 0 0, addrOf .keySlot slot 0] s.dev t.dev ∧
      (slot < 16 → cmd = 1 ∨ cmd = 2 → getF .keyLoadStatus 0 0 7 0 t.dev = 3 ∧ t.dev.keys.keys = s.dev.keys.keys) ∧
      (cmd ≠ 1 → cmd ≠ 2 → getF .keyLoadStatus 0 0 7 0 t.dev = 2 ∧ t.dev.keys.keys = s.dev.keys.keys) ∧
      (16 ≤ slot → cmd = 2 → getF .keyLoadStatus 0 0 7 0 t.dev = 1 ∧ Tab.get t.dev.keys.keys slot = none) ∧
      (16 ≤ slot → cmd = 1 →
        (slotOne s = none → getF .keyLoadStatus 0 0 7 0 t.dev = 5 ∧ t.dev.keys.keys = s.dev.keys.keys) ∧
        (∀ w, slotOne s = some w →
          (keyUnwrap w (data.flatMap (natLE 4)) = none → getF .keyLoadStatus 0 0 7 0 t.dev = 4 ∧ t.dev.keys.keys = s.dev.keys.keys) ∧
          (∀ k, keyUnwrap w (data.flatMap (natLE 4)) = some k → getF .keyLoadStatus 0 0 7 0 t.dev = 1 ∧
            Tab.get t.dev.keys.keys slot = some k ∧ getF .keySlot slot 0 7 0 t.dev = (getF .keySlot slot 0 7 0 s.dev + 1) % 256)))) ∧
  (∀ (s : State) (k data : Nat), k < 1024 → data < 2 ^ 32 → s.dev.start.ready = true → linkOpen s.dev = true →
    (k < 16 → exec (.keySlotWrite k data) s = .next s) ∧
    (16 ≤ k → (∀ p ∈ s.dev.rem.doms, p.2.slot ≠ k) → ∃ t, exec (.keySlotWrite k data) s = .next t ∧
      getF .keySlot k 0 29 29 t.dev = bitsOf data 29 29 ∧ getF .keySlot k 0 21 16 t.dev = bitsOf data 21 16 ∧
      getF .keySlot k 0 7 0 t.dev = getF .keySlot k 0 7 0 s.dev ∧ Safety.SameRegs [addrOf .keySlot k 0] s.dev t.dev ∧ t.dev.keys = s.dev.keys) ∧
    (16 ≤ k → (∃ p ∈ s.dev.rem.doms, p.2.slot = k) →
      (bitsOf data 29 29, bitsOf data 21 16) ≠ (getF .keySlot k 0 29 29 s.dev, getF .keySlot k 0 21 16 s.dev) →
      ∃ t, exec (.keySlotWrite k data) s = .next t ∧ getF .keySlot k 0 28 28 t.dev = 1 ∧ getF .keySlot k 0 29 29 t.dev = getF .keySlot k 0 29 29 s.dev ∧
        getF .keySlot k 0 21 16 t.dev = getF .keySlot k 0 21 16 s.dev ∧ t.dev.keys = s.dev.keys))

/-! ## Management (16) -/

/-- R351, R423, R424, R425, R427 to R429, R434, R437, R442, R445: the MC answers each MCTP control and PLDM request that it hears from what it holds and changes only what the request sets: endpoint, terminus, event receiver; a fifth
request at once gets ERROR_NOT_READY; the wrapping key, the anchor and a clear of the log need an authorised session and otherwise end with ACCESS. (Codes of DSP0236 and DSP0240 are
the model's, log entry 60.) -/
def Obligations.ManagementCommands : Prop :=
  ∀ (s : State) (r : MReq),
    let answer_ := fun (rep : Reply) => Host.Outcome.next (σ := State) (φ := Fault) (ρ := Refusal) { s with dev := { touch r s.dev with reply := rep } }
    let sets := fun (rep : Reply) (f : Mc → Mc) =>
      Host.Outcome.next (σ := State) (φ := Fault) (ρ := Refusal) { s with dev := { touch r s.dev with reply := rep, mc := f (touch r s.dev).mc } }
    (heard 0 r s.dev = true →
      (∀ eid, 8 ≤ eid → eid ≤ 254 → exec (.setEndpointId r eid) s = sets (.mctp 0 [eid]) (fun m => { m with eid := eid })) ∧
      (∀ eid, (eid < 8 ∨ 254 < eid) → exec (.setEndpointId r eid) s = answer_ (.mctp 2 [])) ∧
      exec (.getEndpointId r) s = answer_ (.mctp 0 [s.dev.mc.eid]) ∧
      exec (.getEndpointUuid r) s = answer_ (.mctp 0 ((Config.uuid s.flash.serial).map BitVec.toNat)) ∧
      exec (.getMctpVersionSupport r 0) s = answer_ (.mctp 0 [1, 3]) ∧
      (∀ typ, typ ≠ 0xFF → typ ≠ 0 → typ ≠ 1 → typ ≠ 5 → typ ≠ 6 → exec (.getMctpVersionSupport r typ) s = answer_ (.mctp 0x80 [])) ∧
      exec (.getMessageTypeSupport r) s = answer_ (.mctp 0 [1, 5, 6])) ∧
    (heard 0 r s.dev = false → exec (.getEndpointId r) s = .next { s with dev := { s.dev with reply := .silent } }) ∧
    (heard 1 r s.dev = false → exec (.getTid r) s = .next { s with dev := { s.dev with reply := .silent } }) ∧
    (heard 1 r s.dev = true → ((sessionOf r s.dev).map Session.finished).getD true = true → 4 ≤ r.held →
      exec (.getTid r) s = answer_ (.pldm 4 none []) ∧ exec (.clearLog r) s = answer_ (.pldm 4 none [])) ∧
    (heard 1 r s.dev = true → ((sessionOf r s.dev).map Session.finished).getD true = true → r.held < 4 → r.formed = false →
      exec (.getTid r) s = answer_ (.pldm 3 none []) ∧ exec (.clearLog r) s = answer_ (.pldm 3 none [])) ∧
    (heard 1 r s.dev = true → ((sessionOf r s.dev).map Session.finished).getD true = true → r.held < 4 → r.formed = true →
      (∀ tid, tid ≠ 0 → tid < 255 → exec (.setTid r tid) s = sets (.pldm 0 none []) (fun m => { m with tid := tid })) ∧
      exec (.getTid r) s = answer_ (.pldm 0 none [s.dev.mc.tid]) ∧
      exec (.getPldmVersion r 2) s = answer_ (.pldm 0 none [1, 2]) ∧
      exec (.getPldmTypes r) s = answer_ (.pldm 0 none [0, 2, 63]) ∧
      (∀ typ l, pldmCommands typ = some l → exec (.getPldmCommands r typ) s = answer_ (.pldm 0 none l)) ∧
      (∀ id, 1 ≤ id → id ≤ 45 ∨ id = 47 ∨ id = 48 →
        exec (.getSensorReading r id) s =
          answer_ (.pldm 0 none [unsignedOf 32 (Tab.getD s.dev.mc.sensors id 0), Tab.getD s.dev.mc.zones id 0])) ∧
      exec (.getSensorReading r 46) s = answer_ (.pldm 0 none [unsignedOf 32 (getF .inputVoltage 0 0 15 0 s.dev : Nat), Tab.getD s.dev.mc.zones 46 0]) ∧
      (∀ u, u < 8 → exec (.getStateSensorReadings r (100 + u)) s = answer_ (.pldm 0 none [(laserAt u s.dev).state]) ∧
        exec (.getStateSensorReadings r (108 + u)) s = answer_ (.pldm 0 none [(siteAt u s.dev).state])) ∧
      exec (.getPdrRepositoryInfo r) s = answer_ (.pldmBytes 0 none Config.pdrInfo) ∧
      (∀ k l, Config.pdr k = some l → exec (.getPdr r k) s = answer_ (.pldmBytes 0 none l)) ∧
      (∀ dest, exec (.setEventReceiver r dest) s = sets (.pldm 0 none []) (fun m => { m with receiver := dest })) ∧
      exec (.getEventReceiver r) s = answer_ (.pldm 0 none s.dev.mc.receiver.toList) ∧
      (∀ port idx, port < 32 → idx < 12 → exec (.readCounter r port idx) s = answer_ (.pldmBytes 0 (some 0)
        (natLE 8 (Tab.getD (portAt port s.dev).ext idx 0) ++ [if (portAt port s.dev).inexact.contains idx then 1 else 0]))) ∧
      (∀ idx, idx < 65536 → exec (.readLog r idx) s =
        answer_ (.pldmBytes 0 (some 0) (slotBytes s.flash idx ++ natLE 4 (logStatusWord s.dev)))) ∧
      exec (.readLogStatus r) s =
        answer_ (.pldmBytes 0 (some 0) (natLE 4 (logStatusWord s.dev) ++ natLE 4 s.dev.mc.dropped ++ natLE 4 s.dev.mc.boot)) ∧
      (authorised r s.dev = false → exec (.clearLog r) s = answer_ (.pldm 0 (some 3) []) ∧
        (∀ key, exec (.loadWrappingKey r key) s = answer_ (.pldm 0 (some 3) [])) ∧ exec (.eraseWrappingKey r) s = answer_ (.pldm 0 (some 3) []) ∧
        (∀ dg, exec (.replaceAnchor r dg) s = answer_ (.pldm 0 (some 3) []))) ∧
      (authorised r s.dev = true →
        (s.dev.mc.clearing = false → exec (.clearLog r) s = sets (.pldm 0 (some 0) []) (fun m => { m with clearing := true })) ∧
        (s.dev.mc.clearing = true → exec (.clearLog r) s = answer_ (.pldm 0 (some 0xE) [])) ∧
        (∀ key x, s.dev.mc.secret = some x → ∃ t, exec (.loadWrappingKey r key) s = .next t ∧
          t.flash = { s.flash with wrapKey := some ⟨x, key⟩ } ∧ t.dev.reply = .pldm 0 (some 0) [] ∧
          getF .keySlot 1 0 7 0 t.dev = (getF .keySlot 1 0 7 0 s.dev + 1) % 256 ∧ Safety.SameRegs [addrOf .keySlot 1 0] s.dev t.dev ∧
          t.dev.keys = s.dev.keys) ∧
        (∀ key, s.dev.mc.secret = none → exec (.loadWrappingKey r key) s = answer_ (.pldm 0 (some 0xF) [])) ∧
        (∃ t, exec (.eraseWrappingKey r) s = .next t ∧ t.flash = { s.flash with wrapKey := none } ∧ t.dev.reply = .pldm 0 (some 0) [] ∧
          t.dev.regs = s.dev.regs ∧ t.dev.keys = s.dev.keys) ∧
        (∀ dg, ∃ t, exec (.replaceAnchor r dg) s = .next t ∧ t.flash = { s.flash with anchor := dg } ∧ t.dev.reply = .pldm 0 (some 0) [] ∧
          t.dev.regs = s.dev.regs)))

/-- R425 to R427, R437 to R442, R475: a sample is kept with the thresholds that it has reached, and each crossing is an event to the receiver; an event that is not accepted is sent twice more; a fatal
threshold held for 1 ms ends in thermal shutdown with its record and mark; the first record of the buffer is programmed at the next index under the next SEQUENCE; a clear leaves
LOG_CLEARED alone at index 0; a read of LOG_WINDOW_0 copies a whole record, and one of LOG_WINDOW_15 advances INDEX. -/
def Obligations.SensorsAndLog : Prop :=
  (∀ (s : State) (id : Nat) (v : Int), s.dev.mc.up = true → 1 ≤ id → id ≤ 45 ∨ id = 47 ∨ id = 48 → ∃ t, exec (.sensorSample id v) s = .next t ∧
    Tab.get t.dev.mc.sensors id = some v ∧ Tab.get t.dev.mc.zones id = some (zoneOf id v) ∧
    (∀ k, k ≠ id → Tab.get t.dev.mc.sensors k = Tab.get s.dev.mc.sensors k) ∧ t.dev.regs = s.dev.regs ∧ t.flash = s.flash ∧
    (Tab.getD s.dev.mc.zones id 0 = zoneOf id v → t.dev.out = s.dev.out ∧ t.dev.mc.events = s.dev.mc.events) ∧
    (s.dev.mc.receiver = none → t.dev.out = s.dev.out ∧ t.dev.mc.events = s.dev.mc.events) ∧
    (id < 12 → (400 ≤ v ↔ bitOf (zoneOf id v) 0 = true) ∧ (420 ≤ v ↔ bitOf (zoneOf id v) 1 = true) ∧ (460 ≤ v ↔ bitOf (zoneOf id v) 2 = true) ∧
      (460 ≤ v → Tab.get t.dev.mc.fatalSince id = some (Tab.getD s.dev.mc.fatalSince id (clock iodie s.dev))) ∧
      (v < 460 → Tab.get t.dev.mc.fatalSince id = none) ∧
      (∀ dest, s.dev.mc.receiver = some dest → Tab.getD s.dev.mc.zones id 0 = 0 → 400 ≤ v → v < 420 →
        t.dev.out = s.dev.out ++ [.event (some id) (crossCode 0 true) dest]))) ∧
  (∀ (s : State) (k : Nat) (e : MgmtEvent), s.dev.mc.events[k]? = some e →
    (∃ t, exec (.eventRetry k true) s = .next t ∧ t.dev.mc.events = s.dev.mc.events.eraseIdx k ∧ t.dev.out = s.dev.out) ∧
    (e.sent + 800000 ≤ clock iodie s.dev → 3 ≤ e.tries → ∃ t, exec (.eventRetry k false) s = .next t ∧ t.dev.mc.events = s.dev.mc.events.eraseIdx k ∧
      t.dev.out = s.dev.out) ∧
    (∀ dest, e.sent + 800000 ≤ clock iodie s.dev → e.tries < 3 → s.dev.mc.receiver = some dest → ∃ t, exec (.eventRetry k false) s = .next t ∧
      t.dev.mc.events = s.dev.mc.events.set k { e with dest := dest, tries := e.tries + 1, sent := clock iodie s.dev } ∧
      t.dev.out = s.dev.out ++ [.event e.sensor (if e.sensor.isSome then e.cross else e.seq) dest]) ∧
    (clock iodie s.dev < e.sent + 800000 → exec (.eventRetry k false) s = .next s)) ∧
  (∀ (s : State) (id t0 : Nat), s.dev.mc.up = true → Tab.get s.dev.mc.fatalSince id = some t0 → 1 ≤ id → id < 36 → s.dev.pwr.thermtrip = false →
    (t0 + 8000 ≤ clock iodie s.dev → ∃ t, exec (.thermalShutdown id) s = .next t ∧ t.dev.pwr.mainOn = false ∧ t.dev.pwr.thermtrip = true ∧ t.flash.mark = true ∧
      t.dev.start.ready = false ∧ t.dev.start.nextCause = 4 ∧ t.dev.mc.up = true ∧
      (s.dev.mc.buffer.length < 256 → s.dev.mc.clearing = false → s.dev.mc.next + s.dev.mc.buffer.length < 65536 →
        ∃ x, t.dev.mc.buffer = s.dev.mc.buffer ++ [x] ∧ x.boot = s.dev.mc.boot ∧ x.source = 11 ∧ x.cls = 3 ∧ x.area = 0x0A ∧ x.event = 3 ∧
          x.data = natLE 2 id ++ natLE 2 (unsignedOf 16 (sensorReading id s.dev)))) ∧
    (clock iodie s.dev < t0 + 8000 → exec (.thermalShutdown id) s = .next s)) ∧
  (∀ (s : State) (r : LogRec) (rest : List LogRec), s.dev.mc.up = true → s.dev.mc.clearing = false → s.dev.mc.next < 65536 →
    s.dev.mc.buffer = r :: rest →
    ∃ t, exec .logRecordProgram s = .next t ∧ t.dev.mc.buffer = rest ∧ t.dev.mc.next = s.dev.mc.next + 1 ∧ t.flash.seq = s.flash.seq + 1 ∧
      slotBytes t.flash s.dev.mc.next = r.bytes s.flash.seq ∧ (∀ k, k ≠ s.dev.mc.next → slotBytes t.flash k = slotBytes s.flash k) ∧
      (∀ dest, s.dev.mc.receiver = some dest → 2 ≤ r.cls → t.dev.out = s.dev.out ++ [.event none s.flash.seq dest]) ∧
      (s.dev.mc.receiver = none ∨ r.cls < 2 → t.dev.out = s.dev.out) ∧ t.dev.regs = s.dev.regs) ∧
  (∀ (s : State), s.dev.mc.up = true → s.dev.mc.clearing = true → ∃ t, exec .logEraseDone s = .next t ∧ t.dev.mc.next = 1 ∧ t.dev.mc.dropped = 0 ∧
    t.dev.mc.clearing = false ∧ t.dev.mc.buffer = s.dev.mc.buffer ∧ t.flash.seq = s.flash.seq + 1 ∧
    (∀ k, 0 < k → slotBytes t.flash k = List.replicate 64 0xFF) ∧
    (slotBytes t.flash 0).take 20 = natLE 4 s.flash.seq ++ natLE 4 s.dev.mc.boot ++ [11, 0, 5, 0x0A] ++ natLE 4 s.dev.mc.next ++ natLE 4 s.dev.mc.dropped) ∧
  (∀ (s : State), s.dev.start.ready = true → linkOpen s.dev = true →
    (∃ t, exec (.logWindow0Read 0xFF) s = .next t ∧ t.dev.mc.window = some (slotBytes s.flash (getF .logCursor 0 0 15 0 s.dev)) ∧
      t.dev.reply = .value (leNat ((slotBytes s.flash (getF .logCursor 0 0 15 0 s.dev)).take 4)) ∧ t.dev.regs = s.dev.regs ∧ t.flash = s.flash) ∧
    (∃ t, exec (.logWindow15Read 0xFF) s = .next t ∧ t.dev.mc = s.dev.mc ∧ Safety.SameRegs [addrOf .logCursor 0 0] s.dev t.dev ∧
      (∀ l, s.dev.mc.window = some l → t.dev.reply = .value (leNat ((l.drop 60).take 4))) ∧
      (getF .logCursor 0 0 31 31 s.dev = 1 → getF .logCursor 0 0 15 0 t.dev = (getF .logCursor 0 0 15 0 s.dev + 1) % 65536) ∧
      (getF .logCursor 0 0 31 31 s.dev = 0 → t.dev.regs = s.dev.regs)))

/-- R424, R430 to R436, R444: SPDM goes from GET_VERSION to capabilities to algorithms; identity requests need the algorithms and a sound identity, and are signed with the identity key over their
transcript; measurements carry their value types; at most two sessions open, none under version 1.0; a session whose FINISH
verifies is authorised exactly where mutual authentication was asked and the requester's chain verifies up to the anchor in force; a session ends by END_SESSION or after 20 s
without a message. (Codes and layouts of DSP0274 are the model's, log entry 61; what the responder draws is free.) -/
def Obligations.SpdmSessions : Prop :=
  ∀ (s : State) (r : MReq), heard 5 r s.dev = true →
    let m := (touch r s.dev).mc
    let answer_ := fun (rep : Reply) => Host.Outcome.next (σ := State) (φ := Fault) (ρ := Refusal) { s with dev := { touch r s.dev with reply := rep } }
    let sets := fun (rep : Reply) (m : Mc) =>
      Host.Outcome.next (σ := State) (φ := Fault) (ρ := Refusal) { s with dev := { touch r s.dev with reply := rep, mc := m } }
    let v := natLE 1 s.dev.mc.version
    let chain := chainBytes s.flash
    let value := fun (i : Nat) => s.dev.mc.measures.getD (i - 1) []
    let block := fun (i : Nat) => natLE 1 i ++ [1] ++ natLE 2 (3 + (value i).length) ++ [if i = 1 then 0x80 else if i ≤ 4 then 1 else 3] ++
      natLE 2 (value i).length ++ value i
    (4 ≤ r.held → exec (.getVersion r) s = answer_ (.spdmError 3)) ∧
    (r.held < 4 →
      exec (.getVersion r) s = sets (.spdm 0x04 [0, 0, 0, 3, 0, 0x10, 0, 0x11, 0, 0x12]) { m with
        version := 0, negotiated := false, vca := r.raw ++ [0x10, 0x04, 0, 0, 0, 3, 0, 0x10, 0, 0x11, 0, 0x12], msgB := [], msgL := [] } ∧
      (∀ w, w = 0x10 ∨ w = 0x11 ∨ w = 0x12 → ∃ t, ∃ sizes : List Byte, exec (.getCapabilities r w) s = .next t ∧ sizes.length = 8 ∧
        (let body := [0, 0, 0, 17, 0, 0] ++ natLE 4 (capabilityFlags w) ++ (if w = 0x12 then sizes else [])
         t.dev.reply = .spdm 0x61 body ∧ t.dev.mc = { m with version := w, negotiated := false, vca := m.vca ++ (r.raw ++ (natLE 1 w ++ [0x61] ++ body)) })) ∧
      (s.dev.mc.version = 0 → exec (.negotiateAlgorithms r true) s = answer_ (.spdmError 4)) ∧
      (s.dev.mc.version ≠ 0 → exec (.negotiateAlgorithms r true) s = sets (.spdm 0x63 (algorithmsBody s.dev.mc.version)) { m with
        negotiated := true, vca := m.vca ++ (r.raw ++ (v ++ [0x63] ++ algorithmsBody s.dev.mc.version)) }) ∧
      (s.dev.mc.negotiated = false → exec (.getDigests r) s = answer_ (.spdmError 4)) ∧
      (s.dev.mc.negotiated = true →
        exec (.getDigests r) s = sets (.spdm 0x01 ([0, 1] ++ digestBytes (sha256 chain))) { m with
          msgB := m.msgB ++ (r.raw ++ (v ++ [0x01] ++ ([0, 1] ++ digestBytes (sha256 chain)))) } ∧
        (∀ n, ∃ t, ∃ x : List Byte, exec (.getMeasurements r 0 false n) s = .next t ∧ x.length = 32 ∧
          t.dev.reply = .spdm 0x60 ([6, 0, 0, 0, 0, 0] ++ x ++ [0, 0])) ∧
        (∀ i n, 1 ≤ i → i ≤ 6 → ∃ t, ∃ x : List Byte, exec (.getMeasurements r i false n) s = .next t ∧ x.length = 32 ∧
          t.dev.reply = .spdm 0x60 ([0, 0, 1] ++ natLE 3 (block i).length ++ block i ++ x ++ [0, 0])) ∧
        (∀ k, s.dev.mc.secret = some k → s.dev.mc.identityFail = 0 →
          (∀ off len, off < chain.length → ∃ t, exec (.getCertificate r 0 off len) s = .next t ∧
            t.dev.reply = .spdm 0x02 ([0, 0] ++ natLE 2 (min len (chain.length - off)) ++ natLE 2 (chain.length - off - min len (chain.length - off)) ++
              (chain.drop off).take len)) ∧
          (∀ slot off len, slot ≠ 0 → exec (.getCertificate r slot off len) s = answer_ (.spdmError 1)) ∧
          (∀ n, ∃ t, ∃ x : List Byte, exec (.challenge r 0 n) s = .next t ∧ x.length = 32 ∧ t.dev.mc = { m with msgB := [] } ∧
            (let body := [0, 1] ++ digestBytes (sha256 chain) ++ x ++ [0, 0]
             t.dev.reply = .spdm 0x03 (body ++ Config.signature (Config.identityPrivate k)
              (s.dev.mc.vca ++ s.dev.mc.msgB ++ (v ++ [0x83] ++ ([0, 0] ++ natLE 32 n)) ++ (v ++ [0x03] ++ body))))) ∧
          (∀ i n, 1 ≤ i → i ≤ 6 → ∃ t, ∃ x : List Byte, exec (.getMeasurements r i true n) s = .next t ∧ x.length = 32 ∧ t.dev.mc = { m with msgL := [] } ∧
            (let body := [0, 0, 1] ++ natLE 3 (block i).length ++ block i ++ x ++ [0, 0]
             t.dev.reply = .spdm 0x60 (body ++ Config.signature (Config.identityPrivate k)
              ((if s.dev.mc.version = 0x12 then s.dev.mc.vca else []) ++ (s.dev.mc.msgL ++
                (v ++ [0xE0] ++ ([1] ++ natLE 1 i ++ (natLE 32 n ++ [0]))) ++ (v ++ [0x60] ++ body)))))) ∧
          (∀ ask, s.dev.mc.version ≠ 0x10 → s.dev.mc.sessions.length < 2 → ∃ t, ∃ x h : List Byte, exec (.keyExchange r ask) s = .next t ∧
            t.dev.mc = { m with sessions := m.sessions ++ [⟨s.dev.mc.nextSess, ask, none, false, false, false, clock iodie s.dev, 0⟩],
                                nextSess := s.dev.mc.nextSess + 1 } ∧ x.length = 128 ∧ h.length = 32 ∧
            (let body := [10, 0] ++ natLE 2 s.dev.mc.nextSess ++ [if ask then 2 else 0, 0] ++ x ++ [0, 0]
             t.dev.reply = .spdm 0x64 (body ++ Config.signature (Config.identityPrivate k)
              (s.dev.mc.vca ++ digestBytes (sha256 chain) ++ r.raw ++ (v ++ [0x64] ++ body)) ++ h))) ∧
          (∀ ask, s.dev.mc.version ≠ 0x10 → 2 ≤ s.dev.mc.sessions.length → exec (.keyExchange r ask) s = answer_ (.spdmError 0x0A)) ∧
          (∀ ask, s.dev.mc.version = 0x10 → exec (.keyExchange r ask) s = answer_ (.spdmError 7))) ∧
        (s.dev.mc.identityFail ≠ 0 → (∀ n, exec (.challenge r 0 n) s = answer_ (.spdmError 5)) ∧
          (∀ ask, exec (.keyExchange r ask) s = answer_ (.spdmError 5)))) ∧
      (s.dev.mc.version = 0x10 → (∀ k ok, exec (.finish r k ok) s = answer_ (.spdmError 7)) ∧ exec (.heartbeat r) s = answer_ (.spdmError 7) ∧
        exec (.keyUpdate r) s = answer_ (.spdmError 7) ∧ exec (.endSession r) s = answer_ (.spdmError 7)) ∧
      (∀ k x, s.dev.mc.version ≠ 0x10 → r.sess = none → s.dev.mc.sessions.find? (fun x => x.id == k) = some x → x.finished = false →
        exec (.finish r k true) s = sets (.spdm 0x65 [0, 0]) { m with sessions := m.sessions.map (fun y => if y.id = k then
          { y with finished := true, authorised := x.mutAsked && x.chainOk && decide (x.chain = some s.flash.anchor), last := clock iodie s.dev } else y) } ∧
        exec (.finish r k false) s = sets (.spdmError 6) { m with sessions := m.sessions.filter (fun y => y.id != k) } ∧
        (x.mutAsked = true → ∀ root ok, exec (.deliverEncapsulatedResponse r k root ok) s = sets (.spdm 0x6B [0, 0]) { m with
          sessions := m.sessions.map (fun y => if y.id = k then { y with chain := some root, chainOk := ok, last := clock iodie s.dev } else y) })) ∧
      (∀ k x, s.dev.mc.version ≠ 0x10 → r.sess = some k → m.sessions.find? (fun x => x.id == k) = some x →
        (x.finished = true →
          exec (.heartbeat r) s = answer_ (.spdm 0x68 [0, 0]) ∧
          exec (.keyUpdate r) s = sets (.spdm 0x69 ((r.raw.drop 2).take 2)) { m with
            sessions := m.sessions.map (fun y => if y.id = k then { y with keyEpoch := y.keyEpoch + 1 } else y) } ∧
          exec (.endSession r) s = sets (.spdm 0x6C [0, 0]) { m with sessions := m.sessions.filter (fun y => y.id != k) }) ∧
        (x.finished = false → x.mutAsked = true → x.chain = none →
          exec (.getEncapsulatedRequest r) s = answer_ (.spdm 0x6A ([1, 0] ++ (v ++ [0x82] ++ [0, 0, 0, 0, 0xFF, 0xFF])))))) ∧
    (∀ k x, s.dev.mc.sessions.find? (fun x => x.id == k) = some x → (∀ y ∈ s.dev.mc.sessions, y.id = k → y = x) →
      (x.last + 160000000 ≤ clock iodie s.dev → ∃ t, exec (.sessionIdleTimeout k) s = .next t ∧ t.dev.mc = { s.dev.mc with
        sessions := s.dev.mc.sessions.filter (fun y => y.id != k) } ∧ t.dev.out = s.dev.out) ∧
      (clock iodie s.dev < x.last + 160000000 → exec (.sessionIdleTimeout k) s = .next s))

/-! ## Firmware update (17) -/

/-- R45, R52, R448, R454 to R458, R471 to R474: the lease is granted to one holder under a new LEASE_ID, refused to another with ADMISSION_REFUSED or LEASE_HELD, and ends on release or time-out, when a bank
that was being written becomes EMPTY; a staging makes its bank STAGING and raises the bank write count; a package is written in order, applied part by part, its units programmed
as they are whole, or refused with its staging ended, and verified at its end: VERIFIED, or EMPTY with the first check that fails; PULL asks the host for it, and ends with HOST_LINK_DOWN where the link is lost; the cipher engine and the image checks act on the package only while they
hold their grants (that bytes wait for the grant is the model's choice, log entry 129); UPDATE_QUERY answers the status words. -/
def Obligations.UpdateStaging : Prop :=
  (∀ (s : State) (src : UpdSrc), Safety.Commands src s →
    (s.dev.upd.holder = 0 → ∃ t, exec (.leaseTake src) s = .next t ∧ t.dev.upd.holder = holderOf src ∧ t.dev.upd.state = 1 ∧
      t.dev.upd.lease = nextLease s.dev.upd.lastLease ∧ t.dev.upd.lease ≠ 0 ∧ t.flash = s.flash ∧
      (∀ r, src = .platform r → t.dev.reply = .pldmBytes 0 (some 0) (natLE 2 t.dev.upd.lease))) ∧
    (s.dev.upd.holder ≠ 0 → ∃ t, exec (.leaseTake src) s = .next t ∧ Safety.Answered src (if s.dev.upd.holder = holderOf src then 0xE else 0x11) t ∧
      t.dev.upd.holder = s.dev.upd.holder ∧ t.dev.upd.state = s.dev.upd.state ∧ t.flash = s.flash)) ∧
  (∀ (s : State) (src : UpdSrc) (l : Nat), Safety.CommandsHeld src l s →
    (s.dev.upd.state ≤ 4 ∨ s.dev.upd.state = 6 → ∃ t, exec (.leaseRelease src l) s = .next t ∧ Safety.Answered src 0 t ∧ t.dev.upd.holder = 0 ∧
      t.dev.upd.state = 0 ∧ t.dev.upd.staging = none ∧
      t.flash = if s.dev.upd.state = 2 ∨ s.dev.upd.state = 3 then emptyBank s.dev.upd s.flash else s.flash) ∧
    (s.dev.upd.state = 5 ∨ s.dev.upd.state = 7 ∨ s.dev.upd.state = 8 → ∃ t, exec (.leaseRelease src l) s = .next t ∧ Safety.Answered src 0xE t ∧
      t.dev.upd.holder = s.dev.upd.holder ∧ t.dev.upd.state = s.dev.upd.state ∧ t.flash = s.flash)) ∧
  (∀ s : State, (leaseOver s.dev = true → ∃ t, exec .leaseTimeout s = .next t ∧ t.dev.upd.holder = 0 ∧ t.dev.upd.state = 0 ∧ t.dev.upd.staging = none ∧
      t.flash = if s.dev.upd.state = 2 ∨ s.dev.upd.state = 3 then emptyBank s.dev.upd s.flash else s.flash) ∧
    (leaseOver s.dev = false → exec .leaseTimeout s = .next s)) ∧
  (∀ (s : State) (r : MReq) (l : Nat), Safety.CommandsHeld (.platform r) l s →
    (∀ bytes, s.dev.upd.state = 1 → 0 < bytes.length → bytes.length < 256 → s.dev.upd.staging = none →
      ∃ t, exec (.packageWrite r l 0 bytes.length bytes) s = .next t ∧ Safety.Answered (.platform r) 0 t ∧ t.dev.upd.state = 2 ∧
        t.dev.upd.staging = some { Staging.start (bankAt (otherBank s.flash) s.flash).state with bytes := bytes.length, buf := bytes } ∧
        t.flash = updBank (otherBank s.flash) (fun b => { b with state := 2 }) { s.flash with writes := (s.flash.writes + 1) % 2 ^ 32 }) ∧
    (∀ bytes st, s.dev.upd.state = 2 → s.dev.upd.pulling = none → s.dev.upd.staging = some st → 0 < bytes.length → bytes.length ≤ 1024 →
      st.bytes + bytes.length ≤ 142606336 →
      (holdsGrant .iodCipher s.dev = false → ∃ t, exec (.packageWrite r l st.bytes bytes.length bytes) s = .next t ∧ Safety.Answered (.platform r) 0 t ∧
        t.dev.upd.state = 2 ∧ t.dev.upd.staging = some { st with bytes := st.bytes + bytes.length, buf := st.buf ++ bytes } ∧ t.flash = s.flash) ∧
      (∀ u, holdsGrant .iodCipher s.dev = true →
        feedAll (worksOf s) 70 { st with bytes := st.bytes + bytes.length, buf := st.buf ++ bytes } = .ok u →
        ∃ t, exec (.packageWrite r l st.bytes bytes.length bytes) s = .next t ∧ Safety.Answered (.platform r) 0 t ∧ t.dev.upd.state = 2 ∧
          t.dev.upd.staging = some { u with fresh := [] } ∧ t.flash = programUnits u (markBank st u s.flash)) ∧
      (∀ e, holdsGrant .iodCipher s.dev = true →
        feedAll (worksOf s) 70 { st with bytes := st.bytes + bytes.length, buf := st.buf ++ bytes } = .error e →
        ∃ t, exec (.packageWrite r l st.bytes bytes.length bytes) s = .next t ∧ Safety.Answered (.platform r) e.status t ∧ t.dev.upd.state = 1 ∧
          t.dev.upd.staging = none ∧ t.dev.upd.detail = e.detail ∧ t.flash = emptyBank s.dev.upd s.flash ∧ t.dev.upd.holder = s.dev.upd.holder) ∧
      (∀ off, off ≠ st.bytes → ∃ t, exec (.packageWrite r l off bytes.length bytes) s = .next t ∧ Safety.Answered (.platform r) 6 t ∧
        t.dev.upd.staging = some st ∧ t.flash = s.flash)) ∧
    (∀ st, s.dev.upd.state = 2 → s.dev.upd.staging = some st → st.bytes ≤ 142606336 →
      (holdsGrant .iodCipher s.dev = false → ∃ t, exec (.packageEnd r l) s = .next t ∧ t.dev.upd.state = 3 ∧ t.dev.upd.staging = some st ∧
        t.flash = s.flash) ∧
      (holdsGrant .iodCipher s.dev = true → ∀ u, feedAll (worksOf s) 70 st = .ok u →
        (u.whole = true → ∃ t, exec (.packageEnd r l) s = .next t ∧ t.dev.upd.state = 3 ∧ t.dev.upd.staging = some { u with fresh := [] } ∧
          t.flash = programUnits u (markBank st u s.flash) ∧
          (holdsGrant .imageCheck t.dev = true ∨ waitsGrant .imageCheck t.dev = true)) ∧
        (u.whole = false → ∃ t, exec (.packageEnd r l) s = .next t ∧ t.dev.upd.state = 1 ∧ t.dev.upd.staging = none ∧ t.dev.upd.result = some 6))) ∧
    (∃ t, exec (.updateQuery r) s = .next t ∧ t.flash = s.flash ∧ t.dev.upd = { s.dev.upd with lastCmd := clock iodie s.dev } ∧
      t.dev.reply = .pldmBytes 0 (some 0) (natLE 4 (updateStatusWord s.dev) ++ natLE 4 s.dev.upd.detail ++ natLE 4 (bankStatusWord s)))) ∧
  (∀ (s : State) (l : Nat), Safety.CommandsHeld .manager l s → s.dev.upd.state = 1 →
    let len := getF .updateSrcLen 0 0 27 0 s.dev
    (0 < len → len ≤ 142606336 → ∃ t, exec .pull s = .next t ∧ t.dev.upd.state = 2 ∧ t.dev.upd.pulling = some len ∧
      t.dev.upd.staging = some (Staging.start (bankAt (otherBank s.flash) s.flash).state) ∧
      t.flash = updBank (otherBank s.flash) (fun b => { b with state := 2 }) { s.flash with writes := (s.flash.writes + 1) % 2 ^ 32 } ∧ Tab.get t.dev.link.reads s.dev.link.nextRead =
        some ⟨0xFF, getF .updateSrcHi 0 0 31 0 s.dev * 2 ^ 32 + getF .updateSrcLo 0 0 31 12 s.dev * 4096, min 4096 len, .pull 0, clock iodie s.dev⟩) ∧
    ((len = 0 ∨ 142606336 < len) → ∃ t, exec .pull s = .next t ∧ t.dev.upd.state = 1 ∧ t.dev.upd.result = some 6 ∧ t.dev.link = s.dev.link)) ∧
  (∀ (s : State) (c : LossCause), s.dev.link.up = true → s.dev.link.lost = false → s.dev.upd.pulling.isSome = true →
    ∃ t, exec (.hostLinkLoss c) s = .next t ∧ t.dev.upd.state = 1 ∧ t.dev.upd.result = some 0xC ∧ t.dev.upd.staging = none ∧
      t.dev.upd.pulling = none ∧ t.dev.upd.holder = s.dev.upd.holder ∧ t.dev.link.lost = true ∧
      (s.flash.banks.length = 2 → s.flash.active < 2 → s.dev.upd.stagesMgmt = false → (bankAt (otherBank s.flash) t.flash).state = 0)) ∧
  (∀ (s : State) (f : ImageFindings), s.dev.upd.state = 3 → verifyPowered s.dev = false → exec (.verifyEnd f) s = .next s) ∧
  (∀ (s : State) (f : ImageFindings) (st u : Staging), s.dev.upd.state = 3 → s.dev.upd.staging = some st → verifyPowered s.dev = true →
    st.bytes ≤ 142606336 → feedAll (worksOf s) 70 st = .ok u → u.header.any (fun h => h.getD 6 0 == 2) = false →
    s.flash.banks.length = 2 → s.flash.active < 2 →
    let f1 := programUnits u (markBank st u s.flash)
    let plain := (slotZero s).bind (fun k => openUnits k f.read.damaged 0 (bankAt (otherBank s.flash) f1).units)
    let c := verifyCode false s.flash.signKey f.read.signer (u.header.getD []) plain
    (u.whole = false → ∃ t, exec (.verifyEnd f) s = .next t ∧ t.dev.upd.state = 1 ∧ t.dev.upd.result = some 6 ∧ t.dev.upd.staging = none ∧
      (bankAt (otherBank s.flash) t.flash).state = 0 ∧ bankAt s.flash.active t.flash = bankAt s.flash.active s.flash) ∧
    (u.whole = true → c = 0 → ∃ t, exec (.verifyEnd f) s = .next t ∧ t.dev.upd.state = 4 ∧ t.dev.upd.result = some 0 ∧ t.dev.upd.staging = none ∧
      (bankAt (otherBank s.flash) t.flash).state = 3 ∧ (bankAt (otherBank s.flash) t.flash).image = some (imageOf (plain.getD []) f.contents) ∧
      (bankAt (otherBank s.flash) t.flash).units = (bankAt (otherBank s.flash) f1).units ∧ (bankAt (otherBank s.flash) t.flash).sets = u.setBytes ∧
      bankAt s.flash.active t.flash = bankAt s.flash.active s.flash ∧ t.flash.active = s.flash.active) ∧
    (u.whole = true → c ≠ 0 → ∃ t, exec (.verifyEnd f) s = .next t ∧ t.dev.upd.state = 1 ∧ t.dev.upd.result = some c ∧
      t.dev.upd.staging = none ∧ (bankAt (otherBank s.flash) t.flash).state = 0 ∧ bankAt s.flash.active t.flash = bankAt s.flash.active s.flash))

/-- R446, R449, R450, R459 to R469, R471, R474: ARM loads the standby cores and enters ARMING where the running version may hand over, or where the count exceeds ACTIVATION_COUNT; ARMING ends in the
handover, in ARMED, in VERIFIED, or in a REJECTED bank; TOKEN with the armed count starts the activation; a turn hands one pair over, the eighteenth enters TRIAL; a coordinated activation
takes its steps in order; COMMIT programs the settings' other copy, then the selector's, neither of which governs until it is whole, then makes the new bank the active one and
ends the lease; FALLBACK hands each pair back, rejects the bank, keeps the old one and answers INTERNAL. (The number of events that a commit and a coordinated activation take is the
model's choice, log entry 165.) -/
def Obligations.UpdateActivation : Prop :=
  (∀ (s : State) (src : UpdSrc) (l : Nat), Safety.CommandsHeld src l s →
    (mayArm s = true → s.dev.upd.mgmtStaged = false → ∀ im, newImage s = some im →
      (handoverOk s = true → ∃ t, exec (.armHandover src l) s = .next t ∧ t.dev.upd.state = 5 ∧ t.dev.upd.mode = 0 ∧ t.flash = s.flash ∧
        t.dev.upd.cores = s.dev.upd.cores.map (CorePair.load (sectionDigest im 7) true)) ∧
      (handoverOk s = false → ∃ t, exec (.armHandover src l) s = .next t ∧ Safety.Answered src 0xE t ∧ t.dev.upd.state = s.dev.upd.state ∧ t.flash = s.flash) ∧
      (∀ n, s.flash.actCount < countFrom src n s.dev → ∃ t, exec (.armCoordinated src l n) s = .next t ∧ t.dev.upd.state = 5 ∧ t.dev.upd.mode = 1 ∧
        t.dev.upd.armCount = countFrom src n s.dev ∧ t.flash = s.flash ∧
        t.dev.upd.cores = s.dev.upd.cores.map (CorePair.load (sectionDigest im 7) true)) ∧
      (∀ n, countFrom src n s.dev ≤ s.flash.actCount → ∃ t, exec (.armCoordinated src l n) s = .next t ∧ Safety.Answered src 3 t ∧
        t.dev.upd.state = s.dev.upd.state ∧ t.flash = s.flash)) ∧
    (mayArm s = true → s.dev.upd.mgmtStaged = true → s.dev.upd.state = 4 → ∃ t, exec (.armHandover src l) s = .next t ∧
      t.flash = { s.flash with mgmtActive := 1 - s.flash.mgmtActive } ∧ t.dev.mc.up = false ∧ t.dev.upd.holder = 0 ∧ t.dev.upd.mgmtStaged = false) ∧
    (mayArm s = false → ∃ t, exec (.armHandover src l) s = .next t ∧ Safety.Answered src 0xE t ∧ t.dev.upd.state = s.dev.upd.state) ∧
    (s.dev.upd.state = 6 → ∀ n,
      (countFrom src n s.dev = s.dev.upd.armCount → ∃ t, exec (.token src l n) s = .next t ∧ t.dev.upd.state = 7 ∧ t.dev.upd.pairs = 0 ∧
        t.dev.upd.actStep = 1 ∧ t.flash = s.flash) ∧
      (countFrom src n s.dev ≠ s.dev.upd.armCount → ∃ t, exec (.token src l n) s = .next t ∧ Safety.Answered src 3 t ∧ t.dev.upd.state = 6))) ∧
  (∀ (s : State) (f : ArmFindings), s.dev.upd.state = 5 → verifyPowered s.dev = false → exec (.armingEnd f) s = .next s) ∧
  (∀ (s : State) (f : ArmFindings) (im : Image), s.dev.upd.state = 5 → verifyPowered s.dev = true → newImage s = some im →
    s.flash.banks.length = 2 → s.flash.active < 2 →
    (∀ k, armSettings f im s = .error k → ∃ t, exec (.armingEnd f) s = .next t ∧ t.dev.upd.holder = 0 ∧ t.dev.upd.state = 0 ∧
      t.dev.upd.result = some 0x10 ∧ t.dev.upd.detail = k ∧ (bankAt (otherBank s.flash) t.flash).state = 4 ∧ t.flash.active = s.flash.active) ∧
    (∀ st, armSettings f im s = .ok st →
      (shapeFits im.contents.shape s.dev = true → ∃ t, exec (.armingEnd f) s = .next t ∧
        t.dev.upd.state = (if s.dev.upd.mode = 0 then 7 else 6) ∧ t.dev.upd.newStore = some st ∧ t.dev.upd.heldTo = some im.contents.shape ∧
        t.dev.upd.armedAt = clock iodie s.dev ∧ t.dev.upd.pairs = 0 ∧ t.flash = s.flash ∧ t.dev.q = s.dev.q) ∧
      (shapeFits im.contents.shape s.dev = false → ∃ t, exec (.armingEnd f) s = .next t ∧ t.dev.upd.state = 4 ∧ t.dev.upd.result = some 0xE ∧
        t.dev.upd.heldTo = s.dev.upd.heldTo ∧ t.flash = s.flash ∧
        (∀ p ∈ t.dev.upd.cores, p.standby = false)))) ∧
  (∀ (s : State), s.dev.upd.state = 7 → s.dev.upd.cores.length = 18 →
    let turned := fun (k : Nat) (t : State) => ∀ p q, s.dev.upd.cores[k]? = some p → t.dev.upd.cores[k]? = some q →
      q = { p with runs := 1 - p.runs, record := some k }
    (s.dev.upd.mode = 0 → ∃ t, exec .handoverTurn s = .next t ∧ t.dev.upd.pairs = s.dev.upd.pairs + 1 ∧
      t.dev.upd.state = (if s.dev.upd.pairs = 17 then 8 else 7) ∧ turned s.dev.upd.pairs t ∧
      (∀ k, k ≠ s.dev.upd.pairs → t.dev.upd.cores[k]? = s.dev.upd.cores[k]?) ∧ t.dev.q = s.dev.q ∧ t.dev.insts = s.dev.insts ∧ t.flash = s.flash) ∧
    (s.dev.upd.mode ≠ 0 → ∀ im, newImage s = some im →
      (s.dev.upd.actStep = 1 → ∃ t, exec .handoverTurn s = .next t ∧ t.dev.upd.pairs = 18 ∧ t.dev.upd.actStep = 2 ∧ t.dev.upd.state = 7 ∧
        (∀ k < 18, turned k t) ∧ t.dev.q = s.dev.q ∧ t.dev.insts = s.dev.insts ∧ t.flash = s.flash) ∧
      (s.dev.upd.actStep = 2 → ∃ t, exec .handoverTurn s = .next t ∧ t.dev.upd.actStep = 3 ∧ t.dev.upd.state = 7 ∧ t.dev.upd.era = s.dev.upd.era ∧
        Tab.get t.dev.upd.eras (s.dev.upd.era + 1) = some [sectionDigest im 2, sectionDigest im 3, sectionDigest im 4, sectionDigest im 5] ∧
        Tab.get t.dev.upd.eras s.dev.upd.era = Tab.get s.dev.upd.eras s.dev.upd.era ∧ t.dev.q = s.dev.q ∧ t.flash = s.flash) ∧
      (s.dev.upd.actStep = 3 → Safety.Quiet s.dev → ∃ t, exec .handoverTurn s = .next t ∧ t.dev.upd.actStep = 4 ∧ t.dev.upd.state = 7 ∧
        t.dev.upd.shape = im.contents.shape ∧ t.dev.upd.oldShape = some (s.dev.upd.shape, s.dev.upd.costs, s.dev.upd.era) ∧
        t.dev.q = s.dev.q ∧ t.dev.tiers = s.dev.tiers ∧ t.flash = s.flash ∧
        (∀ n < 64, Tab.has im.contents.shape.insts n = false → (instAt n t.dev).state = 0) ∧
        (∀ n < 64, Tab.has im.contents.shape.insts n = true → configured n s.dev = true → (instAt n t.dev).gen = (instAt n s.dev).gen ∧
          (instAt n t.dev).state = (instAt n s.dev).state)) ∧
      (s.dev.upd.actStep = 4 → ∃ t, exec .handoverTurn s = .next t ∧ t.dev.upd.state = 8 ∧ t.dev.upd.era = s.dev.upd.era + 1 ∧
        t.dev.upd.costs = im.contents.costs ∧ t.dev.q = s.dev.q ∧ t.dev.insts = s.dev.insts ∧ t.flash = s.flash))) ∧
  (∀ (s : State) (im : Image) (st : List Byte), s.dev.upd.state = 8 → newImage s = some im → s.dev.upd.newStore = some st →
    s.flash.banks.length = 2 → s.flash.active < 2 → s.flash.stores.length = 2 → s.flash.selectors.length = 2 →
    (s.dev.upd.commitStep = 0 → ∃ t, exec .commit s = .next t ∧ t.dev.upd.state = 8 ∧ t.dev.upd.commitStep = 1 ∧
      (∀ p ∈ t.dev.upd.cores, p.ready = true) ∧ t.flash = { s.flash with stores := t.flash.stores } ∧ storeInForce t.flash = storeInForce s.flash ∧
      t.dev.q = s.dev.q) ∧
    (s.dev.upd.commitStep = 1 → ∃ t, exec .commit s = .next t ∧ t.dev.upd.state = 8 ∧ t.dev.upd.commitStep = 2 ∧
      t.flash.stores[otherStore s.flash]? = some st ∧ t.flash.active = s.flash.active ∧ (selector t.flash) = (selector s.flash) ∧
      storeInForce t.flash = storeInForce s.flash ∧ t.dev.q = s.dev.q) ∧
    (s.dev.upd.commitStep = 2 → (selector s.flash).seq + 1 < 2 ^ 32 → ∃ t, exec .commit s = .next t ∧
      t.flash.active = otherBank s.flash ∧ (selector t.flash).seq = (selector s.flash).seq + 1 ∧ (selector t.flash).valid = true ∧
      (s.flash.stores[otherStore s.flash]? = some st → st ≠ [] → storeInForce t.flash = some st) ∧
      t.flash.actCount = (if s.dev.upd.mode = 1 then s.dev.upd.armCount else s.flash.actCount) ∧ (bankAt (otherBank s.flash) t.flash).state = 1 ∧
      (bankAt (otherBank s.flash) t.flash).image = some im ∧ t.dev.upd.holder = 0 ∧ t.dev.upd.state = 0 ∧ t.dev.upd.result = some 0 ∧
      t.dev.upd.cores = s.dev.upd.cores.map (CorePair.load (sectionDigest im 7) false) ∧
      t.dev.mc.measures = s.dev.mc.measures.take 3 ++
        [digestBytes (sectionDigest im 7), digestBytes (sectionDigest im 1), digestBytes (sha256 st)] ∧ t.dev.q = s.dev.q ∧
      Safety.SameRegs [addrOf .ledgerEvents 10 0] s.dev t.dev)) ∧
  (∀ (s : State), s.flash.banks.length = 2 → s.flash.active < 2 →
    let ended := fun (t : State) => (bankAt (otherBank s.flash) t.flash).state = 4 ∧ t.flash.active = s.flash.active ∧
      t.flash.actCount = s.flash.actCount ∧ t.flash.stores = s.flash.stores ∧ t.dev.upd.holder = 0 ∧ t.dev.upd.state = 0 ∧
      t.dev.upd.result = some 0xF ∧ t.dev.q = s.dev.q ∧ (∀ p ∈ t.dev.upd.cores, p.standby = false)
    (s.dev.upd.state = 6 ∨ s.dev.upd.state = 7 ∨ s.dev.upd.state = 8 → s.dev.upd.commitStep < 2 →
      (s.dev.upd.pairs = 0 → s.dev.upd.oldShape = none → ∃ t, exec .fallback s = .next t ∧ ended t) ∧
      (s.dev.upd.pairs ≠ 0 → ∃ t, exec .fallback s = .next t ∧ t.dev.upd.state = 9 ∧ t.dev.upd.pairs = s.dev.upd.pairs ∧
        t.dev.upd.cores = s.dev.upd.cores ∧ t.dev.q = s.dev.q ∧ t.flash = s.flash)) ∧
    (2 ≤ s.dev.upd.commitStep → exec .fallback s = .next s) ∧
    (s.dev.upd.state = 9 →
      (2 ≤ s.dev.upd.pairs → s.dev.upd.pairs ≤ s.dev.upd.cores.length → ∃ t, exec .handoverTurn s = .next t ∧ t.dev.upd.state = 9 ∧
        t.dev.upd.pairs = s.dev.upd.pairs - 1 ∧ (∀ k, k ≠ s.dev.upd.pairs - 1 → t.dev.upd.cores[k]? = s.dev.upd.cores[k]?) ∧
        (∀ p q, s.dev.upd.cores[s.dev.upd.pairs - 1]? = some p → t.dev.upd.cores[s.dev.upd.pairs - 1]? = some q → q.runs = 1 - p.runs) ∧
        t.dev.q = s.dev.q ∧ t.flash = s.flash) ∧
      (s.dev.upd.pairs ≤ 1 → s.dev.upd.oldShape = none → ∃ t, exec .handoverTurn s = .next t ∧ ended t) ∧
      (∀ old, s.dev.upd.pairs ≤ 1 → s.dev.upd.oldShape = some old → Safety.Quiet s.dev →
        (∀ n < 64, configured n s.dev = true → Tab.has old.1.insts n = true ∧ outOfShape old.1 n s.dev = false) →
        ∃ t, exec .handoverTurn s = .next t ∧ ended t ∧ t.dev.upd.shape = old.1 ∧ t.dev.upd.costs = old.2.1 ∧ t.dev.upd.era = old.2.2)))

/-! ## Starts and resets (02, 16, 18, 20) -/

/-- R54, R422, R443, R444, R485, R486, R507, R508, R511, R521: a brownout reset, an overvoltage, MOD_RESET_N, MODULE_RESET, POWER_CYCLE, a loss and a return of standby power each leave the module cleared for a start of their own
cause: no object, no key, no grant, memory zero, READY 0, with the log and the repair record of flash kept; the MC runs on but for standby power; a second request while one is
carried out gets ADMISSION_REFUSED. -/
def Obligations.ModuleResets : Prop :=
  let cleared := fun (cause : Nat) (s t : State) => t.dev.start.ready = false ∧ t.dev.start.nextCause = cause ∧ t.dev.start.begun = none ∧
    t.dev.q.wqs = [] ∧ t.dev.q.crs = [] ∧ t.dev.q.ctrs = [] ∧ t.dev.xl.ctxs = [] ∧ t.dev.xl.lfns = [] ∧ t.dev.rem.regions = [] ∧ t.dev.rem.doms = [] ∧
    t.dev.colls.comms = [] ∧ t.dev.insts = [] ∧ t.dev.keys.keys = [] ∧ t.dev.bricks.launches = [] ∧ t.dev.upd.holder = 0 ∧
    (∀ a, Mem.read t.dev.tiers.dev a = 0 ∧ Mem.read t.dev.tiers.basin a = 0) ∧ (∀ r ∈ t.dev.pwr.rails, r.grants = []) ∧
    t.flash.repair = s.flash.repair ∧ t.flash.boot = s.flash.boot ∧ t.flash.wrapKey = s.flash.wrapKey ∧ t.flash.anchor = s.flash.anchor ∧
    t.dev.link.hostMem = s.dev.link.hostMem
  let kept := fun (s t : State) => t.dev.mc.up = s.dev.mc.up ∧ t.dev.mc.eid = s.dev.mc.eid ∧ t.dev.mc.next = s.dev.mc.next ∧ t.flash.log = s.flash.log
  (∀ (s : State) (v : Nat), v < 65536 →
    (v < 3800 → ∃ t, exec (.brownoutReset v) s = .next t ∧ cleared 3 s t ∧ kept s t ∧ t.dev.pwr.mainOn = false ∧
      (s.dev.mc.up = true → s.dev.mc.buffer.length < 256 → s.dev.mc.clearing = false → s.dev.mc.next + s.dev.mc.buffer.length < 65536 →
        ∃ x, t.dev.mc.buffer = s.dev.mc.buffer ++ [x] ∧ x.cls = 3 ∧ x.area = 0x0A ∧ x.event = 2)) ∧
    (6000 < v → s.dev.pwr.stageOpen = false → ∃ t, exec (.inputOvervoltage v) s = .next t ∧ cleared 3 s t ∧ kept s t ∧ t.dev.pwr.mainOn = false ∧
      t.dev.pwr.stageOpen = true ∧ getF .platformStatus 0 0 31 31 t.dev = 1) ∧
    (∀ t0, v ≤ 5800 → s.dev.pwr.stageOpen = true → s.dev.pwr.under58Since = some t0 → t0 + 80000 ≤ clock iodie s.dev →
      ∃ t, exec (.overvoltageRecovery v) s = .next t ∧ t.dev.pwr.stageOpen = false ∧ t.dev.q = s.dev.q ∧ t.flash = s.flash)) ∧
  (∀ (s : State) (r : Option MReq),
    (match r with
     | none => s.dev.start.ready = true ∧ linkOpen s.dev = true
     | some m => heard 1 m s.dev = true ∧ m.formed = true ∧ ((sessionOf m s.dev).map Session.finished).getD true = true ∧ m.held < 4) →
    (s.dev.mc.resetReq = none → s.dev.pwr.thermtrip = false → ∃ t, exec (.moduleReset r) s = .next t ∧ cleared 1 s t ∧ kept s t ∧
      (r.isSome = true → t.dev.reply = .pldm 0 (some 0) []) ∧ (s.dev.mc.identityFail = 0 → t.dev.mc.resetReq = some 1)) ∧
    (s.dev.mc.resetReq.isSome = true ∨ s.dev.pwr.thermtrip = true → ∃ t, exec (.moduleReset r) s = .next t ∧
      (r.isSome = true → t.dev.reply = .pldm 0 (some 0xE) []) ∧ t.dev.q = s.dev.q ∧ t.dev.start = s.dev.start ∧ t.dev.mc.buffer = s.dev.mc.buffer) ∧
    (s.dev.mc.resetReq = none → ∃ t, exec (.powerCycle r) s = .next t ∧ cleared 2 s t ∧ kept s t ∧ t.dev.pwr.mainOn = false ∧ t.dev.pwr.thermtrip = false ∧
      t.dev.mc.resetReq = some 2 ∧ t.dev.mc.offReason = 2 ∧ t.dev.mc.offAt = clock iodie s.dev ∧ (r.isSome = true → t.dev.reply = .pldm 0 (some 0) [])) ∧
    (s.dev.mc.resetReq.isSome = true → ∃ t, exec (.powerCycle r) s = .next t ∧ (r.isSome = true → t.dev.reply = .pldm 0 (some 0xE) []) ∧
      t.dev.q = s.dev.q ∧ t.dev.start = s.dev.start)) ∧
  (∀ (s : State), s.dev.mc.offReason = 2 →
    (s.dev.mc.offAt + 16000000 ≤ clock iodie s.dev → ∃ t, exec .powerCycleReapply s = .next t ∧ t.dev.mc.offReason = 0 ∧ t.dev.start = s.dev.start ∧ t.flash = s.flash) ∧
    (clock iodie s.dev < s.dev.mc.offAt + 16000000 → exec .powerCycleReapply s = .next s)) ∧
  (∀ (s : State), s.dev.pwr.standby = true →
    (s.dev.mc.resetReq = none → ∃ t, exec .connectorReset s = .next t ∧ cleared 5 s t ∧ kept s t ∧
      (s.dev.mc.identityFail = 0 → s.dev.pwr.thermtrip = false → t.dev.mc.resetReq = some 5)) ∧
    (s.dev.mc.resetReq.isSome = true → exec .connectorReset s = .next s) ∧
    (∃ t, exec .standbyLoss s = .next t ∧ cleared 0 s t ∧ t.dev.pwr.standby = false ∧ t.dev.pwr.mainOn = false ∧ t.dev.mc.up = false ∧
      t.dev.mc.buffer = [] ∧ t.dev.mc.sessions = [])) ∧
  (∀ (s : State), s.dev.pwr.standby = false → ∃ t, exec .powerUp s = .next t ∧ cleared 0 s t ∧ t.dev.pwr.standby = true ∧ t.dev.mc.up = false ∧
    t.flash.log = s.flash.log)

/-- R422, R430, R432, R435, R438, R449, R452, R453, R471, R475 to R478, R485, R489, R511: an MC start begins its sessions, endpoint and sensors anew, takes the PUF secret and finds the identity
sound or not, measures itself, and takes the other copy of its firmware, with a record, where one does not start; main start-up begins when R475 lets it and MOD_RESET_N is high, raises
BOOT_COUNT, loads the active bank's image, or the other's where the active one fails, and stops without main logic where neither loads; the end of start-up sets READY with every
configured instance ACTIVE at generation 0, and a DDR5 module put in after step 6 is checked then. -/
def Obligations.StartUp : Prop :=
  (∀ (s : State) (straps : Nat) (puf : Option (BitVec 256)) (c : FirmwareCheck), s.dev.pwr.standby = true → s.dev.upd.oldShape = none →
    let f0 := if s.dev.upd.state = 2 ∨ s.dev.upd.state = 3 then emptyBank s.dev.upd s.flash else s.flash
    let k := s.flash.mgmtActive
    let o := 1 - s.flash.mgmtActive
    let other := ((copyAt o f0).state = 1 ∨ (copyAt o f0).state = 3) ∧ c.copies.getD o false = true
    (c.copies.getD k false = true ∨ other →
      ∃ t, exec (.mcStart straps puf c) s = .next t ∧ t.dev.mc.up = true ∧ t.dev.mc.sessions = [] ∧ t.dev.mc.eid = 0 ∧ t.dev.mc.receiver = none ∧
        t.dev.mc.boot = s.flash.boot ∧ t.dev.mc.next = s.dev.mc.next ∧ t.dev.mc.secret = puf ∧
        (puf = none → t.dev.mc.identityFail = 1) ∧
        (∀ x, puf = some x → t.dev.mc.identityFail = (if s.flash.chain.any (fun c => c.device == some x) then 0 else 2)) ∧
        t.dev.mc.measures.take 3 = [natLE 4 Config.romVersion.toNat, digestBytes Config.stageOne, firmwareMeasure t.flash] ∧
        t.dev.pwr.straps = straps % 8 ∧ t.dev.upd.holder = 0 ∧ t.dev.q = s.dev.q ∧ t.dev.tiers = s.dev.tiers ∧ t.dev.start = s.dev.start ∧
        t.flash.mgmtActive = (if c.copies.getD k false = true then k else o) ∧
        (t.dev.mc.identityFail = 0 → c.copies.getD k false = true → t.dev.mc.buffer = s.dev.mc.buffer) ∧
        (t.dev.mc.identityFail = 0 → c.copies.getD k false = false → s.dev.mc.buffer.length < 256 → s.dev.mc.clearing = false →
          s.dev.mc.next + s.dev.mc.buffer.length < 65536 → ∃ x, t.dev.mc.buffer = s.dev.mc.buffer ++ [x] ∧ x.area = 0x09)) ∧
    (c.copies.getD k false = false → ¬ other → ∃ t, exec (.mcStart straps puf c) s = .next t ∧ t.dev.mc.up = false ∧
      t.flash.mgmtActive = k ∧ t.dev.q = s.dev.q ∧ t.dev.start = s.dev.start)) ∧
  (∀ (s : State) (straps : Nat) (puf : Option (BitVec 256)) (c : FirmwareCheck), s.dev.pwr.standby = false →
    exec (.mcStart straps puf c) s = .next s) ∧
  (∀ (s : State) (f : StartFindings), mayStart s.dev = false ∨ f.pinHigh = false → exec (.mainStartup f) s = .next s) ∧
  (∀ (s : State) (f : StartFindings), mayStart s.dev = true → f.pinHigh = true → s.flash.banks.length = 2 → s.flash.active < 2 →
    let o := otherBank s.flash
    let began := fun (t : State) => t.flash.boot = (s.flash.boot + 1) % 2 ^ 32 ∧ t.flash.mark = false ∧ t.dev.mc.boot = t.flash.boot ∧
      t.dev.mc.resetReq = none ∧ t.dev.start.begun = some (clock iodie s.dev) ∧ t.dev.start.cause = (if s.flash.mark then 4 else s.dev.start.nextCause)
    (bankLoads s.flash.active f s = true → ∃ t, exec (.mainStartup f) s = .next t ∧ began t ∧ t.flash.active = s.flash.active ∧
      t.dev.start.step = 8 ∧ t.dev.pwr.mainOn = true ∧ (bankAt s.flash.active t.flash).state = 1 ∧ t.dev.start.ready = s.dev.start.ready ∧
      (∀ im, (bankAt s.flash.active s.flash).image = some im → t.dev.upd.shape = im.contents.shape ∧ t.dev.upd.costs = im.contents.costs ∧
        t.dev.upd.cores = List.replicate 18 ⟨0, [sectionDigest im 7, sectionDigest im 7], false, none, false⟩ ∧
        (t.dev.upd.settingsIgnored = true ↔ startSettings f im s.flash = none))) ∧
    (bankLoads s.flash.active f s = false → mayTry o s.flash = true → bankLoads o f s = true → s.flash.selectors.length = 2 →
      (selector s.flash).seq + 1 < 2 ^ 32 → ∃ t, exec (.mainStartup f) s = .next t ∧
      began t ∧ t.flash.active = o ∧ t.dev.start.step = 8 ∧ t.dev.start.fallback = true ∧ (bankAt s.flash.active t.flash).state = 5) ∧
    (bankLoads s.flash.active f s = false → mayTry o s.flash = false → ∃ t, exec (.mainStartup f) s = .next t ∧ began t ∧
      t.dev.start.step = 2 ∧ t.dev.pwr.mainOn = false ∧ (bankAt s.flash.active t.flash).state = 5 ∧ t.flash.active = s.flash.active)) ∧
  (∀ (s : State) (t0 : Nat), s.dev.start.begun = some t0 → s.dev.start.ready = false → s.dev.start.step = 8 →
    ∃ t, exec .startupReady s = .next t ∧ t.dev.start.ready = true ∧ t.dev.start.step = 9 ∧ t.dev.pwr.readyPin = true ∧
      (∀ n p, Tab.get s.dev.upd.shape.insts n = some p → (instAt n t.dev).state = 1 ∧ (instAt n t.dev).gen = 0) ∧
      (∀ n, Tab.get s.dev.upd.shape.insts n = none → (instAt n t.dev).state = 0) ∧ t.dev.regs = s.dev.regs ∧ t.dev.q = s.dev.q ∧ t.flash = s.flash ∧
      (s.dev.start.inserted = [] → t.dev.tiers = s.dev.tiers) ∧
      (∀ k cap, k < s.dev.tiers.sites.length → s.dev.start.inserted = [(k, cap, true)] → cap ≤ 256 → (siteAt k s.dev).state = 0 →
        (siteAt k t.dev).state = 1))
end

