-- ==== Sys2Proof/Laws/Crypto.lean ====
section
/-! SUPPORT. AES-256-GCM opens what it encrypted, and a stored unit opens as it was sealed (R411, R448). -/

namespace Sys2Proof.Machine

@[simp] theorem xorBytes_length (a b : List Byte) : (xorBytes a b).length = min a.length b.length := by simp [xorBytes]

/-- A text added to a stream that is long enough, twice, is the text. -/
theorem xorBytes_cancel {a k : List Byte} (h : a.length ≤ k.length) : xorBytes (xorBytes a k) k = a := by
  refine List.ext_getElem (by simp [h]) fun i h1 h2 => ?_
  simp [xorBytes]

theorem natLE_length (n v : Nat) : (natLE n v).length = n := by
  induction n generalizing v with
  | zero => rfl
  | succ n ih => simp [natLE, ih]

theorem natBE_length (n v : Nat) : (natBE n v).length = n := by simp [natBE, natLE_length]

theorem aesBlock_length {ks : List (List Byte)} (h : (ks.getD 14 []).length = 16) (b : List Byte) : (aesBlock ks b).length = 16 := by
  simp only [aesBlock, xorBytes_length, h, shiftRows, List.length_map, List.length_range, Nat.min_self]

/-- The key stream is as long as the text. -/
theorem gcmStream_length {ks : List (List Byte)} (h : (ks.getD 14 []).length = 16) (iv : List Byte) (n : Nat) :
    n ≤ (gcmStream ks iv n).length := by
  have hs : ∀ l : List Nat, ((l.map (fun i => aesBlock ks (iv ++ natBE 4 (i + 2)))).flatten).length = 16 * l.length := by
    intro l
    induction l with
    | nil => rfl
    | cons a r ih => simp only [List.map_cons, List.flatten_cons, List.length_append, aesBlock_length h, ih, List.length_cons]; omega
  have := hs (List.range ((n + 15) / 16))
  simp only [gcmStream, this, List.length_range]
  omega

theorem gcmTag_length {ks : List (List Byte)} (h : (ks.getD 14 []).length = 16) (iv aad ct : List Byte) : (gcmTag ks iv aad ct).length = 16 := by
  simp only [gcmTag, xorBytes_length, aesBlock_length h, natBE_length, Nat.min_self]

/-- A ciphertext opens, under its key, IV and additional data, to the text that was encrypted. -/
theorem gcmOpen_gcm {key : BitVec 256} (h : ((roundKeys key).getD 14 []).length = 16) (iv aad pt : List Byte) :
    gcmOpen key iv aad (gcm key iv aad pt) = some pt := by
  have hs := gcmStream_length h iv pt.length
  have hc : (xorBytes pt (gcmStream (roundKeys key) iv pt.length)).length = pt.length := by simp [hs]
  have ht := gcmTag_length h iv aad (xorBytes pt (gcmStream (roundKeys key) iv pt.length))
  simp only [gcmOpen, gcmPasses, gcmText, gcm, List.length_append, ht, Nat.add_sub_cancel, List.take_left', List.drop_left', hc,
    xorBytes_cancel hs, beq_self_eq_true, Bool.and_true, decide_eq_true_eq, Nat.le_add_left, if_true]

/-- A stored unit opens as it was sealed. -/
theorem openUnit_sealUnit {key : BitVec 256} (h : ((roundKeys key).getD 14 []).length = 16) {serial writes idx : Nat} {pt : List Byte}
    (h1 : (unitHeader serial writes idx pt.length).length = 32) (h2 : fieldLE (unitHeader serial writes idx pt.length) 0 4 = idx)
    (h3 : fieldLE (unitHeader serial writes idx pt.length) 4 4 = pt.length)
    (h4 : ((unitHeader serial writes idx pt.length).drop 8).take 12 = storageIv serial writes idx) :
    openUnit key [] idx (sealUnit key serial writes idx pt) = some pt := by
  have hs := gcmStream_length h (storageIv serial writes idx) pt.length
  have hc : (gcm key (storageIv serial writes idx) (unitHeader serial writes idx pt.length) pt).length = pt.length + 16 := by
    simp [gcm, gcmTag_length h, hs]
  simp only [openUnit, sealUnit, List.take_left' h1, List.drop_left' h1, h2, h3, h4, List.length_append, h1, hc]
  have : (pt.length + 48 != 32 + (pt.length + 16)) = false := by simp; omega
  simp [this, gcmOpen_gcm h]

/-- One unit that opens is the whole text. -/
theorem openUnits_one {key : BitVec 256} {damaged : List Nat} {idx : Nat} {u pt : List Byte} (h : openUnit key damaged idx u = some pt) :
    openUnits key damaged idx [u] = some pt := by simp [openUnits, h]

end Sys2Proof.Machine
end

