-- ==== Sys2Proof/Laws/Local.lean ====
section
/-! SUPPORT. The end of a command: where nothing is on the local path and the fabric dies are idle, it changes nothing. -/

namespace Sys2Proof.Machine

/-- No die's local path holds a packet: nothing is delivered. -/
theorem runLoop_idle (n : Nat) (d : Dev) (h : ∀ i, (pesAt i d).loop = []) : runLoop n d = d := by
  cases n with
  | zero => rfl
  | succ n =>
    have : (List.range 2).find? (fun i => !(pesAt i d).loop.isEmpty) = none := by
      simp [h]
    unfold runLoop; rw [this]

theorem pesAt_loop_of_quiet {d : Dev} (h : ∀ p ∈ d.pes, p.loop = []) (i : Nat) : (pesAt i d).loop = [] := by
  unfold pesAt listGet
  rcases Nat.lt_or_ge i d.pes.length with hi | hi
  · simp only [List.getD_eq_getElem?_getD, List.getElem?_eq_getElem hi, Option.getD_some]
    exact h _ (List.getElem_mem hi)
  · simp only [List.getD_eq_getElem?_getD, List.getElem?_eq_none hi, Option.getD_none]; rfl

/-- Over a list on each of whose members a change does nothing, nothing changes. -/
theorem each_id {α : Type} {f : α → Dev → Dev} {d : Dev} : ∀ l : List α, (∀ a ∈ l, f a d = d) → each l f d = d
  | [], _ => rfl
  | a :: l, h => by
    have ha := h a (List.mem_cons_self ..)
    have := each_id l (fun b hb => h b (List.mem_cons_of_mem _ hb))
    simpa [each, ha] using this

/-- With no host DMA transfer, no piece goes on. -/
theorem pumpHost_idle {d : Dev} (h : d.link.dmas = []) : pumpHost d = d :=
  each_id _ (fun i _ => by simp [h, when_])

/-- With no DDR5 channel on the I/O die's rail, none returns a grant. -/
theorem idleDdr_idle {d : Dev} (hg : ∀ g ∈ (railAt 10 d).grants, ∀ k, g.unit ≠ .ddr5 k)
    (hw : ∀ w ∈ (railAt 10 d).waiting, ∀ k, w.req.unit ≠ .ddr5 k) : idleDdr d = d := by
  refine each_id _ (fun u hu => ?_)
  have hk : ∀ k, u ≠ .ddr5 k := by
    simp only [List.mem_append, List.mem_map] at hu
    rcases hu with ⟨g, hg', rfl⟩ | ⟨w, hw', rfl⟩
    · exact hg g hg'
    · exact hw w hw'
  cases u <;> first | rfl | exact absurd rfl (hk _)

/-- With nothing on the local path and the fabric dies' units idle, the end of a command changes nothing. -/
theorem localPath_quiet (d : Dev) (h : Safety.Quiet d) : localPath d = d := by
  obtain ⟨hl, hm, hr, hg, hw⟩ := h
  have h8 := hr 8 (.inl rfl)
  have h9 := hr 9 (.inr rfl)
  unfold localPath
  rw [runLoop_idle _ _ (pesAt_loop_of_quiet hl), pumpHost_idle hm, runLoop_idle _ _ (pesAt_loop_of_quiet hl)]
  simp [idleEngines, h8.1, h8.2, h9.1, h9.2, each, idleDdr_idle hg hw]

/-- A head that holds its completion slot takes none. -/
theorem takeSlot_held {q : Nat} {d : Dev} {w : WQ} {h : Head} (hs : slottedHead q d = some (w, h)) : takeSlot q d = d := by
  simp only [slottedHead, Option.bind_eq_some_iff] at hs
  obtain ⟨v, hv, g, hg, hif⟩ := hs
  split at hif
  · rename_i hsome
    simp only [takeSlot, hv, hg]
    split
    · rename_i hh _
      cases hh
      simp [hsome]
    · rfl
  · cases hif

end Sys2Proof.Machine
end

