-- ==== Sys2Proof/Laws/Tab.lean ====
section
/-! SUPPORT. The laws of tables and byte memories: read after write, and that every operation keeps the canonical form;
and the laws of bit fields. -/

namespace Sys2Proof.Machine

variable {α : Type}

/-! ## Tables: read after write -/

@[simp] theorem Tab.get_nil (k : Nat) : Tab.get ([] : Tab α) k = none := rfl

@[simp] theorem Tab.get_set_self (t : Tab α) (k : Nat) (v : α) : Tab.get (Tab.set t k v) k = some v := by
  induction t with
  | nil => simp [Tab.set, Tab.get]
  | cons p r ih =>
    obtain ⟨a, w⟩ := p
    simp only [Tab.set]
    split
    · rename_i h; simp [Tab.get, ih, Nat.ne_of_lt h]
    · split <;> simp [Tab.get]

theorem Tab.get_set_other (t : Tab α) {k j : Nat} (v : α) (h : j ≠ k) : Tab.get (Tab.set t k v) j = Tab.get t j := by
  induction t with
  | nil => simp [Tab.set, Tab.get, Ne.symm h]
  | cons p r ih =>
    obtain ⟨a, w⟩ := p
    simp only [Tab.set]
    split
    · simp [Tab.get, ih]
    · split
      · rename_i h2; subst h2; simp [Tab.get, Ne.symm h]
      · simp [Tab.get, Ne.symm h]

theorem Tab.get_erase_other (t : Tab α) {k j : Nat} (h : j ≠ k) : Tab.get (Tab.erase t k) j = Tab.get t j := by
  induction t with
  | nil => rfl
  | cons p r ih =>
    obtain ⟨a, w⟩ := p
    by_cases ha : a = k
    · subst ha
      have : Tab.erase ((a, w) :: r) a = Tab.erase r a := by simp [Tab.erase]
      rw [this, ih]; simp [Tab.get, Ne.symm h]
    · have : Tab.erase ((a, w) :: r) k = (a, w) :: Tab.erase r k := by simp [Tab.erase, ha]
      rw [this]; simp [Tab.get, ih]

@[simp] theorem Tab.get_erase_self (t : Tab α) (k : Nat) : Tab.get (Tab.erase t k) k = none := by
  induction t with
  | nil => rfl
  | cons p r ih =>
    obtain ⟨a, w⟩ := p
    by_cases ha : a = k
    · subst ha
      have : Tab.erase ((a, w) :: r) a = Tab.erase r a := by simp [Tab.erase]
      rw [this, ih]
    · have : Tab.erase ((a, w) :: r) k = (a, w) :: Tab.erase r k := by simp [Tab.erase, ha]
      rw [this]; simp [Tab.get, ih, ha]

theorem Tab.get_modify (t : Tab α) (k j : Nat) (f : α → α) :
    Tab.get (Tab.modify t k f) j = if j = k then (Tab.get t j).map f else Tab.get t j := by
  induction t with
  | nil => simp [Tab.modify, Tab.get]
  | cons p r ih =>
    obtain ⟨a, w⟩ := p
    simp only [Tab.modify, List.map_cons] at ih ⊢
    by_cases ha : a = k
    · subst ha
      by_cases hj : a = j
      · subst hj; simp [Tab.get]
      · have hj' : j ≠ a := fun h => hj h.symm
        simpa [Tab.get, hj, hj'] using ih
    · by_cases hj : a = j
      · subst hj; simp [Tab.get, ha]
      · simpa [Tab.get, ha, hj] using ih

@[simp] theorem Tab.get_modify_self (t : Tab α) (k : Nat) (f : α → α) :
    Tab.get (Tab.modify t k f) k = (Tab.get t k).map f := by simp [Tab.get_modify]

theorem Tab.get_modify_other (t : Tab α) {k j : Nat} (f : α → α) (h : j ≠ k) :
    Tab.get (Tab.modify t k f) j = Tab.get t j := by simp [Tab.get_modify, h]

theorem Tab.get_mapVals (t : Tab α) (f : Nat → α → α) (k : Nat) :
    Tab.get (Tab.mapVals t f) k = (Tab.get t k).map (f k) := by
  induction t with
  | nil => rfl
  | cons p r ih =>
    obtain ⟨a, w⟩ := p
    simp only [Tab.mapVals, List.map_cons] at ih ⊢
    by_cases ha : a = k
    · subst ha; simp [Tab.get]
    · simpa [Tab.get, ha] using ih

/-! ## Tables: the canonical form -/

/-- Keys strictly rising, as a relation between every two entries. -/
theorem Tab.wf_iff (t : Tab α) : Tab.wf t = true ↔ t.Pairwise (fun p q => p.1 < q.1) := by
  induction t with
  | nil => simp [Tab.wf]
  | cons p r ih =>
    cases r with
    | nil => simp [Tab.wf]
    | cons q l =>
      simp only [Tab.wf, Bool.and_eq_true, decide_eq_true_eq, ih, List.pairwise_cons]
      constructor
      · rintro ⟨h, h2, h3⟩
        refine ⟨fun x hx => ?_, h2, h3⟩
        rcases List.mem_cons.mp hx with rfl | hx
        · exact h
        · exact Nat.lt_trans h (h2 x hx)
      · rintro ⟨h, h2, h3⟩
        exact ⟨h q (List.mem_cons_self ..), h2, h3⟩

/-- The keys of a table after an entry: those it had, and the one entered. -/
theorem Tab.mem_set {t : Tab α} {k : Nat} {v : α} {p : Nat × α} (h : p ∈ Tab.set t k v) : p = (k, v) ∨ p ∈ t := by
  induction t with
  | nil => simpa [Tab.set] using h
  | cons q r ih =>
    obtain ⟨a, w⟩ := q
    simp only [Tab.set] at h
    split at h
    · rcases List.mem_cons.mp h with h | h
      · exact Or.inr (h ▸ List.mem_cons_self ..)
      · exact (ih h).imp id (List.mem_cons_of_mem _)
    · split at h
      · rcases List.mem_cons.mp h with h | h
        · exact Or.inl h
        · exact Or.inr (List.mem_cons_of_mem _ h)
      · rcases List.mem_cons.mp h with h | h
        · exact Or.inl h
        · exact Or.inr h

theorem Tab.wf_set {t : Tab α} (h : Tab.wf t = true) (k : Nat) (v : α) : Tab.wf (Tab.set t k v) = true := by
  rw [Tab.wf_iff] at h ⊢
  induction t with
  | nil => simp [Tab.set]
  | cons p r ih =>
    obtain ⟨a, w⟩ := p
    obtain ⟨h1, h2⟩ := List.pairwise_cons.mp h
    simp only [Tab.set]
    split
    · rename_i hlt
      refine List.pairwise_cons.mpr ⟨fun x hx => ?_, ih h2⟩
      rcases Tab.mem_set hx with rfl | hx
      · exact hlt
      · exact h1 x hx
    · split
      · rename_i _ heq; subst heq
        exact List.pairwise_cons.mpr ⟨fun x hx => h1 x hx, h2⟩
      · rename_i h3 h4
        refine List.pairwise_cons.mpr ⟨fun x hx => ?_, h⟩
        rcases List.mem_cons.mp hx with rfl | hx
        · omega
        · have := h1 x hx; simp only at this ⊢; omega

theorem Tab.wf_filter {t : Tab α} (h : Tab.wf t = true) (f : Nat × α → Bool) : Tab.wf (t.filter f) = true := by
  rw [Tab.wf_iff] at h ⊢
  exact h.filter f

theorem Tab.wf_erase {t : Tab α} (h : Tab.wf t = true) (k : Nat) : Tab.wf (Tab.erase t k) = true := Tab.wf_filter h _

theorem Tab.wf_keep {t : Tab α} (h : Tab.wf t = true) (f : Nat → α → Bool) : Tab.wf (Tab.keep t f) = true :=
  Tab.wf_filter h _

theorem Tab.wf_mapVals {t : Tab α} (h : Tab.wf t = true) (f : Nat → α → α) : Tab.wf (Tab.mapVals t f) = true := by
  rw [Tab.wf_iff] at h ⊢
  simpa [Tab.mapVals, List.pairwise_map] using h

theorem Tab.wf_modify {t : Tab α} (h : Tab.wf t = true) (k : Nat) (f : α → α) : Tab.wf (Tab.modify t k f) = true := by
  rw [Tab.wf_iff] at h ⊢
  rw [Tab.modify, List.pairwise_map]
  refine h.imp fun {p q} hpq => ?_
  split <;> split <;> simpa using hpq

/-! ## Byte memories -/

@[simp] theorem Mem.read_nil (a : Nat) : Mem.read [] a = 0 := rfl

@[simp] theorem Mem.read_write_self (m : Mem) (a : Nat) (b : Byte) : Mem.read (Mem.write m a b) a = b := by
  unfold Mem.read Mem.write Tab.getD
  split
  · rename_i h; simp [h]
  · simp

theorem Mem.read_write_other (m : Mem) {a x : Nat} (b : Byte) (h : x ≠ a) : Mem.read (Mem.write m a b) x = Mem.read m x := by
  unfold Mem.read Mem.write Tab.getD
  split
  · rw [Tab.get_erase_other m h]
  · rw [Tab.get_set_other m b h]

/-- Bytes outside the ones written are as they were. -/
theorem Mem.read_writeN_outside (m : Mem) (l : List Byte) {a x : Nat} (h : x < a ∨ a + l.length ≤ x) :
    Mem.read (Mem.writeN m a l) x = Mem.read m x := by
  induction l generalizing m a with
  | nil => rfl
  | cons b r ih =>
    simp only [List.length_cons] at h
    rw [Mem.writeN, ih _ (by omega), Mem.read_write_other _ _ (by omega)]

/-- The bytes written read as they were written. -/
theorem Mem.read_writeN_inside (m : Mem) (l : List Byte) {a k : Nat} (h : k < l.length) :
    Mem.read (Mem.writeN m a l) (a + k) = l[k] := by
  induction l generalizing m a k with
  | nil => simp at h
  | cons b r ih =>
    rw [Mem.writeN]
    cases k with
    | zero => rw [Mem.read_writeN_outside _ _ (by omega)]; simp
    | succ k =>
      have := ih (Mem.write m a b) (a := a + 1) (k := k) (by simpa using h)
      rw [show a + (k + 1) = a + 1 + k by omega, this]; rfl

theorem Mem.readN_length (m : Mem) (a n : Nat) : (Mem.readN m a n).length = n := by
  induction n generalizing a with
  | zero => rfl
  | succ n ih => simp [Mem.readN, ih]

theorem Mem.readN_writeN (m : Mem) (a : Nat) (l : List Byte) : Mem.readN (Mem.writeN m a l) a l.length = l := by
  induction l generalizing m a with
  | nil => rfl
  | cons b r ih =>
    simp only [List.length_cons, Mem.readN, Mem.writeN]
    rw [ih, Mem.read_writeN_outside _ _ (by omega), Mem.read_write_self]

theorem Mem.wf_nil : Mem.wf [] = true := rfl

theorem Mem.wf_filter {m : Mem} (h : Mem.wf m = true) (f : Host.Cell → Bool) : Mem.wf (m.filter f) = true := by
  simp only [Mem.wf, Bool.and_eq_true, List.all_eq_true] at h ⊢
  exact ⟨Tab.wf_filter h.1 f, fun x hx => h.2 x (List.mem_filter.mp hx).1⟩

theorem Mem.wf_write {m : Mem} (h : Mem.wf m = true) (a : Nat) (b : Byte) : Mem.wf (Mem.write m a b) = true := by
  unfold Mem.write
  split
  · exact Mem.wf_filter h _
  · rename_i hb
    simp only [Mem.wf, Bool.and_eq_true, List.all_eq_true] at h ⊢
    refine ⟨Tab.wf_set h.1 a b, fun x hx => ?_⟩
    rcases Tab.mem_set hx with rfl | hx
    · simpa using hb
    · exact h.2 x hx

theorem Mem.wf_writeN {m : Mem} (h : Mem.wf m = true) (a : Nat) (l : List Byte) : Mem.wf (Mem.writeN m a l) = true := by
  induction l generalizing m a with
  | nil => exact h
  | cons b r ih => exact ih (Mem.wf_write h a b) (a + 1)

theorem Mem.wf_zero {m : Mem} (h : Mem.wf m = true) (a n : Nat) : Mem.wf (Mem.zero m a n) = true := Mem.wf_filter h _

theorem Mem.wf_foldl_write {β : Type} {m : Mem} (h : Mem.wf m = true) (l : List β) (a : β → Nat) (b : β → Byte) :
    Mem.wf (l.foldl (fun acc p => Mem.write acc (a p) (b p)) m) = true := by
  induction l generalizing m with
  | nil => exact h
  | cons p r ih => exact ih (Mem.wf_write h _ _)

theorem Mem.wf_copy {m : Mem} (h : Mem.wf m = true) (src dst n : Nat) : Mem.wf (Mem.copy m src dst n) = true :=
  Mem.wf_foldl_write (Mem.wf_zero h dst n) _ _ _

/-! ## Bit fields -/

theorem bitsOf_lt (w hi lo : Nat) : bitsOf w hi lo < 2 ^ (hi + 1 - lo) := Nat.mod_lt _ (Nat.two_pow_pos _)

/-- A field that was set reads as the value set. -/
theorem bitsOf_withBits_self (w v : Nat) {hi lo : Nat} (h : lo ≤ hi) :
    bitsOf (withBits w hi lo v) hi lo = v % 2 ^ (hi + 1 - lo) := by
  unfold bitsOf withBits
  rw [Nat.shiftRight_eq_div_pow]
  have e : 2 ^ (hi + 1) = 2 ^ (hi + 1 - lo) * 2 ^ lo := by rw [← Nat.pow_add]; congr 1; omega
  rw [e, ← Nat.mul_assoc, ← Nat.add_mul, Nat.mul_comm _ (2 ^ lo), Nat.add_comm, Nat.add_mul_div_left _ _ (Nat.two_pow_pos _),
    Nat.div_eq_of_lt (Nat.mod_lt _ (Nat.two_pow_pos _)), Nat.zero_add, Nat.add_comm, Nat.add_mul_mod_self_right, Nat.mod_mod]

/-- A field below the one that was set is as it was. -/
theorem bitsOf_withBits_below (w v : Nat) {hi lo h l : Nat} (hl : h < lo) (hh : l ≤ h) (ho : lo ≤ hi) :
    bitsOf (withBits w hi lo v) h l = bitsOf w h l := by
  unfold bitsOf withBits
  rw [Nat.shiftRight_eq_div_pow, Nat.shiftRight_eq_div_pow w l]
  have e1 : 2 ^ (hi + 1) = 2 ^ (hi + 1 - lo) * 2 ^ lo := by rw [← Nat.pow_add]; congr 1; omega
  have e2 : 2 ^ lo = 2 ^ (lo - (h + 1)) * 2 ^ (h + 1 - l) * 2 ^ l := by
    rw [← Nat.pow_add, ← Nat.pow_add]; congr 1; omega
  have key : ∀ q : Nat, (q * 2 ^ lo + w % 2 ^ lo) / 2 ^ l % 2 ^ (h + 1 - l) = w / 2 ^ l % 2 ^ (h + 1 - l) := by
    intro q
    have hw : w = w / 2 ^ lo * 2 ^ lo + w % 2 ^ lo := (Nat.div_add_mod' w (2 ^ lo)).symm
    generalize w % 2 ^ lo = r at hw ⊢
    rw [hw]
    generalize w / 2 ^ lo = q2
    have step : ∀ x : Nat, (x * 2 ^ lo + r) / 2 ^ l % 2 ^ (h + 1 - l) = r / 2 ^ l % 2 ^ (h + 1 - l) := by
      intro x
      rw [e2, ← Nat.mul_assoc, ← Nat.mul_assoc, Nat.add_comm, Nat.mul_comm _ (2 ^ l), Nat.add_mul_div_left _ _ (Nat.two_pow_pos _),
        Nat.add_mul_mod_self_right]
    rw [step, step]
  have := key (w >>> (hi + 1) * 2 ^ (hi + 1 - lo) + v % 2 ^ (hi + 1 - lo))
  rw [Nat.add_mul, Nat.mul_assoc, ← e1] at this
  exact this

/-- A field above the one that was set is as it was. -/
theorem bitsOf_withBits_above (w v : Nat) {hi lo h l : Nat} (hl : hi < l) (ho : lo ≤ hi) :
    bitsOf (withBits w hi lo v) h l = bitsOf w h l := by
  unfold bitsOf withBits
  congr 1
  rw [Nat.shiftRight_eq_div_pow, Nat.shiftRight_eq_div_pow w l, Nat.shiftRight_eq_div_pow]
  have e1 : 2 ^ l = 2 ^ (hi + 1) * 2 ^ (l - (hi + 1)) := by rw [← Nat.pow_add]; congr 1; omega
  have e2 : 2 ^ (hi + 1) = 2 ^ (hi + 1 - lo) * 2 ^ lo := by rw [← Nat.pow_add]; congr 1; omega
  have hlt : v % 2 ^ (hi + 1 - lo) * 2 ^ lo + w % 2 ^ lo < 2 ^ (hi + 1) := by
    have h1 : v % 2 ^ (hi + 1 - lo) < 2 ^ (hi + 1 - lo) := Nat.mod_lt _ (Nat.two_pow_pos _)
    have h2 : w % 2 ^ lo < 2 ^ lo := Nat.mod_lt _ (Nat.two_pow_pos _)
    rw [e2]
    calc v % 2 ^ (hi + 1 - lo) * 2 ^ lo + w % 2 ^ lo
        < v % 2 ^ (hi + 1 - lo) * 2 ^ lo + 2 ^ lo := by omega
      _ = (v % 2 ^ (hi + 1 - lo) + 1) * 2 ^ lo := by rw [Nat.add_mul, Nat.one_mul]
      _ ≤ 2 ^ (hi + 1 - lo) * 2 ^ lo := Nat.mul_le_mul_right _ h1
  rw [e1, ← Nat.div_div_eq_div_mul, ← Nat.div_div_eq_div_mul, Nat.add_assoc, Nat.add_comm, Nat.add_mul_div_right _ _ (Nat.two_pow_pos _),
    Nat.div_eq_of_lt hlt, Nat.zero_add]

/-- A word whose field is set stays within 32 bits. -/
theorem withBits_lt {w hi lo v : Nat} (hw : w < 2 ^ 32) (ho : lo ≤ hi) (hh : hi < 32) : withBits w hi lo v < 2 ^ 32 := by
  unfold withBits
  have e1 : (2:Nat) ^ 32 = 2 ^ (31 - hi) * 2 ^ (hi + 1) := by rw [← Nat.pow_add]; congr 1; omega
  have e2 : 2 ^ (hi + 1) = 2 ^ (hi + 1 - lo) * 2 ^ lo := by rw [← Nat.pow_add]; congr 1; omega
  have hq : w >>> (hi + 1) < 2 ^ (31 - hi) := by
    rw [Nat.shiftRight_eq_div_pow]; exact Nat.div_lt_of_lt_mul (by rw [Nat.mul_comm, ← e1]; exact hw)
  have hlt : v % 2 ^ (hi + 1 - lo) * 2 ^ lo + w % 2 ^ lo < 2 ^ (hi + 1) := by
    have h1 : v % 2 ^ (hi + 1 - lo) < 2 ^ (hi + 1 - lo) := Nat.mod_lt _ (Nat.two_pow_pos _)
    have h2 : w % 2 ^ lo < 2 ^ lo := Nat.mod_lt _ (Nat.two_pow_pos _)
    rw [e2]
    calc v % 2 ^ (hi + 1 - lo) * 2 ^ lo + w % 2 ^ lo
        < v % 2 ^ (hi + 1 - lo) * 2 ^ lo + 2 ^ lo := by omega
      _ = (v % 2 ^ (hi + 1 - lo) + 1) * 2 ^ lo := by rw [Nat.add_mul, Nat.one_mul]
      _ ≤ 2 ^ (hi + 1 - lo) * 2 ^ lo := Nat.mul_le_mul_right _ h1
  calc _ < w >>> (hi + 1) * 2 ^ (hi + 1) + 2 ^ (hi + 1) := by omega
    _ = (w >>> (hi + 1) + 1) * 2 ^ (hi + 1) := by rw [Nat.add_mul, Nat.one_mul]
    _ ≤ 2 ^ (31 - hi) * 2 ^ (hi + 1) := Nat.mul_le_mul_right _ hq
    _ = 2 ^ 32 := e1.symm

end Sys2Proof.Machine
end

