-- ==== Sys2Proof/Laws/State.lean ====
section
/-! SUPPORT. What each shared update of the device leaves: one lemma for each field of the record that it does not touch. -/

namespace Sys2Proof.Machine

/-! ## setW -/

@[simp] theorem setW_timers (n : RegName) (i j w : Nat) (d : Dev) : (setW n i j w d).timers = d.timers := rfl
@[simp] theorem setW_free (n : RegName) (i j w : Nat) (d : Dev) : (setW n i j w d).free = d.free := rfl
@[simp] theorem setW_reply (n : RegName) (i j w : Nat) (d : Dev) : (setW n i j w d).reply = d.reply := rfl
@[simp] theorem setW_out (n : RegName) (i j w : Nat) (d : Dev) : (setW n i j w d).out = d.out := rfl
@[simp] theorem setW_pwr (n : RegName) (i j w : Nat) (d : Dev) : (setW n i j w d).pwr = d.pwr := rfl
@[simp] theorem setW_tiers (n : RegName) (i j w : Nat) (d : Dev) : (setW n i j w d).tiers = d.tiers := rfl
@[simp] theorem setW_xl (n : RegName) (i j w : Nat) (d : Dev) : (setW n i j w d).xl = d.xl := rfl
@[simp] theorem setW_q (n : RegName) (i j w : Nat) (d : Dev) : (setW n i j w d).q = d.q := rfl
@[simp] theorem setW_rem (n : RegName) (i j w : Nat) (d : Dev) : (setW n i j w d).rem = d.rem := rfl
@[simp] theorem setW_pes (n : RegName) (i j w : Nat) (d : Dev) : (setW n i j w d).pes = d.pes := rfl
@[simp] theorem setW_addr (n : RegName) (i j w : Nat) (d : Dev) : (setW n i j w d).addr = d.addr := rfl
@[simp] theorem setW_colls (n : RegName) (i j w : Nat) (d : Dev) : (setW n i j w d).colls = d.colls := rfl
@[simp] theorem setW_net (n : RegName) (i j w : Nat) (d : Dev) : (setW n i j w d).net = d.net := rfl
@[simp] theorem setW_link (n : RegName) (i j w : Nat) (d : Dev) : (setW n i j w d).link = d.link := rfl
@[simp] theorem setW_insts (n : RegName) (i j w : Nat) (d : Dev) : (setW n i j w d).insts = d.insts := rfl
@[simp] theorem setW_keys (n : RegName) (i j w : Nat) (d : Dev) : (setW n i j w d).keys = d.keys := rfl
@[simp] theorem setW_mc (n : RegName) (i j w : Nat) (d : Dev) : (setW n i j w d).mc = d.mc := rfl
@[simp] theorem setW_upd (n : RegName) (i j w : Nat) (d : Dev) : (setW n i j w d).upd = d.upd := rfl
@[simp] theorem setW_start (n : RegName) (i j w : Nat) (d : Dev) : (setW n i j w d).start = d.start := rfl
@[simp] theorem setW_bricks (n : RegName) (i j w : Nat) (d : Dev) : (setW n i j w d).bricks = d.bricks := rfl

/-! ## setF -/

@[simp] theorem setF_timers (n : RegName) (i j hi lo v : Nat) (d : Dev) : (setF n i j hi lo v d).timers = d.timers := rfl
@[simp] theorem setF_free (n : RegName) (i j hi lo v : Nat) (d : Dev) : (setF n i j hi lo v d).free = d.free := rfl
@[simp] theorem setF_reply (n : RegName) (i j hi lo v : Nat) (d : Dev) : (setF n i j hi lo v d).reply = d.reply := rfl
@[simp] theorem setF_out (n : RegName) (i j hi lo v : Nat) (d : Dev) : (setF n i j hi lo v d).out = d.out := rfl
@[simp] theorem setF_pwr (n : RegName) (i j hi lo v : Nat) (d : Dev) : (setF n i j hi lo v d).pwr = d.pwr := rfl
@[simp] theorem setF_tiers (n : RegName) (i j hi lo v : Nat) (d : Dev) : (setF n i j hi lo v d).tiers = d.tiers := rfl
@[simp] theorem setF_xl (n : RegName) (i j hi lo v : Nat) (d : Dev) : (setF n i j hi lo v d).xl = d.xl := rfl
@[simp] theorem setF_q (n : RegName) (i j hi lo v : Nat) (d : Dev) : (setF n i j hi lo v d).q = d.q := rfl
@[simp] theorem setF_rem (n : RegName) (i j hi lo v : Nat) (d : Dev) : (setF n i j hi lo v d).rem = d.rem := rfl
@[simp] theorem setF_pes (n : RegName) (i j hi lo v : Nat) (d : Dev) : (setF n i j hi lo v d).pes = d.pes := rfl
@[simp] theorem setF_addr (n : RegName) (i j hi lo v : Nat) (d : Dev) : (setF n i j hi lo v d).addr = d.addr := rfl
@[simp] theorem setF_colls (n : RegName) (i j hi lo v : Nat) (d : Dev) : (setF n i j hi lo v d).colls = d.colls := rfl
@[simp] theorem setF_net (n : RegName) (i j hi lo v : Nat) (d : Dev) : (setF n i j hi lo v d).net = d.net := rfl
@[simp] theorem setF_link (n : RegName) (i j hi lo v : Nat) (d : Dev) : (setF n i j hi lo v d).link = d.link := rfl
@[simp] theorem setF_insts (n : RegName) (i j hi lo v : Nat) (d : Dev) : (setF n i j hi lo v d).insts = d.insts := rfl
@[simp] theorem setF_keys (n : RegName) (i j hi lo v : Nat) (d : Dev) : (setF n i j hi lo v d).keys = d.keys := rfl
@[simp] theorem setF_mc (n : RegName) (i j hi lo v : Nat) (d : Dev) : (setF n i j hi lo v d).mc = d.mc := rfl
@[simp] theorem setF_upd (n : RegName) (i j hi lo v : Nat) (d : Dev) : (setF n i j hi lo v d).upd = d.upd := rfl
@[simp] theorem setF_start (n : RegName) (i j hi lo v : Nat) (d : Dev) : (setF n i j hi lo v d).start = d.start := rfl
@[simp] theorem setF_bricks (n : RegName) (i j hi lo v : Nat) (d : Dev) : (setF n i j hi lo v d).bricks = d.bricks := rfl

/-! ## setBit -/

@[simp] theorem setBit_timers (n : RegName) (i j k : Nat) (d : Dev) : (setBit n i j k d).timers = d.timers := rfl
@[simp] theorem setBit_free (n : RegName) (i j k : Nat) (d : Dev) : (setBit n i j k d).free = d.free := rfl
@[simp] theorem setBit_reply (n : RegName) (i j k : Nat) (d : Dev) : (setBit n i j k d).reply = d.reply := rfl
@[simp] theorem setBit_out (n : RegName) (i j k : Nat) (d : Dev) : (setBit n i j k d).out = d.out := rfl
@[simp] theorem setBit_pwr (n : RegName) (i j k : Nat) (d : Dev) : (setBit n i j k d).pwr = d.pwr := rfl
@[simp] theorem setBit_tiers (n : RegName) (i j k : Nat) (d : Dev) : (setBit n i j k d).tiers = d.tiers := rfl
@[simp] theorem setBit_xl (n : RegName) (i j k : Nat) (d : Dev) : (setBit n i j k d).xl = d.xl := rfl
@[simp] theorem setBit_q (n : RegName) (i j k : Nat) (d : Dev) : (setBit n i j k d).q = d.q := rfl
@[simp] theorem setBit_rem (n : RegName) (i j k : Nat) (d : Dev) : (setBit n i j k d).rem = d.rem := rfl
@[simp] theorem setBit_pes (n : RegName) (i j k : Nat) (d : Dev) : (setBit n i j k d).pes = d.pes := rfl
@[simp] theorem setBit_addr (n : RegName) (i j k : Nat) (d : Dev) : (setBit n i j k d).addr = d.addr := rfl
@[simp] theorem setBit_colls (n : RegName) (i j k : Nat) (d : Dev) : (setBit n i j k d).colls = d.colls := rfl
@[simp] theorem setBit_net (n : RegName) (i j k : Nat) (d : Dev) : (setBit n i j k d).net = d.net := rfl
@[simp] theorem setBit_link (n : RegName) (i j k : Nat) (d : Dev) : (setBit n i j k d).link = d.link := rfl
@[simp] theorem setBit_insts (n : RegName) (i j k : Nat) (d : Dev) : (setBit n i j k d).insts = d.insts := rfl
@[simp] theorem setBit_keys (n : RegName) (i j k : Nat) (d : Dev) : (setBit n i j k d).keys = d.keys := rfl
@[simp] theorem setBit_mc (n : RegName) (i j k : Nat) (d : Dev) : (setBit n i j k d).mc = d.mc := rfl
@[simp] theorem setBit_upd (n : RegName) (i j k : Nat) (d : Dev) : (setBit n i j k d).upd = d.upd := rfl
@[simp] theorem setBit_start (n : RegName) (i j k : Nat) (d : Dev) : (setBit n i j k d).start = d.start := rfl
@[simp] theorem setBit_bricks (n : RegName) (i j k : Nat) (d : Dev) : (setBit n i j k d).bricks = d.bricks := rfl

/-! ## countF -/

@[simp] theorem countF_timers (n : RegName) (i j hi lo k : Nat) (d : Dev) : (countF n i j hi lo k d).timers = d.timers := rfl
@[simp] theorem countF_free (n : RegName) (i j hi lo k : Nat) (d : Dev) : (countF n i j hi lo k d).free = d.free := rfl
@[simp] theorem countF_reply (n : RegName) (i j hi lo k : Nat) (d : Dev) : (countF n i j hi lo k d).reply = d.reply := rfl
@[simp] theorem countF_out (n : RegName) (i j hi lo k : Nat) (d : Dev) : (countF n i j hi lo k d).out = d.out := rfl
@[simp] theorem countF_pwr (n : RegName) (i j hi lo k : Nat) (d : Dev) : (countF n i j hi lo k d).pwr = d.pwr := rfl
@[simp] theorem countF_tiers (n : RegName) (i j hi lo k : Nat) (d : Dev) : (countF n i j hi lo k d).tiers = d.tiers := rfl
@[simp] theorem countF_xl (n : RegName) (i j hi lo k : Nat) (d : Dev) : (countF n i j hi lo k d).xl = d.xl := rfl
@[simp] theorem countF_q (n : RegName) (i j hi lo k : Nat) (d : Dev) : (countF n i j hi lo k d).q = d.q := rfl
@[simp] theorem countF_rem (n : RegName) (i j hi lo k : Nat) (d : Dev) : (countF n i j hi lo k d).rem = d.rem := rfl
@[simp] theorem countF_pes (n : RegName) (i j hi lo k : Nat) (d : Dev) : (countF n i j hi lo k d).pes = d.pes := rfl
@[simp] theorem countF_addr (n : RegName) (i j hi lo k : Nat) (d : Dev) : (countF n i j hi lo k d).addr = d.addr := rfl
@[simp] theorem countF_colls (n : RegName) (i j hi lo k : Nat) (d : Dev) : (countF n i j hi lo k d).colls = d.colls := rfl
@[simp] theorem countF_net (n : RegName) (i j hi lo k : Nat) (d : Dev) : (countF n i j hi lo k d).net = d.net := rfl
@[simp] theorem countF_link (n : RegName) (i j hi lo k : Nat) (d : Dev) : (countF n i j hi lo k d).link = d.link := rfl
@[simp] theorem countF_insts (n : RegName) (i j hi lo k : Nat) (d : Dev) : (countF n i j hi lo k d).insts = d.insts := rfl
@[simp] theorem countF_keys (n : RegName) (i j hi lo k : Nat) (d : Dev) : (countF n i j hi lo k d).keys = d.keys := rfl
@[simp] theorem countF_mc (n : RegName) (i j hi lo k : Nat) (d : Dev) : (countF n i j hi lo k d).mc = d.mc := rfl
@[simp] theorem countF_upd (n : RegName) (i j hi lo k : Nat) (d : Dev) : (countF n i j hi lo k d).upd = d.upd := rfl
@[simp] theorem countF_start (n : RegName) (i j hi lo k : Nat) (d : Dev) : (countF n i j hi lo k d).start = d.start := rfl
@[simp] theorem countF_bricks (n : RegName) (i j hi lo k : Nat) (d : Dev) : (countF n i j hi lo k d).bricks = d.bricks := rfl

/-! ## emit -/

@[simp] theorem emit_timers (o : Out) (d : Dev) : (emit o d).timers = d.timers := rfl
@[simp] theorem emit_free (o : Out) (d : Dev) : (emit o d).free = d.free := rfl
@[simp] theorem emit_reply (o : Out) (d : Dev) : (emit o d).reply = d.reply := rfl
@[simp] theorem emit_regs (o : Out) (d : Dev) : (emit o d).regs = d.regs := rfl
@[simp] theorem emit_pwr (o : Out) (d : Dev) : (emit o d).pwr = d.pwr := rfl
@[simp] theorem emit_tiers (o : Out) (d : Dev) : (emit o d).tiers = d.tiers := rfl
@[simp] theorem emit_xl (o : Out) (d : Dev) : (emit o d).xl = d.xl := rfl
@[simp] theorem emit_q (o : Out) (d : Dev) : (emit o d).q = d.q := rfl
@[simp] theorem emit_rem (o : Out) (d : Dev) : (emit o d).rem = d.rem := rfl
@[simp] theorem emit_pes (o : Out) (d : Dev) : (emit o d).pes = d.pes := rfl
@[simp] theorem emit_addr (o : Out) (d : Dev) : (emit o d).addr = d.addr := rfl
@[simp] theorem emit_colls (o : Out) (d : Dev) : (emit o d).colls = d.colls := rfl
@[simp] theorem emit_net (o : Out) (d : Dev) : (emit o d).net = d.net := rfl
@[simp] theorem emit_link (o : Out) (d : Dev) : (emit o d).link = d.link := rfl
@[simp] theorem emit_insts (o : Out) (d : Dev) : (emit o d).insts = d.insts := rfl
@[simp] theorem emit_keys (o : Out) (d : Dev) : (emit o d).keys = d.keys := rfl
@[simp] theorem emit_mc (o : Out) (d : Dev) : (emit o d).mc = d.mc := rfl
@[simp] theorem emit_upd (o : Out) (d : Dev) : (emit o d).upd = d.upd := rfl
@[simp] theorem emit_start (o : Out) (d : Dev) : (emit o d).start = d.start := rfl
@[simp] theorem emit_bricks (o : Out) (d : Dev) : (emit o d).bricks = d.bricks := rfl

/-! ## answer -/

@[simp] theorem answer_timers (r : Reply) (d : Dev) : (answer r d).timers = d.timers := rfl
@[simp] theorem answer_free (r : Reply) (d : Dev) : (answer r d).free = d.free := rfl
@[simp] theorem answer_out (r : Reply) (d : Dev) : (answer r d).out = d.out := rfl
@[simp] theorem answer_regs (r : Reply) (d : Dev) : (answer r d).regs = d.regs := rfl
@[simp] theorem answer_pwr (r : Reply) (d : Dev) : (answer r d).pwr = d.pwr := rfl
@[simp] theorem answer_tiers (r : Reply) (d : Dev) : (answer r d).tiers = d.tiers := rfl
@[simp] theorem answer_xl (r : Reply) (d : Dev) : (answer r d).xl = d.xl := rfl
@[simp] theorem answer_q (r : Reply) (d : Dev) : (answer r d).q = d.q := rfl
@[simp] theorem answer_rem (r : Reply) (d : Dev) : (answer r d).rem = d.rem := rfl
@[simp] theorem answer_pes (r : Reply) (d : Dev) : (answer r d).pes = d.pes := rfl
@[simp] theorem answer_addr (r : Reply) (d : Dev) : (answer r d).addr = d.addr := rfl
@[simp] theorem answer_colls (r : Reply) (d : Dev) : (answer r d).colls = d.colls := rfl
@[simp] theorem answer_net (r : Reply) (d : Dev) : (answer r d).net = d.net := rfl
@[simp] theorem answer_link (r : Reply) (d : Dev) : (answer r d).link = d.link := rfl
@[simp] theorem answer_insts (r : Reply) (d : Dev) : (answer r d).insts = d.insts := rfl
@[simp] theorem answer_keys (r : Reply) (d : Dev) : (answer r d).keys = d.keys := rfl
@[simp] theorem answer_mc (r : Reply) (d : Dev) : (answer r d).mc = d.mc := rfl
@[simp] theorem answer_upd (r : Reply) (d : Dev) : (answer r d).upd = d.upd := rfl
@[simp] theorem answer_start (r : Reply) (d : Dev) : (answer r d).start = d.start := rfl
@[simp] theorem answer_bricks (r : Reply) (d : Dev) : (answer r d).bricks = d.bricks := rfl

/-! ## updStack -/

@[simp] theorem updStack_timers (n : Nat) (f : Stack → Stack) (d : Dev) : (updStack n f d).timers = d.timers := rfl
@[simp] theorem updStack_free (n : Nat) (f : Stack → Stack) (d : Dev) : (updStack n f d).free = d.free := rfl
@[simp] theorem updStack_reply (n : Nat) (f : Stack → Stack) (d : Dev) : (updStack n f d).reply = d.reply := rfl
@[simp] theorem updStack_out (n : Nat) (f : Stack → Stack) (d : Dev) : (updStack n f d).out = d.out := rfl
@[simp] theorem updStack_regs (n : Nat) (f : Stack → Stack) (d : Dev) : (updStack n f d).regs = d.regs := rfl
@[simp] theorem updStack_pwr (n : Nat) (f : Stack → Stack) (d : Dev) : (updStack n f d).pwr = d.pwr := rfl
@[simp] theorem updStack_xl (n : Nat) (f : Stack → Stack) (d : Dev) : (updStack n f d).xl = d.xl := rfl
@[simp] theorem updStack_q (n : Nat) (f : Stack → Stack) (d : Dev) : (updStack n f d).q = d.q := rfl
@[simp] theorem updStack_rem (n : Nat) (f : Stack → Stack) (d : Dev) : (updStack n f d).rem = d.rem := rfl
@[simp] theorem updStack_pes (n : Nat) (f : Stack → Stack) (d : Dev) : (updStack n f d).pes = d.pes := rfl
@[simp] theorem updStack_addr (n : Nat) (f : Stack → Stack) (d : Dev) : (updStack n f d).addr = d.addr := rfl
@[simp] theorem updStack_colls (n : Nat) (f : Stack → Stack) (d : Dev) : (updStack n f d).colls = d.colls := rfl
@[simp] theorem updStack_net (n : Nat) (f : Stack → Stack) (d : Dev) : (updStack n f d).net = d.net := rfl
@[simp] theorem updStack_link (n : Nat) (f : Stack → Stack) (d : Dev) : (updStack n f d).link = d.link := rfl
@[simp] theorem updStack_insts (n : Nat) (f : Stack → Stack) (d : Dev) : (updStack n f d).insts = d.insts := rfl
@[simp] theorem updStack_keys (n : Nat) (f : Stack → Stack) (d : Dev) : (updStack n f d).keys = d.keys := rfl
@[simp] theorem updStack_mc (n : Nat) (f : Stack → Stack) (d : Dev) : (updStack n f d).mc = d.mc := rfl
@[simp] theorem updStack_upd (n : Nat) (f : Stack → Stack) (d : Dev) : (updStack n f d).upd = d.upd := rfl
@[simp] theorem updStack_start (n : Nat) (f : Stack → Stack) (d : Dev) : (updStack n f d).start = d.start := rfl
@[simp] theorem updStack_bricks (n : Nat) (f : Stack → Stack) (d : Dev) : (updStack n f d).bricks = d.bricks := rfl

/-! ## updSite -/

@[simp] theorem updSite_timers (k : Nat) (f : Site → Site) (d : Dev) : (updSite k f d).timers = d.timers := rfl
@[simp] theorem updSite_free (k : Nat) (f : Site → Site) (d : Dev) : (updSite k f d).free = d.free := rfl
@[simp] theorem updSite_reply (k : Nat) (f : Site → Site) (d : Dev) : (updSite k f d).reply = d.reply := rfl
@[simp] theorem updSite_out (k : Nat) (f : Site → Site) (d : Dev) : (updSite k f d).out = d.out := rfl
@[simp] theorem updSite_regs (k : Nat) (f : Site → Site) (d : Dev) : (updSite k f d).regs = d.regs := rfl
@[simp] theorem updSite_pwr (k : Nat) (f : Site → Site) (d : Dev) : (updSite k f d).pwr = d.pwr := rfl
@[simp] theorem updSite_xl (k : Nat) (f : Site → Site) (d : Dev) : (updSite k f d).xl = d.xl := rfl
@[simp] theorem updSite_q (k : Nat) (f : Site → Site) (d : Dev) : (updSite k f d).q = d.q := rfl
@[simp] theorem updSite_rem (k : Nat) (f : Site → Site) (d : Dev) : (updSite k f d).rem = d.rem := rfl
@[simp] theorem updSite_pes (k : Nat) (f : Site → Site) (d : Dev) : (updSite k f d).pes = d.pes := rfl
@[simp] theorem updSite_addr (k : Nat) (f : Site → Site) (d : Dev) : (updSite k f d).addr = d.addr := rfl
@[simp] theorem updSite_colls (k : Nat) (f : Site → Site) (d : Dev) : (updSite k f d).colls = d.colls := rfl
@[simp] theorem updSite_net (k : Nat) (f : Site → Site) (d : Dev) : (updSite k f d).net = d.net := rfl
@[simp] theorem updSite_link (k : Nat) (f : Site → Site) (d : Dev) : (updSite k f d).link = d.link := rfl
@[simp] theorem updSite_insts (k : Nat) (f : Site → Site) (d : Dev) : (updSite k f d).insts = d.insts := rfl
@[simp] theorem updSite_keys (k : Nat) (f : Site → Site) (d : Dev) : (updSite k f d).keys = d.keys := rfl
@[simp] theorem updSite_mc (k : Nat) (f : Site → Site) (d : Dev) : (updSite k f d).mc = d.mc := rfl
@[simp] theorem updSite_upd (k : Nat) (f : Site → Site) (d : Dev) : (updSite k f d).upd = d.upd := rfl
@[simp] theorem updSite_start (k : Nat) (f : Site → Site) (d : Dev) : (updSite k f d).start = d.start := rfl
@[simp] theorem updSite_bricks (k : Nat) (f : Site → Site) (d : Dev) : (updSite k f d).bricks = d.bricks := rfl

/-! ## writePhys -/

@[simp] theorem writePhys_timers (a : Nat) (l : List Byte) (d : Dev) : (writePhys a l d).timers = d.timers := rfl
@[simp] theorem writePhys_free (a : Nat) (l : List Byte) (d : Dev) : (writePhys a l d).free = d.free := rfl
@[simp] theorem writePhys_reply (a : Nat) (l : List Byte) (d : Dev) : (writePhys a l d).reply = d.reply := rfl
@[simp] theorem writePhys_out (a : Nat) (l : List Byte) (d : Dev) : (writePhys a l d).out = d.out := rfl
@[simp] theorem writePhys_regs (a : Nat) (l : List Byte) (d : Dev) : (writePhys a l d).regs = d.regs := rfl
@[simp] theorem writePhys_pwr (a : Nat) (l : List Byte) (d : Dev) : (writePhys a l d).pwr = d.pwr := rfl
@[simp] theorem writePhys_xl (a : Nat) (l : List Byte) (d : Dev) : (writePhys a l d).xl = d.xl := rfl
@[simp] theorem writePhys_q (a : Nat) (l : List Byte) (d : Dev) : (writePhys a l d).q = d.q := rfl
@[simp] theorem writePhys_rem (a : Nat) (l : List Byte) (d : Dev) : (writePhys a l d).rem = d.rem := rfl
@[simp] theorem writePhys_pes (a : Nat) (l : List Byte) (d : Dev) : (writePhys a l d).pes = d.pes := rfl
@[simp] theorem writePhys_addr (a : Nat) (l : List Byte) (d : Dev) : (writePhys a l d).addr = d.addr := rfl
@[simp] theorem writePhys_colls (a : Nat) (l : List Byte) (d : Dev) : (writePhys a l d).colls = d.colls := rfl
@[simp] theorem writePhys_net (a : Nat) (l : List Byte) (d : Dev) : (writePhys a l d).net = d.net := rfl
@[simp] theorem writePhys_link (a : Nat) (l : List Byte) (d : Dev) : (writePhys a l d).link = d.link := rfl
@[simp] theorem writePhys_insts (a : Nat) (l : List Byte) (d : Dev) : (writePhys a l d).insts = d.insts := rfl
@[simp] theorem writePhys_keys (a : Nat) (l : List Byte) (d : Dev) : (writePhys a l d).keys = d.keys := rfl
@[simp] theorem writePhys_mc (a : Nat) (l : List Byte) (d : Dev) : (writePhys a l d).mc = d.mc := rfl
@[simp] theorem writePhys_upd (a : Nat) (l : List Byte) (d : Dev) : (writePhys a l d).upd = d.upd := rfl
@[simp] theorem writePhys_start (a : Nat) (l : List Byte) (d : Dev) : (writePhys a l d).start = d.start := rfl
@[simp] theorem writePhys_bricks (a : Nat) (l : List Byte) (d : Dev) : (writePhys a l d).bricks = d.bricks := rfl

/-! ## zeroFrame -/

@[simp] theorem zeroFrame_timers (pfn : Nat) (d : Dev) : (zeroFrame pfn d).timers = d.timers := rfl
@[simp] theorem zeroFrame_free (pfn : Nat) (d : Dev) : (zeroFrame pfn d).free = d.free := rfl
@[simp] theorem zeroFrame_reply (pfn : Nat) (d : Dev) : (zeroFrame pfn d).reply = d.reply := rfl
@[simp] theorem zeroFrame_out (pfn : Nat) (d : Dev) : (zeroFrame pfn d).out = d.out := rfl
@[simp] theorem zeroFrame_regs (pfn : Nat) (d : Dev) : (zeroFrame pfn d).regs = d.regs := rfl
@[simp] theorem zeroFrame_pwr (pfn : Nat) (d : Dev) : (zeroFrame pfn d).pwr = d.pwr := rfl
@[simp] theorem zeroFrame_xl (pfn : Nat) (d : Dev) : (zeroFrame pfn d).xl = d.xl := rfl
@[simp] theorem zeroFrame_q (pfn : Nat) (d : Dev) : (zeroFrame pfn d).q = d.q := rfl
@[simp] theorem zeroFrame_rem (pfn : Nat) (d : Dev) : (zeroFrame pfn d).rem = d.rem := rfl
@[simp] theorem zeroFrame_pes (pfn : Nat) (d : Dev) : (zeroFrame pfn d).pes = d.pes := rfl
@[simp] theorem zeroFrame_addr (pfn : Nat) (d : Dev) : (zeroFrame pfn d).addr = d.addr := rfl
@[simp] theorem zeroFrame_colls (pfn : Nat) (d : Dev) : (zeroFrame pfn d).colls = d.colls := rfl
@[simp] theorem zeroFrame_net (pfn : Nat) (d : Dev) : (zeroFrame pfn d).net = d.net := rfl
@[simp] theorem zeroFrame_link (pfn : Nat) (d : Dev) : (zeroFrame pfn d).link = d.link := rfl
@[simp] theorem zeroFrame_insts (pfn : Nat) (d : Dev) : (zeroFrame pfn d).insts = d.insts := rfl
@[simp] theorem zeroFrame_keys (pfn : Nat) (d : Dev) : (zeroFrame pfn d).keys = d.keys := rfl
@[simp] theorem zeroFrame_mc (pfn : Nat) (d : Dev) : (zeroFrame pfn d).mc = d.mc := rfl
@[simp] theorem zeroFrame_upd (pfn : Nat) (d : Dev) : (zeroFrame pfn d).upd = d.upd := rfl
@[simp] theorem zeroFrame_start (pfn : Nat) (d : Dev) : (zeroFrame pfn d).start = d.start := rfl
@[simp] theorem zeroFrame_bricks (pfn : Nat) (d : Dev) : (zeroFrame pfn d).bricks = d.bricks := rfl

/-! ## updRail -/

@[simp] theorem updRail_timers (r : Nat) (f : Rail → Rail) (d : Dev) : (updRail r f d).timers = d.timers := rfl
@[simp] theorem updRail_free (r : Nat) (f : Rail → Rail) (d : Dev) : (updRail r f d).free = d.free := rfl
@[simp] theorem updRail_reply (r : Nat) (f : Rail → Rail) (d : Dev) : (updRail r f d).reply = d.reply := rfl
@[simp] theorem updRail_out (r : Nat) (f : Rail → Rail) (d : Dev) : (updRail r f d).out = d.out := rfl
@[simp] theorem updRail_regs (r : Nat) (f : Rail → Rail) (d : Dev) : (updRail r f d).regs = d.regs := rfl
@[simp] theorem updRail_tiers (r : Nat) (f : Rail → Rail) (d : Dev) : (updRail r f d).tiers = d.tiers := rfl
@[simp] theorem updRail_xl (r : Nat) (f : Rail → Rail) (d : Dev) : (updRail r f d).xl = d.xl := rfl
@[simp] theorem updRail_q (r : Nat) (f : Rail → Rail) (d : Dev) : (updRail r f d).q = d.q := rfl
@[simp] theorem updRail_rem (r : Nat) (f : Rail → Rail) (d : Dev) : (updRail r f d).rem = d.rem := rfl
@[simp] theorem updRail_pes (r : Nat) (f : Rail → Rail) (d : Dev) : (updRail r f d).pes = d.pes := rfl
@[simp] theorem updRail_addr (r : Nat) (f : Rail → Rail) (d : Dev) : (updRail r f d).addr = d.addr := rfl
@[simp] theorem updRail_colls (r : Nat) (f : Rail → Rail) (d : Dev) : (updRail r f d).colls = d.colls := rfl
@[simp] theorem updRail_net (r : Nat) (f : Rail → Rail) (d : Dev) : (updRail r f d).net = d.net := rfl
@[simp] theorem updRail_link (r : Nat) (f : Rail → Rail) (d : Dev) : (updRail r f d).link = d.link := rfl
@[simp] theorem updRail_insts (r : Nat) (f : Rail → Rail) (d : Dev) : (updRail r f d).insts = d.insts := rfl
@[simp] theorem updRail_keys (r : Nat) (f : Rail → Rail) (d : Dev) : (updRail r f d).keys = d.keys := rfl
@[simp] theorem updRail_mc (r : Nat) (f : Rail → Rail) (d : Dev) : (updRail r f d).mc = d.mc := rfl
@[simp] theorem updRail_upd (r : Nat) (f : Rail → Rail) (d : Dev) : (updRail r f d).upd = d.upd := rfl
@[simp] theorem updRail_start (r : Nat) (f : Rail → Rail) (d : Dev) : (updRail r f d).start = d.start := rfl
@[simp] theorem updRail_bricks (r : Nat) (f : Rail → Rail) (d : Dev) : (updRail r f d).bricks = d.bricks := rfl

/-! ## logEv: a record asked for touches the management controller alone -/

/-- A record asked for changes nothing but the management controller's buffer. -/
theorem logEv_frame (src cls area ev : Nat) (l : List Byte) (d : Dev) :
    logEv src cls area ev l d = { d with mc := (logEv src cls area ev l d).mc } := by
  unfold logEv; dsimp only; split <;> rfl

@[simp] theorem logEv_timers (src cls area ev : Nat) (l : List Byte) (d : Dev) : (logEv src cls area ev l d).timers = d.timers := by
  rw [logEv_frame]
@[simp] theorem logEv_free (src cls area ev : Nat) (l : List Byte) (d : Dev) : (logEv src cls area ev l d).free = d.free := by
  rw [logEv_frame]
@[simp] theorem logEv_reply (src cls area ev : Nat) (l : List Byte) (d : Dev) : (logEv src cls area ev l d).reply = d.reply := by
  rw [logEv_frame]
@[simp] theorem logEv_out (src cls area ev : Nat) (l : List Byte) (d : Dev) : (logEv src cls area ev l d).out = d.out := by
  rw [logEv_frame]
@[simp] theorem logEv_regs (src cls area ev : Nat) (l : List Byte) (d : Dev) : (logEv src cls area ev l d).regs = d.regs := by
  rw [logEv_frame]
@[simp] theorem logEv_pwr (src cls area ev : Nat) (l : List Byte) (d : Dev) : (logEv src cls area ev l d).pwr = d.pwr := by
  rw [logEv_frame]
@[simp] theorem logEv_tiers (src cls area ev : Nat) (l : List Byte) (d : Dev) : (logEv src cls area ev l d).tiers = d.tiers := by
  rw [logEv_frame]
@[simp] theorem logEv_xl (src cls area ev : Nat) (l : List Byte) (d : Dev) : (logEv src cls area ev l d).xl = d.xl := by
  rw [logEv_frame]
@[simp] theorem logEv_q (src cls area ev : Nat) (l : List Byte) (d : Dev) : (logEv src cls area ev l d).q = d.q := by
  rw [logEv_frame]
@[simp] theorem logEv_rem (src cls area ev : Nat) (l : List Byte) (d : Dev) : (logEv src cls area ev l d).rem = d.rem := by
  rw [logEv_frame]
@[simp] theorem logEv_pes (src cls area ev : Nat) (l : List Byte) (d : Dev) : (logEv src cls area ev l d).pes = d.pes := by
  rw [logEv_frame]
@[simp] theorem logEv_addr (src cls area ev : Nat) (l : List Byte) (d : Dev) : (logEv src cls area ev l d).addr = d.addr := by
  rw [logEv_frame]
@[simp] theorem logEv_colls (src cls area ev : Nat) (l : List Byte) (d : Dev) : (logEv src cls area ev l d).colls = d.colls := by
  rw [logEv_frame]
@[simp] theorem logEv_net (src cls area ev : Nat) (l : List Byte) (d : Dev) : (logEv src cls area ev l d).net = d.net := by
  rw [logEv_frame]
@[simp] theorem logEv_link (src cls area ev : Nat) (l : List Byte) (d : Dev) : (logEv src cls area ev l d).link = d.link := by
  rw [logEv_frame]
@[simp] theorem logEv_insts (src cls area ev : Nat) (l : List Byte) (d : Dev) : (logEv src cls area ev l d).insts = d.insts := by
  rw [logEv_frame]
@[simp] theorem logEv_keys (src cls area ev : Nat) (l : List Byte) (d : Dev) : (logEv src cls area ev l d).keys = d.keys := by
  rw [logEv_frame]
@[simp] theorem logEv_upd (src cls area ev : Nat) (l : List Byte) (d : Dev) : (logEv src cls area ev l d).upd = d.upd := by
  rw [logEv_frame]
@[simp] theorem logEv_start (src cls area ev : Nat) (l : List Byte) (d : Dev) : (logEv src cls area ev l d).start = d.start := by
  rw [logEv_frame]
@[simp] theorem logEv_bricks (src cls area ev : Nat) (l : List Byte) (d : Dev) : (logEv src cls area ev l d).bricks = d.bricks := by
  rw [logEv_frame]

/-! ## countErr: an access counted touches the registers alone -/

/-- An access counted changes nothing but the registers. -/
theorem countErr_frame (k fn a w : Nat) (b : Bool) (d : Dev) :
    countErr k fn a w b d = { d with regs := (countErr k fn a w b d).regs } := by
  by_cases h1 : k = 1
  · subst h1; rfl
  · by_cases h5 : k = 5
    · subst h5; rfl
    · simp only [countErr]; split <;> first | contradiction | rfl

@[simp] theorem countErr_timers (k fn a w : Nat) (b : Bool) (d : Dev) : (countErr k fn a w b d).timers = d.timers := by
  rw [countErr_frame]
@[simp] theorem countErr_free (k fn a w : Nat) (b : Bool) (d : Dev) : (countErr k fn a w b d).free = d.free := by
  rw [countErr_frame]
@[simp] theorem countErr_reply (k fn a w : Nat) (b : Bool) (d : Dev) : (countErr k fn a w b d).reply = d.reply := by
  rw [countErr_frame]
@[simp] theorem countErr_out (k fn a w : Nat) (b : Bool) (d : Dev) : (countErr k fn a w b d).out = d.out := by
  rw [countErr_frame]
@[simp] theorem countErr_pwr (k fn a w : Nat) (b : Bool) (d : Dev) : (countErr k fn a w b d).pwr = d.pwr := by
  rw [countErr_frame]
@[simp] theorem countErr_tiers (k fn a w : Nat) (b : Bool) (d : Dev) : (countErr k fn a w b d).tiers = d.tiers := by
  rw [countErr_frame]
@[simp] theorem countErr_xl (k fn a w : Nat) (b : Bool) (d : Dev) : (countErr k fn a w b d).xl = d.xl := by
  rw [countErr_frame]
@[simp] theorem countErr_q (k fn a w : Nat) (b : Bool) (d : Dev) : (countErr k fn a w b d).q = d.q := by
  rw [countErr_frame]
@[simp] theorem countErr_rem (k fn a w : Nat) (b : Bool) (d : Dev) : (countErr k fn a w b d).rem = d.rem := by
  rw [countErr_frame]
@[simp] theorem countErr_pes (k fn a w : Nat) (b : Bool) (d : Dev) : (countErr k fn a w b d).pes = d.pes := by
  rw [countErr_frame]
@[simp] theorem countErr_addr (k fn a w : Nat) (b : Bool) (d : Dev) : (countErr k fn a w b d).addr = d.addr := by
  rw [countErr_frame]
@[simp] theorem countErr_colls (k fn a w : Nat) (b : Bool) (d : Dev) : (countErr k fn a w b d).colls = d.colls := by
  rw [countErr_frame]
@[simp] theorem countErr_net (k fn a w : Nat) (b : Bool) (d : Dev) : (countErr k fn a w b d).net = d.net := by
  rw [countErr_frame]
@[simp] theorem countErr_link (k fn a w : Nat) (b : Bool) (d : Dev) : (countErr k fn a w b d).link = d.link := by
  rw [countErr_frame]
@[simp] theorem countErr_insts (k fn a w : Nat) (b : Bool) (d : Dev) : (countErr k fn a w b d).insts = d.insts := by
  rw [countErr_frame]
@[simp] theorem countErr_keys (k fn a w : Nat) (b : Bool) (d : Dev) : (countErr k fn a w b d).keys = d.keys := by
  rw [countErr_frame]
@[simp] theorem countErr_mc (k fn a w : Nat) (b : Bool) (d : Dev) : (countErr k fn a w b d).mc = d.mc := by
  rw [countErr_frame]
@[simp] theorem countErr_upd (k fn a w : Nat) (b : Bool) (d : Dev) : (countErr k fn a w b d).upd = d.upd := by
  rw [countErr_frame]
@[simp] theorem countErr_start (k fn a w : Nat) (b : Bool) (d : Dev) : (countErr k fn a w b d).start = d.start := by
  rw [countErr_frame]
@[simp] theorem countErr_bricks (k fn a w : Nat) (b : Bool) (d : Dev) : (countErr k fn a w b d).bricks = d.bricks := by
  rw [countErr_frame]

/-! ## setAsked -/

@[simp] theorem setAsked_timers (f : List UnitId → List UnitId) (d : Dev) : (setAsked f d).timers = d.timers := rfl
@[simp] theorem setAsked_free (f : List UnitId → List UnitId) (d : Dev) : (setAsked f d).free = d.free := rfl
@[simp] theorem setAsked_reply (f : List UnitId → List UnitId) (d : Dev) : (setAsked f d).reply = d.reply := rfl
@[simp] theorem setAsked_out (f : List UnitId → List UnitId) (d : Dev) : (setAsked f d).out = d.out := rfl
@[simp] theorem setAsked_regs (f : List UnitId → List UnitId) (d : Dev) : (setAsked f d).regs = d.regs := rfl
@[simp] theorem setAsked_tiers (f : List UnitId → List UnitId) (d : Dev) : (setAsked f d).tiers = d.tiers := rfl
@[simp] theorem setAsked_xl (f : List UnitId → List UnitId) (d : Dev) : (setAsked f d).xl = d.xl := rfl
@[simp] theorem setAsked_q (f : List UnitId → List UnitId) (d : Dev) : (setAsked f d).q = d.q := rfl
@[simp] theorem setAsked_rem (f : List UnitId → List UnitId) (d : Dev) : (setAsked f d).rem = d.rem := rfl
@[simp] theorem setAsked_pes (f : List UnitId → List UnitId) (d : Dev) : (setAsked f d).pes = d.pes := rfl
@[simp] theorem setAsked_addr (f : List UnitId → List UnitId) (d : Dev) : (setAsked f d).addr = d.addr := rfl
@[simp] theorem setAsked_colls (f : List UnitId → List UnitId) (d : Dev) : (setAsked f d).colls = d.colls := rfl
@[simp] theorem setAsked_net (f : List UnitId → List UnitId) (d : Dev) : (setAsked f d).net = d.net := rfl
@[simp] theorem setAsked_link (f : List UnitId → List UnitId) (d : Dev) : (setAsked f d).link = d.link := rfl
@[simp] theorem setAsked_insts (f : List UnitId → List UnitId) (d : Dev) : (setAsked f d).insts = d.insts := rfl
@[simp] theorem setAsked_keys (f : List UnitId → List UnitId) (d : Dev) : (setAsked f d).keys = d.keys := rfl
@[simp] theorem setAsked_mc (f : List UnitId → List UnitId) (d : Dev) : (setAsked f d).mc = d.mc := rfl
@[simp] theorem setAsked_upd (f : List UnitId → List UnitId) (d : Dev) : (setAsked f d).upd = d.upd := rfl
@[simp] theorem setAsked_start (f : List UnitId → List UnitId) (d : Dev) : (setAsked f d).start = d.start := rfl
@[simp] theorem setAsked_bricks (f : List UnitId → List UnitId) (d : Dev) : (setAsked f d).bricks = d.bricks := rfl
@[simp] theorem setAsked_rails (f : List UnitId → List UnitId) (d : Dev) : (setAsked f d).pwr.rails = d.pwr.rails := rfl
@[simp] theorem setAsked_asked (f : List UnitId → List UnitId) (d : Dev) : (setAsked f d).pwr.asked = f d.pwr.asked := rfl

/-! ## updWq: a queue changes -/

@[simp] theorem updWq_timers (k : Nat) (f : WQ → WQ) (d : Dev) : (updWq k f d).timers = d.timers := rfl
@[simp] theorem updWq_free (k : Nat) (f : WQ → WQ) (d : Dev) : (updWq k f d).free = d.free := rfl
@[simp] theorem updWq_reply (k : Nat) (f : WQ → WQ) (d : Dev) : (updWq k f d).reply = d.reply := rfl
@[simp] theorem updWq_out (k : Nat) (f : WQ → WQ) (d : Dev) : (updWq k f d).out = d.out := rfl
@[simp] theorem updWq_regs (k : Nat) (f : WQ → WQ) (d : Dev) : (updWq k f d).regs = d.regs := rfl
@[simp] theorem updWq_pwr (k : Nat) (f : WQ → WQ) (d : Dev) : (updWq k f d).pwr = d.pwr := rfl
@[simp] theorem updWq_tiers (k : Nat) (f : WQ → WQ) (d : Dev) : (updWq k f d).tiers = d.tiers := rfl
@[simp] theorem updWq_xl (k : Nat) (f : WQ → WQ) (d : Dev) : (updWq k f d).xl = d.xl := rfl
@[simp] theorem updWq_rem (k : Nat) (f : WQ → WQ) (d : Dev) : (updWq k f d).rem = d.rem := rfl
@[simp] theorem updWq_pes (k : Nat) (f : WQ → WQ) (d : Dev) : (updWq k f d).pes = d.pes := rfl
@[simp] theorem updWq_addr (k : Nat) (f : WQ → WQ) (d : Dev) : (updWq k f d).addr = d.addr := rfl
@[simp] theorem updWq_colls (k : Nat) (f : WQ → WQ) (d : Dev) : (updWq k f d).colls = d.colls := rfl
@[simp] theorem updWq_net (k : Nat) (f : WQ → WQ) (d : Dev) : (updWq k f d).net = d.net := rfl
@[simp] theorem updWq_link (k : Nat) (f : WQ → WQ) (d : Dev) : (updWq k f d).link = d.link := rfl
@[simp] theorem updWq_insts (k : Nat) (f : WQ → WQ) (d : Dev) : (updWq k f d).insts = d.insts := rfl
@[simp] theorem updWq_keys (k : Nat) (f : WQ → WQ) (d : Dev) : (updWq k f d).keys = d.keys := rfl
@[simp] theorem updWq_mc (k : Nat) (f : WQ → WQ) (d : Dev) : (updWq k f d).mc = d.mc := rfl
@[simp] theorem updWq_upd (k : Nat) (f : WQ → WQ) (d : Dev) : (updWq k f d).upd = d.upd := rfl
@[simp] theorem updWq_start (k : Nat) (f : WQ → WQ) (d : Dev) : (updWq k f d).start = d.start := rfl
@[simp] theorem updWq_bricks (k : Nat) (f : WQ → WQ) (d : Dev) : (updWq k f d).bricks = d.bricks := rfl

/-! ## updCr: a completion ring changes -/

@[simp] theorem updCr_timers (k : Nat) (f : CR → CR) (d : Dev) : (updCr k f d).timers = d.timers := rfl
@[simp] theorem updCr_free (k : Nat) (f : CR → CR) (d : Dev) : (updCr k f d).free = d.free := rfl
@[simp] theorem updCr_reply (k : Nat) (f : CR → CR) (d : Dev) : (updCr k f d).reply = d.reply := rfl
@[simp] theorem updCr_out (k : Nat) (f : CR → CR) (d : Dev) : (updCr k f d).out = d.out := rfl
@[simp] theorem updCr_regs (k : Nat) (f : CR → CR) (d : Dev) : (updCr k f d).regs = d.regs := rfl
@[simp] theorem updCr_pwr (k : Nat) (f : CR → CR) (d : Dev) : (updCr k f d).pwr = d.pwr := rfl
@[simp] theorem updCr_tiers (k : Nat) (f : CR → CR) (d : Dev) : (updCr k f d).tiers = d.tiers := rfl
@[simp] theorem updCr_xl (k : Nat) (f : CR → CR) (d : Dev) : (updCr k f d).xl = d.xl := rfl
@[simp] theorem updCr_rem (k : Nat) (f : CR → CR) (d : Dev) : (updCr k f d).rem = d.rem := rfl
@[simp] theorem updCr_pes (k : Nat) (f : CR → CR) (d : Dev) : (updCr k f d).pes = d.pes := rfl
@[simp] theorem updCr_addr (k : Nat) (f : CR → CR) (d : Dev) : (updCr k f d).addr = d.addr := rfl
@[simp] theorem updCr_colls (k : Nat) (f : CR → CR) (d : Dev) : (updCr k f d).colls = d.colls := rfl
@[simp] theorem updCr_net (k : Nat) (f : CR → CR) (d : Dev) : (updCr k f d).net = d.net := rfl
@[simp] theorem updCr_link (k : Nat) (f : CR → CR) (d : Dev) : (updCr k f d).link = d.link := rfl
@[simp] theorem updCr_insts (k : Nat) (f : CR → CR) (d : Dev) : (updCr k f d).insts = d.insts := rfl
@[simp] theorem updCr_keys (k : Nat) (f : CR → CR) (d : Dev) : (updCr k f d).keys = d.keys := rfl
@[simp] theorem updCr_mc (k : Nat) (f : CR → CR) (d : Dev) : (updCr k f d).mc = d.mc := rfl
@[simp] theorem updCr_upd (k : Nat) (f : CR → CR) (d : Dev) : (updCr k f d).upd = d.upd := rfl
@[simp] theorem updCr_start (k : Nat) (f : CR → CR) (d : Dev) : (updCr k f d).start = d.start := rfl
@[simp] theorem updCr_bricks (k : Nat) (f : CR → CR) (d : Dev) : (updCr k f d).bricks = d.bricks := rfl

/-! ## updAdmin: an admin queue changes -/

@[simp] theorem updAdmin_timers (k : Nat) (f : Admin → Admin) (d : Dev) : (updAdmin k f d).timers = d.timers := rfl
@[simp] theorem updAdmin_free (k : Nat) (f : Admin → Admin) (d : Dev) : (updAdmin k f d).free = d.free := rfl
@[simp] theorem updAdmin_reply (k : Nat) (f : Admin → Admin) (d : Dev) : (updAdmin k f d).reply = d.reply := rfl
@[simp] theorem updAdmin_out (k : Nat) (f : Admin → Admin) (d : Dev) : (updAdmin k f d).out = d.out := rfl
@[simp] theorem updAdmin_regs (k : Nat) (f : Admin → Admin) (d : Dev) : (updAdmin k f d).regs = d.regs := rfl
@[simp] theorem updAdmin_pwr (k : Nat) (f : Admin → Admin) (d : Dev) : (updAdmin k f d).pwr = d.pwr := rfl
@[simp] theorem updAdmin_tiers (k : Nat) (f : Admin → Admin) (d : Dev) : (updAdmin k f d).tiers = d.tiers := rfl
@[simp] theorem updAdmin_xl (k : Nat) (f : Admin → Admin) (d : Dev) : (updAdmin k f d).xl = d.xl := rfl
@[simp] theorem updAdmin_rem (k : Nat) (f : Admin → Admin) (d : Dev) : (updAdmin k f d).rem = d.rem := rfl
@[simp] theorem updAdmin_pes (k : Nat) (f : Admin → Admin) (d : Dev) : (updAdmin k f d).pes = d.pes := rfl
@[simp] theorem updAdmin_addr (k : Nat) (f : Admin → Admin) (d : Dev) : (updAdmin k f d).addr = d.addr := rfl
@[simp] theorem updAdmin_colls (k : Nat) (f : Admin → Admin) (d : Dev) : (updAdmin k f d).colls = d.colls := rfl
@[simp] theorem updAdmin_net (k : Nat) (f : Admin → Admin) (d : Dev) : (updAdmin k f d).net = d.net := rfl
@[simp] theorem updAdmin_link (k : Nat) (f : Admin → Admin) (d : Dev) : (updAdmin k f d).link = d.link := rfl
@[simp] theorem updAdmin_insts (k : Nat) (f : Admin → Admin) (d : Dev) : (updAdmin k f d).insts = d.insts := rfl
@[simp] theorem updAdmin_keys (k : Nat) (f : Admin → Admin) (d : Dev) : (updAdmin k f d).keys = d.keys := rfl
@[simp] theorem updAdmin_mc (k : Nat) (f : Admin → Admin) (d : Dev) : (updAdmin k f d).mc = d.mc := rfl
@[simp] theorem updAdmin_upd (k : Nat) (f : Admin → Admin) (d : Dev) : (updAdmin k f d).upd = d.upd := rfl
@[simp] theorem updAdmin_start (k : Nat) (f : Admin → Admin) (d : Dev) : (updAdmin k f d).start = d.start := rfl
@[simp] theorem updAdmin_bricks (k : Nat) (f : Admin → Admin) (d : Dev) : (updAdmin k f d).bricks = d.bricks := rfl

/-! ## updInst: an instance changes -/

@[simp] theorem updInst_timers (k : Nat) (f : Inst → Inst) (d : Dev) : (updInst k f d).timers = d.timers := rfl
@[simp] theorem updInst_free (k : Nat) (f : Inst → Inst) (d : Dev) : (updInst k f d).free = d.free := rfl
@[simp] theorem updInst_reply (k : Nat) (f : Inst → Inst) (d : Dev) : (updInst k f d).reply = d.reply := rfl
@[simp] theorem updInst_out (k : Nat) (f : Inst → Inst) (d : Dev) : (updInst k f d).out = d.out := rfl
@[simp] theorem updInst_regs (k : Nat) (f : Inst → Inst) (d : Dev) : (updInst k f d).regs = d.regs := rfl
@[simp] theorem updInst_pwr (k : Nat) (f : Inst → Inst) (d : Dev) : (updInst k f d).pwr = d.pwr := rfl
@[simp] theorem updInst_tiers (k : Nat) (f : Inst → Inst) (d : Dev) : (updInst k f d).tiers = d.tiers := rfl
@[simp] theorem updInst_xl (k : Nat) (f : Inst → Inst) (d : Dev) : (updInst k f d).xl = d.xl := rfl
@[simp] theorem updInst_q (k : Nat) (f : Inst → Inst) (d : Dev) : (updInst k f d).q = d.q := rfl
@[simp] theorem updInst_rem (k : Nat) (f : Inst → Inst) (d : Dev) : (updInst k f d).rem = d.rem := rfl
@[simp] theorem updInst_pes (k : Nat) (f : Inst → Inst) (d : Dev) : (updInst k f d).pes = d.pes := rfl
@[simp] theorem updInst_addr (k : Nat) (f : Inst → Inst) (d : Dev) : (updInst k f d).addr = d.addr := rfl
@[simp] theorem updInst_colls (k : Nat) (f : Inst → Inst) (d : Dev) : (updInst k f d).colls = d.colls := rfl
@[simp] theorem updInst_net (k : Nat) (f : Inst → Inst) (d : Dev) : (updInst k f d).net = d.net := rfl
@[simp] theorem updInst_link (k : Nat) (f : Inst → Inst) (d : Dev) : (updInst k f d).link = d.link := rfl
@[simp] theorem updInst_keys (k : Nat) (f : Inst → Inst) (d : Dev) : (updInst k f d).keys = d.keys := rfl
@[simp] theorem updInst_mc (k : Nat) (f : Inst → Inst) (d : Dev) : (updInst k f d).mc = d.mc := rfl
@[simp] theorem updInst_upd (k : Nat) (f : Inst → Inst) (d : Dev) : (updInst k f d).upd = d.upd := rfl
@[simp] theorem updInst_start (k : Nat) (f : Inst → Inst) (d : Dev) : (updInst k f d).start = d.start := rfl
@[simp] theorem updInst_bricks (k : Nat) (f : Inst → Inst) (d : Dev) : (updInst k f d).bricks = d.bricks := rfl

/-! ## updPairs: the pairs of control cores change -/

@[simp] theorem updPairs_timers (f : CorePair → CorePair) (d : Dev) : (updPairs f d).timers = d.timers := rfl
@[simp] theorem updPairs_free (f : CorePair → CorePair) (d : Dev) : (updPairs f d).free = d.free := rfl
@[simp] theorem updPairs_reply (f : CorePair → CorePair) (d : Dev) : (updPairs f d).reply = d.reply := rfl
@[simp] theorem updPairs_out (f : CorePair → CorePair) (d : Dev) : (updPairs f d).out = d.out := rfl
@[simp] theorem updPairs_regs (f : CorePair → CorePair) (d : Dev) : (updPairs f d).regs = d.regs := rfl
@[simp] theorem updPairs_pwr (f : CorePair → CorePair) (d : Dev) : (updPairs f d).pwr = d.pwr := rfl
@[simp] theorem updPairs_tiers (f : CorePair → CorePair) (d : Dev) : (updPairs f d).tiers = d.tiers := rfl
@[simp] theorem updPairs_xl (f : CorePair → CorePair) (d : Dev) : (updPairs f d).xl = d.xl := rfl
@[simp] theorem updPairs_q (f : CorePair → CorePair) (d : Dev) : (updPairs f d).q = d.q := rfl
@[simp] theorem updPairs_rem (f : CorePair → CorePair) (d : Dev) : (updPairs f d).rem = d.rem := rfl
@[simp] theorem updPairs_pes (f : CorePair → CorePair) (d : Dev) : (updPairs f d).pes = d.pes := rfl
@[simp] theorem updPairs_addr (f : CorePair → CorePair) (d : Dev) : (updPairs f d).addr = d.addr := rfl
@[simp] theorem updPairs_colls (f : CorePair → CorePair) (d : Dev) : (updPairs f d).colls = d.colls := rfl
@[simp] theorem updPairs_net (f : CorePair → CorePair) (d : Dev) : (updPairs f d).net = d.net := rfl
@[simp] theorem updPairs_link (f : CorePair → CorePair) (d : Dev) : (updPairs f d).link = d.link := rfl
@[simp] theorem updPairs_insts (f : CorePair → CorePair) (d : Dev) : (updPairs f d).insts = d.insts := rfl
@[simp] theorem updPairs_keys (f : CorePair → CorePair) (d : Dev) : (updPairs f d).keys = d.keys := rfl
@[simp] theorem updPairs_mc (f : CorePair → CorePair) (d : Dev) : (updPairs f d).mc = d.mc := rfl
@[simp] theorem updPairs_start (f : CorePair → CorePair) (d : Dev) : (updPairs f d).start = d.start := rfl
@[simp] theorem updPairs_bricks (f : CorePair → CorePair) (d : Dev) : (updPairs f d).bricks = d.bricks := rfl

/-! ## updBank: a bank changes -/

@[simp] theorem updBank_log (k : Nat) (g : Bank → Bank) (f : Flash) : (updBank k g f).log = f.log := rfl
@[simp] theorem updBank_seq (k : Nat) (g : Bank → Bank) (f : Flash) : (updBank k g f).seq = f.seq := rfl
@[simp] theorem updBank_boot (k : Nat) (g : Bank → Bank) (f : Flash) : (updBank k g f).boot = f.boot := rfl
@[simp] theorem updBank_anchor (k : Nat) (g : Bank → Bank) (f : Flash) : (updBank k g f).anchor = f.anchor := rfl
@[simp] theorem updBank_wrapKey (k : Nat) (g : Bank → Bank) (f : Flash) : (updBank k g f).wrapKey = f.wrapKey := rfl
@[simp] theorem updBank_imageKey (k : Nat) (g : Bank → Bank) (f : Flash) : (updBank k g f).imageKey = f.imageKey := rfl
@[simp] theorem updBank_helper (k : Nat) (g : Bank → Bank) (f : Flash) : (updBank k g f).helper = f.helper := rfl
@[simp] theorem updBank_chain (k : Nat) (g : Bank → Bank) (f : Flash) : (updBank k g f).chain = f.chain := rfl
@[simp] theorem updBank_signKey (k : Nat) (g : Bank → Bank) (f : Flash) : (updBank k g f).signKey = f.signKey := rfl
@[simp] theorem updBank_serial (k : Nat) (g : Bank → Bank) (f : Flash) : (updBank k g f).serial = f.serial := rfl
@[simp] theorem updBank_mark (k : Nat) (g : Bank → Bank) (f : Flash) : (updBank k g f).mark = f.mark := rfl
@[simp] theorem updBank_repair (k : Nat) (g : Bank → Bank) (f : Flash) : (updBank k g f).repair = f.repair := rfl
@[simp] theorem updBank_writes (k : Nat) (g : Bank → Bank) (f : Flash) : (updBank k g f).writes = f.writes := rfl
@[simp] theorem updBank_selectors (k : Nat) (g : Bank → Bank) (f : Flash) : (updBank k g f).selectors = f.selectors := rfl
@[simp] theorem updBank_stores (k : Nat) (g : Bank → Bank) (f : Flash) : (updBank k g f).stores = f.stores := rfl
@[simp] theorem updBank_actCount (k : Nat) (g : Bank → Bank) (f : Flash) : (updBank k g f).actCount = f.actCount := rfl
@[simp] theorem updBank_mgmtActive (k : Nat) (g : Bank → Bank) (f : Flash) : (updBank k g f).mgmtActive = f.mgmtActive := rfl
@[simp] theorem updBank_mgmt (k : Nat) (g : Bank → Bank) (f : Flash) : (updBank k g f).mgmt = f.mgmt := rfl

/-! ## updCopy: a copy of the management firmware changes -/

@[simp] theorem updCopy_log (k : Nat) (g : Bank → Bank) (f : Flash) : (updCopy k g f).log = f.log := rfl
@[simp] theorem updCopy_seq (k : Nat) (g : Bank → Bank) (f : Flash) : (updCopy k g f).seq = f.seq := rfl
@[simp] theorem updCopy_boot (k : Nat) (g : Bank → Bank) (f : Flash) : (updCopy k g f).boot = f.boot := rfl
@[simp] theorem updCopy_anchor (k : Nat) (g : Bank → Bank) (f : Flash) : (updCopy k g f).anchor = f.anchor := rfl
@[simp] theorem updCopy_wrapKey (k : Nat) (g : Bank → Bank) (f : Flash) : (updCopy k g f).wrapKey = f.wrapKey := rfl
@[simp] theorem updCopy_imageKey (k : Nat) (g : Bank → Bank) (f : Flash) : (updCopy k g f).imageKey = f.imageKey := rfl
@[simp] theorem updCopy_helper (k : Nat) (g : Bank → Bank) (f : Flash) : (updCopy k g f).helper = f.helper := rfl
@[simp] theorem updCopy_chain (k : Nat) (g : Bank → Bank) (f : Flash) : (updCopy k g f).chain = f.chain := rfl
@[simp] theorem updCopy_signKey (k : Nat) (g : Bank → Bank) (f : Flash) : (updCopy k g f).signKey = f.signKey := rfl
@[simp] theorem updCopy_serial (k : Nat) (g : Bank → Bank) (f : Flash) : (updCopy k g f).serial = f.serial := rfl
@[simp] theorem updCopy_mark (k : Nat) (g : Bank → Bank) (f : Flash) : (updCopy k g f).mark = f.mark := rfl
@[simp] theorem updCopy_repair (k : Nat) (g : Bank → Bank) (f : Flash) : (updCopy k g f).repair = f.repair := rfl
@[simp] theorem updCopy_banks (k : Nat) (g : Bank → Bank) (f : Flash) : (updCopy k g f).banks = f.banks := rfl
@[simp] theorem updCopy_writes (k : Nat) (g : Bank → Bank) (f : Flash) : (updCopy k g f).writes = f.writes := rfl
@[simp] theorem updCopy_selectors (k : Nat) (g : Bank → Bank) (f : Flash) : (updCopy k g f).selectors = f.selectors := rfl
@[simp] theorem updCopy_stores (k : Nat) (g : Bank → Bank) (f : Flash) : (updCopy k g f).stores = f.stores := rfl
@[simp] theorem updCopy_actCount (k : Nat) (g : Bank → Bank) (f : Flash) : (updCopy k g f).actCount = f.actCount := rfl
@[simp] theorem updCopy_mgmtActive (k : Nat) (g : Bank → Bank) (f : Flash) : (updCopy k g f).mgmtActive = f.mgmtActive := rfl

/-! ## putStore: a copy of the settings store is programmed -/

@[simp] theorem putStore_log (k : Nat) (l : List Byte) (f : Flash) : (putStore k l f).log = f.log := rfl
@[simp] theorem putStore_seq (k : Nat) (l : List Byte) (f : Flash) : (putStore k l f).seq = f.seq := rfl
@[simp] theorem putStore_boot (k : Nat) (l : List Byte) (f : Flash) : (putStore k l f).boot = f.boot := rfl
@[simp] theorem putStore_anchor (k : Nat) (l : List Byte) (f : Flash) : (putStore k l f).anchor = f.anchor := rfl
@[simp] theorem putStore_wrapKey (k : Nat) (l : List Byte) (f : Flash) : (putStore k l f).wrapKey = f.wrapKey := rfl
@[simp] theorem putStore_imageKey (k : Nat) (l : List Byte) (f : Flash) : (putStore k l f).imageKey = f.imageKey := rfl
@[simp] theorem putStore_helper (k : Nat) (l : List Byte) (f : Flash) : (putStore k l f).helper = f.helper := rfl
@[simp] theorem putStore_chain (k : Nat) (l : List Byte) (f : Flash) : (putStore k l f).chain = f.chain := rfl
@[simp] theorem putStore_signKey (k : Nat) (l : List Byte) (f : Flash) : (putStore k l f).signKey = f.signKey := rfl
@[simp] theorem putStore_serial (k : Nat) (l : List Byte) (f : Flash) : (putStore k l f).serial = f.serial := rfl
@[simp] theorem putStore_mark (k : Nat) (l : List Byte) (f : Flash) : (putStore k l f).mark = f.mark := rfl
@[simp] theorem putStore_repair (k : Nat) (l : List Byte) (f : Flash) : (putStore k l f).repair = f.repair := rfl
@[simp] theorem putStore_banks (k : Nat) (l : List Byte) (f : Flash) : (putStore k l f).banks = f.banks := rfl
@[simp] theorem putStore_writes (k : Nat) (l : List Byte) (f : Flash) : (putStore k l f).writes = f.writes := rfl
@[simp] theorem putStore_selectors (k : Nat) (l : List Byte) (f : Flash) : (putStore k l f).selectors = f.selectors := rfl
@[simp] theorem putStore_actCount (k : Nat) (l : List Byte) (f : Flash) : (putStore k l f).actCount = f.actCount := rfl
@[simp] theorem putStore_mgmtActive (k : Nat) (l : List Byte) (f : Flash) : (putStore k l f).mgmtActive = f.mgmtActive := rfl
@[simp] theorem putStore_mgmt (k : Nat) (l : List Byte) (f : Flash) : (putStore k l f).mgmt = f.mgmt := rfl

/-! ## putSelector: a copy of the selector is programmed -/

@[simp] theorem putSelector_log (k : Nat) (x : Selector) (f : Flash) : (putSelector k x f).log = f.log := rfl
@[simp] theorem putSelector_seq (k : Nat) (x : Selector) (f : Flash) : (putSelector k x f).seq = f.seq := rfl
@[simp] theorem putSelector_boot (k : Nat) (x : Selector) (f : Flash) : (putSelector k x f).boot = f.boot := rfl
@[simp] theorem putSelector_anchor (k : Nat) (x : Selector) (f : Flash) : (putSelector k x f).anchor = f.anchor := rfl
@[simp] theorem putSelector_wrapKey (k : Nat) (x : Selector) (f : Flash) : (putSelector k x f).wrapKey = f.wrapKey := rfl
@[simp] theorem putSelector_imageKey (k : Nat) (x : Selector) (f : Flash) : (putSelector k x f).imageKey = f.imageKey := rfl
@[simp] theorem putSelector_helper (k : Nat) (x : Selector) (f : Flash) : (putSelector k x f).helper = f.helper := rfl
@[simp] theorem putSelector_chain (k : Nat) (x : Selector) (f : Flash) : (putSelector k x f).chain = f.chain := rfl
@[simp] theorem putSelector_signKey (k : Nat) (x : Selector) (f : Flash) : (putSelector k x f).signKey = f.signKey := rfl
@[simp] theorem putSelector_serial (k : Nat) (x : Selector) (f : Flash) : (putSelector k x f).serial = f.serial := rfl
@[simp] theorem putSelector_mark (k : Nat) (x : Selector) (f : Flash) : (putSelector k x f).mark = f.mark := rfl
@[simp] theorem putSelector_repair (k : Nat) (x : Selector) (f : Flash) : (putSelector k x f).repair = f.repair := rfl
@[simp] theorem putSelector_banks (k : Nat) (x : Selector) (f : Flash) : (putSelector k x f).banks = f.banks := rfl
@[simp] theorem putSelector_writes (k : Nat) (x : Selector) (f : Flash) : (putSelector k x f).writes = f.writes := rfl
@[simp] theorem putSelector_stores (k : Nat) (x : Selector) (f : Flash) : (putSelector k x f).stores = f.stores := rfl
@[simp] theorem putSelector_actCount (k : Nat) (x : Selector) (f : Flash) : (putSelector k x f).actCount = f.actCount := rfl
@[simp] theorem putSelector_mgmtActive (k : Nat) (x : Selector) (f : Flash) : (putSelector k x f).mgmtActive = f.mgmtActive := rfl
@[simp] theorem putSelector_mgmt (k : Nat) (x : Selector) (f : Flash) : (putSelector k x f).mgmt = f.mgmt := rfl

end Sys2Proof.Machine
end

