-- ==== Sys2Proof/Laws/Ops.lean ====
section
/-! SUPPORT. What the shared operations of the device do: registers and their fields, device memory, and the memory's
canonical form under each of them. -/

namespace Sys2Proof.Machine

/-! ## Registers -/

theorem resetWord_lt (n : RegName) (i j : Nat) : resetWord n i j < 2 ^ 32 := by
  have hrow : ∀ n : RegName, ((rowOf n).map RegRow.reset).getD 0 < 2 ^ 32 := by
    intro n; cases n <;> decide
  unfold resetWord
  split
  · unfold listGet
    rcases Nat.lt_or_ge i 8 with h | h
    · have : i = 0 ∨ i = 1 ∨ i = 2 ∨ i = 3 ∨ i = 4 ∨ i = 5 ∨ i = 6 ∨ i = 7 := by omega
      rcases this with rfl | rfl | rfl | rfl | rfl | rfl | rfl | rfl <;> decide
    · rw [List.getD_eq_getElem?_getD, List.getElem?_eq_none (by simpa using h)]; decide
  · split <;> decide
  · decide
  · decide
  · decide
  · exact hrow _

theorem getW_lt (n : RegName) (i j : Nat) (d : Dev) : getW n i j d < 2 ^ 32 := by
  unfold getW
  cases Tab.get d.regs (addrOf n i j) with
  | none => exact resetWord_lt n i j
  | some w => exact w.isLt

/-- A register reads as it was written. -/
@[simp] theorem getW_setW_self (n : RegName) (i j w : Nat) (d : Dev) : getW n i j (setW n i j w d) = w % 2 ^ 32 := by
  simp [getW, setW]

/-- A write of one register leaves every register at another address. -/
theorem getW_setW_other {n m : RegName} {i j k l : Nat} (w : Nat) (d : Dev) (h : addrOf m k l ≠ addrOf n i j) :
    getW m k l (setW n i j w d) = getW m k l d := by
  simp [getW, setW, Tab.get_set_other _ _ h]

/-- What a register reads hangs on the register table alone. -/
theorem getW_congr {d e : Dev} (h : d.regs = e.regs) (n : RegName) (i j : Nat) : getW n i j d = getW n i j e := by
  simp [getW, h]

theorem getF_congr {d e : Dev} (h : d.regs = e.regs) (n : RegName) (i j hi lo : Nat) : getF n i j hi lo d = getF n i j hi lo e := by
  simp [getF, getW_congr h]

theorem getW_setF_self {n : RegName} {i j hi lo v : Nat} (d : Dev) (ho : lo ≤ hi) (hh : hi < 32) :
    getW n i j (setF n i j hi lo v d) = withBits (getW n i j d) hi lo v := by
  rw [setF, getW_setW_self, Nat.mod_eq_of_lt (withBits_lt (getW_lt ..) ho hh)]

theorem getW_setF_other {n m : RegName} {i j k l : Nat} (hi lo v : Nat) (d : Dev) (h : addrOf m k l ≠ addrOf n i j) :
    getW m k l (setF n i j hi lo v d) = getW m k l d := getW_setW_other _ d h

theorem getF_setF_self {n : RegName} {i j hi lo v : Nat} (d : Dev) (ho : lo ≤ hi) (hh : hi < 32) :
    getF n i j hi lo (setF n i j hi lo v d) = v % 2 ^ (hi + 1 - lo) := by
  rw [getF, getW_setF_self d ho hh, bitsOf_withBits_self _ _ ho]

theorem getF_setF_below {n : RegName} {i j hi lo v h l : Nat} (d : Dev) (ho : lo ≤ hi) (hh : hi < 32) (h1 : l ≤ h) (h2 : h < lo) :
    getF n i j h l (setF n i j hi lo v d) = getF n i j h l d := by
  rw [getF, getW_setF_self d ho hh, bitsOf_withBits_below _ _ h2 h1 ho]; rfl

theorem getF_setF_above {n : RegName} {i j hi lo v h l : Nat} (d : Dev) (ho : lo ≤ hi) (hh : hi < 32) (h1 : hi < l) :
    getF n i j h l (setF n i j hi lo v d) = getF n i j h l d := by
  rw [getF, getW_setF_self d ho hh, bitsOf_withBits_above _ _ h1 ho]; rfl

/-- A counting field rises and saturates (R13). -/
theorem getF_countF_self {n : RegName} {i j hi lo k : Nat} (d : Dev) (ho : lo ≤ hi) (hh : hi < 32) :
    getF n i j hi lo (countF n i j hi lo k d) = min (2 ^ (hi + 1 - lo) - 1) (getF n i j hi lo d + k) := by
  rw [countF, getF_setF_self d ho hh]
  refine Nat.mod_eq_of_lt (Nat.lt_of_le_of_lt (Nat.min_le_left _ _) ?_)
  have := Nat.two_pow_pos (hi + 1 - lo); omega

/-! ## Memories keep their canonical form -/

theorem putBytes_wf (a n : Nat) (l : List Byte) (d : Dev) :
    ∀ (m : Mem) (k : Nat), Mem.wf m = true → Mem.wf (putBytes a n m d k l) = true := by
  induction l with
  | nil => exact fun _ _ h => h
  | cons b r ih =>
    intro m k h
    refine ih _ _ ?_
    unfold putByte; dsimp only
    split
    · exact h
    · split
      · exact h
      · exact Mem.wf_write h _ _

theorem writePhys_wf (a : Nat) (l : List Byte) (d : Dev) (h : Mem.wf d.tiers.dev = true) :
    Mem.wf (writePhys a l d).tiers.dev = true := putBytes_wf _ _ _ _ _ _ h

theorem zeroFrame_wf (pfn : Nat) (d : Dev) (h : Mem.wf d.tiers.dev = true) :
    Mem.wf (zeroFrame pfn d).tiers.dev = true := Mem.wf_zero h _ _

/-- A byte outside a write of device memory is as it was. -/
theorem putBytes_outside (a n : Nat) (l : List Byte) (d : Dev) :
    ∀ (m : Mem) (k x : Nat), x < k ∨ k + l.length ≤ x → Mem.read (putBytes a n m d k l) x = Mem.read m x := by
  induction l with
  | nil => exact fun _ _ _ _ => rfl
  | cons b r ih =>
    intro m k x h
    simp only [List.length_cons] at h
    rw [putBytes, ih _ _ _ (by omega)]
    unfold putByte; dsimp only
    split
    · rfl
    · split
      · rfl
      · exact Mem.read_write_other _ _ (by omega)

theorem writePhys_outside (a : Nat) (l : List Byte) (d : Dev) {x : Nat} (h : x < a ∨ a + l.length ≤ x) :
    Mem.read (writePhys a l d).tiers.dev x = Mem.read d.tiers.dev x := putBytes_outside _ _ _ _ _ _ _ h

end Sys2Proof.Machine
end

