-- ==== Sys2Proof/Tests/Slice0.lean ====
section
/-! SUPPORT. Tests: what WellFormed refuses, one step of a few commands with results worked out from the spec, and for each statement with
hypotheses a state and operands that meet them together. -/

namespace Sys2Proof.Tests

open Sys2Proof Sys2Proof.Machine

set_option Elab.async false

/-! ## Small states -/

/-- The device at READY over an open link, with the MC up and instance 0 ACTIVE at generation 7. -/
def base : Dev :=
  { Dev.reset with
    start := { Startup.reset with ready := true, step := 9 }
    link := { Link.reset with up := true, trained := true, width := 2 }
    mc := { Mc.off with up := true }
    insts := [(0, { state := 1, gen := 7, lastGen := 7, bricks := [0], node := 1, leaf0 := 0, leaves := 64, shareDue := false, started := 0 })] }

/-- A state on a device. -/
def onDev (d : Dev) : State := { State.reset with dev := d }

/-- The device with every die's interval timer at `n`. -/
def at_ (n : Nat) (d : Dev) : Dev := { d with timers := List.replicate 11 n }

/-- Does the outcome go on, to a device of which `p` holds? -/
def nextIs (o : Host.Outcome State Fault Refusal) (p : Dev → Bool) : Bool :=
  match o with
  | .next t => p t.dev
  | _ => false

/-! ## Idling -/

/-- The idle machine ticks and goes on (log entry 8). -/
theorem test_reset_idles : step State.reset = .next { State.reset with dev := tick State.reset.dev } := rfl

/-! ## What WellFormed refuses -/

/-- A packet with a header of 64 bytes and no payload. -/
def pkt : RxPkt := { die := 0, hdr := List.replicate 64 0, payload := [], srcNode := 0, srcDie := 0, ce := false, buf := none }

/-- A frame of 64 bytes. -/
def frame : RxFrame :=
  { fcsOk := true, length := 64, dst := 0, pcp := none, ip := none, ipOk := true, dstIp := 0, udpPort := 0, sumOk := true, macCtrl := none }

/-- The platform's request outside a session. -/
def req : MReq := { held := 0, toNull := false, sess := none, addr := 0x60, typ := 1, unit := 64, pecOk := true, formed := true, raw := [0x12, 0xE9, 1, 2] }

/-- One ill-formed command for each range of an operand: control space, power, bricks. -/
theorem test_ill_formed_one : ([
  .controlSpaceWrite 64 0 4 0, .controlSpaceWrite 0 (2 ^ 31) 4 0, .controlSpaceWrite 0 0 256 0, .controlSpaceWrite 0 0 8 (2 ^ 64),
  .sizeAlignError 64 0 4 true, .undecodedAccess 0 (2 ^ 31) 4 true, .wqDoorbell 64 0 8 0, .returnDoorbell 0 (2 ^ 31) 8 0,
  .adminDoorbell 0 0 8 (2 ^ 64), .controlSpaceReadClear 0 0 256, .paceMeasurement 11 0 0 0, .paceMeasurement 0 8 0 0, .railGrantResume 11,
  .grantRequest (.brick 1024) 0 none, .grantRequest (.brick 0) 0 (some 64), .grantRequest (.prefetch 8) 0 none, .grantRequest (.pesyn 2 0) 0 none,
  .grantRequest (.lane 0 68) 0 none, .grantRequest (.lanes 0 4096) 0 none, .grantReturn (.cipher 2), .grantReturn (.hostDma 2),
  .grantReturn (.ddr5 8), .inputHigh 65536, .inputLow 65536, .inputInRange 65536, .brownoutWarning 65536, .brownoutRecovery 65536,
  .brownoutReset 65536, .inputVoltageSample 65536, .inputOvervoltage 65536, .overvoltageRecovery 65536, .admissionCheck 65536,
  .refusalDelayExpiry 65536, .boundExpiry 65536 0, .scalarInstruction 1024 .add 0, .branch 1024 .jump 0, .matrix 1024 0,
  .matrixEnd 1024, .drain 1024 0, .drainEnd 1024, .vector 1024 ⟨.add, false⟩ 0, .vectorMemory 1024 .load 0, .vectorSpecial 1024 .div 0,
  .stream 1024 0, .spost 1024 0, .swait 1024 0, .cwait 1024 0, .cadd 1024 0, .bar 1024 0, .fence 1024 0, .hld 1024 true 0, .hst 1024 true 0,
  .hfence 1024 0, .hostAccessReturn 1024 0 [], .hostAccessReturn 0 0 (List.replicate 65 0), .readFlags 1024 0, .clearFlags 1024 0,
  .readBeatCount 1024 0 0, .endProgram 1024 0, .streamTileStart 1024 0, .streamTileDone 0 8, .storeTileVisible 0 8 0, .beatLimitReached 1024,
  .launch 65536, .sliceBoundary 1024 0, .contextSwitchEnd 1024, .remoteTileComplete 65536 0, .residueFailure 1024 0 0,
  .residueRetryEnd 1024 true, .retirementComplete 1024] : List Instr).all (fun c => !wellFormed c) = true := by decide +kernel

/-- Memory, translation, queues, remote memory, collectives. -/
theorem test_ill_formed_two : ([
  .basinPoolWrite (2 ^ 32), .basinWindowWrite 64 0, .basinWindowWrite 0 (2 ^ 32), .basinWindowTakesEffect (some 64), .basinPrefetchStage 0 8,
  .patrolScrub (.scratch 0 0x300000) ⟨.clean, true⟩, .patrolScrub (.basin 8 0) ⟨.clean, true⟩, .patrolScrub (.basin 0 (2 ^ 27)) ⟨.clean, true⟩,
  .patrolScrub (.sram 11 0) ⟨.clean, true⟩, .patrolScrub (.dev (49152 * 2 ^ 26)) ⟨.clean, true⟩, .rowRepair 8 0 0,
  .pseudoChannelRetirement 0 64 .noSpareRow, .groupRebuild 8 0, .groupRebuild 0 8, .hbmRetire 8 0, .hbmRetire 0 64, .ddr5Evacuate 8, .ddr5Online 8,
  .ddr5Cancel 8, .siteEvacuated 8, .siteTrainingEnd 8 true, .ddr5ModuleRemoved 8, .ddr5ModuleInserted 8 64 true,
  .translationWalk (.fetch 1024) 0 0 .read true, .translationWalk (.brick 1024) 0 0 .read true, .translationWalk (.pesyn 2 0) 0 0 .read true,
  .translationWalk (.coll 2 0) 0 0 .read true, .translationWalk (.aperture 64) 0 0 .read true, .ctxCreate 64, .ctxModify 64, .ctxDestroy 64,
  .segSet 64, .segClear 64, .frameAlloc 64, .frameFree 64, .xlateInvalidate 64, .faultRingSet 64, .faultResume 64, .faultFail 64,
  .migratePrefetch 64, .migrateAdvise 64, .nop 65536, .wait 65536, .signal 65536, .unreadableEntry 65536, .moderationTimer 16384, .wqCreate 64,
  .wqModify 64, .wqDestroy 64, .wqQuery 64, .crCreate 64, .crModify 64, .crDestroy 64, .counterAlloc 64, .counterFree 64, .counterSet 64,
  .adminCtrlWrite 64 0, .adminCtrlWrite 0 (2 ^ 32), .adminWaitEnd 64, .pdCreate 64, .pdModify 64, .pdDestroy 64, .regRegister 64,
  .regDeregister 64, .regRekey 64, .regQuery 64, .write 65536, .writeImm 65536, .read 65536, .data { pkt with die := 2 },
  .request { pkt with hdr := [] }, .grant { pkt with payload := List.replicate 8209 0 }, .ack { pkt with buf := some (32, 0, 0) },
  .nack { pkt with buf := some (0, 8, 0) }, .resend { pkt with die := 2 }, .response { pkt with die := 2 }, .cancel { pkt with die := 2 },
  .grantChunk 2, .retransmitTimeout 2 0, .resendTimer 2 0, .sendWindowEnd 2 0, .requestTimeout 2 0, .slotAbandon 2 0, .filterStep 2,
  .backoffEnd 2 0, .commCreate 64, .commAdvance 64, .commDestroy 64, .commQuery 64, .allReduce 65536, .reduceScatter 65536, .allGather 65536,
  .allToAll 65536, .allToAllV 65536, .broadcast 65536, .barrier 65536, .enter { pkt with die := 2 }, .contribution { pkt with die := 2 },
  .restart { pkt with die := 2 }, .seal { pkt with die := 2 }, .enterTimeout 2 0, .laneResidueFailure 2 0 0, .laneResidueFailure 0 68 0] : List Instr).all (fun c => !wellFormed c) = true := by decide +kernel

/-- Ports, the host link, instances, keys, management, update. -/
theorem test_ill_formed_three : ([
  .linkUp 32, .linkDown 32 true true true, .linkHoldExpiry 32, .portCtrlWrite 32 0, .portCtrlWrite 0 (2 ^ 32), .cellFault 8 0, .cellFault 0 16,
  .laneSubstitute 8 0, .substitutionEnd 8, .laserUnitInserted 8, .laserCheckEnd 8 16 1311 ⟨12, true⟩, .laserUnitRemoved 8, .laserUnitFault 8 0,
  .laserUnitFault 0 256, .laserDrain 8, .laserCancel 8, .laserRiseEnd 8, .frameReceive 32 frame, .frameReceive 0 { frame with dst := 2 ^ 48 },
  .frameReceive 0 { frame with pcp := some 8 }, .frameReceive 0 { frame with ip := some (4, 64, 0) }, .frameReceive 0 { frame with ip := some (4, 0, 4) },
  .xoffRepeat 32 0, .xoffRepeat 0 9, .pauseFrame 32 0 0 [], .pauseFrame 0 0 0 (List.replicate 9 0), .pauseExpiry 0 9, .pauseStormGuard 0 9,
  .pauseGuardEnd 0 9, .bufferStormGuard 0 8, .prioBufWrite 32 0 0, .prioBufWrite 0 8 0, .prioBufWrite 0 0 (2 ^ 32), .bufferSizeTakesEffect 0 8,
  .statsSample 32, .statsSelectWrite (2 ^ 32), .statsDataLoRead 64, .portFrameBoundary 32, .highSer 32 true, .shaperTokensPositive 2 0,
  .shaperTokensPositive 0 4608, .shaperWrite 0 0 2 0, .shaperWrite 0 0 0 (2 ^ 32), .policerWrite 0 128 0 0, .policerWrite 0 0 4 0,
  .policeStatsSelectWrite (2 ^ 32), .policeStatsDataLoRead 64, .retrainEnd 256, .melelLinkTrained 256, .hostToDevice 65536, .deviceToHost 65536,
  .apertureRead 64 0 4, .apertureRead 0 0 256, .apertureWrite 64 0 [], .apertureWrite 0 0 (List.replicate 4097 0), .instanceReset 64,
  .instanceQuiesced 64, .release 64, .instShareWrite 64 0, .instShareWrite 0 (2 ^ 32), .loadWrapped 1024, .erase 1024, .keySlotWrite 1024 0,
  .keySlotWrite 0 (2 ^ 32), .setEndpointId req 256, .getMctpVersionSupport req 256, .setTid req 256, .getPldmVersion req 256,
  .getPldmCommands req 256, .setEventReceiver req (some 256), .readCounter req 32 0, .getCertificate req 1024 0 0, .challenge req 1024 0,
  .mcStart 8 none ⟨[true, true]⟩, .logWindow0Read 64, .logWindow15Read 64, .leaseRelease .manager 65536, .packageWrite req 65536 0 0 [],
  .packageEnd req 65536, .armHandover .manager 65536, .armCoordinated .manager 65536 0, .armCoordinated .manager 0 (2 ^ 32), .token .manager 65536 0,
  .token .manager 0 (2 ^ 32)] : List Instr).all (fun c => !wellFormed c) = true := by decide +kernel


/-- The same with every operand at the end of its range is well formed. -/
theorem test_well_formed : [Instr.controlSpaceWrite 0xFF (2 ^ 31 - 1) 255 (2 ^ 64 - 1), .paceMeasurement 10 7 0 0, .grantRequest (.lane 1 67) 8 (some 63),
    .scalarInstruction 1023 .add 0, .storeTileVisible 1023 7 0, .patrolScrub (.dev (49152 * 2 ^ 26 - 1)) ⟨.clean, true⟩, .data pkt,
    .frameReceive 31 frame, .mcStart 7 none ⟨[true, true]⟩].all wellFormed = true := by decide +kernel

/-! ## Bricks -/

def ctx0 : Ctx := { inst := 0, root := 0, limit := 0, mode := 0, segs := [(0, ⟨0, 1, 3, 7⟩)], dying := false }
def lfn3 : Lfn := { inst := 0, pfn := 5, table := false, fixed := false, run := none, keep := false, count := 0, dying := false }
def launch1 : Launch :=
  { inst := 0, q := 9, idx := 0, bricks := [0], act := 2, code := 0, arg := 0, faultAt := 0, limit := 1000, ctx := 1, rq := 6, devUs := 1000,
    since := 0 }
def brick0 : Brick :=
  { rot := [1024], cur := some 1024, coming := none, edge := 0, since := 0, began := 0, late := false, passed := 0, failing := none, decided := 0 }

/-- Brick 0 runs the launch 1 at address 64, in a segment of a whole frame; its context is `x`. -/
def running (x : BCtx) : Dev :=
  let d := { base with
    xl := { Xlate.reset with ctxs := [(1, ctx0)], lfns := [(3, lfn3)] }
    bricks := { Bricks.reset with bricks := [(0, brick0)], ctxs := [(1024, x)], launches := [(1, launch1)] } }
  updRail 0 (fun r => { r with grants := [⟨.brick 0, 4, some 0⟩] }) d

/-- A context with S4 = 40, S5 = 2, S6 = 128 and S7 the number of a free counter. -/
def ctxK : BCtx := { BCtx.start launch1 1 0 0 0 with s := [(4, 40), (5, 2), (6, 128), (7, 65576)], pc := 64 }

/-- The device after the fetch at address 64. -/
def fetched (d0 : Dev) : Dev :=
  let d := wakeUnits 0 d0
  readsDev [(5 * 2 ^ 26 + 64, 8)] (countFetch 1 3 0 (fillAt 1 64 .fetch (.fetch 0) d))

/-- An instruction word. -/
def word (cls flags dst src1 src2 imm : Nat) : Word64 :=
  BitVec.ofNat 64 (cls * 2 ^ 60 + flags * 2 ^ 48 + dst * 2 ^ 43 + src1 * 2 ^ 38 + src2 * 2 ^ 33 + imm)

/-- 40 + 2 in S6, and past the instruction. -/
theorem test_scalar_add : nextIs (exec (.scalarInstruction 0 .add (word 0 0 6 4 5 0)) (onDev (running ctxK)))
    (fun d => (ctxAt 1024 d).map (fun x => (x.sreg 6, x.pc)) == some (42, 72)) = true := by decide +kernel

/-- A write to S0 is ignored. -/
theorem test_scalar_s0 : nextIs (exec (.scalarInstruction 0 .add (word 0 0 0 4 5 0)) (onDev (running ctxK)))
    (fun d => (ctxAt 1024 d).map (fun x => (x.sreg 0, x.pc)) == some (0, 72)) = true := by decide +kernel

/-- A jump of −2 instructions from address 64. -/
theorem test_jump_back : nextIs (exec (.branch 0 .jump (word 1 0 0 0 0 0xFFFFFFFE)) (onDev (running ctxK)))
    (fun d => (ctxAt 1024 d).map BCtx.pc == some 48) = true := by decide +kernel

theorem witness_fetched : Safety.Fetched 0 (onDev (running ctxK)) 1024 ctxK launch1 (fetched (running ctxK)) :=
  ⟨by decide +kernel, rfl, 3, 64, 0, 2 ^ 26, 7, true, 5 * 2 ^ 26 + 64, List.replicate 8 0, by decide +kernel, by decide +kernel, by rfl, rfl,
    by decide +kernel⟩

/-- A context that is fetched as `ctxK` is: every context at address 64 with nothing in its units. -/
theorem witness_instructions :
    let x := ctxK
    let e := fetched (running x)
    scalarLegal .add (word 0 0 6 4 5 0).toNat x launch1 = true ∧
    Safety.scalarSpec .add 40#64 2#64 = some 42#64 ∧
    scalarLegal .shl (word 0 1 6 4 0 64).toNat x launch1 = true ∧
    scalarLegal .load (word 0 0 6 6 0 0).toNat x launch1 = true ∧ scalarLegal .store (word 0 0 0 6 5 0).toNat x launch1 = true ∧
    scalarAddr (word 0 0 6 6 0 0).toNat x + 8 ≤ 0x300000 ∧ poisonOf 1024 x e = [] ∧ rangeHeld x x.ops [(128, 8)] [(128, 8)] = false ∧
    branchLegal .loop (word 1 0 0 4 0 3).toNat x launch1 = true ∧ x.pc < 2 ^ 56 ∧
    sysLegal false (word 10 0 6 0 0 0).toNat x launch1 = true ∧ sysLegal true (word 10 0 0 0 0 1).toNat x launch1 = true ∧
    syncLegal false (word 8 0 0 4 5 0).toNat x launch1 = true ∧ syncLegal true (word 8 0 3 4 0 0).toNat x launch1 = true ∧
    wordOk (word 9 0 0 0 0 0).toNat 9 [(53, 48), (37, 33), (31, 0)] = true ∧ x.allSeen = true := by decide +kernel

/-- A free counter of instance 0. -/
def counted (d : Dev) : Dev := { d with q := { d.q with ctrs := [(65576, { inst := 0, value := 1, mirror := none })] } }

theorem witness_counter_waits : counterOwner (ctxK.sreg 7) (fetched (counted (running ctxK))) = some 0 ∧
    Safety.Fetched 0 (onDev (counted (running ctxK))) 1024 ctxK launch1 (fetched (counted (running ctxK))) ∧
    waitOver { ctxK with wait := .cwait 65576 2 0 } (counted (running ctxK)) = false :=
  ⟨by decide +kernel, ⟨by decide +kernel, rfl, 3, 64, 0, 2 ^ 26, 7, true, 5 * 2 ^ 26 + 64, List.replicate 8 0, by decide +kernel, by decide +kernel,
    by rfl, rfl, by decide +kernel⟩, by decide +kernel⟩

/-- A store tile that is not visible holds a CADD; SWAIT at a slice boundary. -/
def desc0 : SDesc :=
  { mem := 4096, key := 0, node := 0, scratch := 256, bufBytes := 64, rowStride := 0, tileStride := 64, rows := 1, rowBytes := 64, count := 4,
    buffers := 2, space := 0, store := false, prefetch := 1, imm := none, first := 0, pc := 64, word := 0 }
def spot0 : Spot := { off := 0, host := false, addr := 3 * 2 ^ 26 + 4096, len := 64, va := 4096 }
def tile0 : TileFl := { desc0.tile 0 with spots := [spot0] }
def chan0 : Chan := { cur := some desc0, next := none, posted := 0, done := 0, started := 0, asks := [], tiles := [] }
def storeTile : TileFl := { tile0 with desc := { desc0 with store := true, prefetch := 0 } }
def withChan (c : Chan) : BCtx := { ctxK with chans := [(3, c)] }

theorem witness_cadd_held : (withChan { chan0 with cur := some storeTile.desc, started := 1, tiles := [{ storeTile with landed := true }] }).allSeen = false := by decide +kernel

theorem witness_SwaitWaits :
    let x := { ctxK with wait := .swait 3 1 }
    let d := at_ 16000 (running x)
    waitOver x d = false ∧ onEdge 0 d = true ∧ (brickAt 0 d).edge ≤ clock 0 d ∧ (brickAt 0 d).failing = none ∧ (brickAt 0 d).coming = none ∧
    (brickAt 0 d).cur = some 1024 ∧ (brickAt 0 d).rot = [1024] ∧ ctxAt 1024 d = some x ∧ x.brick = 0 := by decide +kernel

/-- The matrix instruction over one block of 32 of BF16, and drains to V registers and to scratch. -/
theorem witness_MatrixAndDrain :
    let x := ctxK
    let e := fetched (running x)
    let m := word 2 0 0 4 5 (1 + 6 * 2 ^ 12 + 6 * 2 ^ 16)
    let dv := word 3 4 8 0 0 8
    let ds := word 3 0 6 0 0 8
    matrixLegal m.toNat x launch1 = true ∧ drainLegal dv.toNat x launch1 = true ∧ drainLegal ds.toNat x launch1 = true ∧
    toVreg dv.toNat = true ∧ toVreg ds.toNat = false ∧ x.has [.matrix] = false ∧ x.has [.drain] = false ∧
    firstReady x [] x.ops = none ∧ (Safety.handed .matrix m.toNat 0 x e).free x.ops x = true ∧
    (Safety.handed .drain ds.toNat 0 x e).free x.ops x = true ∧ x.ops = [] ∧ poisonOf 1024 x e = [] ∧ x.sreg 6 + drainBytes ds.toNat ≤ 0x300000 ∧
    (match readRanges 1024 x e (matrixRanges m.toNat x) with | .ok [_, _, _, _] => true | _ => false) = true := by decide +kernel

/-- A unit with an instruction in hand ends it. -/
theorem witness_unit_end :
    let o : UOp := { id := 0, kind := .matrix, pc := 56, word := 0, s := [], v := [], loc := 0, begun := true }
    let x := { ctxK with ops := [o] }
    unitHolder 0 .matrix (running x) = some (1024, o) ∧ x.posts = [] ∧ firstReady x [] [] = none ∧ x.has [.matrix] = true := by decide +kernel

theorem witness_VectorInstructions :
    let x := ctxK
    let e := fetched (running x)
    let v := word 4 0 3 1 2 0
    let l := word 5 0 3 6 0 8
    vectorLegal ⟨.iadd, false⟩ v.toNat x launch1 = true ∧ vectorBusy (vectorReads ⟨.iadd, false⟩ v.toNat) x = false ∧
    vmemLegal .load l.toNat x launch1 = true ∧ vmemLegal .store l.toNat x launch1 = true ∧ vectorBusy [3] x = false ∧
    (Safety.handed .vload l.toNat 0 x e).free x.ops x = true ∧ (Safety.handed .vstore l.toNat 0 x e).free x.ops x = true ∧
    firstReady x [] x.ops = none ∧ x.ops = [] ∧ x.sreg 6 + vmemBytes 8 ≤ 0x300000 ∧ poisonOf 1024 x e = [] ∧
    vspecLegal .div (word 6 0 3 1 2 0).toNat x launch1 = true ∧ vspecLegal .sum (word 6 0 3 1 2 0).toNat x launch1 = true ∧
    vectorBusy (vspecReads .div (word 6 0 3 1 2 0).toNat) x = false := by decide +kernel

/-- A descriptor of one row of 64 bytes at address 4096, with two buffers at 256. -/
def descBytes : List Byte :=
  natLE 8 4096 ++ natLE 8 0 ++ natLE 4 256 ++ natLE 4 64 ++ natLE 8 0 ++ natLE 8 64 ++ natLE 2 0 ++ natLE 2 63 ++ natLE 2 3 ++ [2, 0, 1, 0] ++
  List.replicate 14 0

theorem witness_StreamsAndTiles :
    let x := { ctxK with scratch := (List.range 64).map (fun i => (128 + i, descBytes.getD i 0)) }
    let w := word 7 0 3 6 0 0
    let y := withChan chan0
    streamLegal w.toNat x launch1 = true ∧ streamBusy w.toNat x = false ∧ x.sreg 6 % 64 = 0 ∧
    parseDesc ((List.range 64).map (fun n => x.byte (128 + n))) 64 0 = some desc0 ∧ desc0.pages ≤ 64 ∧
    wordOk (word 7 0 3 0 0 1).toNat 7 [(53, 48), (37, 33)] = true ∧ x.posts = [] ∧ x.ops = [] ∧ x.host = [] ∧
    startCtx 0 3 (running y) = some (1024, y, desc0) ∧ launchAt 1 (running y) = some launch1 ∧ stagedOf 1024 3 0 (running y) = none ∧
    (match spots 1 .read (.brick 0) (running y) (tileParts desc0 0) with | .ok l => l == [spot0] | _ => false) = true ∧
    hostPieces desc0 0 [spot0] = some [] := by decide +kernel

/-- A load of a tile of device memory that may land, with the tile's bytes there; the same tile as a store read from scratch. -/
theorem witness_TileEnds :
    let x := withChan { chan0 with started := 1, tiles := [tile0] }
    let y := withChan { chan0 with cur := some storeTile.desc, posted := 1, started := 1, tiles := [storeTile] }
    let z := withChan { chan0 with cur := some storeTile.desc, posted := 1, started := 1, done := 1,
                                   tiles := [{ storeTile with landed := true, data := List.replicate 64 1 }] }
    doneTile 0 3 (running x) = some (1024, x, tile0) ∧ launchAt 1 (running x) = some launch1 ∧
    (match loadBytes 1024 3 x launch1 tile0 (running x) with | .inr (l, _) => l == List.replicate 64 0 | _ => false) = true ∧
    tile0.desc.buffer 0 + 64 ≤ 0x300000 ∧ poisonOf 1024 x (running x) = [] ∧
    doneTile 0 3 (running y) = some (1024, y, storeTile) ∧ storeTile.desc.store = true ∧
    storeReady z 3 0 (running z) = some { storeTile with landed := true, data := List.replicate 64 1 } ∧
    (writeSpots (List.replicate 64 1) (piecesOf (running z) [spot0]) (running z)).2 = none := by decide +kernel

/-- A tile of the basin window, in a window of one unit. -/
theorem witness_basin_tile :
    let d := running ctxK
    basinRows { desc0 with space := 1, mem := 64 } 0 0 0 { d with tiers := { d.tiers with windows := [(0, (1, 0))] } } = some [(0, 64)] := by
  decide +kernel

/-- A tile that may be staged, and a host page of the context in the brick's cache. -/
def hosting (x : BCtx) : Dev :=
  let d := running x
  { d with xl := { d.xl with cache := [{ cache := 16, ctx := 1, base := 2 ^ 40, size := 4096, host := true, lfn := 0, addr := 0x7000, perm := 3, seg := false }] } }

theorem witness_staging :
    let y := withChan chan0
    let d := updRail 0 (fun r => { r with grants := r.grants ++ [⟨.prefetch 0, 1, none⟩] }) (running y)
    stageable 1024 3 y d = some (0, desc0) ∧ onBrick 1024 y d = true ∧ d.tiers.poolUnits ≠ 0 ∧ holdsGrant (.prefetch 0) d = true ∧
    poolUsed 0 d + ceilDiv desc0.len 4096 ≤ d.tiers.poolUnits * 64 ∧ spot0.host = false ∧
    (match readSpots d (piecesOf d [spot0]) with | .ok _ => true | _ => false) = true := by decide +kernel

theorem witness_host_window :
    let x := { ctxK with s := [(4, 2 ^ 40), (6, 128)] }
    let e := fetched (hosting x)
    let w := word 9 0 6 4 0 0
    issuing 0 (hosting x) = some (1024, x, launch1) ∧ issuing 0 e = some (1024, x, launch1) ∧ x.sreg 4 % 64 = 0 ∧ linkOpen e = true ∧
    x.hostCount = 0 ∧ hostLegal false w.toNat x launch1 = true ∧ hostLegal true w.toNat x launch1 = true ∧ x.sreg 6 % 64 = 0 ∧
    (Safety.handed (.hld false) w.toNat 128 x e).free x.ops x = true ∧ (Safety.handed (.hst true) w.toNat 0 x e).free x.ops x = true ∧
    translate 1 (x.sreg 4) .read (.brick 0) e = .host 0x7000 (2 ^ 40) 4096 3 ∧
    translate 1 (x.sreg 4) .write (.brick 0) e = .host 0x7000 (2 ^ 40) 4096 3 := by decide +kernel

/-- Two HLDs in flight, the older first. -/
theorem witness_host_return :
    let i : HIns := { pc := 0, word := 0, va := 2 ^ 40, addr := 0x7000, back := none }
    let x := { ctxK with v := [(8, List.replicate 64 0)], host := [(0, .loadV i 8 0 []), (1, .loadV i 8 1 [])] }
    (ctxsOf 0 (running x)).find? (fun p => Tab.has p.2.host 1) = some (1024, x) ∧ ctxAt 1024 (running x) = some x ∧ i.back = none ∧
    (x.vreg 8).length = 64 ∧ (running x).link.retrain = false := by decide +kernel

/-- A failure in hand, with and without a spare left, and one in retirement. -/
def failing (f : Nat × Nat × Bool) (n : Nat) (lost : Bool) : Dev :=
  let d := updBrick 0 (fun r => { r with failing := some f, passed := n }) (running ctxK)
  { d with start := { d.start with repair := { d.start.repair with badSpare := if lost then [0] else [] } } }

theorem witness_ResidueAndRetirement :
    (brickAt 0 (running ctxK)).failing = none ∧ (brickAt 0 (running ctxK)).cur = some 1024 ∧ holdsGrant (.brick 0) (running ctxK) = true ∧
    (brickAt 0 (failing (0, 0, false) 7 false)).passed = 7 ∧ spareFree 0 (failing (0, 0, false) 7 false) = true ∧
    spareFree 0 (failing (0, 0, false) 0 true) = false ∧ outranked 0 (failing (0, 0, false) 0 true) = none ∧
    (brickAt 0 (failing (0, 0, true) 0 false)).failing = some (0, 0, true) ∧ retireReady 0 (failing (0, 0, true) 0 false) = true ∧
    firstReady ctxK [] ctxK.ops = none := by decide +kernel

/-- A brick of the same course at a higher position was decided at this moment. -/
theorem witness_outranked :
    let d := failing (0, 0, false) 0 false
    let e := { d with bricks := { d.bricks with bricks := d.bricks.bricks ++ [(1, { brick0 with cur := none, rot := [], failing := some (1, 0, true) })] } }
    spareFree 0 e = false ∧ outranked 0 e = some (1, 1, 0) := by decide +kernel

/-- A context that comes onto its brick, one that has ended, and a brick with no launch. -/
theorem witness_SlicesAndLaunches :
    let d := updBrick 0 (fun r => { r with cur := none, coming := some 1024 }) (running ctxK)
    (brickAt 0 d).coming = some 1024 ∧ ctxAt 1024 d = some ctxK ∧ holdsGrant (.brick 0) d = true ∧ ctxK.quiet = true ∧ storePoison 0 d = none ∧
    firstReady ctxK [] ctxK.ops = none ∧ base.bricks.launches = [] ∧ launchEnded 1 (running { ctxK with wait := .ended }) = true ∧
    launchAt 1 (running { ctxK with wait := .ended }) = some launch1 := by decide +kernel

/-! ## Control space, doorbells, current, pace -/

/-- A write of a plain register reaches its row. -/
theorem witness_ControlSpaceAccess : RegName.pesynResidence ∈ Safety.plainRegs ∧
    (findReg (addrOf .pesynResidence 0 0)).map (fun r => (r.1.name, r.2)) = some (.pesynResidence, 0, 0) ∧
    (rowOf .pesynResidence).isSome = true ∧ base.start.ready = true ∧ linkOpen base = true := by decide +kernel

/-- Accesses of each kind: misaligned, past the end, of an instance that is not configured, of a reserved offset; and before READY. -/
theorem witness_CountedAccesses : hasWindow 0xFF 2 base = true ∧ wellSized 2 4 = false ∧ hasWindow 0xFF 0x41000000 base = true ∧
    reach 0x41000000 base = .bad 2 ∧ reach 0x40FFFFFC base = .bad 4 ∧ reach 0x00FFFFFC base = .bad 3 ∧ hasWindow 5 0x1000 Dev.reset = true ∧
    Dev.reset.start.ready = false := by
  refine ⟨by decide +kernel, by decide +kernel, by decide +kernel, by rfl, by rfl, by rfl, by decide +kernel, by decide +kernel⟩

/-- A work queue of instance 0 on page 2, fed by the host from a ring of 64 entries. -/
def wq0 : WQ :=
  { inst := 0, cr := 3, log2 := 6, cls := 0, refuse := false, delay := 10, feed := 0, page := 2, loc := 0, ring := 0x10000, lda := 0, ctx := 1,
    domain := 0, leaf := 0, prodCtr := 0, p := 0, c := 0, state := 0, head := none, reading := false, stalled := false, tiles := [], flight := [],
    firstErr := 0, win := 65536, winAcked := 0, winCut := false, detached := false, again := false, errIdx := 0, errAt := 0, muted := false }

/-- A completion ring of instance 0 on page 129, in host memory. -/
def cr0 : CR :=
  { inst := 0, log2 := 6, loc := 0, vector := 1, page := 129, modCount := 0, modUs := 0, ring := 0x20000, lda := 0, ctx := 0, wr := 0, ret := 0,
    written := 0, held := 0, unseen := 0, oldest := 0, counter := 0, detached := false }

/-- Instance 0 with queue 9 and ring 3. -/
def queued (w : WQ) (c : CR) : Dev := { base with q := { base.q with wqs := [(9, w)], crs := [(3, c)] } }

/-- The data of a doorbell: QUEUE, PRODUCER, GENERATION. -/
def bell (q p gen : Nat) : Nat := q + p * 2 ^ 16 + gen * 2 ^ 32

/-- A doorbell moves P of its queue, and one with another generation does not. -/
theorem test_doorbell : nextIs (exec (.wqDoorbell 0 0x2000 8 (bell 9 5 7)) (onDev (queued wq0 cr0)))
      (fun d => (wqAt 9 d).map WQ.p == some 5) = true ∧
    nextIs (exec (.wqDoorbell 0 0x2000 8 (bell 9 5 6)) (onDev (queued wq0 cr0))) (fun d => (wqAt 9 d).map WQ.p == some 0) = true := by
  decide +kernel

theorem witness_Doorbells :
    let d := queued wq0 { cr0 with written := 3 }
    hasWindow 0 0x2000 d = true ∧ ctrlAddr 0 0x2000 = 0x01000000 * (0 + 1) + 0x2000 ∧ d.start.ready = true ∧ instActive 0 d = true ∧
    (instAt 0 d).gen = 7 ∧ bitsOf (bell 9 5 7) 47 32 = 7 ∧ bell 9 5 7 % 65536 = 9 ∧ wqAt 9 d = some wq0 ∧ wq0.page = 0x2000 / 4096 ∧
    hasWindow 0 0x81000 d = true ∧ crAt 3 d = some { cr0 with written := 3 } ∧ cr0.page = 0x81000 / 4096 ∧
    (bitsOf (bell 3 2 7) 31 16 % 64 + 64 - 0) % 64 = 2 := by decide +kernel

/-- The device with the admin queue of instance 0 enabled, of 64 entries each way. -/
def admin : Dev := setW .adminCtrl 0 0 (2 ^ 31 + 6 * 2 ^ 16 + 6 * 2 ^ 12) base

theorem witness_admin_doorbell : adminOn 0 admin = true ∧ hasWindow 0 0x0 admin = true ∧ bell 0xFFFF 1 7 % 65536 = 0xFFFF ∧
    (adminAt 0 admin).head = none ∧ (adminAt 0 admin).reading = false ∧ (adminAt 0 admin).wait = none ∧ (adminAt 0 admin).notices = [] := by
  decide +kernel

theorem witness_DiscardedDoorbells : ctrlAddr 0 0x2000 = 0x01000000 * (0 + 1) + 0x2000 ∧ bitsOf (bell 9 5 6) 47 32 ≠ (instAt 0 base).gen ∧
    base.start.ready = true ∧ wqAt 9 base = none ∧ crAt 9 base = none := by decide +kernel

/-- A request of 4 is granted on an empty rail, and waits on one with 2 units left. -/
theorem test_grant : nextIs (exec (.grantRequest (.brick 5) 4 none) (onDev base)) (fun d => (railAt 0 d).granted == 60) = true ∧
    nextIs (exec (.grantRequest (.brick 5) 4 none) (onDev (updRail 0 (fun r => { r with standing := 598 }) base)))
      (fun d => (railAt 0 d).waiting.length == 1) = true := by decide +kernel

theorem witness_CurrentLedger : asksLevel ⟨.brick 5, 4, some 0⟩ base = true ∧ asksLevel ⟨.brick 5, 3, none⟩ base = false ∧
    railOf (.brick 5) < base.pwr.rails.length ∧ (railAt 0 base).open_ = true ∧ (railAt 0 base).waiting = [] ∧
    fits (railAt 0 base) ⟨.brick 5, 4, some 0⟩ = true ∧ shareOk (railAt 0 base) ⟨.brick 5, 4, some 0⟩ (setW .instShare 0 0 256 base) = true ∧
    fits (railAt 0 (updRail 0 (fun r => { r with standing := 598 }) base)) ⟨.brick 5, 4, none⟩ = false ∧
    (railAt 0 base).granted ≤ (railAt 0 base).capacity ∧ (railAt 0 base).fromAllow ≤ (railAt 0 base).allowance := by decide +kernel

/-- 1,500 is within 8 % of 1,600 but under the slowest rate: the rail stops granting (R39). -/
theorem test_pace : nextIs (exec (.paceMeasurement 2 0 1500 1600) (onDev base)) (fun d => !(railAt 2 d).open_ && (railAt 1 d).open_) = true := by
  decide +kernel

theorem witness_PaceAndInput :
    let d := at_ 8000 (updRail 2 (fun r => { r with slowHold := true, goodSince := some 0 }) base)
    let warn := setW .brownoutStatus 0 0 1 base
    bitOf (getF .paceRate 2 0 23 16 base) 0 = true ∧ 2 < d.pwr.rails.length ∧ (railAt 2 d).goodSince = some 0 ∧ 0 + 8000 ≤ clock 2 d ∧
    (updRail 0 (fun r => { r with stopped := true }) base).pwr.rails.any Rail.stopped = true ∧ getF .brownoutStatus 0 0 0 0 warn = 1 ∧
    base.pwr.rails.any Rail.stopped = false ∧ base.pwr.rails ≠ [] := by decide +kernel

/-! ## Memory tiers and migration -/

theorem witness_BasinWindows :
    let w := setW .basinWindow 0 0 (2 * 2 ^ 16 + 3) base
    windowClash 0 (2, 3) base = false ∧ windowClash 1 (2, 4) w = true ∧ poolClash 32 base = false ∧ poolClash 64 (setW .basinWindow 0 0 (200 * 2 ^ 16 + 50) base) = true ∧
    bitsOf (2 * 2 ^ 16 + 3) 24 16 = 2 ∧ bitsOf (2 * 2 ^ 16 + 3) 8 0 = 3 ∧ windowReg 0 w ≠ windowNow 0 w ∧ base.bricks.launches = [] := by decide +kernel

/-- A stack with a row that failed twice in a pseudo-channel, and one whose group 0 empties for pseudo-channel 3. -/
def worn : Dev := updStack 0 (fun st => { st with candidates := [(3, 17)] }) base
def leaving : Dev := updStack 0 (fun st => { st with store := [], groups := st.groups.set 0 1, leaving := [(0, 3)] }) base

theorem witness_ScrubRepairRetirement : rowReady 0 3 17 worn = true ∧ 0 < worn.tiers.hbm.length ∧ poisonedAt 64 base = false ∧
    base.tiers.poison = [] ∧ base.tiers.soft = [] ∧ calderaFrames 0 base = [] ∧ mayRetire 0 3 worn = true ∧ retireCauseOk 0 3 .noSpareRow worn = true ∧
    (stackAt 0 worn).groups.length = 8 ∧ mayRetire 0 3 leaving = false ∧ rebuildReady 0 0 leaving = true ∧ Tab.get (stackAt 0 leaving).leaving 0 = some 3 := by
  decide +kernel

/-- The DDR5 sites in a state. -/
def sites (n : Nat) (p : Bool) : Dev := { base with tiers := { base.tiers with sites := List.replicate 8 { state := n, present := p, capGiB := 64, lost := [] } } }

/-- DDR5_ONLINE of a site that is not READY changes nothing and answers 0x03. -/
theorem test_ddr5_refused : nextIs (exec (.ddr5Online 2) (onDev (sites 4 true)))
    (fun d => (siteAt 2 d).state == 4 && getW .memServiceStatus 0 0 d == 0x2203) = true := by decide +kernel

/-- The move of LFN 3 from frame 5 to frame 9. -/
def moving (n : Nat) : Dev :=
  { base with xl := { Xlate.reset with lfns := [(3, lfn3)], move := some { kind := .advice, lfn := 3, n := 1, place := 0, store := false, dest := 9, piece := n } } }

theorem witness_SitesAndMigration : (siteAt 1 (sites 1 true)).state = 1 ∧ (siteAt 1 (sites 3 true)).state = 3 ∧ (siteAt 1 (sites 4 true)).state = 4 ∧
    (siteAt 1 (sites 5 true)).state = 5 ∧ siteFrames 1 (sites 5 true) = [] ∧ (siteAt 1 base).state = 0 ∧ (siteAt 1 (sites 6 true)).present = true ∧
    (match (moving 0).xl.move with | some m => m.source (moving 0) == some 5 && decide (m.piece < 256 * m.n) | none => false) = true ∧
    (match (moving 256).xl.move with | some m => decide (m.piece = 256 ∧ m.dest ≠ 5) | none => false) = true ∧
    (List.range 8).all (fun n => (List.range 8).all (fun g => !emptying n g (moving 0))) = true ∧ (moving 0).xl.queued = [] ∧
    anyCounters (moving 0) = false ∧ base.xl.epochAt + msec base.xl.epochMs ≤ clock iodie (at_ 80000 base) := by decide +kernel

/-! ## Admin commands -/

/-- The bytes of an admin command: its opcode, and what follows from byte 8. -/
def cmd (op : Nat) (body : List Byte) : List Byte := natLE 8 op ++ (body ++ List.replicate (55 - body.length) 0) ++ [0x80]

/-- Instance 0 asks for a command, at the head of its admin queue. -/
def asks (op : Nat) (body : List Byte) (d : Dev) : Dev :=
  updAdmin 0 (fun a => { a with head := some { idx := 0, bytes := cmd op body, tile := none, bad := none, slot := none, since := 0, seqs := [], table := [], judged := false, chans := [] } })
    (setW .adminCtrl 0 0 (2 ^ 31 + 6 * 2 ^ 16 + 6 * 2 ^ 12) d)

/-- Is the command taken? -/
def takes (op : Nat) (body : List Byte) (d : Dev) : Bool :=
  !activating (asks op body d) && !pairBusy (adminPair 0) (asks op body d) && adminHead 0 op (asks op body d) == some (cmd op body) && (adminAt 0 (asks op body d)).notices.isEmpty

theorem takes_spec {op : Nat} {body : List Byte} {d : Dev} (h : takes op body d = true) :
    Safety.AdminTakes 0 op (cmd op body) (onDev (asks op body d)) := by
  simp only [takes, Bool.and_eq_true, Bool.not_eq_true', beq_iff_eq] at h
  exact ⟨h.1.1.1, h.1.1.2, h.1.2⟩

/-- Instance 0 with its quotas, a context with a segment of LFN 3, a ring, a queue, a counter, a domain, a region and a communicator. -/
def objects : Dev :=
  let d := setW .commQuota 0 0 8 (setW .memberQuota 0 0 64 (setW .regionQuota 0 0 8 (setW .pinQuota 0 0 8 (setW .domainQuota 0 0 8
    (setW .counterQuota 0 0 8 (setW .queueQuota 0 0 (8 * 2 ^ 15 + 8) (setW .xlateQuota 0 0 (8 * 2 ^ 16 + 8) base)))))))
  { d with
    addr := { d.addr with node := 77 }
    xl := { d.xl with ctxs := [(1, ctx0)], lfns := [(3, lfn3), (4, { lfn3 with pfn := 6 })] }
    q := { d.q with wqs := [(9, wq0)], crs := [(3, cr0)], ctrs := [(65536, { inst := 0, value := 5, mirror := none })] }
    rem := { d.rem with doms := [(2, { inst := 0, tag := 1, nmatch := 0, nmask := 0, slot := 0xFFFF, ring := 0xFFFF })],
                        regions := [(0, { inst := 0, domain := 2, ctx := 1, access := 3, va := 0, len := 4096, pages := [(0, 2 ^ 26, 3 * 2 ^ 26)] })],
                        tags := [(0, 5)] } }

theorem witness_quiet : Safety.Quiet objects ∧ Safety.Quiet (asks 0 [] objects) :=
  ⟨⟨by decide +kernel, rfl, by rintro r (rfl | rfl) <;> decide +kernel, fun g h => absurd h (by decide +kernel +revert),
    fun w h => absurd h (by decide +kernel +revert)⟩,
    ⟨by decide +kernel, rfl, by rintro r (rfl | rfl) <;> decide +kernel, fun g h => absurd h (by decide +kernel +revert),
    fun w h => absurd h (by decide +kernel +revert)⟩⟩

/-- A context with no root, CTX_MODIFY of its limit, CTX_DESTROY, SEG_SET of an unset segment, SEG_CLEAR. -/
theorem witness_AdminQueueAndContexts :
    let create := natLE 8 0 ++ natLE 8 0 ++ natLE 4 100
    let modify := natLE 8 (1 + 2 * 2 ^ 16) ++ natLE 8 0 ++ natLE 4 100
    let seg := natLE 8 (1 + 1 * 2 ^ 16 + 7 * 2 ^ 24) ++ natLE 8 (2 ^ 26) ++ natLE 2 4 ++ natLE 2 1
    takes 0xA0 create objects = true ∧ adminZeros (cmd 0xA0 create) [(16, 28)] = true ∧ fieldLE (cmd 0xA0 create) 24 4 = 100 ∧
    Tab.count objects.xl.ctxs (fun _ x => x.inst == 0) < getF .xlateQuota 0 0 12 0 objects ∧ Tab.lowestFree objects.xl.ctxs 0 4096 = some 0 ∧
    takes 0xA1 modify objects = true ∧ adminZeros (cmd 0xA1 modify) [(8, 10), (16, 28)] = true ∧ fieldLE (cmd 0xA1 modify) 10 1 = 2 ∧
    ctxHeld 0 1 objects = some ctx0 ∧ takes 0xA2 (natLE 2 1) objects = true ∧ ctxBusy 1 objects = false ∧ objects.xl.faults = [] ∧
    takes 0xA3 seg objects = true ∧ adminZeros (cmd 0xA3 seg) [(8, 11), (16, 27)] = true ∧
    (match segStatus 0 (cmd 0xA3 seg) objects with | .ok (c, i, x, _) => c == 1 && i == 1 && x == ctx0 | _ => false) = true ∧
    Tab.get ctx0.segs 1 = none ∧ takes 0xA4 (natLE 2 1) objects = true ∧ adminZeros (cmd 0xA4 (natLE 2 1)) [(8, 10)] = true ∧
    Tab.get ctx0.segs 0 = some ⟨0, 1, 3, 7⟩ ∧ rangeUses 1 0 (2 ^ 26) objects = [] := by decide +kernel

/-- One frame, FRAME_FREE of LFN 4 which nothing names, XLATE_INVALIDATE of a page, advice on a context in mode ADVICE, and a wait that is over. -/
theorem witness_AdminFrames :
    let alloc := natLE 2 1 ++ [0, 0, 0]
    let free := natLE 2 4 ++ natLE 2 1
    let range := natLE 8 1 ++ natLE 8 0 ++ natLE 8 4096
    let d := { objects with xl := { objects.xl with ctxs := [(1, { ctx0 with mode := 2 })] } }
    let one := updStack 0 (fun st => { st with groups := [0, 4, 4, 4, 4, 4, 4, 4] }) objects
    takes 0xA5 alloc one = true ∧ adminZeros (cmd 0xA5 alloc) [(8, 12)] = true ∧ placeOk 0 = true ∧ framesHeld 0 one + 1 ≤ getF .xlateQuota 0 0 31 16 one ∧
    freeLfnRun 1 one.xl.lfns 3 0 = some 0 ∧ (chooseFrames 1 false 0 one).isSome = true ∧
    takes 0xA6 free objects = true ∧ adminZeros (cmd 0xA6 free) [(8, 11)] = true ∧ lfnHeld 4 0 objects = true ∧ framesNamed 4 1 objects = false ∧
    framesNamed 3 1 objects = true ∧ frameUses 4 1 objects = [] ∧ objects.xl.move = none ∧ objects.xl.queued = [] ∧
    takes 0xA7 range objects = true ∧ adminZeros (cmd 0xA7 range) [(8, 9), (16, 31)] = true ∧ rangeUses 1 0 4096 objects = [] ∧
    takes 0xAC range d = true ∧ (match adviceStatus 0 (cmd 0xAC range) true d with | .ok l => l == [3] | _ => false) = true ∧
    takes 0xAB range d = true ∧ (adminOver (.invalidate []) objects).isSome = true := by decide +kernel

/-- A context with a fault ring and a limit, an outstanding fault, and the commands that end it. -/
def faulting : Dev :=
  { objects with xl := { objects.xl with
      ctxs := [(1, { ctx0 with limit := 100 })], rings := [(0, { addr := 0x40000, entries := 64, vector := 1, next := 0 })],
      faults := [(8, { ctx := 1, inst := 0, granule := 2 ^ 26, address := 2 ^ 26, level := 0, kinds := 1, since := 0, die := 0, engines := [], waiters := [], written := false })] } }

theorem witness_TranslationFaults :
    let ring := natLE 8 0 ++ natLE 8 0x40000 ++ natLE 2 64 ++ [1]
    translate 1 64 .read (.brick 0) objects = .frame 3 64 0 (2 ^ 26) 7 true ∧ translate 1 (2 ^ 40) .read (.brick 0) faulting = .notMapped 0 ∧
    faultOn 1 (2 ^ 40) faulting = none ∧ objects.tiers.soft = [] ∧ linkOpen faulting = true ∧ (0 : Nat) + 16 ≤ clock 0 (at_ 16 faulting) ∧
    faultLate { ctx := 1, inst := 0, granule := 0, address := 0, level := 0, kinds := 1, since := 0, die := 0, engines := [], waiters := [], written := false } faulting = false ∧
    faultLate { ctx := 1, inst := 0, granule := 0, address := 0, level := 0, kinds := 1, since := 0, die := 0, engines := [], waiters := [], written := false } (at_ 800 faulting) = true ∧
    takes 0xA9 (natLE 4 8) faulting = true ∧ takes 0xAA (natLE 4 8) faulting = true ∧ adminZeros (cmd 0xA9 (natLE 4 8)) [(8, 11)] = true ∧
    takes 0xA8 ring objects = true ∧ adminZeros (cmd 0xA8 ring) [(16, 26)] = true ∧ 64 ∈ faultRingSizes := by decide +kernel

theorem witness_AdminWorkQueues :
    let create := natLE 2 3 ++ [6, 0, 0, 0, 2, 0] ++ natLE 8 0x50000 ++ natLE 2 1 ++ natLE 2 10 ++ natLE 2 2 ++ natLE 2 0
    let modify := natLE 2 9 ++ [8, 0, 0] ++ List.replicate 17 0 ++ natLE 2 1
    let recover := natLE 2 9 ++ [4]
    takes 0x80 create objects = true ∧ wqLimits (cmd 0x80 create) = true ∧ (match wqNames 0 (cmd 0x80 create) objects with | .ok a => a == 0 | _ => false) = true ∧
    wqsHeld 0 objects < getF .queueQuota 0 0 31 15 objects ∧ objects.q.wqs.length < poolMax 0 65536 objects ∧
    Tab.lowestFree objects.q.wqs 0 65536 = some 0 ∧ takes 0x81 modify objects = true ∧ adminZeros (cmd 0x81 modify) [(8, 35)] = true ∧
    wqHeld 0 9 objects = some wq0 ∧ (match leafStatus 0 1 objects with | .ok _ => true | _ => false) = true ∧
    takes 0x81 recover (queued { wq0 with state := 1 } cr0) = true ∧ bitOf (fieldLE (cmd 0x81 recover) 10 1) 2 = true ∧
    takes 0x83 (natLE 2 9) objects = true ∧ takes 0x82 (natLE 2 9) objects = true ∧ wq0.head = none ∧ wq0.flight = [] := by decide +kernel

theorem witness_AdminRingsAndCounters :
    let create := natLE 2 0 ++ [6, 0, 1, 130] ++ natLE 2 0 ++ natLE 8 0x60000
    let modify := natLE 2 3 ++ [0, 0, 2, 0] ++ natLE 2 4
    let alloc := natLE 2 2 ++ [0]
    let free := natLE 4 65536 ++ natLE 2 1
    let set_ := natLE 4 65536 ++ natLE 4 0 ++ natLE 6 99
    let d := { objects with q := { objects.q with wqs := [] } }
    takes 0x84 create objects = true ∧ adminZeros (cmd 0x84 create) [(10, 27)] = true ∧ addrOk 0 0x60000 4096 (32 * 64) = true ∧
    (match placeRing 0 0 0x60000 2048 0 0 objects with | .ok _ => true | _ => false) = true ∧ crsHeld 0 objects < getF .queueQuota 0 0 14 0 objects ∧
    objects.q.crs.length < poolMax 1 16384 objects ∧ Tab.lowestFree objects.q.crs 0 16384 = some 0 ∧
    takes 0x85 modify objects = true ∧ adminZeros (cmd 0x85 modify) [(8, 9), (12, 12), (14, 15), (26, 27)] = true ∧ crHeld 0 3 objects = some cr0 ∧
    takes 0x86 (natLE 2 3) d = true ∧ d.rem.doms.all (fun p => p.2.ring != 3) = true ∧ feedsQueue 3 1 d = false ∧ d.bricks.ctxs = [] ∧
    takes 0x88 alloc objects = true ∧ adminZeros (cmd 0x88 alloc) [(8, 10), (16, 25)] = true ∧ ctrsHeld 0 objects + 2 ≤ getF .counterQuota 0 0 16 0 objects ∧
    objects.q.ctrs.length + 2 ≤ poolMax 2 65536 objects ∧ freeCtrRun 2 objects.q.ctrs 2 0x10000 = some 65537 ∧
    takes 0x89 free objects = true ∧ freeCtrHeld 0 65536 objects = true ∧ feedsQueue 65536 1 objects = false ∧
    takes 0x8A set_ objects = true ∧ adminZeros (cmd 0x8A set_) [(8, 11), (16, 21)] = true ∧ adminOn 0 admin = true ∧ adminOn 0 base = false := by decide +kernel

theorem witness_AdminDomainsAndRegions :
    let create := natLE 4 7 ++ natLE 3 0 ++ [0] ++ natLE 3 0 ++ [0] ++ natLE 2 0xFFFF ++ natLE 2 3
    let modify := natLE 2 2 ++ [2, 0] ++ List.replicate 10 0 ++ natLE 2 3
    let register := natLE 2 2 ++ natLE 2 1 ++ [3, 0, 0, 0] ++ natLE 8 64 ++ natLE 8 4096
    let d := { objects with rem := { objects.rem with regions := [] }, q := { objects.q with wqs := [] } }
    takes 0x90 create objects = true ∧ adminZeros (cmd 0x90 create) [(8, 14), (16, 18), (20, 23)] = true ∧ targetOk 0 3 objects = true ∧
    domsHeld 0 objects < getF .domainQuota 0 0 12 0 objects ∧ Tab.lowestFree objects.rem.doms 0 4096 = some 0 ∧
    takes 0x91 modify objects = true ∧ adminZeros (cmd 0x91 modify) [(8, 10), (12, 14), (16, 18), (22, 23)] = true ∧ (domHeld 0 2 objects).isSome = true ∧
    takes 0x92 (natLE 2 2) objects = true ∧ domNamed 2 objects = true ∧ domNamed 2 d = false ∧
    takes 0x94 register objects = true ∧ adminZeros (cmd 0x94 register) [(8, 12), (16, 31)] = true ∧ vaOk 64 4096 = true ∧
    (match regPages 1 3 4160 d 2 64 with | .ok _ => true | .error st => st == 3) = true ∧ regionIndex objects = some 1 ∧
    (regionOf 5 objects).isSome = true ∧ regionOf 6 objects = none ∧ takes 0x95 (natLE 4 5) objects = true ∧ takes 0x96 (natLE 4 5) objects = true ∧
    takes 0x97 (natLE 4 5) objects = true ∧ adminZeros (cmd 0x95 (natLE 4 5)) [(8, 11)] = true := by decide +kernel

/-- A communicator of two members, this one of rank 0. -/
def comm0 : Comm :=
  { inst := 0, id := 9, n := 2, rank := 0, members := [77, 78], domain := 2, chunk := 16, lanes := 4, gen := 1, seq := 0, broken := false, win := 65536,
    winAcked := 0, winCut := false, enters := [], nexts := [], coll := none }

theorem witness_AdminCommunicators :
    let create := fun (loc : Nat) => natLE 4 10 ++ natLE 2 2 ++ natLE 2 0 ++ natLE 8 64 ++ natLE 1 loc ++ [16, 4, 0] ++ natLE 2 2 ++ natLE 2 1 ++ natLE 2 1
    let d := { objects with tiers := { objects.tiers with dev := Mem.writeN [] (5 * 2 ^ 26 + 64) (natLE 4 77 ++ natLE 4 78) } }
    let c := { objects with colls := { objects.colls with comms := [(4, comm0)] } }
    takes 0xB0 (create 0) objects = true ∧ (match commStatus 0 (cmd 0xB0 (create 0)) objects with | .ok _ => true | _ => false) = true ∧
    takes 0xB0 (create 1) d = true ∧ (match commStatus 0 (cmd 0xB0 (create 1)) d with | .ok _ => true | _ => false) = true ∧
    (match deviceTable 1 64 8 d with | (e, .ok t) => membersOk (memberNodes t 2) 0 e | _ => false) = true ∧ hostOpen objects = true ∧
    takes 0xB1 (natLE 2 4 ++ natLE 2 2) c = true ∧ commHeld 0 4 c = some comm0 ∧ comm0.coll = none ∧ comm0.busy = false ∧
    takes 0xB2 (natLE 2 4) c = true ∧ commWaiters 4 c = [] ∧ takes 0xB3 (natLE 2 4) c = true := by decide +kernel
/-! ## Optics and ports -/

/-- The device with the laser units of group 0 in two states, and port 0 changed. -/
def lasers (a b : Laser) (d : Dev) : Dev := { d with net := { d.net with lasers := [a, b] ++ d.net.lasers.drop 2 } }
def unit_ (n w : Nat) (r : Option Nat) : Laser := { state := n, present := true, fault := 0, draw := w, rising := r }

/-- Port 0 with its link up, lit by two units that share. -/
def lit0 : Dev := updPort 0 (fun r => { r with align := true }) (lasers (unit_ 3 60 none) (unit_ 3 60 none) base)

/-- Port 0 enabled, in PFC mode for priorities 0 and 3, or with pause for the port. -/
def pfc (d : Dev) : Dev := setW .flowCtrl 0 0 (2 ^ 30 + 9 * 2 ^ 16 + 100) (setW .portCtrl 0 0 (2 ^ 31 + 9216) d)
def portPause (d : Dev) : Dev := setW .flowCtrl 0 0 (2 ^ 31 + 100) (setW .portCtrl 0 0 (2 ^ 31 + 9216) d)

theorem witness_PortLinks :
    let dark := updPort 0 (fun r => { r with align := true, downAt := some 0 }) base
    let down := at_ 80000 (updPort 0 (fun r => { r with downAt := some 0 }) lit0)
    portExists 0 lit0 = true ∧ engineLit 0 lit0 = true ∧ portWhole 0 lit0 = true ∧ lit0.net.unsent = [] ∧ lit0.net.outside = [] ∧
    engineLit 0 dark = false ∧ linkUp 0 lit0 = true ∧ linkUp 0 base = false ∧ (portAt 0 dark).downAt = some 0 ∧
    clock (fdie 0) dark < 0 + 8 * getF .photCtrl 0 0 15 0 dark ∧ 0 + 8 * getF .photCtrl 0 0 15 0 down ≤ clock (fdie 0) down ∧
    linkUp 0 (updPort 0 (fun r => { r with align := false }) down) = false := by decide +kernel

theorem witness_SpareCells :
    let e := Engine.reset
    let none_ : Dev := { base with net := { base.net with engines := List.replicate 8 { e with bad := [16, 17] } } }
    let sub : Dev := { base with net := { base.net with engines := List.replicate 8 { e with sub := some (5, 16, 0) } } }
    (engAt 1 base).sub = none ∧ (engAt 1 base).waits = [] ∧ (engAt 1 base).down.contains 5 = false ∧
    freeSpares { e with bad := e.bad ++ [e.serves.getD 5 5] } = [16, 17] ∧ freeSpares (engAt 1 none_) = [] ∧ (engAt 1 none_).sub = none ∧
    base.net.outside = [] ∧ engAt 1 sub = { engAt 1 base with sub := some (5, 16, 0) } ∧ 1 < sub.net.engines.length ∧
    5 < (engAt 1 base).serves.length := by decide +kernel

theorem witness_LaserUnits :
    base.net.lasers.length = 8 ∧ (laserAt 0 base).present = false ∧ partner 0 = 1 ∧
    (laserAt 0 (lasers (unit_ 1 0 none) (unit_ 4 120 none) base)).state = 1 ∧ lit 1 (lasers (unit_ 1 0 (some 3)) (unit_ 4 120 none) base) = true ∧
    (laserAt 0 (lasers (unit_ 1 0 (some 3)) (unit_ 4 120 none) base)).rising = some 3 ∧
    (laserAt 0 (lasers (unit_ 1 0 (some 4)) Laser.empty base)).rising = some 4 ∧ lit 1 (lasers (unit_ 1 0 (some 4)) Laser.empty base) = false ∧
    (laserAt 0 (lasers (unit_ 5 60 (some 6)) (unit_ 4 60 none) base)).rising = some 6 ∧ (laserAt 0 lit0).present = true ∧ lit 1 lit0 = true ∧
    (laserAt 0 lit0).state = 3 ∧ (laserAt 1 lit0).state = 3 ∧ (laserAt 0 (lasers (unit_ 6 0 none) (unit_ 4 120 none) base)).state = 6 := by decide +kernel

/-- Of two units that share, the drained one keeps its draw and the other is ALONE. -/
theorem test_drain : nextIs (exec (.laserDrain 0) (onDev lit0)) (fun d => (laserAt 0 d).state == 5 && (laserAt 1 d).state == 4 &&
    (laserAt 0 d).draw == 60) = true := by decide +kernel

/-- The group's address of port 0 is 5, and the frame goes to it. -/
def addressed : Dev := setW .ucastHi 0 0 (2 ^ 31) (setW .ucastLo 0 0 5 (pfc lit0))

/-- A Pesyn frame for fabric die 0. -/
def pesynFrame : RxFrame :=
  { frame with dst := 5, ip := some (if bitOf addressed.addr.ctrl 31 then 4 else 6, 0, 0), dstIp := beNat (dieAddr addressed.addr.node 0 addressed),
               udpPort := bitsOf addressed.addr.ctrl 15 0 }

theorem witness_ReceiveBuffers :
    let full := updBuf 0 0 (fun b => { b with frames := List.replicate 1 (2 ^ 24, false) }) addressed
    portExists 0 addressed = true ∧ portExists 2 addressed = false ∧ linkUp 0 addressed = true ∧ bitOf (getW .portCtrl 0 0 addressed) 29 = false ∧
    frame.fcsOk = true ∧ frame.length ≤ min 9216 (getF .portCtrl 0 0 15 0 addressed) ∧ filterPass 0 frame.dst addressed = false ∧
    filterPass 0 5 addressed = true ∧ isPesyn 0 { frame with dst := 5 } addressed = false ∧ isPesyn 0 pesynFrame addressed = true ∧
    policerFor 0 (framePrio 0 pesynFrame addressed) addressed = none ∧ framePrio 0 pesynFrame addressed = 0 ∧
    (bufAt 0 0 addressed).fill + 64 ≤ (bufAt 0 0 addressed).size * 16384 ∧ (bufAt 0 0 full).size * 16384 < (bufAt 0 0 full).fill + 64 ∧
    flowMode 0 addressed = 1 ∧ bitOf (getF .flowCtrl 0 0 23 16 addressed) 0 = true ∧ (bufAt 0 0 addressed).xoff = false ∧ portEnabled 0 addressed = true ∧
    (bufAt 0 0 addressed).fill + 64 < highOf 0 0 addressed ∧ flowMode 0 (portPause lit0) = 2 ∧ (bufAt 0 0 addressed).frames = [] ∧
    (bufAt 0 0 full).frames ≠ [] ∧ bitsOf (10 * 2 ^ 16 + 8 * 2 ^ 8 + 2) 7 0 < bitsOf (10 * 2 ^ 16 + 8 * 2 ^ 8 + 2) 15 8 := by decide +kernel

/-- A frame with a bad FCS is counted and goes nowhere; a Pesyn frame enters its buffer. -/
theorem test_frames : nextIs (exec (.frameReceive 0 { pesynFrame with fcsOk := false }) (onDev addressed))
      (fun d => Tab.getD (portAt 0 d).hw 0 0 == 1 && (bufAt 0 0 d).frames.isEmpty) = true ∧
    nextIs (exec (.frameReceive 0 pesynFrame) (onDev addressed)) (fun d => (bufAt 0 0 d).frames == [(64, false)]) = true := by decide +kernel

theorem witness_PauseAndGuards :
    let held := fun (ig : Bool) (u : Option Nat) => updPort 0 (fun r => { r with pauses := [(3, { until_ := u, since := 0, ignored := ig, lastSeen := 0 })] }) (pfc lit0)
    let late := at_ (2 ^ 20) (held false (some (2 ^ 21)))
    let high := at_ (2 ^ 20) (updBuf 0 3 (fun b => { b with frames := [(2 ^ 20, false)], highAt := some 0, xoff := true, repAt := 5 }) (pfc lit0))
    portExists 0 (pfc lit0) = true ∧ linkUp 0 (pfc lit0) = true ∧ bitOf (getW .portCtrl 0 0 (pfc lit0)) 29 = false ∧ 64 ≤ getF .portCtrl 0 0 15 0 (pfc lit0) ∧
    flowMode 0 (pfc lit0) = 1 ∧ bitOf (getF .flowCtrl 0 0 23 16 (pfc lit0)) 3 = true ∧ flowMode 0 (portPause lit0) = 2 ∧
    Tab.get (portAt 0 (portPause lit0)).pauses 8 = none ∧ 100 ≤ clock (fdie 0) (at_ 100 (held false (some 100))) ∧
    pausedKey 0 3 (held false (some 100)) = true ∧ clock (fdie 0) (held false (some 100)) < 0 + stormTicks 0 (held false (some 100)) ∧
    pausedKey 0 3 late = true ∧ 0 + stormTicks 0 late ≤ clock (fdie 0) late ∧ 0 + 8000 ≤ clock (fdie 0) (at_ 8000 (held true none)) ∧
    (bufAt 0 3 high).highAt = some 0 ∧ (bufAt 0 3 high).guarded = false ∧ 0 + stormTicks 0 high ≤ clock (fdie 0) high ∧
    portSends 0 high = true ∧ keySends 0 3 high = true ∧ keySends 0 3 base = false ∧ lowOf 0 3 high ≤ (bufAt 0 3 high).fill ∧
    (bufAt 0 3 high).repAt ≤ clock (fdie 0) high ∧ clock (fdie 0) (at_ 0 high) < (bufAt 0 3 high).repAt := by decide +kernel

theorem witness_PortStatistics :
    let r := portAt 0 (updPort 0 (fun r => { r with hw := [(0, 63), (4, 2)], ext := [(0, 5)] }) base)
    portExists 0 base = true ∧ Tab.wf r.hw = true ∧ r.ext.all (fun p => decide (p.2 < 2 ^ 64)) = true ∧ Tab.get r.hw 0 = some 63 := by decide +kernel

/-- A frame of a leaf, or of the control lane, as it stands in its port. -/
def waits_ (l : Option Nat) : Frame :=
  { leaf := l, queue := none, inst := none, bytes := 100, body := [], octets := [1, 2],
    pkt := { typ := 4, flags := 0, op := 0, tag := 0, ftag := 0, key := 0, len := 0, off := 0, shift := 0, tf := [], epoch := 0, count := 0, dstNode := 0, die := 0, payload := [], ekey := none, dead := none } }

/-- Leaf 7 under the root, with an enabled shaper, and held since its tokens ran out. -/
def shaped : Dev :=
  { updPort 0 (fun r => { r with data := [waits_ (some 7)], held := [7] }) (pfc lit0) with
    upd := { Update.idle with shape := { Structure_.shipped with leaves := [(7, (0, 0))] } } }

theorem witness_EgressAndShapers :
    let wire := updPort 0 (fun r => { r with wire := some (waits_ none) }) base
    let ctrl := updPort 0 (fun r => { r with control := [waits_ none] }) (pfc lit0)
    let paused := updPort 0 (fun r => { r with pauses := [(0, { until_ := some 100, since := 0, ignored := false, lastSeen := 0 })] }) shaped
    (portAt 0 wire).wire.isSome = true ∧ (linkUp 0 wire && portEnabled 0 wire) = false ∧ bitOf (getW .portCtrl 0 0 wire) 29 = false ∧ wire.net.outside = [] ∧
    (portAt 0 ctrl).wire = none ∧ linkUp 0 ctrl = true ∧ portEnabled 0 ctrl = true ∧ 0 < ctrlTokens 0 ctrl ∧
    prioPaused 0 (getF .pesynMark 0 0 30 28 ctrl) ctrl = false ∧ (portAt 0 shaped).control = [] ∧ (portAt 0 shaped).data = [waits_ (some 7)] ∧
    leafParent 7 shaped = 0 ∧ prioPaused 0 (getF .pesynMark 0 0 27 25 shaped) shaped = false ∧ shaperOpen 0 7 shaped = true ∧ shaperOpen 0 4096 shaped = true ∧
    prioPaused 0 (getF .pesynMark 0 0 27 25 paused) paused = true ∧ 7 ∈ (portAt 0 shaped).held ∧ 7 ∈ backlogged (portAt 0 shaped) shaped ∧
    (rowOf .shaperRate).isSome = true ∧
    ((rowOf .shaperRate).map (fun r => r.write (getW .shaperRate 0 7 shaped) (2 ^ 31 + 50)) ≠ some (getW .shaperRate 0 7 shaped)) := by decide +kernel

theorem witness_PolicerWrites :
    let d := setW .policeMapLo 0 0 (2 ^ 7 + 5) (setW .policerCfg 0 5 (2 ^ 31) base)
    (rowOf (policerReg 1)).isSome = true ∧ (rowOf (policerReg 0)).map (fun r => r.write (getW (policerReg 0) 0 5 d) (2 ^ 31 + 2 ^ 30)) ≠ some (getW (policerReg 0) 0 5 d) ∧
    (rowOf (policerReg 0)).map (fun r => r.write (getW (policerReg 0) 0 5 d) (2 ^ 31)) = some (getW (policerReg 0) 0 5 d) ∧
    policerFor 0 0 d = some 5 ∧ bitOf (getW .policerCfg 0 5 d) 31 = true := by decide +kernel

/-! ## The host link, instances and keys -/

/-- The device with the link changed, or one queue and its ring. -/
def linked (f : Link → Link) : Dev := { base with link := f base.link }

theorem witness_MelelLink :
    let many := linked (fun l => { l with replays := List.replicate 16 0 })
    let train := linked (fun l => { l with retrain := true, firstTry := some 0 })
    base.link.up = true ∧ base.link.retrain = false ∧ 5 % 4096 ≠ base.link.seqNext ∧ 0 % 4096 = base.link.seqNext ∧
    16 ≤ (many.link.replays.filter (fun r => decide (clock iodie many < r + 8000))).length ∧ (linked (fun l => { l with width := 1 })).link.width = 1 ∧
    base.link.width ≠ 1 ∧ (0x0F : Nat) % 16 = 15 ∧ (0x77 : Nat) % 16 ≠ 15 ∧ train.link.retrain = true ∧
    (linked (fun l => { l with trained := false })).link.trained = false ∧ base.link.lost = false ∧ base.xl.faults = [] ∧ base.link.behind = [] ∧
    (queued wq0 cr0).q.wqs.all (fun p => p.2.flight == []) = true ∧ base.upd.pulling = none ∧
    0 + 8000 * max 1 (getF .melelCtrl 0 0 7 0 train) ≤ clock iodie (at_ 8000000 train) ∧ (linked (fun l => { l with lost := true })).link.lost = true := by
  decide +kernel

/-- A host read of the admin entry 0 of instance 0, and a DMA whose flush read is out. -/
def reading : Dev :=
  { updAdmin 0 (fun a => { a with reading := true }) (linked (fun l => { l with
      reads := [(7, { fn := 0xFF, addr := 0, len := 64, why := .adminEntry 0 0, since := 0 })],
      dmas := [(2, { q := 9, idx := 0, toDev := false, inst := 0, ctx := 1, host := 0, frags := [], len := 64, left := [], landed := 64, flush := true })],
      flushes := [(8, (9, 0, 0))] })) with bricks := base.bricks }

/-- Host reads, a flush, and the aperture of instance 0, shut and over LFN 3. -/
theorem witness_HostTransfers :
    let ap := setW .memwinCtrl 0 0 (2 ^ 31 + 1) objects
    (Tab.get reading.link.reads 7).isSome = true ∧ (adminAt 0 reading).reading = true ∧ (adminAt 0 reading).c = 0 ∧ reading.link.retrain = false ∧
    bitOf ((List.replicate 63 (0 : Byte) ++ [0x80]).getD 63 0).toNat 7 = true ∧ 0 + 80000 ≤ clock iodie (at_ 80000 reading) ∧
    Tab.get reading.link.flushes 8 = some (9, 0, 0) ∧ (dmaAt 9 0 reading).map (fun p => (p.1, p.2.flush)) = some (2, true) ∧
    hostOpen base = true ∧ (apertureMap 0 0 4 .read base).2 = none ∧
    (apertureMap 0 64 4 .write ap).2 = some [(5 * 2 ^ 26 + 64, 4)] ∧ (apertureMap 0 64 4 .read ap).2.isSome = true ∧ badWords [(5 * 2 ^ 26 + 64, 4)] ap = [] ∧
    frameLost 5 ap = false ∧ hostOpen ap = true := by decide +kernel

theorem witness_InstanceLife :
    let d := fun (n : Nat) => { base with insts := [(0, { instAt 0 base with state := n })] }
    base.start.ready = true ∧ (instAt 0 base).state = 1 ∧ base.bricks.launches = [] ∧ base.pes.all (fun p => p.msgs == [] && p.slots == []) = true ∧
    base.colls.comms = [] ∧ base.link.dmas = [] ∧ base.xl.move = none ∧ base.xl.queued = [] ∧ (instAt 0 (d 2)).state = 2 ∧ oldTokens 0 (d 2) = false ∧
    getF .instCtrl 0 0 30 30 (setW .instCtrl 0 0 0 (d 2)) = 0 ∧ (instAt 0 (d 3)).state = 3 ∧ (instAt 0 (d 3)).shareDue = false ∧ (adminAt 0 (d 3)).notices = [] ∧
    (d 3).upd.heldTo = none ∧ adminOn 0 (d 3) = false ∧ adminOn 0 admin = true ∧ 0 < adminFree 0 admin ∧ (instAt 0 admin).lastGen < 65536 ∧ linkOpen (d 3) = true ∧
    configured 0 base = true ∧ shareSum 0 8 0 base + bitsOf 100 8 0 ≤ 256 ∧ shareSum 0 24 16 base + bitsOf 100 24 16 ≤ 256 ∧
    256 < shareSum 0 8 0 base + bitsOf 300 8 0 := by decide +kernel

/-- An instance reset raises the generation; RELEASE of an instance that resets does nothing. -/
theorem test_instance_reset : nextIs (exec (.instanceReset 0) (onDev base)) (fun d => (instAt 0 d).gen == 8 && (instAt 0 d).state == 2) = true := by
  decide +kernel

/-- The device with the MC at endpoint 9. -/
def managed (f : Mc → Mc) : Dev := { base with mc := f { Mc.off with up := true, eid := 9 } }

theorem witness_KeyStore :
    let runs := fun (c k : Nat) => { base with keys := { base.keys with running := some (c, k, List.replicate 10 0) } }
    base.keys.running = none ∧ (runs 1 20).keys.running.isSome = true ∧ Flash.factory.wrapKey = none ∧
    slotOne (onDev base) = none ∧
    slotOne { (onDev (managed (fun m => { m with secret := some 3 }))) with flash := { Flash.factory with wrapKey := some ⟨3, 9⟩ } } = some 9 ∧ base.rem.doms.all (fun p => p.2.slot != 20) = true ∧
    ({ base with rem := { base.rem with doms := [(2, { inst := 0, tag := 1, nmatch := 0, nmask := 0, slot := 20, ring := 0xFFFF })] } } : Dev).rem.doms.any
      (fun p => p.2.slot == 20) = true ∧ (bitsOf (2 ^ 29) 29 29, bitsOf (2 ^ 29) 21 16) ≠ (getF .keySlot 20 0 29 29 base, getF .keySlot 20 0 21 16 base) := by
  decide +kernel

/-- Without a wrapping key LOAD_WRAPPED ends with RESULT 5. -/
theorem test_no_wrapping_key :
    nextIs (exec .keyLoadDone (onDev { base with keys := { base.keys with running := some (1, 20, List.replicate 10 0) } }))
      (fun d => getF .keyLoadStatus 0 0 7 0 d == 5 && d.keys.keys.isEmpty) = true := by decide +kernel

/-! ## Management -/

/-- A session, a request inside it, and requests of MCTP control and SPDM. -/
def sess (fin auth : Bool) : Session :=
  { id := 4, mutAsked := true, chain := none, chainOk := false, finished := fin, authorised := auth, last := 0, keyEpoch := 0 }
def inSess : MReq := { req with sess := some 4, typ := 6 }
def ctl : MReq := { req with typ := 0 }
def spdm_ : MReq := { req with typ := 5 }
def agreed : Mc → Mc := fun m => { m with version := 0x12, negotiated := true, sessions := [sess true true] }

theorem witness_ManagementCommands : heard 0 ctl (managed id) = true ∧ heard 1 req (managed id) = true ∧ heard 0 ctl base = false ∧
    req.formed = true ∧ ({ req with formed := false } : MReq).formed = false ∧ (managed (fun m => { m with secret := some 3 })).mc.secret = some 3 ∧
    heard 1 { req with addr := 0x61 } (managed id) = false ∧
    ((sessionOf req (managed id)).map Session.finished).getD true = true ∧ req.held < 4 ∧ 4 ≤ ({ req with held := 4 } : MReq).held ∧
    heard 1 inSess (managed agreed) = true ∧ ((sessionOf inSess (managed agreed)).map Session.finished).getD true = true ∧
    authorised inSess (managed agreed) = true ∧ authorised req (managed agreed) = false ∧ (managed agreed).mc.clearing = false ∧
    (managed (fun m => { m with clearing := true })).mc.clearing = true ∧ (pldmCommands 2).isSome = true := by decide +kernel

/-- SET_ENDPOINT_ID of 9 is taken, and one of 7 is not. -/
theorem test_endpoint : nextIs (exec (.setEndpointId ctl 9) (onDev (managed id))) (fun d => d.mc.eid == 9) = true ∧
    nextIs (exec (.setEndpointId ctl 7) (onDev (managed id))) (fun d => d.mc.eid == 9 && d.reply == .mctp 2 []) = true := by decide +kernel

/-- A record for the log. -/
def rec0 : LogRec := { boot := 1, source := 11, cls := 3, area := 0x0A, event := 3, data := [] }

theorem witness_SensorsAndLog :
    let ev : MgmtEvent := { sensor := some 5, cross := 1, seq := 0, dest := 8, tries := 1, sent := 0 }
    let hot := managed (fun m => { m with receiver := some 8, sensors := [(5, 470)], fatalSince := [(5, 0)] })
    (managed id).mc.up = true ∧ hot.mc.receiver = some 8 ∧ Tab.getD hot.mc.zones 5 0 = 0 ∧ zoneOf 5 405 = 1 ∧
    (managed (fun m => { m with events := [ev] })).mc.events[0]? = some ev ∧ ev.sent + 800000 ≤ clock iodie (at_ 800000 hot) ∧ ev.tries < 3 ∧
    3 ≤ ({ ev with tries := 3 } : MgmtEvent).tries ∧ Tab.get hot.mc.fatalSince 5 = some 0 ∧ hot.pwr.thermtrip = false ∧
    0 + 8000 ≤ clock iodie (at_ 8000 hot) ∧ clock iodie hot < 0 + 8000 ∧ hot.mc.buffer.length < 256 ∧ hot.mc.next + hot.mc.buffer.length < 65536 ∧
    (managed (fun m => { m with buffer := [rec0] })).mc.buffer = rec0 :: [] ∧ (managed (fun m => { m with clearing := true })).mc.clearing = true ∧
    getF .logCursor 0 0 31 31 base = 0 := by decide +kernel

/-- A sample of 421 of a brick sensor is in the second zone. -/
theorem test_sensor : nextIs (exec (.sensorSample 5 421) (onDev (managed id))) (fun d => Tab.get d.mc.zones 5 == some (zoneOf 5 421) && zoneOf 5 421 == 3) = true := by
  decide +kernel

theorem witness_SpdmSessions :
    let open_ := managed (fun m => { m with version := 0x12, negotiated := true, secret := some 3, sessions := [sess false false] })
    let full := managed (fun m => { m with version := 0x12, negotiated := true, sessions := [sess true true, sess false false] })
    heard 5 spdm_ open_ = true ∧ heard 5 inSess open_ = true ∧ open_.mc.version ≠ 0x10 ∧ open_.mc.secret = some 3 ∧ open_.mc.version ≠ 0 ∧ (managed id).mc.version = 0 ∧ open_.mc.negotiated = true ∧
    (managed id).mc.negotiated = false ∧ open_.mc.identityFail = 0 ∧ (managed (fun m => { agreed m with identityFail := 1 })).mc.identityFail ≠ 0 ∧
    open_.mc.sessions.length < 2 ∧ 2 ≤ full.mc.sessions.length ∧ open_.mc.sessions.find? (fun x => x.id == 4) = some (sess false false) ∧
    (touch inSess (managed agreed)).mc.sessions.find? (fun x => x.id == 4) = some (sess true true) ∧ inSess.sess = some 4 ∧ spdm_.sess = none ∧
    (sess false false).last + 160000000 ≤ clock iodie (at_ 160000000 open_) ∧ clock iodie open_ < (sess false false).last + 160000000 := by decide +kernel

/-! ## Update, resets, start-up -/

/-- The update of the platform under lease 3. -/
def upd0 (f : Update → Update) : State := onDev { managed agreed with upd := f { Update.idle with holder := 1, lease := 3, state := 1 } }
def powered (d : Dev) : Dev := updRail 10 (fun r => { r with grants := [⟨.iodCipher, 20, none⟩, ⟨.imageCheck, 4, none⟩] }) d

/-- An image of a header alone, each of its seven sections of length 0, and the header of a FULL package for it. -/
def front : List Byte :=
  [0x54, 0x48, 0x49, 0x42] ++ natLE 2 1 ++ natLE 2 0x768 ++ [0xB0, 0, 0, 0] ++ natLE 4 0x01000001 ++ natLE 4 4096 ++ natLE 2 1 ++ natLE 2 0 ++
  natLE 4 0x01000000 ++ natLE 4 7 ++
  (List.range 7).flatMap (fun k => natLE 2 (k + 1) ++ natLE 2 0 ++ natLE 4 4096 ++ natLE 4 0 ++ natLE 4 0 ++ digestBytes 0xe3b0c44298fc1c149afbf4c8996fb92427ae41e4649b934ca495991b7852b855) ++
  List.replicate 3728 0
def pkgPre : List Byte :=
  [0x54, 0x50, 0x4B, 0x47] ++ natLE 2 1 ++ [1, 0] ++ natLE 4 4096 ++ natLE 4 1 ++ natLE 4 0x01000001 ++ List.replicate 32 0
def pkgHeader : List Byte := pkgPre ++ (digestBytes (sha256 front) ++ List.replicate 172 0)

theorem verifyCode_zero {mgmt : Bool} {sign : BitVec 256} {signer : Option (BitVec 256)} {h l : List Byte}
    (hi : imageCode mgmt sign signer (some l) = 0) (hd : (h.drop 52).take 32 = digestBytes (sha256 l)) (hv : fieldLE l 12 4 = fieldLE h 16 4) :
    verifyCode mgmt sign signer h (some l) = 0 := by simp [verifyCode, hi, hd, hv]

/-- Its unit opens as it was sealed. -/
theorem witness_unit_opens : openUnits 0 [] 0 [sealUnit 0 0 1 0 front] = some front := by
  have hl : front.length = 4096 := by decide +kernel
  exact openUnits_one (openUnit_sealUnit (by decide +kernel) (by rw [hl]; decide +kernel) (by rw [hl]; decide +kernel) (by rw [hl]; decide +kernel)
    (by rw [hl]; decide +kernel))

/-- The image passes every check of R458 under the key that signed it; one that does not read back fails. -/
theorem witness_verified_image : verifyCode false 0 (some 0) pkgHeader (some front) = 0 ∧ verifyCode false 0 (some 0) pkgHeader none = 6 := by
  have hd : (pkgHeader.drop 52).take 32 = digestBytes (sha256 front) := by
    rw [pkgHeader, List.drop_left' (by decide +kernel), List.take_left' (by simp [digestBytes, natBE_length])]
  exact ⟨verifyCode_zero (by decide +kernel) hd (by decide +kernel), by rfl⟩

/-- An image signed under another key fails with AUTH_FAIL. -/
theorem test_signature : imageCode false 0 (some 1) (some front) = 7 := by decide +kernel

theorem witness_UpdateStaging :
    let src := UpdSrc.platform inSess
    let s := upd0 id
    let st := { Staging.start 0 with bytes := 100, buf := List.replicate 100 0 }
    let whole := { Staging.start 0 with bytes := 5000, header := some pkgHeader, segs := 1, outLen := 4096, done := 1 }
    let w := upd0 (fun u => { u with state := 2, staging := some st })
    leaseOver s.dev = false ∧ (match src with | .platform r => r.held < 4 ∧ authorised r s.dev = true | .manager => True) ∧ s.dev.upd.holder = holderOf src ∧
    (upd0 (fun u => { u with holder := 0, state := 0 })).dev.upd.holder = 0 ∧ (upd0 (fun u => { u with state := 5 })).dev.upd.state = 5 ∧
    leaseOver (at_ 480000000 s.dev) = true ∧ s.dev.upd.staging = none ∧ w.dev.upd.staging = some st ∧ w.dev.upd.pulling = none ∧
    holdsGrant .iodCipher w.dev = false ∧ holdsGrant .iodCipher (powered w.dev) = true ∧
    (match feedAll (worksOf w) 70 { st with bytes := 110, buf := List.replicate 110 0 } with | .ok _ => true | .error _ => false) = true ∧
    (match feedAll (worksOf w) 70 { st with bytes := 356, buf := List.replicate 356 0 } with | .error e => decide (e.status = 6) | .ok _ => false) = true ∧
    (match feedAll (worksOf w) 70 whole with | .ok u => u.whole && u.fresh.isEmpty && !(u.header.any (fun h => h.getD 6 0 == 2)) | .error _ => false) = true ∧
    (match feedAll (worksOf w) 70 st with | .ok u => !u.whole && !(u.header.any (fun h => h.getD 6 0 == 2)) | .error _ => false) = true ∧
    verifyPowered w.dev = false ∧ verifyPowered (powered w.dev) = true ∧ s.flash.banks.length = 2 ∧ s.flash.active < 2 ∧
    (upd0 (fun u => { u with holder := 2 })).dev.upd.holder = holderOf .manager ∧ s.dev.start.ready = true ∧ linkOpen s.dev = true ∧
    0 < getF .updateSrcLen 0 0 27 0 (setW .updateSrcLen 0 0 8192 s.dev) ∧ getF .updateSrcLen 0 0 27 0 s.dev = 0 := by decide +kernel

/-- LEASE_TAKE by a second source answers LEASE_HELD. -/
theorem test_lease_held : (match exec (.leaseTake .manager) (upd0 id) with | .next t => t.dev.upd.result == some 0x11 && t.dev.upd.holder == 1 | _ => false) = true := by
  decide +kernel

/-- A small structure of one instance. -/
def small : Structure_ := { Structure_.shipped with allocs := [(0, [0])], leaves := [], nodes := [(1, 0)], insts := [(0, (1, 0))] }

/-- The same with a VERIFIED bank B that may take over from bank A. -/
def small_ : Image := { Image.shipped with contents := { Image.shipped.contents with shape := small } }
def verified (f : Update → Update) : State :=
  let s := upd0 (fun u => f { u with state := 4 })
  { s with flash := { s.flash with banks := [⟨1, [], some small_, []⟩, ⟨3, [], some { small_ with version := 0x01000001 }, []⟩] } }

theorem witness_UpdateActivation :
    let s := verified id
    let ok : ArmFindings := { converted := none, failedAt := 0 }
    let old := (small, Costs.shipped, 0)
    let other : Bank := ⟨3, [], some small_, storeBytes 2 []⟩
    let t := { s with flash := { s.flash with banks := [⟨1, [], some small_, []⟩, other] } }
    mayArm s = true ∧ s.dev.upd.mgmtStaged = false ∧ handoverOk s = true ∧ handoverOk (upd0 id) = false ∧ mayArm (upd0 id) = false ∧
    s.flash.actCount < countFrom (.platform inSess) 7 s.dev ∧ countFrom (.platform inSess) 0 s.dev ≤ s.flash.actCount ∧
    (verified (fun u => { u with mgmtStaged := true })).dev.upd.mgmtStaged = true ∧
    (verified (fun u => { u with state := 6, armCount := 7 })).dev.upd.armCount = countFrom (.platform inSess) 7 s.dev ∧
    (verified (fun u => { u with state := 5 })).dev.upd.state = 5 ∧ verifyPowered (powered s.dev) = true ∧ verifyPowered s.dev = false ∧
    (match armSettings ok small_ s with | .ok l => decide (l = storeBytes 1 []) | .error _ => false) = true ∧
    (match armSettings ok small_ t with | .ok _ => false | .error k => decide (k = 0)) = true ∧
    (newImage s).isSome = true ∧ s.flash.banks.length = 2 ∧ s.flash.active < 2 ∧ s.dev.upd.cores.length = 18 ∧
    (verified (fun u => { u with state := 7, mode := 1, actStep := 3 })).dev.upd.actStep = 3 ∧
    (verified (fun u => { u with state := 8, newStore := some [1] })).dev.upd.newStore = some [1] ∧
    s.flash.stores.length = 2 ∧ s.flash.selectors.length = 2 ∧ (selector s.flash).valid = true ∧ (selector s.flash).seq + 1 < 2 ^ 32 ∧
    (putStore (otherStore s.flash) [1] s.flash).stores[otherStore s.flash]? = some [1] ∧
    (verified (fun u => { u with state := 9, oldShape := some old, pairs := 1 })).dev.upd.oldShape = some old ∧ 2 ≤ (18 : Nat) ∧
    shapeFits small s.dev = true ∧ shapeFits { small with pools := [0, 0, 0, 0, 0], quotas := [] } { s.dev with q := objects.q } = false ∧
    (List.range 64).all (fun n => !configured n s.dev || (Tab.has small.insts n && !outOfShape small n s.dev)) = true := by decide +kernel

/-- A commit in its second event leaves the old selector in force, and in its third names bank B. -/
theorem test_commit : (match exec .commit (verified (fun u => { u with state := 8, newStore := some [1], commitStep := 1 })) with
      | .next t => decide (t.flash.active = 0 ∧ t.dev.upd.commitStep = 2) && !(selectorAt 1 t.flash).valid
      | _ => false) = true ∧
    (writeSelector 1 1 Flash.factory).active = 1 := by decide +kernel

theorem witness_ModuleResets :
    let off := { base with mc := { base.mc with offReason := 2 } }
    let volts := { base with pwr := { base.pwr with stageOpen := true, under58Since := some 0 } }
    let live := { base with pwr := { base.pwr with standby := true } }
    base.mc.up = true ∧ base.mc.buffer.length < 256 ∧ base.mc.clearing = false ∧ base.mc.next + base.mc.buffer.length < 65536 ∧ base.pwr.stageOpen = false ∧
    volts.pwr.under58Since = some 0 ∧ 0 + 80000 ≤ clock iodie (at_ 80000 volts) ∧ base.start.ready = true ∧ linkOpen base = true ∧
    heard 1 req (managed id) = true ∧ base.mc.resetReq = none ∧ base.pwr.thermtrip = false ∧ base.mc.identityFail = 0 ∧
    ({ base.mc with resetReq := some 1 } : Mc).resetReq.isSome = true ∧ off.mc.offReason = 2 ∧ off.mc.offAt + 16000000 ≤ clock iodie (at_ 16000000 off) ∧
    clock iodie off < off.mc.offAt + 16000000 ∧ live.pwr.standby = true ∧ ({ base.pwr with standby := false } : Power).standby = false := by decide +kernel

theorem witness_StartUp :
    let live := at_ 80000 { base with pwr := { base.pwr with standby := true, inRangeSince := some 0 }, start := Startup.reset, mc := { base.mc with secret := some 0 } }
    let good : BankFindings := { damaged := [], signer := some 0 }
    let bad : BankFindings := { damaged := [0], signer := none }
    let f : StartFindings :=
      { banks := [good, bad], converted := none, recordOk := true, bricks := [], spares := [], cells := [], lanes := [], channels := [],
        sites := [], lasers := [], melel := 255, pinHigh := true }
    let two : Flash := { Flash.factory with banks := [⟨1, [], some Image.shipped, []⟩, ⟨3, [], some Image.shipped, []⟩] }
    live.pwr.standby = true ∧ live.upd.oldShape = none ∧ Dev.reset.pwr.standby = true ∧ mayStart base = false ∧ mayStart live = true ∧ f.pinHigh = true ∧
    Flash.factory.banks.length = 2 ∧ Flash.factory.active < 2 ∧ bankLoads 0 f (onDev live) = true ∧
    bankLoads 0 { f with banks := [bad, good] } (onDev live) = false ∧ mayTry 1 Flash.factory = false ∧ mayTry 1 two = true ∧
    bankLoads 1 { f with banks := [bad, good] } { onDev live with flash := two } = true ∧ two.selectors.length = 2 ∧ (selector two).seq + 1 < 2 ^ 32 ∧
    (copyAt 0 Flash.factory).state = 1 ∧ (copyAt 1 Flash.factory).state ≠ 1 ∧ ([true, false] : List Bool).getD 0 false = true ∧
    Flash.factory.chain.any (fun c => c.device == some 0) = true ∧
    ({ Startup.reset with begun := some 0, step := 8, inserted := [(2, 64, true)] } : Startup).begun = some 0 ∧ (siteAt 2 base).state = 0 := by decide +kernel

/-- The key-wrap vector of RFC 3394, section 4.6, unwraps to its key data. -/
def kek : BitVec 256 := 0x000102030405060708090A0B0C0D0E0F101112131415161718191A1B1C1D1E1F
def wrapped : List Byte := natBE 40 0x28C9F404C4B810F4CBCCB35CFB87F8263F5786E2D80ED326CBC7F0E71A99F43BFB988B9B7A02DD21
set_option maxRecDepth 1000000 in
theorem test_unwrap : keyUnwrap kek wrapped = some 0x00112233445566778899AABBCCDDEEFF000102030405060708090A0B0C0D0E0F ∧
    keyUnwrap kek [] = none := by decide +kernel

/-! ## Heads, messages and collectives -/

/-- The objects of instance 0 with a head at queue 8 that holds its slot or takes it, the rings, a port that is up on die 0, and a communicator. -/
def head_ (slot : Bool) (l : List Byte) : Head :=
  { idx := 0, bytes := l ++ List.replicate (63 - l.length) 0 ++ [0x80], tile := none, bad := none, slot := if slot then some 0 else none, since := 0,
    seqs := [40, 41], table := [], judged := slot, chans := [] }

def headed (w : WQ) (l : List Byte) : Dev :=
  let d := setW .instShare 0 0 (2 ^ 24 + 256) (setW .boundDevice 0 0 100000 (setW .egressCtrl 0 0 1 (pfc objects)))
  { d with
    q := { d.q with wqs := [(8, { w with head := some (head_ true l) })], crs := [(3, { cr0 with held := 1 })] }
    net := lit0.net
    colls := { d.colls with comms := [(4, comm0)] } }

/-- A head that holds its slot and is judged again. -/
def judged (w : WQ) (l : List Byte) : Bool :=
  let d := headed w l
  let h := head_ true l
  let v := { w with head := some h }
  !activating d && !pairBusy (queuePair 8) d && instActive w.inst d && slottedHead 8 d == some (v, h) && !headCtxGone v h d &&
  !rechecked 8 h d && overBound 8 v h d == none && !tooBig v h d && d.pes.length == 2 &&
  ((wqAt 8 d).bind WQ.head).map Head.opcode == some h.opcode

theorem judged_spec {w : WQ} {l : List Byte} (h : judged w l = true) (hs : w.state = 0) :
    Safety.Judged 8 { w with head := some (head_ true l) } (head_ true l) (onDev (headed w l)) (headed w l) := by
  simp only [judged, Bool.and_eq_true, Bool.not_eq_true', beq_iff_eq] at h
  obtain ⟨⟨⟨⟨⟨⟨⟨⟨⟨h1, h2⟩, h3⟩, h4⟩, h5⟩, h6⟩, h7⟩, h8⟩, h9⟩, h10⟩ := h
  have h0 : takeSlot 8 (onDev (headed w l)).dev = headed w l := takeSlot_held h4
  refine ⟨h10, { w with head := some (head_ true l) }, head_ true l, ?_⟩
  rw [h0]
  refine ⟨h4, hs, h3, rfl, h1, h2, fun _ => h5, ⟨(head_ true l).table, ?_⟩, h4, h7, h8, h9⟩
  rw [h6]
  exact ⟨rfl, rfl⟩

/-- A LAUNCH of brick 0, a WRITE of 64 bytes and one of 131,072, a READ, a BARRIER. -/
def launchL : List Byte := [0x40, 0] ++ natLE 2 0 ++ natLE 2 1 ++ [0, 0] ++ natLE 8 4096 ++ natLE 8 0 ++ natLE 8 0 ++ natLE 4 1000 ++ natLE 2 1 ++ natLE 2 0xFFFF
def remoteL (op n : Nat) : List Byte := natLE 1 op ++ [0, 0, 0] ++ natLE 4 n ++ natLE 8 64 ++ natLE 8 0 ++ natLE 4 5 ++ natLE 4 78
def barrierL : List Byte := [0x26, 0] ++ natLE 2 4

theorem witness_LocalDescriptorsAndExpiry :
    let fresh := fun (l : List Byte) => { headed wq0 l with q := { (headed wq0 l).q with wqs := [(8, { wq0 with head := some (head_ false l) })], crs := [(3, cr0)] } }
    let nop := fresh [0]
    let wait := fresh ([1, 0, 0, 0, 0, 0, 0, 0] ++ natLE 4 65536 ++ natLE 4 0 ++ natLE 6 9)
    let x : Desc := { idx := 0, op := 0x10, bytes := [], tile := none, expiry := 100, devUs := 10, since := 0, gen := 7, dUs := 5, count := none,
                      toHost := false, table := [], pins := [], chans := [], spoilt := false, era := 0, done := none }
    let flying := { objects with q := { objects.q with wqs := [(8, { wq0 with flight := [x] })] } }
    (wqAt 8 nop).isSome = true ∧ crAt 3 nop = some cr0 ∧ instActive 0 nop = true ∧ activating nop = false ∧
    earlierWaiters 8 { wq0 with head := some (head_ false [0]) } (head_ false [0]) nop < freeSlots cr0 ∧ nop.link.behind = [] ∧ nop.bricks.ends = [] ∧
    (match (headStatus 8 { wq0 with head := some (head_ false [0]) } (head_ false [0]) (takeSlot 8 nop)).2 with | .ok l => l == [] | _ => false) = true ∧
    reached 65536 5 wait = true ∧ reached 65536 9 wait = false ∧ linkOpen nop = true ∧ 0 + 8 * cr0.modUs ≤ clock iodie nop ∧ cr0.vector ≠ 0xFF ∧
    collOf 8 0 flying = none ∧ clock (x.die 8) flying < x.expiry ∧ x.expiry ≤ clock (x.die 8) (at_ 100 flying) := by decide +kernel

theorem witness_LaunchAdmission : judged wq0 launchL = true ∧ (head_ true launchL).opcode = 0x40 ∧
    commonOk 8 { wq0 with head := some (head_ true launchL) } (head_ true launchL) (headed wq0 launchL) = true ∧
    slotsHeld 0 (headed wq0 launchL) + 1 ≤ slotsMost 0 (headed wq0 launchL) ∧
    launchBricks wq0 (head_ true launchL).bytes (headed wq0 launchL) = [0] := by decide +kernel

theorem witness_RemoteAdmission :
    let ok := fun (op n : Nat) => judged wq0 (remoteL op n) && commonOk 8 { wq0 with head := some (head_ true (remoteL op n)) } (head_ true (remoteL op n)) (headed wq0 (remoteL op n)) &&
      (currentFor 8 (remoteUnits 8 wq0 (headed wq0 (remoteL op n))) (remoteTouched 8 wq0 (head_ true (remoteL op n)) (headed wq0 (remoteL op n))) (headed wq0 (remoteL op n))).2 && (remoteAsk wq0 (head_ true (remoteL op n))).len == n &&
      !(remoteAsk wq0 (head_ true (remoteL op n))).fence && outstanding 8 (headed wq0 (remoteL op n)) == 0
    ok 0x10 64 = true ∧ ok 0x11 64 = true ∧ ok 0x12 64 = true ∧ readSlotFree 0 (headed wq0 (remoteL 0x12 64)) = true ∧
    judged wq0 (remoteL 0x10 131072) = true ∧ headMsg 8 (head_ true (remoteL 0x10 131072)) (headed wq0 (remoteL 0x10 131072)) = none := by decide +kernel

theorem witness_CollectiveAdmission :
    let h := head_ true barrierL
    let w := { wq0 with head := some h }
    let d := (headStatus 8 w h (headed wq0 barrierL)).1
    rechecked 8 h (headed wq0 barrierL) = true ∧ (match (headStatus 8 w h (headed wq0 barrierL)).2 with | .ok _ => true | _ => false) = true ∧
    overBound 8 w h d = none ∧ tooBig w h d = false ∧ d.pes.length = 2 ∧ pairBusy (queuePair 8) d = false ∧
    slottedHead 8 d = some (w, h) ∧ headCtxGone w h d = false ∧ (headColl 8 w h d).isSome = true ∧ firstOfComm 8 h d = true ∧ comm0.coll = none ∧
    (match headColl 8 w h d with
     | some (_, x, k) => !(allEntered x k) && allEntered { x with enters := [(1, k.sig)] } k && (collUnits 4 x k d).any (fun us => (currentFor 8 us (touched k.ctx ((k.spans x).1 ++ (k.spans x).2) (.coll 0 0) d) d).2) && decide (k.op = 0x26)
     | none => false) = true ∧ (freeSeqr (homeDie 4) d).isSome = true ∧ commonOk 8 w h d = true := by decide +kernel

/-! ## Pesyn -/

/-- A packet from node 78, sequence 5, to region key 5, with bytes of its own type, and the flags byte. -/
def hdr (typ op key len : Nat) (tf : List Byte) : List Byte :=
  [1] ++ natLE 1 typ ++ [0] ++ natLE 1 op ++ (natLE 8 (mkTag 78 5)).reverse ++ (natLE 4 1).reverse ++ (natLE 4 key).reverse ++ (natLE 4 len).reverse ++
  List.replicate 5 0 ++ [12] ++ [0, 0] ++ tf ++ List.replicate (32 - tf.length) 0
def rx (typ op key len : Nat) (tf payload : List Byte) : RxPkt :=
  { die := 0, srcNode := 78, srcDie := 0, hdr := hdr typ op key len tf, payload := payload, ce := false, buf := none }

/-- A DATA packet of a write of 16 bytes, a REQUEST of 131,072, a CANCEL. -/
def dataP : RxPkt := rx 1 0x10 5 16 (natLE 4 0 ++ (natLE 2 16).reverse) (List.replicate 16 0xAB)
def requestP : RxPkt := rx 2 0x10 5 4096 [] []
def readP : RxPkt := rx 2 0x12 5 64 (natLE 4 0 ++ []) []
def cancelP : RxPkt := rx 8 0x10 5 16 [] []

theorem witness_PesynTarget :
    let d := { objects with addr := { objects.addr with node := 77 } }
    let p := parse dataP
    let sl := freshSlot p 0 0 100 none none none
    let inSlot := updPes 0 (fun x => { x with slots := [(p.tag, sl)], grants := [p.tag] }) d
    malformed dataP true = false ∧ malformed requestP true = false ∧ malformed readP true = false ∧ malformed cancelP true = false ∧ nodeValid d.addr.node = true ∧
    p.typ = 1 ∧ p.off32 = 0 ∧ p.payload.length = p.len ∧ p.enc = false ∧ (parse requestP).op = 0x10 ∧ (parse readP).op = 0x12 ∧
    Tab.get (pesAt 0 d).filter p.tag = none ∧ slotAt 0 p.tag d = none ∧ filterFull 0 d = false ∧ slotFree 0 d = true ∧
    (match checkRegion p 1 0 p.len d with | .ok r => (writePieces (regionPieces r p.off p.len d) p.payload d).2 | _ => false) = true ∧
    (match checkRegion { p with key := 99 } 1 0 p.len d with | .error st => st == 2 | _ => false) = true ∧
    (match checkRegion (parse requestP) 1 0 (parse requestP).len d with | .ok _ => true | _ => false) = true ∧
    (match checkRegion (parse readP) 0 0 (parse readP).len d with | .ok _ => true | _ => false) = true ∧
    slotAt 0 p.tag inSlot = some sl ∧ sl.shift = p.shift ∧ sl.read = none ∧ slotCipher sl inSlot = 0xFFFF ∧ p.ftag = sl.ftag ∧
    (nextChunk 0 sl inSlot).2 ≠ 0 ∧ sl.halted 0 inSlot = false ∧ owed 0 inSlot + (nextChunk 0 sl inSlot).2 ≤ effBudget 0 inSlot ∧
    ({ sl with at0 := some 0 } : Slot).at0 = some 0 ∧ 0 + 3 * sl.res ≤ clock (fdie 0) (at_ 1000 inSlot) ∧
    sl.last + 8 * max 1 (getF .pesynTimers2 0 0 15 0 inSlot) ≤ clock (fdie 0) (at_ 100000 inSlot) ∧ sl.count < sl.len ∧
    (missingRun { sl with grantOff := 0, grantLen := 16 } 16).isSome = true := by decide +kernel

/-- A DATA packet that holds a whole write changes its region and its tag enters the filter. -/
theorem test_data : nextIs (exec (.data dataP) (onDev objects)) (fun d => Mem.readN d.tiers.dev (5 * 2 ^ 26) 17 == List.replicate 16 0xAB ++ [0] &&
    (Tab.get (pesAt 0 d).filter (mkTag 78 5)).isSome) = true := by decide +kernel

/-- A message of queue 8 to node 78, and a READ. -/
def msg0 (op : Nat) : Msg :=
  { owner := .desc 8 0, inst := 0, gen := 7, ctx := 1, leaf := 0, typ := 1, op := op, node := 78, tag := mkTag 77 5, ftag := 1, key := 5, len := 64, off := 0,
    imm := 0, cipher := 0xFFFF, coll := [], frags := [(64, 64)], bytes := [], state := .awaiting, admitted := true, begun := true, wAt := some 0,
    answerAt := 0, interval := 100, timerAt := 0, busy := 0, lastBusy := false, backAt := none, granted := 0, sentTo := 64, leaves := [], res := 50 }

def sentOut (m : Msg) : Dev := updPes 0 (fun x => { x with msgs := [(5, m)] }) objects
def back (typ op : Nat) (tf payload : List Byte) : RxPkt :=
  { die := 0, srcNode := 78, srcDie := 0, payload := payload, ce := false, buf := none,
    hdr := [1] ++ natLE 1 typ ++ [0] ++ natLE 1 op ++ (natLE 8 (mkTag 77 5)).reverse ++ (natLE 4 1).reverse ++ (natLE 4 5).reverse ++ (natLE 4 64).reverse ++
      List.replicate 5 0 ++ [12] ++ [0, 0] ++ tf ++ List.replicate (32 - tf.length) 0 }

theorem witness_PesynInitiator :
    let d := sentOut (msg0 0x10)
    let r := updPes 0 (fun x => { x with slots := [(mkTag 77 5, { freshSlot (parse (back 7 0x12 [] [])) 0 0 100 none none none with read := some (8, 0) })] }) (sentOut (msg0 0x12))
    let resp := back 7 0x12 (natLE 4 0 ++ [0, 64]) (List.replicate 64 7)
    malformed (back 4 0x10 [] []) true = false ∧ malformed (back 5 0x10 [0xD] []) true = false ∧ malformed (back 3 0x10 (natLE 4 0 ++ [0, 0, 0, 64]) []) true = false ∧
    malformed (back 6 0x10 (natLE 4 0 ++ [0, 0, 0, 64]) []) true = false ∧ malformed resp true = false ∧ (parse (back 5 0x10 [0xD] [])).reason = 0xD ∧
    answered (parse (back 4 0x10 [] [])) d = some (msg0 0x10) ∧ answerOk (parse (back 4 0x10 [] [])) 78 0 true (msg0 0x10) = (true, false) ∧
    (msg0 0x10).isRead = false ∧ (msg0 0x12).isRead = true ∧ ({ msg0 0x10 with len := 131072 } : Msg).sched = true ∧
    answered (parse resp) r = some (msg0 0x12) ∧
    (match slotAt 0 (mkTag 77 5) (noteAnswer 0 5 r) with | some sl => sl.place 0 == (some 0, false) | none => false) = true ∧
    (writePieces (ldaPieces r (sliceFrags (msg0 0x12).frags 0 64)) (parse resp).payload r).2 = true ∧
    (msg0 0x10).timerAt + (msg0 0x10).interval ≤ clock (fdie 0) (at_ 100 d) ∧ clock (fdie 0) d < (msg0 0x10).timerAt + (msg0 0x10).interval ∧
    0 + 2 * (msg0 0x10).res < clock (fdie 0) (at_ 101 d) ∧ addrFree base = true ∧
    ({ base.addr with waits := true } : PesynAddr).waits = true ∧ addrFree r = false := by decide +kernel

/-- An ALL_REDUCE of 8 elements of 16 bits that is admitted, with the chunk that this member owns. -/
def coll0 : Coll := { mkColl 8 0 wq0 ([0x20, 0] ++ natLE 2 4 ++ [6, 0, 0, 0] ++ natLE 8 0 ++ natLE 8 2048 ++ natLE 4 8) [] comm0 with
  admitted := true, entered := true, lanes0 := [5], chunks := [(0, { len := 16, epoch := 0, counts := [(0, 1)], restarts := 0, held := [], entry := true, clean := false })] }
def reducing : Dev := { headed wq0 barrierL with colls := { comms := [(4, { comm0 with coll := some coll0 })], lanes := [Lanes.reset, Lanes.reset] } }

/-- A collective packet of rank 1 with its signature check, and what a control packet carries. -/
def collP (typ off len : Nat) (payload : List Byte) : RxPkt :=
  { rx typ 0x20 9 len (natBE 4 0 ++ natBE 2 payload.length ++ natBE 2 1 ++ natBE 2 (crc16 coll0.sig) ++ natBE 2 1 ++ natBE 4 0) payload with
    hdr := (hdr typ 0x20 9 len (natBE 4 0 ++ natBE 2 payload.length ++ natBE 2 1 ++ natBE 2 (crc16 coll0.sig) ++ natBE 2 1 ++ natBE 4 0)).take 24 ++ natBE 5 off ++
      (hdr typ 0x20 9 len (natBE 4 0 ++ natBE 2 payload.length ++ natBE 2 1 ++ natBE 2 (crc16 coll0.sig) ++ natBE 2 1 ++ natBE 4 0)).drop 29 }

theorem witness_CollectivePackets :
    let enter := collP 11 0 16 ([1, 0, 0, 0] ++ List.replicate 12 0)
    let sealP := collP 11 0 16 ([3] ++ List.replicate 15 0)
    let restart := collP 11 0 16 ([2] ++ List.replicate 15 0)
    let pass := fun (x : RxPkt) (k : Nat) => match collVerdict (parse x) k reducing with | .pass c => c == 4 | _ => false
    malformed enter true = false ∧ malformed sealP true = false ∧ malformed restart true = false ∧ pass enter 1 = true ∧ pass sealP 3 = true ∧ pass restart 2 = true ∧
    (contribsFrom comm0 coll0 1 reducing).any (fun q => let x := collP 10 q.off (coll0.msgLen q.len) (List.replicate (coll0.msgLen q.len) 0)
      !malformed x true && pass x 0 && decide ((parse x).len ≤ 65536)) = true ∧
    Tab.get (pesAt 0 reducing).filter (parse enter).tag = none ∧ (parse enter).enc = false ∧ filterFull 0 reducing = false ∧ slotFree 0 reducing = true ∧
    (parse enter).cseq = comm0.seq ∧ (collAt 4 reducing).isSome = true ∧ coll0.op ≠ 0x24 ∧ coll0.lanes 0 = [5] ∧ 5 ∉ coll0.failed 0 ∧
    0 < (lanesAt 0 reducing).spares ∧
    coll0.chunks.find? (fun p => p.1 / collC comm0 coll0 reducing == 0 && contribDie comm0 coll0 p.1 reducing == 0 && !p.2.clean && p.2.counts.length != 0) =
      coll0.chunks[0]? ∧ (msg0 0x10).answerAt + 2 * (msg0 0x10).res ≤ clock (fdie 0) (at_ 100 reducing) := by decide +kernel

/-- The memories of the reset state and of one with objects are in their canonical form. -/
theorem witness_MemOk : Safety.MemOk Dev.reset ∧ Safety.MemOk objects := by
  refine ⟨⟨?_, ?_, ?_⟩, ⟨?_, ?_, ?_⟩⟩ <;> decide +kernel

/-- Host DMA of 64 bytes each way is decided, under a grant of its engine. -/
theorem witness_host_dma : judged wq0 (remoteL 0x30 64) = true ∧ judged wq0 (remoteL 0x31 64) = true ∧
    commonOk 8 { wq0 with head := some (head_ true (remoteL 0x30 64)) } (head_ true (remoteL 0x30 64)) (headed wq0 (remoteL 0x30 64)) = true ∧
    (currentFor 8 [(.hostDma 0, 12)] (touched wq0.ctx ([(64, 64)] ++ bufferTableRange (head_ true (remoteL 0x30 64)).bytes) (queueEng 8) (headed wq0 (remoteL 0x30 64)))
      (headed wq0 (remoteL 0x30 64))).2 = true := by decide +kernel

/-! ## Premises beside those above -/

theorem witness_counter_mirror : mirrorLost 65576 (fetched (counted (running ctxK))) = false ∧ base.link.retrain = false ∧
    (running ctxK).link.retrain = false ∧ ctxK.wait = .run ∧ pairBusy moverPair base = false ∧ pairBusy (faultPair 3) base = false ∧
    (let d := { base with upd := { Update.idle with state := 7, mode := 1, actStep := 1 } }
     pairBusy moverPair d = true ∧ pairBusy (faultPair 3) d = true) ∧ mirrorLost 65536 objects = false := by decide +kernel

/-- Instance 0 with LFN 3 in a DDR5 frame: the tile's channel holds no current on a rail that gives none, or holds it. -/
theorem witness_ddr5_tile :
    let d0 := running (withChan chan0)
    let d := { d0 with xl := { d0.xl with lfns := [(3, { lfn3 with pfn := 16384 })] } }
    let none_ := updRail 10 (fun r => { r with stopped := true }) d
    let held := updRail 10 (fun r => { r with grants := [⟨.ddr5 (siteOf 16384), 8, none⟩] }) d
    (match spots 1 .read (.brick 0) d (tileParts desc0 0) with
     | .ok l => tileChans l d == [siteOf 16384] && hostPieces desc0 0 l == some []
     | _ => false) = true ∧
    holdsGrant (.ddr5 (siteOf 16384)) none_ = false ∧ (railAt 10 none_).open_ = false ∧ holdsGrant (.ddr5 (siteOf 16384)) held = true ∧
    tileChans [spot0] (running (withChan chan0)) = [] ∧ base.tiers.poison.filter (inPool 0 base) = [] := by decide +kernel

theorem witness_scrub : sramWork 3 base = [] ∧ sramWork 8 base = [] ∧ sramWork 10 base = [] ∧ pfnExists (5 * 2 ^ 26 / 2 ^ 26) base = true ∧
    scrubReaches (codewordOf (.dev (16384 * 2 ^ 26))) base = false ∧ placeThere (codewordOf (.sram 3 64)) base = true ∧
    scrubReaches (codewordOf (.dev (16384 * 2 ^ 26))) (sites 4 true) = true := by decide +kernel

theorem witness_scrub_quiet : Safety.Quiet base :=
  ⟨by decide +kernel, rfl, by rintro r (rfl | rfl) <;> decide +kernel, fun g h => absurd h (by decide +kernel +revert),
    fun w h => absurd h (by decide +kernel +revert)⟩

/-- Admin commands that find no object, one that waits for what uses a segment, the quotas' bounds, and a queue that is being destroyed. -/
theorem witness_admin_refusals :
    let seg0 := natLE 8 (1 + 7 * 2 ^ 24) ++ natLE 8 (2 ^ 26) ++ natLE 2 4 ++ natLE 2 1
    let dying := queued { wq0 with state := 2 } cr0
    (adminAt 0 admin).detached = false ∧ ctxHeld 0 7 objects = none ∧ wqHeld 0 7 objects = none ∧ ctxHeld 0 1 objects = some ctx0 ∧
    takes 0xA2 (natLE 2 7) objects = true ∧ adminZeros (cmd 0xA2 (natLE 2 1)) [(8, 9)] = true ∧ takes 0xA3 seg0 objects = true ∧
    (match segStatus 0 (cmd 0xA3 seg0) objects with | .ok (c, i, x, _) => c == 1 && i == 0 && x == ctx0 | _ => false) = true ∧
    (Tab.get ctx0.segs 0).isSome = true ∧ fieldLE (cmd 0xA3 seg0) 10 1 ≤ 15 ∧ fieldLE (cmd 0xA3 seg0) 26 2 ≠ 0 ∧
    vaOk (2 ^ 26) (fieldLE (cmd 0xA3 seg0) 26 2 * 2 ^ 26) = true ∧
    takes 0x82 (natLE 2 7) objects = true ∧ adminZeros (cmd 0x82 (natLE 2 9)) [(8, 9)] = true ∧ (wqAt 9 dying).map WQ.state = some 2 ∧
    wqsHeld 0 objects < quotaMax 2 (getF .queueQuota 0 0 31 15 objects) objects ∧
    quotaMax 2 (getF .queueQuota 0 0 31 15 (queued wq0 cr0)) (queued wq0 cr0) ≤ wqsHeld 0 (queued wq0 cr0) ∧
    Tab.count objects.xl.ctxs (fun _ x => x.inst == 0) < quotaMax 0 (getF .xlateQuota 0 0 12 0 objects) objects ∧
    quotaMax 0 (getF .xlateQuota 0 0 12 0 (running ctxK)) (running ctxK) ≤ Tab.count (running ctxK).xl.ctxs (fun _ x => x.inst == 0) ∧
    framesHeld 0 objects + 1 ≤ quotaMax 1 (getF .xlateQuota 0 0 31 16 objects) objects ∧
    crsHeld 0 objects < quotaMax 3 (getF .queueQuota 0 0 14 0 objects) objects ∧ ctrsHeld 0 objects + 2 ≤ quotaMax 4 (getF .counterQuota 0 0 16 0 objects) objects ∧
    regionsHeld 0 objects < quotaMax 5 (getF .regionQuota 0 0 20 0 objects) objects ∧ domsHeld 0 objects < quotaMax 6 (getF .domainQuota 0 0 12 0 objects) objects ∧
    pinsHeld 0 objects + 1 ≤ quotaMax 7 (getF .pinQuota 0 0 18 0 objects) objects ∧
    inFirst 0x20 3 objects = true ∧ inFirst 0x20 3 { objects with xl := { objects.xl with lfns := [(3, { lfn3 with pfn := 16384 })] } } = false := by
  decide +kernel

theorem witness_local_ends :
    let x : Desc := { idx := 0, op := 0x10, bytes := [], tile := none, expiry := 100, devUs := 10, since := 0, gen := 7, dUs := 5, count := none,
                      toHost := false, table := [], pins := [], chans := [], spoilt := false, era := 0, done := none }
    let flying := { objects with q := { objects.q with wqs := [(8, { wq0 with flight := [x] })] } }
    Machine.failing 8 0 flying = false ∧ flying.link.retrain = false ∧ flying.link.waiting = [] ∧ (head_ true [1]).judged = true := by decide +kernel

theorem witness_late_frames :
    let f := waits_ none
    let late := { f with pkt := { f.pkt with dead := some 3 } }
    let full := updBuf 0 0 (fun b => { b with frames := List.replicate 4 (2 ^ 24, false) }) addressed
    late.late (at_ 9 base) = true ∧ late.late base = false ∧ f.late (at_ 9 base) = false ∧ base.net.outside = [] ∧ (portAt 0 base).wire = none ∧
    bufferUse 0 addressed + 64 ≤ 2 ^ 26 ∧ 2 ^ 26 < bufferUse 0 full + 64 := by decide +kernel

/-- A flit behind a missing one; a write of the host that a retrain holds; a retrain with all lanes, on a link that WIDEN was given for. -/
theorem witness_link_states :
    let missing := linked (fun l => { l with replaying := true })
    let train := linked (fun l => { l with retrain := true, firstTry := some 0, width := 1, widening := true, held := [.widen] })
    missing.link.replaying = true ∧ 5 % 4096 ≠ missing.link.seqNext ∧ 0 % 4096 = missing.link.seqNext ∧ train.start.ready = true ∧ train.link.up = true ∧
    train.link.lost = false ∧ train.link.retrain = true ∧ train.link.waiting = [] ∧ train.q.wqs = [] ∧ linkOpen base = true ∧ base.link.waiting = [] ∧
    (255 : Nat) % 16 = 15 ∧ (0x0F : Nat) ≠ 255 := by decide +kernel

theorem witness_retrain_quiet : Safety.Quiet (linked (fun l => { l with retrain := true, firstTry := some 0 })) :=
  ⟨by decide +kernel, rfl, by rintro r (rfl | rfl) <;> decide +kernel, fun g h => absurd h (by decide +kernel +revert),
    fun w h => absurd h (by decide +kernel +revert)⟩

/-- A flush read that a transfer's end, or a failing descriptor's, waits for; an admin ring that a doorbell met while it was read; a timer that runs. -/
theorem witness_flushes :
    let wait : Behind := { id := 8, q := 9, idx := 0, status := 3, result := 0, bytes := 0, detail := 0 }
    let behind := { reading with link := { reading.link with behind := [wait] } }
    let again := updAdmin 0 (fun a => { a with again := true }) reading
    reading.link.behind.all (fun b => b.id != 8) = true ∧ Tab.get reading.link.reads 8 = none ∧ reading.link.retrain = false ∧
    behind.link.behind.find? (fun b => b.id == 8) = some wait ∧ (adminAt 0 again).again = true ∧ (adminAt 0 reading).again = false ∧
    (Tab.get reading.link.reads 7).map HostRead.len = some 64 ∧ (linked (fun l => { l with retrain := true })).link.retrain = true ∧
    clock (fdie 0) (sentOut { msg0 0x10 with backAt := some 50 }) < 50 ∧ 50 ≤ clock (fdie 0) (at_ 50 (sentOut { msg0 0x12 with backAt := some 50 })) := by
  decide +kernel

theorem witness_malformed_requests : heard 1 { req with typ := 5 } (managed id) = false ∧ ({ req with formed := false } : MReq).formed = false ∧
    heard 1 { req with formed := false } (managed id) = true ∧ ((sessionOf req (managed id)).map Session.finished).getD true = true ∧
    (managed id).mc.secret = none ∧ (managed (fun m => { m with secret := some 3 })).mc.secret = some 3 := by decide +kernel

theorem witness_Arrives : Safety.Arrives 1 dataP (onDev objects) ∧ Safety.Arrives 2 requestP (onDev objects) ∧ Safety.Arrives 2 readP (onDev objects) ∧
    Safety.Arrives 8 cancelP (onDev objects) := by
  unfold Safety.Arrives
  decide +kernel

end Sys2Proof.Tests
end

section
/-! SUPPORT. Register words as packed fields (R11, R14, R535): a word put together from values of fields that do not overlap reads each
value back at its field, and zero everywhere else. -/

namespace Sys2Proof.Machine

/-! ## Bits of fields -/

theorem bitOf_eq_testBit (w k : Nat) : bitOf w k = w.testBit k := by
  simp [bitOf, Nat.testBit, Nat.and_comm, Nat.and_one_is_mod]

theorem testBit_bitsOf (w hi lo i : Nat) : (bitsOf w hi lo).testBit i = (decide (i < hi + 1 - lo) && w.testBit (lo + i)) := by
  rw [bitsOf, Nat.testBit_mod_two_pow, Nat.testBit_shiftRight]

/-- Two words with the same bits inside a field agree on it. -/
theorem bitsOf_congr {v w hi lo : Nat} (h : ∀ k, lo ≤ k → k ≤ hi → bitOf v k = bitOf w k) : bitsOf v hi lo = bitsOf w hi lo := by
  refine Nat.eq_of_testBit_eq fun i => ?_
  rw [testBit_bitsOf, testBit_bitsOf]
  by_cases hi' : i < hi + 1 - lo
  · rw [← bitOf_eq_testBit, ← bitOf_eq_testBit, h (lo + i) (by omega) (by omega)]
  · simp [hi']

/-! ## Packed words -/

/-- The word that holds a value at each field of a list: what `RegRow.write`, `RegRow.readVal` and `RegRow.afterRead` put together. -/
def packed (v : Field → Nat) (l : List Field) : Nat := l.foldl (fun acc f => acc + v f * 2 ^ f.lo) 0

theorem RegRow.write_eq_packed (r : RegRow) (old w : Nat) : r.write old w = packed (fun f => f.write old w) r.fields := rfl

theorem RegRow.readVal_eq_packed (r : RegRow) (w : Nat) :
    r.readVal w = packed (fun f => if f.acc = .wo then 0 else bitsOf w f.hi f.lo) r.fields := rfl

theorem RegRow.afterRead_eq_packed (r : RegRow) (w : Nat) :
    r.afterRead w = packed (fun f => if f.acc = .rc then 0 else bitsOf w f.hi f.lo) r.fields := rfl

theorem packed_cons (v : Field → Nat) (f : Field) (l : List Field) : packed v (f :: l) = 2 ^ f.lo * v f + packed v l := by
  have shift : ∀ (l : List Field) (a : Nat), l.foldl (fun acc f => acc + v f * 2 ^ f.lo) a = a + packed v l := by
    intro l
    induction l with
    | nil => exact fun _ => rfl
    | cons g l ih => intro a; simp only [packed, List.foldl_cons] at ih ⊢; rw [ih, ih (0 + _)]; omega
  rw [packed, List.foldl_cons, shift, Nat.zero_add, Nat.mul_comm]

/-- Every field runs from its low bit up, and each stands below the ones before it. -/
def Laid (l : List Field) : Prop := (∀ f ∈ l, f.lo ≤ f.hi) ∧ l.Pairwise (fun f g => g.hi < f.lo)

theorem Laid.tail {f : Field} {l : List Field} (h : Laid (f :: l)) : Laid l :=
  ⟨fun g hg => h.1 g (List.mem_cons_of_mem _ hg), h.2.of_cons⟩

theorem Laid.below {f : Field} {l : List Field} (h : Laid (f :: l)) : ∀ g ∈ l, g.hi < f.lo := (List.pairwise_cons.mp h.2).1

/-- Each value fits its field. -/
def Fits (v : Field → Nat) (l : List Field) : Prop := ∀ f ∈ l, v f < 2 ^ (f.hi + 1 - f.lo)

theorem Fits.tail {v : Field → Nat} {f : Field} {l : List Field} (h : Fits v (f :: l)) : Fits v l :=
  fun g hg => h g (List.mem_cons_of_mem _ hg)

/-- A packed word ends where its fields end. -/
theorem packed_lt {v : Field → Nat} {l : List Field} (hl : Laid l) (hv : Fits v l) : ∀ {n : Nat}, (∀ f ∈ l, f.hi < n) → packed v l < 2 ^ n := by
  induction l with
  | nil => exact fun _ => Nat.two_pow_pos _
  | cons f l ih =>
    intro n hn
    have hf : v f < 2 ^ (f.hi + 1 - f.lo) := hv f (List.mem_cons_self ..)
    have hlo : f.lo ≤ f.hi := hl.1 f (List.mem_cons_self ..)
    have hr : packed v l < 2 ^ f.lo := ih hl.tail hv.tail hl.below
    have hn : f.hi + 1 ≤ n := hn f (List.mem_cons_self ..)
    calc packed v (f :: l) < 2 ^ f.lo * (v f + 1) := by rw [packed_cons, Nat.mul_succ]; omega
      _ ≤ 2 ^ f.lo * 2 ^ (f.hi + 1 - f.lo) := Nat.mul_le_mul_left _ hf
      _ = 2 ^ (f.hi + 1) := by rw [← Nat.pow_add]; congr 1; omega
      _ ≤ 2 ^ n := Nat.pow_le_pow_right (by decide) hn

/-- A bit of a packed word lies in the first field's value or in the rest. -/
theorem testBit_packed_cons {v : Field → Nat} {f : Field} {l : List Field} (hl : Laid (f :: l)) (hv : Fits v (f :: l)) (k : Nat) :
    (packed v (f :: l)).testBit k = if k < f.lo then (packed v l).testBit k else (v f).testBit (k - f.lo) := by
  rw [packed_cons, Nat.testBit_two_pow_mul_add _ (packed_lt hl.tail hv.tail hl.below)]

/-- Inside a field a packed word has the bits of the field's value. -/
theorem testBit_packed_field {v : Field → Nat} {l : List Field} (hl : Laid l) (hv : Fits v l) {f : Field} (hf : f ∈ l) {k : Nat}
    (h1 : f.lo ≤ k) (h2 : k ≤ f.hi) : (packed v l).testBit k = (v f).testBit (k - f.lo) := by
  induction l with
  | nil => cases hf
  | cons g l ih =>
    rw [testBit_packed_cons hl hv]
    rcases List.mem_cons.mp hf with rfl | hf
    · rw [if_neg (by omega)]
    · rw [if_pos (by have := hl.below f hf; omega), ih hl.tail hv.tail hf]

/-- Outside its fields a packed word is zero. -/
theorem testBit_packed_outside {v : Field → Nat} {l : List Field} (hl : Laid l) (hv : Fits v l) {k : Nat}
    (hk : ∀ f ∈ l, k < f.lo ∨ f.hi < k) : (packed v l).testBit k = false := by
  induction l with
  | nil => simp [packed]
  | cons g l ih =>
    rw [testBit_packed_cons hl hv]
    split
    · exact ih hl.tail hv.tail fun f hf => hk f (List.mem_cons_of_mem _ hf)
    · have hg := hk g (List.mem_cons_self ..)
      exact Nat.testBit_eq_false_of_lt (Nat.lt_of_lt_of_le (hv g (List.mem_cons_self ..)) (Nat.pow_le_pow_right (by decide) (by omega)))

/-- A packed word reads each value back at its field. -/
theorem bitsOf_packed {v : Field → Nat} {l : List Field} (hl : Laid l) (hv : Fits v l) {f : Field} (hf : f ∈ l) :
    bitsOf (packed v l) f.hi f.lo = v f := by
  refine Nat.eq_of_testBit_eq fun i => ?_
  rw [testBit_bitsOf]
  by_cases hi : i < f.hi + 1 - f.lo
  · rw [testBit_packed_field hl hv hf (by omega) (by omega), Nat.add_sub_cancel_left]; simp [hi]
  · rw [Nat.testBit_eq_false_of_lt (Nat.lt_of_lt_of_le (hv f hf) (Nat.pow_le_pow_right (by decide) (by omega)))]; simp [hi]

/-- Only the values at the fields of the list matter. -/
theorem packed_congr {u v : Field → Nat} {l : List Field} (h : ∀ f ∈ l, u f = v f) : packed u l = packed v l := by
  induction l with
  | nil => rfl
  | cons f l ih =>
    rw [packed_cons, packed_cons, h f (List.mem_cons_self ..), ih fun g hg => h g (List.mem_cons_of_mem _ hg)]

/-! ## The register index is laid out, and its limits fit (R534, R535) -/

/-- Does the value that a limit puts in place of a written one fit the field? -/
def Field.limFits (f : Field) : Bool :=
  match f.lim with
  | .zeroIs v => decide (v < 2 ^ (f.hi + 1 - f.lo))
  | .atLeast v => decide (v < 2 ^ (f.hi + 1 - f.lo))
  | .range lo _ => decide (lo < 2 ^ (f.hi + 1 - f.lo))
  | _ => true

/-- A written value that a limit replaces stays within the field. -/
theorem Field.take_lt {f : Field} (h : f.limFits = true) {v : Nat} (hv : v < 2 ^ (f.hi + 1 - f.lo)) :
    f.lim.take v < 2 ^ (f.hi + 1 - f.lo) := by
  unfold Field.limFits at h
  cases hl : f.lim with
  | any => exact hv
  | zeroIs d => rw [hl] at h; simp only [Lim.take]; split <;> simp_all
  | atMost m => exact Nat.lt_of_le_of_lt (Nat.min_le_left ..) hv
  | atLeast m => rw [hl] at h; exact Nat.max_lt.mpr ⟨hv, of_decide_eq_true h⟩
  | range lo hi => rw [hl] at h; exact Nat.max_lt.mpr ⟨of_decide_eq_true h, Nat.lt_of_le_of_lt (Nat.min_le_left ..) hv⟩
  | threeIsZero => simp only [Lim.take]; split <;> simp_all

/-- A field holds what a write leaves in it. -/
theorem Field.write_lt {f : Field} (h : f.limFits = true) (old w : Nat) : f.write old w < 2 ^ (f.hi + 1 - f.lo) := by
  have ho := bitsOf_lt old f.hi f.lo
  have hw := bitsOf_lt w f.hi f.lo
  unfold Field.write
  cases f.acc with
  | ro => exact ho
  | rc => exact ho
  | wo => exact Nat.two_pow_pos _
  | rw => exact Field.take_lt h hw
  | rw1s => exact Nat.or_lt_two_pow ho hw
  | rw1c => exact Nat.lt_of_le_of_lt (Nat.sub_le ..) ho

/-- Every row of the register index: its fields do not overlap, and each limit fits its field. -/
theorem regRows_laid : ∀ r ∈ regRows,
    (∀ f ∈ r.fields, f.lo ≤ f.hi ∧ f.limFits = true) ∧ r.fields.Pairwise (fun f g => g.hi < f.lo) := by
  decide +kernel

section Row

variable {r : RegRow} (hr : r ∈ regRows)
include hr

theorem laid_of_mem : Laid r.fields := ⟨fun f hf => ((regRows_laid r hr).1 f hf).1, (regRows_laid r hr).2⟩

theorem fits_write (old w : Nat) : Fits (fun f => f.write old w) r.fields :=
  fun f hf => Field.write_lt ((regRows_laid r hr).1 f hf).2 old w

omit hr in
theorem fits_unless (c : Field → Prop) [DecidablePred c] (w : Nat) : Fits (fun f => if c f then 0 else bitsOf w f.hi f.lo) r.fields := by
  intro f _
  dsimp only
  split
  · exact Nat.two_pow_pos _
  · exact bitsOf_lt ..

/-- R11, R535: a write leaves in each field what its access code says. -/
theorem bitsOf_write {f : Field} (hf : f ∈ r.fields) (old w : Nat) : bitsOf (r.write old w) f.hi f.lo = f.write old w :=
  bitsOf_packed (laid_of_mem hr) (fits_write hr old w) hf

/-- R11: a read returns each field but a write-only one. -/
theorem bitsOf_readVal {f : Field} (hf : f ∈ r.fields) (w : Nat) :
    bitsOf (r.readVal w) f.hi f.lo = if f.acc = .wo then 0 else bitsOf w f.hi f.lo :=
  bitsOf_packed (laid_of_mem hr) (fits_unless (fun f => f.acc = .wo) w) hf

/-- R11: a read leaves each field but an RC one. -/
theorem bitsOf_afterRead {f : Field} (hf : f ∈ r.fields) (w : Nat) :
    bitsOf (r.afterRead w) f.hi f.lo = if f.acc = .rc then 0 else bitsOf w f.hi f.lo :=
  bitsOf_packed (laid_of_mem hr) (fits_unless (fun f => f.acc = .rc) w) hf

/-- R14: reserved bits read as zero and stay zero. -/
theorem reserved_zero {k : Nat} (hk : ∀ f ∈ r.fields, k < f.lo ∨ f.hi < k) (old w : Nat) :
    bitOf (r.readVal old) k = false ∧ bitOf (r.afterRead old) k = false ∧ bitOf (r.write old w) k = false := by
  simp only [bitOf_eq_testBit]
  exact ⟨testBit_packed_outside (laid_of_mem hr) (fits_unless (fun f => f.acc = .wo) old) hk,
    testBit_packed_outside (laid_of_mem hr) (fits_unless (fun f => f.acc = .rc) old) hk,
    testBit_packed_outside (laid_of_mem hr) (fits_write hr old w) hk⟩

omit hr in
/-- R14: a write takes no notice of what is written to reserved bits. -/
theorem write_congr {v w : Nat} (h : ∀ k, (∃ f ∈ r.fields, f.lo ≤ k ∧ k ≤ f.hi) → bitOf v k = bitOf w k) (old : Nat) :
    r.write old v = r.write old w := by
  refine packed_congr fun f hf => ?_
  have : bitsOf v f.hi f.lo = bitsOf w f.hi f.lo := bitsOf_congr fun k h1 h2 => h k ⟨f, hf, h1, h2⟩
  simp only [Field.write, this]

end Row

/-- Settles O7: a written or read register word is packed from its fields, which do not overlap and whose limits fit. -/
theorem fieldsByAccessCode : Obligations.FieldsByAccessCode := by
  intro r hr old w
  refine ⟨fun f hf => ⟨?_, bitsOf_readVal hr hf old, bitsOf_afterRead hr hf old⟩, fun k hk => reserved_zero hr hk old w,
    fun v hv => write_congr hv old⟩
  rw [bitsOf_write hr hf]
  rfl

end Sys2Proof.Machine
end

section
/-! SUPPORT. Accesses of control space (R11, R15 to R17, R478, R525, R533): when the link holds an access, what an access counted leaves, and
what a write and a read of one 32-bit word do. -/

namespace Sys2Proof.Machine

/-! ## Accesses that no retrain holds (R389) -/

/-- No retrain of the link holds a transaction of the host: the link does not retrain, or the module is not READY. -/
def Unheld (d : Dev) : Prop := d.start.ready = false ∨ d.link.retrain = false

theorem overLink_unheld {s : State} (h : Unheld s.dev) (host : Bool) (i : HostTx) (f : State → Host.Outcome State Fault Refusal) :
    overLink host i f s = f s := by
  rcases h with h | h <;> simp [overLink, h]

theorem linkOpen_iff {d : Dev} : linkOpen d = true ↔ d.link.up = true ∧ d.link.lost = false ∧ d.link.retrain = false := by
  simp [linkOpen, and_assoc]

theorem unheld_of_linkOpen {d : Dev} (h : linkOpen d = true) : Unheld d := .inr (linkOpen_iff.mp h).2.2

theorem linkOpen_of_hasWindow {fn off : Nat} {d : Dev} (h : hasWindow fn off d = true) (hr : d.start.ready = true) : linkOpen d = true := by
  simp only [hasWindow, hr, Bool.not_true, Bool.false_or, Bool.and_eq_true] at h
  exact h.1

theorem unheld_of_hasWindow {fn off : Nat} {d : Dev} (h : hasWindow fn off d = true) : Unheld d := by
  cases hr : d.start.ready with
  | false => exact .inl hr
  | true => exact unheld_of_linkOpen (linkOpen_of_hasWindow h hr)

/-- The manager's own window reaches every offset below 2^31 (R523). -/
theorem hasWindow_manager {off : Nat} {d : Dev} (hl : linkOpen d = true) (ho : off < 2 ^ 31) : hasWindow 0xFF off d = true := by
  simp only [hasWindow, hl, decide_eq_true ho, beq_self_eq_true, Bool.or_true, Bool.true_or, Bool.and_self]

/-! ## The commands are their functions where nothing holds them -/

section Rows

variable {s : State} (h : Unheld s.dev) (fn off width data : Nat) (write : Bool)
include h

theorem exec_controlSpaceWrite : exec (.controlSpaceWrite fn off width data) s = .next (controlWrite fn off width data s) := by
  change execControlSpaceWrite fn off width data s = _
  exact overLink_unheld h _ _ _

theorem exec_controlSpaceReadClear : exec (.controlSpaceReadClear fn off width) s = .next (controlRead fn off width s) := by
  change execControlSpaceReadClear fn off width s = _
  exact overLink_unheld h _ _ _

theorem exec_wqDoorbell : exec (.wqDoorbell fn off width data) s = .next { s with dev := ringing fn off width data wqDoorbell s.dev } := by
  change execWqDoorbell fn off width data s = _
  exact overLink_unheld h _ _ _

theorem exec_returnDoorbell :
    exec (.returnDoorbell fn off width data) s = .next { s with dev := ringing fn off width data returnDoorbell s.dev } := by
  change execReturnDoorbell fn off width data s = _
  exact overLink_unheld h _ _ _

theorem exec_adminDoorbell :
    exec (.adminDoorbell fn off width data) s = .next { s with dev := ringing fn off width data adminDoorbell s.dev } := by
  change execAdminDoorbell fn off width data s = _
  exact overLink_unheld h _ _ _

theorem exec_sizeAlignError_of_bad (hw : wellSized off width = false) :
    exec (.sizeAlignError fn off width write) s = .next (if write then controlWrite fn off width 0 s else controlRead fn off width s) := by
  change execSizeAlignError fn off width write s = _
  rw [execSizeAlignError, overLink_unheld h]
  simp only [hw, Bool.false_eq_true, if_false]

end Rows

/-! ## An access counted (R532, R533) -/

/-- The field of CSPACE_ERR_COUNT that counts a KIND: its high and its low bit. -/
def errField (k : Nat) : Nat × Nat :=
  if k = 1 then (31, 24) else if k = 5 then (15, 8) else (23, 16)

theorem countErr_eq (k fn a w : Nat) (b : Bool) (d : Dev) :
    countErr k fn a w b d =
      setW .cspaceErrSource 0 0 (2 ^ 31 + k * 65536 + w % 256 * 256 + fn % 256)
        (setW .cspaceErrAddr 0 0 ((if b then 2 ^ 31 else 0) + a % 2 ^ 31)
          (setBit .cspaceErrCount 0 0 0 (countF .cspaceErrCount 0 0 (errField k).1 (errField k).2 1 d))) := by
  unfold countErr
  split
  · rfl
  · rfl
  · next _ h1 h5 => rw [errField, if_neg h1, if_neg h5]

/-- The counter register, after an access counted, reads as its own two updates left it. -/
theorem getF_errCount_countErr (k fn a w : Nat) (b : Bool) (d : Dev) (hi lo : Nat) :
    getF .cspaceErrCount 0 0 hi lo (countErr k fn a w b d) =
      getF .cspaceErrCount 0 0 hi lo (setBit .cspaceErrCount 0 0 0 (countF .cspaceErrCount 0 0 (errField k).1 (errField k).2 1 d)) := by
  rw [countErr_eq, getF, getW_setW_other _ _ (by decide), getW_setW_other _ _ (by decide)]
  rfl

theorem getW_errAddr_countErr (k fn a w : Nat) (b : Bool) (d : Dev) :
    getW .cspaceErrAddr 0 0 (countErr k fn a w b d) = (if b then 2 ^ 31 else 0) + a % 2 ^ 31 := by
  rw [countErr_eq, getW_setW_other _ _ (by decide), getW_setW_self]
  split <;> omega

theorem getW_errSource_countErr {k : Nat} (hk : k < 128) (fn a w : Nat) (b : Bool) (d : Dev) :
    getW .cspaceErrSource 0 0 (countErr k fn a w b d) = 2 ^ 31 + k * 65536 + w % 256 * 256 + fn % 256 := by
  rw [countErr_eq, getW_setW_self]
  omega

/-- Only the three registers that count accesses change. -/
theorem sameRegs_countErr (k fn a w : Nat) (b : Bool) (d : Dev) : Safety.SameRegs [0x100, 0x108, 0x10C] d (countErr k fn a w b d) := by
  intro x hx
  simp only [List.mem_cons, List.not_mem_nil, or_false, not_or] at hx
  obtain ⟨h1, h2, h3⟩ := hx
  rw [countErr_eq]
  simp only [setBit, countF, setF, setW, addrOf]
  rw [Tab.get_set_other _ _ h3, Tab.get_set_other _ _ h2, Tab.get_set_other _ _ h1, Tab.get_set_other _ _ h1]

/-- An access counted leaves exactly what R532 and R533 say. -/
theorem counted_countErr {k : Nat} (h1 : 1 ≤ k) (h5 : k ≤ 5) (fn a w : Nat) (b : Bool) (d : Dev) :
    Safety.Counted k fn a w b d (countErr k fn a w b d) := by
  have hs := getW_errSource_countErr (show k < 128 by omega) fn a w b d
  have ha := getW_errAddr_countErr k fn a w b d
  -- SEEN stands below every counter, and an access raises its own counter alone
  have hseen : ∀ {hi lo : Nat}, 0 < lo → lo ≤ hi → getF .cspaceErrCount 0 0 hi lo (countErr k fn a w b d) =
      getF .cspaceErrCount 0 0 hi lo (countF .cspaceErrCount 0 0 (errField k).1 (errField k).2 1 d) := fun h _ => by
    rw [getF_errCount_countErr, setBit, getF_setF_above _ (by omega) (by omega) h]
  have hspan : (errField k).2 ≤ (errField k).1 ∧ (errField k).1 < 32 := by unfold errField; split_ifs <;> decide
  have hself : ∀ {hi lo : Nat}, errField k = (hi, lo) → 0 < lo → lo ≤ hi →
      getF .cspaceErrCount 0 0 hi lo (countErr k fn a w b d) = min (2 ^ (hi + 1 - lo) - 1) (getF .cspaceErrCount 0 0 hi lo d + 1) := by
    intro hi lo he h hh
    rw [hseen h hh, he, getF_countF_self _ hh (by rw [he] at hspan; exact hspan.2)]
  have hother : ∀ {hi lo : Nat}, hi < (errField k).2 ∨ (errField k).1 < lo → 0 < lo → lo ≤ hi →
      getF .cspaceErrCount 0 0 hi lo (countErr k fn a w b d) = getF .cspaceErrCount 0 0 hi lo d := by
    intro hi lo he h hh
    rw [hseen h hh]
    rcases he with he | he
    · exact getF_setF_below _ hspan.1 hspan.2 hh he
    · exact getF_setF_above _ hspan.1 hspan.2 he
  refine ⟨countErr_frame .., ?_, ?_, ?_, ?_, ?_, ?_, ?_, ?_, ?_, ?_, sameRegs_countErr k fn a w b d⟩
  · split
    · next h => subst h; exact hself rfl (by decide) (by decide)
    · next h => exact hother (by rw [errField, if_neg h]; split <;> decide) (by decide) (by decide)
  · split
    · next h => exact hself (by rw [errField, if_neg (by omega), if_neg (by omega)]) (by decide) (by decide)
    · next h =>
      have : k = 1 ∨ k = 5 := by omega
      exact hother (by rcases this with rfl | rfl <;> decide) (by decide) (by decide)
  · split
    · next h => subst h; exact hself rfl (by decide) (by decide)
    · next h => exact hother (by rw [errField, if_neg h]; split <;> decide) (by decide) (by decide)
  · rw [getF_errCount_countErr, setBit, getF_setF_self _ (by decide) (by decide)]; rfl
  · rw [getF, ha, bitsOf, Nat.shiftRight_eq_div_pow]; split <;> omega
  · rw [getF, ha, bitsOf, Nat.shiftRight_eq_div_pow]; split <;> omega
  · rw [getF, hs, bitsOf, Nat.shiftRight_eq_div_pow]; omega
  · rw [getF, hs, bitsOf, Nat.shiftRight_eq_div_pow]; omega
  · rw [getF, hs, bitsOf, Nat.shiftRight_eq_div_pow]; omega
  · rw [getF, hs, bitsOf, Nat.shiftRight_eq_div_pow]; omega

/-! ## Bad accesses (R15, R17, R478) -/

theorem controlWrite_early {fn off : Nat} {s : State} (h : hasWindow fn off s.dev = true) (hr : s.dev.start.ready = false) (width data : Nat) :
    controlWrite fn off width data s = { s with dev := countErr 5 fn (ctrlAddr fn off) width true s.dev } := by
  simp [controlWrite, h, hr]

theorem ringing_early {fn off : Nat} {d : Dev} (h : hasWindow fn off d = true) (hr : d.start.ready = false) (width data : Nat)
    (f : Nat → Nat → Nat → Nat → Dev → Dev) : ringing fn off width data f d = countErr 5 fn (ctrlAddr fn off) width true d := by
  simp [ringing, h, hr]

theorem controlRead_early {fn off width : Nat} {s : State} (h : hasWindow fn off s.dev = true) (hr : s.dev.start.ready = false)
    (hx : ¬(fn = 0xFF ∧ wellSized off width = true ∧ (off = 0 ∨ off = 0x150000))) :
    controlRead fn off width s = { s with dev := { s.dev with reply := .value 0 } } := by
  have h0 : (if fn = 0xFF then readEarly off width s.dev else 0) = 0 := by
    split
    · next hf =>
      unfold readEarly
      split
      · rfl
      · next hw =>
        have hw : wellSized off width = true := by simpa using hw
        rw [if_neg (fun ho => hx ⟨hf, hw, .inl ho⟩), if_neg (fun ho => hx ⟨hf, hw, .inr ho⟩)]
    · rfl
  simp only [controlRead, h, hr, h0, Bool.not_true, Bool.not_false, Bool.false_eq_true, if_false, if_true]
  rfl

/-- At READY an access that is narrow or misaligned is counted with KIND 1; a write is discarded, and the command's end is that of any write. -/
theorem controlWrite_badSize {fn off width : Nat} {s : State} (h : hasWindow fn off s.dev = true) (hr : s.dev.start.ready = true)
    (hw : wellSized off width = false) (data : Nat) :
    controlWrite fn off width data s = { s with dev := localPath (countErr 1 fn (ctrlAddr fn off) width true s.dev) } := by
  simp [controlWrite, writeReady, h, hr, hw]

theorem controlRead_badSize {fn off width : Nat} {s : State} (h : hasWindow fn off s.dev = true) (hr : s.dev.start.ready = true)
    (hw : wellSized off width = false) :
    controlRead fn off width s = { s with dev := { countErr 1 fn (ctrlAddr fn off) width false s.dev with reply := .value 0 } } := by
  simp [controlRead, readReady, answer, h, hr, hw]

theorem wellSized_four {off : Nat} (h : off % 4 = 0) : wellSized off 4 = true := by simp [wellSized, h]

theorem controlRead_bad {fn off k : Nat} {s : State} (h : hasWindow fn off s.dev = true) (hr : s.dev.start.ready = true) (ho : off % 4 = 0)
    (hk : reach (ctrlAddr fn off) s.dev = .bad k) :
    controlRead fn off 4 s = { s with dev := { countErr k fn (ctrlAddr fn off) 4 false s.dev with reply := .value 0 } } := by
  simp [controlRead, readReady, readHalf, answer, h, hr, hk, wellSized_four ho]

/-- An aligned 32-bit access that reaches nothing is counted with the KIND of what it misses. -/
theorem exec_undecodedAccess_bad {fn off k : Nat} {s : State} (h : hasWindow fn off s.dev = true) (hr : s.dev.start.ready = true)
    (ho : off % 4 = 0) (hk : reach (ctrlAddr fn off) s.dev = .bad k) (write : Bool) :
    exec (.undecodedAccess fn off 4 write) s =
      .next { s with dev := if write then countErr k fn (ctrlAddr fn off) 4 true s.dev
        else { countErr k fn (ctrlAddr fn off) 4 false s.dev with reply := .value 0 } } := by
  change execUndecodedAccess fn off 4 write s = _
  rw [execUndecodedAccess, overLink_unheld (unheld_of_hasWindow h)]
  have hn : reachesNothing (halves (ctrlAddr fn off) 4) s.dev = true := by simp [reachesNothing, halves, hk]
  simp only [wellSized_four ho, hr, hn, h, controlRead_bad h hr ho hk]
  cases write with
  | true => simp [countBad, halves, each, hk]
  | false => simp

/-- Settles O9: each bad access is counted by `countErr` with its KIND, and nothing else follows from it. -/
theorem countedAccesses : Obligations.CountedAccesses := by
  refine ⟨fun s fn off width h hr => ⟨fun hw => ⟨?_, ?_⟩, fun k ho hk ⟨h2, h4⟩ => ⟨?_, ?_⟩⟩, fun s fn off width data h hr => ⟨?_, fun hx => ?_⟩⟩
  · refine ⟨_, counted_countErr (by decide) (by decide) .., ?_⟩
    rw [exec_sizeAlignError_of_bad (unheld_of_hasWindow h) _ _ _ _ hw, if_pos rfl, controlWrite_badSize h hr hw]
  · refine ⟨_, counted_countErr (by decide) (by decide) .., ?_⟩
    rw [exec_sizeAlignError_of_bad (unheld_of_hasWindow h) _ _ _ _ hw, if_neg (by decide), controlRead_badSize h hr hw]
  · exact ⟨_, counted_countErr (by omega) (by omega) .., exec_undecodedAccess_bad h hr ho hk true⟩
  · exact ⟨_, counted_countErr (by omega) (by omega) .., exec_undecodedAccess_bad h hr ho hk false⟩
  · have hu := unheld_of_hasWindow h
    refine ⟨_, counted_countErr (by decide) (by decide) .., ?_, ?_, ?_, ?_⟩
    · rw [exec_controlSpaceWrite hu, controlWrite_early h hr]
    · rw [exec_wqDoorbell hu, ringing_early h hr]
    · rw [exec_returnDoorbell hu, ringing_early h hr]
    · rw [exec_adminDoorbell hu, ringing_early h hr]
  · rw [exec_controlSpaceReadClear (unheld_of_hasWindow h), controlRead_early h hr hx]

/-! ## Registers that hold what was written to them -/

/-- The row that an address reaches has the address among its copies. -/
theorem findReg_at {a i j : Nat} {r : RegRow} (h : findReg a = some (r, i, j)) : r ∈ regRows ∧ r.at? a = some (i, j) := by
  obtain ⟨q, hq, hf⟩ := List.exists_of_findSome?_eq_some h
  obtain ⟨p, hp, he⟩ := Option.map_eq_some_iff.mp hf
  cases he
  exact ⟨hq, hp⟩

theorem index_lt_of_at {a i j : Nat} {r : RegRow} (h : r.at? a = some (i, j)) : i < r.n1 ∧ j < r.n2 := by
  simp only [RegRow.at?, Option.ite_none_left_eq_some, Option.ite_none_right_eq_some, Bool.and_eq_true, decide_eq_true_eq,
    Option.some.injEq, Prod.mk.injEq] at h
  obtain ⟨-, ⟨⟨hi, hj⟩, -⟩, rfl, rfl⟩ := h
  exact ⟨hi, hj⟩

theorem name_of_rowOf {n : RegName} {r : RegRow} (h : rowOf n = some r) : r.name = n := by
  simpa using List.find?_some h

/-- A plain register is no special case of a write or of a read. -/
theorem plainReg_effects {n : RegName} (h : n ∈ Safety.plainRegs) :
    portBlock n = false ∧ n ≠ .logWindow ∧ (∀ i j w s, regWrite n i j w s = { s with dev := plainWrite n i j w s.dev }) ∧
    (∀ i j s, regWord n i j s = getW n i j s.dev) ∧
    (∀ r : RegRow, r.name = n → ∀ i j s, readEffect r i j s =
      if r.fields.any (fun f => decide (f.acc = .rc)) then { s with dev := setW n i j (r.afterRead (getW n i j s.dev)) s.dev } else s) := by
  simp only [Safety.plainRegs, List.mem_cons, List.not_mem_nil, or_false] at h
  rcases h with rfl | rfl | rfl | rfl | rfl | rfl | rfl | rfl | rfl | rfl | rfl | rfl | rfl | rfl | rfl | rfl | rfl <;>
    exact ⟨rfl, by decide, fun _ _ _ _ => rfl, fun _ _ _ => rfl, fun r hr i j s => by simp only [readEffect, hr]⟩

/-- A copy of a plain register stands in device control space, at an aligned offset. -/
theorem plainReg_addr {n : RegName} (h : n ∈ Safety.plainRegs) {i j : Nat} {r : RegRow} (hr : rowOf n = some r) (hi : i < r.n1) :
    addrOf n i j < 0x01000000 ∧ addrOf n i j % 4 = 0 := by
  have hn : r.n1 ≤ 11 := by
    have : ∀ n ∈ Safety.plainRegs, ((rowOf n).map RegRow.n1).getD 0 ≤ 11 := by decide +kernel
    simpa [hr] using this n h
  simp only [Safety.plainRegs, List.mem_cons, List.not_mem_nil, or_false] at h
  rcases h with rfl | rfl | rfl | rfl | rfl | rfl | rfl | rfl | rfl | rfl | rfl | rfl | rfl | rfl | rfl | rfl | rfl <;>
    (constructor <;> simp only [addrOf] <;> omega)

/-- What the manager reaches at the address of a register outside the ports' blocks. -/
theorem reach_deviceReg {a i j : Nat} {r : RegRow} {d : Dev} (ha : a < 0x01000000) (hf : findReg a = some (r, i, j))
    (hp : portBlock r.name = false) : reach a d = .reg r i j := by
  unfold reach
  rw [if_neg (by omega), hf]
  simp [hp, Nat.not_le.mpr ha]

/-- An aligned 32-bit write of the manager reaches its register alone. -/
theorem controlWrite_reg {a i j w : Nat} {r : RegRow} {s : State} (hl : linkOpen s.dev = true) (hr : s.dev.start.ready = true)
    (ha : a < 0x01000000) (h4 : a % 4 = 0) (hw : w < 2 ^ 32) (hx : reach a s.dev = .reg r i j) :
    controlWrite 0xFF a 4 w s = { regWrite r.name i j w s with dev := localPath (regWrite r.name i j w s).dev } := by
  have hwin : hasWindow 0xFF a s.dev = true := hasWindow_manager hl (by omega)
  have hm : w % 4294967296 = w := Nat.mod_eq_of_lt hw
  simp [controlWrite, writeReady, writeHalf, ctrlAddr, hwin, hr, hx, wellSized_four h4, hm]

/-- An aligned 32-bit read of the manager answers with its register's value and leaves what the register's read leaves. -/
theorem controlRead_reg {a i j : Nat} {r : RegRow} {s : State} (hl : linkOpen s.dev = true) (hr : s.dev.start.ready = true)
    (ha : a < 0x01000000) (h4 : a % 4 = 0) (hx : reach a s.dev = .reg r i j) :
    controlRead 0xFF a 4 s =
      { (regRead r i j s).2 with dev := answer (.value (regRead r i j s).1) (regRead r i j s).2.dev } := by
  have hwin : hasWindow 0xFF a s.dev = true := hasWindow_manager hl (by omega)
  simp [controlRead, readReady, readHalf, ctrlAddr, hwin, hr, hx, wellSized_four h4]

/-- Settles O8: a plain register is written by `plainWrite` and read as it is stored. -/
theorem controlSpaceAccess : Obligations.ControlSpaceAccess := by
  intro s n i j r hn hrow hfind hready hl
  have hname := name_of_rowOf hrow
  obtain ⟨hport, hlog, hwrite, hword, hread⟩ := plainReg_effects hn
  obtain ⟨ha, h4⟩ := plainReg_addr hn (j := j) hrow (index_lt_of_at (findReg_at hfind).2).1
  have hreach : reach (addrOf n i j) s.dev = .reg r i j := reach_deviceReg ha hfind (by rw [hname]; exact hport)
  have hu := unheld_of_linkOpen hl
  refine ⟨fun w hw => ?_, ?_⟩
  · rw [exec_controlSpaceWrite hu, controlWrite_reg hl hready ha h4 hw hreach, hname, hwrite]
    simp only [plainWrite, taken, hrow, Option.map_some, Option.getD_some]
  · rw [exec_controlSpaceReadClear hu, controlRead_reg hl hready ha h4 hreach]
    simp only [regRead, hname, hword, hread r hname, decide_eq_false hlog, Bool.false_and, Bool.false_eq_true, if_false]
    split <;> rfl

end Sys2Proof.Machine
end

section
/-! SUPPORT. Doorbells (R18, R19, R204, R205, R213, R225): what a doorbell on a page reaches, what setting a producer limit leaves of the queues,
and what a return index returns. -/

namespace Sys2Proof.Machine

/-! ## A doorbell on its page (R19, R205) -/

section Page

variable {fn off n o : Nat} (ha : ctrlAddr fn off = 0x01000000 * (n + 1) + o) (hn : n < 64) (ho : o < 0x100000)
include ha hn ho

/-- A doorbell page takes a 64-bit write of its ACTIVE instance's current generation, and discards any other. -/
theorem doorbell_at (width data : Nat) (d : Dev) :
    doorbell fn off width data d =
      if width = 8 ∧ o % 8 = 0 ∧ instActive n d = true ∧ bitsOf data 47 32 = (instAt n d).gen then
        some (n, o / 4096, data % 65536, bitsOf data 31 16) else none := by
  have h1 : ctrlAddr fn off / 0x01000000 - 1 = n := by omega
  have h2 : ctrlAddr fn off % 0x01000000 = o := by omega
  have h3 : ctrlAddr fn off % 8 = o % 8 := by omega
  have h4 : 0x01000000 ≤ ctrlAddr fn off ∧ ctrlAddr fn off < 0x41000000 := by omega
  simp [doorbell, h1, h2, h3, h4, ho, and_assoc]

end Page

/-- At READY a doorbell that its page takes rings. -/
theorem ringing_some {fn off width data n page q p : Nat} {d : Dev} (hw : hasWindow fn off d = true) (hr : d.start.ready = true)
    (hd : doorbell fn off width data d = some (n, page, q, p)) (f : Nat → Nat → Nat → Nat → Dev → Dev) :
    ringing fn off width data f d = f n page q p d := by
  simp [ringing, hw, hr, hd]

/-- At READY a doorbell that its page discards, or that does nothing, changes nothing. -/
theorem ringing_ignored {fn off width data : Nat} {d : Dev} {f : Nat → Nat → Nat → Nat → Dev → Dev} (hr : d.start.ready = true)
    (h : ∀ n page q p, doorbell fn off width data d = some (n, page, q, p) → f n page q p d = d) :
    ringing fn off width data f d = d := by
  unfold ringing
  split
  · rfl
  · rw [if_neg (by simp [hr])]
    split
    · next hd => exact h _ _ _ _ hd
    · rfl

theorem wqDoorbell_foreign {n q : Nat} {d : Dev} (h : ∀ w, wqAt q d = some w → w.inst ≠ n) (page p : Nat) : wqDoorbell n page q p d = d := by
  unfold wqDoorbell
  split
  · next w hw => rw [if_neg (by simp [h w hw])]
  · rfl

theorem returnDoorbell_foreign {n r : Nat} {d : Dev} (h : ∀ c, crAt r d = some c → c.inst ≠ n) (page i : Nat) :
    returnDoorbell n page r i d = d := by
  unfold returnDoorbell
  split
  · next c hc => rw [if_neg (by simp [h c hc])]
  · rfl

theorem adminDoorbell_foreign {q : Nat} (h1 : q ≠ 0xFFFF) (h2 : q ≠ 0xFFFE) (n page p : Nat) (d : Dev) : adminDoorbell n page q p d = d := by
  simp [adminDoorbell, h1, h2]

/-- Settles O11: such a doorbell is discarded by its page, or by the command that it would ring. -/
theorem discardedDoorbells : Obligations.DiscardedDoorbells := by
  intro s fn off n o data width ha hn ho hr ht
  have hu : Unheld s.dev := .inr ht
  have ring : ∀ {f : Nat → Nat → Nat → Nat → Dev → Dev},
      (∀ m page q p, doorbell fn off width data s.dev = some (m, page, q, p) → f m page q p s.dev = s.dev) →
      Host.Outcome.next (φ := Fault) (ρ := Refusal) { s with dev := ringing fn off width data f s.dev } = .next s := fun h => by
    rw [ringing_ignored hr h]
  have hnone : width ≠ 8 ∨ bitsOf data 47 32 ≠ (instAt n s.dev).gen → doorbell fn off width data s.dev = none := fun h => by
    rw [doorbell_at ha hn ho, if_neg]
    rintro ⟨h8, -, -, hg⟩
    rcases h with h | h
    · exact h h8
    · exact h hg
  have hsome : ∀ {m page q p}, doorbell fn off width data s.dev = some (m, page, q, p) → m = n ∧ q = data % 65536 := fun h => by
    rw [doorbell_at ha hn ho] at h
    split at h <;> cases h
    exact ⟨rfl, rfl⟩
  refine ⟨fun h => ⟨?_, ?_, ?_⟩, fun h => ?_, fun h => ?_, fun h1 h2 => ?_⟩
  · rw [exec_wqDoorbell hu]; exact ring fun _ _ _ _ hd => by rw [hnone h] at hd; cases hd
  · rw [exec_returnDoorbell hu]; exact ring fun _ _ _ _ hd => by rw [hnone h] at hd; cases hd
  · rw [exec_adminDoorbell hu]; exact ring fun _ _ _ _ hd => by rw [hnone h] at hd; cases hd
  · rw [exec_wqDoorbell hu]
    exact ring fun m page q p hd => by obtain ⟨rfl, rfl⟩ := hsome hd; exact wqDoorbell_foreign h ..
  · rw [exec_returnDoorbell hu]
    exact ring fun m page q p hd => by obtain ⟨rfl, rfl⟩ := hsome hd; exact returnDoorbell_foreign h ..
  · rw [exec_adminDoorbell hu]
    exact ring fun m page q p hd => by obtain ⟨rfl, rfl⟩ := hsome hd; exact adminDoorbell_foreign h1 h2 ..

/-! ## What a read of an entry leaves of the queues (R204) -/

theorem wqAt_updWq_self (q : Nat) (f : WQ → WQ) (d : Dev) : wqAt q (updWq q f d) = (wqAt q d).map f := by simp [wqAt, updWq]

theorem wqAt_updWq_other {q k : Nat} (f : WQ → WQ) (d : Dev) (h : k ≠ q) : wqAt k (updWq q f d) = wqAt k d := by
  simp [wqAt, updWq, Tab.get_modify_other _ _ h]

/-- The indices P and C of queue `q` are as they were, and every other queue is as it was. -/
def KeepsIndices (q : Nat) (d e : Dev) : Prop :=
  (wqAt q e).map WQ.p = (wqAt q d).map WQ.p ∧ (wqAt q e).map WQ.c = (wqAt q d).map WQ.c ∧ ∀ k, k ≠ q → wqAt k e = wqAt k d

theorem KeepsIndices.of_queues {q : Nat} {d e : Dev} (h : e.q = d.q) : KeepsIndices q d e := by
  simp [KeepsIndices, wqAt, h]

theorem KeepsIndices.trans {q : Nat} {d e f : Dev} (h1 : KeepsIndices q d e) (h2 : KeepsIndices q e f) : KeepsIndices q d f :=
  ⟨h2.1.trans h1.1, h2.2.1.trans h1.2.1, fun k hk => (h2.2.2 k hk).trans (h1.2.2 k hk)⟩

theorem KeepsIndices.updWq {q : Nat} {f : WQ → WQ} (d : Dev) (hp : ∀ w, (f w).p = w.p := by intro; rfl) (hc : ∀ w, (f w).c = w.c := by intro; rfl) :
    KeepsIndices q d (updWq q f d) := by
  refine ⟨?_, ?_, fun k hk => wqAt_updWq_other f d hk⟩ <;>
    rw [wqAt_updWq_self, Option.map_map] <;> congr 1 <;> funext w
  · exact hp w
  · exact hc w

@[simp] theorem sendTx_q (t : LinkTx) (d : Dev) : (sendTx t d).q = d.q := by
  unfold sendTx
  dsimp only
  cases t.what with
  | access b id a store => cases store <;> rfl
  | _ => rfl

@[simp] theorem sendLink_q (t : LinkTx) (d : Dev) : (sendLink t d).q = d.q := by
  unfold sendLink
  split
  · rfl
  · exact sendTx_q ..

@[simp] theorem hostRead_q (fn a len : Nat) (why : ReadWhy) (d : Dev) : (hostRead fn a len why d).q = d.q := sendLink_q ..

@[simp] theorem noteCe_q (p : Place) (row sym : Nat) (d : Dev) : (noteCe p row sym d).q = d.q := by
  unfold noteCe
  dsimp only
  split <;> rfl

@[simp] theorem readsDev_q (ps : List (Nat × Nat)) (d : Dev) : (readsDev ps d).q = d.q := by
  have fold : ∀ (l : List (Place × Nat × Nat)) (d : Dev), (l.foldl (fun d s => noteCe s.1 s.2.1 s.2.2 d) d).q = d.q := by
    intro l
    induction l with
    | nil => exact fun _ => rfl
    | cons x l ih => exact fun d => (ih _).trans (noteCe_q ..)
  exact fold _ _

@[simp] theorem noteUe_q (p : Place) (src : Nat) (d : Dev) : (noteUe p src d).q = d.q := by
  unfold noteUe
  dsimp only
  cases p with
  | dev a => cases hbmAddr (.dev a) <;> split <;> simp [noteUePc]
  | _ => split <;> simp [hbmAddr]

theorem takeCopy_keeps (q idx : Nat) (l : List Byte) (d : Dev) : KeepsIndices q d (takeCopy q idx l d) := by
  unfold takeCopy
  split
  · exact .updWq d
  · exact .updWq d

/-- A read of a ring's entry leaves P and C of its queue, and every other queue. -/
theorem tryRead_keeps {q : Nat} {d : Dev} (h : ∀ w, wqAt q d = some w → w.feed ≠ 2) : KeepsIndices q d (tryRead q d) := by
  unfold tryRead
  split
  · exact .of_queues rfl
  · next w hw =>
    split
    · exact .of_queues rfl
    rw [if_neg (h w hw)]
    split
    · exact .of_queues rfl
    split
    · split
      · exact .trans (.updWq d) (.of_queues (hostRead_q ..))
      · exact .of_queues rfl
    split
    · exact .of_queues rfl
    split
    · exact .trans (.of_queues (readsDev_q ..)) (takeCopy_keeps ..)
    · exact .trans (.of_queues (noteUe_q ..)) (.updWq _)

/-- R204: a producer limit of a queue that is open sets P, and leaves C and every other queue. -/
theorem setProducer_wq {q p : Nat} {d : Dev} {w : WQ} (hw : wqAt q d = some w) (hf : w.feed ≠ 2) (hs : w.state ≠ 2) (hd : w.detached = false) :
    (wqAt q (setProducer q p d)).map WQ.p = some (p % 2 ^ w.log2) ∧ (wqAt q (setProducer q p d)).map WQ.c = some w.c ∧
    ∀ k, k ≠ q → wqAt k (setProducer q p d) = wqAt k d := by
  have heq : setProducer q p d =
      tryRead q (updWq q (fun w => { w with p := p % 2 ^ w.log2, stalled := false, again := w.reading }) d) := by
    simp [setProducer, hw, hs, hd]
  obtain ⟨h1, h2, h3⟩ := tryRead_keeps (q := q)
    (d := updWq q (fun w => { w with p := p % 2 ^ w.log2, stalled := false, again := w.reading }) d) (fun v hv => by
      rw [wqAt_updWq_self, hw] at hv
      cases hv
      exact hf)
  rw [heq, h1, h2, wqAt_updWq_self, hw]
  exact ⟨rfl, rfl, fun k hk => (h3 k hk).trans (wqAt_updWq_other _ _ hk)⟩

end Sys2Proof.Machine
end

section
/-! SUPPORT. What the work-queue, return and admin doorbells set (R204, R205, R213, R222), the return doorbell where the table of rings is in
canonical form; and a table that is not, on which O10's clause of the return doorbell fails. -/

namespace Sys2Proof.Machine

/-! ## Work-queue doorbells (R204) -/

/-- R18, R204: a work-queue doorbell sets the producer limit of the queue that it names. -/
theorem wqDoorbell_sets_producer {s : State} {fn off n o data : Nat} {w : WQ} (hwin : hasWindow fn off s.dev = true)
    (ha : ctrlAddr fn off = 0x01000000 * (n + 1) + o) (hn : n < 64) (hr : s.dev.start.ready = true) (h1 : 4096 ≤ o) (h2 : o < 0x80000)
    (h8 : o % 8 = 0) (hact : instActive n s.dev = true) (hgen : bitsOf data 47 32 = (instAt n s.dev).gen)
    (hw : wqAt (data % 65536) s.dev = some w) (hi : w.inst = n) (hf : w.feed = 0) (hp : w.page = o / 4096) (hs : w.state ≠ 2)
    (hd : w.detached = false) :
    ∃ e, exec (.wqDoorbell fn off 8 data) s = .next { s with dev := e } ∧
      (wqAt (data % 65536) e).map WQ.p = some (bitsOf data 31 16 % 2 ^ w.log2) ∧ (wqAt (data % 65536) e).map WQ.c = some w.c ∧
      ∀ q, q ≠ data % 65536 → wqAt q e = wqAt q s.dev := by
  refine ⟨setProducer (data % 65536) (bitsOf data 31 16) s.dev, ?_, setProducer_wq hw (by omega) hs hd⟩
  have hbell := doorbell_at ha hn (by omega) 8 data s.dev
  rw [if_pos ⟨rfl, h8, hact, hgen⟩] at hbell
  have hpage : 1 ≤ o / 4096 ∧ o / 4096 ≤ 127 := by omega
  rw [exec_wqDoorbell (unheld_of_hasWindow hwin), ringing_some hwin hr hbell]
  simp [wqDoorbell, hw, hi, hf, hp, hpage]

/-! ## Return doorbells (R213) -/

/-- In a table in canonical form only the entry under a key matters to a change under it. -/
theorem Tab.modify_congr {α : Type} {t : Tab α} (h : Tab.wf t = true) {k : Nat} {v : α} (hv : Tab.get t k = some v) {f g : α → α}
    (hfg : f v = g v) : Tab.modify t k f = Tab.modify t k g := by
  rw [Tab.wf_iff] at h
  refine List.map_congr_left fun p hp => ?_
  split
  · next hk =>
    have : p.2 = v := by
      induction t with
      | nil => cases hp
      | cons q t ih =>
        obtain ⟨hq, ht⟩ := List.pairwise_cons.mp h
        rcases List.mem_cons.mp hp with rfl | hp
        · simpa [Tab.get, hk] using hv
        · have hne : q.1 ≠ k := fun he => by have := hq p hp; omega
          exact ih ht (by simpa [Tab.get, hne] using hv) hp
    rw [this, hfg]
  · rfl

/-- R213: the return index moves to H where entries are returned, and stays where none is. -/
theorem return_index {z ret : Nat} (hret : ret < z) (written h : Nat) :
    (ret + returned z ret written h) % z = if returned z ret written h = 0 then ret else h % z := by
  have hh : h % z < z := Nat.mod_lt _ (by omega)
  have hmove : (ret + (h % z + z - ret) % z) % z = h % z := by
    rw [Nat.add_mod_mod, show ret + (h % z + z - ret) = h % z + z by omega, Nat.add_mod_right, Nat.mod_eq_of_lt hh]
  unfold returned
  dsimp only
  split
  · next h0 =>
    rw [h0, Nat.add_zero, Nat.mod_eq_of_lt hret] at hmove
    rw [← hmove, ite_self]
    split
    · rw [Nat.add_mod_right, Nat.mod_eq_of_lt hret]
    · rw [Nat.add_zero, Nat.mod_eq_of_lt hret]
  · next h0 =>
    split
    · exact hmove
    · rw [if_pos rfl, Nat.add_zero, Nat.mod_eq_of_lt hret]

/-- A ring to which `k` entries are returned, with its return index. -/
def CR.returning (c : CR) (k ret : Nat) : CR := { c with written := c.written - k, ret := ret }

/-- R213: a return doorbell of a ring, where the rings stand in canonical form. -/
theorem returnDoorbell_of_wf {s : State} {fn off n o data : Nat} {c : CR} (hwf : Tab.wf s.dev.q.crs = true)
    (hwin : hasWindow fn off s.dev = true) (ha : ctrlAddr fn off = 0x01000000 * (n + 1) + o) (hn : n < 64) (hr : s.dev.start.ready = true)
    (h1 : 0x80000 ≤ o) (h2 : o < 0x100000) (h8 : o % 8 = 0) (hact : instActive n s.dev = true)
    (hgen : bitsOf data 47 32 = (instAt n s.dev).gen) (hc : crAt (data % 65536) s.dev = some c) (hi : c.inst = n) (hp : c.page = o / 4096)
    (hd : c.detached = false) (hret : c.ret < 2 ^ c.log2) :
    let k := returned (2 ^ c.log2) c.ret c.written (bitsOf data 31 16)
    let i := if k = 0 then c.ret else bitsOf data 31 16 % 2 ^ c.log2
    exec (.returnDoorbell fn off 8 data) s = .next { s with dev := updCr (data % 65536) (fun r => r.returning k i) s.dev } := by
  intro k i
  have hbell := doorbell_at ha hn h2 8 data s.dev
  rw [if_pos ⟨rfl, h8, hact, hgen⟩] at hbell
  have hpage : 128 ≤ o / 4096 ∧ o / 4096 ≤ 255 := by omega
  rw [exec_returnDoorbell (unheld_of_hasWindow hwin), ringing_some hwin hr hbell]
  have hcrs : Tab.modify s.dev.q.crs (data % 65536) (fun r => r.returning k ((r.ret + k) % 2 ^ r.log2)) =
      Tab.modify s.dev.q.crs (data % 65536) (fun r => r.returning k i) :=
    Tab.modify_congr hwf hc (by rw [return_index hret])
  simp only [returnDoorbell, hc, hpage, hi, hp, hd, decide_true, Bool.not_false, Bool.and_self, if_true, updCr]
  exact congrArg (fun t => Host.Outcome.next { s with dev := { s.dev with q := { s.dev.q with crs := t } } }) hcrs

/-! ## The admin doorbell (R205, R222) -/

@[simp] theorem adminAt_updAdmin (n : Nat) (f : Admin → Admin) (d : Dev) : adminAt n (updAdmin n f d) = f (adminAt n d) := by
  simp [adminAt, updAdmin, Tab.getD]

theorem writeNotices_none {n fuel : Nat} {d : Dev} (h : (adminAt n d).notices = []) : writeNotices n fuel d = d := by
  cases fuel with
  | zero => rfl
  | succ fuel => rw [writeNotices, h]

/-- A read of an admin entry changes nothing of the queue but that it is being read. -/
theorem tryAdmin_indices (n : Nat) (d : Dev) : (adminAt n (tryAdmin n d)).p = (adminAt n d).p ∧ (adminAt n (tryAdmin n d)).c = (adminAt n d).c := by
  unfold tryAdmin
  dsimp only
  split
  · exact ⟨rfl, rfl⟩
  · have hq : ∀ e : Dev, adminAt n (hostRead 0xFF (adminAddr n false d + 64 * (adminAt n d).c) 64 (.adminEntry n (adminAt n d).c) e) = adminAt n e :=
      fun e => by simp only [adminAt, hostRead_q]
    rw [hq, adminAt_updAdmin]
    exact ⟨rfl, rfl⟩

/-- A read of host memory that no retrain holds waits for its answer. -/
theorem hostRead_reads {d : Dev} (h : d.link.retrain = false) (fn a len : Nat) (why : ReadWhy) :
    Tab.get (hostRead fn a len why d).link.reads d.link.nextRead = some ⟨fn, a, len, why, clock iodie d⟩ := by
  simp [hostRead, sendLink, sendTx, h]

/-- R205: an admin doorbell with QUEUE 0xFFFF. -/
theorem adminDoorbell_sets_producer (n p : Nat) {d : Dev} (hon : adminOn n d = true) (hact : instActive n d = true)
    (hl : linkOpen d = true) :
    let e := adminDoorbell n 0 0xFFFF p d
    (adminAt n e).p = p % (adminSizes n d).1 ∧ (adminAt n e).c = (adminAt n d).c ∧
    ((adminAt n d).head = none → (adminAt n d).reading = false → (adminAt n d).wait = none →
      (adminAt n e).reading = true ∧ Tab.get e.link.reads d.link.nextRead =
        some ⟨0xFF, adminAddr n false d + 64 * (adminAt n d).c, 64, .adminEntry n (adminAt n d).c, clock iodie d⟩) := by
  intro e
  obtain ⟨hup, hlost, ht⟩ := linkOpen_iff.mp hl
  have he : e = tryAdmin n (updAdmin n (fun a => { a with p := p % (adminSizes n d).1, stalled := false, again := a.reading && a.head.isNone }) d) := by
    simp [e, adminDoorbell, hon]
  obtain ⟨hp, hc⟩ := tryAdmin_indices n (updAdmin n (fun a =>
    { a with p := p % (adminSizes n d).1, stalled := false, again := a.reading && a.head.isNone }) d)
  rw [← he, adminAt_updAdmin] at hp hc
  refine ⟨hp, hc, fun hh hrd hw => ?_⟩
  have hgo : e = hostRead 0xFF (adminAddr n false d + 64 * (adminAt n d).c) 64 (.adminEntry n (adminAt n d).c)
      (updAdmin n (fun a => { a with reading := true })
        (updAdmin n (fun a => { a with p := p % (adminSizes n d).1, stalled := false, again := a.reading && a.head.isNone }) d)) := by
    have hopen : hostOpen d = true := by simp [hostOpen, hup, hlost]
    have hcond : ∀ f, adminOn n (updAdmin n f d) = true ∧ instActive n (updAdmin n f d) = true ∧ hostOpen (updAdmin n f d) = true :=
      fun _ => ⟨hon, hact, hopen⟩
    rw [he, tryAdmin]
    simp only [adminAt_updAdmin, hh, hrd, hw, hcond]
    rfl
  rw [hgo]
  refine ⟨?_, hostRead_reads (d := updAdmin _ _ (updAdmin _ _ d)) ht 0xFF _ 64 _⟩
  rw [adminAt, hostRead_q, ← adminAt, adminAt_updAdmin]

/-- R205: an admin doorbell with QUEUE 0xFFFE, where no notice waits. -/
theorem adminDoorbell_returns (n h : Nat) {d : Dev} (hon : adminOn n d = true) (hno : (adminAt n d).notices = []) :
    let a := adminAt n d
    let k := returned (adminSizes n d).2 a.ret a.written h
    adminDoorbell n 0 0xFFFE h d =
      updAdmin n (fun a => { a with written := a.written - k, ret := (a.ret + k) % (adminSizes n d).2 }) d := by
  intro a k
  have hk : ∀ f : Admin → Admin, (f a).notices = a.notices → writeNotices n 2 (updAdmin n f d) = updAdmin n f d :=
    fun f hf => writeNotices_none (by rw [adminAt_updAdmin, hf, hno])
  simpa [adminDoorbell, hon] using hk (fun a => { a with written := a.written - k, ret := (a.ret + k) % (adminSizes n d).2 }) rfl

/-! ## A table that holds one ring twice -/

/-- A completion ring of instance 0 on page 129 with 3 entries written, whose return index is `ret`. -/
def ringAt (ret : Nat) : CR :=
  { inst := 0, log2 := 6, loc := 0, vector := 1, page := 129, modCount := 0, modUs := 0, ring := 0x20000, lda := 0, ctx := 0, wr := 3, ret := ret,
    written := 3, held := 0, unseen := 0, oldest := 0, counter := 0, detached := false }

/-- The module at READY over an open link, with instance 0 ACTIVE at generation 7 and ring 3 entered twice, at return indices 0 and 1. -/
def ringTwice : State :=
  { State.reset with
    dev := { Dev.reset with
      start := { Startup.reset with ready := true }
      link := { Link.reset with up := true }
      insts := [(0, { state := 1, gen := 7, lastGen := 7, bricks := [0], node := 1, leaf0 := 0, leaves := 64, shareDue := false, started := 0 })]
      q := { Queues.reset with crs := [(3, ringAt 0), (3, ringAt 1)] } } }

/-- The doorbell that returns two entries of ring 3: QUEUE 3, PRODUCER 2, GENERATION 7. -/
def returnsTwo : Nat := 3 + 2 * 2 ^ 16 + 7 * 2 ^ 32

/-- The doorbell moves each entry under the ring's number on by two, from where it stands. -/
theorem ringTwice_after : ringing 0 0x81000 8 returnsTwo returnDoorbell ringTwice.dev =
    { ringTwice.dev with q := { ringTwice.dev.q with crs :=
      [(3, { ringAt 0 with written := 1, ret := 2 }), (3, { ringAt 1 with written := 1, ret := 3 })] } } := rfl

/-- Refutes O10: the statement is of every table of rings, and in one that holds a ring twice, which is not in the canonical form `Tab.wf`, the
second entry moves to another index than H. Where the rings stand in canonical form a return doorbell does what the statement says
(`returnDoorbell_of_wf`), and the other doorbells do so on any state (`wqDoorbell_sets_producer`, `adminDoorbell_sets_producer`,
`adminDoorbell_returns`). -/
theorem not_doorbells : ¬ Obligations.Doorbells := by
  rintro ⟨-, hret, -⟩
  have hwin : hasWindow 0 0x81000 ringTwice.dev = true := by decide +kernel
  have h := (hret ringTwice 0 0x81000 0 0x81000 returnsTwo (ringAt 0) hwin rfl (by decide) (by decide +kernel) (by decide) (by decide) (by decide)
    (by decide +kernel) (by decide +kernel) (by decide +kernel) rfl rfl rfl (by decide)).1 (by decide +kernel) (by decide +kernel)
  rw [exec_returnDoorbell (unheld_of_hasWindow hwin), ringTwice_after] at h
  have hcrs := congrArg (fun s : State => s.dev.q.crs) (Host.Outcome.next.inj h)
  exact absurd hcrs (by decide +kernel)

end Sys2Proof.Machine
end

section
/-! SUPPORT. Ports and their receive buffers: what each operation of the MAC leaves of a port's record, its buffers and the registers (R344 to
R349), and that frames that are gathered touch no receive buffer. -/

namespace Sys2Proof.Machine

/-! ## A port's record -/

@[simp] theorem portAt_updPort_self (p : Nat) (f : Port → Port) (d : Dev) : portAt p (updPort p f d) = f (portAt p d) := by
  simp [portAt, updPort, Tab.getD]

theorem portAt_updPort_other {p q : Nat} (f : Port → Port) (d : Dev) (h : q ≠ p) : portAt q (updPort p f d) = portAt q d := by
  simp [portAt, updPort, Tab.getD, Tab.get_set_other _ _ h]

@[simp] theorem updPort_regs (p : Nat) (f : Port → Port) (d : Dev) : (updPort p f d).regs = d.regs := rfl
@[simp] theorem updPort_out (p : Nat) (f : Port → Port) (d : Dev) : (updPort p f d).out = d.out := rfl
@[simp] theorem updBuf_regs (p k : Nat) (f : RxBuf → RxBuf) (d : Dev) : (updBuf p k f d).regs = d.regs := rfl
@[simp] theorem updBuf_out (p k : Nat) (f : RxBuf → RxBuf) (d : Dev) : (updBuf p k f d).out = d.out := rfl
@[simp] theorem countPort_regs (p i n : Nat) (d : Dev) : (countPort p i n d).regs = d.regs := rfl
@[simp] theorem countPort_out (p i n : Nat) (d : Dev) : (countPort p i n d).out = d.out := rfl

/-! ## Receive buffers -/

/-- A buffer hangs on its port's buffers and the registers alone. -/
theorem bufAt_congr {p : Nat} {d e : Dev} (hb : (portAt p e).bufs = (portAt p d).bufs) (hr : e.regs = d.regs) (k : Nat) :
    bufAt p k e = bufAt p k d := by
  simp only [bufAt, bufSize, hb, getF_congr hr]

@[simp] theorem bufAt_emit (p k : Nat) (o : Out) (d : Dev) : bufAt p k (emit o d) = bufAt p k d := rfl

@[simp] theorem bufAt_countPort (p k i n : Nat) (d : Dev) : bufAt p k (countPort p i n d) = bufAt p k d :=
  bufAt_congr (d := d) (e := countPort p i n d) (by rw [countPort, portAt_updPort_self]) rfl k

@[simp] theorem bufAt_updBuf_self (p k : Nat) (f : RxBuf → RxBuf) (d : Dev) : bufAt p k (updBuf p k f d) = f (bufAt p k d) := by
  rw [bufAt, updBuf]
  simp [Tab.getD]

theorem bufAt_updBuf_other {p k j : Nat} (f : RxBuf → RxBuf) (d : Dev) (h : j ≠ k) : bufAt p j (updBuf p k f d) = bufAt p j d := by
  simp only [bufAt, bufSize, updBuf, portAt_updPort_self, Tab.getD, Tab.get_set_other _ _ h]
  rfl

/-- A buffer that a frame has entered keeps its SIZE whatever the registers become. -/
theorem bufAt_setW_updBuf (p k : Nat) (f : RxBuf → RxBuf) (n : RegName) (i j w : Nat) (d : Dev) :
    bufAt p k (setW n i j w (updBuf p k f d)) = f (bufAt p k d) := by
  have hb : Tab.get (portAt p (setW n i j w (updBuf p k f d))).bufs k = some (f (bufAt p k d)) := by
    change Tab.get (portAt p (updBuf p k f d)).bufs k = _
    simp [updBuf]
  rw [bufAt, Tab.getD, hb, Option.getD_some]

/-! ## XOFF and release (R346): one port's record and what is sent out -/

/-- The first part of `settleXoff`: since when the fill stands at HIGH, and whether the guard's release ends. -/
def noteFill (p k : Nat) (d : Dev) : Dev :=
  updBuf p k (fun b =>
    { b with
      highAt := if highOf p k d ≤ b.fill then (if b.highAt.isSome then b.highAt else some (clock (fdie (p / 16)) d)) else none,
      guarded := b.guarded && decide (lowOf p k d ≤ b.fill) }) d

/-- The second part of `settleXoff`: XOFF or release follows from the fill. -/
def judgeFill (p k : Nat) (d : Dev) : Dev :=
  if keySends p k d then
    if !(bufAt p k d).xoff && !(bufAt p k d).guarded && highOf p k d ≤ (bufAt p k d).fill then setXoff p k true d
    else if (bufAt p k d).xoff && (bufAt p k d).fill < lowOf p k d then setXoff p k false d
    else d
  else if keySends p 8 d then
    if !(bufAt p 8 d).xoff && anyHigh p d then setXoff p 8 true d
    else if (bufAt p 8 d).xoff && allLow p d then setXoff p 8 false d
    else d
  else d

theorem settleXoff_eq (p k : Nat) (d : Dev) : settleXoff p k d = judgeFill p k (noteFill p k d) := rfl

/-- The frames that each buffer of port `p` holds, and the SIZEs in force, are as they were; nothing changed but that port's record and what
was sent out. -/
structure PortStep (p : Nat) (d e : Dev) : Prop where
  rest   : e = { d with net := { d.net with ports := e.net.ports }, out := e.out }
  others : ∀ q, q ≠ p → portAt q e = portAt q d
  bufs   : ∀ k, (bufAt p k e).frames = (bufAt p k d).frames ∧ (bufAt p k e).size = (bufAt p k d).size

namespace PortStep

variable {p : Nat} {d e f : Dev}

theorem regs (h : PortStep p d e) : e.regs = d.regs := by rw [h.rest]

theorem tiers (h : PortStep p d e) : e.tiers = d.tiers := by rw [h.rest]

theorem refl (p : Nat) (d : Dev) : PortStep p d d := ⟨rfl, fun _ _ => rfl, fun _ => ⟨rfl, rfl⟩⟩

theorem trans (h1 : PortStep p d e) (h2 : PortStep p e f) : PortStep p d f := by
  refine ⟨?_, fun q hq => (h2.others q hq).trans (h1.others q hq), fun k =>
    ⟨(h2.bufs k).1.trans (h1.bufs k).1, (h2.bufs k).2.trans (h1.bufs k).2⟩⟩
  rw [h2.rest, h1.rest]

theorem updPort {g : Port → Port} (d : Dev) (hg : ∀ r, (g r).bufs = r.bufs := by intro; rfl) : PortStep p d (updPort p g d) := by
  refine ⟨rfl, fun q hq => portAt_updPort_other g d hq, fun k => ?_⟩
  have h : bufAt p k (Machine.updPort p g d) = bufAt p k d := bufAt_congr (p := p) (d := d) (e := Machine.updPort p g d) (by rw [portAt_updPort_self, hg]) rfl k
  rw [h]
  exact ⟨rfl, rfl⟩

theorem updBuf {g : RxBuf → RxBuf} (k : Nat) (d : Dev) (hf : ∀ b, (g b).frames = b.frames := by intro; rfl)
    (hs : ∀ b, (g b).size = b.size := by intro; rfl) : PortStep p d (updBuf p k g d) := by
  refine ⟨rfl, fun q hq => portAt_updPort_other _ d hq, fun j => ?_⟩
  by_cases hj : j = k
  · subst hj; rw [bufAt_updBuf_self, hf, hs]; exact ⟨rfl, rfl⟩
  · rw [bufAt_updBuf_other _ _ hj]; exact ⟨rfl, rfl⟩

theorem countPort (p i n : Nat) (d : Dev) : PortStep p d (countPort p i n d) := updPort d

theorem pauseKey (p k q : Nat) (d : Dev) : PortStep p d (pauseKey p k q d) := by
  unfold Machine.pauseKey
  exact updPort d

theorem emit (p : Nat) (o : Out) (d : Dev) : PortStep p d (emit o d) := ⟨rfl, fun _ _ => rfl, fun _ => ⟨rfl, rfl⟩⟩

theorem sendXoff (p k q : Nat) (d : Dev) : PortStep p d (sendXoff p k q d) := by
  unfold Machine.sendXoff
  split
  · exact refl p d
  · dsimp only
    split
    · exact (countPort p 6 1 d).trans ((countPort p 5 1 _).trans (pauseKey ..))
    · exact (countPort p 6 1 d).trans (emit ..)

theorem setXoff (p k : Nat) (on : Bool) (d : Dev) : PortStep p d (setXoff p k on d) := by
  unfold Machine.setXoff
  split
  · exact (updBuf k d).trans (sendXoff ..)
  · split
    · exact (updBuf k d).trans (sendXoff ..)
    · exact refl p d

theorem judgeFill (p k : Nat) (d : Dev) : PortStep p d (judgeFill p k d) := by
  unfold Machine.judgeFill
  split
  · split
    · exact setXoff ..
    · split
      · exact setXoff ..
      · exact refl p d
  · split
    · split
      · exact setXoff ..
      · split
        · exact setXoff ..
        · exact refl p d
    · exact refl p d

theorem settleXoff (p k : Nat) (d : Dev) : PortStep p d (settleXoff p k d) := by
  rw [settleXoff_eq]
  exact (updBuf k d).trans (judgeFill ..)

end PortStep

end Sys2Proof.Machine
end

section
/-! SUPPORT. Frames received, watermark writes and SIZE changes (R17, R334, R337, R344, R345, R349). -/

namespace Sys2Proof.Machine

/-! ## Frames that are gathered touch no receive buffer and no register (R355, R349) -/

/-- The registers and every port's receive buffers are as they were. -/
structure EgressStep (d e : Dev) : Prop where
  regs : e.regs = d.regs
  bufs : ∀ p, (portAt p e).bufs = (portAt p d).bufs

namespace EgressStep

variable {d e f : Dev}

theorem refl (d : Dev) : EgressStep d d := ⟨rfl, fun _ => rfl⟩

theorem trans (h1 : EgressStep d e) (h2 : EgressStep e f) : EgressStep d f :=
  ⟨h2.regs.trans h1.regs, fun p => (h2.bufs p).trans (h1.bufs p)⟩

theorem of_ports (hr : e.regs = d.regs) (hp : e.net.ports = d.net.ports) : EgressStep d e := ⟨hr, fun p => by rw [portAt, hp]; rfl⟩

theorem updPort (p : Nat) {g : Port → Port} (d : Dev) (hg : ∀ r, (g r).bufs = r.bufs) : EgressStep d (updPort p g d) := by
  refine ⟨rfl, fun q => ?_⟩
  by_cases h : q = p
  · subst h; rw [portAt_updPort_self, hg]
  · rw [portAt_updPort_other g d h]

theorem enterLeaf (p : Nat) (x : Frame) (d : Dev) : EgressStep d (enterLeaf p x d) := by
  unfold Machine.enterLeaf
  exact updPort p d fun _ => rfl

theorem enterPort (p : Nat) (x : Frame) (d : Dev) : EgressStep d (enterPort p x d) := by
  unfold Machine.enterPort
  dsimp only
  split
  · exact updPort p d fun _ => rfl
  · exact enterLeaf ..

theorem placeFrame (i : Nat) (x : Frame) (d : Dev) : EgressStep d (placeFrame i x d) := by
  unfold Machine.placeFrame
  split
  · refine trans ?_ (enterPort ..)
    exact of_ports rfl rfl
  · exact of_ports rfl rfl

theorem sendFrame (i : Nat) (x : Frame) (d : Dev) : EgressStep d (sendFrame i x d) := by
  unfold Machine.sendFrame
  split
  · exact of_ports rfl rfl
  · exact placeFrame ..

theorem gather (d : Dev) : EgressStep d (gather d) := by
  have fold : ∀ (l : List (Nat × Frame)) (d : Dev), EgressStep d (each l (fun x d => Machine.sendFrame x.1 x.2 d) d) := by
    intro l
    induction l with
    | nil => exact refl
    | cons x l ih => exact fun d => (sendFrame x.1 x.2 d).trans (ih _)
  unfold Machine.gather
  split
  · exact refl d
  · refine trans ?_ (fold ..)
    exact of_ports rfl rfl

theorem bufAt (h : EgressStep d e) (p k : Nat) : bufAt p k e = bufAt p k d := bufAt_congr (h.bufs p) h.regs k

end EgressStep

/-! ## A new SIZE (R349) -/

theorem sizeTakes_regs (p k : Nat) (d : Dev) : (sizeTakes p k d).regs = d.regs := by
  unfold sizeTakes
  split
  · exact (EgressStep.gather _).regs
  · rfl

/-- A new SIZE takes effect when its buffer is empty, and waits otherwise. -/
theorem bufAt_sizeTakes (p k : Nat) (d : Dev) :
    bufAt p k (sizeTakes p k d) =
      if (bufAt p k d).frames = [] then { bufAt p k d with size := getF .prioBuf p k 23 16 d } else bufAt p k d := by
  unfold sizeTakes
  by_cases h : (bufAt p k d).frames = []
  · rw [if_pos h, if_pos (by rw [h]; rfl), (EgressStep.gather _).bufAt, bufAt_updBuf_self]
  · rw [if_neg h, if_neg (by simpa using h)]

theorem lt_of_portExists {p : Nat} {d : Dev} (h : portExists p d = true) : p < 32 := by
  simp only [portExists, Bool.and_eq_true, decide_eq_true_eq] at h
  exact h.1

theorem exec_bufferSizeTakesEffect {s : State} {p k : Nat} (h : portExists p s.dev = true) (hk : k < 8) :
    exec (.bufferSizeTakesEffect p k) s = .next { s with dev := sizeTakes p k s.dev } := by
  change execBufferSizeTakesEffect p k s = _
  simp [execBufferSizeTakesEffect, h, hk]

/-! ## Writes to a port's block (R17, R334, R349) -/

section PortWrites

variable {s : State} {p : Nat} (hp : p < 32) (hr : s.dev.start.ready = true) (hl : linkOpen s.dev = true)
include hp hr hl

theorem exec_prioBufWrite {k : Nat} (hk : k < 8) (data : Nat) :
    exec (.prioBufWrite p k data) s = .next { s with
      dev := if portExists p s.dev then prioBufWrite p k data s.dev else countErr 3 0xFF (addrOf .prioBuf p k) 4 true s.dev } := by
  change execPrioBufWrite p k data s = _
  rw [execPrioBufWrite, overLink_unheld (unheld_of_linkOpen hl), if_pos ⟨hp, hk⟩]
  simp [portWrite, managerWrite, hr, hl]

theorem exec_portCtrlWrite (data : Nat) :
    exec (.portCtrlWrite p data) s = .next { s with
      dev := if portExists p s.dev then portCtrlWrite p data s.dev else countErr 3 0xFF (addrOf .portCtrl p 0) 4 true s.dev } := by
  change execPortCtrlWrite p data s = _
  rw [execPortCtrlWrite, overLink_unheld (unheld_of_linkOpen hl), if_pos hp]
  simp [portWrite, managerWrite, hr, hl]

end PortWrites

/-- R349: the rules that a watermark write may break. -/
def BadMarks (p k data : Nat) (d : Dev) : Prop :=
  bitsOf data 15 8 ≤ bitsOf data 7 0 ∨ bitsOf data 23 16 < bitsOf data 15 8 ∨
    (getF .prioBuf p k 23 16 d < bitsOf data 23 16 ∧ 4096 < sizeSum (p / 16) d - getF .prioBuf p k 23 16 d + bitsOf data 23 16)

theorem prioBufWrite_bad {p k data : Nat} {d : Dev} (h : BadMarks p k data d) : prioBufWrite p k data d = setBit .portStatus p 0 4 d :=
  if_pos h

/-- The device on which a good watermark write stands in the register and its buffer is settled. -/
def marksWritten (p k data : Nat) (d : Dev) : Dev :=
  setW .prioBuf p k (withBits (getW .prioBuf p k d) 23 0 (data % 2 ^ 24)) (updBuf p k id d)

theorem prioBufWrite_good {p k data : Nat} {d : Dev} (h : ¬BadMarks p k data d) :
    prioBufWrite p k data d = settleXoff p k (sizeTakes p k (marksWritten p k data d)) := if_neg h

theorem bitsOf_size_of_marks (w data : Nat) : bitsOf (withBits w 23 0 (data % 2 ^ 24)) 23 16 = bitsOf data 23 16 := by
  simp only [bitsOf, withBits, Nat.shiftRight_eq_div_pow]
  omega

/-- R349: a good watermark write holds at once; a SIZE holds once its buffer is empty. -/
theorem prioBufWrite_good_effect {p k data : Nat} {d : Dev} (h : ¬BadMarks p k data d) :
    let t := prioBufWrite p k data d
    getF .prioBuf p k 23 0 t = data % 2 ^ 24 ∧ (bufAt p k t).frames = (bufAt p k d).frames ∧
    ((bufAt p k d).frames = [] → (bufAt p k t).size = bitsOf data 23 16) ∧
    ((bufAt p k d).frames ≠ [] → (bufAt p k t).size = (bufAt p k d).size) ∧ Safety.SameRegs [addrOf .prioBuf p k] d t := by
  intro t
  have hstep : PortStep p (sizeTakes p k (marksWritten p k data d)) t := by
    rw [show t = _ from prioBufWrite_good h]; exact .settleXoff ..
  have hregs : t.regs = (marksWritten p k data d).regs := hstep.regs.trans (sizeTakes_regs ..)
  have hw : getW .prioBuf p k (marksWritten p k data d) = withBits (getW .prioBuf p k d) 23 0 (data % 2 ^ 24) := by
    rw [marksWritten, getW_setW_self, Nat.mod_eq_of_lt (withBits_lt (getW_lt ..) (by decide) (by decide))]
  have hb : bufAt p k (marksWritten p k data d) = bufAt p k d := bufAt_setW_updBuf ..
  have hsize : getF .prioBuf p k 23 16 (marksWritten p k data d) = bitsOf data 23 16 := by rw [getF, hw, bitsOf_size_of_marks]
  obtain ⟨hf, hz⟩ := hstep.bufs k
  rw [bufAt_sizeTakes, hb, hsize] at hf hz
  refine ⟨?_, ?_, fun h0 => ?_, fun h0 => ?_, fun a ha => ?_⟩
  · rw [getF_congr hregs, getF, hw, bitsOf_withBits_self _ _ (by decide)]
    omega
  · rw [hf]; split <;> rfl
  · rw [hz, if_pos h0]
  · rw [hz, if_neg h0]
  · rw [hregs]
    exact Tab.get_set_other _ _ (by simpa using ha)

/-! ## HIGH_SER (R337, R351) -/

theorem highSer_effect {p : Nat} {d : Dev} (h : portExists p d = true) (unc : Bool) :
    let t := highSer p unc d
    getF .portStatus p 0 2 2 t = 1 ∧ Safety.SameRegs [addrOf .portStatus p 0] d t ∧
    (unc = true → Tab.getD (portAt p t).hw 8 0 = min 63 (Tab.getD (portAt p d).hw 8 0 + 1)) ∧ (unc = false → t.net = d.net) := by
  intro t
  have ht : t = logEv (8 + p / 16) 2 0x06 1 (netData (p / 4) 0 0 0 p) (setBit .portStatus p 0 2 (when_ unc (countPort p 8 1) d)) :=
    if_pos h
  have hregs : t.regs = (setBit .portStatus p 0 2 (when_ unc (countPort p 8 1) d)).regs := by rw [ht, logEv_regs]
  have hnet : t.net = (when_ unc (countPort p 8 1) d).net := by rw [ht, logEv_net, setBit_net]
  have hwhen : (when_ unc (countPort p 8 1) d).regs = d.regs := by cases unc <;> rfl
  refine ⟨?_, fun a ha => ?_, ?_, ?_⟩
  · rw [getF_congr hregs, setBit, getF_setF_self _ (by decide) (by decide)]
    rfl
  · rw [hregs, ← hwhen]
    exact Tab.get_set_other _ _ (by simpa using ha)
  · rintro rfl
    have hp : portAt p t = portAt p (countPort p 8 1 d) := by rw [portAt, hnet]; rfl
    rw [hp, countPort, portAt_updPort_self]
    simp [Tab.getD]
  · rintro rfl
    exact hnet

end Sys2Proof.Machine
end

section
/-! SUPPORT. Frames received (R337, R344 to R347): the checks of a received frame, and what an honoured pause and a buffered frame leave. -/

namespace Sys2Proof.Machine

/-! ## XOFF when a frame enters (R346) -/

/-- A port in mode 1 sends XOFF for a priority that FLOW_CTRL names. -/
theorem keySends_of_pfc {p k : Nat} {d : Dev} (hk : k < 8) (hm : flowMode p d = 1) (hb : bitOf (getF .flowCtrl p 0 23 16 d) k = true) :
    keySends p k d = true := by
  rw [keySends, if_neg (by omega)]
  simp [sendsPause, hm, hb]

/-- What a port may send does not hang on its receive buffers. -/
theorem portSends_updBuf (p k : Nat) (f : RxBuf → RxBuf) (d : Dev) : portSends p (updBuf p k f d) = portSends p d := by
  have h : linkUp p (updBuf p k f d) = linkUp p d := by rw [linkUp, updBuf, portAt_updPort_self]; rfl
  rw [portSends, h]
  rfl

/-- XOFF goes out on the fibre of a port that is up, enabled and not in loopback. -/
theorem setXoff_true {p k : Nat} {d : Dev} (hs : portSends p d = true) (hl : looped p d = false) :
    (setXoff p k true d).out = d.out ++ [.xoff p k (quantaOf p d)] ∧ (bufAt p k (setXoff p k true d)).xoff = true := by
  have hs' := fun f => (portSends_updBuf p k f d).trans hs
  have hl' : ∀ f, looped p (updBuf p k f d) = false := fun _ => hl
  have heq : setXoff p k true d = emit (.xoff p k (quantaOf p d)) (countPort p 6 1
      (updBuf p k (fun b => { b with xoff := true, repAt := clock (fdie (p / 16)) d + quantaTicks p (quantaOf p d) d / 2 }) d)) := by
    simp [setXoff, sendXoff, hs, hs', hl']
  rw [heq]
  refine ⟨rfl, ?_⟩
  rw [bufAt_emit, bufAt_countPort, bufAt_updBuf_self]

section Settle

variable {p k : Nat} {d : Dev} (hk : keySends p k d = true) (hx : (bufAt p k d).xoff = false) (hg : (bufAt p k d).guarded = false)
include hk hx hg

/-- A buffer that reaches HIGH sets XOFF out, where its port sends. -/
theorem settleXoff_high (hs : portSends p d = true) (hl : looped p d = false) (hh : highOf p k d ≤ (bufAt p k d).fill) :
    (settleXoff p k d).out = d.out ++ [.xoff p k (quantaOf p d)] ∧ (bufAt p k (settleXoff p k d)).xoff = true := by
  have hb : bufAt p k (noteFill p k d) = _ := bufAt_updBuf_self p k _ d
  have hk' : keySends p k (noteFill p k d) = true := hk
  have heq : settleXoff p k d = setXoff p k true (noteFill p k d) := by
    have hx' : (bufAt p k (noteFill p k d)).xoff = false := by rw [hb]; exact hx
    have hg' : (bufAt p k (noteFill p k d)).guarded = false := by rw [hb]; simp [hg]
    have hh' : highOf p k (noteFill p k d) ≤ (bufAt p k (noteFill p k d)).fill := by rw [hb]; exact hh
    rw [settleXoff_eq, judgeFill, if_pos hk', if_pos (by simp [hx', hg', hh'])]
  rw [heq]
  exact setXoff_true ((portSends_updBuf ..).trans hs) hl

omit hg in
/-- A buffer that stays below HIGH sets nothing out. -/
theorem settleXoff_low (hh : (bufAt p k d).fill < highOf p k d) :
    (settleXoff p k d).out = d.out ∧ (bufAt p k (settleXoff p k d)).xoff = false := by
  have hb : bufAt p k (noteFill p k d) = _ := bufAt_updBuf_self p k _ d
  have hk' : keySends p k (noteFill p k d) = true := hk
  have hh' : ¬highOf p k (noteFill p k d) ≤ (bufAt p k (noteFill p k d)).fill := by
    rw [hb]; exact Nat.not_le.mpr hh
  have hx' : (bufAt p k (noteFill p k d)).xoff = false := by rw [hb]; exact hx
  have heq : settleXoff p k d = noteFill p k d := by
    rw [settleXoff_eq, judgeFill, if_pos hk', if_neg (by simp [hh']), if_neg (by simp [hx'])]
  rw [heq]
  exact ⟨rfl, hx'⟩

end Settle

/-! ## The checks of a received frame (R344, R345) -/

theorem exec_frameReceive {s : State} {p : Nat} (he : portExists p s.dev = true) (hu : linkUp p s.dev = true)
    (hl : looped p s.dev = false) (f : RxFrame) : exec (.frameReceive p f) s = .next { s with dev := receiveFrame p f s.dev } := by
  change execFrameReceive p f s = _
  simp [execFrameReceive, frameReceive, he, hu, hl]

theorem exec_pauseFrame {s : State} {p : Nat} (he : portExists p s.dev = true) (hu : linkUp p s.dev = true)
    (hl : looped p s.dev = false) (op en : Nat) (q : List Nat) :
    exec (.pauseFrame p op en q) s = .next { s with dev := receiveFrame p (pauseRx op en q) s.dev } := by
  change execPauseFrame p op en q s = _
  simp [execPauseFrame, frameReceive, he, hu, hl]

section Checks

variable {p : Nat} {f : RxFrame} {d : Dev}

theorem receiveFrame_badFcs (h : f.fcsOk = false) : receiveFrame p f d = countPort p 0 1 d := by simp [receiveFrame, h]

theorem receiveFrame_badLength (h : f.fcsOk = true) (hl : f.length < 64 ∨ min 9216 (getF .portCtrl p 0 15 0 d) < f.length) :
    receiveFrame p f d = countPort p 1 1 d := by
  rw [receiveFrame, if_neg (by simp [h]), if_pos hl]

variable (hf : f.fcsOk = true) (h64 : 64 ≤ f.length) (hmax : f.length ≤ min 9216 (getF .portCtrl p 0 15 0 d))
include hf h64 hmax

theorem receiveFrame_macControl {op en : Nat} {q : List Nat} (hm : f.macCtrl = some (op, en, q)) (hd : f.dst = macControlAddr) :
    receiveFrame p f d = honourPause p op en q d := by
  rw [receiveFrame, if_neg (by simp [hf]), if_neg (by omega)]
  simp [hm, hd]

omit hf in
/-- A whole MAC control frame is the pause that it carries, where a frame of its length passes. -/
theorem receiveFrame_pauseRx (op en : Nat) (q : List Nat) : receiveFrame p (pauseRx op en q) d = honourPause p op en q d :=
  receiveFrame_macControl (f := pauseRx op en q) rfl (Nat.le_refl 64) (Nat.le_trans h64 hmax) rfl rfl

variable (hm : f.macCtrl = none ∨ f.dst ≠ macControlAddr)
include hm

theorem receiveFrame_filtered (hp : filterPass p f.dst d = false) : receiveFrame p f d = countPort p 2 1 d := by
  rw [receiveFrame, if_neg (by simp [hf]), if_neg (by omega)]
  rcases hm with hm | hm <;> simp [hm, hp]

theorem receiveFrame_foreign (hp : filterPass p f.dst d = true) (hi : isPesyn p f d = false) : receiveFrame p f d = countPort p 3 1 d := by
  rw [receiveFrame, if_neg (by simp [hf]), if_neg (by omega)]
  rcases hm with hm | hm <;> simp [hm, hp, hi]

end Checks

/-- Does a frame find no room in its buffer or in its die's half of the caldera? -/
def NoRoom (p k n : Nat) (d : Dev) : Prop := (bufAt p k d).size * 16384 < (bufAt p k d).fill + n ∨ 2 ^ 26 < bufferUse (p / 16) d + n

section Buffered

variable {p : Nat} {f : RxFrame} {d : Dev} (hf : f.fcsOk = true) (h64 : 64 ≤ f.length)
  (hmax : f.length ≤ min 9216 (getF .portCtrl p 0 15 0 d)) (hm : f.macCtrl = none) (hp : filterPass p f.dst d = true)
  (hi : isPesyn p f d = true) (hpol : policerFor p (framePrio p f d) d = none)
include hf h64 hmax hm hp hi hpol

theorem receiveFrame_noRoom (h : NoRoom p (framePrio p f d) f.length d) : receiveFrame p f d = countPort p 4 1 d := by
  rw [receiveFrame, if_neg (by simp [hf]), if_neg (by omega)]
  simp only [hm, hp, hi, police, hpol, Bool.not_true, Bool.false_eq_true, if_false]
  exact if_pos (by rw [Bool.or_eq_true, decide_eq_true_eq, decide_eq_true_eq]; exact h)

theorem receiveFrame_buffered (h : ¬NoRoom p (framePrio p f d) f.length d) :
    receiveFrame p f d = settleXoff p (framePrio p f d)
      (updBuf p (framePrio p f d) (fun b => { b with frames := b.frames ++ [(f.length, false)] }) d) := by
  rw [receiveFrame, if_neg (by simp [hf]), if_neg (by omega)]
  simp only [hm, hp, hi, police, hpol, Bool.not_true, Bool.false_eq_true, if_false]
  exact if_neg (by rw [Bool.or_eq_true, decide_eq_true_eq, decide_eq_true_eq]; exact h)

end Buffered

theorem framePrio_lt (p : Nat) (f : RxFrame) (d : Dev) : framePrio p f d < 8 := by
  have h3 : ∀ w m : Nat, bitsOf w (4 * m + 2) (4 * m) < 8 := fun w m => by
    have h := bitsOf_lt w (4 * m + 2) (4 * m)
    rwa [show 4 * m + 2 + 1 - 4 * m = 3 by omega] at h
  unfold framePrio
  split
  · exact Nat.mod_lt _ (by decide)
  · exact h3 ..
  · decide

/-- R345, R346: a frame enters its buffer; the port sends XOFF where the buffer reaches HIGH by it. -/
theorem frame_enters_buffer {p k n : Nat} {d : Dev} (hk : k < 8) (hl : looped p d = false) (he : portExists p d = true)
    (hu : linkUp p d = true) :
    let t := settleXoff p k (updBuf p k (fun b => { b with frames := b.frames ++ [(n, false)] }) d)
    (bufAt p k t).frames = (bufAt p k d).frames ++ [(n, false)] ∧ (∀ q, q ≠ p → portAt q t = portAt q d) ∧
    (flowMode p d = 1 → bitOf (getF .flowCtrl p 0 23 16 d) k = true → (bufAt p k d).xoff = false → (bufAt p k d).guarded = false →
      (portEnabled p d = true → highOf p k d ≤ (bufAt p k d).fill + n →
        t.out = d.out ++ [.xoff p k (quantaOf p d)] ∧ (bufAt p k t).xoff = true) ∧
      ((bufAt p k d).fill + n < highOf p k d → t.out = d.out ∧ (bufAt p k t).xoff = false)) ∧
    t.regs = d.regs ∧ t.tiers = d.tiers := by
  intro t
  have hb : bufAt p k (updBuf p k (fun b => { b with frames := b.frames ++ [(n, false)] }) d) = _ := bufAt_updBuf_self ..
  have hfill : (bufAt p k (updBuf p k (fun b => { b with frames := b.frames ++ [(n, false)] }) d)).fill = (bufAt p k d).fill + n := by
    rw [hb]; simp [RxBuf.fill]
  have hstep : PortStep p (updBuf p k (fun b => { b with frames := b.frames ++ [(n, false)] }) d) t := .settleXoff ..
  refine ⟨(hstep.bufs k).1.trans (by rw [hb]), fun q hq => (hstep.others q hq).trans (portAt_updPort_other _ d hq),
    fun hm hbit hx hg => ?_, hstep.regs, hstep.tiers⟩
  have hsend := keySends_of_pfc hk hm hbit
  refine ⟨fun hen hh => ?_, fun hh => ?_⟩
  · have hs : portSends p d = true := by simp [portSends, he, hu, hen]
    exact settleXoff_high hsend (by rw [hb]; exact hx) (by rw [hb]; exact hg) ((portSends_updBuf ..).trans hs) hl (by rw [hfill]; exact hh)
  · exact settleXoff_low hsend (by rw [hb]; exact hx) (by rw [hfill]; exact hh)

/-! ## Received pause (R347, R351) -/

theorem pauseKey_hw (p k q : Nat) (d : Dev) : (portAt p (pauseKey p k q d)).hw = (portAt p d).hw := by
  rw [pauseKey, portAt_updPort_self]

/-- The MAC control frames that a port honours in its mode. -/
def Honours (p op : Nat) (d : Dev) : Prop := (flowMode p d = 1 ∧ op = 0x0101) ∨ (flowMode p d = 2 ∧ op = 0x0001)

/-- An honoured pause is counted in RX_PAUSE. -/
theorem honourPause_counts {p op : Nat} {d : Dev} (h : Honours p op d) (en : Nat) (q : List Nat) :
    Tab.getD (portAt p (honourPause p op en q d)).hw 5 0 = min 63 (Tab.getD (portAt p d).hw 5 0 + 1) := by
  have hcount : Tab.getD (portAt p (countPort p 5 1 d)).hw 5 0 = min 63 (Tab.getD (portAt p d).hw 5 0 + 1) := by
    rw [countPort, portAt_updPort_self]
    simp [Tab.getD]
  rw [← hcount]
  congr 1
  have fold : ∀ (l : List Nat) (d : Dev),
      (portAt p (each l (fun k d => pauseKey p k (q.getD k 0 % 65536) d) d)).hw = (portAt p d).hw := by
    intro l
    induction l with
    | nil => exact fun _ => rfl
    | cons k l ih => exact fun d => (ih _).trans (pauseKey_hw ..)
  unfold honourPause
  rcases h with ⟨hm, rfl⟩ | ⟨hm, rfl⟩
  · rw [if_pos (by simp [hm]), fold]
  · rw [if_neg (by simp), if_pos (by simp [hm]), pauseKey_hw]

theorem honourPause_ignored {p op : Nat} {d : Dev} (h : ¬Honours p op d) (en : Nat) (q : List Nat) : honourPause p op en q d = d := by
  unfold Honours at h
  rw [honourPause, if_neg (by simp; omega), if_neg (by simp; omega)]

/-! ## The obligation -/

/-- Settles O45: each check of a received frame by its lemma; a watermark write and a new SIZE by `prioBufWrite_good_effect` and
`bufAt_sizeTakes`. -/
theorem receiveBuffers : Obligations.ReceiveBuffers := by
  refine ⟨fun s p f he hu hl => ?_, fun s p unc he => ?_, fun s p k data he hk hr hlink => ?_, fun s p k data he hp hk hr hlink => ?_,
    fun s p k he hk => ?_⟩
  · have hrx := exec_frameReceive he hu hl f
    refine ⟨fun h => ?_, fun h hlen => ?_, fun h h64 hmax => ⟨fun op en q hm hd => ⟨fun hh => ?_, fun hh => ?_⟩, fun hm hp => ?_,
      fun hm hp hi => ?_, fun hm hp hi hpol => ⟨fun hno => ?_, fun h1 h2 => ?_⟩⟩⟩
    · rw [hrx, receiveFrame_badFcs h]
    · rw [hrx, receiveFrame_badLength h hlen]
    · refine ⟨_, hrx, ?_, ?_⟩
      · rw [exec_pauseFrame he hu hl, receiveFrame_pauseRx h64 hmax, receiveFrame_macControl h h64 hmax hm hd]
      · rw [receiveFrame_macControl h h64 hmax hm hd]
        exact honourPause_counts hh en q
    · rw [hrx, receiveFrame_macControl h h64 hmax hm hd, honourPause_ignored hh]
    · rw [hrx, receiveFrame_filtered h h64 hmax hm hp]
    · rw [hrx, receiveFrame_foreign h h64 hmax hm hp hi]
    · rw [hrx, receiveFrame_noRoom h h64 hmax hm hp hi hpol hno]
    · refine ⟨_, hrx, ?_⟩
      rw [receiveFrame_buffered h h64 hmax hm hp hi hpol (by unfold NoRoom; omega)]
      exact frame_enters_buffer (framePrio_lt ..) hl he hu
  · exact ⟨_, rfl, highSer_effect he unc⟩
  · have hx := exec_prioBufWrite (lt_of_portExists he) hr hlink hk data
    rw [if_pos he] at hx
    refine ⟨fun hbad => ?_, fun hgood => ⟨_, hx, prioBufWrite_good_effect hgood⟩⟩
    rw [hx, prioBufWrite_bad hbad]
  · have h1 := exec_prioBufWrite hp hr hlink hk data
    have h2 := exec_portCtrlWrite hp hr hlink data
    rw [if_neg (by simp [he])] at h1 h2
    exact ⟨⟨_, counted_countErr (by decide) (by decide) .., h1⟩, ⟨_, counted_countErr (by decide) (by decide) .., h2⟩⟩
  · have hx := exec_bufferSizeTakesEffect he hk
    refine ⟨fun h0 => ⟨_, hx, ?_, sizeTakes_regs ..⟩, fun h0 => ?_⟩
    · rw [bufAt_sizeTakes, if_pos h0]
    · rw [hx, sizeTakes, if_neg (by simpa using h0)]

end Sys2Proof.Machine
end

section
/-! SUPPORT. A port's link (R336, R346): what each operation of the MAC leaves of the side of a port that sends, what a change of the link leaves
of the other ports and the registers, and what a link that rises, falls or is held down does to the port's record. -/

namespace Sys2Proof.Machine

/-! ## The receive side of a port leaves its link and its waiting frames (R345 to R347) -/

/-- A port's record without the pauses, buffers and hardware counters that its receive side changes. -/
def Port.sending (r : Port) : Port := { r with pauses := [], bufs := [], hw := [] }

/-- Only the receive side of port `p` changed, and what was sent out. -/
structure ReceiveStep (p : Nat) (d e : Dev) : Prop where
  rest    : e = { d with net := { d.net with ports := e.net.ports }, out := e.out }
  others  : ∀ q, q ≠ p → portAt q e = portAt q d
  sending : (portAt p e).sending = (portAt p d).sending

namespace ReceiveStep

variable {p : Nat} {d e f : Dev}

theorem regs (h : ReceiveStep p d e) : e.regs = d.regs := by rw [h.rest]
theorem tiers (h : ReceiveStep p d e) : e.tiers = d.tiers := by rw [h.rest]
theorem control (h : ReceiveStep p d e) : (portAt p e).control = (portAt p d).control := (congrArg Port.control h.sending :)
theorem data (h : ReceiveStep p d e) : (portAt p e).data = (portAt p d).data := (congrArg Port.data h.sending :)
theorem downAt (h : ReceiveStep p d e) : (portAt p e).downAt = (portAt p d).downAt := (congrArg Port.downAt h.sending :)

theorem linkUp (h : ReceiveStep p d e) : linkUp p e = linkUp p d := by
  have h1 : (portAt p e).align = (portAt p d).align := (congrArg Port.align h.sending :)
  have h2 : (portAt p e).local_ = (portAt p d).local_ := (congrArg Port.local_ h.sending :)
  have h3 : (portAt p e).remote = (portAt p d).remote := (congrArg Port.remote h.sending :)
  rw [Machine.linkUp, h1, h2, h3]; rfl

theorem refl (p : Nat) (d : Dev) : ReceiveStep p d d := ⟨rfl, fun _ _ => rfl, rfl⟩

theorem trans (h1 : ReceiveStep p d e) (h2 : ReceiveStep p e f) : ReceiveStep p d f := by
  refine ⟨?_, fun q hq => (h2.others q hq).trans (h1.others q hq), h2.sending.trans h1.sending⟩
  rw [h2.rest, h1.rest]

theorem updPort {g : Port → Port} (d : Dev) (hg : ∀ r, (g r).sending = r.sending := by intro; rfl) : ReceiveStep p d (updPort p g d) :=
  ⟨rfl, fun _ hq => portAt_updPort_other g d hq, by rw [portAt_updPort_self, hg]⟩

theorem updBuf (p k : Nat) (f : RxBuf → RxBuf) (d : Dev) : ReceiveStep p d (updBuf p k f d) := by
  unfold Machine.updBuf
  exact updPort d

theorem emit (p : Nat) (o : Out) (d : Dev) : ReceiveStep p d (emit o d) := ⟨rfl, fun _ _ => rfl, rfl⟩

theorem pauseKey (p k q : Nat) (d : Dev) : ReceiveStep p d (pauseKey p k q d) := by
  unfold Machine.pauseKey
  exact updPort d

theorem sendXoff (p k q : Nat) (d : Dev) : ReceiveStep p d (sendXoff p k q d) := by
  have counts : ∀ i n e, ReceiveStep p e (countPort p i n e) := fun _ _ e => updPort e
  unfold Machine.sendXoff
  split
  · exact refl p d
  · dsimp only
    split
    · exact (counts 6 1 d).trans ((counts 5 1 _).trans (pauseKey ..))
    · exact (counts 6 1 d).trans (emit ..)

theorem setXoff (p k : Nat) (on : Bool) (d : Dev) : ReceiveStep p d (setXoff p k on d) := by
  unfold Machine.setXoff
  split
  · exact (updBuf ..).trans (sendXoff ..)
  · split
    · exact (updBuf ..).trans (sendXoff ..)
    · exact refl p d

theorem settleXoff (p k : Nat) (d : Dev) : ReceiveStep p d (settleXoff p k d) := by
  have noted : ReceiveStep p d (noteFill p k d) := updBuf ..
  rw [settleXoff_eq]
  refine noted.trans ?_
  unfold judgeFill
  split
  · split
    · exact setXoff ..
    · split
      · exact setXoff ..
      · exact refl ..
  · split
    · split
      · exact setXoff ..
      · split
        · exact setXoff ..
        · exact refl ..
    · exact refl ..

theorem settlePort (p : Nat) (d : Dev) : ReceiveStep p d (settlePort p d) := by
  have fold : ∀ (l : List Nat) (d : Dev), ReceiveStep p d (each l (Machine.settleXoff p) d) := by
    intro l
    induction l with
    | nil => exact refl p
    | cons k l ih => exact fun d => (settleXoff p k d).trans (ih _)
  unfold Machine.settlePort
  exact (updPort d).trans (fold ..)

end ReceiveStep

/-! ## What a change of one port's link leaves (R335, R336) -/

@[simp] theorem portAt_setW (q : Nat) (n : RegName) (i j w : Nat) (d : Dev) : portAt q (setW n i j w d) = portAt q d := rfl
@[simp] theorem portAt_setBit (q : Nat) (n : RegName) (i j k : Nat) (d : Dev) : portAt q (setBit n i j k d) = portAt q d := rfl

@[simp] theorem faultSignal_net (p : Nat) (old d : Dev) : (faultSignal p old d).net = d.net := by unfold faultSignal; split <;> rfl
@[simp] theorem faultSignal_regs (p : Nat) (old d : Dev) : (faultSignal p old d).regs = d.regs := by unfold faultSignal; split <;> rfl
@[simp] theorem faultSignal_tiers (p : Nat) (old d : Dev) : (faultSignal p old d).tiers = d.tiers := by unfold faultSignal; split <;> rfl
@[simp] theorem portAt_faultSignal (q p : Nat) (old d : Dev) : portAt q (faultSignal p old d) = portAt q d := by
  rw [portAt, faultSignal_net]; rfl

/-- The other ports, every register but PORT_STATUS of port `p`, and the memory tiers are as they were. -/
structure LinkChange (p : Nat) (d e : Dev) : Prop where
  others : ∀ q, q ≠ p → portAt q e = portAt q d
  regs   : Safety.SameRegs [addrOf .portStatus p 0] d e
  tiers  : e.tiers = d.tiers

namespace LinkChange

variable {p : Nat} {d e f : Dev}

theorem refl (p : Nat) (d : Dev) : LinkChange p d d := ⟨fun _ _ => rfl, fun _ _ => rfl, rfl⟩

theorem trans (h1 : LinkChange p d e) (h2 : LinkChange p e f) : LinkChange p d f :=
  ⟨fun q hq => (h2.others q hq).trans (h1.others q hq), fun a ha => (h2.regs a ha).trans (h1.regs a ha), h2.tiers.trans h1.tiers⟩

theorem of_receiveStep (h : ReceiveStep p d e) : LinkChange p d e := ⟨h.others, fun a _ => by rw [h.regs], h.tiers⟩

theorem updPort (g : Port → Port) (d : Dev) : LinkChange p d (updPort p g d) :=
  ⟨fun _ hq => portAt_updPort_other g d hq, fun _ _ => rfl, rfl⟩

theorem countPort (i n : Nat) (d : Dev) : LinkChange p d (countPort p i n d) := updPort ..

theorem setBit (k : Nat) (d : Dev) : LinkChange p d (setBit .portStatus p 0 k d) :=
  ⟨fun _ _ => rfl, fun _ ha => Tab.get_set_other _ _ (by simpa using ha), rfl⟩

theorem faultSignal (old d : Dev) : LinkChange p d (faultSignal p old d) :=
  ⟨fun _ _ => by simp, fun _ _ => by simp, by simp⟩

theorem when_ {g : Dev → Dev} (c : Bool) (h : LinkChange p d (g d)) : LinkChange p d (when_ c g d) := by
  cases c
  · exact refl p d
  · exact h

end LinkChange

theorem getF_portStatus_setBit (p k : Nat) (hk : k < 32) (d : Dev) : getF .portStatus p 0 k k (setBit .portStatus p 0 k d) = 1 := by
  rw [setBit, getF_setF_self _ (le_refl k) hk, Nat.add_sub_cancel_left]
  rfl

/-! ## Frames that wait for room or for a port (R355) -/

theorem gather_of_no_outside {d : Dev} (h : d.net.outside = []) : gather d = d := by simp [gather, h]

theorem placeUnsent_of_no_unsent {d : Dev} (h : d.net.unsent = []) : placeUnsent d = d := by
  calc placeUnsent d = { d with net := { d.net with unsent := [] } } := by rw [placeUnsent, h]; rfl
    _ = d := by rw [← h]

/-! ## The link rises (R336) -/

/-- A port's record once its link is up. -/
def Port.raised (r : Port) : Port := { r with align := true, local_ := false, remote := false, downAt := none }

theorem linkRises_eq {p : Nat} {d : Dev} (hp : portExists p d = true) (hl : engineLit (p / 4) d = true) (hw : portWhole p d = true)
    (hu : d.net.unsent = []) :
    linkRises p d = faultSignal p d (when_ (!linkUp p d) (setBit .portStatus p 0 1) (updPort p Port.raised d)) := by
  rw [linkRises, if_pos (by simp [hp, hl, hw])]
  refine placeUnsent_of_no_unsent ?_
  rw [faultSignal_net]
  cases linkUp p d <;> exact hu

theorem linkRises_dark {p : Nat} {d : Dev} (h : engineLit (p / 4) d = false ∨ portWhole p d = false) : linkRises p d = d := by
  rw [linkRises, if_neg (by rcases h with h | h <;> simp [h])]

/-- LINK_UP: the link rises, and what a full buffer asks for goes out where it was down (R346). -/
def risen (p : Nat) (d : Dev) : Dev :=
  if linkUp p (linkRises p d) && !linkUp p d then settlePort p (linkRises p d) else linkRises p d

theorem exec_linkUp (p : Nat) (s : State) : exec (.linkUp p) s = .next { s with dev := risen p s.dev } := rfl

theorem risen_receiveStep (p : Nat) (d : Dev) : ReceiveStep p (linkRises p d) (risen p d) := by
  unfold risen
  split
  · exact .settlePort ..
  · exact .refl ..

section Rise

variable {p : Nat} {d : Dev} (hp : portExists p d = true) (hl : engineLit (p / 4) d = true) (hw : portWhole p d = true)
  (hu : d.net.unsent = [])
include hp hl hw hu

theorem portAt_linkRises : portAt p (linkRises p d) = (portAt p d).raised := by
  rw [linkRises_eq hp hl hw hu, portAt_faultSignal]
  cases linkUp p d <;> simp [when_]

theorem linkRises_change : LinkChange p d (linkRises p d) := by
  rw [linkRises_eq hp hl hw hu]
  exact (LinkChange.updPort ..).trans ((LinkChange.when_ _ (.setBit ..)).trans (.faultSignal ..))

theorem linkRises_status (h : linkUp p d = false) : getF .portStatus p 0 1 1 (linkRises p d) = 1 := by
  rw [linkRises_eq hp hl hw hu, getF_congr (faultSignal_regs ..), h]
  exact getF_portStatus_setBit p 1 (by decide) _

end Rise

/-! ## The link falls (R336) -/

/-- A port's record when its receive side loses alignment or takes a fault: the frame on the wire is lost. -/
def Port.fallen (al loc rem : Bool) (r : Port) : Port := { r with align := al, local_ := loc, remote := rem, wire := none }

/-- A fall is counted and reported, and LINK_HOLD_US runs from it. -/
def markFall (p now : Nat) (d : Dev) : Dev :=
  countPort p 10 1 (setBit .portStatus p 0 1 (updPort p (fun r => { r with downAt := some now }) d))

theorem LinkChange.markFall (p now : Nat) (d : Dev) : LinkChange p d (markFall p now d) :=
  (LinkChange.updPort ..).trans ((LinkChange.setBit ..).trans (.countPort ..))

theorem linkFalls_eq (p : Nat) (al loc rem : Bool) (d : Dev) :
    linkFalls p al loc rem d = when_ (linkUp p d) (markFall p (clock (fdie (p / 16)) d))
      (faultSignal p d (when_ ((portAt p d).align && !al) (countPort p 9 1) (gather (updPort p (Port.fallen al loc rem) d)))) := rfl

/-- One more in a hardware counter, where a condition holds (R351). -/
def countHw (c : Bool) (i : Nat) (t : Tab Nat) : Tab Nat := if c then Tab.set t i (min 63 (Tab.getD t i 0 + 1)) else t

theorem getD_countHw_self (i : Nat) (t : Tab Nat) : Tab.getD (countHw true i t) i 0 = min 63 (Tab.getD t i 0 + 1) := by
  simp [countHw, Tab.getD]

theorem getD_countHw_other (c : Bool) {i j : Nat} (h : j ≠ i) (t : Tab Nat) : Tab.getD (countHw c i t) j 0 = Tab.getD t j 0 := by
  cases c
  · rfl
  · simp [countHw, Tab.getD, Tab.get_set_other _ _ h]

section Fall

variable {p : Nat} {d : Dev} (ho : d.net.outside = []) (al loc rem : Bool)
include ho

theorem linkFalls_eq_of_no_outside :
    linkFalls p al loc rem d = when_ (linkUp p d) (markFall p (clock (fdie (p / 16)) d))
      (faultSignal p d (when_ ((portAt p d).align && !al) (countPort p 9 1) (updPort p (Port.fallen al loc rem) d))) := by
  have ho' : (updPort p (Port.fallen al loc rem) d).net.outside = [] := ho
  rw [linkFalls_eq, gather_of_no_outside ho']

theorem portAt_linkFalls :
    portAt p (linkFalls p al loc rem d) = { (portAt p d).fallen al loc rem with
      downAt := if linkUp p d then some (clock (fdie (p / 16)) d) else (portAt p d).downAt,
      hw := countHw (linkUp p d) 10 (countHw ((portAt p d).align && !al) 9 (portAt p d).hw) } := by
  rw [linkFalls_eq_of_no_outside ho]
  cases linkUp p d <;> cases (portAt p d).align && !al <;> simp [when_, markFall, countPort, countHw, Port.fallen]

theorem linkFalls_change : LinkChange p d (linkFalls p al loc rem d) := by
  rw [linkFalls_eq_of_no_outside ho]
  exact (LinkChange.updPort ..).trans ((LinkChange.when_ _ (.countPort ..)).trans ((LinkChange.faultSignal ..).trans (.when_ _ (.markFall ..))))

omit ho in
theorem linkFalls_status (h : linkUp p d = true) : getF .portStatus p 0 1 1 (linkFalls p al loc rem d) = 1 := by
  rw [linkFalls_eq, h]
  exact getF_portStatus_setBit p 1 (by decide) _

end Fall

/-! ## Waiting frames are discarded (R336) -/

section Discard

variable {p : Nat} {d : Dev} (ho : d.net.outside = [])
include ho

theorem discardWaiting_eq :
    discardWaiting p d = countPort p 7 ((portAt p d).control.length + (portAt p d).data.length)
      (updPort p (fun r => { r with control := [], data := [], starts := [], held := [] }) d) := gather_of_no_outside ho

/-- What waits leaves the port and is counted; the frame on the wire and the link are as they were. -/
theorem portAt_discardWaiting :
    portAt p (discardWaiting p d) = { portAt p d with
      control := [], data := [], starts := [], held := [],
      hw := Tab.set (portAt p d).hw 7
        (min 63 (Tab.getD (portAt p d).hw 7 0 + ((portAt p d).control.length + (portAt p d).data.length))) } := by
  rw [discardWaiting_eq ho]
  simp [countPort]

theorem portAt_discardWaiting_other {q : Nat} (h : q ≠ p) : portAt q (discardWaiting p d) = portAt q d := by
  rw [discardWaiting_eq ho, countPort, portAt_updPort_other _ _ h, portAt_updPort_other _ _ h]

theorem discardWaiting_regs : (discardWaiting p d).regs = d.regs := by rw [discardWaiting_eq ho]; rfl

end Discard

/-! ## A write of PORT_CTRL (R336, R350) -/

/-- The device on which the written word stands in PORT_CTRL. -/
def ctrlWritten (p data : Nat) (d : Dev) : Dev := setW .portCtrl p 0 (taken .portCtrl (getW .portCtrl p 0 d) data) d

theorem bitOf_eq_bitsOf (w k : Nat) : bitOf w k = (bitsOf w k k == 1) := by
  rw [bitsOf, Nat.add_sub_cancel_left, pow_one]
  rfl

theorem bitsOf_one (w k : Nat) : bitsOf w k k = (bitOf w k).toNat := by
  rw [bitOf_eq_bitsOf]
  have := bitsOf_lt w k k
  rw [Nat.add_sub_cancel_left, pow_one] at this
  rcases (by omega : bitsOf w k k = 0 ∨ bitsOf w k k = 1) with h | h <;> rw [h] <;> rfl

/-- ENABLE, BCAST_EN and LOOPBACK (R350), bits 31 to 29, are taken as they are written. -/
theorem bitOf_taken_portCtrl (old data : Nat) {k : Nat} (h1 : 29 ≤ k) (h2 : k ≤ 31) : bitOf (taken .portCtrl old data) k = bitOf data k := by
  obtain ⟨r, hr, hf⟩ : ∃ r, rowOf .portCtrl = some r ∧ ∀ k, 29 ≤ k → k ≤ 31 → rw k k 0 ∈ r.fields :=
    ⟨⟨.portCtrl, 0x91000, 32, 0x200, 1, 0x0, [rw 31 31 0, rw 30 30 0, rw 29 29 0, rwl 15 0 9216 (.atMost 9216)]⟩, by decide +kernel,
      fun k h1 h2 => by
        have : k = 31 ∨ k = 30 ∨ k = 29 := by omega
        rcases this with rfl | rfl | rfl <;> simp⟩
  have hw : bitsOf (r.write old data) k k = bitsOf data k k := bitsOf_write (List.mem_of_find?_eq_some hr) (hf k h1 h2) old data
  rw [taken, hr, bitOf_eq_bitsOf, bitOf_eq_bitsOf]
  exact congrArg (· == 1) hw

theorem bitOf_portCtrl_ctrlWritten (p data : Nat) (d : Dev) {k : Nat} (h1 : 29 ≤ k) (h2 : k ≤ 31) :
    bitOf (getW .portCtrl p 0 (ctrlWritten p data d)) k = bitOf data k := by
  rw [ctrlWritten, getW_setW_self, bitOf_eq_testBit, Nat.testBit_mod_two_pow, ← bitOf_eq_testBit, bitOf_taken_portCtrl _ _ h1 h2]
  simp [show k < 32 by omega]

theorem getF_portCtrl_ctrlWritten (p data : Nat) (d : Dev) {hi lo : Nat} (h1 : 29 ≤ lo) (h2 : hi ≤ 31) :
    getF .portCtrl p 0 hi lo (ctrlWritten p data d) = bitsOf data hi lo :=
  bitsOf_congr fun _ hlo hhi => bitOf_portCtrl_ctrlWritten p data d (h1.trans hlo) (hhi.trans h2)

theorem portEnabled_ctrlWritten (p data : Nat) (d : Dev) : portEnabled p (ctrlWritten p data d) = bitOf data 31 :=
  bitOf_portCtrl_ctrlWritten p data d (by decide) (by decide)

theorem ctrlWritten_sameRegs (p data : Nat) (d : Dev) : Safety.SameRegs [addrOf .portCtrl p 0] d (ctrlWritten p data d) :=
  fun _ ha => Tab.get_set_other _ _ (by simpa using ha)

/-- ENABLE 0 discards what waits at once. -/
theorem portCtrlWrite_disable {p data : Nat} {d : Dev} (hb : bitOf data 31 = false) (ho : d.net.outside = []) :
    portCtrlWrite p data d = discardWaiting p (ctrlWritten p data d) := by
  have he : portEnable p data d = discardWaiting p (ctrlWritten p data d) := if_neg (by rw [← ctrlWritten, portEnabled_ctrlWritten, hb]; decide)
  have hoff : portEnabled p (discardWaiting p (ctrlWritten p data d)) = false := by
    have hregs := discardWaiting_regs (p := p) (d := ctrlWritten p data d) ho
    rw [portEnabled, getW_congr hregs, ← hb]
    exact portEnabled_ctrlWritten ..
  rw [portCtrlWrite, he, if_neg (by simp [hoff])]

/-- ENABLE 1 lets the port's full buffers ask for a pause where it was 0. -/
theorem portCtrlWrite_enable {p data : Nat} {d : Dev} (hb : bitOf data 31 = true) (hu : d.net.unsent = []) :
    portCtrlWrite p data d = if portEnabled p d then ctrlWritten p data d else settlePort p (ctrlWritten p data d) := by
  have hon : portEnabled p (ctrlWritten p data d) = true := (portEnabled_ctrlWritten ..).trans hb
  have he : portEnable p data d = ctrlWritten p data d := (if_pos hon).trans (placeUnsent_of_no_unsent hu)
  rw [portCtrlWrite, he, hon]
  cases portEnabled p d <;> rfl

theorem portCtrlWrite_enable_receiveStep {p data : Nat} {d : Dev} (hb : bitOf data 31 = true) (hu : d.net.unsent = []) :
    ReceiveStep p (ctrlWritten p data d) (portCtrlWrite p data d) := by
  rw [portCtrlWrite_enable hb hu]
  split
  · exact .refl ..
  · exact .settlePort ..

end Sys2Proof.Machine
end

section
/-! SUPPORT. Ports coming up and going down, LINK_HOLD_US and ENABLE (R29, R336). -/

namespace Sys2Proof.Machine

section Port

variable {s : State} {p : Nat} (hp : portExists p s.dev = true)
include hp

/-- LINK_DOWN with an event of the receive side. -/
theorem exec_linkDown {a l r : Bool} (h : (a || l || r) = true) :
    exec (.linkDown p a l r) s = .next { s with dev := linkFalls p ((portAt p s.dev).align && !a) l r s.dev } := by
  change execLinkDown p a l r s = _
  rw [execLinkDown, linkDown, if_pos (by simp [hp, h])]

omit hp in
/-- LINK_HOLD_EXPIRY of a port that has been down for LINK_HOLD_US. -/
theorem exec_linkHoldExpiry_over {t0 : Nat} (h0 : (portAt p s.dev).downAt = some t0) (hd : linkUp p s.dev = false)
    (ht : t0 + 8 * getF .photCtrl 0 0 15 0 s.dev ≤ clock (fdie (p / 16)) s.dev) :
    exec (.linkHoldExpiry p) s = .next { s with dev := discardWaiting p (updPort p (fun r => { r with downAt := none }) s.dev) } := by
  change execLinkHoldExpiry p s = _
  simp [execLinkHoldExpiry, linkHoldExpiry, h0, hd, usec, ht]

omit hp in
theorem exec_linkHoldExpiry_early {t0 : Nat} (h0 : (portAt p s.dev).downAt = some t0)
    (ht : clock (fdie (p / 16)) s.dev < t0 + 8 * getF .photCtrl 0 0 15 0 s.dev) : exec (.linkHoldExpiry p) s = .next s := by
  change execLinkHoldExpiry p s = _
  simp [execLinkHoldExpiry, linkHoldExpiry, h0, usec, Nat.not_le.mpr ht]

theorem exec_portCtrlWrite_used (hr : s.dev.start.ready = true) (hl : linkOpen s.dev = true) (data : Nat) :
    exec (.portCtrlWrite p data) s = .next { s with dev := portCtrlWrite p data s.dev } := by
  rw [exec_portCtrlWrite (lt_of_portExists hp) hr hl, if_pos hp]

end Port

/-- Settles O42: the record of the port after each command by `portAt_linkRises`, `portAt_linkFalls` and `portAt_discardWaiting`, and what
stays by `LinkChange` and `ReceiveStep`. -/
theorem portLinks : Obligations.PortLinks := by
  intro s p hp
  refine ⟨fun hl hw hu => ?_, fun h => ?_, fun a l r h ho => ?_, fun t0 h0 hd ht ho => ?_, fun t0 h0 ht => exec_linkHoldExpiry_early h0 ht,
    fun data _ hr hlink ho => ⟨fun hb => ?_, fun hb hu => ?_⟩⟩
  · have hport := portAt_linkRises hp hl hw hu
    have hset := risen_receiveStep p s.dev
    have hchange := (linkRises_change hp hl hw hu).trans (.of_receiveStep hset)
    refine ⟨_, exec_linkUp p s, ?_, ?_, ?_, ?_, hchange.others, hchange.regs, fun hd => ?_, hchange.tiers⟩
    · rw [hset.linkUp, linkUp, hport]; rfl
    · rw [hset.downAt, hport]; rfl
    · rw [hset.control, hport]; rfl
    · rw [hset.data, hport]; rfl
    · rw [getF_congr hset.regs]
      exact linkRises_status hp hl hw hu hd
  · rw [exec_linkUp, risen, linkRises_dark h, if_neg (by simp)]
  · have hport := portAt_linkFalls (p := p) ho ((portAt p s.dev).align && !a) l r
    have hchange := linkFalls_change (p := p) ho ((portAt p s.dev).align && !a) l r
    refine ⟨_, exec_linkDown hp h, ?_, by rw [hport]; rfl, by rw [hport]; rfl, by rw [hport]; rfl, hchange.others, hchange.regs,
      fun hup => ⟨linkFalls_status _ _ _ hup, by rw [hport, hup]; rfl, ?_⟩, ?_⟩
    · rw [linkUp, hport]
      simp only [Bool.or_eq_true] at h
      rcases h with (rfl | rfl) | rfl <;> simp [Port.fallen]
    · rw [hport, hup]
      exact (getD_countHw_self ..).trans (by rw [getD_countHw_other _ (by decide)])
    · rintro rfl hal
      rw [hport, hal]
      exact (getD_countHw_other _ (by decide) _).trans (getD_countHw_self ..)
  · have ho' : (updPort p (fun r => { r with downAt := none }) s.dev).net.outside = [] := ho
    have hport := portAt_discardWaiting (p := p) ho'
    rw [portAt_updPort_self] at hport
    refine ⟨_, exec_linkHoldExpiry_over h0 hd ht, by rw [hport], by rw [hport], by rw [hport]; simp [Tab.getD], fun q hq => ?_,
      discardWaiting_regs ho'⟩
    rw [portAt_discardWaiting_other ho' hq, portAt_updPort_other _ _ hq]
  · have hport := portAt_discardWaiting (p := p) (d := ctrlWritten p data s.dev) ho
    have hregs := discardWaiting_regs (p := p) (d := ctrlWritten p data s.dev) ho
    have hx := exec_portCtrlWrite_used hp hr hlink data
    rw [portCtrlWrite_disable hb ho] at hx
    refine ⟨_, hx, ?_, by rw [hport], by rw [hport], by rw [hport]; rfl, by rw [hport]; simp [Tab.getD, ctrlWritten], fun a ha => ?_⟩
    · rw [getF_congr hregs, getF_portCtrl_ctrlWritten _ _ _ (by decide) (by decide), bitsOf_one, hb]; rfl
    · rw [hregs]
      exact ctrlWritten_sameRegs p data s.dev a ha
  · have hset := portCtrlWrite_enable_receiveStep (p := p) hb hu
    refine ⟨_, exec_portCtrlWrite_used hp hr hlink data, ?_, ?_, hset.others, fun hon => ?_, hset.control, hset.data, hset.linkUp, fun a ha => ?_⟩
    · rw [getF_congr hset.regs, getF_portCtrl_ctrlWritten _ _ _ (by decide) (by decide), bitsOf_one, hb]; rfl
    · rw [getF_congr hset.regs, getF_portCtrl_ctrlWritten _ _ _ (by decide) (by decide)]
    · rw [portCtrlWrite_enable hb hu, if_pos hon]; rfl
    · rw [hset.regs]
      exact ctrlWritten_sameRegs p data s.dev a ha

end Sys2Proof.Machine
end

section
/-! SUPPORT. Laser units (R339 to R342): what each change of a unit leaves of the other units, and what a rise, a drain and the loss of a unit
leave of its group. -/

namespace Sys2Proof.Machine

/-! ## The two units of a group (R342) -/

theorem partner_ne (u : Nat) : partner u ≠ u := by unfold partner; split <;> omega
theorem partner_lt {u : Nat} (h : u < 8) : partner u < 8 := by unfold partner; split <;> omega

/-- A group is lit where one of its two units is. -/
theorem lit_group (u : Nat) (d : Dev) : (lit (2 * (u / 2)) d || lit (2 * (u / 2) + 1) d) = (lit u d || lit (partner u) d) := by
  unfold partner
  split
  · rw [show 2 * (u / 2) = u by omega]
  · rw [show 2 * (u / 2) + 1 = u by omega, show 2 * (u / 2) = u - 1 by omega, Bool.or_comm]

/-! ## A unit's record -/

theorem laserAt_congr {d e : Dev} (h : e.net = d.net) (k : Nat) : laserAt k e = laserAt k d := by rw [laserAt, h]; rfl

theorem laserAt_updLaser_self {u : Nat} {d : Dev} (h : u < d.net.lasers.length) (f : Laser → Laser) :
    laserAt u (updLaser u f d) = f (laserAt u d) := by
  simp [laserAt, updLaser, listGet, List.getD, h]

theorem laserAt_updLaser_other {u k : Nat} (h : k ≠ u) (f : Laser → Laser) (d : Dev) : laserAt k (updLaser u f d) = laserAt k d := by
  simp [laserAt, updLaser, listGet, List.getD, List.getElem?_set_ne h.symm]

/-! ## Draws and states (R34, R341) -/

/-- The draw of a unit that may draw `cap`, in tenths of a watt (R34). -/
def drawOf (cap : Nat) (d : Dev) : Nat := if cap = 0 then 0 else Config.freeValue d.free % (cap + 1)

theorem drawOf_le (cap : Nat) (d : Dev) : drawOf cap d ≤ cap := by
  unfold drawOf
  split
  · exact Nat.zero_le _
  · exact Nat.le_of_lt_succ (Nat.mod_lt _ (Nat.succ_pos _))

theorem setDraw_net (u cap : Nat) (d : Dev) : (setDraw u cap d).net = (updLaser u (fun x => { x with draw := drawOf cap d }) d).net := by
  by_cases h : cap = 0 <;> simp [setDraw, drawOf, drawFree, updLaser, laserAt, h]

@[simp] theorem setDraw_tiers (u cap : Nat) (d : Dev) : (setDraw u cap d).tiers = d.tiers := by
  by_cases h : cap = 0 <;> simp [setDraw, drawFree, updLaser, h]

theorem laserAt_setDraw_self {u : Nat} {d : Dev} (h : u < d.net.lasers.length) (cap : Nat) :
    laserAt u (setDraw u cap d) = { laserAt u d with draw := drawOf cap d } := by
  rw [laserAt_congr (setDraw_net ..), laserAt_updLaser_self h]

theorem laserAt_laserState_self {u : Nat} {d : Dev} (h : u < d.net.lasers.length) (st cap : Nat) :
    laserAt u (laserState u st cap d) = { laserAt u d with state := st, rising := none, draw := drawOf cap d } := by
  rw [laserState, laserAt_setDraw_self (by simpa [updLaser] using h), laserAt_updLaser_self h]
  rfl

/-- A unit put into a state draws what the state allows at most (R34). -/
theorem laserState_effect {u : Nat} {d : Dev} (h : u < d.net.lasers.length) (st cap : Nat) :
    (laserAt u (laserState u st cap d)).state = st ∧ (laserAt u (laserState u st cap d)).draw ≤ cap := by
  rw [laserAt_laserState_self h]
  exact ⟨rfl, drawOf_le cap d⟩

/-! ## What a change of some units leaves -/

/-- Every unit that the list does not name, the number of units, the ports and the memory tiers are as they were. -/
structure LaserStep (us : List Nat) (d e : Dev) : Prop where
  others : ∀ k, k ∉ us → laserAt k e = laserAt k d
  length : e.net.lasers.length = d.net.lasers.length
  ports  : e.net.ports = d.net.ports
  tiers  : e.tiers = d.tiers

namespace LaserStep

variable {us vs : List Nat} {u : Nat} {d e f : Dev}

theorem of_net (h : e.net = d.net) (ht : e.tiers = d.tiers) : LaserStep us d e :=
  ⟨fun k _ => laserAt_congr h k, by rw [h], by rw [h], ht⟩

theorem refl (us : List Nat) (d : Dev) : LaserStep us d d := of_net rfl rfl

theorem trans (h1 : LaserStep us d e) (h2 : LaserStep us e f) : LaserStep us d f :=
  ⟨fun k hk => (h2.others k hk).trans (h1.others k hk), h2.length.trans h1.length, h2.ports.trans h1.ports, h2.tiers.trans h1.tiers⟩

theorem mono (h : LaserStep us d e) (hs : us ⊆ vs) : LaserStep vs d e := ⟨fun k hk => h.others k fun hu => hk (hs hu), h.length, h.ports, h.tiers⟩

theorem updLaser (hu : u ∈ us) (g : Laser → Laser) (d : Dev) : LaserStep us d (updLaser u g d) :=
  ⟨fun _ hk => laserAt_updLaser_other (ne_of_mem_of_not_mem hu hk).symm g d, List.length_set, rfl, rfl⟩

theorem setDraw (hu : u ∈ us) (cap : Nat) (d : Dev) : LaserStep us d (setDraw u cap d) := by
  have h := updLaser hu (fun x => { x with draw := drawOf cap d }) d
  exact h.trans (of_net (setDraw_net ..) (setDraw_tiers ..))

theorem laserState (hu : u ∈ us) (st cap : Nat) (d : Dev) : LaserStep us d (laserState u st cap d) :=
  (updLaser hu _ d).trans (setDraw hu ..)

theorem logEv (src cls area ev : Nat) (l : List Byte) (d : Dev) : LaserStep us d (logEv src cls area ev l d) := of_net (by simp) (by simp)

theorem photResult (cmd unit res : Nat) (d : Dev) : LaserStep us d (photResult cmd unit res d) := of_net rfl rfl

/-- A change of one unit leaves its partner. -/
theorem partner (h : LaserStep [u] d e) : laserAt (partner u) e = laserAt (partner u) d := h.others _ (by simpa using partner_ne u)

/-- A change of the units of one group leaves the other groups. -/
theorem group (h : LaserStep [u, Machine.partner u] d e) :
    (∀ k, k ≠ u → k ≠ Machine.partner u → laserAt k e = laserAt k d) ∧ e.tiers = d.tiers :=
  ⟨fun k h1 h2 => h.others k (by simp [h1, h2]), h.tiers⟩

theorem group_of_unit (h : LaserStep [u] d e) :
    (∀ k, k ≠ u → k ≠ Machine.partner u → laserAt k e = laserAt k d) ∧ e.tiers = d.tiers := (h.mono (by simp)).group

end LaserStep

/-! ## Rises, and the stop of a unit beside a lit partner (R340, R341) -/

section Group

variable {u : Nat} {d : Dev} (hv : partner u < d.net.lasers.length)
include hv

/-- Both units of the group SHARING, with 6 W each at most. -/
theorem sharing_effect (hu : u < d.net.lasers.length) :
    let e := laserState (partner u) 3 60 (laserState u 3 60 d)
    LaserStep [u, partner u] d e ∧ (laserAt u e).state = 3 ∧ (laserAt u e).draw ≤ 60 ∧
      (laserAt (partner u) e).state = 3 ∧ (laserAt (partner u) e).draw ≤ 60 := by
  intro e
  have h1 : LaserStep [u] d (laserState u 3 60 d) := .laserState (by simp) ..
  have h2 : LaserStep [partner u] (laserState u 3 60 d) e := .laserState (by simp) ..
  obtain ⟨hx, hxw⟩ := laserState_effect hu 3 60
  obtain ⟨hy, hyw⟩ := laserState_effect (d := laserState u 3 60 d) (by rw [h1.length]; exact hv) 3 60
  rw [← h2.others u (by simpa using (partner_ne u).symm)] at hx hxw
  exact ⟨(h1.mono (by simp)).trans (h2.mono (by simp)), hx, hxw, hy, hyw⟩

/-- A lit partner goes to full light, and the links stay up. -/
theorem partnerAlone_of_lit (h : lit (partner u) d = true) : partnerAlone u d = laserState (partner u) 4 120 d := by
  have hs : (laserAt (partner u) d).state = 3 ∨ (laserAt (partner u) d).state = 5 ∨ (laserAt (partner u) d).state = 4 := by
    have := of_decide_eq_true h
    omega
  have hlit : lit (partner u) (laserState (partner u) 4 120 d) = true := by
    rw [lit, (laserState_effect hv 4 120).1]
    rfl
  rw [partnerAlone, if_pos hs, settleLight, lit_group, hlit, Bool.or_true, if_pos rfl]

/-- A unit that stops beside a lit partner leaves it ALONE, with 12 W at most. -/
theorem stop_effect (h : lit (partner u) d = true) {e : Dev} (hs : LaserStep [u] d e) :
    LaserStep [u, partner u] d (partnerAlone u e) ∧ laserAt u (partnerAlone u e) = laserAt u e ∧
      (laserAt (partner u) (partnerAlone u e)).state = 4 ∧ (laserAt (partner u) (partnerAlone u e)).draw ≤ 120 := by
  have hve : partner u < e.net.lasers.length := by rw [hs.length]; exact hv
  have hlit : lit (partner u) e = true := by rw [lit, hs.partner]; exact h
  have h2 : LaserStep [partner u] e (laserState (partner u) 4 120 e) := .laserState (by simp) ..
  rw [partnerAlone_of_lit hve hlit]
  exact ⟨(hs.mono (by simp)).trans (h2.mono (by simp)), h2.others u (by simpa using (partner_ne u).symm), laserState_effect hve 4 120⟩

end Group

/-- A unit that fails is dark in FAULT, and the log says so (R341). -/
def faulted (u code : Nat) (d : Dev) : Dev :=
  logEv 12 2 0x06 5 (netData 0 0 0 u 0) (updLaser u (fun x => { x with state := 7, fault := code % 256, draw := 0, rising := none }) d)

theorem faulted_effect {u : Nat} {d : Dev} (h : u < d.net.lasers.length) (code : Nat) :
    LaserStep [u] d (faulted u code d) ∧
      laserAt u (faulted u code d) = { laserAt u d with state := 7, fault := code % 256, draw := 0, rising := none } := by
  refine ⟨.trans (.updLaser (by simp) ..) (.logEv ..), ?_⟩
  rw [faulted, laserAt_congr (logEv_net ..), laserAt_updLaser_self h]

@[simp] theorem laserAt_photResult (k cmd unit res : Nat) (d : Dev) : laserAt k (photResult cmd unit res d) = laserAt k d := rfl

/-- The result of a service command of a laser unit (R342). -/
theorem getW_photResult {cmd u res : Nat} (hc : cmd ≤ 3) (hu : u < 8) (hr : res < 256) (d : Dev) :
    getW .photServiceStatus 0 0 (photResult cmd u res d) = cmd * 4096 + u * 256 + res := by
  rw [photResult, getW_setW_self]
  omega

end Sys2Proof.Machine
end

section
/-! SUPPORT. The links of a group's ports go down with its light (R29, R341): frames gathered meanwhile raise no link. -/

namespace Sys2Proof.Machine

/-! ## Frames that are gathered change no link -/

/-- A port's record without the frames that wait in it. -/
def Port.unqueued (r : Port) : Port := { r with control := [], data := [], starts := [], held := [] }

/-- The engines, and each port's record but for the frames that wait in it, are as they were. -/
structure QueueStep (d e : Dev) : Prop where
  engines : e.net.engines = d.net.engines
  ports   : ∀ q, (portAt q e).unqueued = (portAt q d).unqueued

namespace QueueStep

variable {d e f : Dev}

theorem align (h : QueueStep d e) (q : Nat) : (portAt q e).align = (portAt q d).align := (congrArg Port.align (h.ports q) :)

theorem refl (d : Dev) : QueueStep d d := ⟨rfl, fun _ => rfl⟩

theorem trans (h1 : QueueStep d e) (h2 : QueueStep e f) : QueueStep d f :=
  ⟨h2.engines.trans h1.engines, fun q => (h2.ports q).trans (h1.ports q)⟩

theorem of_ports (he : e.net.engines = d.net.engines) (hp : e.net.ports = d.net.ports) : QueueStep d e :=
  ⟨he, fun q => by rw [portAt, hp]; rfl⟩

theorem updPort (p : Nat) {g : Port → Port} (d : Dev) (hg : ∀ r, (g r).unqueued = r.unqueued) : QueueStep d (updPort p g d) := by
  refine ⟨rfl, fun q => ?_⟩
  by_cases h : q = p
  · subst h; rw [portAt_updPort_self, hg]
  · rw [portAt_updPort_other g d h]

theorem enterPort (p : Nat) (x : Frame) (d : Dev) : QueueStep d (enterPort p x d) := by
  unfold Machine.enterPort
  dsimp only
  split
  · exact updPort p d fun _ => rfl
  · unfold enterLeaf
    exact updPort p d fun _ => rfl

theorem placeFrame (i : Nat) (x : Frame) (d : Dev) : QueueStep d (placeFrame i x d) := by
  unfold Machine.placeFrame
  split
  · refine trans ?_ (enterPort ..)
    exact of_ports rfl rfl
  · exact of_ports rfl rfl

theorem sendFrame (i : Nat) (x : Frame) (d : Dev) : QueueStep d (sendFrame i x d) := by
  unfold Machine.sendFrame
  split
  · exact of_ports rfl rfl
  · exact placeFrame ..

theorem gather (d : Dev) : QueueStep d (gather d) := by
  have fold : ∀ (l : List (Nat × Frame)) (d : Dev), QueueStep d (each l (fun x d => Machine.sendFrame x.1 x.2 d) d) := by
    intro l
    induction l with
    | nil => exact refl
    | cons x l ih => exact fun d => (sendFrame x.1 x.2 d).trans (ih _)
  unfold Machine.gather
  split
  · exact refl d
  · refine trans ?_ (fold ..)
    exact of_ports rfl rfl

end QueueStep

/-! ## Links that stay down -/

theorem align_updPort_of_keeps {g : Port → Port} (hg : ∀ r, (g r).align = r.align) (p q : Nat) (d : Dev) :
    (portAt q (updPort p g d)).align = (portAt q d).align := by
  by_cases h : q = p
  · subst h; rw [portAt_updPort_self, hg]
  · rw [portAt_updPort_other g d h]

theorem align_countPort (p q i n : Nat) (d : Dev) : (portAt q (countPort p i n d)).align = (portAt q d).align := by
  unfold countPort
  exact align_updPort_of_keeps (by intro; rfl) p q d

theorem align_markFall (p q now : Nat) (d : Dev) : (portAt q (markFall p now d)).align = (portAt q d).align := by
  rw [markFall, align_countPort, portAt_setBit]
  exact align_updPort_of_keeps (by intro; rfl) p q d

/-- What a change leaves, it leaves where it is made under a condition. -/
theorem when_keeps {α : Type} (m : Dev → α) {c : Bool} {g : Dev → Dev} {d : Dev} (h : m (g d) = m d) : m (when_ c g d) = m d := by
  cases c
  · rfl
  · exact h

/-- A fall of one port's link leaves the alignment of the others. -/
theorem align_linkFalls (p q : Nat) (al loc rem : Bool) (d : Dev) :
    (portAt q (linkFalls p al loc rem d)).align = if q = p then al else (portAt q d).align := by
  have halign := fun {c g d} => when_keeps (fun e => (portAt q e).align) (c := c) (g := g) (d := d)
  rw [linkFalls_eq, halign (align_markFall ..), portAt_faultSignal, halign (align_countPort ..), (QueueStep.gather _).align]
  split
  · next h => subst h; rw [portAt_updPort_self]; rfl
  · next h => rw [portAt_updPort_other _ _ h]

theorem engines_linkFalls (p : Nat) (al loc rem : Bool) (d : Dev) : (linkFalls p al loc rem d).net.engines = d.net.engines := by
  have hengines := fun {c g d} => when_keeps (fun e => e.net.engines) (c := c) (g := g) (d := d)
  rw [linkFalls_eq, hengines rfl, faultSignal_net, hengines rfl, (QueueStep.gather _).engines]
  rfl

/-- The engines are as they were, and a port without alignment is still without. -/
structure DarkStep (d e : Dev) : Prop where
  engines : e.net.engines = d.net.engines
  down    : ∀ q, (portAt q d).align = false → (portAt q e).align = false

theorem DarkStep.refl (d : Dev) : DarkStep d d := ⟨rfl, fun _ => id⟩

theorem DarkStep.trans {d e f : Dev} (h1 : DarkStep d e) (h2 : DarkStep e f) : DarkStep d f :=
  ⟨h2.engines.trans h1.engines, fun q h => h2.down q (h1.down q h)⟩

theorem portExists_congr {d e : Dev} (h : e.net.engines = d.net.engines) (p : Nat) : portExists p e = portExists p d := by
  unfold portExists engAt
  rw [h]

/-- What `settleLight` does to each port of a dark group. -/
def dimPort (p : Nat) (d : Dev) : Dev :=
  if portExists p d && (portAt p d).align then linkFalls p false (portAt p d).local_ (portAt p d).remote d else d

theorem dimPort_darkStep (p : Nat) (d : Dev) : DarkStep d (dimPort p d) := by
  unfold dimPort
  split
  · refine ⟨engines_linkFalls .., fun q h => ?_⟩
    rw [align_linkFalls, h, ite_self]
  · exact .refl d

theorem align_dimPort {p : Nat} {d : Dev} (h : portExists p d = true) : (portAt p (dimPort p d)).align = false := by
  unfold dimPort
  split
  · rw [align_linkFalls, if_pos rfl]
  · next hn => simpa [h] using hn

/-- Each port of the list that its engine's mode uses is without alignment in the end. -/
theorem each_dimPort (l : List Nat) (d : Dev) :
    DarkStep d (each l dimPort d) ∧ ∀ p ∈ l, portExists p d = true → (portAt p (each l dimPort d)).align = false := by
  induction l generalizing d with
  | nil => exact ⟨.refl d, by simp⟩
  | cons q l ih =>
    have hq := dimPort_darkStep q d
    obtain ⟨hstep, hdown⟩ := ih (dimPort q d)
    refine ⟨hq.trans hstep, fun p hp he => ?_⟩
    rcases List.mem_cons.mp hp with rfl | hp
    · exact hstep.down p (align_dimPort he)
    · exact hdown p hp ((portExists_congr hq.engines p).trans he)

/-- R29: where both units of a group are dark, the links of its ports are down. -/
theorem settleLight_dark {u p : Nat} {d : Dev} (h1 : lit u d = false) (h2 : lit (partner u) d = false) (hp : p / 8 = u / 2)
    (he : portExists p d = true) : linkUp p (settleLight (u / 2) d) = false := by
  have heq : settleLight (u / 2) d = each ((List.range 8).map (fun k => 8 * (u / 2) + k)) dimPort d := by
    rw [settleLight, lit_group, h1, h2, Bool.or_false, if_neg (by decide)]
    rfl
  have hmem : p ∈ (List.range 8).map (fun k => 8 * (u / 2) + k) := List.mem_map.mpr ⟨p % 8, List.mem_range.mpr (by omega), by omega⟩
  rw [heq, linkUp, (each_dimPort _ d).2 p hmem he]
  rfl

end Sys2Proof.Machine
end

section
/-! SUPPORT. Laser units: insertion, check, rise, removal, fault, drain and cancel (R29, R34, R339 to R342). -/

namespace Sys2Proof.Machine

/-! ## What each command does to the device -/

section Commands

variable {s : State} {u : Nat} (hu : u < 8)
include hu

theorem exec_laserUnitInserted (h : (laserAt u s.dev).present = false) : exec (.laserUnitInserted u) s = .next { s with
    dev := updLaser u (fun _ => { state := 1, present := true, fault := 0, draw := 0, rising := none }) s.dev } := by
  change execLaserUnitInserted u s = _
  rw [execLaserUnitInserted, laserInserted, if_pos (by simp [hu, h])]

theorem exec_laserUnitRemoved (h : (laserAt u s.dev).present = true) :
    exec (.laserUnitRemoved u) s = .next { s with dev := partnerAlone u (updLaser u (fun _ => Laser.empty) s.dev) } := by
  change execLaserUnitRemoved u s = _
  rw [execLaserUnitRemoved, laserRemoved, if_pos (by simp [hu, h])]

theorem exec_laserUnitFault (h : (laserAt u s.dev).present = true) (code : Nat) :
    exec (.laserUnitFault u code) s = .next { s with dev := partnerAlone u (faulted u code s.dev) } := by
  change execLaserUnitFault u code s = _
  rw [execLaserUnitFault, laserFault, if_pos (by simp [hu, h])]
  rfl

section Checking

variable (h1 : (laserAt u s.dev).state = 1) (h2 : (laserAt u s.dev).rising = none)
include h1 h2

theorem exec_laserCheckEnd_rises {w : Nat} (hw : w ≤ 12) : exec (.laserCheckEnd u 16 1311 ⟨w, true⟩) s = .next { s with
    dev := updLaser u (fun x => { x with rising := some (if lit (partner u) s.dev then 3 else 4) }) s.dev } := by
  change execLaserCheckEnd u 16 1311 ⟨w, true⟩ s = _
  simp [execLaserCheckEnd, laserCheckEnd, hu, h1, h2, hw]

theorem exec_laserCheckEnd_unmated {w : Nat} (hw : w ≤ 12) : exec (.laserCheckEnd u 16 1311 ⟨w, false⟩) s = .next s := by
  change execLaserCheckEnd u 16 1311 ⟨w, false⟩ s = _
  simp [execLaserCheckEnd, laserCheckEnd, hu, h1, h2, hw]

theorem exec_laserCheckEnd_unsupported {o l w : Nat} (h : ¬(o = 16 ∧ l = 1311 ∧ w ≤ 12)) (m : Bool) :
    exec (.laserCheckEnd u o l ⟨w, m⟩) s = .next { s with dev := logEv 12 2 0x06 4 (netData 0 0 0 u 0) (laserState u 2 0 s.dev) } := by
  change execLaserCheckEnd u o l ⟨w, m⟩ s = _
  rw [execLaserCheckEnd, laserCheckEnd, if_pos (by simp [hu, h1, h2]), if_neg h]

end Checking

section Service

variable (hr : s.dev.start.ready = true) (hl : linkOpen s.dev = true)
include hr hl

theorem exec_laserDrain : exec (.laserDrain u) s = .next { s with dev := laserDrain u s.dev } := by
  change execLaserDrain u s = _
  rw [execLaserDrain, overLink_unheld (unheld_of_linkOpen hl), if_pos hu]
  simp [managerWrite, hr, hl]

theorem exec_laserCancel : exec (.laserCancel u) s = .next { s with dev := laserCancel u s.dev } := by
  change execLaserCancel u s = _
  rw [execLaserCancel, overLink_unheld (unheld_of_linkOpen hl), if_pos hu]
  simp [managerWrite, hr, hl]

end Service

end Commands

/-! ## What a rise, a drain and a darkened group come to -/

theorem exec_laserRiseEnd (u : Nat) (s : State) : exec (.laserRiseEnd u) s = .next { s with dev := laserRiseEnd u s.dev } := rfl

section Group

variable {u : Nat} {d : Dev}

theorem laserRiseEnd_shares (h : (laserAt u d).rising = some 3 ∨ (laserAt u d).rising = some 4 ∧ lit (partner u) d = true) :
    laserRiseEnd u d = laserState (partner u) 3 60 (laserState u 3 60 d) := by
  rcases h with h | ⟨h, hl⟩
  · rw [laserRiseEnd, h]
    rfl
  · rw [laserRiseEnd, h]
    exact if_pos hl

theorem laserRiseEnd_alone (h : (laserAt u d).rising = some 4) (hl : lit (partner u) d = false) :
    laserRiseEnd u d = laserState u 4 120 d := by
  rw [laserRiseEnd, h]
  exact if_neg (by simp [hl])

theorem laserRiseEnd_drained (h : (laserAt u d).rising = some 6) :
    laserRiseEnd u d = if (laserAt (partner u) d).state = 4 then setDraw (partner u) 120 (laserState u 6 0 d) else laserState u 6 0 d := by
  rw [laserRiseEnd, h]
  simp [when_]

/-- A drained unit is dark, and its partner, where it is ALONE, draws 12 W at most. -/
theorem drained_effect (hu : u < d.net.lasers.length) (hv : partner u < d.net.lasers.length) (h : (laserAt u d).rising = some 6) :
    let e := laserRiseEnd u d
    LaserStep [u, partner u] d e ∧ (laserAt u e).state = 6 ∧ (laserAt u e).draw = 0 ∧
      ((laserAt (partner u) d).state ≠ 4 → laserAt (partner u) e = laserAt (partner u) d) ∧
      ((laserAt (partner u) d).state = 4 → (laserAt (partner u) e).state = 4 ∧ (laserAt (partner u) e).draw ≤ 120) := by
  have h1 : LaserStep [u] d (laserState u 6 0 d) := .laserState (by simp) ..
  obtain ⟨hx, hw⟩ := laserState_effect hu 6 0
  have hw0 := Nat.le_zero.mp hw
  rw [laserRiseEnd_drained h]
  by_cases hy : (laserAt (partner u) d).state = 4
  · rw [if_pos hy]
    have h2 : LaserStep [partner u] (laserState u 6 0 d) (setDraw (partner u) 120 (laserState u 6 0 d)) := .setDraw (by simp) ..
    rw [← h2.others u (by simpa using (partner_ne u).symm)] at hx hw0
    refine ⟨(h1.mono (by simp)).trans (h2.mono (by simp)), hx, hw0, fun hn => absurd hy hn, fun _ => ?_⟩
    rw [laserAt_setDraw_self (by rw [h1.length]; exact hv), h1.partner]
    exact ⟨hy, drawOf_le 120 _⟩
  · rw [if_neg hy]
    exact ⟨h1.mono (by simp), hx, hw0, fun _ => h1.partner, fun h => absurd h hy⟩

/-- LASER_DRAIN: the unit keeps its draw until it is dark, and its partner takes no more than the 12 W of the group leave (R34, R342). -/
theorem drain_effect (hu : u < d.net.lasers.length) (hv : partner u < d.net.lasers.length) :
    let e := updLaser u (fun x => { x with state := 5, rising := some 6 }) (laserState (partner u) 4 (120 - (laserAt u d).draw) d)
    LaserStep [u, partner u] d e ∧ laserAt u e = { laserAt u d with state := 5, rising := some 6 } ∧
      (laserAt (partner u) e).state = 4 ∧ (laserAt (partner u) e).draw ≤ 120 - (laserAt u d).draw := by
  intro e
  have h1 : LaserStep [partner u] d (laserState (partner u) 4 (120 - (laserAt u d).draw) d) := .laserState (by simp) ..
  have h2 : LaserStep [u] (laserState (partner u) 4 (120 - (laserAt u d).draw) d) e := .updLaser (by simp) ..
  have hp := laserState_effect hv 4 (120 - (laserAt u d).draw)
  rw [← h2.partner] at hp
  refine ⟨(h1.mono (by simp)).trans (h2.mono (by simp)), ?_, hp⟩
  rw [laserAt_updLaser_self (by rw [h1.length]; exact hu), h1.others u (by simpa using (partner_ne u).symm)]

/-- A unit removed beside a partner that is not lit darkens the group. -/
theorem removed_dark (hu : u < d.net.lasers.length) (hv : partner u < d.net.lasers.length) (h : lit (partner u) d = false) {p : Nat}
    (hp : p / 8 = u / 2) (he : portExists p d = true) : linkUp p (partnerAlone u (updLaser u (fun _ => Laser.empty) d)) = false := by
  have h1 : LaserStep [u] d (updLaser u (fun _ => Laser.empty) d) := .updLaser (by simp) ..
  have hempty : lit u (updLaser u (fun _ => Laser.empty) d) = false := by
    rw [lit, laserAt_updLaser_self hu]
    rfl
  have hdark : lit (partner u) (updLaser u (fun _ => Laser.empty) d) = false := by rw [lit, h1.partner]; exact h
  have hn : ¬((laserAt (partner u) d).state = 3 ∨ (laserAt (partner u) d).state = 5 ∨ (laserAt (partner u) d).state = 4) := by
    have := of_decide_eq_false h
    omega
  rw [partnerAlone, h1.partner, if_neg hn]
  split
  · refine settleLight_dark ?_ ?_ hp he
    · rw [lit, laserAt_updLaser_other (partner_ne u).symm]; exact hempty
    · rw [lit, laserAt_updLaser_self (by rw [h1.length]; exact hv)]; exact hdark
  · exact settleLight_dark hempty hdark hp he

end Group

/-- Settles O44: what each command does by its `exec_` lemma, and the units after it by `sharing_effect`, `drained_effect`, `drain_effect`,
`stop_effect` and `removed_dark`. -/
theorem laserUnits : Obligations.LaserUnits := by
  intro s u hu8 hn x y others
  have hu : u < s.dev.net.lasers.length := by omega
  have hv : partner u < s.dev.net.lasers.length := by have := partner_lt hu8; omega
  have one : ∀ (g : Laser → Laser), LaserStep [u] s.dev (updLaser u g s.dev) := fun g => .updLaser (by simp) ..
  refine ⟨fun hp => ?_, fun h1 h2 => ⟨fun w hw => ?_, fun w hw => exec_laserCheckEnd_unmated hu8 h1 h2 hw, fun o l w m hbad => ?_⟩, fun h => ?_,
    fun h hl => ?_, fun h => ?_, fun hp hl => ⟨?_, fun c => ?_⟩, fun hp hl => ?_, fun hr hlink => ⟨fun hx hy => ?_, fun hno => ?_, fun hx => ?_,
    fun h5 h6 => ?_⟩⟩
  · exact ⟨_, exec_laserUnitInserted hu8 hp, (one _).group_of_unit, (one _).partner, laserAt_updLaser_self hu _⟩
  · exact ⟨_, exec_laserCheckEnd_rises hu8 h1 h2 hw, (one _).group_of_unit, (one _).partner, laserAt_updLaser_self hu _⟩
  · have hstep : LaserStep [u] s.dev (laserState u 2 0 s.dev) := .laserState (by simp) ..
    have hlog := hstep.trans (.logEv 12 2 0x06 4 (netData 0 0 0 u 0) _)
    obtain ⟨hs, hw⟩ := laserState_effect hu 2 0
    refine ⟨_, exec_laserCheckEnd_unsupported hu8 h1 h2 hbad m, hlog.group_of_unit, hlog.partner, ?_⟩
    rw [laserAt_congr (logEv_net ..)]
    exact ⟨hs, Nat.le_zero.mp hw⟩
  · obtain ⟨hstep, heff⟩ := sharing_effect hv hu
    rw [← laserRiseEnd_shares h] at hstep heff
    exact ⟨_, exec_laserRiseEnd u s, hstep.group, heff⟩
  · have hstep : LaserStep [u] s.dev (laserState u 4 120 s.dev) := .laserState (by simp) ..
    obtain ⟨hs, hw⟩ := laserState_effect hu 4 120
    rw [← laserRiseEnd_alone h hl] at hstep hs hw
    exact ⟨_, exec_laserRiseEnd u s, hstep.group_of_unit, hs, hw, hstep.partner⟩
  · obtain ⟨hstep, heff⟩ := drained_effect hu hv h
    exact ⟨_, exec_laserRiseEnd u s, hstep.group, heff⟩
  · obtain ⟨hstep, hself, hs, hw⟩ := stop_effect hv hl (one fun _ => Laser.empty)
    exact ⟨_, exec_laserUnitRemoved hu8 hp, hstep.group, hself.trans (laserAt_updLaser_self hu _), hs, hw, hstep.ports⟩
  · obtain ⟨hfault, hrec⟩ := faulted_effect hu c
    obtain ⟨hstep, hself, hs, hw⟩ := stop_effect hv hl hfault
    rw [hrec] at hself
    exact ⟨_, exec_laserUnitFault hu8 hp c, hstep.group, by rw [hself], by rw [hself], by rw [hself], hs, hw, hstep.ports⟩
  · exact ⟨_, exec_laserUnitRemoved hu8 hp, fun p hpu he => removed_dark hu hv hl hpu he⟩
  · obtain ⟨hstep, hself, hs, hw⟩ := drain_effect hu hv
    have hx' := exec_laserDrain hu8 hr hlink
    rw [laserDrain, if_pos ⟨hx, hy⟩] at hx'
    refine ⟨_, hx', (hstep.trans (.photResult 1 u 1 _)).group, ?_, ?_, hs, ?_, hw, getW_photResult (by decide) hu8 (by decide) _⟩ <;>
      rw [laserAt_photResult, hself]
  · have hx' := exec_laserDrain hu8 hr hlink
    rw [laserDrain, if_neg hno] at hx'
    exact ⟨_, hx', rfl, getW_photResult (by decide) hu8 (by decide) _⟩
  · have hx' := exec_laserCancel hu8 hr hlink
    rw [laserCancel, if_pos hx] at hx'
    have hstep := (one fun x => { x with rising := some (if lit (partner u) s.dev then 3 else 4) }).trans (.photResult 2 u 1 _)
    exact ⟨_, hx', hstep.group_of_unit, hstep.partner, (laserAt_photResult ..).trans (laserAt_updLaser_self hu _),
      getW_photResult (by decide) hu8 (by decide) _⟩
  · have hx' := exec_laserCancel hu8 hr hlink
    rw [laserCancel, if_neg (by rintro (h | h); exacts [h5 h, h6 h])] at hx'
    exact ⟨_, hx', rfl, getW_photResult (by decide) hu8 (by decide) _⟩

end Sys2Proof.Machine
end

section
/-! SUPPORT. What reset leaves (R44, R45, R393, R478, R485, R486, R529): the rails at the shipped shape, and every register at its row's Reset
column. -/

namespace Sys2Proof.Machine

/-- The register index holds one row for each name. -/
theorem rowOf_of_mem : ∀ r ∈ regRows, rowOf r.name = some r := by decide +kernel

/-- A register without a value of its own in log entry 4 starts at its row's Reset column. -/
theorem resetWord_of_row {r : RegRow} (hr : r ∈ regRows) (h : r.name ≠ .boundDevice ∧ r.name ≠ .prioBuf ∧ r.name ≠ .flowCtrl ∧
    r.name ≠ .pesynMark ∧ r.name ≠ .hbmRepair) (i j : Nat) : resetWord r.name i j = r.reset := by
  obtain ⟨h1, h2, h3, h4, h5⟩ := h
  rw [resetWord.eq_6 r.name i j h1 h2 h3 h4 h5, rowOf_of_mem r hr]
  rfl

/-- A register that was never written holds the value of a start. -/
theorem getW_of_no_regs {d : Dev} (h : d.regs = []) (n : RegName) (i j : Nat) : getW n i j d = resetWord n i j := by
  rw [getW, h]; rfl

/-- Settles O6: the register table is empty, so that a register reads its Reset column, and the rails stand at their shipped shape. -/
theorem resetState : Obligations.ResetState := by
  refine ⟨fun r hr h i j => ?_, by decide, fun k hk => ?_, by decide, by decide, fun a => ⟨rfl, rfl⟩, rfl, rfl, rfl, rfl, rfl, rfl, rfl,
    rfl, rfl, rfl⟩
  · rw [getW_of_no_regs rfl, resetWord_of_row hr h]
  · rcases hk with rfl | rfl <;> decide

end Sys2Proof.Machine
end

section
/-! SUPPORT. The current ledger (R43 to R50): what a pass of the governor and a change of a rail leave, and that no grant takes a rail past its
capacity. -/

namespace Sys2Proof.Machine

/-! ## A rail's record -/

theorem railAt_congr {d e : Dev} (h : e.pwr.rails = d.pwr.rails) (r : Nat) : railAt r e = railAt r d := by rw [railAt, h]; rfl

@[simp] theorem railAt_setW (r : Nat) (n : RegName) (i j w : Nat) (d : Dev) : railAt r (setW n i j w d) = railAt r d := rfl
@[simp] theorem railAt_setF (r : Nat) (n : RegName) (i j hi lo v : Nat) (d : Dev) : railAt r (setF n i j hi lo v d) = railAt r d := rfl
@[simp] theorem railAt_setBit (r : Nat) (n : RegName) (i j k : Nat) (d : Dev) : railAt r (setBit n i j k d) = railAt r d := rfl
@[simp] theorem railAt_setAsked (r : Nat) (f : List UnitId → List UnitId) (d : Dev) : railAt r (setAsked f d) = railAt r d := rfl

@[simp] theorem railAt_logEv (r src cls area ev : Nat) (l : List Byte) (d : Dev) : railAt r (logEv src cls area ev l d) = railAt r d :=
  railAt_congr (by simp) r

theorem railAt_updRail_self {r : Nat} {d : Dev} (h : r < d.pwr.rails.length) (f : Rail → Rail) : railAt r (updRail r f d) = f (railAt r d) := by
  simp [railAt, updRail, listGet, h]

theorem railAt_updRail_other {r k : Nat} (h : k ≠ r) (f : Rail → Rail) (d : Dev) : railAt k (updRail r f d) = railAt k d := by
  simp [railAt, updRail, listGet, List.getElem?_set_ne (Ne.symm h)]

theorem updRail_updRail {r : Nat} {d : Dev} (h : r < d.pwr.rails.length) (f g : Rail → Rail) :
    updRail r g (updRail r f d) = updRail r (fun x => g (f x)) d := by
  have hr := railAt_updRail_self h f
  unfold updRail at hr ⊢
  simp only [hr, List.set_set]

theorem updRail_congr {r : Nat} {d : Dev} {f g : Rail → Rail} (h : f (railAt r d) = g (railAt r d)) : updRail r f d = updRail r g d := by
  rw [updRail, h, updRail]

/-! ## What the governor may do to a rail (R47) -/

/-- GRANTED is within NOW, and the allowance's grants are within the allowance. -/
def Rail.Within (r : Rail) : Prop := r.granted ≤ r.capacity ∧ r.fromAllow ≤ r.allowance

/-- The governor gives grants to what waits: nothing else of the rail changes, no grant is lost, and the rail stays within its capacity. -/
structure Governed (r s : Rail) : Prop where
  rest   : s = { r with grants := s.grants, waiting := s.waiting }
  kept   : r.grants ⊆ s.grants
  within : r.Within → s.Within

theorem costSum_append (l m : List Grant) : costSum (l ++ m) = costSum l + costSum m := by simp [costSum]

/-- The grants that are not held from the allowance. -/
def Rail.plainGrants (r : Rail) : Nat := costSum (r.grants.filter (fun g => !fromAllowance g.unit))

theorem Rail.granted_eq (r : Rail) : r.granted = r.standing + max r.allowance r.fromAllow + r.plainGrants := rfl

/-- A grant adds its cost to the allowance's grants, or to the others (R45). -/
theorem Rail.grants_add (r : Rail) (g : Grant) :
    Rail.fromAllow { r with grants := r.grants ++ [g] } = r.fromAllow + (if fromAllowance g.unit then g.cost else 0) ∧
    Rail.plainGrants { r with grants := r.grants ++ [g] } = r.plainGrants + (if fromAllowance g.unit then 0 else g.cost) := by
  simp only [Rail.fromAllow, Rail.plainGrants, List.filter_append, costSum_append]
  cases h : fromAllowance g.unit <;> simp [h, costSum]

/-- A grant that fits leaves the rail within its capacity (R45, R47). -/
theorem Rail.Within.grant {r : Rail} (h : r.Within) {g : Grant} (hf : fits r g = true) :
    Rail.Within { r with grants := r.grants ++ [g] } := by
  obtain ⟨hcap, hall⟩ := h
  obtain ⟨h1, h2⟩ := r.grants_add g
  unfold fits at hf
  rw [Rail.granted_eq] at hcap hf
  unfold Rail.Within
  rw [Rail.granted_eq, h1, h2]
  change r.standing + max r.allowance _ + _ ≤ r.capacity ∧ _ ≤ r.allowance
  split at hf
  · next ha => simp only [ha, if_true, decide_eq_true_eq] at hf ⊢; omega
  · next ha => simp only [ha, decide_eq_true_eq] at hf ⊢; simp only [Bool.false_eq_true, if_false]; omega

namespace Governed

variable {r s t : Rail}

theorem refl (r : Rail) : Governed r r := ⟨rfl, List.Subset.refl _, id⟩

theorem trans (h1 : Governed r s) (h2 : Governed s t) : Governed r t :=
  ⟨by rw [h2.rest, h1.rest], List.Subset.trans h1.kept h2.kept, h2.within ∘ h1.within⟩

theorem capacity (h : Governed r s) : s.capacity = r.capacity := by rw [h.rest]; rfl
theorem allowance (h : Governed r s) : s.allowance = r.allowance := by rw [h.rest]; rfl
theorem sixteenths (h : Governed r s) : s.sixteenths = r.sixteenths := by rw [h.rest]
theorem stopped (h : Governed r s) : s.stopped = r.stopped := by rw [h.rest]
theorem slowHold (h : Governed r s) : s.slowHold = r.slowHold := by rw [h.rest]
theorem goodSince (h : Governed r s) : s.goodSince = r.goodSince := by rw [h.rest]

theorem waiting (r : Rail) (l : List GrantWait) : Governed r { r with waiting := l } := ⟨rfl, List.Subset.refl _, id⟩

theorem grant {g : Grant} (hf : fits r g = true) : Governed r { r with grants := r.grants ++ [g] } :=
  ⟨rfl, List.subset_append_left .., fun h => h.grant hf⟩

theorem grantPass (d : Dev) (l : List GrantWait) : ∀ (kept : List GrantWait) (shut : List Nat) (r : Rail),
    Governed r (grantPass d l kept shut r).1 := by
  induction l with
  | nil => exact fun kept _ r => waiting r kept
  | cons w l ih =>
    intro kept shut r
    unfold Machine.grantPass
    split
    · exact waiting r _
    split
    · exact ih ..
    split
    · exact ih ..
    split
    · next hf => exact (grant hf).trans (ih ..)
    · exact ih ..

/-- A governor that decides for rail `r` touches no other rail. -/
theorem regrant (r k : Nat) (d : Dev) : Governed (railAt k d) (railAt k (regrant r d)) := by
  have hupd : ∀ {s : Rail}, Governed (railAt r d) s → Governed (railAt k d) (railAt k (updRail r (fun _ => s) d)) := by
    intro s hs
    by_cases hk : k = r
    · subst hk
      by_cases hl : k < d.pwr.rails.length
      · rwa [railAt_updRail_self hl]
      · rw [updRail, List.set_eq_of_length_le (Nat.le_of_not_lt hl)]
        exact refl _
    · rw [railAt_updRail_other hk]
      exact refl _
  unfold Machine.regrant
  dsimp only
  split
  · unfold when_
    split
    · exact hupd (grantPass ..)
    · exact hupd (grantPass ..)
  · exact refl _

theorem each_regrant (l : List Nat) (k : Nat) (d : Dev) : Governed (railAt k d) (railAt k (each l Machine.regrant d)) := by
  induction l generalizing d with
  | nil => exact refl _
  | cons r l ih => exact (regrant r k d).trans (ih _)

end Governed

/-- A governor that decides for one rail leaves the others. -/
theorem railAt_regrant_other {r k : Nat} (h : k ≠ r) (d : Dev) : railAt k (regrant r d) = railAt k d := by
  unfold regrant when_
  dsimp only
  split
  · split
    · rw [railAt_setBit, railAt_updRail_other h]
    · rw [railAt_updRail_other h]
  · rfl

/-! ## One request on a rail on which none waits -/

/-- A request alone in the pass is granted where it fits and its share allows it, and waits otherwise (R47). -/
theorem grantPass_one (d : Dev) (w : GrantWait) (r : Rail) :
    grantPass d [w] [] [] r =
      (if shareOk r w.req d = true ∧ fits r w.req = true then { r with grants := r.grants ++ [w.req], waiting := [] }
        else { r with waiting := [w] }, false) := by
  cases hs : shareOk r w.req d <;> cases hf : fits r w.req <;> simp [grantPass, hs, hf]

/-- What the governor of an open rail makes of a change of the rail after which the pass does not run into the guard. -/
theorem regrant_updRail {r : Nat} {d : Dev} {f : Rail → Rail} {s : Rail} (hr : r < d.pwr.rails.length) (ho : (f (railAt r d)).open_ = true)
    (hp : grantPass (updRail r f d) (f (railAt r d)).waiting [] [] (f (railAt r d)) = (s, false)) :
    regrant r (updRail r f d) = updRail r (fun _ => s) d := by
  have hrail := railAt_updRail_self hr f
  rw [regrant, hrail]
  simp only [ho, if_true, hp, when_, Bool.false_eq_true, if_false]
  exact updRail_updRail hr f _

section Request

variable {s : State} {u : UnitId} {cost : Nat} {i : Option Nat}

theorem exec_grantRequest_noLevel (h : asksLevel ⟨u, cost, i⟩ s.dev = false) : exec (.grantRequest u cost i) s = .next s := by
  change execGrantRequest u cost i s = _
  simp [execGrantRequest, h]

theorem exec_grantRequest_level (h : asksLevel ⟨u, cost, i⟩ s.dev = true) :
    exec (.grantRequest u cost i) s = .next { s with dev := requestGrant ⟨u, cost, i⟩ (setAsked (· ++ [u]) s.dev) } := by
  change execGrantRequest u cost i s = _
  simp [execGrantRequest, h]

/-- A share is judged by the grants held and the share register, whatever waits (R49). -/
theorem shareOk_waiting {d e : Dev} (h : e.regs = d.regs) (r : Rail) (l : List GrantWait) (g : Grant) :
    shareOk { r with waiting := l } g e = shareOk r g d := by
  simp only [shareOk, getF_congr h]
  rfl

/-- A request on an open rail on which none waits, and which its share allows, is granted where it fits (R43, R47). -/
theorem requestGrant_fits {d : Dev} (hr : railOf u < d.pwr.rails.length) (ho : (railAt (railOf u) d).open_ = true)
    (hw : (railAt (railOf u) d).waiting = []) (hf : fits (railAt (railOf u) d) ⟨u, cost, i⟩ = true)
    (hs : shareOk (railAt (railOf u) d) ⟨u, cost, i⟩ d = true) :
    requestGrant ⟨u, cost, i⟩ d = updRail (railOf u) (fun r => { r with grants := r.grants ++ [⟨u, cost, i⟩] }) d := by
  rw [requestGrant, regrant_updRail hr ho (by
    rw [hw]; exact (grantPass_one ..).trans (congrArg (·, false) (if_pos ⟨(shareOk_waiting rfl ..).trans hs, hf⟩)))]
  exact updRail_congr (by rw [← hw])

/-- A request on an open rail on which none waits, that does not fit or that its share does not allow, waits (R47, R49). -/
theorem requestGrant_waits {d : Dev} (hr : railOf u < d.pwr.rails.length) (ho : (railAt (railOf u) d).open_ = true)
    (hw : (railAt (railOf u) d).waiting = [])
    (hno : ¬(fits (railAt (railOf u) d) ⟨u, cost, i⟩ = true ∧ shareOk (railAt (railOf u) d) ⟨u, cost, i⟩ d = true)) :
    requestGrant ⟨u, cost, i⟩ d = updRail (railOf u) (fun r => { r with waiting := [⟨⟨u, cost, i⟩, 0⟩] }) d := by
  rw [requestGrant, regrant_updRail hr ho (by
    rw [hw]; exact (grantPass_one ..).trans (congrArg (·, false) (if_neg fun h => hno ⟨h.2, (shareOk_waiting rfl ..).symm.trans h.1⟩)))]
  exact updRail_congr rfl

end Request

/-- A grant returned on an open rail on which none waits is taken off (R46). -/
theorem returnGrant_alone {u : UnitId} {d : Dev} (hr : railOf u < d.pwr.rails.length) (ho : (railAt (railOf u) d).open_ = true)
    (hw : (railAt (railOf u) d).waiting = []) :
    returnGrant u d = updRail (railOf u) (fun r => { r with grants := r.grants.filter (fun g => decide (g.unit ≠ u)) }) d := by
  rw [returnGrant, regrant_updRail hr ho (by rw [hw]; rfl)]
  refine updRail_congr ?_
  rw [← hw]

/-- A request keeps its rail within its capacity, and leaves the other rails (R47). -/
theorem requestGrant_within (g : Grant) {d : Dev} (hr : railOf g.unit < d.pwr.rails.length) (h : (railAt (railOf g.unit) d).Within) :
    (railAt (railOf g.unit) (requestGrant g d)).Within ∧ ∀ r, r ≠ railOf g.unit → railAt r (requestGrant g d) = railAt r d := by
  refine ⟨(Governed.regrant ..).within ?_, fun r hne => ?_⟩
  · rwa [railAt_updRail_self hr]
  · rw [requestGrant, railAt_regrant_other hne, railAt_updRail_other hne]

/-- Settles O12: a request and a return change one rail's record alone, and the governor keeps each rail within its capacity. -/
theorem currentLedger : Obligations.CurrentLedger := by
  refine ⟨fun s u cost i => ⟨exec_grantRequest_noLevel, fun hr ho hw => ⟨fun hl hf hs => ?_, fun hl hno => ?_, ?_⟩⟩,
    fun s t u cost i hr hcap hall hx => ?_⟩
  · rw [exec_grantRequest_level hl, requestGrant_fits (d := setAsked _ _) hr ho hw hf hs]
  · rw [exec_grantRequest_level hl, requestGrant_waits (d := setAsked _ _) hr ho hw hno]
  · change execGrantReturn u s = _
    rw [execGrantReturn, returnGrant_alone (d := setAsked _ _) hr ho hw]
  · cases hl : asksLevel ⟨u, cost, i⟩ s.dev with
    | false =>
      rw [exec_grantRequest_noLevel hl] at hx
      cases hx
      exact ⟨hcap, hall, fun _ _ => rfl⟩
    | true =>
      rw [exec_grantRequest_level hl] at hx
      cases hx
      obtain ⟨⟨h1, h2⟩, h3⟩ := requestGrant_within ⟨u, cost, i⟩ (d := setAsked (· ++ [u]) s.dev) hr ⟨hcap, hall⟩
      exact ⟨h1, h2, h3⟩

end Sys2Proof.Machine
end

section
/-! SUPPORT. Pace monitors (R36 to R39): what a measurement leaves of PACE_RATE, PACE_LOW, the readings and the die's rail. -/

namespace Sys2Proof.Machine

/-! ## Bits and registers -/

theorem eq_of_bitsOf_one {v w j k : Nat} (h : bitsOf v j j = bitsOf w k k) : bitOf v j = bitOf w k := by
  rw [bitOf_eq_bitsOf, bitOf_eq_bitsOf, h]

/-- A word with a field replaced, bit by bit. -/
theorem bitOf_withBits (w v : Nat) {hi lo : Nat} (h : lo ≤ hi) (k : Nat) :
    bitOf (withBits w hi lo v) k = if k < lo ∨ hi < k then bitOf w k else v.testBit (k - lo) := by
  split
  · next hk =>
    refine eq_of_bitsOf_one ?_
    rcases hk with hk | hk
    · rw [bitsOf_withBits_below _ _ hk (le_refl k) h]
    · rw [bitsOf_withBits_above _ _ hk h]
  · next hk =>
    have hf := congrArg (fun x => x.testBit (k - lo)) (bitsOf_withBits_self w v h)
    simp only [testBit_bitsOf, Nat.testBit_mod_two_pow, decide_eq_true (show k - lo < hi + 1 - lo by omega), Bool.true_and,
      show lo + (k - lo) = k by omega] at hf
    rw [bitOf_eq_testBit, hf]

/-- A bit of a field. -/
theorem bitOf_getF (n : RegName) (i j hi lo k : Nat) (d : Dev) (hk : k < hi + 1 - lo) : bitOf (getF n i j hi lo d) k = bitOf (getW n i j d) (lo + k) := by
  rw [bitOf_eq_testBit, bitOf_eq_testBit, getF, testBit_bitsOf, decide_eq_true hk, Bool.true_and]

@[simp] theorem getW_updRail (n : RegName) (i j r : Nat) (f : Rail → Rail) (d : Dev) : getW n i j (updRail r f d) = getW n i j d := rfl

@[simp] theorem getW_logEv (n : RegName) (i j src cls area ev : Nat) (l : List Byte) (d : Dev) :
    getW n i j (logEv src cls area ev l d) = getW n i j d := getW_congr (by simp) n i j

/-- A change of registers, of the power state and of the management controller, that leaves every register but those listed. -/
structure PowerStep (but : List Nat) (d e : Dev) : Prop where
  rest : e = { d with regs := e.regs, pwr := e.pwr, mc := e.mc }
  regs : Safety.SameRegs but d e

namespace PowerStep

variable {but : List Nat} {d e f : Dev}

theorem refl (but : List Nat) (d : Dev) : PowerStep but d d := ⟨rfl, fun _ _ => rfl⟩

theorem trans (h1 : PowerStep but d e) (h2 : PowerStep but e f) : PowerStep but d f :=
  ⟨by rw [h2.rest, h1.rest], fun a ha => (h2.regs a ha).trans (h1.regs a ha)⟩

theorem mono {more : List Nat} (h : PowerStep but d e) (hs : but ⊆ more) : PowerStep more d e := ⟨h.rest, fun a ha => h.regs a fun hb => ha (hs hb)⟩

theorem pwr (p : Power) (d : Dev) : PowerStep but d { d with pwr := p } := ⟨rfl, fun _ _ => rfl⟩

theorem updRail (r : Nat) (g : Rail → Rail) (d : Dev) : PowerStep but d (updRail r g d) := pwr ..

theorem logEv (src cls area ev : Nat) (l : List Byte) (d : Dev) : PowerStep but d (logEv src cls area ev l d) :=
  ⟨by rw [logEv_frame], fun _ _ => by rw [logEv_regs]⟩

theorem setF {n : RegName} {i j : Nat} (h : addrOf n i j ∈ but) (hi lo v : Nat) (d : Dev) : PowerStep but d (setF n i j hi lo v d) :=
  ⟨rfl, fun _ ha => Tab.get_set_other _ _ fun he => ha (he ▸ h)⟩

theorem setBit {n : RegName} {i j : Nat} (h : addrOf n i j ∈ but) (k : Nat) (d : Dev) : PowerStep but d (setBit n i j k d) := setF h ..

theorem countF {n : RegName} {i j : Nat} (h : addrOf n i j ∈ but) (hi lo k : Nat) (d : Dev) : PowerStep but d (countF n i j hi lo k d) := setF h ..

/-- The other registers read as they did. -/
theorem getW (h : PowerStep but d e) {n : RegName} {i j : Nat} (hn : addrOf n i j ∉ but) : getW n i j e = getW n i j d := by
  rw [Machine.getW, h.regs _ hn, ← Machine.getW]

theorem timers (h : PowerStep but d e) : e.timers = d.timers := by rw [h.rest]

end PowerStep

/-! ## The rate of a die (R36, R38, R39) -/

/-- PACE_RATE after the rate has followed the readings. -/
def rated (die : Nat) (d : Dev) : Dev := setF .paceRate die 0 15 0 (dieRate die d) d

/-- PACE_LOW after the lowest rate has followed the rate. -/
def lowered (die rate : Nat) (d : Dev) : Dev :=
  if rate = 0 then d
  else setF .paceLow die 0 15 0 (if getF .paceLow die 0 15 0 d = 0 then rate else min (getF .paceLow die 0 15 0 d) rate) d

/-- The rail's hold after the rate has moved from that of `d0`, at the moment `now`. -/
def heldBack (die now : Nat) (d0 : Dev) (rate : Nat) (d : Dev) : Dev :=
  if belowSlow die d then
    if belowSlow die d0 then updRail die (fun r => { r with slowHold := true, goodSince := none }) d
    else logEv die 2 0x01 1 (bytesLE 1 die ++ bytesLE 2 rate)
      (setBit .paceLow die 0 16 (updRail die (fun r => { r with slowHold := true, goodSince := none }) d))
  else if rate < 1540 then updRail die (fun r => { r with goodSince := none }) d
  else updRail die (fun r => { r with goodSince :=
    if r.slowHold then (if r.goodSince.isSome then r.goodSince else some now) else none }) d

theorem settleRate_eq (die : Nat) (d0 d : Dev) :
    settleRate die d0 d = heldBack die (clock die d) d0 (dieRate die d) (lowered die (dieRate die d) (rated die d)) := by
  unfold settleRate heldBack lowered
  rfl

/-- PACE_RATE and the readings are as they were, and of the registers PACE_LOW alone may have changed. -/
structure RateStep (die : Nat) (d e : Dev) : Prop where
  step     : PowerStep [addrOf .paceLow die 0] d e
  readings : e.pwr.readings = d.pwr.readings

namespace RateStep

variable {die : Nat} {d e f : Dev}

theorem refl (die : Nat) (d : Dev) : RateStep die d d := ⟨.refl .., rfl⟩

theorem trans (h1 : RateStep die d e) (h2 : RateStep die e f) : RateStep die d f := ⟨h1.step.trans h2.step, h2.readings.trans h1.readings⟩

theorem updRail (g : Rail → Rail) (d : Dev) : RateStep die d (updRail die g d) := ⟨.updRail .., rfl⟩

theorem logEv (src cls area ev : Nat) (l : List Byte) (d : Dev) : RateStep die d (logEv src cls area ev l d) := ⟨.logEv .., by rw [logEv_pwr]⟩

theorem setLow (hi lo v : Nat) (d : Dev) : RateStep die d (setF .paceLow die 0 hi lo v d) := ⟨.setF (by simp) .., rfl⟩

theorem lowered (rate : Nat) (d : Dev) : RateStep die d (lowered die rate d) := by
  unfold Machine.lowered
  split
  · exact refl ..
  · exact setLow ..

theorem heldBack (now : Nat) (d0 : Dev) (rate : Nat) (d : Dev) : RateStep die d (heldBack die now d0 rate d) := by
  unfold Machine.heldBack
  split
  · split
    · exact updRail ..
    · exact (updRail ..).trans ((setLow ..).trans (logEv ..))
  · split
    · exact updRail ..
    · exact updRail ..

theorem settleRate (d0 d : Dev) : RateStep die (rated die d) (settleRate die d0 d) := by
  rw [settleRate_eq]
  exact (lowered ..).trans (heldBack ..)

theorem paceRate (h : RateStep die d e) : getW .paceRate die 0 e = getW .paceRate die 0 d :=
  h.step.getW (by simp only [addrOf, List.mem_singleton]; omega)

/-- Whether a die is below the slow corner hangs on PACE_RATE alone (R37, R39). -/
theorem belowSlow (h : RateStep die d e) : belowSlow die e = belowSlow die d := by
  unfold Machine.belowSlow monitorsOk getF
  rw [h.paceRate]

end RateStep

/-- A die below the slow corner grants nothing (R39). -/
theorem settleRate_closed {die : Nat} {d0 d : Dev} (hr : die < d.pwr.rails.length) (h : belowSlow die (settleRate die d0 d) = true) :
    (railAt die (settleRate die d0 d)).open_ = false := by
  rw [settleRate_eq] at h ⊢
  have hlen : die < (lowered die (dieRate die d) (rated die d)).pwr.rails.length := by
    unfold lowered; split <;> exact hr
  generalize lowered die (dieRate die d) (rated die d) = e at h hlen
  rw [(RateStep.heldBack ..).belowSlow] at h
  have hheld := railAt_updRail_self hlen (fun r => { r with slowHold := true, goodSince := none })
  rw [heldBack, if_pos h]
  split
  · rw [hheld, Rail.open_, Bool.not_true, Bool.and_false]
  · rw [railAt_logEv, railAt_setBit, hheld, Rail.open_, Bool.not_true, Bool.and_false]

/-! ## The lowest reading (R38) -/

theorem dieRate_eq (die : Nat) (d : Dev) :
    dieRate die d = (((monitorsOk die d).filterMap (fun k => Tab.get d.pwr.readings (8 * die + k))).min?).getD 0 := by
  unfold dieRate
  split
  · next h => rw [h]; rfl
  · next h => rw [h]; rfl

theorem mem_monitorsOk {die k : Nat} {d : Dev} : k ∈ monitorsOk die d ↔ k < 8 ∧ bitOf (getF .paceRate die 0 23 16 d) k = true := by
  simp [monitorsOk]

/-- The rate is the least of the readings kept of the monitors in service, where there is one. -/
theorem dieRate_least {die k v : Nat} {d : Dev} (hk : k ∈ monitorsOk die d) (hv : Tab.get d.pwr.readings (8 * die + k) = some v) :
    dieRate die d ≤ v ∧ ∃ j ∈ monitorsOk die d, Tab.get d.pwr.readings (8 * die + j) = some (dieRate die d) := by
  rw [dieRate_eq]
  have hmem : v ∈ (monitorsOk die d).filterMap (fun k => Tab.get d.pwr.readings (8 * die + k)) := List.mem_filterMap.mpr ⟨k, hk, hv⟩
  obtain ⟨m, hm⟩ := Option.isSome_iff_exists.mp (List.isSome_min?_of_mem hmem)
  obtain ⟨hin, hle⟩ := List.min?_eq_some_iff.mp hm
  rw [hm]
  exact ⟨hle v hmem, List.mem_filterMap.mp hin⟩

/-! ## A measurement (R36, R37) -/

section Settled

variable (die : Nat) (d0 d : Dev)

theorem settleRate_inService : getF .paceRate die 0 23 16 (settleRate die d0 d) = getF .paceRate die 0 23 16 d := by
  rw [getF, (RateStep.settleRate ..).paceRate]
  exact getF_setF_above d (by decide) (by decide) (by decide)

theorem settleRate_rate : getF .paceRate die 0 15 0 (settleRate die d0 d) = dieRate die d % 65536 := by
  rw [getF, (RateStep.settleRate ..).paceRate]
  exact getF_setF_self d (by decide) (by decide)

theorem settleRate_readings : (settleRate die d0 d).pwr.readings = d.pwr.readings := (RateStep.settleRate ..).readings

theorem settleRate_step : PowerStep [addrOf .paceRate die 0, addrOf .paceLow die 0] d (settleRate die d0 d) :=
  (PowerStep.setF (by simp) ..).trans ((RateStep.settleRate ..).step.mono (by simp))

end Settled

/-- RATE is the least of the readings kept of the monitors in service, where each fits the field (R38). -/
theorem settleRate_least {die : Nat} {d0 d : Dev} (hfit : ∀ k v, Tab.get d.pwr.readings k = some v → v < 65536) {k v : Nat} (hk : k < 8)
    (hin : bitOf (getF .paceRate die 0 23 16 (settleRate die d0 d)) k = true)
    (hv : Tab.get (settleRate die d0 d).pwr.readings (8 * die + k) = some v) :
    let e := settleRate die d0 d
    getF .paceRate die 0 15 0 e ≤ v ∧ ∃ j < 8, bitOf (getF .paceRate die 0 23 16 e) j = true ∧
      Tab.get e.pwr.readings (8 * die + j) = some (getF .paceRate die 0 15 0 e) := by
  intro e
  rw [settleRate_inService] at hin
  rw [settleRate_readings] at hv
  obtain ⟨hle, j, hj, hr⟩ := dieRate_least (mem_monitorsOk.mpr ⟨hk, hin⟩) hv
  obtain ⟨hj8, hjin⟩ := mem_monitorsOk.mp hj
  have hrate : getF .paceRate die 0 15 0 e = dieRate die d := (settleRate_rate ..).trans (Nat.mod_eq_of_lt (hfit _ _ hr))
  refine ⟨hrate ▸ hle, j, hj8, ?_, ?_⟩
  · rw [settleRate_inService]; exact hjin
  · rw [settleRate_readings, hrate]; exact hr

/-- The device that a measurement leaves before the rate follows: a reading kept, or a monitor out of service. -/
def measured (die mon rate predicted : Nat) (d : Dev) : Dev :=
  if 100 * (rate - predicted + (predicted - rate)) ≤ 8 * predicted then
    { d with pwr := { d.pwr with readings := Tab.set d.pwr.readings (8 * die + mon) rate } }
  else
    logEv die 1 0x01 2 (bytesLE 1 die ++ bytesLE 1 mon ++ bytesLE 2 rate ++ bytesLE 2 predicted)
      (setF .paceRate die 0 (16 + mon) (16 + mon) 0 d)

theorem paceMeasurement_eq {die mon : Nat} {d : Dev} (hd : die < 11) (hm : mon < 8) (hin : bitOf (getF .paceRate die 0 23 16 d) mon = true)
    (rate predicted : Nat) : paceMeasurement die mon rate predicted d = settleRate die d (measured die mon rate predicted d) := by
  have hgap : (if rate < predicted then predicted - rate else rate - predicted) = rate - predicted + (predicted - rate) := by
    split <;> omega
  unfold paceMeasurement measured
  simp only [hd, hm, hin, decide_true, Bool.and_self, if_true, hgap, gt_iff_lt]
  split
  · rw [if_neg (by omega)]
  · rw [if_pos (by omega)]

theorem measured_step (die mon rate predicted : Nat) (d : Dev) :
    PowerStep [addrOf .paceRate die 0, addrOf .paceLow die 0] d (measured die mon rate predicted d) := by
  unfold measured
  split
  · exact .pwr ..
  · exact (PowerStep.setF (by simp) ..).trans (.logEv ..)

theorem measured_rails (die mon rate predicted : Nat) (d : Dev) : (measured die mon rate predicted d).pwr.rails = d.pwr.rails := by
  unfold measured
  split
  · rfl
  · rw [logEv_pwr]; rfl

/-- Readings that fit the field stay so. -/
theorem measured_fits {rate : Nat} {d : Dev} (hr : rate < 65536) (hfit : ∀ k v, Tab.get d.pwr.readings k = some v → v < 65536)
    (die mon predicted : Nat) : ∀ k v, Tab.get (measured die mon rate predicted d).pwr.readings k = some v → v < 65536 := by
  intro k v hv
  unfold measured at hv
  split at hv
  · by_cases hk : k = 8 * die + mon
    · subst hk
      rw [Tab.get_set_self] at hv
      cases hv
      exact hr
    · rw [Tab.get_set_other _ _ hk] at hv
      exact hfit k v hv
  · rw [logEv_pwr] at hv
    exact hfit k v hv

/-- A monitor taken out of service leaves the others in (R37). -/
theorem inService_cleared {die mon k : Nat} (hm : mon < 8) (hk : k < 8) (d : Dev) :
    bitOf (getF .paceRate die 0 23 16 (setF .paceRate die 0 (16 + mon) (16 + mon) 0 d)) k =
      (bitOf (getF .paceRate die 0 23 16 d) k && k != mon) := by
  rw [bitOf_getF _ _ _ _ _ _ _ (by omega), bitOf_getF _ _ _ _ _ _ _ (by omega), getW_setF_self _ (le_refl _) (by omega),
    bitOf_withBits _ _ (le_refl _)]
  by_cases h : k = mon
  · subst h; simp
  · rw [if_pos (by omega)]; simp [h]

end Sys2Proof.Machine
end

section
/-! SUPPORT. The input and the brownout (R39, R51 to R55): what a level, a warning, the halving, a recovery and a step leave of
BROWNOUT_STATUS and of the rails. -/

namespace Sys2Proof.Machine

/-! ## One bit of a field that is set -/

theorem getF_bit_setF {n : RegName} {i j hi lo v k : Nat} (d : Dev) (hl : lo ≤ k) (hk : k ≤ hi) (hh : hi < 32) :
    getF n i j k k (setF n i j hi lo v d) = (v.testBit (k - lo)).toNat := by
  rw [getF, getW_setF_self d (hl.trans hk) hh, bitsOf_one, bitOf_withBits _ _ (hl.trans hk), if_neg (by omega)]

/-! ## The level of the input (R51, R55) -/

theorem inputLevel_high (v : Nat) (d : Dev) : getF .brownoutStatus 0 0 3 3 (inputLevel v d) = if 5800 < v then 1 else 0 := by
  rw [inputLevel, getF_setF_self _ (by decide) (by decide)]
  split <;> rfl

theorem inputLevel_low (v : Nat) (d : Dev) : getF .brownoutStatus 0 0 2 2 (inputLevel v d) = if v < 4400 then 1 else 0 := by
  rw [inputLevel, getF_setF_below _ (by decide) (by decide) (by decide) (by decide), getF_setF_self _ (by decide) (by decide)]
  split <;> rfl

/-- The level of the input leaves every other field of BROWNOUT_STATUS. -/
theorem inputLevel_other {hi lo : Nat} (h : 3 < lo) (v : Nat) (d : Dev) :
    getF .brownoutStatus 0 0 hi lo (inputLevel v d) = getF .brownoutStatus 0 0 hi lo d := by
  rw [inputLevel, getF_setF_above _ (by decide) (by decide) h, getF_setF_above _ (by decide) (by decide) (by omega)]
  exact getF_congr rfl ..

theorem inputLevel_step (v : Nat) (d : Dev) : PowerStep [0x12000] d (inputLevel v d) :=
  (PowerStep.pwr ..).trans ((PowerStep.setF (n := .brownoutStatus) (i := 0) (j := 0) (by simp [addrOf]) ..).trans
    (.setF (n := .brownoutStatus) (i := 0) (j := 0) (by simp [addrOf]) ..))

theorem tally42_step (v : Nat) (d : Dev) : PowerStep [0x12000] d (tally42 v d) := .pwr ..

/-- The input's level is kept when the time below 42 V is brought up to date. -/
theorem levels_tally42 (v : Nat) (d : Dev) :
    getF .brownoutStatus 0 0 3 3 (tally42 v (inputLevel v d)) = (if 5800 < v then 1 else 0) ∧
    getF .brownoutStatus 0 0 2 2 (tally42 v (inputLevel v d)) = (if v < 4400 then 1 else 0) ∧
    Safety.SameRegs [0x12000] d (tally42 v (inputLevel v d)) ∧ (tally42 v (inputLevel v d)).pwr.rails = d.pwr.rails :=
  ⟨inputLevel_high v d, inputLevel_low v d, (inputLevel_step v d).regs, rfl⟩

section Input

variable {v : Nat} {s : State}

theorem exec_inputHigh (h : 5800 < v) : exec (.inputHigh v) s = .next { s with dev := tally42 v (inputLevel v s.dev) } := by
  change execInputHigh v s = _
  rw [execInputHigh, inputHigh, if_pos h]

theorem exec_inputLow (h : 4200 ≤ v) (h' : v < 4400) : exec (.inputLow v) s = .next { s with dev := tally42 v (inputLevel v s.dev) } := by
  change execInputLow v s = _
  rw [execInputLow, inputLow, if_pos (by simp [h, h'])]

theorem exec_inputInRange (h : 4400 ≤ v) (h' : v ≤ 5800) :
    exec (.inputInRange v) s = .next { s with dev := tally42 v (inputLevel v s.dev) } := by
  change execInputInRange v s = _
  rw [execInputInRange, inputInRange, if_pos (by simp [h, h'])]

end Input

/-- A report of the input monitor is held in INPUT_VOLTAGE, and a lower one in a warning is the lowest (R55). -/
theorem inputVoltageSample_eq (v : Nat) (d : Dev) :
    inputVoltageSample v d = { setF .inputVoltage 0 0 15 0 v d with
      pwr := { d.pwr with lowest := if getF .brownoutStatus 0 0 0 0 d = 1 then min d.pwr.lowest v else d.pwr.lowest } } := by
  have hwarn : (getF .brownoutStatus 0 0 0 0 d = 1) = (warned d = true) := by
    rw [getF, bitsOf_one, warned]; cases bitOf (getW .brownoutStatus 0 0 d) 0 <;> simp
  simp only [inputVoltageSample, hwarn]
  split <;> rfl

/-! ## The warning (R52, R53) -/

/-- Every rail's governor has stopped, with the level and the lowest report brought up to date. -/
def dipped (v : Nat) (d : Dev) : Dev :=
  let d1 := inputLevel v (tally42 v d)
  { d1 with pwr := { d1.pwr with
      rails := d1.pwr.rails.map (fun r => { r with stopped := true }), stepAt := none,
      lowest := if bitOf (getW .brownoutStatus 0 0 d) 0 then min d.pwr.lowest v else v } }

theorem brownoutWarning_eq {v : Nat} (h : v < 4200) (d : Dev) :
    brownoutWarning v d = setF .brownoutStatus 0 0 1 0 1 (setBit .brownoutStatus 0 0 8 (countF .brownoutStatus 0 0 23 16 1 (dipped v d))) :=
  if_pos h

theorem brownoutWarning_step {v : Nat} (h : v < 4200) (d : Dev) : PowerStep [0x12000] d (brownoutWarning v d) := by
  have hmem : addrOf .brownoutStatus 0 0 ∈ [0x12000] := by simp [addrOf]
  have hdip : PowerStep [0x12000] d (dipped v d) := (tally42_step v d).trans ((inputLevel_step ..).trans (.pwr ..))
  rw [brownoutWarning_eq h]
  exact hdip.trans ((PowerStep.countF hmem ..).trans ((PowerStep.setBit hmem ..).trans (.setF hmem ..)))

/-- WARN, RECOVERING, WARN_SEEN and DIP_COUNT after a fall through 42 V. -/
theorem brownoutWarning_status {v : Nat} (h : v < 4200) (d : Dev) :
    let e := brownoutWarning v d
    getF .brownoutStatus 0 0 0 0 e = 1 ∧ getF .brownoutStatus 0 0 1 1 e = 0 ∧ getF .brownoutStatus 0 0 8 8 e = 1 ∧
    getF .brownoutStatus 0 0 23 16 e = min 255 (getF .brownoutStatus 0 0 23 16 d + 1) := by
  intro e
  have he : e = _ := brownoutWarning_eq h d
  have hdip : getF .brownoutStatus 0 0 23 16 (dipped v d) = getF .brownoutStatus 0 0 23 16 d := inputLevel_other (by decide) v (tally42 v d)
  rw [he]
  refine ⟨getF_bit_setF _ (by decide) (by decide) (by decide), getF_bit_setF _ (by decide) (by decide) (by decide), ?_, ?_⟩
  · rw [getF_setF_above _ (by decide) (by decide) (by decide), setBit, getF_setF_self _ (by decide) (by decide)]
    rfl
  · rw [getF_setF_above _ (by decide) (by decide) (by decide), setBit, getF_setF_above _ (by decide) (by decide) (by decide),
      getF_countF_self _ (by decide) (by decide), hdip]
    rfl

theorem brownoutWarning_rest {v : Nat} (h : v < 4200) (d : Dev) :
    brownoutWarning v d = { d with regs := (brownoutWarning v d).regs, pwr := (brownoutWarning v d).pwr } := by
  have hmc : (brownoutWarning v d).mc = d.mc := by rw [brownoutWarning_eq h]; rfl
  exact (brownoutWarning_step h d).rest.trans (by rw [hmc])

/-! ## A change of every rail -/

theorem railAt_map {k : Nat} {d : Dev} (h : k < d.pwr.rails.length) {e : Dev} {f : Rail → Rail} (he : e.pwr.rails = d.pwr.rails.map f) :
    railAt k e = f (railAt k d) := by
  simp [railAt, listGet, he, h]

theorem railAt_checkOver (k r : Nat) (d : Dev) : railAt k (checkOver r d) = railAt k d := by
  unfold checkOver when_
  split
  · exact railAt_setBit ..
  · rfl

theorem railAt_each_checkOver (l : List Nat) (k : Nat) (d : Dev) : railAt k (each l checkOver d) = railAt k d := by
  induction l generalizing d with
  | nil => rfl
  | cons r l ih => exact (ih _).trans (railAt_checkOver k r d)

/-- The registers that a governor of each die may change. -/
def ledgerEventAddrs : List Nat := dies.map (fun r => addrOf .ledgerEvents r 0)

/-- A change of the ledger: the rails and LEDGER_EVENTS, and nothing else. -/
structure LedgerStep (d e : Dev) : Prop where
  rest : e = { d with regs := e.regs, pwr := { d.pwr with rails := e.pwr.rails } }
  regs : Safety.SameRegs ledgerEventAddrs d e

namespace LedgerStep

variable {d e f : Dev}

theorem refl (d : Dev) : LedgerStep d d := ⟨rfl, fun _ _ => rfl⟩

theorem trans (h1 : LedgerStep d e) (h2 : LedgerStep e f) : LedgerStep d f :=
  ⟨by rw [h2.rest, h1.rest], fun a ha => (h2.regs a ha).trans (h1.regs a ha)⟩

theorem updRail (r : Nat) (g : Rail → Rail) (d : Dev) : LedgerStep d (updRail r g d) := ⟨rfl, fun _ _ => rfl⟩

theorem regrant {r : Nat} (hr : r ∈ dies) (d : Dev) : LedgerStep d (regrant r d) := by
  have hmem : addrOf .ledgerEvents r 0 ∈ ledgerEventAddrs := List.mem_map_of_mem (f := fun r => addrOf .ledgerEvents r 0) hr
  have hbit : ∀ e, LedgerStep e (setBit .ledgerEvents r 0 1 e) := fun e => ⟨rfl, (PowerStep.setBit hmem 1 e).regs⟩
  unfold Machine.regrant when_
  dsimp only
  split
  · split
    · exact (updRail ..).trans (hbit _)
    · exact updRail ..
  · exact refl _

theorem each_regrant {l : List Nat} (hl : l ⊆ dies) (d : Dev) : LedgerStep d (each l Machine.regrant d) := by
  induction l generalizing d with
  | nil => exact refl _
  | cons r l ih => exact (regrant (hl (List.mem_cons_self ..)) d).trans (ih (fun x hx => hl (List.mem_cons_of_mem _ hx)) _)

theorem regrantAll (d : Dev) : LedgerStep d (regrantAll d) := by
  unfold Machine.regrantAll
  exact each_regrant (List.Subset.refl _) d

/-- The other registers read as they did. -/
theorem getW (h : LedgerStep d e) {n : RegName} {i j : Nat} (hn : addrOf n i j ∉ ledgerEventAddrs) : getW n i j e = getW n i j d := by
  rw [Machine.getW, h.regs _ hn, ← Machine.getW]

theorem stepAt (h : LedgerStep d e) : e.pwr.stepAt = d.pwr.stepAt := by rw [h.rest]
theorem timers (h : LedgerStep d e) : e.timers = d.timers := by rw [h.rest]
theorem reply (h : LedgerStep d e) : e.reply = d.reply := by rw [h.rest]
theorem link (h : LedgerStep d e) : e.link = d.link := by rw [h.rest]
theorem mc (h : LedgerStep d e) : e.mc = d.mc := by rw [h.rest]
theorem upd (h : LedgerStep d e) : e.upd = d.upd := by rw [h.rest]

end LedgerStep

/-- BROWNOUT_STATUS is no register of a governor. -/
theorem brownoutStatus_regrantAll (d : Dev) (hi lo : Nat) :
    getF .brownoutStatus 0 0 hi lo (regrantAll d) = getF .brownoutStatus 0 0 hi lo d := by
  rw [getF, (LedgerStep.regrantAll d).getW (by decide), getF]

/-- A governor that decides changes of a rail the grants and what waits alone, and loses no grant. -/
theorem Governed.regrantAll (k : Nat) (d : Dev) : Governed (railAt k d) (railAt k (regrantAll d)) := each_regrant ..

/-! ## The halving, the recovery and the steps (R52, R53) -/

/-- The rail with 8/16 of its capacity and half its allowance. -/
def halvedRail (c : Costs) (r : Rail) : Rail := relevel true c { r with sixteenths := 8, allowHalf := true, stopped := false }

/-- The device with every rail so, before the governors decide. -/
def halved (d : Dev) : Dev := { d with pwr := { d.pwr with rails := d.pwr.rails.map (halvedRail d.upd.costs) } }

theorem capacityHalved_eq {d : Dev} (h : d.pwr.rails.any Rail.stopped = true) :
    capacityHalved d = regrantAll (each dies checkOver (halved d)) := if_pos h

theorem capacityHalved_rail {d : Dev} (h : d.pwr.rails.any Rail.stopped = true) {k : Nat} (hk : k < d.pwr.rails.length) :
    Governed (halvedRail d.upd.costs (railAt k d)) (railAt k (capacityHalved d)) := by
  rw [capacityHalved_eq h]
  have hg := Governed.regrantAll k (each dies checkOver (halved d))
  rwa [railAt_each_checkOver, railAt_map (e := halved d) hk rfl] at hg

/-- The device at a rise through 43 V, its record written and its first step 1 ms off. -/
def recovering (v : Nat) (d : Dev) : Dev :=
  let d1 := inputLevel v (tally42 v d)
  let d2 := logEv 11 2 0x01 3 (bytesLE 1 iodie ++ bytesLE 2 d1.pwr.lowest ++ bytesLE 4 (d1.pwr.below42 / 8)) d1
  { d2 with pwr := { d2.pwr with stepAt := some (clock iodie d2 + msec 1), below42 := 0, below42Since := none } }

theorem brownoutRecovery_eq {v : Nat} {d : Dev} (hv : 4300 ≤ v) (hw : getF .brownoutStatus 0 0 0 0 d = 1) :
    brownoutRecovery v d = setF .brownoutStatus 0 0 1 0 2 (recovering v d) := by
  have hbit : bitOf (getW .brownoutStatus 0 0 d) 0 = true := by
    rw [getF, bitsOf_one] at hw
    cases h : bitOf (getW .brownoutStatus 0 0 d) 0
    · rw [h] at hw; cases hw
    · rfl
  rw [brownoutRecovery, if_pos (by simp [hbit, hv])]
  rfl

theorem recovering_step (v : Nat) (d : Dev) : PowerStep [0x12000] d (recovering v d) :=
  (tally42_step v d).trans ((inputLevel_step ..).trans ((PowerStep.logEv ..).trans (.pwr ..)))

theorem recovering_pwr (v : Nat) (d : Dev) :
    (recovering v d).pwr.stepAt = some (clock iodie d + 8000) ∧ (recovering v d).pwr.rails = d.pwr.rails := by
  constructor
  · simp only [recovering, clock, logEv_timers]; rfl
  · simp only [recovering, logEv_pwr]; rfl

/-- The rail one sixteenth of its FULL up, with its allowance whole at FULL. -/
def raisedRail (c : Costs) (r : Rail) : Rail :=
  relevel (decide (r.sixteenths + 1 < 16)) c { r with sixteenths := min 16 (r.sixteenths + 1), allowHalf := decide (r.sixteenths + 1 < 16) }

theorem raisedRail_capacity (c : Costs) (r : Rail) : (raisedRail c r).capacity = r.full * min 16 (r.sixteenths + 1) / 16 := rfl

theorem raisedRail_allowance {r : Rail} (h : 15 ≤ r.sixteenths) (c : Costs) : (raisedRail c r).allowance = r.allowFull := by
  refine if_neg ?_
  change ¬ decide (r.sixteenths + 1 < 16) = true
  rw [decide_eq_true_eq]
  omega

/-- The device with every rail one sixteenth up, before the governors decide. -/
def raised (t : Nat) (d : Dev) : Dev :=
  let full := (d.pwr.rails.map (raisedRail d.upd.costs)).all (fun r => decide (r.sixteenths = 16))
  when_ full (setF .brownoutStatus 0 0 1 1 0)
    { d with pwr := { d.pwr with rails := d.pwr.rails.map (raisedRail d.upd.costs), stepAt := if full then none else some (t + msec 1) } }

theorem capacityStep_eq {d : Dev} {t : Nat} (ht : d.pwr.stepAt = some t) (hc : t ≤ clock iodie d) (hs : d.pwr.rails.any Rail.stopped = false) :
    capacityStep d = regrantAll (raised t d) := by
  simp only [capacityStep, ht, hc, hs, decide_true, Bool.not_false, Bool.and_self, if_true]
  rfl

theorem raised_pwr (t : Nat) (d : Dev) : (raised t d).pwr = { d.pwr with
    rails := d.pwr.rails.map (raisedRail d.upd.costs),
    stepAt := if (d.pwr.rails.map (raisedRail d.upd.costs)).all (fun r => decide (r.sixteenths = 16)) then none else some (t + msec 1) } := by
  unfold raised when_
  dsimp only
  split <;> rfl

theorem capacityStep_rail {d : Dev} {t : Nat} (ht : d.pwr.stepAt = some t) (hc : t ≤ clock iodie d)
    (hs : d.pwr.rails.any Rail.stopped = false) {k : Nat} (hk : k < d.pwr.rails.length) :
    Governed (raisedRail d.upd.costs (railAt k d)) (railAt k (capacityStep d)) := by
  rw [capacityStep_eq ht hc hs]
  have hg := Governed.regrantAll k (raised t d)
  rwa [railAt_map hk (by rw [raised_pwr])] at hg

/-- Below FULL on some rail the next step is 1 ms off. -/
theorem raised_stepAt_below {d : Dev} (t : Nat) (hne : d.pwr.rails ≠ []) (h : ∀ r ∈ d.pwr.rails, r.sixteenths + 1 < 16) :
    (raised t d).pwr.stepAt = some (t + 8000) := by
  obtain ⟨r, l, hr⟩ := List.exists_cons_of_ne_nil hne
  have hlow := h r (by rw [hr]; exact List.mem_cons_self ..)
  rw [raised_pwr, hr]
  refine if_neg ?_
  simp only [List.map_cons, List.all_cons, Bool.and_eq_true, decide_eq_true_eq, not_and]
  intro h16
  change min 16 (r.sixteenths + 1) = 16 at h16
  omega

/-- At FULL on every rail the steps end and RECOVERING is clear. -/
theorem raised_full {d : Dev} (t : Nat) (h : ∀ r ∈ d.pwr.rails, 15 ≤ r.sixteenths) :
    (raised t d).pwr.stepAt = none ∧ getF .brownoutStatus 0 0 1 1 (raised t d) = 0 := by
  have hfull : (d.pwr.rails.map (raisedRail d.upd.costs)).all (fun r => decide (r.sixteenths = 16)) = true := by
    simp only [List.all_map, List.all_eq_true, Function.comp_apply, decide_eq_true_eq]
    intro r hr
    change min 16 (r.sixteenths + 1) = 16
    have := h r hr
    omega
  rw [raised_pwr, hfull, raised, hfull]
  exact ⟨rfl, getF_setF_self _ (by decide) (by decide)⟩

/-! ## The rail of a die that is fast again (R39) -/

theorem railGrantResume_eq {die t : Nat} {d : Dev} (h : (railAt die d).goodSince = some t) (hc : t + 8000 ≤ clock die d) :
    railGrantResume die d = regrant die (updRail die (fun r => { r with slowHold := false, goodSince := none }) d) := by
  simp only [railGrantResume, h]
  exact if_pos hc

/-- Settles O13: each command by what it leaves of PACE_RATE and BROWNOUT_STATUS (`settleRate_least`, `inputLevel_high`,
`brownoutWarning_status`) and of each rail, which the governors then change in its grants alone (`Governed`). -/
theorem paceAndInput : Obligations.PaceAndInput := by
  refine ⟨fun s die mon rate predicted hd hm hr hin => ?_, fun s die t0 hd hg hc => ?_, fun s v hv => ⟨fun h => ?_, fun h h' => ?_, fun h h' => ?_, ?_⟩,
    fun s v hv => ?_, fun s hs => ?_, fun s v h43 hv hw => ?_, fun s t0 ht hc hs hne => ?_⟩
  · have hx : exec (.paceMeasurement die mon rate predicted) s =
        .next { s with dev := settleRate die s.dev (measured die mon rate predicted s.dev) } := by
      rw [← paceMeasurement_eq hd hm hin]; rfl
    have hstep := (measured_step die mon rate predicted s.dev).trans (settleRate_step die s.dev _)
    refine ⟨_, hx, fun hnear => ?_, fun hfar => ?_, fun hfit k v hk hin hv => settleRate_least (measured_fits hr hfit _ _ _) hk hin hv,
      fun hlen hslow => settleRate_closed (by rwa [measured_rails]) ?_, hstep.regs, congrArg (fun d => { s with dev := d }) hstep.rest⟩
    · rw [settleRate_readings, settleRate_inService, measured, if_pos hnear]
      exact ⟨Tab.get_set_self .., fun k hk => Tab.get_set_other _ _ hk, rfl⟩
    · rw [settleRate_readings, settleRate_inService, measured, if_neg hfar]
      refine ⟨by rw [logEv_pwr]; rfl, fun k hk => ?_⟩
      rw [← inService_cleared hm hk, getF, getW_logEv, ← getF]
    · simpa [belowSlow] using hslow
  · have hgov := Governed.regrant die die (updRail die (fun r => { r with slowHold := false, goodSince := none }) s.dev)
    rw [railAt_updRail_self hd, ← railGrantResume_eq hg hc] at hgov
    refine ⟨_, rfl, hgov.slowHold, hgov.goodSince, fun ho => ?_, fun r hne => ?_⟩
    · rw [Rail.open_, hgov.stopped, hgov.slowHold, ho]; rfl
    · rw [railGrantResume_eq hg hc, railAt_regrant_other hne, railAt_updRail_other hne]
  · obtain ⟨hh, hl, hregs, hrails⟩ := levels_tally42 v s.dev
    exact ⟨_, exec_inputHigh h, hh.trans (if_pos h), hl.trans (if_neg (by omega)), hregs, hrails, rfl⟩
  · obtain ⟨hh, hl, hregs, hrails⟩ := levels_tally42 v s.dev
    exact ⟨_, exec_inputLow h h', hh.trans (if_neg (by omega)), hl.trans (if_pos h'), hregs, hrails, rfl⟩
  · obtain ⟨hh, hl, hregs, hrails⟩ := levels_tally42 v s.dev
    exact ⟨_, exec_inputInRange h h', hh.trans (if_neg (by omega)), hl.trans (if_neg (by omega)), hregs, hrails, rfl⟩
  · have hset : Safety.SameRegs [0x12004] s.dev (setF .inputVoltage 0 0 15 0 v s.dev) := (PowerStep.setF (by simp [addrOf]) ..).regs
    refine ⟨{ s with dev := inputVoltageSample v s.dev }, rfl, ?_, ?_, ?_⟩
    · rw [inputVoltageSample_eq]
      exact (getF_setF_self s.dev (by decide) (by decide)).trans (Nat.mod_eq_of_lt hv)
    · rw [inputVoltageSample_eq]; exact hset
    · rw [inputVoltageSample_eq]
      rfl
  · obtain ⟨hwarn, hrec, hseen, hdips⟩ := brownoutWarning_status hv s.dev
    have hpwr : (brownoutWarning v s.dev).pwr = (dipped v s.dev).pwr := by rw [brownoutWarning_eq hv]; rfl
    have hrails : (brownoutWarning v s.dev).pwr.rails = s.dev.pwr.rails.map (fun r => { r with stopped := true }) := by rw [hpwr]; rfl
    refine ⟨_, rfl, fun r hr => ?_, ?_, hwarn, hrec, hseen, hdips, (brownoutWarning_step hv s.dev).regs, ?_⟩
    · change r ∈ (brownoutWarning v s.dev).pwr.rails at hr
      rw [hrails] at hr
      obtain ⟨q, -, rfl⟩ := List.mem_map.mp hr
      rfl
    · change (brownoutWarning v s.dev).pwr.rails.map Rail.grants = _
      rw [hrails, List.map_map]
      rfl
    · exact congrArg (fun d => { s with dev := d }) (brownoutWarning_rest hv s.dev)
  · refine ⟨_, rfl, fun k hk _ => ?_⟩
    have hgov := capacityHalved_rail hs hk
    exact ⟨hgov.sixteenths, hgov.capacity, hgov.allowance, hgov.stopped, fun g hg => hgov.kept hg⟩
  · have hx : exec (.brownoutRecovery v) s = .next { s with dev := brownoutRecovery v s.dev } := rfl
    rw [brownoutRecovery_eq h43 hw] at hx
    obtain ⟨hat, hrails⟩ := recovering_pwr v s.dev
    exact ⟨_, hx, hat, getF_bit_setF _ (by decide) (by decide) (by decide), getF_bit_setF _ (by decide) (by decide) (by decide), hrails,
      ((recovering_step v s.dev).trans (.setF (by simp [addrOf]) ..)).regs⟩
  · have hx : exec .capacityStep s = .next { s with dev := capacityStep s.dev } := rfl
    refine ⟨_, hx, fun k hk _ => ?_, fun hlow => ?_, fun hfull => ?_⟩
    · have hgov := capacityStep_rail ht hc hs hk
      exact ⟨hgov.sixteenths, hgov.capacity.trans (raisedRail_capacity ..), fun h15 => hgov.allowance.trans (raisedRail_allowance h15 _)⟩
    · change (capacityStep s.dev).pwr.stepAt = _
      rw [capacityStep_eq ht hc hs, (LedgerStep.regrantAll _).stepAt, raised_stepAt_below t0 hne hlow]
    · change (capacityStep s.dev).pwr.stepAt = none ∧ getF .brownoutStatus 0 0 1 1 (capacityStep s.dev) = 0
      rw [capacityStep_eq ht hc hs, (LedgerStep.regrantAll _).stepAt, brownoutStatus_regrantAll]
      exact raised_full t0 hfull

end Sys2Proof.Machine
end

section
/-! SUPPORT. Admission of a head (R57 to R60, R203): what consuming a ring's entry leaves of its queue, the decision for a judged head, and the
contexts with which a launch joins the rotation of its bricks (R103, R122). -/

namespace Sys2Proof.Machine

/-! ## A head is consumed -/

theorem takeCopy_flight (q idx : Nat) (l : List Byte) (d : Dev) :
    (wqAt q (takeCopy q idx l d)).map WQ.flight = (wqAt q d).map WQ.flight := by
  unfold takeCopy
  split <;> rw [wqAt_updWq_self, Option.map_map] <;> rfl

/-- A read of a ring's entry leaves the admitted descriptors of its queue. -/
theorem tryRead_flight (q : Nat) (d : Dev) : (wqAt q (tryRead q d)).map WQ.flight = (wqAt q d).map WQ.flight := by
  have of_queues : ∀ {e : Dev}, e.q = d.q → (wqAt q e).map WQ.flight = (wqAt q d).map WQ.flight := fun h => by rw [wqAt, h, ← wqAt]
  have upd : ∀ {f : WQ → WQ} (e : Dev), e.q = d.q → (∀ w, (f w).flight = w.flight) →
      (wqAt q (updWq q f e)).map WQ.flight = (wqAt q d).map WQ.flight := fun e he hf => by
    rw [wqAt_updWq_self, Option.map_map, ← of_queues he]
    exact congrArg (fun g => (wqAt q e).map g) (funext hf)
  unfold tryRead
  split
  · rfl
  split
  · rfl
  split
  · split
    · rfl
    · exact upd d rfl fun _ => rfl
  split
  · rfl
  split
  · split
    · rw [wqAt, hostRead_q, ← wqAt]; exact upd d rfl fun _ => rfl
    · rfl
  split
  · rfl
  split
  · rw [takeCopy_flight]; exact of_queues (readsDev_q ..)
  · exact upd _ (noteUe_q ..) fun _ => rfl

@[simp] theorem mirrorWrite_q (a : Nat) (l : List Byte) (d : Dev) : (writePieces.mirrorWrite a l d).q = d.q := by
  unfold writePieces.mirrorWrite
  split
  · rfl
  split
  · rfl
  split
  · split <;> rfl
  · rfl

theorem writePieces_q (ps : List (Nat × Nat)) (l : List Byte) (d : Dev) : (writePieces ps l d).1.q = d.q := by
  induction ps generalizing l d with
  | nil => rfl
  | cons p r ih => exact (ih ..).trans ((mirrorWrite_q ..).trans (writePhys_q ..))

/-- A write to a ring in device memory touches no queue. -/
theorem ringWrite_q {loc : Nat} (h : loc ≠ 0) (inst addr : Nat) (l : List Byte) (d : Dev) : (ringWrite inst loc addr l d).q = d.q := by
  unfold ringWrite
  rw [if_neg h]
  split
  · exact writePieces_q ..
  · rfl

/-- The entry of a ring is consumed (R203): after the write of its last byte, which touches no queue, C advances and the next is read. -/
theorem consume_ring {q : Nat} {d : Dev} {w : WQ} {h : Head} (hw : wqAt q d = some w) (hh : w.head = some h) (hf : w.feed ≠ 2) :
    ∃ e, e.q = d.q ∧ consume q d = tryRead q (updWq q (fun w => { w with head := none, c := w.c + 1 }) e) := by
  unfold consume
  simp only [hw, hh, if_neg hf]
  refine ⟨_, ?_, rfl⟩
  split
  · rfl
  split
  · split
    · exact sendLink_q ..
    · rfl
  · exact ringWrite_q (by assumption) ..

/-- Consuming a ring's entry: C is one on, the admitted descriptors and every other queue are as they were. -/
theorem consume_wq {q : Nat} {d : Dev} {w : WQ} {h : Head} (hw : wqAt q d = some w) (hh : w.head = some h) (hf : w.feed ≠ 2) :
    (wqAt q (consume q d)).map WQ.flight = some w.flight ∧ (wqAt q (consume q d)).map WQ.c = some (w.c + 1) ∧
    ∀ k, k ≠ q → wqAt k (consume q d) = wqAt k d := by
  obtain ⟨e, he, hc⟩ := consume_ring hw hh hf
  have hwe : ∀ k, wqAt k e = wqAt k d := fun k => by rw [wqAt, he, ← wqAt]
  have hself : wqAt q (updWq q (fun w => { w with head := none, c := w.c + 1 }) e) = some { w with head := none, c := w.c + 1 } := by
    rw [wqAt_updWq_self, hwe, hw]; rfl
  obtain ⟨-, hcount, hothers⟩ := tryRead_keeps (q := q) (fun v hv => by rw [hself] at hv; cases hv; exact hf)
  rw [hc, tryRead_flight, hcount, hself]
  exact ⟨rfl, rfl, fun k hk => (hothers k hk).trans ((wqAt_updWq_other _ _ hk).trans (hwe k))⟩

/-- A head is admitted (R57, R203): its descriptor joins those of its queue, C is one on, and every other queue is as it was. -/
theorem admitHead_wq {d : Dev} {q : Nat} {w : WQ} {h : Head} (hw : wqAt q d = some w) (hh : w.head = some h) (hf : w.feed ≠ 2) (e u : Nat) :
    ∃ x : Desc, (wqAt q (admitHead q e u d)).map WQ.flight = some (w.flight ++ [x]) ∧ x.idx = h.idx ∧ x.op = h.opcode ∧ x.bytes = h.bytes ∧
      x.expiry = e ∧ x.devUs = u ∧ x.since = clock (opDie q h.opcode h.bytes) d ∧ x.done = none ∧
      (wqAt q (admitHead q e u d)).map WQ.c = some (w.c + 1) ∧ ∀ k, k ≠ q → wqAt k (admitHead q e u d) = wqAt k d := by
  unfold admitHead
  simp only [hw, hh]
  have hself : ∀ x, wqAt q (updWq q (fun w => { w with flight := w.flight ++ [x] }) d) = some { w with flight := w.flight ++ [x] } :=
    fun x => by rw [wqAt_updWq_self, hw]; rfl
  obtain ⟨hflight, hc, hothers⟩ := consume_wq (hself _) hh hf
  exact ⟨_, hflight, rfl, rfl, rfl, rfl, rfl, rfl, rfl, hc, fun k hk => (hothers k hk).trans (wqAt_updWq_other _ _ hk)⟩

/-! ## The decision for a head that is judged (R57 to R62) -/

/-- A slot taken leaves all of a queue but the slot of its head. -/
theorem takeSlot_wq (q : Nat) (d : Dev) : ∃ g : WQ → WQ, wqAt q (takeSlot q d) = (wqAt q d).map g ∧
    ∀ w, (g w).state = w.state ∧ (g w).inst = w.inst := by
  have same : wqAt q d = (wqAt q d).map id := by simp
  unfold takeSlot
  split
  · exact ⟨id, same, fun _ => ⟨rfl, rfl⟩⟩
  split
  · split
    · exact ⟨id, same, fun _ => ⟨rfl, rfl⟩⟩
    split
    · exact ⟨_, wqAt_updWq_self q _ (updCr _ _ d), fun _ => ⟨rfl, rfl⟩⟩
    · exact ⟨id, same, fun _ => ⟨rfl, rfl⟩⟩
  · exact ⟨id, same, fun _ => ⟨rfl, rfl⟩⟩

theorem wqAt_of_slottedHead {q : Nat} {d : Dev} {w : WQ} {h : Head} (hs : slottedHead q d = some (w, h)) : wqAt q d = some w ∧ w.head = some h := by
  simp only [slottedHead, Option.bind_eq_some_iff] at hs
  obtain ⟨v, hv, g, hg, hif⟩ := hs
  split at hif
  · cases hif; exact ⟨hv, hg⟩
  · cases hif

/-- The decision runs for a head that has passed the checks made once, on the device that they leave. -/
theorem runHead_judged {q : Nat} {w : WQ} {h : Head} {s : State} {d : Dev} (hj : Safety.Judged q w h s d) :
    runHead q s.dev = refuseLate q h.idx (decideHead q w h d) := by
  obtain ⟨-, w1, h1, hs1, hstate, hact, hbad, hidle, hpair, hgone, ⟨t, ht, hd⟩, hs, hbound, hbig, -⟩ := hj
  obtain ⟨hw1, -⟩ := wqAt_of_slottedHead hs1
  obtain ⟨g, hg, hkeep⟩ := takeSlot_wq q s.dev
  obtain ⟨w0, hw0, rfl⟩ := Option.map_eq_some_iff.mp (hg.symm.trans hw1)
  rw [(hkeep w0).1] at hstate
  rw [(hkeep w0).2] at hact
  have hjudge : judgeHead q (g w0) h1 (takeSlot q s.dev) = refuseLate q h.idx (decideHead q w h d) := by
    unfold judgeHead
    simp only [ht, ← hd, hs, hbound, hbig, Bool.false_eq_true, if_false]
  have hgone' : (h1.judged && headCtxGone (g w0) h1 (takeSlot q s.dev)) = false := by
    cases hjd : h1.judged
    · rfl
    · rw [hgone hjd]; rfl
  unfold runHead
  simp only [hw0, hstate, hact, hs1, hbad, (hkeep w0).1, hgone', hidle, hpair, hjudge]
  rfl

/-- A command for a head of its own opcode decides for it. -/
theorem runHeadOf_judged {q op : Nat} {w : WQ} {h : Head} {s : State} {d : Dev} (hj : Safety.Judged q w h s d) (ho : h.opcode = op) :
    runHeadOf op q s = Safety.decided q h (decideHead q w h d) s := by
  simp only [runHeadOf, hj.1, ho, if_true]
  rw [sends, runHead_judged hj, Safety.decided]

/-! ## LAUNCH (R59, R122 to R124, R402) -/

/-- The launch that a head asks for. -/
def launchOf (q : Nat) (w : WQ) (h : Head) (d : Dev) : Launch :=
  let l := h.bytes
  { inst := w.inst, q := q, idx := h.idx, bricks := launchBricks w l d, act := (l.getD 6 0).toNat, code := fieldLE l 8 8, arg := fieldLE l 16 8,
    faultAt := fieldLE l 24 8, limit := fieldLE l 32 4, ctx := fieldLE l 36 2, rq := fieldLE l 38 2, devUs := devUsOf w d,
    since := clock (qDie q) d }

theorem decideHead_launch {h : Head} (ho : h.opcode = 0x40) (q : Nat) (w : WQ) (d : Dev) : decideHead q w h d = decideLaunch q w h d := by
  simp [decideHead, ho]

/-- The end-to-end bound of a LAUNCH (R59): DEVICE_US and twice its residence. -/
theorem expiryOf_launch {h : Head} (ho : h.opcode = 0x40) (q : Nat) (w : WQ) (d : Dev) :
    expiryOf (h.die q) w h d = clock (qDie q) d + 8 * devUsOf w d + 2 * min (8 * getF .boundResidence w.cls 0 15 0 d) (residence d) := by
  simp [expiryOf, boundE, Head.die, opDie, staysHere, usec, ho, Nat.add_assoc]

theorem decideLaunch_admits {q : Nat} {w : WQ} {h : Head} {d : Dev} (hc : commonOk q w h d = true)
    (hs : slotsHeld w.inst d + (launchBricks w h.bytes d).length ≤ slotsMost w.inst d) :
    decideLaunch q w h d = beginLaunch (launchOf q w h d) (admitHead q (expiryOf (h.die q) w h d) (devUsOf w d) d) := by
  simp only [decideLaunch, hc, hs, decide_true, Bool.and_self, if_true]
  rfl

theorem decideLaunch_waits {q : Nat} {w : WQ} {h : Head} {d : Dev}
    (hno : commonOk q w h d = false ∨ slotsMost w.inst d < slotsHeld w.inst d + (launchBricks w h.bytes d).length) :
    decideLaunch q w h d = d := by
  refine if_neg ?_
  rcases hno with hc | hs
  · simp [hc]
  · simp [hs]

/-! ## The group joins the rotation of its bricks (R103, R122) -/

theorem brickAt_updBrick_self (b : Nat) (f : Brick → Brick) (d : Dev) : brickAt b (updBrick b f d) = f (brickAt b d) := by
  simp [brickAt, updBrick, Tab.getD]

theorem brickAt_updBrick_other {b c : Nat} (h : c ≠ b) (f : Brick → Brick) (d : Dev) : brickAt c (updBrick b f d) = brickAt c d := by
  simp [brickAt, updBrick, Tab.getD, Tab.get_set_other _ _ h]

/-- Member `p.1` of a group joins the rotation of brick `p.2`. -/
def joinBrick (l : Launch) (id seed : Nat) (p : Nat × Nat) (d : Dev) : Dev :=
  updBrick p.2 (fun r => { r with rot := r.rot ++ [ctxKey id p.1] })
    { d with bricks := { d.bricks with ctxs := Tab.set d.bricks.ctxs (ctxKey id p.1) (BCtx.start l id p.1 p.2 seed) } }

/-- The launch is admitted, before its group joins. -/
def entered (l : Launch) (d : Dev) : Dev :=
  { d with free := d.free + 1, bricks := { d.bricks with nextId := d.bricks.nextId + 1, launches := Tab.set d.bricks.launches d.bricks.nextId l } }

theorem beginLaunch_eq (l : Launch) (d : Dev) :
    beginLaunch l d = each ((List.range l.bricks.length).zip l.bricks) (joinBrick l d.bricks.nextId d.free) (entered l d) := rfl

section Group

variable (l : Launch) (id seed : Nat)

theorem ctxKey_ne {g k : Nat} (h : g ≠ k) : ctxKey id g ≠ ctxKey id k := by unfold ctxKey; omega

theorem launches_each_joinBrick (ps : List (Nat × Nat)) (d : Dev) : (each ps (joinBrick l id seed) d).bricks.launches = d.bricks.launches := by
  induction ps generalizing d with
  | nil => rfl
  | cons p ps ih => exact ih _

/-- Bricks outside the group are as they were. -/
theorem brickAt_each_joinBrick_other {ps : List (Nat × Nat)} {b : Nat} (hb : b ∉ ps.map Prod.snd) (d : Dev) :
    brickAt b (each ps (joinBrick l id seed) d) = brickAt b d := by
  induction ps generalizing d with
  | nil => rfl
  | cons p ps ih =>
    rw [List.map_cons, List.mem_cons, not_or] at hb
    exact (ih hb.2 _).trans (brickAt_updBrick_other hb.1 ..)

/-- Contexts of other members are as they were. -/
theorem ctxAt_each_joinBrick_other {ps : List (Nat × Nat)} {g : Nat} (hg : g ∉ ps.map Prod.fst) (d : Dev) :
    ctxAt (ctxKey id g) (each ps (joinBrick l id seed) d) = ctxAt (ctxKey id g) d := by
  induction ps generalizing d with
  | nil => rfl
  | cons p ps ih =>
    rw [List.map_cons, List.mem_cons, not_or] at hg
    exact (ih hg.2 _).trans (Tab.get_set_other _ _ (ctxKey_ne id hg.1))

/-- A member of the group: its context as a launch starts it, at the end of its brick's rotation. -/
theorem each_joinBrick_member {ps : List (Nat × Nat)} (h1 : (ps.map Prod.fst).Nodup) (h2 : (ps.map Prod.snd).Nodup) {p : Nat × Nat} (hp : p ∈ ps)
    (d : Dev) : ctxAt (ctxKey id p.1) (each ps (joinBrick l id seed) d) = some (BCtx.start l id p.1 p.2 seed) ∧
      (brickAt p.2 (each ps (joinBrick l id seed) d)).rot = (brickAt p.2 d).rot ++ [ctxKey id p.1] := by
  induction ps generalizing d with
  | nil => cases hp
  | cons r ps ih =>
    obtain ⟨hr1, h1⟩ := List.nodup_cons.mp h1
    obtain ⟨hr2, h2⟩ := List.nodup_cons.mp h2
    rcases List.mem_cons.mp hp with rfl | hp
    · exact ⟨(ctxAt_each_joinBrick_other l id seed hr1 _).trans (Tab.get_set_self ..),
        congrArg Brick.rot ((brickAt_each_joinBrick_other l id seed hr2 _).trans (brickAt_updBrick_self ..))⟩
    · obtain ⟨hctx, hrot⟩ := ih h1 h2 hp (joinBrick l id seed r d)
      have hne : p.2 ≠ r.2 := fun h => hr2 (h ▸ List.mem_map_of_mem hp)
      exact ⟨hctx, hrot.trans (congrArg (fun x => x.rot ++ _) (brickAt_updBrick_other hne ..))⟩

end Group

/-- Settles O36: the decision for a judged head is its command's (`runHeadOf_judged`), an admitted head joins its queue's descriptors
(`admitHead_wq`), and a launch's members join the rotations of its bricks one by one (`each_joinBrick_member`). -/
theorem launchAdmission : Obligations.LaunchAdmission := by
  refine ⟨fun d q e u w h hw hh hf => admitHead_wq hw hh hf e u, fun s q w h d hj ho => ⟨fun hc hs => ?_, fun hno => ?_⟩, fun d l hnodup => ?_⟩
  · change runHeadOf 0x40 q s = _
    rw [runHeadOf_judged hj ho, decideHead_launch ho, decideLaunch_admits hc hs, expiryOf_launch ho]
    rfl
  · change runHeadOf 0x40 q s = _
    rw [runHeadOf_judged hj ho, decideHead_launch ho, decideLaunch_waits hno]
  · have hlen : (List.range l.bricks.length).length = l.bricks.length := List.length_range
    have hfst : ((List.range l.bricks.length).zip l.bricks).map Prod.fst = List.range l.bricks.length := List.map_fst_zip hlen.le
    have hsnd : ((List.range l.bricks.length).zip l.bricks).map Prod.snd = l.bricks := List.map_snd_zip hlen.ge
    rw [beginLaunch_eq]
    refine ⟨fun g hg _ => ?_, ?_, fun b hb => ?_⟩
    · have hp : (g, l.bricks.getD g 0) ∈ (List.range l.bricks.length).zip l.bricks := by
        rw [List.getD_eq_getElem _ _ hg, List.mem_iff_getElem]
        exact ⟨g, by simpa using hg, by simp⟩
      obtain ⟨hctx, hrot⟩ := each_joinBrick_member l d.bricks.nextId d.free (by rw [hfst]; exact List.nodup_range) (by rwa [hsnd]) hp (entered l d)
      exact ⟨_, hctx, rfl, rfl, rfl, hrot⟩
    · rw [launchAt, launches_each_joinBrick]
      exact Tab.get_set_self ..
    · exact brickAt_each_joinBrick_other _ _ _ (by rwa [hsnd]) _

end Sys2Proof.Machine
end

section
/-! SUPPORT. Ends of leases and what a start clears (R54, R443, R454, R485, R486, R507, R508, R511): the objects, the grants and the memories are gone
whatever the module held, and what flash and the management controller keep is as it was. -/

namespace Sys2Proof.Machine

/-! ## The units of the image work ask and return (R45, R52) -/

theorem railOf_image {u : UnitId} (h : u = .iodCipher ∨ u = .imageCheck) : railOf u ∈ dies := by
  rcases h with rfl | rfl <;> decide

namespace LedgerStep

theorem requestGrant {g : Grant} (h : railOf g.unit ∈ dies) (d : Dev) : LedgerStep d (requestGrant g d) := (updRail ..).trans (regrant h _)

theorem returnGrant {u : UnitId} (h : railOf u ∈ dies) (d : Dev) : LedgerStep d (returnGrant u d) := (updRail ..).trans (regrant h _)

theorem wantImage {u : UnitId} (h : railOf u ∈ dies) (d : Dev) : LedgerStep d (wantImage u d) := by
  unfold Machine.wantImage wantGrant
  split
  · exact refl _
  · exact requestGrant h _

theorem imageBusy (d : Dev) : LedgerStep d (imageBusy d) :=
  (wantImage (railOf_image (.inl rfl)) _).trans (wantImage (railOf_image (.inr rfl)) _)

theorem imageIdle (d : Dev) : LedgerStep d (imageIdle d) :=
  (returnGrant (railOf_image (.inl rfl)) _).trans (returnGrant (railOf_image (.inr rfl)) _)

end LedgerStep

/-! ## The lease ends (R454) -/

/-- What the device knows of an update once its lease has ended. -/
def Update.ended (u : Update) : Update :=
  { u with holder := 0, state := 0, lease := 0, staging := none, pulling := none, heldTo := none, oldShape := none, newStore := none, pairs := 0,
           actStep := 0, commitStep := 0 }

/-- The end of a lease changes the update, the ledger and LEDGER_EVENTS. -/
theorem endLease_dev (s : State) : ∃ e, LedgerStep { s.dev with upd := s.dev.upd.ended } e ∧
    (endLease s).dev = { e with upd := { s.dev.upd.ended with cores := (endLease s).dev.upd.cores } } := by
  have hstep := LedgerStep.imageIdle { s.dev with upd := s.dev.upd.ended }
  refine ⟨_, hstep, ?_⟩
  have hdev : (endLease s).dev = when_ (decide (s.dev.upd.state = 5 ∨ s.dev.upd.state = 6)) standbyBack
      (imageIdle { s.dev with upd := s.dev.upd.ended }) := rfl
  have hupd := hstep.upd
  rw [hdev, when_]
  generalize imageIdle { s.dev with upd := s.dev.upd.ended } = e at hupd
  split
  · exact congrArg (fun u => { e with upd := { u with cores := (standbyBack e).upd.cores } }) hupd
  · exact congrArg (fun u => { e with upd := { u with cores := e.upd.cores } }) hupd

theorem endLease_flash (s : State) :
    (endLease s).flash = if s.dev.upd.state = 2 ∨ s.dev.upd.state = 3 then emptyBank s.dev.upd s.flash else s.flash := rfl

theorem endLease_upd (s : State) : (endLease s).dev.upd = { s.dev.upd.ended with cores := (endLease s).dev.upd.cores } := by
  obtain ⟨e, -, h⟩ := endLease_dev s
  rw [h]

theorem endLease_mc (s : State) : (endLease s).dev.mc = s.dev.mc := by obtain ⟨e, he, h⟩ := endLease_dev s; rw [h]; exact he.mc
theorem endLease_link (s : State) : (endLease s).dev.link = s.dev.link := by obtain ⟨e, he, h⟩ := endLease_dev s; rw [h]; exact he.link
theorem endLease_reply (s : State) : (endLease s).dev.reply = s.dev.reply := by obtain ⟨e, he, h⟩ := endLease_dev s; rw [h]; exact he.reply
theorem endLease_timers (s : State) : (endLease s).dev.timers = s.dev.timers := by obtain ⟨e, he, h⟩ := endLease_dev s; rw [h]; exact he.timers

/-- The end of a lease leaves the power state but for the rails. -/
theorem endLease_pwr (s : State) : (endLease s).dev.pwr = { s.dev.pwr with rails := (endLease s).dev.pwr.rails } := by
  obtain ⟨e, he, h⟩ := endLease_dev s
  rw [h]
  exact (congrArg Dev.pwr he.rest).trans rfl

/-- The parts of flash that no end of a lease and no reset changes. -/
def SameFlash (f g : Flash) : Prop :=
  g.repair = f.repair ∧ g.boot = f.boot ∧ g.wrapKey = f.wrapKey ∧ g.anchor = f.anchor

theorem emptyBank_keeps (u : Update) (f : Flash) : SameFlash f (emptyBank u f) ∧ (emptyBank u f).log = f.log := by
  unfold emptyBank
  split <;> exact ⟨⟨rfl, rfl, rfl, rfl⟩, rfl⟩

theorem endLease_keeps (s : State) : SameFlash s.flash (endLease s).flash ∧ (endLease s).flash.log = s.flash.log := by
  rw [endLease_flash]
  split
  · exact emptyBank_keeps ..
  · exact ⟨⟨rfl, rfl, rfl, rfl⟩, rfl⟩

/-! ## What a start clears (R486) -/

/-- The module as every reset leaves it for a start of a cause: no object, no key, no grant, memory zero, READY 0; the memory of the host and what
flash holds of the module are as they were. -/
def ClearedFor (cause : Nat) (s t : State) : Prop :=
  t.dev.start.ready = false ∧ t.dev.start.nextCause = cause ∧ t.dev.start.begun = none ∧
    t.dev.q.wqs = [] ∧ t.dev.q.crs = [] ∧ t.dev.q.ctrs = [] ∧ t.dev.xl.ctxs = [] ∧ t.dev.xl.lfns = [] ∧ t.dev.rem.regions = [] ∧ t.dev.rem.doms = [] ∧
    t.dev.colls.comms = [] ∧ t.dev.insts = [] ∧ t.dev.keys.keys = [] ∧ t.dev.bricks.launches = [] ∧ t.dev.upd.holder = 0 ∧
    (∀ a, Mem.read t.dev.tiers.dev a = 0 ∧ Mem.read t.dev.tiers.basin a = 0) ∧ (∀ r ∈ t.dev.pwr.rails, r.grants = []) ∧
    t.flash.repair = s.flash.repair ∧ t.flash.boot = s.flash.boot ∧ t.flash.wrapKey = s.flash.wrapKey ∧ t.flash.anchor = s.flash.anchor ∧
    t.dev.link.hostMem = s.dev.link.hostMem

/-- A reset leaves the module cleared, whatever becomes of the management controller and of the power state but for the rails. -/
theorem clearMain_cleared {cause : Nat} {s u : State} (hf : SameFlash s.flash u.flash) (hm : u.dev.link.hostMem = s.dev.link.hostMem) (m : Mc)
    {p : Power} (hp : p.rails = (clearMain cause u).dev.pwr.rails) :
    ClearedFor cause s { clearMain cause u with dev := { (clearMain cause u).dev with mc := m, pwr := p } } := by
  obtain ⟨h1, h2, h3, h4⟩ := hf
  obtain ⟨⟨k1, k2, k3, k4⟩, -⟩ := endLease_keeps u
  refine ⟨rfl, rfl, rfl, rfl, rfl, rfl, rfl, rfl, rfl, rfl, rfl, rfl, rfl, rfl, congrArg Update.holder (endLease_upd u), fun a => ⟨rfl, rfl⟩,
    fun r hr => ?_, k1.trans h1, k2.trans h2, k3.trans h3, k4.trans h4, (congrArg Link.hostMem (endLease_link u)).trans hm⟩
  change r ∈ p.rails at hr
  rw [hp] at hr
  obtain ⟨q, -, rfl⟩ := List.mem_map.mp hr
  rfl

section Clear

variable (cause : Nat) (s : State)

theorem clearMain_mc : (clearMain cause s).dev.mc = s.dev.mc := endLease_mc s

theorem clearMain_reply : (clearMain cause s).dev.reply = s.dev.reply := endLease_reply s

theorem clearMain_log : (clearMain cause s).flash.log = s.flash.log := (endLease_keeps s).2

theorem clearMain_pwr : (clearMain cause s).dev.pwr =
    { s.dev.pwr with rails := (clearMain cause s).dev.pwr.rails, readings := [], readyPin := false, asked := [] } := by
  have h : (clearMain cause s).dev.pwr =
      { (endLease s).dev.pwr with rails := (endLease s).dev.pwr.rails.map restartRail, readings := [], readyPin := false, asked := [] } := rfl
  rw [h, endLease_pwr]

/-- The timers that a start restarts are those of the brick dies and of the fabric dies. -/
theorem clock_restartTimers {l : List Nat} {k : Nat} (hk : k ∉ l) (d : Dev) : clock k (restartTimers l d) = clock k d := by
  have fold : ∀ (l : List Nat) (t : List Nat), k ∉ l → listGet (l.foldl (fun t j => t.set j 0) t) k 0 = listGet t k 0 := by
    intro l
    induction l with
    | nil => exact fun _ _ => rfl
    | cons j l ih =>
      intro t hk
      rw [List.mem_cons, not_or] at hk
      rw [List.foldl_cons, ih _ hk.2, listGet, listGet, List.getD_eq_getElem?_getD, List.getElem?_set_ne (Ne.symm hk.1), List.getD_eq_getElem?_getD]
  exact fold l d.timers hk

theorem clock_clearMain : clock iodie (clearMain cause s).dev = clock iodie s.dev := by
  have h : ∀ d, clock iodie (clearDev (endLease s).flash cause d) = clock iodie d := fun d => clock_restartTimers (by decide) _
  exact (h _).trans (by rw [clock, endLease_timers, ← clock])

end Clear

theorem Tab.get_filter_of_key {α : Type} {f : Nat → Bool} {k : Nat} (hk : f k = true) (t : Tab α) :
    Tab.get (t.filter (fun p => f p.1)) k = Tab.get t k := by
  induction t with
  | nil => rfl
  | cons p t ih =>
    obtain ⟨a, v⟩ := p
    by_cases ha : a = k
    · subst ha; simp [hk, Tab.get]
    · cases hf : f a <;> simp [hf, Tab.get, ha, ih]

/-- A register that the management controller holds is no register of a start (R530). -/
theorem getW_clearMain {n : RegName} {i j : Nat} (hn : mcReg (addrOf n i j) = true) (h1 : addrOf n i j ≠ 0x12004) (h2 : addrOf n i j ≠ 0x12000)
    (cause : Nat) (s : State) : getW n i j (clearMain cause s).dev = getW n i j (endLease s).dev := by
  have hw : ∀ d, getW n i j (clearDev (endLease s).flash cause d) = getW n i j d := by
    intro d
    unfold clearDev
    dsimp only
    rw [getW_setW_other _ _ h1, getW_setF_other _ _ _ _ h2, getW, getW]
    exact congrArg (fun x => (Option.map BitVec.toNat x).getD (resetWord n i j)) (Tab.get_filter_of_key hn d.regs)
  exact hw _

end Sys2Proof.Machine
end

section
/-! SUPPORT. The resets and power events of the module (R54, R422, R443, R444, R485, R486, R507, R508, R511, R521): which device each clears, and
what the management controller keeps. -/

namespace Sys2Proof.Machine

/-! ## Records and answers -/

/-- A record changes the buffer, or counts a loss (R437). -/
theorem logEv_mc (src cls area ev : Nat) (l : List Byte) (d : Dev) : (logEv src cls area ev l d).mc =
    { d.mc with buffer := (logEv src cls area ev l d).mc.buffer, dropped := (logEv src cls area ev l d).mc.dropped } := by
  unfold logEv
  dsimp only
  split <;> rfl

/-- A record that finds room stands last in the buffer. -/
theorem logEv_buffer {d : Dev} (h1 : d.mc.buffer.length < 256) (h2 : d.mc.next + d.mc.buffer.length < 65536) (src cls area ev : Nat)
    (l : List Byte) : (logEv src cls area ev l d).mc.buffer = d.mc.buffer ++
      [{ boot := d.mc.boot, source := src, cls := cls, area := area,
         event := if area = 0x0A then ev else (Config.eventCode area ev).toNat, data := l.take 48 }] := by
  simp [logEv, h1, h2]

/-- The management controller runs on: what it holds of its state and of the log. -/
def RunsOn (s t : State) : Prop :=
  t.dev.mc.up = s.dev.mc.up ∧ t.dev.mc.eid = s.dev.mc.eid ∧ t.dev.mc.next = s.dev.mc.next ∧ t.flash.log = s.flash.log

/-- The management controller is as it was, but for its records and its sessions' last messages. -/
def McRuns (d e : Dev) : Prop := e.mc = { d.mc with buffer := e.mc.buffer, dropped := e.mc.dropped, sessions := e.mc.sessions }

theorem when_logEv_frame (c : Bool) (src cls area ev : Nat) (l : List Byte) (d : Dev) : when_ c (logEv src cls area ev l) d =
    { d with mc := { d.mc with
      buffer := (when_ c (logEv src cls area ev l) d).mc.buffer, dropped := (when_ c (logEv src cls area ev l) d).mc.dropped } } := by
  unfold when_
  split
  · rw [← logEv_mc]; exact logEv_frame ..
  · rfl

/-! ## The input falls or rises out of range (R54, R507) -/

/-- The device of a brownout reset before it is cleared. -/
def fallen38 (v : Nat) (d : Dev) : Dev :=
  inputLevel v (tally42 v { d with pwr := { d.pwr with lowest := if warned d then min d.pwr.lowest v else v } })

/-- The device of a brownout reset with its record. -/
def fallRecorded (v : Nat) (d : Dev) : Dev :=
  when_ d.mc.up (logEv 11 3 0x0A 2 (bytesLE 2 (if warned d then min d.pwr.lowest v else v))) (fallen38 v d)

theorem exec_brownoutReset {v : Nat} (h : v < 3800) (s : State) :
    exec (.brownoutReset v) s = .next (onDev (setMain false) (clearMain 3 { s with dev := fallRecorded v s.dev })) := by
  change execBrownoutReset v s = _
  rw [execBrownoutReset, brownoutReset, if_pos h]
  rfl

theorem fallRecorded_frame (v : Nat) (d : Dev) : (fallRecorded v d).link.hostMem = d.link.hostMem ∧ McRuns d (fallRecorded v d) := by
  unfold fallRecorded
  rw [when_logEv_frame]
  exact ⟨rfl, rfl⟩

theorem onDev_dev (f : Dev → Dev) (s : State) : (onDev f s).dev = f s.dev := rfl

theorem setMain_mc (b : Bool) (d : Dev) : (setMain b d).mc = d.mc := rfl
theorem setMain_stageOpen (b : Bool) (d : Dev) : (setMain b d).pwr.stageOpen = d.pwr.stageOpen := rfl
theorem getW_setMain (n : RegName) (i j : Nat) (b : Bool) (d : Dev) : getW n i j (setMain b d) = getW n i j d := rfl

/-- The record of a brownout reset stands last, and the reset keeps it. -/
theorem fallRecorded_buffer {s : State} (hup : s.dev.mc.up = true) (h1 : s.dev.mc.buffer.length < 256)
    (h2 : s.dev.mc.next + s.dev.mc.buffer.length < 65536) (v : Nat) :
    (onDev (setMain false) (clearMain 3 { s with dev := fallRecorded v s.dev })).dev.mc.buffer = s.dev.mc.buffer ++
      [{ boot := s.dev.mc.boot, source := 11, cls := 3, area := 0x0A, event := 2,
         data := (bytesLE 2 (if warned s.dev then min s.dev.pwr.lowest v else v)).take 48 }] := by
  rw [onDev_dev, setMain_mc, clearMain_mc, fallRecorded, when_, if_pos hup]
  exact logEv_buffer (d := fallen38 v s.dev) h1 h2 ..

/-- The device of an overvoltage before it is cleared: the stage is open and the brownout warning over. -/
def risen60 (v : Nat) (d : Dev) : Dev :=
  let d1 := inputLevel v (tally42 v d)
  let d2 := when_ d1.mc.up (logEv 11 3 0x01 4 (bytesLE 1 iodie ++ bytesLE 2 v)) (setBit .platformStatus 0 0 31 d1)
  setF .brownoutStatus 0 0 1 0 0 { d2 with pwr := { d2.pwr with
    stageOpen := true, rails := dies.map Rail.start, asked := [], stepAt := none, below42 := 0, below42Since := none } }

theorem exec_inputOvervoltage {v : Nat} {s : State} (h : 6000 < v) (hs : s.dev.pwr.stageOpen = false) :
    exec (.inputOvervoltage v) s = .next (onDev (setMain false) (clearMain 3 { s with dev := risen60 v s.dev })) := by
  change execInputOvervoltage v s = _
  have hopen : (inputLevel v (tally42 v s.dev)).pwr.stageOpen = false := hs
  rw [execInputOvervoltage, inputOvervoltage, if_neg (by omega)]
  dsimp only
  rw [if_neg (by rw [hopen]; decide)]
  rfl

theorem risen60_frame (v : Nat) (d : Dev) : (risen60 v d).link.hostMem = d.link.hostMem ∧
    (risen60 v d).pwr.stageOpen = true ∧ McRuns d (risen60 v d) := by
  unfold risen60
  dsimp only
  rw [when_logEv_frame]
  exact ⟨rfl, rfl, rfl⟩

/-- OVERVOLTAGE stands in PLATFORM_STATUS, which the reset does not clear. -/
theorem risen60_platform (v : Nat) (s : State) : getF .platformStatus 0 0 31 31
    (onDev (setMain false) (clearMain 3 { s with dev := risen60 v s.dev })).dev = 1 := by
  rw [onDev_dev, getF, getW_setMain, getW_clearMain (by decide) (by decide) (by decide)]
  obtain ⟨e, he, hend⟩ := endLease_dev { s with dev := risen60 v s.dev }
  have hregs : ∀ (e : Dev) (u : Update), getW .platformStatus 0 0 { e with upd := u } = getW .platformStatus 0 0 e := fun _ _ => rfl
  rw [hend, hregs, he.getW (by decide), hregs]
  change getF .platformStatus 0 0 31 31 (risen60 v s.dev) = 1
  unfold risen60
  dsimp only
  rw [getF, getW_setF_other _ _ _ _ (by decide), when_logEv_frame]
  exact getF_setF_self (n := .platformStatus) (i := 0) (j := 0) (inputLevel v (tally42 v s.dev)) (by decide) (by decide)

/-! ## Requests (R443, R444) -/

/-- The device with the sessions given. -/
def withSessions (l : List Session) (s : State) : State := { s with dev := { s.dev with mc := { s.dev.mc with sessions := l } } }

theorem requested_manager {s : State} (hr : s.dev.start.ready = true) (hl : linkOpen s.dev = true) (f : State → State) : requested none f s = f s := by
  simp [requested, hr, hl]

theorem pldm_taken {m : MReq} {s : State} (h1 : heard 1 m s.dev = true) (h2 : m.formed = true)
    (h3 : ((sessionOf m s.dev).map Session.finished).getD true = true) (h4 : m.held < 4) (f : State → State) :
    pldm m f s = f { s with dev := touch m s.dev } := by
  simp [pldm, h1, h2, h3, Nat.not_le.mpr h4]

/-- A command that the host does not send is not held. -/
theorem overLink_module (i : HostTx) (f : State → Host.Outcome State Fault Refusal) (s : State) : overLink false i f s = f s := by simp [overLink]

/-- The device of a request taken: its record is written and its answer given. -/
def requestRecorded (what : Nat) (r : Option MReq) (d : Dev) : Dev := resetAnswer r 0 (powerRecord what r d)

theorem resetAnswer_frame (r : Option MReq) (code : Nat) (d : Dev) : resetAnswer r code d = { d with reply := (resetAnswer r code d).reply } := by
  unfold resetAnswer
  split <;> rfl

theorem resetAnswer_reply {r : Option MReq} (h : r.isSome = true) (code : Nat) (d : Dev) : (resetAnswer r code d).reply = .pldm 0 (some code) [] := by
  rw [resetAnswer, if_pos h]; rfl

theorem requestRecorded_frame (what : Nat) (r : Option MReq) (d : Dev) : (requestRecorded what r d).link.hostMem = d.link.hostMem ∧
    (requestRecorded what r d).pwr = d.pwr ∧ (requestRecorded what r d).timers = d.timers ∧
      McRuns d (requestRecorded what r d) := by
  unfold requestRecorded powerRecord
  rw [resetAnswer_frame]
  exact ⟨congrArg Link.hostMem (logEv_link ..), logEv_pwr .., logEv_timers .., by unfold McRuns; rw [logEv_mc]⟩

section Request

variable {r : Option MReq} {s : State} {l : List Session} (hreq : ∀ f, requested r f s = f (withSessions l s))
include hreq

theorem moduleReset_taken (h1 : s.dev.mc.resetReq = none) (h2 : s.dev.pwr.thermtrip = false) : moduleReset r s =
    onDev (setReset (if s.dev.mc.identityFail = 0 then some 1 else none))
      (clearMain 1 { s with dev := requestRecorded 1 r (withSessions l s).dev }) := by
  have hm : (clearMain 1 { s with dev := requestRecorded 1 r (withSessions l s).dev }).dev.mc.identityFail = s.dev.mc.identityFail := by
    rw [clearMain_mc, (requestRecorded_frame ..).2.2.2]; rfl
  rw [moduleReset, hreq, if_neg (by simp [withSessions, h1, h2]), ← hm]
  rfl

theorem moduleReset_refused (h : s.dev.mc.resetReq.isSome = true ∨ s.dev.pwr.thermtrip = true) :
    moduleReset r s = { s with dev := resetAnswer r 0xE (withSessions l s).dev } := by
  rw [moduleReset, hreq, if_pos (by simpa [withSessions] using h)]
  rfl

theorem powerCycle_taken (h : s.dev.mc.resetReq = none) :
    powerCycle r s = onDev cycleOff (clearMain 2 { s with dev := requestRecorded 2 r (withSessions l s).dev }) := by
  rw [powerCycle, hreq, if_neg (by simp [withSessions, h])]
  rfl

theorem powerCycle_refused (h : s.dev.mc.resetReq.isSome = true) : powerCycle r s = { s with dev := resetAnswer r 0xE (withSessions l s).dev } := by
  rw [powerCycle, hreq, if_pos (show (withSessions l s).dev.mc.resetReq.isSome = true from h)]
  rfl

end Request

/-- A reset leaves the management controller running. -/
theorem clearMain_runsOn {s u : State} (cause : Nat) (hm : McRuns s.dev u.dev) (hf : u.flash.log = s.flash.log) :
    RunsOn s (clearMain cause u) := by
  have h := (clearMain_mc cause u).trans hm
  exact ⟨by rw [h], by rw [h], by rw [h], (clearMain_log cause u).trans hf⟩

/-- A change of the management controller and of the power state that leaves the rails. -/
def LeavesRails (f : Dev → Dev) : Prop :=
  ∀ d, f d = { d with mc := (f d).mc, pwr := (f d).pwr } ∧ (f d).pwr.rails = d.pwr.rails

theorem clearMain_cleared_onDev {f : Dev → Dev} (h : LeavesRails f) {cause : Nat} {s u : State} (hf : SameFlash s.flash u.flash)
    (hm : u.dev.link.hostMem = s.dev.link.hostMem) : ClearedFor cause s (onDev f (clearMain cause u)) := by
  obtain ⟨hd, hp⟩ := h (clearMain cause u).dev
  rw [onDev, hd]
  exact clearMain_cleared hf hm _ hp

theorem setReset_reply (r : Option Nat) (d : Dev) : (setReset r d).reply = d.reply := rfl
theorem setReset_req (r : Option Nat) (d : Dev) : (setReset r d).mc.resetReq = r := rfl
theorem cycleOff_reply (d : Dev) : (cycleOff d).reply = d.reply := rfl
theorem cycleOff_offAt (d : Dev) : (cycleOff d).mc.offAt = clock iodie d := rfl

theorem leavesRails_setMain (b : Bool) : LeavesRails (setMain b) := fun _ => ⟨rfl, rfl⟩
theorem leavesRails_setReset (r : Option Nat) : LeavesRails (setReset r) := fun _ => ⟨rfl, rfl⟩
theorem leavesRails_cycleOff : LeavesRails cycleOff := fun _ => ⟨rfl, rfl⟩

/-- A change that leaves the management controller running. -/
def KeepsMc (f : Dev → Dev) : Prop := ∀ d, (f d).mc.up = d.mc.up ∧ (f d).mc.eid = d.mc.eid ∧ (f d).mc.next = d.mc.next

theorem keepsMc_setMain (b : Bool) : KeepsMc (setMain b) := fun _ => ⟨rfl, rfl, rfl⟩
theorem keepsMc_setReset (r : Option Nat) : KeepsMc (setReset r) := fun _ => ⟨rfl, rfl, rfl⟩
theorem keepsMc_cycleOff : KeepsMc cycleOff := fun _ => ⟨rfl, rfl, rfl⟩

/-- A reset of the main logic leaves the module cleared and the management controller running. -/
theorem mainReset {f : Dev → Dev} (h : LeavesRails f) (hk : KeepsMc f) (cause : Nat) {s : State} {d : Dev} (hm : d.link.hostMem = s.dev.link.hostMem)
    (hr : McRuns s.dev d) : ClearedFor cause s (onDev f (clearMain cause { s with dev := d })) ∧
      RunsOn s (onDev f (clearMain cause { s with dev := d })) := by
  obtain ⟨k1, k2, k3, k4⟩ := clearMain_runsOn (s := s) (u := { s with dev := d }) cause hr rfl
  obtain ⟨h1, h2, h3⟩ := hk (clearMain cause { s with dev := d }).dev
  exact ⟨clearMain_cleared_onDev h ⟨rfl, rfl, rfl, rfl⟩ hm, h1.trans k1, h2.trans k2, h3.trans k3, k4⟩

/-! ## Standby power (R485, R508) -/

theorem tearRecord_keeps (s : State) : SameFlash s.flash (tearRecord s).flash ∧ (tearRecord s).dev.link.hostMem = s.dev.link.hostMem := by
  unfold tearRecord
  split <;> exact ⟨⟨rfl, rfl, rfl, rfl⟩, rfl⟩

/-- The device without standby power. -/
def standbyGone (d : Dev) : Dev := { d with pwr := { d.pwr with standby := false, mainOn := false, thermtrip := false }, mc := mcOff d.mc }

theorem exec_standbyLoss {s : State} (h : s.dev.pwr.standby = true) :
    exec .standbyLoss s = .next (onDev standbyGone (clearMain 0 (tearRecord s))) := by
  change execStandbyLoss s = _
  rw [execStandbyLoss, standbyLoss, if_neg (by simp [h])]
  rfl

/-- The device to which standby power has returned. -/
def standbyBegun (d : Dev) : Dev := { d with pwr := { d.pwr with standby := true, mainOn := false }, mc := mcOff d.mc }

theorem exec_powerUp {s : State} (h : s.dev.pwr.standby = false) : exec .powerUp s = .next (onDev standbyBegun (clearMain 0 s)) := by
  change execPowerUp s = _
  rw [execPowerUp, powerUp, if_neg (by simp [h])]
  rfl

theorem exec_connectorReset {s : State} (h1 : s.dev.pwr.standby = true) (h2 : s.dev.mc.resetReq = none) :
    exec .connectorReset s = .next (onDev (setReset (if s.dev.mc.identityFail = 0 && !s.dev.pwr.thermtrip then some 5 else none)) (clearMain 5 s)) := by
  change execConnectorReset s = _
  have hp : (clearMain 5 s).dev.pwr.thermtrip = s.dev.pwr.thermtrip := by rw [clearMain_pwr]
  rw [execConnectorReset, connectorReset, if_neg (by simp [h1, h2])]
  dsimp only
  rw [clearMain_mc, hp]

theorem leavesRails_standbyGone : LeavesRails standbyGone := fun _ => ⟨rfl, rfl⟩
theorem leavesRails_standbyBegun : LeavesRails standbyBegun := fun _ => ⟨rfl, rfl⟩

/-- Settles O59: every reset is `clearMain` on the device with its record, and `clearMain_cleared` says what that leaves. -/
theorem moduleResets : Obligations.ModuleResets := by
  unfold Obligations.ModuleResets
  intro cleared kept
  have hc : cleared = ClearedFor := rfl
  have hk : kept = RunsOn := rfl
  clear_value cleared kept
  subst hc hk
  have sameFlash : ∀ f : Flash, SameFlash f f := fun _ => ⟨rfl, rfl, rfl, rfl⟩
  refine ⟨fun s v _ => ⟨fun h => ?_, fun h hs => ?_, fun t0 h58 hs hu ht => ?_⟩, fun s r hr => ?_, fun s hoff => ⟨fun ht => ?_, fun ht => ?_⟩,
    fun s hs => ⟨fun hq => ?_, fun hq => ?_, ?_⟩, fun s hs => ?_⟩
  · obtain ⟨hlink, hmc⟩ := fallRecorded_frame v s.dev
    obtain ⟨hclear, hruns⟩ := mainReset (leavesRails_setMain false) (keepsMc_setMain false) 3 hlink hmc
    refine ⟨_, exec_brownoutReset h s, hclear, hruns, rfl, fun hup hlen hcl hnext => ?_⟩
    exact ⟨_, fallRecorded_buffer hup hlen hnext v, rfl, rfl, rfl⟩
  · obtain ⟨hlink, hopen, hmc⟩ := risen60_frame v s.dev
    obtain ⟨hclear, hruns⟩ := mainReset (leavesRails_setMain false) (keepsMc_setMain false) 3 hlink hmc
    refine ⟨_, exec_inputOvervoltage h hs, hclear, hruns, rfl, ?_, risen60_platform v s⟩
    rw [onDev_dev, setMain_stageOpen, clearMain_pwr]
    exact hopen
  · have hx : overvoltageRecovery v s.dev = inputLevel v { s.dev with pwr := { s.dev.pwr with stageOpen := false } } := by
      rw [overvoltageRecovery, hs, hu]
      exact if_pos (by rw [decide_eq_true h58]; exact decide_eq_true ht)
    refine ⟨{ s with dev := overvoltageRecovery v s.dev }, rfl, ?_⟩
    rw [hx]
    exact ⟨rfl, rfl, rfl⟩
  · obtain ⟨l, hreq, hover⟩ : ∃ l, (∀ f, requested r f s = f (withSessions l s)) ∧
        ∀ i f, overLink r.isNone i f s = f s := by
      cases r with
      | none => exact ⟨s.dev.mc.sessions, requested_manager hr.1 hr.2, fun i f => overLink_unheld (unheld_of_linkOpen hr.2) ..⟩
      | some m =>
        obtain ⟨h1, h2, h3, h4⟩ := hr
        exact ⟨(touch m s.dev).mc.sessions, pldm_taken h1 h2 h3 h4, fun i f => overLink_module i f s⟩
    have hreset : exec (.moduleReset r) s = .next (moduleReset r s) := hover (.moduleReset r) (fun s => .next (moduleReset r s))
    have hcycle : exec (.powerCycle r) s = .next (powerCycle r s) := hover (.powerCycle r) (fun s => .next (powerCycle r s))
    refine ⟨fun hq ht => ?_, fun hq => ?_, fun hq => ?_, fun hq => ?_⟩
    · rw [moduleReset_taken hreq hq ht] at hreset
      obtain ⟨hlink, -, -, hmc⟩ := requestRecorded_frame 1 r (withSessions l s).dev
      obtain ⟨hclear, hruns⟩ := mainReset (leavesRails_setReset _) (keepsMc_setReset _) 1 hlink hmc
      refine ⟨_, hreset, hclear, hruns, fun hs => ?_, fun hid => ?_⟩
      · rw [onDev_dev, setReset_reply, clearMain_reply]
        exact resetAnswer_reply hs ..
      · rw [onDev_dev, setReset_req, if_pos hid]
    · rw [moduleReset_refused hreq hq, resetAnswer_frame] at hreset
      exact ⟨_, hreset, fun hs => resetAnswer_reply hs .., rfl, rfl, rfl⟩
    · rw [powerCycle_taken hreq hq] at hcycle
      obtain ⟨hlink, -, htime, hmc⟩ := requestRecorded_frame 2 r (withSessions l s).dev
      obtain ⟨hclear, hruns⟩ := mainReset leavesRails_cycleOff keepsMc_cycleOff 2 hlink hmc
      refine ⟨_, hcycle, hclear, hruns, rfl, rfl, rfl, rfl, ?_, fun hs => ?_⟩
      · rw [onDev_dev, cycleOff_offAt, clock_clearMain, clock, htime, clock]
        rfl
      · rw [onDev_dev, cycleOff_reply, clearMain_reply]
        exact resetAnswer_reply hs ..
    · rw [powerCycle_refused hreq hq, resetAnswer_frame] at hcycle
      exact ⟨_, hcycle, fun hs => resetAnswer_reply hs .., rfl, rfl⟩
  · have hx : powerReapply s.dev = { s.dev with mc := { s.dev.mc with
        offReason := 0, resetReq := if s.dev.mc.identityFail = 0 then s.dev.mc.resetReq else none } } := if_pos ⟨hoff, ht⟩
    refine ⟨onDev powerReapply s, rfl, ?_⟩
    rw [onDev, hx]
    exact ⟨rfl, rfl, rfl⟩
  · have hx : powerReapply s.dev = s.dev := if_neg fun h => absurd h.2 (Nat.not_le.mpr ht)
    change Host.Outcome.next (onDev powerReapply s) = _
    rw [onDev, hx]
  · obtain ⟨hclear, hruns⟩ := mainReset (leavesRails_setReset _) (keepsMc_setReset _) 5 (s := s) (d := s.dev) rfl rfl
    refine ⟨_, exec_connectorReset hs hq, hclear, hruns, fun hid ht => ?_⟩
    rw [onDev_dev, setReset_req, if_pos (by simp [hid, ht])]
  · change Host.Outcome.next (connectorReset s) = _
    rw [connectorReset, if_pos (by simp [hq])]
  · obtain ⟨hflash, hlink⟩ := tearRecord_keeps s
    exact ⟨_, exec_standbyLoss hs, clearMain_cleared_onDev leavesRails_standbyGone hflash hlink, rfl, rfl, rfl, rfl, rfl⟩
  · exact ⟨_, exec_powerUp hs, clearMain_cleared_onDev leavesRails_standbyBegun (sameFlash _) rfl, rfl, rfl, clearMain_log 0 s⟩

end Sys2Proof.Machine
end

section
/-! SUPPORT. What a loss of the host and the local path leave of an update (R242, R385, R386): nothing that the receiving of packets, the ending of
descriptors or the filling of queues does changes what the device knows of an update, or restores the host. -/

namespace Sys2Proof.Machine

/-- The update that the device knows, and the loss of the host, are as they were. -/
@[simp] abbrev SameUpd (d e : Dev) : Prop := e.upd = d.upd ∧ e.link.lost = d.link.lost

@[simp] theorem sameUpd_each {α : Type} {f : α → Dev → Dev} (h : ∀ x d, SameUpd d (f x d)) (l : List α) (d : Dev) : SameUpd d (each l f d) := by
  induction l generalizing d with
  | nil => exact ⟨rfl, rfl⟩
  | cons x l ih => exact ⟨(ih _).1.trans (h x d).1, (ih _).2.trans (h x d).2⟩

@[simp] theorem sameUpd_when {f : Dev → Dev} {d : Dev} (h : SameUpd d (f d)) (c : Bool) : SameUpd d (when_ c f d) := by
  unfold when_
  split
  · exact h
  · exact ⟨rfl, rfl⟩

/-! ## Registers, the log and the memories -/

@[simp] theorem sameUpd_setW {n i j w} {d : Dev} : SameUpd d (setW n i j w d) := by simp [setW]

@[simp] theorem sameUpd_setF {n i j hi lo v} {d : Dev} : SameUpd d (setF n i j hi lo v d) := by simp [setF]

@[simp] theorem sameUpd_setBit {n i j k} {d : Dev} : SameUpd d (setBit n i j k d) := by simp [setBit]

@[simp] theorem sameUpd_countF {n i j hi lo k} {d : Dev} : SameUpd d (countF n i j hi lo k d) := by simp [countF]

@[simp] theorem sameUpd_logEv {src cls area ev data} {d : Dev} : SameUpd d (logEv src cls area ev data d) := by
  unfold logEv; dsimp only; split <;> simp

@[simp] theorem sameUpd_emit {o} {d : Dev} : SameUpd d (emit o d) := by simp [emit]

@[simp] theorem sameUpd_drawFree {d : Dev} : SameUpd d (drawFree d).2 := by simp [drawFree]

@[simp] theorem sameUpd_updStack {n f} {d : Dev} : SameUpd d (updStack n f d) := by simp [updStack]

@[simp] theorem sameUpd_noteRowHit {n pc row word sym} {d : Dev} : SameUpd d (noteRowHit n pc row word sym d) := by simp [noteRowHit]

@[simp] theorem sameUpd_noteUePc {n pc} {d : Dev} : SameUpd d (noteUePc n pc d) := by simp [noteUePc]

@[simp] theorem sameUpd_noteCe {p row sym} {d : Dev} : SameUpd d (noteCe p row sym d) := by unfold noteCe; split <;> simp

@[simp] theorem sameUpd_correct {met} {d : Dev} : SameUpd d (correct met d) :=
  sameUpd_each (f := fun (s : Place × Nat × Nat) d => noteCe s.1 s.2.1 s.2.2 d) (fun _ _ => sameUpd_noteCe) _ _

@[simp] theorem sameUpd_readsDev {ps} {d : Dev} : SameUpd d (readsDev ps d) := by simp [readsDev]

@[simp] theorem sameUpd_noteUe {p src} {d : Dev} : SameUpd d (noteUe p src d) := by unfold noteUe; dsimp only; (repeat' split) <;> simp

@[simp] theorem sameUpd_writePhys {a bytes} {d : Dev} : SameUpd d (writePhys a bytes d) := by simp [writePhys]

/-! ## The grant ledger -/

@[simp] theorem sameUpd_updRail {r f} {d : Dev} : SameUpd d (updRail r f d) := by simp [updRail]

@[simp] theorem sameUpd_regrant {r} {d : Dev} : SameUpd d (regrant r d) := by unfold regrant; dsimp only; split <;> simp

@[simp] theorem sameUpd_requestGrant {g} {d : Dev} : SameUpd d (requestGrant g d) := by simp [requestGrant]

@[simp] theorem sameUpd_wantGrant {u cost inst} {d : Dev} : SameUpd d (wantGrant u cost inst d) := by unfold wantGrant; split <;> simp

@[simp] theorem sameUpd_returnGrant {u} {d : Dev} : SameUpd d (returnGrant u d) := by simp [returnGrant]

/-! ## Translation and migration -/

@[simp] theorem sameUpd_setRotation {rots} {d : Dev} : SameUpd d (setRotation rots d) := by simp [setRotation]

@[simp] theorem sameUpd_walked {ctx va e} {d : Dev} : SameUpd d (walked ctx va e d) := by unfold walked; (repeat' split) <;> simp

@[simp] theorem sameUpd_fillCache {ctx e r} {d : Dev} : SameUpd d (fillCache ctx e r d) := by
  unfold fillCache
  refine sameUpd_each (fun t d => ?_) _ _
  split <;> simp

@[simp] theorem sameUpd_fillAt {ctx va k e} {d : Dev} : SameUpd d (fillAt ctx va k e d) := by simp [fillAt]

@[simp] theorem sameUpd_fillRanges {ctx frags k e} {d : Dev} : SameUpd d (fillRanges ctx frags k e d) := by simp [fillRanges]

@[simp] theorem sameUpd_mirrorWrite {a l} {d : Dev} : SameUpd d (writePieces.mirrorWrite a l d) := by
  unfold writePieces.mirrorWrite
  (repeat' split) <;> simp

@[simp] theorem sameUpd_writePieces {ps l} {d : Dev} : SameUpd d (writePieces ps l d).1 := by
  fun_induction writePieces ps l d with
  | case1 => simp
  | case2 d l a n r ok p ih => simpa [p] using ih



@[simp] theorem sameUpd_settleWater {d : Dev} : SameUpd d (settleWater d) := by simp [settleWater]

@[simp] theorem sameUpd_settleStalled {d : Dev} : SameUpd d (settleStalled d) := by
  unfold settleStalled
  refine sameUpd_each (fun n d => sameUpd_each (fun g d => ?_) _ _) _ _
  split <;> simp

@[simp] theorem sameUpd_dropDone {d : Dev} : SameUpd d (dropDone d) := by simp [dropDone]

@[simp] theorem sameUpd_startMove {m p} {d : Dev} : SameUpd d (startMove m p d) := by simp [startMove]

@[simp] theorem sameUpd_idleDdr {d : Dev} : SameUpd d (idleDdr d) := by
  unfold idleDdr
  refine sameUpd_each (fun u d => ?_) _ _
  (repeat' split) <;> simp

@[simp] theorem sameUpd_wantChans {l} {d : Dev} : SameUpd d (wantChans l d) := by simp [wantChans]

@[simp] theorem sameUpd_kickMover {d : Dev} : SameUpd d (kickMover d) := by
  unfold kickMover
  dsimp only
  generalize hd : settleWater (settleStalled (dropDone d)) = d0
  have h0 : SameUpd d d0 := by simp [← hd]
  (repeat' split) <;> simp [h0]

@[simp] theorem sameUpd_queueMoves {ms} {d : Dev} : SameUpd d (queueMoves ms d) := by simp [queueMoves]

@[simp] theorem sameUpd_countAccess {ctx lfn units die} {d : Dev} : SameUpd d (countAccess ctx lfn units die d) := by
  unfold countAccess; dsimp only; (repeat' split) <;> simp

@[simp] theorem sameUpd_countLda {ctx l e} {d : Dev} : SameUpd d (countLda ctx l e d) := by simp [countLda]

@[simp] theorem sameUpd_countRange {ctx va len e} {d : Dev} : SameUpd d (countRange ctx va len e d) := by
  unfold countRange
  refine sameUpd_each (fun p d => ?_) _ _
  split <;> simp

@[simp] theorem sameUpd_useRanges {ctx frags k e} {d : Dev} : SameUpd d (useRanges ctx frags k e d) := by unfold useRanges; dsimp only; split <;> simp

/-! ## The host link -/

@[simp] theorem sameUpd_sendTx {t} {d : Dev} : SameUpd d (sendTx t d) := by
  unfold sendTx
  cases t.what with
  | access b id a store => cases store <;> simp
  | _ => simp

@[simp] theorem sameUpd_sendLink {t} {d : Dev} : SameUpd d (sendLink t d) := by unfold sendLink; split <;> simp

@[simp] theorem sameUpd_hostPut {cls own fn addr l} {d : Dev} : SameUpd d (hostPut cls own fn addr l d) := by unfold hostPut; split <;> simp

@[simp] theorem sameUpd_hostWrite {fn addr l} {d : Dev} : SameUpd d (hostWrite fn addr l d) := by simp [hostWrite]

@[simp] theorem sameUpd_hostRead {fn addr len why} {d : Dev} : SameUpd d (hostRead fn addr len why d) := by simp [hostRead]

@[simp] theorem sameUpd_raiseVector {fn v} {d : Dev} : SameUpd d (raiseVector fn v d) := by unfold raiseVector; split <;> simp

@[simp] theorem sameUpd_ringWrite {inst loc addr l} {d : Dev} : SameUpd d (ringWrite inst loc addr l d) := by
  unfold ringWrite; (repeat' split) <;> simp

/-! ## Queues, counters and completion rings -/

@[simp] theorem sameUpd_updWq {q f} {d : Dev} : SameUpd d (updWq q f d) := by simp [updWq]

@[simp] theorem sameUpd_updCr {r f} {d : Dev} : SameUpd d (updCr r f d) := by simp [updCr]

@[simp] theorem sameUpd_updAdmin {n f} {d : Dev} : SameUpd d (updAdmin n f d) := by simp [updAdmin]

@[simp] theorem sameUpd_takeCopy {q idx l} {d : Dev} : SameUpd d (takeCopy q idx l d) := by unfold takeCopy; split <;> simp

@[simp] theorem sameUpd_tryRead {q} {d : Dev} : SameUpd d (tryRead q d) := by unfold tryRead; (repeat' split) <;> simp

@[simp] theorem sameUpd_setProducer {q p} {d : Dev} : SameUpd d (setProducer q p d) := by unfold setProducer; (repeat' split) <;> simp

@[simp] theorem sameUpd_consume {q} {d : Dev} : SameUpd d (consume q d) := by unfold consume; (repeat' split) <;> simp

@[simp] theorem sameUpd_setCounter {idx v} {d : Dev} : SameUpd d (setCounter idx v d) := by unfold setCounter; (repeat' split) <;> simp

@[simp] theorem sameUpd_addCounter {inst idx k} {d : Dev} : SameUpd d (addCounter inst idx k d) := by unfold addCounter; split <;> simp

@[simp] theorem sameUpd_notify {r} {d : Dev} : SameUpd d (notify r d) := by unfold notify; (repeat' split) <;> simp

@[simp] theorem sameUpd_moderate {r} {d : Dev} : SameUpd d (moderate r d) := by simp [moderate]

@[simp] theorem sameUpd_thenCount {count} {d : Dev} : SameUpd d (thenCount count d) := by unfold thenCount; split <;> simp

@[simp] theorem sameUpd_entrySeen {r count} {d : Dev} : SameUpd d (entrySeen r count d) := by simp [entrySeen]

@[simp] theorem sameUpd_entryNowhere {r count} {d : Dev} : SameUpd d (entryNowhere r count d) := by simp [entryNowhere]

@[simp] theorem sameUpd_writeEntry {r e count} {d : Dev} : SameUpd d (writeEntry r e count d) := by unfold writeEntry; (repeat' split) <;> simp

@[simp] theorem sameUpd_tileEnds {q idx t status} {d : Dev} : SameUpd d (tileEnds q idx t status d) := by simp [tileEnds]

@[simp] theorem sameUpd_drain {q n} {d : Dev} : SameUpd d (drain q n d) := by
  fun_induction drain q n d <;> simp [*]

@[simp] theorem sameUpd_drainAll {q} {d : Dev} : SameUpd d (drainAll q d) := by simp [drainAll]

@[simp] theorem sameUpd_finish {q idx e} {d : Dev} : SameUpd d (finish q idx e d) := by simp [finish]

@[simp] theorem sameUpd_completeHead {q status result bytes detail} {d : Dev} : SameUpd d (completeHead q status result bytes detail d) := by
  unfold completeHead; (repeat' split) <;> simp

@[simp] theorem sameUpd_admitHead {q expiry devUs} {d : Dev} : SameUpd d (admitHead q expiry devUs d) := by unfold admitHead; (repeat' split) <;> simp

@[simp] theorem sameUpd_freeSlot {r} {d : Dev} : SameUpd d (freeSlot r d) := by simp [freeSlot]

/-! ## Faults and ports -/

/-- What a fault changes, raised or not, is no update. -/
theorem sameUpd_raiseFault {ctx va level kind eng w} {d : Dev} : match raiseFault ctx va level kind eng w d with
    | .ok e => SameUpd d e
    | .error e => SameUpd d e := by
  unfold raiseFault
  cases Tab.get d.xl.ctxs ctx with
  | none => simp
  | some c =>
    dsimp only
    split_ifs
    · simp
    · simp
    · cases faultOn ctx va d <;> simp

theorem sameUpd_of_raiseFault_ok {ctx va level kind eng w} {d e : Dev} (h : raiseFault ctx va level kind eng w d = .ok e) : SameUpd d e := by
  have := sameUpd_raiseFault (ctx := ctx) (va := va) (level := level) (kind := kind) (eng := eng) (w := w) (d := d)
  rwa [h] at this

theorem sameUpd_of_raiseFault_error {ctx va level kind eng w} {d e : Dev} (h : raiseFault ctx va level kind eng w d = .error e) : SameUpd d e := by
  have := sameUpd_raiseFault (ctx := ctx) (va := va) (level := level) (kind := kind) (eng := eng) (w := w) (d := d)
  rwa [h] at this

@[simp] theorem sameUpd_leaveFaults {f} {d : Dev} : SameUpd d (leaveFaults f d) := by simp [leaveFaults]

@[simp] theorem sameUpd_updPort {p f} {d : Dev} : SameUpd d (updPort p f d) := by simp [updPort]

@[simp] theorem sameUpd_enterLeaf {p f} {d : Dev} : SameUpd d (enterLeaf p f d) := by simp [enterLeaf]

@[simp] theorem sameUpd_enterPort {p f0} {d : Dev} : SameUpd d (enterPort p f0 d) := by unfold enterPort; dsimp only; split <;> simp

@[simp] theorem sameUpd_placeFrame {i f} {d : Dev} : SameUpd d (placeFrame i f d) := by unfold placeFrame; split <;> simp

@[simp] theorem sameUpd_sendFrame {i f} {d : Dev} : SameUpd d (sendFrame i f d) := by unfold sendFrame; split <;> simp

@[simp] theorem sameUpd_gather {d : Dev} : SameUpd d (gather d) := by unfold gather; split <;> simp

@[simp] theorem sameUpd_dropPort {i tag} {d : Dev} : SameUpd d (dropPort i tag d) := by simp [dropPort]

@[simp] theorem sameUpd_withdraw {f} {d : Dev} : SameUpd d (withdraw f d) := by simp [withdraw]

/-! ## Packets sent and messages ended -/

@[simp] theorem sameUpd_updPes {i f} {d : Dev} : SameUpd d (updPes i f d) := by simp [updPes]

@[simp] theorem sameUpd_updMsg {i seq f} {d : Dev} : SameUpd d (updMsg i seq f d) := by simp [updMsg]

@[simp] theorem sameUpd_takeSeq {i} {d : Dev} : SameUpd d (takeSeq i d).2 := by simp [takeSeq]

@[simp] theorem sameUpd_takeCount {i} {d : Dev} : SameUpd d (takeCount i d).2 := by unfold takeCount; dsimp only; split <;> simp

@[simp] theorem sameUpd_wantCipher {i} {d : Dev} : SameUpd d (wantCipher i d) := by simp [wantCipher]

@[simp] theorem sameUpd_encrypt {i cipher p} {d : Dev} : SameUpd d (encrypt i cipher p d).2 := by unfold encrypt; (repeat' split) <;> simp

@[simp] theorem sameUpd_route {p leaf queue inst} {d : Dev} : SameUpd d (route p leaf queue inst d) := by unfold route; split <;> simp

@[simp] theorem sameUpd_sendMsgPacket {i m typ retx tf payload} {d : Dev} : SameUpd d (sendMsgPacket i m typ retx tf payload d).1 := by
  unfold sendMsgPacket; dsimp only; split <;> simp

@[simp] theorem sameUpd_addMsg {i m} {d : Dev} : SameUpd d (addMsg i m d) := by simp [addMsg]

@[simp] theorem sameUpd_takeBack {i tag} {d : Dev} : SameUpd d (takeBack i tag d) := by simp [takeBack]

@[simp] theorem sameUpd_endMsg {i seq} {d : Dev} : SameUpd d (endMsg i seq d) := by unfold endMsg; split <;> simp

@[simp] theorem sameUpd_retireMsg {i seq} {d : Dev} : SameUpd d (retireMsg i seq d) := by unfold retireMsg; split <;> simp

@[simp] theorem sameUpd_endMsgs {f} {d : Dev} : SameUpd d (endMsgs f d) := by simp [endMsgs]

@[simp] theorem sameUpd_closeReads {f} {d : Dev} : SameUpd d (closeReads f d) := by simp [closeReads]

@[simp] theorem sameUpd_updComm {c f} {d : Dev} : SameUpd d (updComm c f d) := by simp [updComm]

@[simp] theorem sameUpd_sendCtrl {i x k rank owner epoch payload} {d : Dev} : SameUpd d (sendCtrl i x k rank owner epoch payload d).1 := by
  unfold sendCtrl; dsimp only; split <;> simp

theorem sameUpd_sendEach {f : Nat → Dev → Dev × Bool} (h : ∀ r d, SameUpd d (f r d).1) (l : List Nat) (d : Dev) : SameUpd d (sendEach f l d).1 := by
  induction l generalizing d with
  | nil => exact ⟨rfl, rfl⟩
  | cons r l ih => exact ⟨(ih _).1.trans (h r d).1, (ih _).2.trans (h r d).2⟩

@[simp] theorem sameUpd_sendSeals {c x k status redone} {d : Dev} : SameUpd d (sendSeals c x k status redone d).1 :=
  sameUpd_sendEach (fun _ _ => sameUpd_sendCtrl) _ _

/-! ## Descriptors and collectives ended -/

@[simp] theorem sameUpd_updBrick {b f} {d : Dev} : SameUpd d (updBrick b f d) := by simp [updBrick]

@[simp] theorem sameUpd_dropLaunch {l} {d : Dev} : SameUpd d (dropLaunch l d) := by unfold dropLaunch; split <;> simp

@[simp] theorem sameUpd_markHost {q idx b} {d : Dev} : SameUpd d (markHost q idx b d) := by simp [markHost]

@[simp] theorem sameUpd_sendFlush {cls fn inst q idx} {d : Dev} : SameUpd d (sendFlush cls fn inst q idx d) := by simp [sendFlush]

@[simp] theorem sameUpd_finishNow {q idx status result bytes detail} {d : Dev} : SameUpd d (finishNow q idx status result bytes detail d) := by
  unfold finishNow; (repeat' split) <;> simp

@[simp] theorem sameUpd_finishDesc {q idx status result bytes detail} {d : Dev} : SameUpd d (finishDesc q idx status result bytes detail d) := by
  unfold finishDesc; (repeat' split) <;> simp

@[simp] theorem sameUpd_stopDesc {q idx} {d : Dev} : SameUpd d (stopDesc q idx d) := by simp [stopDesc]

@[simp] theorem sameUpd_refuseWaiters {c status detail} {d : Dev} : SameUpd d (refuseWaiters c status detail d) := by simp [refuseWaiters]

@[simp] theorem sameUpd_stopPart {c status rank reported} {d : Dev} : SameUpd d (stopPart c status rank reported d) := by
  unfold stopPart; (repeat' split) <;> simp

@[simp] theorem sameUpd_endPart {c status rank reported} {d : Dev} : SameUpd d (endPart c status rank reported d) := by
  unfold endPart; dsimp only; split <;> simp

@[simp] theorem sameUpd_countOver {f} {d : Dev} : SameUpd d (countOver f d) := by simp [countOver]

@[simp] theorem sameUpd_flushDesc {q firstErr idx} {d : Dev} : SameUpd d (flushDesc q firstErr idx d) := by
  unfold flushDesc; dsimp only; (repeat' split) <;> simp

@[simp] theorem sameUpd_enterError {q idx first} {d : Dev} : SameUpd d (enterError q idx first d) := by simp [enterError]

@[simp] theorem sameUpd_queueError {q idx} {d : Dev} : SameUpd d (queueError q idx d) := by unfold queueError; (repeat' split) <;> simp

@[simp] theorem sameUpd_failDesc {q idx status origin} {d : Dev} : SameUpd d (failDesc q idx status origin d) := by unfold failDesc; split <;> simp

@[simp] theorem sameUpd_okDesc {q idx result bytes} {d : Dev} : SameUpd d (okDesc q idx result bytes d) := by unfold okDesc; (repeat' split) <;> simp

@[simp] theorem sameUpd_failPart {c status rank reported} {d : Dev} : SameUpd d (failPart c status rank reported d) := by
  unfold failPart; split <;> simp

@[simp] theorem sameUpd_failOwn {c status} {d : Dev} : SameUpd d (failOwn c status d) := by simp [failOwn]

@[simp] theorem sameUpd_refuseHead {q status} {d : Dev} : SameUpd d (refuseHead q status d) := by simp [refuseHead]

@[simp] theorem sameUpd_failMsg {i seq status origin} {d : Dev} : SameUpd d (failMsg i seq status origin d) := by
  unfold failMsg; dsimp only; (repeat' split) <;> simp

@[simp] theorem sameUpd_keyGone {i seq} {d : Dev} : SameUpd d (keyGone i seq d) := by unfold keyGone; (repeat' split) <;> simp

/-! ## Messages sent on -/

@[simp] theorem sameUpd_sendData {i seq off retx} {d : Dev} : SameUpd d (sendData i seq off retx d).1 := by
  fun_cases sendData i seq off retx d with
  | case3 => simp +zetaDelta only; split <;> simp
  | case4 => simp +zetaDelta only; split <;> simp
  | case5 m n lv va e he h d1 hf => exact sameUpd_of_raiseFault_ok hf
  | case6 m n lv va e he h d1 hf => simp [sameUpd_of_raiseFault_error hf]
  | _ => simp

@[simp] theorem sameUpd_sendUpTo {i seq limit retx n off} {d : Dev} : SameUpd d (sendUpTo i seq limit retx n off d) := by
  fun_induction sendUpTo i seq limit retx n off d <;> simp +zetaDelta [*]

@[simp] theorem sameUpd_pump {i seq} {d : Dev} : SameUpd d (pump i seq d) := by unfold pump; (repeat' split) <;> simp

@[simp] theorem sameUpd_sendRequest {i seq retx} {d : Dev} : SameUpd d (sendRequest i seq retx d) := by
  unfold sendRequest; dsimp only; (repeat' split) <;> simp

@[simp] theorem sameUpd_startMsg {i seq} {d : Dev} : SameUpd d (startMsg i seq d) := by unfold startMsg; (repeat' split) <;> simp

@[simp] theorem sameUpd_releaseFlags {i q} {d : Dev} : SameUpd d (releaseFlags i q d) := by simp [releaseFlags]

@[simp] theorem sameUpd_updWin {m f} {d : Dev} : SameUpd d (updWin m f d) := by unfold updWin; (repeat' split) <;> simp

@[simp] theorem sameUpd_winFall {m} {d : Dev} : SameUpd d (winFall m d) := by simp [winFall]

@[simp] theorem sameUpd_sendReadGrant {i seq off len retx} {d : Dev} : SameUpd d (sendReadGrant i seq off len retx d) := by
  unfold sendReadGrant; dsimp only; (repeat' split) <;> simp

@[simp] theorem sameUpd_sendWindowEnd {i seq} {d : Dev} : SameUpd d (sendWindowEnd i seq d) := by unfold sendWindowEnd; (repeat' split) <;> simp

@[simp] theorem sameUpd_backoff {k} {d : Dev} : SameUpd d (backoff k d).2 := by simp [backoff]

@[simp] theorem sameUpd_busyNack {i seq} {d : Dev} : SameUpd d (busyNack i seq d) := by unfold busyNack; split <;> simp

/-! ## Packets received -/

@[simp] theorem sameUpd_countRefusal {status} {d : Dev} : SameUpd d (countRefusal status d) := by unfold countRefusal; split <;> simp

@[simp] theorem sameUpd_sendAnswer {p leaf slot inst} {d : Dev} : SameUpd d (sendAnswer p leaf slot inst d) := by
  unfold sendAnswer; dsimp only; split <;> simp

@[simp] theorem sameUpd_sendNack {p reason slot} {d : Dev} : SameUpd d (sendNack p reason slot d) := by simp [sendNack]

@[simp] theorem sameUpd_sendAck {p ece slot} {d : Dev} : SameUpd d (sendAck p ece slot d) := by simp [sendAck]

@[simp] theorem sameUpd_dropMalformed {i} {d : Dev} : SameUpd d (dropMalformed i d) := by simp [dropMalformed]

@[simp] theorem sameUpd_dropDuplicate {i} {d : Dev} : SameUpd d (dropDuplicate i d) := by simp [dropDuplicate]

@[simp] theorem sameUpd_dropUnauth {i} {d : Dev} : SameUpd d (dropUnauth i d) := by simp [dropUnauth]

@[simp] theorem sameUpd_enterFilter {i tag outcome ece} {d : Dev} : SameUpd d (enterFilter i tag outcome ece d) := by simp [enterFilter]

@[simp] theorem sameUpd_filterStep {i} {d : Dev} : SameUpd d (filterStep i d) := by simp [filterStep]

@[simp] theorem sameUpd_meetFilter {p e slot} {d : Dev} : SameUpd d (meetFilter p e slot d) := by unfold meetFilter; split <;> simp

@[simp] theorem sameUpd_updSlot {i tag f} {d : Dev} : SameUpd d (updSlot i tag f d) := by simp [updSlot]

@[simp] theorem sameUpd_dropSlot {i tag} {d : Dev} : SameUpd d (dropSlot i tag d) := by simp [dropSlot]

@[simp] theorem sameUpd_closeSlot {i tag outcome} {d : Dev} : SameUpd d (closeSlot i tag outcome d) := by unfold closeSlot; (repeat' split) <;> simp

@[simp] theorem sameUpd_meetSlot {i tag ce} {d : Dev} : SameUpd d (meetSlot i tag ce d) := by simp [meetSlot]

@[simp] theorem sameUpd_joinGrants {i tag} {d : Dev} : SameUpd d (joinGrants i tag d) := by simp [joinGrants]

@[simp] theorem sameUpd_eligibleAgain {i tag} {d : Dev} : SameUpd d (eligibleAgain i tag d) := by unfold eligibleAgain; split <;> simp

@[simp] theorem sameUpd_meetBudget {i n ce} {d : Dev} : SameUpd d (meetBudget i n ce d) := by unfold meetBudget; dsimp only; (repeat' split) <;> simp

@[simp] theorem sameUpd_budgetAfter {p ce} {d : Dev} : SameUpd d (budgetAfter p ce d) := by simp [budgetAfter]

@[simp] theorem sameUpd_sendGrant {i tag retx} {d : Dev} : SameUpd d (sendGrant i tag retx d) := by unfold sendGrant; (repeat' split) <;> simp

@[simp] theorem sameUpd_completeWrite {i tag} {d : Dev} : SameUpd d (completeWrite i tag d) := by unfold completeWrite; (repeat' split) <;> simp

@[simp] theorem sameUpd_authFailed {p} {d : Dev} : SameUpd d (authFailed p d) := by unfold authFailed; dsimp only; split <;> simp

@[simp] theorem sameUpd_arrives {p s ce} {d : Dev} : SameUpd d (arrives p s ce d) := by simp [arrives]

@[simp] theorem sameUpd_dataInSlot {p r ce auth} {d : Dev} : SameUpd d (dataInSlot p r ce auth d) := by
  unfold dataInSlot; dsimp only; (repeat' split) <;> simp

@[simp] theorem sameUpd_assignSlot {p r a} {d : Dev} : SameUpd d (assignSlot p r a d).1 := by unfold assignSlot; dsimp only; (repeat' split) <;> simp

@[simp] theorem sameUpd_rxData {p ce auth} {d0 : Dev} : SameUpd d0 (rxData p ce auth d0) := by unfold rxData; dsimp only; (repeat' split) <;> simp

@[simp] theorem sameUpd_sendResponses {p r retx limit n off} {d : Dev} : SameUpd d (sendResponses p r retx limit n off d) := by
  fun_induction sendResponses p r retx limit n off d <;> simp +zetaDelta [*]

@[simp] theorem sameUpd_rxReadRange {p off len auth} {d : Dev} : SameUpd d (rxReadRange p off len auth d) := by
  unfold rxReadRange; (repeat' split) <;> simp

@[simp] theorem sameUpd_sendResend {i tag off len} {d : Dev} : SameUpd d (sendResend i tag off len d) := by unfold sendResend; split <;> simp

@[simp] theorem sameUpd_requestAgain {i tag} {d : Dev} : SameUpd d (requestAgain i tag d) := by unfold requestAgain; (repeat' split) <;> simp

@[simp] theorem sameUpd_rxWriteRequest {p ce auth} {d0 : Dev} : SameUpd d0 (rxWriteRequest p ce auth d0) := by
  unfold rxWriteRequest; dsimp only; (repeat' split) <;> simp

@[simp] theorem sameUpd_rxCancel {p auth} {d0 : Dev} : SameUpd d0 (rxCancel p auth d0) := by unfold rxCancel; dsimp only; (repeat' split) <;> simp

@[simp] theorem sameUpd_slotAbandon {i tag} {d : Dev} : SameUpd d (slotAbandon i tag d) := by unfold slotAbandon; (repeat' split) <;> simp

/-! ## Collectives -/

@[simp] theorem sameUpd_updColl {c f} {d : Dev} : SameUpd d (updColl c f d) := by simp [updColl]

@[simp] theorem sameUpd_startContrib {c x k p} {d : Dev} : SameUpd d (startContrib c x k p d) := by unfold startContrib; dsimp only; split <;> simp

@[simp] theorem sameUpd_pumpColl {c n l} {d : Dev} : SameUpd d (pumpColl c n l d) := by
  fun_induction pumpColl c n l d <;> simp +zetaDelta [*]

@[simp] theorem sameUpd_kickColl {c} {d : Dev} : SameUpd d (kickColl c d) := by unfold kickColl; split <;> simp

@[simp] theorem sameUpd_retireEnters {c} {d : Dev} : SameUpd d (retireEnters c d) := by simp [retireEnters]

@[simp] theorem sameUpd_checkEnters {c} {d : Dev} : SameUpd d (checkEnters c d) := by unfold checkEnters; (repeat' split) <;> simp

@[simp] theorem sameUpd_completeColl {c x k} {d : Dev} : SameUpd d (completeColl c x k d) := by unfold completeColl; (repeat' split) <;> simp

@[simp] theorem sameUpd_collProgress {c} {d : Dev} : SameUpd d (collProgress c d) := by unfold collProgress; dsimp only; (repeat' split) <;> simp

@[simp] theorem sameUpd_contribAcked {c rank off epoch} {d : Dev} : SameUpd d (contribAcked c rank off epoch d) := by
  unfold contribAcked; (repeat' split) <;> simp

@[simp] theorem sameUpd_sealAcked {c rank} {d : Dev} : SameUpd d (sealAcked c rank d) := by simp [sealAcked]

@[simp] theorem sameUpd_collFails {p v} {d : Dev} : SameUpd d (collFails p v d) := by unfold collFails; split <;> simp

@[simp] theorem sameUpd_onePacket {p ce} {d : Dev} : SameUpd d (onePacket p ce d).1 := by unfold onePacket; (repeat' split) <;> simp

@[simp] theorem sameUpd_writeRuns {k i l} {d : Dev} : SameUpd d (writeRuns k i l d).1 := by
  fun_induction writeRuns k i l d <;> simp +zetaDelta [*]

theorem sameUpd_of_meetDest {c p q} {d : Dev} {r : Dev × Bool} (h : meetDest c p q d = .ok r) : SameUpd d r.1 := by
  unfold meetDest at h
  (repeat' split at h) <;> cases h <;> simp

@[simp] theorem sameUpd_completeContrib {c p q} {d : Dev} : SameUpd d (completeContrib c p q d) := by unfold completeContrib; (repeat' split) <;> simp

@[simp] theorem sameUpd_stallPacket {c p} {d : Dev} : SameUpd d (stallPacket c p d) := by simp [stallPacket]

@[simp] theorem sameUpd_destStops {c p e} {d : Dev} : SameUpd d (destStops c p e d) := by
  fun_cases destStops c p e d with
  | case2 x k h lv va d1 hf => simp [sameUpd_of_raiseFault_ok hf]
  | case3 x k h lv va d1 hf => simp [sameUpd_of_raiseFault_error hf]
  | _ => simp

@[simp] theorem sameUpd_contribInSlot {c p auth} {d : Dev} : SameUpd d (contribInSlot c p auth d) := by
  have hok : ∀ {q r}, meetDest c p q d = .ok r → SameUpd d r.1 := sameUpd_of_meetDest
  fun_cases contribInSlot c p auth d with
  | case3 s q hq hs k b hp w =>
    cases hw : meetDest c p q d with
    | ok r => simp [w, hw, hok hw]
    | error e => simp [w, hw]
  | case5 s q hq hs k b hp w ha d1 hw => simpa using hok hw
  | case6 s q hq hs k b hp w ha d1 hw d2 => simpa [d2] using hok hw
  | case7 s q hq hs k b hp w ha d1 hw d2 => simpa [d2] using hok hw
  | _ => simp

@[simp] theorem sameUpd_contribArrives {c p ce auth} {d : Dev} : SameUpd d (contribArrives c p ce auth d) := by unfold contribArrives; split <;> simp

@[simp] theorem sameUpd_contribSlot {c p a} {d : Dev} : SameUpd d (contribSlot c p a d).1 := by unfold contribSlot; (repeat' split) <;> simp

@[simp] theorem sameUpd_rxContribution {p ce auth} {d0 : Dev} : SameUpd d0 (rxContribution p ce auth d0) := by
  unfold rxContribution; dsimp only; (repeat' split) <;> simp

@[simp] theorem sameUpd_rxContribRequest {p ce auth} {d0 : Dev} : SameUpd d0 (rxContribRequest p ce auth d0) := by
  unfold rxContribRequest; dsimp only; (repeat' split) <;> simp

theorem sameUpd_rxControl {p kind ce auth} {act : Nat → Dev → Dev} (h : ∀ c d, SameUpd d (act c d)) {d : Dev} :
    SameUpd d (rxControl p kind ce auth act d) := by
  unfold rxControl
  dsimp only
  (repeat' split) <;> simp [h]

@[simp] theorem sameUpd_actEnter {p c} {d : Dev} : SameUpd d (actEnter p c d) := by unfold actEnter; (repeat' split) <;> simp

@[simp] theorem sameUpd_redoContrib {c rank off epoch} {d : Dev} : SameUpd d (redoContrib c rank off epoch d) := by simp [redoContrib]

@[simp] theorem sameUpd_actRestart {p c} {d : Dev} : SameUpd d (actRestart p c d) := by unfold actRestart; split <;> simp

@[simp] theorem sameUpd_actSeal {p c} {d : Dev} : SameUpd d (actSeal p c d) := by unfold actSeal; dsimp only; (repeat' split) <;> simp

/-! ## Host DMA and the local path -/

@[simp] theorem sameUpd_updDma {k f} {d : Dev} : SameUpd d (updDma k f d) := by simp [updDma]

@[simp] theorem sameUpd_dmaMap {q idx m off n k} {d : Dev} : SameUpd d (dmaMap q idx m off n k d).1 := by
  fun_cases dmaMap q idx m off n k d with
  | case2 fr e lv va h d1 hf => exact sameUpd_of_raiseFault_ok hf
  | case3 fr e lv va h d1 hf => simp [sameUpd_of_raiseFault_error hf]
  | _ => simp

@[simp] theorem sameUpd_countPiece {q m off n} {d : Dev} : SameUpd d (countPiece q m off n d) := by simp [countPiece]

@[simp] theorem sameUpd_pumpDma {q idx n} {d : Dev} : SameUpd d (pumpDma q idx n d) := by
  induction n generalizing d with
  | zero => simp [pumpDma]
  | succ n ih =>
    unfold pumpDma
    dsimp only
    (repeat' split) <;> simp [ih]

@[simp] theorem sameUpd_idleDma {i} {d : Dev} : SameUpd d (idleDma i d) := by unfold idleDma; split <;> simp

@[simp] theorem sameUpd_pumpEngine {i} {d : Dev} : SameUpd d (pumpEngine i d) := by simp [pumpEngine]

@[simp] theorem sameUpd_pumpHost {d : Dev} : SameUpd d (pumpHost d) := by simp [pumpHost]

@[simp] theorem sameUpd_noteAnswer {i seq} {d : Dev} : SameUpd d (noteAnswer i seq d) := by simp [noteAnswer]

@[simp] theorem sameUpd_rxAck {p m} {d : Dev} : SameUpd d (rxAck p m d) := by unfold rxAck; (repeat' split) <;> simp

@[simp] theorem sameUpd_rxNack {p} {d : Dev} : SameUpd d (rxNack p d) := by unfold rxNack; split <;> simp

@[simp] theorem sameUpd_rxGrant {p m} {d : Dev} : SameUpd d (rxGrant p m d) := by unfold rxGrant; split <;> simp

@[simp] theorem sameUpd_rxResend {p m} {d : Dev} : SameUpd d (rxResend p m d) := by unfold rxResend; split <;> simp

@[simp] theorem sameUpd_giveTile {q idx l} {d : Dev} : SameUpd d (giveTile q idx l d) := by simp [giveTile]

@[simp] theorem sameUpd_rxResponse {p m ce bad} {d : Dev} : SameUpd d (rxResponse p m ce bad d) := by
  unfold rxResponse; dsimp only; (repeat' split) <;> simp

@[simp] theorem sameUpd_cancelAgain {p} {d : Dev} : SameUpd d (cancelAgain p d) := by unfold cancelAgain; split <;> simp

@[simp] theorem sameUpd_rxAnswer {p srcNode srcDie ce auth} {d0 : Dev} : SameUpd d0 (rxAnswer p srcNode srcDie ce auth d0) := by
  unfold rxAnswer; dsimp only; (repeat' split) <;> simp

@[simp] theorem sameUpd_rxPacket {p srcNode srcDie ce auth} {d : Dev} : SameUpd d (rxPacket p srcNode srcDie ce auth d) := by
  unfold rxPacket
  dsimp only
  (repeat' split) <;> simp [sameUpd_rxControl]

@[simp] theorem sameUpd_runLoop {n} {d : Dev} : SameUpd d (runLoop n d) := by
  fun_induction runLoop n d <;> simp +zetaDelta [*]

@[simp] theorem sameUpd_idleEngines {d : Dev} : SameUpd d (idleEngines d) := by
  unfold idleEngines
  have h := sameUpd_each (f := fun u d => if unitBusy u d then d else returnGrant u d) (fun u d => by split <;> simp)
  simp [h]

@[simp] theorem sameUpd_localPath {d : Dev} : SameUpd d (localPath d) := by simp [localPath]

/-! ## Faults of launches -/

@[simp] theorem sameUpd_writeVirt {inst ctx va e l} {d : Dev} : SameUpd d (writeVirt inst ctx va e l d) := by
  unfold writeVirt; (repeat' split) <;> simp

@[simp] theorem sameUpd_endLaunch {l status} {d : Dev} : SameUpd d (endLaunch l status d) := by unfold endLaunch; split <;> simp

@[simp] theorem sameUpd_beatsNow {k x l cause} {d : Dev} : SameUpd d (beatsNow k x l cause d).2 := by unfold beatsNow; split <;> simp

@[simp] theorem sameUpd_recordFault {k x l f} {d : Dev} : SameUpd d (recordFault k x l f d) := by unfold recordFault; split <;> simp

@[simp] theorem sameUpd_brickFault {k f} {d : Dev} : SameUpd d (brickFault k f d) := by unfold brickFault; (repeat' split) <;> simp

@[simp] theorem sameUpd_faultHere {k pc w why} {d : Dev} : SameUpd d (faultHere k pc w why d) := by simp [faultHere]

@[simp] theorem sameUpd_tileFault {k ch s cause addr} {d : Dev} : SameUpd d (tileFault k ch s cause addr d) := by simp [tileFault]

@[simp] theorem sameUpd_failWaiter {w} {d : Dev} : SameUpd d (failWaiter w d) := by unfold failWaiter; (repeat' split) <;> simp

@[simp] theorem sameUpd_takeFault {id} {d : Dev} : SameUpd d (takeFault id d) := by simp [takeFault]

@[simp] theorem sameUpd_endFault {id} {d : Dev} : SameUpd d (endFault id d) := by unfold endFault; split <;> simp

/-! ## The loss of the host -/

@[simp] theorem sameUpd_recordHostFault {q idx} {d : Dev} : SameUpd d (recordHostFault q idx d) := by unfold recordHostFault; (repeat' split) <;> simp

@[simp] theorem sameUpd_loseDesc {q idx} {d : Dev} : SameUpd d (loseDesc q idx d) := by simp [loseDesc]

@[simp] theorem sameUpd_loseHost {q} {d : Dev} : SameUpd d (loseHost q d) := by unfold loseHost; (repeat' split) <;> simp

@[simp] theorem sameUpd_detachQueue {q} {d : Dev} : SameUpd d (detachQueue q d) := by unfold detachQueue; (repeat' split) <;> simp

@[simp] theorem sameUpd_detachAll {d : Dev} : SameUpd d (detachAll d) := by simp [detachAll]

/-- Has the host been lost, with the update as it was? -/
def LostFrom (d e : Dev) : Prop := e.upd = d.upd ∧ e.link.lost = true

theorem LostFrom.each {d e : Dev} (h : LostFrom d e) {α : Type} {f : α → Dev → Dev} (hf : ∀ x d, SameUpd d (f x d)) (l : List α) :
    LostFrom d (each l f e) := by
  obtain ⟨hu, hl⟩ := sameUpd_each hf l e
  exact ⟨hu.trans h.1, hl.trans h.2⟩

/-- What has begun on the link is forgotten. -/
theorem LostFrom.forget {d e : Dev} (h : LostFrom d e) : LostFrom d { e with link := { e.link with reads := [], flushes := [], behind := [] } } := h

/-- A loss of the host leaves the update, and the host is lost. -/
theorem lostFrom_hostLost (event : Nat) (d : Dev) : LostFrom d (hostLost event d) := by
  unfold hostLost
  dsimp only
  split
  · next h => exact ⟨by simp, by simp [h]⟩
  · refine .each (.each (.forget (.each (.each ?_ (fun t d => ?_) _) (fun q d => sameUpd_loseHost) _)) (fun id d => sameUpd_endFault) _)
      (fun q d => ?_) _
    · exact ⟨by simp, by simp⟩
    · cases t.what <;> simp
    · simp

end Sys2Proof.Machine
end

section
/-! SUPPORT. Update commands (R454 to R458, R472 to R474): how each reaches the lease's holder, what the staging and the banks become, and what the ends of
a staging leave. -/

namespace Sys2Proof.Machine

/-! ## A command of the update arrives (R429, R454, R472) -/

theorem authorised_touch (r : MReq) (d : Dev) : authorised r (touch r d) = authorised r d := by
  have hcomp : ((fun x => x.id == r.sess.getD 0) ∘ fun x : Session => if r.sess = some x.id then { x with last := clock iodie d } else x) =
      fun x => x.id == r.sess.getD 0 := by
    funext x
    by_cases h : r.sess = some x.id <;> simp [h]
  cases hs : r.sess with
  | none => simp [authorised, sessionOf, hs]
  | some k =>
    rw [hs] at hcomp
    simp only [Option.getD_some] at hcomp
    simp only [authorised, sessionOf, touch, hs, Option.bind_some, List.find?_map]
    rw [hcomp]
    cases d.mc.sessions.find? (fun x => x.id == k) with
    | none => rfl
    | some x => by_cases hx : k = x.id <;> simp [hx]

theorem updUpd_congr {f g : Update → Update} {s : State} (h : f s.dev.upd = g s.dev.upd) : updUpd f s = updUpd g s := by simp only [updUpd, h]

/-- The state with the sessions given, in which the holder of the lease has just sent a command. -/
def spoken (l : List Session) (s : State) : State := updUpd (fun u => { u with lastCmd := clock iodie s.dev }) (withSessions l s)

theorem fromSource_commands {src : UpdSrc} {s : State} (h : Safety.Commands src s) : ∃ m, (∀ f, fromSource src f s = f (withSessions m s)) ∧
    ∀ i f, overLink (isManager src) i f s = f s := by
  obtain ⟨hover, hsrc⟩ := h
  have hexp : ∀ m, expireLease (withSessions m s) = withSessions m s := fun m =>
    if_neg (by rw [show leaseOver (withSessions m s).dev = leaseOver s.dev from rfl, hover]; decide)
  cases src with
  | manager =>
    obtain ⟨hr, hl⟩ := hsrc
    refine ⟨s.dev.mc.sessions, fun f => ?_, fun i f => overLink_unheld (unheld_of_linkOpen hl) ..⟩
    simp only [fromSource, hr, hl, Bool.not_true, Bool.false_eq_true, if_false, if_true]
    exact congrArg f (hexp s.dev.mc.sessions)
  | platform r =>
    obtain ⟨h1, h2, h3, h4, h5⟩ := hsrc
    refine ⟨(touch r s.dev).mc.sessions, fun f => ?_, fun i f => overLink_module i f s⟩
    rw [fromSource, pldmAuth, pldm_taken h1 h2 h3 h4, if_pos ((authorised_touch ..).trans h5)]
    exact congrArg f (hexp _)

theorem holderOf_ne_zero (src : UpdSrc) : holderOf src ≠ 0 := by cases src <;> simp [holderOf]

/-- A command of the lease's holder does what the state allows. -/
theorem leased_commands {src : UpdSrc} {l : Nat} {s : State} (h : Safety.CommandsHeld src l s) :
    ∃ m, (∀ c ok f, c = none ∨ c = some l → leased src c ok f s = if ok (spoken m s) then f (spoken m s) else updAnswer src 0xE (spoken m s)) ∧
      ∀ i f, overLink (isManager src) i f s = f s := by
  obtain ⟨hcmd, hholder, hlease⟩ := h
  obtain ⟨m, hfrom, hover⟩ := fromSource_commands hcmd
  have hspoke : holderSpoke src (withSessions m s) = spoken m s := by
    have hh : (withSessions m s).dev.upd.holder = holderOf src := hholder
    exact updUpd_congr (if_pos hh)
  have hne : ¬ (spoken m s).dev.upd.holder = 0 := by
    change ¬ s.dev.upd.holder = 0
    rw [hholder]
    exact holderOf_ne_zero src
  refine ⟨m, fun c ok f hc => ?_, hover⟩
  have hid : ¬ (decide (holderOf src = 1) && c.any (fun k => k != (spoken m s).dev.upd.lease)) = true := by
    have hl : (spoken m s).dev.upd.lease = s.dev.upd.lease := rfl
    rcases hc with rfl | rfl
    · simp
    · simp only [Bool.and_eq_true, decide_eq_true_eq, Option.any_some, bne_iff_ne, not_and, not_not, hl]
      exact fun h1 => (hlease h1).symm
  unfold leased
  rw [hfrom]
  dsimp only
  rw [hspoke, if_neg hne, if_neg (not_not.mpr (show (spoken m s).dev.upd.holder = holderOf src from hholder)), if_neg hid]

section Answer

variable (src : UpdSrc) (code : Nat) (s : State)

theorem updAnswer_answered : Safety.Answered src code (updAnswer src code s) := by cases src <;> rfl
@[simp] theorem updAnswer_holder : (updAnswer src code s).dev.upd.holder = s.dev.upd.holder := by cases src <;> rfl
@[simp] theorem updAnswer_state : (updAnswer src code s).dev.upd.state = s.dev.upd.state := by cases src <;> rfl
@[simp] theorem updAnswer_staging : (updAnswer src code s).dev.upd.staging = s.dev.upd.staging := by cases src <;> rfl
@[simp] theorem updAnswer_flash : (updAnswer src code s).flash = s.flash := by cases src <;> rfl

end Answer

/-! ## The lease (R454) -/

theorem nextLease_ne_zero (last : Nat) : nextLease last ≠ 0 := by
  unfold nextLease
  split <;> omega

theorem grantLease_upd (src : UpdSrc) (s : State) : (grantLease src s).dev.upd = { s.dev.upd with
    holder := holderOf src, state := 1, lease := nextLease s.dev.upd.lastLease, lastLease := nextLease s.dev.upd.lastLease,
    lastCmd := clock iodie s.dev, result := some 0, detail := 0 } := by
  cases src <;> rfl

theorem grantLease_flash (src : UpdSrc) (s : State) : (grantLease src s).flash = s.flash := by cases src <;> rfl

theorem leaseTake_outcome {src : UpdSrc} {s : State} (h : Safety.Commands src s) : ∃ m, exec (.leaseTake src) s = .next
    (if s.dev.upd.holder = 0 then grantLease src (withSessions m s)
     else updAnswer src (if s.dev.upd.holder ≠ holderOf src then 0x11 else 0xE) (holderSpoke src (withSessions m s))) := by
  obtain ⟨m, hfrom, hover⟩ := fromSource_commands h
  refine ⟨m, (hover (.leaseTake src) (fun s => .next (leaseTake src s))).trans ?_⟩
  rw [leaseTake, hfrom]
  rfl

theorem holderSpoke_keeps (src : UpdSrc) (s : State) : (holderSpoke src s).dev.upd.holder = s.dev.upd.holder ∧
    (holderSpoke src s).dev.upd.state = s.dev.upd.state ∧ (holderSpoke src s).flash = s.flash := by
  by_cases h : s.dev.upd.holder = holderOf src <;> simp [holderSpoke, updUpd, h]

theorem leaseRelease_outcome {src : UpdSrc} {l : Nat} {s : State} (h : Safety.CommandsHeld src l s) : ∃ m, exec (.leaseRelease src l) s = .next
    (if s.dev.upd.state ≤ 4 ∨ s.dev.upd.state = 6 then updAnswer src 0 (setResult (some 0) 0 (endLease (spoken m s)))
     else updAnswer src 0xE (spoken m s)) := by
  obtain ⟨m, hleased, hover⟩ := leased_commands h
  refine ⟨m, (hover (.leaseRelease src l) (fun s => .next (leaseRelease src l s))).trans (congrArg Host.Outcome.next ?_)⟩
  rw [leaseRelease, hleased _ _ _ (.inr rfl)]
  simp only [decide_eq_true_eq]
  rfl

/-- What the end of a lease leaves: no holder, no staging, and what was being written is empty. -/
theorem endLease_leaves (s : State) : (endLease s).dev.upd.holder = 0 ∧ (endLease s).dev.upd.state = 0 ∧ (endLease s).dev.upd.staging = none ∧
    (endLease s).flash = if s.dev.upd.state = 2 ∨ s.dev.upd.state = 3 then emptyBank s.dev.upd s.flash else s.flash := by
  refine ⟨?_, ?_, ?_, endLease_flash s⟩ <;> rw [endLease_upd] <;> rfl

/-! ## A unit that has asked holds a grant or waits (R47) -/

/-- Has a unit a grant on a rail, or a request that waits? -/
def Rail.Asked (u : UnitId) (r : Rail) : Prop := (∃ g ∈ r.grants, g.unit = u) ∨ ∃ w ∈ r.waiting, w.req.unit = u

theorem asked_iff (u : UnitId) (d : Dev) : (railAt (railOf u) d).Asked u ↔ holdsGrant u d = true ∨ waitsGrant u d = true := by
  simp [Rail.Asked, holdsGrant, waitsGrant]

/-- The governor's pass forgets no unit of those that it goes through. -/
theorem asked_grantPass {u : UnitId} (d : Dev) (l : List GrantWait) : ∀ (kept : List GrantWait) (shut : List Nat) (r : Rail),
    ((∃ g ∈ r.grants, g.unit = u) ∨ ∃ w ∈ kept ++ l, w.req.unit = u) → (grantPass d l kept shut r).1.Asked u := by
  induction l with
  | nil => intro kept shut r h; simpa [grantPass, Rail.Asked] using h
  | cons w l ih =>
    intro kept shut r h
    have hkeep : (∃ g ∈ r.grants, g.unit = u) ∨ ∃ x ∈ (kept ++ [w]) ++ l, x.req.unit = u := by simpa using h
    unfold grantPass
    split_ifs
    · exact h
    · exact ih _ _ _ hkeep
    · exact ih _ _ _ hkeep
    · refine ih _ _ _ ?_
      rcases h with ⟨g, hg, hu⟩ | ⟨x, hx, hu⟩
      · exact .inl ⟨g, List.mem_append_left _ hg, hu⟩
      · rcases List.mem_append.mp hx with hk | hw
        · exact .inr ⟨{ x with seen := x.seen + 1 }, List.mem_append_left _ (List.mem_map_of_mem hk), hu⟩
        · rcases List.mem_cons.mp hw with rfl | hl
          · exact .inl ⟨x.req, by simp, hu⟩
          · exact .inr ⟨x, List.mem_append_right _ hl, hu⟩
    · exact ih _ _ _ hkeep

theorem asked_regrant {r : Nat} {d : Dev} (hr : r < d.pwr.rails.length) {u : UnitId} (h : (railAt r d).Asked u) : (railAt r (regrant r d)).Asked u := by
  unfold regrant
  dsimp only
  split
  · have hp := asked_grantPass d (railAt r d).waiting [] [] (railAt r d) h
    unfold when_
    split <;> simpa [railAt_updRail_self hr] using hp
  · exact h

@[simp] theorem length_rails_updRail (r : Nat) (f : Rail → Rail) (d : Dev) : (updRail r f d).pwr.rails.length = d.pwr.rails.length := by simp [updRail]

@[simp] theorem length_rails_regrant (r : Nat) (d : Dev) : (regrant r d).pwr.rails.length = d.pwr.rails.length := by
  unfold regrant when_
  dsimp only
  split_ifs <;> simp [setBit, setF, setW]

theorem asked_wantImage {u : UnitId} {d : Dev} (hr : railOf u < d.pwr.rails.length) :
    holdsGrant u (wantImage u d) = true ∨ waitsGrant u (wantImage u d) = true := by
  unfold wantImage wantGrant
  split
  · next h => simpa using h
  · refine (asked_iff ..).mp (asked_regrant (by simpa using hr) ?_)
    rw [railAt_updRail_self hr]
    exact .inr ⟨_, List.mem_append_right _ (List.mem_singleton_self _), rfl⟩

@[simp] theorem length_rails_returnGrant (u : UnitId) (d : Dev) : (returnGrant u d).pwr.rails.length = d.pwr.rails.length := by simp [returnGrant]

@[simp] theorem length_rails_wantImage (u : UnitId) (d : Dev) : (wantImage u d).pwr.rails.length = d.pwr.rails.length := by
  unfold wantImage wantGrant requestGrant
  split <;> simp

/-- A rail on which a unit holds a grant is there. -/
theorem rail_of_holdsGrant {u : UnitId} {d : Dev} (h : holdsGrant u d = true) : railOf u < d.pwr.rails.length := by
  by_contra hn
  rw [holdsGrant, railAt, listGet, List.getD_eq_default _ _ (Nat.not_lt.mp hn)] at h
  exact absurd h (by simp [Rail.start])

/-! ## The banks (R449, R457, R471) -/

theorem bankAt_updBank_self {k : Nat} {f : Flash} (h : k < f.banks.length) (g : Bank → Bank) : bankAt k (updBank k g f) = g (bankAt k f) := by
  simp [bankAt, updBank, h]

theorem bankAt_updBank_other {k j : Nat} (h : j ≠ k) (g : Bank → Bank) (f : Flash) : bankAt j (updBank k g f) = bankAt j f := by
  simp [bankAt, updBank, List.getElem?_set_ne (Ne.symm h)]

theorem bankAt_emptyBank {u : Update} {f : Flash} (h : u.stagesMgmt = false) (hl : f.banks.length = 2) (ha : f.active < 2) :
    (bankAt (otherBank f) (emptyBank u f)).state = 0 ∧ bankAt f.active (emptyBank u f) = bankAt f.active f := by
  have ho : otherBank f < f.banks.length := by unfold otherBank; omega
  have hne : f.active ≠ otherBank f := by unfold otherBank; omega
  rw [emptyBank, h]
  exact ⟨by rw [if_neg (by decide), bankAt_updBank_self ho], by rw [if_neg (by decide), bankAt_updBank_other hne]⟩

theorem leNat_take_one (l : List Byte) : leNat (l.take 1) = (l.headD 0).toNat := by cases l <;> simp [leNat]

theorem kindOf_eq (h : List Byte) : kindOf h = (h.getD 6 0).toNat := by
  rw [kindOf, fieldLE, leNat_take_one]
  simp [List.headD_eq_head?_getD]

/-- A package that is no management firmware's. -/
def Staging.forBank (st : Staging) : Prop := st.header.any (fun h => h.getD 6 0 == 2) = false

theorem Staging.forBank.kind {st : Staging} (h : st.forBank) {x : List Byte} (hx : st.header = some x) : kindOf x ≠ 2 := by
  rw [kindOf_eq]
  intro hk
  rw [Staging.forBank, hx, Option.any_some, beq_eq_false_iff_ne] at h
  exact h (BitVec.eq_of_toNat_eq hk)

/-- Nothing of flash has changed but the inactive bank. -/
structure OtherBankOnly (f g : Flash) : Prop where
  rest   : g = { f with banks := g.banks }
  length : g.banks.length = f.banks.length
  kept   : ∀ k, k ≠ otherBank f → bankAt k g = bankAt k f

namespace OtherBankOnly

variable {f g h : Flash}

theorem refl (f : Flash) : OtherBankOnly f f := ⟨rfl, rfl, fun _ _ => rfl⟩

theorem other (h1 : OtherBankOnly f g) : otherBank g = otherBank f := by rw [h1.rest]; rfl

theorem trans (h1 : OtherBankOnly f g) (h2 : OtherBankOnly g h) : OtherBankOnly f h :=
  ⟨by rw [h2.rest, h1.rest], h2.length.trans h1.length, fun k hk => (h2.kept k (h1.other ▸ hk)).trans (h1.kept k hk)⟩

theorem updBank (g : Bank → Bank) (f : Flash) : OtherBankOnly f (updBank (otherBank f) g f) :=
  ⟨rfl, List.length_set .., fun _ hk => bankAt_updBank_other hk g f⟩

end OtherBankOnly

/-- A package for a bank programs the inactive bank, and nothing else of flash (R457). -/
theorem otherBankOnly_programmed {st u : Staging} (h : u.forBank) (f : Flash) : OtherBankOnly f (programUnits u (markBank st u f)) := by
  cases hu : u.header with
  | none => simpa [programUnits, markBank, hu] using .refl f
  | some x =>
    have hmark : OtherBankOnly f (markBank st u f) := by
      unfold markBank
      split
      · next y _ hy => rw [if_neg (h.kind hy)]; exact .updBank ..
      · exact .refl f
    simp only [programUnits, hu, if_neg (h.kind hu)]
    exact hmark.trans (.updBank ..)

/-! ## Bytes of a package (R455 to R457) -/

section Bytes

variable {s : State} {st : Staging} {l : List Byte} (hst : s.dev.upd.staging = some st) (hb : st.bytes + l.length ≤ 142606336)
include hst hb

/-- While the cipher engine waits for its grant, the bytes are held as they came. -/
theorem packageBytes_waits (hg : holdsGrant .iodCipher s.dev = false) : packageBytes l s =
    (updUpd (fun u => { u with staging := some { st with bytes := st.bytes + l.length, buf := st.buf ++ l } }) s, 0) := by
  simp [packageBytes, hst, hg, Nat.not_lt.mpr hb]

theorem packageBytes_fed (hg : holdsGrant .iodCipher s.dev = true) {u : Staging}
    (hf : feedAll (worksOf s) 70 { st with bytes := st.bytes + l.length, buf := st.buf ++ l } = .ok u) : packageBytes l s =
    ({ updUpd (fun x => { x with staging := some { u with fresh := [] } }) s with flash := programUnits u (markBank st u s.flash) }, 0) := by
  simp [packageBytes, hst, hg, Nat.not_lt.mpr hb, hf]

theorem packageBytes_refused (hg : holdsGrant .iodCipher s.dev = true) {e : Refused}
    (hf : feedAll (worksOf s) 70 { st with bytes := st.bytes + l.length, buf := st.buf ++ l } = .error e) :
    packageBytes l s = (refusePackage e st s, e.status) := by
  simp [packageBytes, hst, hg, Nat.not_lt.mpr hb, hf]

end Bytes

theorem dropStaging_upd (code detail : Nat) (s : State) : (dropStaging code detail s).dev.upd =
    { s.dev.upd with state := 1, staging := none, pulling := none, result := some code, detail := detail } := (LedgerStep.imageIdle _).upd

theorem dropStaging_link (code detail : Nat) (s : State) : (dropStaging code detail s).dev.link = s.dev.link := (LedgerStep.imageIdle _).link

theorem dropStaging_flash (code detail : Nat) (s : State) : (dropStaging code detail s).flash = emptyBank s.dev.upd s.flash := rfl

theorem emptyBank_congr {u v : Update} (h : u.staging = v.staging) (f : Flash) : emptyBank u f = emptyBank v f := by
  rw [emptyBank, emptyBank, Update.stagesMgmt, Update.stagesMgmt, h]

theorem countIodCipher_upd (stat : Nat) (d : Dev) : (countIodCipher stat d).upd = d.upd := by
  unfold countIodCipher
  (repeat' split) <;> simp

/-- What a package that is refused leaves (R457). -/
theorem refusePackage_leaves {e : Refused} {st : Staging} {s : State} (hst : s.dev.upd.staging = some st) :
    (refusePackage e st s).dev.upd = { s.dev.upd with state := 1, staging := none, pulling := none, result := some e.status, detail := e.detail } ∧
      (refusePackage e st s).flash = emptyBank s.dev.upd s.flash := by
  refine ⟨?_, ?_⟩
  · rw [refusePackage, dropStaging_upd]
    simp [updUpd, countIodCipher_upd]
  · rw [refusePackage, dropStaging_flash]
    exact emptyBank_congr hst.symm _

/-! ## PACKAGE_WRITE (R457, R472) -/

/-- What a write of bytes that stand next in the package does, once the lease's holder has been heard. -/
def bytesWritten (r : MReq) (bytes : List Byte) (s : State) : State :=
  let p := packageBytes bytes (if s.dev.upd.state = 1 then beginStaging s else s)
  updAnswer (.platform r) p.2 (setResult (some p.2) p.1.dev.upd.detail p.1)

theorem packageWrite_outcome {r : MReq} {l : Nat} {s : State} (h : Safety.CommandsHeld (.platform r) l s) {bytes : List Byte}
    (hs : s.dev.upd.state = 1 ∨ s.dev.upd.state = 2 ∧ s.dev.upd.pulling = none) (h0 : 0 < bytes.length) (h1 : bytes.length ≤ 1024) :
    ∃ m, ∀ off, exec (.packageWrite r l off bytes.length bytes) s = .next
      (if off = (s.dev.upd.staging.map Staging.bytes).getD 0 then bytesWritten r bytes (spoken m s) else updAnswer (.platform r) 6 (spoken m s)) := by
  obtain ⟨m, hleased, -⟩ := leased_commands h
  refine ⟨m, fun off => ?_⟩
  have hok : (decide ((spoken m s).dev.upd.state = 1) || (decide ((spoken m s).dev.upd.state = 2) && (spoken m s).dev.upd.pulling.isNone)) = true := by
    change (decide (s.dev.upd.state = 1) || (decide (s.dev.upd.state = 2) && s.dev.upd.pulling.isNone)) = true
    rcases hs with hs | ⟨hs, hp⟩
    · simp [hs]
    · simp [hs, hp]
  change Host.Outcome.next (packageWrite r l off bytes.length bytes s) = _
  rw [packageWrite, hleased _ _ _ (.inr rfl), if_pos hok]
  have hso : ((spoken m s).dev.upd.staging.map Staging.bytes).getD 0 = (s.dev.upd.staging.map Staging.bytes).getD 0 := rfl
  dsimp only
  rw [hso]
  by_cases hoff : off = (s.dev.upd.staging.map Staging.bytes).getD 0
  · rw [if_pos hoff, if_neg (by omega)]
    rfl
  · rw [if_neg hoff, if_pos (.inl hoff)]

/-- A short package header is no header yet. -/
theorem feedAll_short {w : Works} {st : Staging} (h : st.header = none) (hl : st.buf.length < 256) : feedAll w 70 st = .ok st := by
  simp [feedAll, feedPart, h, hl]

/-- The first bytes of a package begin a staging. -/
theorem bytesWritten_begins {r : MReq} {bytes : List Byte} {s : State} (hs : s.dev.upd.state = 1) (hl : bytes.length < 256) :
    (bytesWritten r bytes s).dev.reply = .pldm 0 (some 0) [] ∧ (bytesWritten r bytes s).dev.upd.state = 2 ∧
      (bytesWritten r bytes s).dev.upd.staging =
        some { Staging.start (bankAt (otherBank s.flash) s.flash).state with bytes := bytes.length, buf := bytes } ∧
      (bytesWritten r bytes s).flash =
        updBank (otherBank s.flash) (fun b => { b with state := 2 }) { s.flash with writes := (s.flash.writes + 1) % 2 ^ 32 } := by
  have hupd : (beginStaging s).dev.upd = { s.dev.upd with
      state := 2, staging := some (Staging.start (bankAt (otherBank s.flash) s.flash).state), detail := 0 } :=
    (LedgerStep.wantImage (railOf_image (.inl rfl)) _).upd
  have hst : (beginStaging s).dev.upd.staging = some (Staging.start (bankAt (otherBank s.flash) s.flash).state) := by rw [hupd]
  have hb : (Staging.start (bankAt (otherBank s.flash) s.flash).state).bytes + bytes.length ≤ 142606336 := by
    simp only [Staging.start]; omega
  have hnew : ({ Staging.start (bankAt (otherBank s.flash) s.flash).state with
      bytes := (Staging.start (bankAt (otherBank s.flash) s.flash).state).bytes + bytes.length,
      buf := (Staging.start (bankAt (otherBank s.flash) s.flash).state).buf ++ bytes } : Staging) =
      { Staging.start (bankAt (otherBank s.flash) s.flash).state with bytes := bytes.length, buf := bytes } := by simp [Staging.start]
  have hout : ∃ u, packageBytes bytes (beginStaging s) = ({ beginStaging s with dev := { (beginStaging s).dev with upd := u } }, 0) ∧
      u.state = 2 ∧ u.staging = some { Staging.start (bankAt (otherBank s.flash) s.flash).state with bytes := bytes.length, buf := bytes } := by
    cases hg : holdsGrant .iodCipher (beginStaging s).dev with
    | false =>
      refine ⟨_, packageBytes_waits hst hb hg, ?_, congrArg some hnew⟩
      change (beginStaging s).dev.upd.state = 2
      rw [hupd]
    | true =>
      refine ⟨_, packageBytes_fed hst hb hg (feedAll_short rfl hl), ?_, congrArg some hnew⟩
      change (beginStaging s).dev.upd.state = 2
      rw [hupd]
  obtain ⟨u, hp, hu, hstage⟩ := hout
  rw [bytesWritten, if_pos hs, hp]
  exact ⟨rfl, hu, hstage, rfl⟩

/-- The staging with bytes that have come. -/
def Staging.arrived (l : List Byte) (st : Staging) : Staging := { st with bytes := st.bytes + l.length, buf := st.buf ++ l }

section Written

variable {r : MReq} {l : List Byte} {s : State} {st : Staging} (hs : s.dev.upd.state = 2) (hst : s.dev.upd.staging = some st)
  (hb : st.bytes + l.length ≤ 142606336)
include hs hst hb

theorem bytesWritten_waits (hg : holdsGrant .iodCipher s.dev = false) : (bytesWritten r l s).dev.reply = .pldm 0 (some 0) [] ∧
    (bytesWritten r l s).dev.upd.state = 2 ∧ (bytesWritten r l s).dev.upd.staging = some (st.arrived l) ∧ (bytesWritten r l s).flash = s.flash := by
  rw [bytesWritten, if_neg (by rw [hs]; decide), packageBytes_waits hst hb hg]
  exact ⟨rfl, hs, rfl, rfl⟩

theorem bytesWritten_fed (hg : holdsGrant .iodCipher s.dev = true) {u : Staging} (hf : feedAll (worksOf s) 70 (st.arrived l) = .ok u) :
    (bytesWritten r l s).dev.reply = .pldm 0 (some 0) [] ∧ (bytesWritten r l s).dev.upd.state = 2 ∧
      (bytesWritten r l s).dev.upd.staging = some { u with fresh := [] } ∧ (bytesWritten r l s).flash = programUnits u (markBank st u s.flash) := by
  rw [bytesWritten, if_neg (by rw [hs]; decide), packageBytes_fed hst hb hg hf]
  exact ⟨rfl, hs, rfl, rfl⟩

theorem bytesWritten_refused (hg : holdsGrant .iodCipher s.dev = true) {e : Refused}
    (hf : feedAll (worksOf s) 70 (st.arrived l) = .error e) :
    (bytesWritten r l s).dev.reply = .pldm 0 (some e.status) [] ∧ (bytesWritten r l s).dev.upd.state = 1 ∧
      (bytesWritten r l s).dev.upd.staging = none ∧ (bytesWritten r l s).dev.upd.detail = e.detail ∧
      (bytesWritten r l s).flash = emptyBank s.dev.upd s.flash ∧ (bytesWritten r l s).dev.upd.holder = s.dev.upd.holder := by
  obtain ⟨hupd, hflash⟩ := refusePackage_leaves (e := e) hst
  have hout : bytesWritten r l s = updAnswer (.platform r) e.status
      (setResult (some e.status) (refusePackage e st s).dev.upd.detail (refusePackage e st s)) := by
    rw [bytesWritten, if_neg (by rw [hs]; decide), packageBytes_refused hst hb hg hf]
  have hu : (bytesWritten r l s).dev.upd =
      { (refusePackage e st s).dev.upd with result := some e.status, detail := (refusePackage e st s).dev.upd.detail } := by rw [hout]; rfl
  refine ⟨by rw [hout]; rfl, ?_, ?_, ?_, (congrArg State.flash hout).trans hflash, ?_⟩ <;> rw [hu, hupd]

end Written

/-! ## PACKAGE_END (R456, R458) -/

theorem packageEnd_outcome {r : MReq} {l : Nat} {s : State} (h : Safety.CommandsHeld (.platform r) l s) (hs : s.dev.upd.state = 2) :
    ∃ m, exec (.packageEnd r l) s = .next (updAnswer (.platform r) 0 (packageOver (spoken m s))) := by
  obtain ⟨m, hleased, -⟩ := leased_commands h
  refine ⟨m, ?_⟩
  change Host.Outcome.next (leased _ _ _ _ s) = _
  rw [hleased _ _ _ (.inr rfl), if_pos (decide_eq_true (show (spoken m s).dev.upd.state = 2 from hs))]

theorem beginVerify_dev (s : State) : (beginVerify s).dev = wantImage .imageCheck (wantImage .iodCipher (imageIdle
    { s.dev with upd := { s.dev.upd with state := 3, pulling := none, result := none, detail := 0 } })) := by
  simp only [beginVerify, updUpd, imageBusy]

/-- VERIFYING begins over the staging as it is. -/
theorem beginVerify_upd (s : State) : (beginVerify s).dev.upd = { s.dev.upd with state := 3, pulling := none, result := none, detail := 0 } := by
  rw [beginVerify_dev]
  exact ((LedgerStep.imageIdle _).trans (.imageBusy _)).upd

theorem beginVerify_flash (s : State) : (beginVerify s).flash = s.flash := by simp only [beginVerify, updUpd]

/-- The image checks have asked for their grant when VERIFYING begins. -/
theorem beginVerify_asks {s : State} (h : holdsGrant .iodCipher s.dev = true) :
    holdsGrant .imageCheck (beginVerify s).dev = true ∨ waitsGrant .imageCheck (beginVerify s).dev = true := by
  have hr := rail_of_holdsGrant h
  rw [beginVerify_dev]
  refine asked_wantImage ?_
  rw [show railOf .imageCheck = railOf .iodCipher from rfl]
  simpa [imageIdle] using hr

section Over

variable {s : State} {st : Staging} (hst : s.dev.upd.staging = some st) (hb : st.bytes ≤ 142606336)
include hst hb

theorem packageOver_waits (hg : holdsGrant .iodCipher s.dev = false) : (packageOver s).dev.upd.state = 3 ∧
    (packageOver s).dev.upd.staging = some st ∧ (packageOver s).flash = s.flash := by
  have hp := packageBytes_waits (l := []) hst hb hg
  have hout : packageOver s = beginVerify (packageBytes [] s).1 := by
    rw [packageOver, hp]
    change (if _ || !holdsGrant .iodCipher s.dev then _ else _) = _
    rw [hg, if_pos (by simp)]
  rw [hout, beginVerify_upd, beginVerify_flash, hp]
  exact ⟨rfl, by simp [updUpd], rfl⟩

variable (hg : holdsGrant .iodCipher s.dev = true) {u : Staging} (hf : feedAll (worksOf s) 70 st = .ok u)
include hg hf

theorem packageBytes_nil : packageBytes [] s =
    ({ updUpd (fun x => { x with staging := some { u with fresh := [] } }) s with flash := programUnits u (markBank st u s.flash) }, 0) :=
  packageBytes_fed (l := []) hst hb hg (by simpa using hf)

theorem packageOver_whole (hw : u.whole = true) : (packageOver s).dev.upd.state = 3 ∧
    (packageOver s).dev.upd.staging = some { u with fresh := [] } ∧ (packageOver s).flash = programUnits u (markBank st u s.flash) ∧
    (holdsGrant .imageCheck (packageOver s).dev = true ∨ waitsGrant .imageCheck (packageOver s).dev = true) := by
  have hp := packageBytes_nil hst hb hg hf
  have hout : packageOver s = beginVerify (packageBytes [] s).1 := by
    rw [packageOver, hp]
    change (if u.whole || _ then _ else _) = _
    rw [hw, if_pos (by simp)]
  have hasks := beginVerify_asks (s := (packageBytes [] s).1) (by rw [hp]; exact hg)
  rw [hout]
  refine ⟨?_, ?_, ?_, hasks⟩
  · rw [beginVerify_upd]
  · rw [beginVerify_upd, hp]; rfl
  · rw [beginVerify_flash, hp]

theorem packageOver_short (hw : u.whole = false) : (packageOver s).dev.upd.state = 1 ∧ (packageOver s).dev.upd.staging = none ∧
    (packageOver s).dev.upd.result = some 6 := by
  have hp := packageBytes_nil hst hb hg hf
  have hout : packageOver s = dropStaging 6 u.off (packageBytes [] s).1 := by
    rw [packageOver, hp]
    change (if u.whole || !holdsGrant .iodCipher s.dev then _ else _) = _
    rw [hw, hg, if_neg (by simp)]
  rw [hout, dropStaging_upd]
  exact ⟨rfl, rfl, rfl⟩

end Over

/-! ## UPDATE_QUERY and PULL (R472, R473) -/

theorem updateQuery_outcome {r : MReq} {l : Nat} {s : State} (h : Safety.CommandsHeld (.platform r) l s) :
    ∃ t, exec (.updateQuery r) s = .next t ∧ t.flash = s.flash ∧ t.dev.upd = { s.dev.upd with lastCmd := clock iodie s.dev } ∧
      t.dev.reply = .pldmBytes 0 (some 0) (natLE 4 (updateStatusWord s.dev) ++ natLE 4 s.dev.upd.detail ++ natLE 4 (bankStatusWord s)) := by
  obtain ⟨m, hleased, -⟩ := leased_commands h
  refine ⟨_, congrArg Host.Outcome.next ((hleased none _ _ (.inl rfl)).trans (if_pos rfl)), rfl, rfl, rfl⟩

/-- A staging begins with the ledger asked for the cipher engine's level, and nothing else of the device but the update changed. -/
theorem beginStaging_step (s : State) : LedgerStep { s.dev with upd := { s.dev.upd with
    state := 2, staging := some (Staging.start (bankAt (otherBank s.flash) s.flash).state), detail := 0 } } (beginStaging s).dev :=
  LedgerStep.wantImage (railOf_image (.inl rfl)) _

/-- The state in which a PULL has begun its staging. -/
def pullBegun (len : Nat) (s : State) : State := updUpd (fun u => { u with pulling := some len, result := none }) (beginStaging s)

theorem pull_outcome {l : Nat} {s : State} (h : Safety.CommandsHeld .manager l s) (hs : s.dev.upd.state = 1) : ∃ m, exec .pull s = .next
    (if getF .updateSrcLen 0 0 27 0 s.dev = 0 ∨ 142606336 < getF .updateSrcLen 0 0 27 0 s.dev then updAnswer .manager 6 (spoken m s)
      else pullNext 0 (pullBegun (getF .updateSrcLen 0 0 27 0 s.dev) (spoken m s))) := by
  have hopen : hostOpen s.dev = true := by
    obtain ⟨hup, hlost, -⟩ := linkOpen_iff.mp h.1.2.2
    simp [hostOpen, hup, hlost]
  obtain ⟨m, hleased, hover⟩ := leased_commands h
  refine ⟨m, (hover .pull (fun s => .next (pull s))).trans (congrArg Host.Outcome.next ?_)⟩
  rw [pull, hleased _ _ _ (.inl rfl), if_pos (decide_eq_true (show (spoken m s).dev.upd.state = 1 from hs))]
  have hhost : ¬ (!hostOpen (spoken m s).dev) = true := by
    change ¬ (!hostOpen s.dev) = true
    simp [hopen]
  dsimp only
  rw [if_neg hhost]
  rfl

theorem pullNext_asks {s : State} (hl : s.dev.link.retrain = false) (off : Nat) : (pullNext off s).dev.upd = s.dev.upd ∧
    Tab.get (pullNext off s).dev.link.reads s.dev.link.nextRead = some ⟨0xFF,
      getF .updateSrcHi 0 0 31 0 s.dev * 2 ^ 32 + getF .updateSrcLo 0 0 31 12 s.dev * 4096 + off,
      min 4096 (s.dev.upd.pulling.getD 0 - off), .pull off, clock iodie s.dev⟩ :=
  ⟨sameUpd_hostRead.1, hostRead_reads hl ..⟩

theorem pullBegun_upd (len : Nat) (s : State) : (pullBegun len s).dev.upd = { s.dev.upd with
    state := 2, staging := some (Staging.start (bankAt (otherBank s.flash) s.flash).state), detail := 0, pulling := some len, result := none } := by
  have h : (pullBegun len s).dev.upd = { (beginStaging s).dev.upd with pulling := some len, result := none } := rfl
  rw [h, (beginStaging_step s).upd]

theorem pullBegun_keeps (len : Nat) (s : State) : (pullBegun len s).dev.link = s.dev.link ∧
    clock iodie (pullBegun len s).dev = clock iodie s.dev ∧ getF .updateSrcHi 0 0 31 0 (pullBegun len s).dev = getF .updateSrcHi 0 0 31 0 s.dev ∧
    getF .updateSrcLo 0 0 31 12 (pullBegun len s).dev = getF .updateSrcLo 0 0 31 12 s.dev := by
  have h := beginStaging_step s
  have hhi : getW .updateSrcHi 0 0 (pullBegun len s).dev = getW .updateSrcHi 0 0 s.dev := h.getW (by decide)
  have hlo : getW .updateSrcLo 0 0 (pullBegun len s).dev = getW .updateSrcLo 0 0 s.dev := h.getW (by decide)
  exact ⟨h.link, congrArg (fun t => listGet t iodie 0) h.timers, by rw [getF, hhi, ← getF], by rw [getF, hlo, ← getF]⟩

/-- What a PULL that begins leaves: a staging, and the first piece of the package asked of the host. -/
theorem pullNext_first {s : State} (hl : s.dev.link.retrain = false) (len : Nat) : (pullNext 0 (pullBegun len s)).dev.upd.state = 2 ∧
    (pullNext 0 (pullBegun len s)).dev.upd.pulling = some len ∧
    (pullNext 0 (pullBegun len s)).dev.upd.staging = some (Staging.start (bankAt (otherBank s.flash) s.flash).state) ∧
    Tab.get (pullNext 0 (pullBegun len s)).dev.link.reads s.dev.link.nextRead =
      some ⟨0xFF, getF .updateSrcHi 0 0 31 0 s.dev * 2 ^ 32 + getF .updateSrcLo 0 0 31 12 s.dev * 4096, min 4096 len, .pull 0, clock iodie s.dev⟩ := by
  obtain ⟨hlink, hclock, hhi, hlo⟩ := pullBegun_keeps len s
  obtain ⟨hupd, hread⟩ := pullNext_asks (s := pullBegun len s) (by rw [hlink]; exact hl) 0
  rw [hlink, hclock, hhi, hlo] at hread
  refine ⟨?_, ?_, ?_, ?_⟩
  · rw [hupd, pullBegun_upd]
  · rw [hupd, pullBegun_upd]
  · rw [hupd, pullBegun_upd]
  · rw [hread, pullBegun_upd]
    simp

/-! ## The link is lost during a PULL (R473) -/

theorem lost_localPath (event : Nat) (d : Dev) : LostFrom d (localPath (hostLost event d)) := by
  obtain ⟨hupd, hlost⟩ := lostFrom_hostLost event d
  obtain ⟨hu, hl⟩ := sameUpd_localPath (d := hostLost event d)
  exact ⟨hu.trans hupd, hl.trans hlost⟩

theorem hostLinkLoss_drops {s : State} (c : LossCause) (hup : s.dev.link.up = true) (hl : s.dev.link.lost = false)
    (hp : s.dev.upd.pulling.isSome = true) :
    exec (.hostLinkLoss c) s = .next (dropStaging 0xC 0 { s with dev := localPath (hostLost (lossBit c) s.dev) }) := by
  change execHostLinkLoss c s = _
  rw [execHostLinkLoss, if_pos hup, loseLink, if_pos (by simp [hl, hp])]

/-- A PULL that a loss of the link meets ends with HOST_LINK_DOWN, and the lease is kept. -/
theorem hostLinkLoss_leaves {s : State} (c : LossCause) (hup : s.dev.link.up = true) (hl : s.dev.link.lost = false)
    (hp : s.dev.upd.pulling.isSome = true) : ∃ t, exec (.hostLinkLoss c) s = .next t ∧ t.dev.upd.state = 1 ∧ t.dev.upd.result = some 0xC ∧
      t.dev.upd.staging = none ∧ t.dev.upd.pulling = none ∧ t.dev.upd.holder = s.dev.upd.holder ∧ t.dev.link.lost = true ∧
      (s.flash.banks.length = 2 → s.flash.active < 2 → s.dev.upd.stagesMgmt = false → (bankAt (otherBank s.flash) t.flash).state = 0) := by
  obtain ⟨hupd, hlost⟩ := lost_localPath (lossBit c) s.dev
  refine ⟨_, hostLinkLoss_drops c hup hl hp, ?_⟩
  generalize localPath (hostLost (lossBit c) s.dev) = e at hupd hlost
  rw [dropStaging_upd, dropStaging_link, dropStaging_flash]
  dsimp only
  rw [hupd]
  exact ⟨rfl, rfl, rfl, rfl, rfl, hlost, fun hb ha hm => (bankAt_emptyBank hm hb ha).1⟩

/-! ## VERIFY_END (R458) -/

/-- The state in which the package's last units are programmed and the image work is idle. -/
def unitsRead (u st : Staging) (s : State) : State :=
  { s with
    flash := programUnits u (markBank st u s.flash)
    dev := imageIdle { s.dev with upd := { s.dev.upd with staging := some { u with fresh := [] } } } }

theorem unitsRead_step (u st : Staging) (s : State) :
    LedgerStep { s.dev with upd := { s.dev.upd with staging := some { u with fresh := [] } } } (unitsRead u st s).dev := .imageIdle _

theorem unitsRead_upd (u st : Staging) (s : State) : (unitsRead u st s).dev.upd = { s.dev.upd with staging := some { u with fresh := [] } } :=
  (unitsRead_step ..).upd

/-- What the image checks read back of the inactive bank. -/
def plainRead (f : ImageFindings) (u st : Staging) (s : State) : Option (List Byte) :=
  (slotZero s).bind (fun k => openUnits k f.read.damaged 0 (bankAt (otherBank s.flash) (programUnits u (markBank st u s.flash))).units)

/-- The first check that the image fails. -/
def codeRead (f : ImageFindings) (u st : Staging) (s : State) : Nat :=
  verifyCode false s.flash.signKey f.read.signer (u.header.getD []) (plainRead f u st s)

/-- The end of VERIFYING, once the bytes that waited are applied and the image work is idle. -/
def endChecks (f : ImageFindings) (s : State) : State :=
  match s.dev.upd.staging with
  | none => s
  | some st =>
    let plain := readBack f.read.damaged s
    let c := verifyCode s.dev.upd.stagesMgmt s.flash.signKey f.read.signer (st.header.getD []) plain
    if !st.whole then dropStaging 6 st.off s
    else if c ≠ 0 then dropStaging c 0 { s with dev := when_ plain.isNone (countIodCipher (if (slotZero s).isSome then 1 else 2)) s.dev }
    else verified st (plain.getD []) f.contents s

theorem verifyEnd_eq (f : ImageFindings) (s : State) : verifyEnd f s = if s.dev.upd.state ≠ 3 ∨ !verifyPowered s.dev then s
    else endChecks f { (packageBytes [] s).1 with dev := imageIdle (packageBytes [] s).1.dev } := rfl

section Verify

variable {s : State} {u st : Staging} (hm : u.forBank)
include hm

theorem unitsRead_stagesMgmt : (unitsRead u st s).dev.upd.stagesMgmt = false := by
  rw [unitsRead_upd]
  exact hm

theorem unitsRead_keys : (unitsRead u st s).flash.imageKey = s.flash.imageKey ∧ (unitsRead u st s).flash.signKey = s.flash.signKey := by
  have hf := otherBankOnly_programmed (st := st) hm s.flash
  have himage := congrArg Flash.imageKey hf.rest
  have hsign := congrArg Flash.signKey hf.rest
  exact ⟨himage, hsign⟩

theorem readBack_unitsRead (f : ImageFindings) : readBack f.read.damaged (unitsRead u st s) = plainRead f u st s := by
  have hf := otherBankOnly_programmed (st := st) hm s.flash
  have hkey : slotZero (unitsRead u st s) = slotZero s := by
    rw [slotZero, (unitsRead_step u st s).mc, (unitsRead_keys hm).1, slotZero]
  rw [readBack, unitsRead_stagesMgmt hm, hkey, plainRead, ← hf.other]
  rfl

theorem verifyCode_unitsRead (f : ImageFindings) : verifyCode (unitsRead u st s).dev.upd.stagesMgmt (unitsRead u st s).flash.signKey f.read.signer
    (u.header.getD []) (plainRead f u st s) = codeRead f u st s := by
  rw [unitsRead_stagesMgmt hm, (unitsRead_keys hm).2, codeRead]

end Verify

theorem unitsRead_staging (u st : Staging) (s : State) : (unitsRead u st s).dev.upd.staging = some { u with fresh := [] } := by rw [unitsRead_upd]

theorem verifyEnd_outcome {s : State} {u st : Staging} (hs : s.dev.upd.state = 3) (hp : verifyPowered s.dev = true)
    (hst : s.dev.upd.staging = some st) (hb : st.bytes ≤ 142606336) (hf : feedAll (worksOf s) 70 st = .ok u) (f : ImageFindings) :
    exec (.verifyEnd f) s = .next (endChecks f (unitsRead u st s)) := by
  have hg : holdsGrant .iodCipher s.dev = true := (Bool.and_eq_true_iff.mp hp).1
  have hbytes : { (packageBytes [] s).1 with dev := imageIdle (packageBytes [] s).1.dev } = unitsRead u st s := by
    rw [packageBytes_nil hst hb hg hf]
    rfl
  change Host.Outcome.next (verifyEnd f s) = _
  rw [verifyEnd_eq, if_neg (by simp [hs, hp]), hbytes]

/-! What the checks make of the staging: it is short, it fails one of them, or the bank is VERIFIED. -/

theorem endChecks_short {s : State} {u st : Staging} (f : ImageFindings) (hw : u.whole = false) :
    endChecks f (unitsRead u st s) = dropStaging 6 u.off (unitsRead u st s) := by
  rw [endChecks, unitsRead_staging]
  exact if_pos (congrArg not hw)

theorem endChecks_fails {s : State} {u st : Staging} (hm : u.forBank) (f : ImageFindings) (hw : u.whole = true) (hc : codeRead f u st s ≠ 0) :
    ∃ d, d.upd = (unitsRead u st s).dev.upd ∧
      endChecks f (unitsRead u st s) = dropStaging (codeRead f u st s) 0 { unitsRead u st s with dev := d } := by
  have hwhole : ¬ (!Staging.whole { u with fresh := [] }) = true := by rw [show Staging.whole { u with fresh := [] } = u.whole from rfl, hw]; decide
  refine ⟨when_ (plainRead f u st s).isNone (countIodCipher (if (slotZero (unitsRead u st s)).isSome then 1 else 2)) (unitsRead u st s).dev, ?_, ?_⟩
  · unfold when_
    split
    · exact countIodCipher_upd ..
    · rfl
  · rw [endChecks, unitsRead_staging]
    dsimp only
    rw [if_neg hwhole]
    simp only [readBack_unitsRead hm, verifyCode_unitsRead hm]
    exact if_pos hc

theorem endChecks_passes {s : State} {u st : Staging} (hm : u.forBank) (f : ImageFindings) (hw : u.whole = true) (hc : codeRead f u st s = 0) :
    endChecks f (unitsRead u st s) = verified { u with fresh := [] } ((plainRead f u st s).getD []) f.contents (unitsRead u st s) := by
  have hwhole : ¬ (!Staging.whole { u with fresh := [] }) = true := by rw [show Staging.whole { u with fresh := [] } = u.whole from rfl, hw]; decide
  rw [endChecks, unitsRead_staging]
  dsimp only
  rw [if_neg hwhole]
  simp only [readBack_unitsRead hm, verifyCode_unitsRead hm]
  exact if_neg (not_not.mpr hc)

/-- What a verification that does not pass leaves of the banks (R458): the inactive bank EMPTY, the active one as it was. -/
theorem banks_of_dropped {s : State} {u st : Staging} (hm : u.forBank) (hl : s.flash.banks.length = 2) (ha : s.flash.active < 2) {v : Update}
    (hv : v.stagesMgmt = false) : (bankAt (otherBank s.flash) (emptyBank v (unitsRead u st s).flash)).state = 0 ∧
      bankAt s.flash.active (emptyBank v (unitsRead u st s).flash) = bankAt s.flash.active s.flash := by
  have hf : OtherBankOnly s.flash (unitsRead u st s).flash := otherBankOnly_programmed hm s.flash
  have hactive : (unitsRead u st s).flash.active = s.flash.active := by rw [hf.rest]; rfl
  have hne : s.flash.active ≠ otherBank s.flash := by unfold otherBank; omega
  obtain ⟨hempty, hkept⟩ := bankAt_emptyBank hv (hf.length.trans hl) (hactive ▸ ha)
  rw [hf.other] at hempty
  rw [hactive, hf.kept _ hne] at hkept
  exact ⟨hempty, hkept⟩

/-- What a verification that passes leaves (R458): the inactive bank VERIFIED with the image read back, the active one as it was. -/
theorem verified_leaves {s : State} {u st : Staging} (hm : u.forBank) (hl : s.flash.banks.length = 2) (ha : s.flash.active < 2)
    (plain : List Byte) (c : Contents) :
    let t := verified { u with fresh := [] } plain c (unitsRead u st s)
    (bankAt (otherBank s.flash) t.flash) = { bankAt (otherBank s.flash) (unitsRead u st s).flash with
        state := 3, image := some (imageOf plain c), sets := u.setBytes } ∧
      bankAt s.flash.active t.flash = bankAt s.flash.active s.flash ∧ t.flash.active = s.flash.active := by
  have hf : OtherBankOnly s.flash (unitsRead u st s).flash := otherBankOnly_programmed hm s.flash
  have ho : otherBank s.flash < (unitsRead u st s).flash.banks.length := by rw [hf.length]; unfold otherBank; omega
  have hne : s.flash.active ≠ otherBank s.flash := by unfold otherBank; omega
  have hactive : (unitsRead u st s).flash.active = s.flash.active := by rw [hf.rest]; rfl
  intro t
  have ht : t.flash = updBank (otherBank s.flash) (fun b => { b with state := 3, image := some (imageOf plain c), sets := u.setBytes })
      (unitsRead u st s).flash := by
    simp only [t, verified, unitsRead_stagesMgmt hm, Bool.false_eq_true, if_false, hf.other]
  rw [ht]
  exact ⟨bankAt_updBank_self ho _, (bankAt_updBank_other hne ..).trans (hf.kept _ hne), hactive⟩

/-- Settles O57: every command is a case of `leased_commands`, what a package's bytes do is `packageBytes`, and a loss of the link leaves the update to
`dropStaging`. -/
theorem updateStaging : Obligations.UpdateStaging := by
  unfold Obligations.UpdateStaging
  refine ⟨fun s src h => ⟨fun h0 => ?_, fun h0 => ?_⟩, fun s src l h => ⟨fun hs => ?_, fun hs => ?_⟩, fun s => ⟨fun h => ?_, fun h => ?_⟩,
    fun s r l h => ⟨fun bytes hs h0 hn hst => ?_, fun bytes st hs hp hst h0 h1 hb => ?_, fun st hs hst hb => ?_, updateQuery_outcome h⟩,
    fun s l h hs => ⟨fun h0 hl => ?_, fun hbad => ?_⟩, fun s c hup hl hp => ?_, fun s f hs hp => ?_, fun s f st u hs hst hp hb hf hm hl ha => ?_⟩
  · obtain ⟨m, ht⟩ := leaseTake_outcome h
    rw [if_pos h0] at ht
    refine ⟨_, ht, ?_, ?_, ?_, ?_, grantLease_flash .., fun r hr => ?_⟩
    · rw [grantLease_upd]
    · rw [grantLease_upd]
    · rw [grantLease_upd]; rfl
    · rw [grantLease_upd]; exact nextLease_ne_zero _
    · subst hr; rfl
  · obtain ⟨m, ht⟩ := leaseTake_outcome h
    rw [if_neg h0] at ht
    obtain ⟨hh, hs, hf⟩ := holderSpoke_keeps src (withSessions m s)
    refine ⟨_, ht, ?_, (updAnswer_holder ..).trans hh, (updAnswer_state ..).trans hs, (updAnswer_flash ..).trans hf⟩
    have hcode : (if s.dev.upd.holder ≠ holderOf src then 0x11 else 0xE) = if s.dev.upd.holder = holderOf src then 0xE else 0x11 := by
      by_cases hc : s.dev.upd.holder = holderOf src <;> simp [hc]
    rw [hcode]
    exact updAnswer_answered ..
  · obtain ⟨m, ht⟩ := leaseRelease_outcome h
    rw [if_pos hs] at ht
    obtain ⟨h1, h2, h3, h4⟩ := endLease_leaves (spoken m s)
    exact ⟨_, ht, updAnswer_answered .., (updAnswer_holder ..).trans h1, (updAnswer_state ..).trans h2, (updAnswer_staging ..).trans h3,
      (updAnswer_flash ..).trans h4⟩
  · obtain ⟨m, ht⟩ := leaseRelease_outcome h
    rw [if_neg (by omega)] at ht
    exact ⟨_, ht, updAnswer_answered .., updAnswer_holder .., updAnswer_state .., updAnswer_flash ..⟩
  · exact ⟨_, congrArg Host.Outcome.next (if_pos h), endLease_leaves s⟩
  · exact congrArg Host.Outcome.next (if_neg (by rw [h]; decide))
  · obtain ⟨m, ht⟩ := packageWrite_outcome h (.inl hs) h0 (by omega)
    have ht0 := ht 0
    rw [hst, if_pos (by rfl)] at ht0
    obtain ⟨k1, k2, k3, k4⟩ := bytesWritten_begins (r := r) (s := spoken m s) hs hn
    exact ⟨_, ht0, k1, k2, k3, k4⟩
  · obtain ⟨m, ht⟩ := packageWrite_outcome h (.inr ⟨hs, hp⟩) h0 h1
    have hnext : st.bytes = (s.dev.upd.staging.map Staging.bytes).getD 0 := by rw [hst]; rfl
    refine ⟨fun hg => ?_, fun u hg hf => ?_, fun e hg hf => ?_, fun off hoff => ?_⟩
    · exact ⟨_, (ht _).trans (congrArg _ (if_pos hnext)), bytesWritten_waits (s := spoken m s) hs hst hb hg⟩
    · exact ⟨_, (ht _).trans (congrArg _ (if_pos hnext)), bytesWritten_fed (s := spoken m s) hs hst hb hg hf⟩
    · exact ⟨_, (ht _).trans (congrArg _ (if_pos hnext)), bytesWritten_refused (s := spoken m s) hs hst hb hg hf⟩
    · exact ⟨_, (ht _).trans (congrArg _ (if_neg (hnext ▸ hoff))), rfl, hst, rfl⟩
  · obtain ⟨m, ht⟩ := packageEnd_outcome h hs
    refine ⟨fun hg => ?_, fun hg u hf => ⟨fun hw => ?_, fun hw => ?_⟩⟩
    · exact ⟨_, ht, packageOver_waits (s := spoken m s) hst hb hg⟩
    · exact ⟨_, ht, packageOver_whole (s := spoken m s) hst hb hg hf hw⟩
    · exact ⟨_, ht, packageOver_short (s := spoken m s) hst hb hg hf hw⟩
  · obtain ⟨m, ht⟩ := pull_outcome h hs
    rw [if_neg (by omega)] at ht
    have hlink : s.dev.link.retrain = false := (linkOpen_iff.mp h.1.2.2).2.2
    obtain ⟨k1, k2, k3, k4⟩ := pullNext_first (s := spoken m s) hlink (getF .updateSrcLen 0 0 27 0 s.dev)
    exact ⟨_, ht, k1, k2, k3, rfl, k4⟩
  · obtain ⟨m, ht⟩ := pull_outcome h hs
    rw [if_pos hbad] at ht
    exact ⟨_, ht, hs, rfl, rfl⟩
  · exact hostLinkLoss_leaves c hup hl hp
  · exact congrArg Host.Outcome.next (if_pos (.inr (by rw [hp]; rfl)))
  · have ht := verifyEnd_outcome hs hp hst hb hf f
    refine ⟨fun hw => ?_, fun hw hc => ?_, fun hw hc => ?_⟩
    · rw [endChecks_short f hw] at ht
      refine ⟨_, ht, ?_, ?_, ?_, banks_of_dropped hm hl ha (unitsRead_stagesMgmt hm)⟩ <;> rw [dropStaging_upd]
    · rw [endChecks_passes hm f hw hc] at ht
      obtain ⟨hbank, hkept, hactive⟩ := verified_leaves (st := st) hm hl ha ((plainRead f u st s).getD []) f.contents
      refine ⟨_, ht, rfl, rfl, rfl, ?_, ?_, ?_, ?_, hkept, hactive⟩ <;> rw [hbank] <;> rfl
    · obtain ⟨d, hd, hdrop⟩ := endChecks_fails (s := s) (st := st) hm f hw hc
      rw [hdrop] at ht
      refine ⟨_, ht, ?_, ?_, ?_, banks_of_dropped hm hl ha (v := d.upd) (by rw [hd]; exact unitsRead_stagesMgmt hm)⟩
      · rw [dropStaging_upd]
      · rw [dropStaging_upd]; rfl
      · rw [dropStaging_upd]

end Sys2Proof.Machine
end

section
/-! SUPPORT. A step of one brick's context (R67, R100 to R102, R113, R119): what a change of one context leaves of the device, an instruction that
is fetched, and how the units of a brick take an instruction and begin it. -/

namespace Sys2Proof.Machine

/-! ## One context changes -/

/-- A device with another table of contexts. -/
def Dev.withCtxs (d : Dev) (c : Tab BCtx) : Dev := { d with bricks := { d.bricks with ctxs := c } }

/-- The device `e` is `d` with the context `k` now `y`: nothing else differs. -/
def CtxTo (d e : Dev) (k : Nat) (y : BCtx) : Prop :=
  e = d.withCtxs e.bricks.ctxs ∧ ctxAt k e = some y ∧ ∀ j, j ≠ k → ctxAt j e = ctxAt j d

@[simp] theorem ctxAt_updCtx_self (k : Nat) (f : BCtx → BCtx) (d : Dev) : ctxAt k (updCtx k f d) = (ctxAt k d).map f := Tab.get_modify_self ..

theorem ctxAt_updCtx_other {k j : Nat} (h : j ≠ k) (f : BCtx → BCtx) (d : Dev) : ctxAt j (updCtx k f d) = ctxAt j d := Tab.get_modify_other _ f h

namespace CtxTo

variable {d e : Dev} {k : Nat} {x y : BCtx}

theorem refl (h : ctxAt k d = some y) : CtxTo d d k y := ⟨rfl, h, fun _ _ => rfl⟩

theorem ctx (h : CtxTo d e k y) : ctxAt k e = some y := h.2.1

theorem step (h : CtxTo d e k y) (s : State) : Safety.CtxStep s d { s with dev := e } k y := ⟨congrArg (fun a => { s with dev := a }) h.1, h.2⟩

/-- What does not look at the contexts is the same of both devices. -/
theorem frame {α : Type} (h : CtxTo d e k y) (m : Dev → α) (hm : ∀ c, m (d.withCtxs c) = m d) : m e = m d := (congrArg m h.1).trans (hm _)

theorem upd (h : CtxTo d e k y) (f : BCtx → BCtx) : CtxTo d (updCtx k f e) k (f y) :=
  have hd := congrArg (fun a : Dev => a.withCtxs (Tab.modify e.bricks.ctxs k f)) h.1
  ⟨hd, by simp [h.ctx], fun j hj => (ctxAt_updCtx_other hj f e).trans (h.2.2 j hj)⟩

/-- A change of the device that neither looks at the contexts nor changes them acts on both devices alike. -/
theorem apply (h : CtxTo d e k y) {f : Dev → Dev} (hc : ∀ c, f (d.withCtxs c) = (f d).withCtxs c) (hb : (f d).bricks.ctxs = d.bricks.ctxs) :
    CtxTo (f d) (f e) k y := by
  obtain ⟨he, hy, ho⟩ := h
  have hf : f e = (f d).withCtxs e.bricks.ctxs := (congrArg f he).trans (hc _)
  refine ⟨by rw [hf]; rfl, by rw [hf]; exact hy, fun j hj => ?_⟩
  rw [hf]
  exact (ho j hj).trans (congrArg (Tab.get · j) hb.symm)

theorem newId (h : CtxTo d e k y) : CtxTo (newId d).2 (newId e).2 k y := h.apply (f := fun d => (Machine.newId d).2) (fun _ => rfl) rfl

theorem each {α : Type} {f : α → Dev → Dev} (hf : ∀ a d e, CtxTo d e k y → CtxTo (f a d) (f a e) k y) (l : List α) (h : CtxTo d e k y) :
    CtxTo (each l f d) (each l f e) k y := by
  induction l generalizing d e with
  | nil => exact h
  | cons a l ih => exact ih (hf a d e h)

end CtxTo

/-! ## Reads that correct what they meet (R145) -/

theorem noteCe_withCtxs (p : Place) (row sym : Nat) (d : Dev) (c : Tab BCtx) : noteCe p row sym (d.withCtxs c) = (noteCe p row sym d).withCtxs c := by
  unfold noteCe
  cases hbmAddr p <;> rfl

theorem noteCe_bricks (p : Place) (row sym : Nat) (d : Dev) : (noteCe p row sym d).bricks = d.bricks := by
  unfold noteCe
  cases hbmAddr p <;> rfl

theorem correct_withCtxs (met : Place → Bool) (d : Dev) (c : Tab BCtx) : correct met (d.withCtxs c) = (correct met d).withCtxs c := by
  have fold : ∀ (l : List (Place × Nat × Nat)) (d : Dev), l.foldl (fun d s => noteCe s.1 s.2.1 s.2.2 d) (d.withCtxs c) =
      (l.foldl (fun d s => noteCe s.1 s.2.1 s.2.2 d) d).withCtxs c := by
    intro l
    induction l with
    | nil => exact fun _ => rfl
    | cons s l ih => exact fun d => (congrArg (l.foldl _) (noteCe_withCtxs ..)).trans (ih _)
  exact fold _ { d with tiers := { d.tiers with soft := d.tiers.soft.filter (fun s => !met s.1) } }

theorem correct_bricks (met : Place → Bool) (d : Dev) : (correct met d).bricks = d.bricks :=
  List.foldlRecOn (motive := fun a : Dev => a.bricks = d.bricks) _ _ rfl fun _ h (s : Place × Nat × Nat) _ =>
    (noteCe_bricks s.1 s.2.1 s.2.2 _).trans h

theorem CtxTo.readsScratch {d e : Dev} {k : Nat} {y : BCtx} (h : CtxTo d e k y) (x : BCtx) (off n : Nat) :
    CtxTo (readsScratch k x off n d) (readsScratch k x off n e) k y := by
  refine h.apply (f := Machine.readsScratch k x off n) (fun c => ?_) ?_
  · unfold Machine.readsScratch
    rw [show onBrick k x (d.withCtxs c) = onBrick k x d from rfl]
    split
    · exact correct_withCtxs ..
    · rfl
  · unfold Machine.readsScratch
    split
    · rw [correct_bricks]
    · rfl

/-! ## Posts and strikes (R113) -/

/-- A context after an SPOST has taken effect. -/
def BCtx.posting (x : BCtx) (p : Post) : BCtx :=
  { x with chans := Tab.set x.chans p.ch { x.chan p.ch with posted := ((x.chan p.ch).posted + p.n) % 2 ^ 32 } }

/-- A context after the SPOSTs that wait for nothing have taken effect. -/
def BCtx.settled (x : BCtx) : BCtx :=
  (x.posts.filter (fun p => p.after.isEmpty)).foldl BCtx.posting { x with posts := x.posts.filter (fun p => !p.after.isEmpty) }

/-- A context after an instruction has finished with scratch. -/
def BCtx.struck (x : BCtx) (id : Nat) : BCtx :=
  BCtx.settled { x with posts := x.posts.map (fun p => { p with after := p.after.filter (fun h => h != id) }) }

/-- An instruction that has finished with scratch changes the posts and the channels of its context alone. -/
theorem BCtx.struck_eq (x : BCtx) (id : Nat) : x.struck id = { x with
    posts := (x.posts.map (fun p => { p with after := p.after.filter (fun h => h != id) })).filter (fun p => !p.after.isEmpty),
    chans := (x.struck id).chans } := by
  have fold : ∀ (l : List Post) (y : BCtx), l.foldl BCtx.posting y = { y with chans := (l.foldl BCtx.posting y).chans } := by
    intro l
    induction l with
    | nil => exact fun _ => rfl
    | cons p l ih => exact fun y => ih (y.posting p)
  exact fold _ _

theorem CtxTo.settlePosts {d e : Dev} {k : Nat} {y : BCtx} (h : CtxTo d e k y) : CtxTo d (settlePosts k e) k y.settled := by
  have hposts : ∀ (l : List Post) {e : Dev} {y : BCtx}, CtxTo d e k y → CtxTo d
      (Machine.each l (fun p => updChan k p.ch (fun c => { c with posted := (c.posted + p.n) % 2 ^ 32 })) e) k (l.foldl BCtx.posting y) := by
    intro l
    induction l with
    | nil => exact fun h => h
    | cons p l ih => exact fun h => ih (h.upd fun x => x.posting p)
  unfold Machine.settlePosts
  rw [h.ctx]
  exact hposts _ (h.upd fun x => { x with posts := x.posts.filter (fun p => !p.after.isEmpty) })

theorem settleCtx_of_no_cadd {k : Nat} {x : BCtx} {d : Dev} (hx : ctxAt k d = some x) (hw : ∀ i v u, x.wait ≠ .cadd i v u) : settleCtx k d = d := by
  unfold settleCtx
  rw [hx]
  dsimp only
  split
  · exact absurd ‹_› (hw _ _ _)
  · rfl

theorem CtxTo.strike {d e : Dev} {k : Nat} {y : BCtx} (h : CtxTo d e k y) (hw : ∀ i v u, y.wait ≠ .cadd i v u) (id : Nat) :
    CtxTo d (strike k id e) k (y.struck id) := by
  have hs := (h.upd fun x => { x with posts := x.posts.map (fun p => { p with after := p.after.filter (fun h => h != id) }) }).settlePosts
  have hc := settleCtx_of_no_cadd hs.ctx (by rw [← BCtx.struck, BCtx.struck_eq]; exact hw)
  unfold Machine.strike
  rw [hc]
  exact hs

/-! ## The next instruction is fetched (R100) -/

/-- The context whose next instruction a brick may issue, and what lets it issue. -/
theorem issuing_inv {b k : Nat} {x : BCtx} {l : Launch} {d : Dev} (h : issuing b d = some (k, x, l)) :
    (brickAt b d).cur = some k ∧ ctxAt k d = some x ∧ launchAt x.launch d = some l ∧ holdsGrant (.brick b) d = true ∧
      (brickAt b d).failing.isNone = true ∧ (brickAt b d).late = false ∧ inFault (.brick k 8) d = false := by
  unfold issuing at h
  dsimp only at h
  split at h
  · cases h
  next j hcur =>
    split at h
    · cases h
    next y hy =>
      split at h
      · cases h
      next m hm =>
        split at h
        next hc =>
          cases h
          simp only [Bool.and_eq_true, Bool.not_eq_true'] at hc
          obtain ⟨⟨⟨⟨hg, hn⟩, hl⟩, -⟩, hf⟩ := hc
          exact ⟨hcur, hy, hm, hg, hn, hl, hf⟩
        · cases h

/-- The units of the context `k`, which is `x` of the launch `l`, may begin instructions now. -/
structure MayBegin (d : Dev) (k : Nat) (x : BCtx) (l : Launch) : Prop where
  launch : launchAt x.launch d = some l
  runs   : unitsRun k x d = true
  sound  : inFault (.brick k 8) d = false

section Fetched

variable {b k : Nat} {s : State} {x : BCtx} {l : Launch} {e : Dev} (h : Safety.Fetched b s k x l e)
include h

theorem fetched_onBrick : onBrick k x e = true := by
  obtain ⟨-, rfl, lfn, off, base, size, perm, seg, a, bs, -, -, -, -, hi⟩ := h
  simp [onBrick, (issuing_inv hi).1]

theorem fetched_mayBegin {y : BCtx} (hl : y.launch = x.launch) (hb : y.brick = x.brick) : MayBegin e k y l := by
  obtain ⟨-, rfl, lfn, off, base, size, perm, seg, a, bs, -, -, -, -, hi⟩ := h
  obtain ⟨hcur, -, hlaunch, hg, hn, hlate, hf⟩ := issuing_inv hi
  exact ⟨by rw [hl, hlaunch], by simp [unitsRun, onBrick, hb, hcur, hg, hn, hlate], hf⟩

/-- The context runs as its instruction takes effect. -/
theorem fetched_ctxTo : CtxTo e (updCtx k (fun x => { x with wait := .run }) e) k { x with wait := .run } := by
  obtain ⟨-, -, lfn, off, base, size, perm, seg, a, bs, -, -, -, -, hi⟩ := h
  exact (CtxTo.refl (issuing_inv hi).2.1).upd _

end Fetched

section Issues

variable {b k : Nat} {s : State} {x : BCtx} {l : Launch} {e : Dev} {word : Word64} {legal : Nat → BCtx → Launch → Bool} {busy : Nat → BCtx → Bool}
  {run : Nat → Nat → BCtx → Launch → Dev → Dev} (h : Safety.Fetched b s k x l e) (hl : legal word.toNat x l = true)
include h hl

/-- An instruction that is fetched and legal stays where it is while its unit cannot take it. -/
theorem issues_stays (hb : busy word.toNat x = true) : issues b word legal busy run s = .next { s with dev := e } := by
  obtain ⟨hi, -, lfn, off, base, size, perm, seg, a, bs, ht, ha, hr, rfl, -⟩ := h
  simp only [issues, issue, hi, ht, ha, hr, hl, hb]
  rfl

/-- An instruction that is fetched and legal takes effect. -/
theorem issues_goes (hb : busy word.toNat x = false) : issues b word legal busy run s =
    .next { s with dev := run k word.toNat x l (updCtx k (fun x => { x with wait := .run }) e) } := by
  obtain ⟨hi, -, lfn, off, base, size, perm, seg, a, bs, ht, ha, hr, rfl, -⟩ := h
  simp only [issues, issue, hi, ht, ha, hr, hl, hb]
  rfl

end Issues

/-! ## What may begin (R81, R101, R119) -/

theorem UOp.reads_ctx (o : UOp) (x y : BCtx) : o.reads y = o.reads x := rfl

theorem UOp.writes_ctx (o : UOp) (x y : BCtx) : o.writes y = o.writes x := rfl

section Ready

variable {x y : BCtx} (h : y.host = x.host)
include h

theorem rangeHeld_congr (ops : List UOp) (rs ws : List (Nat × Nat)) : rangeHeld y ops rs ws = rangeHeld x ops rs ws := by
  have hland : y.landing = x.landing := by simp only [BCtx.landing, h]
  simp only [rangeHeld, hland, UOp.reads_ctx _ x y, UOp.writes_ctx _ x y]

theorem UOp.free_congr (o : UOp) (before : List UOp) : o.free before y = o.free before x := by
  simp only [UOp.free, rangeHeld_congr h, UOp.reads_ctx o x y, UOp.writes_ctx o x y]

theorem firstReady_congr (before ops : List UOp) : firstReady y before ops = firstReady x before ops := by
  induction ops generalizing before with
  | nil => rfl
  | cons o r ih => simp only [firstReady, UOp.free_congr h, ih]

theorem beginsAt_congr (ho : y.ops = x.ops) {o : UOp} (hb : Safety.BeginsAt o x) : Safety.BeginsAt o y := by
  obtain ⟨hn, hf, hid⟩ := hb
  exact ⟨by rw [firstReady_congr h, ho, hn], by rw [UOp.free_congr h, ho, hf], ho ▸ hid⟩

end Ready

theorem firstReady_snoc (x : BCtx) (o : UOp) (before ops : List UOp) : firstReady x before (ops ++ [o]) =
    (firstReady x before ops).or (if !o.begun && o.free (before ++ ops) x then some o else none) := by
  induction ops generalizing before with
  | nil => simp [firstReady]
  | cons p r ih =>
    simp only [List.cons_append, firstReady]
    split
    · rfl
    · simpa using ih (before ++ [p])

/-! ## The units begin what can begin (R119) -/

theorem startOps_idle {k : Nat} {x : BCtx} {d : Dev} (hx : ctxAt k d = some x) (hn : firstReady x [] x.ops = none) (n : Nat) : startOps k n d = d := by
  cases n with
  | zero => rfl
  | succ n =>
    simp only [startOps, hx, hn]
    split <;> rfl

theorem startOps_begins {k : Nat} {x : BCtx} {l : Launch} {d : Dev} {o : UOp} (hx : ctxAt k d = some x) (hw : MayBegin d k x l)
    (ho : firstReady x [] x.ops = some o) (n : Nat) :
    startOps k (n + 1) d = startOps k n (beginOp k o x l d) := by
  simp [startOps, hx, hw.runs, hw.sound, ho, hw.launch]

/-- A context that has handed an instruction to a unit. -/
def BCtx.taking (x : BCtx) (o : UOp) : BCtx := { x with ops := x.ops ++ [o], pc := (x.pc + 8) % 2 ^ 56 }

section Units

variable {d e : Dev} {k loc w : Nat} {x y : BCtx} {l : Launch} {kind : UKind} (h : CtxTo e d k y)
include h

theorem toUnit_eq : ∃ d', toUnit kind loc k w x d = startOps k unitFuel d' ∧
    CtxTo (newId e).2 d' k (y.taking (Safety.handed kind w loc x e)) := by
  have hid : d.bricks.nextHost = e.bricks.nextHost := h.frame (fun a => a.bricks.nextHost) fun _ => rfl
  refine ⟨_, rfl, ?_⟩
  have hd := h.newId.upd fun y => ({ y with ops := y.ops ++ [Safety.handed kind w loc x d] } : BCtx).advance
  unfold Safety.handed at hd ⊢
  rw [hid] at hd
  rw [show (newId d).1 = e.bricks.nextHost from hid]
  exact hd

/-- An instruction that something earlier holds back waits in its unit. -/
theorem toUnit_waits (hn : firstReady y [] y.ops = none) (hf : (Safety.handed kind w loc x e).free y.ops y = false) :
    CtxTo (newId e).2 (toUnit kind loc k w x d) k (y.taking (Safety.handed kind w loc x e)) := by
  obtain ⟨d', heq, hd⟩ := toUnit_eq (kind := kind) (loc := loc) (w := w) (x := x) h
  have hready : firstReady (y.taking (Safety.handed kind w loc x e)) [] (y.taking (Safety.handed kind w loc x e)).ops = none := by
    rw [firstReady_congr (show (y.taking _).host = y.host from rfl), BCtx.taking, firstReady_snoc, hn]
    simp [hf]
  rw [heq, startOps_idle hd.ctx hready]
  exact hd

/-- An instruction that nothing holds back begins as it is handed over. -/
theorem toUnit_begins (hw : MayBegin e k y l) (hb : Safety.BeginsAt (Safety.handed kind w loc x e) y) :
    ∃ d', CtxTo (newId e).2 d' k (y.taking (Safety.handed kind w loc x e)) ∧
      toUnit kind loc k w x d =
        startOps k 31 (beginOp k (Safety.handed kind w loc x e) (y.taking (Safety.handed kind w loc x e)) l d') := by
  obtain ⟨d', heq, hd⟩ := toUnit_eq (kind := kind) (loc := loc) (w := w) (x := x) h
  obtain ⟨hn, hf, -⟩ := hb
  have hready : firstReady (y.taking (Safety.handed kind w loc x e)) [] (y.taking (Safety.handed kind w loc x e)).ops =
      some (Safety.handed kind w loc x e) := by
    rw [firstReady_congr (show (y.taking _).host = y.host from rfl), BCtx.taking, firstReady_snoc, hn]
    simp [hf, show (Safety.handed kind w loc x e).begun = false from rfl]
  have hworks : MayBegin d' k (y.taking (Safety.handed kind w loc x e)) l :=
    ⟨(hd.frame (launchAt y.launch) fun _ => rfl).trans hw.launch, (hd.frame (unitsRun k y) fun _ => rfl).trans hw.runs,
      (hd.frame (inFault (.brick k 8)) fun _ => rfl).trans hw.sound⟩
  exact ⟨d', hd, heq.trans (startOps_begins hd.ctx hworks hready 31)⟩

end Units

/-- With an instruction begun beside them, those before it in the units are as ready as before: none. -/
theorem firstReady_begun {x y : BCtx} {o : UOp} (h : y.host = x.host) (ho : o.begun = true) (hn : firstReady x [] x.ops = none) :
    firstReady y [] (x.ops ++ [o]) = none := by
  rw [firstReady_congr h, firstReady_snoc, hn]
  simp [ho]

end Sys2Proof.Machine
end

section
/-! SUPPORT. Matrix instructions and drains (R67, R74 to R83, R106): what a matrix instruction and a drain that begin leave of their context, what
scratch holds after a write, and how MATRIX_END and DRAIN_END end what the units hold. -/

namespace Sys2Proof.Machine

/-! ## Tables filled by position -/

theorem Tab.get_zip_range' {α : Type} (l : List α) (a i : Nat) : Tab.get ((List.range' a l.length).zip l) (a + i) = l[i]? := by
  induction l generalizing a i with
  | nil => rfl
  | cons v r ih =>
    rw [List.length_cons, List.range'_succ, List.zip_cons_cons, Tab.get]
    cases i with
    | zero => simp
    | succ i => simpa [Nat.add_assoc, Nat.add_comm 1] using ih (a + 1) i

theorem Tab.getD_zip_range {α : Type} (l : List α) (i : Nat) (v : α) : Tab.getD ((List.range l.length).zip l) i v = l.getD i v := by
  rw [Tab.getD, List.range_eq_range', ← Nat.zero_add i, Tab.get_zip_range', Nat.zero_add, List.getD_eq_getElem?_getD]

theorem getD_map_range {α : Type} (f : Nat → α) {n i : Nat} (h : i < n) (v : α) : ((List.range n).map f).getD i v = f i := by
  simp [List.getD_eq_getElem?_getD, h]

/-! ## Flags of an instruction word (R105) -/

theorem bitOf_fFlags (word : Word64) {k : Nat} (h : k < 6) : bitOf (fFlags word.toNat) k = word.getLsbD (48 + k) := by
  rw [bitOf_eq_testBit, fFlags, testBit_bitsOf, BitVec.getLsbD]
  simp [h]

/-! ## The instruction that begins is marked -/

/-- Marks the instruction that begins in a context's units. -/
def BCtx.begin (x : BCtx) (id : Nat) : BCtx := { x with ops := x.ops.map (fun p => if p.id = id then { p with begun := true } else p) }

theorem begin_taking {x : BCtx} {o : UOp} (h : ∀ p ∈ x.ops, p.id ≠ o.id) : (x.taking o).begin o.id = x.taking { o with begun := true } := by
  have hmap : x.ops.map (fun p => if p.id = o.id then { p with begun := true } else p) = x.ops :=
    (List.map_congr_left fun p hp => if_neg (h p hp)).trans (List.map_id' _)
  simp [BCtx.begin, BCtx.taking, hmap]

/-- An instruction of the matrix unit or the drain that begins as it is handed over stays in its unit, begun, and no other begins after it. -/
theorem toUnit_stays {d e e' : Dev} {k loc w : Nat} {x y z : BCtx} {l : Launch} {kind : UKind} (h : CtxTo e d k y) (hw : MayBegin e k y l)
    (hb : Safety.BeginsAt (Safety.handed kind w loc x e) y) {run : Dev → Dev}
    (hrun : ∀ d', beginOp k (Safety.handed kind w loc x e) (y.taking (Safety.handed kind w loc x e)) l d' =
      run (updCtx k (fun y => y.begin (Safety.handed kind w loc x e).id) d'))
    (hz : ∀ d', CtxTo (newId e).2 d' k (y.taking { Safety.handed kind w loc x e with begun := true }) → CtxTo e' (run d') k z)
    (hops : z.ops = y.ops ++ [{ Safety.handed kind w loc x e with begun := true }]) (hhost : z.host = y.host) :
    CtxTo e' (toUnit kind loc k w x d) k z := by
  obtain ⟨d', hd, heq⟩ := toUnit_begins h hw hb
  have hbegun := hd.upd fun y => y.begin (Safety.handed kind w loc x e).id
  rw [begin_taking hb.2.2] at hbegun
  have hend := hz _ hbegun
  have hrest : firstReady z [] z.ops = none := by
    rw [hops]
    exact firstReady_begun hhost rfl hb.1
  rw [heq, hrun, startOps_idle hend.ctx hrest]
  exact hend

/-! ## The matrix instruction (R74 to R80) -/

theorem readRanges_congr {k : Nat} {x y : BCtx} {d e : Dev} (h : ∀ off n, readScratch k y off n e = readScratch k x off n d) (l : List (Nat × Nat)) :
    readRanges k y e l = readRanges k x d l := by
  induction l with
  | nil => rfl
  | cons r l ih => simp only [readRanges, h, ih]

/-- A context whose bank took the results of a matrix instruction. -/
def BCtx.withBank (y : BCtx) (w : Nat) (cs : List (Nat × Nat)) : BCtx :=
  { y.raise (cs.foldl (fun f c => Nat.lor f c.2) 0) with
    banks := Tab.set y.banks (fFlags w % 2) ((List.range 10240).zip (cs.map Prod.fst)) }

theorem runMatrix_ctxTo {d e : Dev} {k pc w : Nat} {x y : BCtx} {a b sa sb : List Byte} (h : CtxTo d e k y)
    (hr : readRanges k x d (matrixRanges w x) = .ok [a, b, sa, sb]) :
    CtxTo (each (matrixRanges w x) (fun r => readsScratch k x r.1 r.2) d) (runMatrix k pc w x e) k (y.withBank w (matrixCells w x a b sa sb)) := by
  have hre : readRanges k x e (matrixRanges w x) = .ok [a, b, sa, sb] :=
    (readRanges_congr (fun off n => h.frame (readScratch k x off n) fun _ => rfl) _).trans hr
  simp only [runMatrix, hre]
  exact (h.each (fun r _ _ hd => hd.readsScratch x r.1 r.2) _).upd fun y => y.withBank w (matrixCells w x a b sa sb)

theorem bankVal_withBank_other (y : BCtx) (w : Nat) (cs : List (Nat × Nat)) {b : Nat} (h : b ≠ fFlags w % 2) (n : Nat) :
    bankVal (y.withBank w cs) b n = bankVal y b n := by
  simp only [bankVal, BCtx.withBank, Tab.getD, Tab.get_set_other _ _ h]

theorem bankVal_withBank_self (y : BCtx) (w : Nat) {cs : List (Nat × Nat)} (h : cs.length = 10240) (n : Nat) :
    bankVal (y.withBank w cs) (fFlags w % 2) n = (cs.map Prod.fst).getD n 0 := by
  have hbank : Tab.getD (y.withBank w cs).banks (fFlags w % 2) [] = (List.range 10240).zip (cs.map Prod.fst) := by
    simp only [BCtx.withBank, Tab.getD, Tab.get_set_self, Option.getD_some]
  rw [bankVal, hbank, ← h, ← List.length_map (f := Prod.fst) (as := cs), Tab.getD_zip_range]

/-- The cell of row `i` and column `j` (R78, R79). -/
theorem getD_matrixCells (w : Nat) (x : BCtx) (a b sa sb : List Byte) {i j : Nat} (hi : i < 128) (hj : j < 80) :
    ((matrixCells w x a b sa sb).map Prod.fst).getD (80 * i + j) 0 =
      ((cellBlocks (matFa w) (matFb w) (matK w) i j a b sa sb).foldl (cellBlock ((matrixPath (matFa w) (matFb w)).getD false))
        (if bitOf (fFlags w) 1 then 0 else bankVal x (fFlags w % 2) (80 * i + j), 0)).1 := by
  rw [matrixCells, List.map_map, getD_map_range _ (by omega), Function.comp_apply, show (80 * i + j) / 80 = i by omega,
    show (80 * i + j) % 80 = j by omega]

/-! ## The drain to V registers (R81, R82, R106) -/

theorem vreg_setV_self (x : BCtx) (r : Nat) (l : List Nat) : (x.setV r l).vreg r = l := by
  simp [BCtx.vreg, BCtx.setV, Tab.getD]

theorem vreg_setV_other (x : BCtx) {r q : Nat} (h : q ≠ r) (l : List Nat) : (x.setV r l).vreg q = x.vreg q := by
  simp [BCtx.vreg, BCtx.setV, Tab.getD, Tab.get_set_other _ _ h]

/-- A context with several V registers written from `a` up. -/
def BCtx.setVs (x : BCtx) (a n : Nat) (f : Nat → List Nat) : BCtx := (List.range n).foldl (fun y r => y.setV (a + r) (f r)) x

theorem BCtx.setVs_succ (x : BCtx) (a n : Nat) (f : Nat → List Nat) : x.setVs a (n + 1) f = (x.setVs a n f).setV (a + n) (f n) := by
  simp [BCtx.setVs, List.range_succ]

theorem BCtx.setVs_eq (x : BCtx) (a n : Nat) (f : Nat → List Nat) : x.setVs a n f = { x with v := (x.setVs a n f).v } := by
  induction n with
  | zero => rfl
  | succ n ih =>
    rw [BCtx.setVs_succ, ih]
    rfl

theorem vreg_setVs (x : BCtx) (a n : Nat) (f : Nat → List Nat) (r : Nat) :
    (x.setVs a n f).vreg r = if a ≤ r ∧ r < a + n then f (r - a) else x.vreg r := by
  induction n with
  | zero =>
    rw [if_neg (by omega)]
    rfl
  | succ n ih =>
    rw [BCtx.setVs_succ]
    by_cases hr : r = a + n
    · subst hr
      rw [vreg_setV_self, if_pos (by omega), Nat.add_sub_cancel_left]
    · rw [vreg_setV_other _ hr, ih]
      congr 1
      exact propext (by omega)

/-- The values of the row group that a drain to V registers takes, with their flags. -/
def drainGroup (w : Nat) (x : BCtx) : List (Nat × Nat) := (List.range 640).map (fun n => drainVal w x (640 * bitsOf w 7 4 + n))

/-- A context after a drain to V registers. -/
def BCtx.drained (y : BCtx) (w : Nat) (vs : List (Nat × Nat)) : BCtx :=
  (y.raise (vs.foldl (fun a v => Nat.lor a v.2) 0)).setVs (fDst w) 10 (vregLanes (vs.map Prod.fst))

theorem BCtx.drained_eq (y : BCtx) (w : Nat) (vs : List (Nat × Nat)) :
    y.drained w vs = { y with v := (y.drained w vs).v, flags := (y.drained w vs).flags } := by
  have h := BCtx.setVs_eq (y.raise (vs.foldl (fun a v => Nat.lor a v.2) 0)) (fDst w) 10 (vregLanes (vs.map Prod.fst))
  rw [BCtx.drained, h]
  rfl

theorem BCtx.drained_ops (y : BCtx) (w : Nat) (vs : List (Nat × Nat)) : (y.drained w vs).ops = y.ops := by
  rw [y.drained_eq w vs]

theorem BCtx.drained_host (y : BCtx) (w : Nat) (vs : List (Nat × Nat)) : (y.drained w vs).host = y.host := by
  rw [y.drained_eq w vs]

theorem runDrain_toVreg {d e : Dev} {k pc w : Nat} {x y : BCtx} (h : CtxTo d e k y) (hv : toVreg w = true) :
    CtxTo d (runDrain k pc w x e) k (y.drained w (drainGroup w x)) := by
  rw [runDrain, if_pos hv]
  exact h.upd fun y => y.drained w (drainGroup w x)

theorem getD_drained (y : BCtx) (w : Nat) (x : BCtx) {r i : Nat} (hr : r < 10) (hi : i < 64) :
    ((y.drained w (drainGroup w x)).vreg (fDst w + r)).getD i 0 = (drainVal w x (640 * bitsOf w 7 4 + 10 * i + r)).1 := by
  rw [BCtx.drained, vreg_setVs, if_pos (by omega), Nat.add_sub_cancel_left, vregLanes, getD_map_range _ hi, drainGroup, List.map_map,
    getD_map_range _ (by omega), Function.comp_apply, Nat.add_assoc]

theorem vreg_drained_other (y : BCtx) (w : Nat) (vs : List (Nat × Nat)) {r : Nat} (h : r < fDst w ∨ fDst w + 10 ≤ r) :
    (y.drained w vs).vreg r = y.vreg r := by
  rw [BCtx.drained, vreg_setVs, if_neg (by omega)]
  rfl

/-! ## Writes of scratch (R102, R148) -/

/-- A context whose scratch took some bytes. -/
def BCtx.put (x : BCtx) (a : Nat) (l : List Byte) : BCtx := { x with scratch := enterBytes [] a l x.scratch }

theorem getD_enterBytes_outside {a j : Nat} (l : List Byte) (m : Tab Byte) (v : Byte) (h : j < a ∨ a + l.length ≤ j) :
    Tab.getD (enterBytes [] a l m) j v = Tab.getD m j v := by
  induction l generalizing a m with
  | nil => rfl
  | cons b r ih =>
    rw [List.length_cons] at h
    simp only [enterBytes, List.contains_nil, Bool.false_eq_true, if_false]
    rw [ih _ (by omega), Tab.getD, Tab.getD, Tab.get_set_other _ _ (by omega)]

theorem getD_enterBytes_inside {a i : Nat} (l : List Byte) (m : Tab Byte) (v : Byte) (h : i < l.length) :
    Tab.getD (enterBytes [] a l m) (a + i) v = l[i] := by
  induction l generalizing a m i with
  | nil => simp at h
  | cons b r ih =>
    simp only [enterBytes, List.contains_nil, Bool.false_eq_true, if_false]
    cases i with
    | zero =>
      rw [getD_enterBytes_outside _ _ _ (by omega), Tab.getD, Nat.add_zero, Tab.get_set_self]
      rfl
    | succ i =>
      rw [show a + (i + 1) = a + 1 + i by omega, ih _ (by simpa using h)]
      rfl

theorem wrote_put {x y : BCtx} (hs : y.scratch = x.scratch) (hseed : y.seed = x.seed) (a : Nat) (l : List Byte) : Safety.Wrote x (y.put a l) a l := by
  constructor
  · intro i hi
    exact getD_enterBytes_inside l _ _ hi
  · intro j hj
    simp only [BCtx.byte, BCtx.put, hs, hseed]
    exact getD_enterBytes_outside l _ _ hj

theorem CtxTo.clearScratch {d e : Dev} {k : Nat} {y : BCtx} (h : CtxTo d e k y) {x : BCtx} (hon : onBrick k x d = true) (off n : Nat) :
    CtxTo (clearScratch k x off n d) (clearScratch k x off n e) k y := by
  refine h.apply (f := Machine.clearScratch k x off n) (fun c => ?_) ?_
  · rw [Machine.clearScratch, Machine.clearScratch, if_pos hon, if_pos (show onBrick k x (d.withCtxs c) = true from hon)]
    rfl
  · rw [Machine.clearScratch, if_pos hon]

theorem clearScratch_onBrick {d : Dev} {k : Nat} {x : BCtx} (hon : onBrick k x d = true) (off n : Nat) :
    (clearScratch k x off n d).bricks = d.bricks ∧ (clearScratch k x off n d).regs = d.regs := by
  rw [clearScratch, if_pos hon]
  exact ⟨rfl, rfl⟩

/-- A write of scratch that leaves no byte out. -/
theorem writeScratch_all {d e : Dev} {k off : Nat} {x y : BCtx} {l : List Byte} (h : CtxTo d e k y) (hb : y.brick = x.brick) (hon : onBrick k x d = true)
    (hw : Safety.WritesAll k x off l.length d) :
    (writeScratch k off l e).2 = none ∧ CtxTo (clearScratch k x off l.length d) (writeScratch k off l e).1 k (y.put off l) := by
  obtain ⟨hsize, hwhole⟩ := hw
  have hpoison : poisonOf k y e = poisonOf k x d := by
    have hone : onBrick k y e = true := by
      rw [h.frame (onBrick k y) fun _ => rfl, onBrick, hb]
      exact hon
    rw [poisonOf, if_pos hone, poisonOf, if_pos hon, hb, h.frame (fun a => a.tiers.poison) fun _ => rfl]
  have hbad : (poisonOf k x d).filter (fun c => decide (c < off + l.length) && decide (off < c + 16) &&
      !(decide (off ≤ c) && decide (c + 16 ≤ off + l.length))) = [] := by
    refine List.filter_eq_nil_iff.mpr fun c hc => ?_
    have := hwhole c hc
    simp only [Bool.and_eq_true, decide_eq_true_eq, Bool.not_eq_true', Bool.and_eq_false_iff, decide_eq_false_iff_not]
    omega
  have hclear : clearScratch k y off l.length = clearScratch k x off l.length := by
    funext a
    unfold Machine.clearScratch onBrick
    rw [hb]
  simp only [writeScratch, h.ctx, hpoison, hbad, hclear, scratchSize, if_neg (Nat.not_lt.mpr hsize)]
  exact ⟨rfl, (h.upd fun x => x.put off l).clearScratch hon off l.length⟩

/-! ## The drain to scratch (R82, R83, R106) -/

/-- The values that a drain to scratch takes, in the order in which it writes them, with their flags. -/
def drainVals (w : Nat) (x : BCtx) : List (Nat × Nat) := (drainOrder w).map (drainVal w x)

/-- What a drain to scratch writes, with the flags of the conversion. -/
def drainPacked (w : Nat) (x : BCtx) : List Byte × Nat := packVals (fmtOf w) (bitOf (fFlags w) 1) ((drainVals w x).map (fun v => val32 v.1))

theorem drainPacked_eq (w : Nat) (x : BCtx) :
    drainPacked w x = packVals (fmtOf w) (bitOf (fFlags w) 1) ((drainOrder w).map (fun n => val32 (drainVal w x n).1)) := by
  rw [drainPacked, drainVals, List.map_map]
  rfl

/-- The flags that a drain to scratch raises. -/
def drainFlags (w : Nat) (x : BCtx) : Nat := Nat.lor (drainPacked w x).2 ((drainVals w x).foldl (fun a v => Nat.lor a v.2) 0)

theorem runDrain_toScratch {d e : Dev} {k pc w fl : Nat} {x y : BCtx} (h : CtxTo d e k y) (hv : toVreg w = false) (hb : y.brick = x.brick)
    (hon : onBrick k x d = true) (hw : Safety.WritesAll k x (x.sreg (fDst w)) (drainPacked w x).1.length d) (hfl : drainFlags w x = fl) :
    CtxTo (clearScratch k x (x.sreg (fDst w)) (drainPacked w x).1.length d) (runDrain k pc w x e) k
      ((y.put (x.sreg (fDst w)) (drainPacked w x).1).raise fl) := by
  obtain ⟨hnone, hput⟩ := writeScratch_all h hb hon hw
  subst hfl
  simp only [drainFlags, drainPacked, drainVals] at hnone hput ⊢
  simp only [runDrain, hv, Bool.false_eq_true, if_false, hnone]
  exact hput.upd _

/-! ## The end of an instruction in a unit (R81, R113) -/

/-- A context that an instruction has left. -/
def BCtx.without (x : BCtx) (id : Nat) : BCtx := { x with ops := x.ops.filter (fun p => p.id != id) }

theorem CtxTo.dropOp {d e : Dev} {k : Nat} {y : BCtx} (h : CtxTo d e k y) (id : Nat) : CtxTo d (dropOp k id e) k (y.without id) := h.upd _

theorem firstReady_struck (x : BCtx) (id : Nat) : firstReady (x.struck id) [] (x.struck id).ops = firstReady x [] x.ops := by
  rw [BCtx.struck_eq]
  exact firstReady_congr (by rfl) [] x.ops

theorem unitEnds_ctxTo {b k : Nat} {x : BCtx} {o : UOp} {kind : UKind} {d : Dev} (hu : unitHolder b kind d = some (k, o)) (hx : ctxAt k d = some x)
    (hw : ∀ i v u, x.wait ≠ .cadd i v u) (hn : firstReady x [] (x.without o.id).ops = none) :
    CtxTo d (unitEnds b kind d) k ((x.without o.id).struck o.id) := by
  have h := ((CtxTo.refl hx).dropOp o.id).strike hw o.id
  have hrest := (firstReady_struck (x.without o.id) o.id).trans ((firstReady_congr (x := x) (by rfl) [] _).trans hn)
  rw [unitEnds, hu]
  dsimp only
  rw [startOps_idle h.ctx hrest]
  exact h

theorem struck_of_no_posts {x : BCtx} (h : x.posts = []) (id : Nat) : x.struck id = x := by
  cases x
  cases h
  rfl

/-- The only SPOST takes effect once the only instruction that it waits for has finished. -/
theorem struck_of_post {x : BCtx} {id ch n : Nat} (h : x.posts = [⟨ch, n, [id]⟩]) :
    x.struck id = BCtx.posting { x with posts := [] } ⟨ch, n, []⟩ := by
  rw [BCtx.struck, BCtx.settled, h]
  simp

theorem chan_posting_self (x : BCtx) (p : Post) : (x.posting p).chan p.ch = { x.chan p.ch with posted := ((x.chan p.ch).posted + p.n) % 2 ^ 32 } := by
  simp [BCtx.posting, BCtx.chan, Tab.getD]

end Sys2Proof.Machine
end

section
/-! SUPPORT. Matrix instructions and drains are settled (R67, R74 to R83, R100, R101, R106). -/

namespace Sys2Proof.Machine

/-- The number of an instruction changes nothing of what scratch holds. -/
theorem writesAll_newId {k off n : Nat} {x : BCtx} {e : Dev} (hw : Safety.WritesAll k x off n e) : Safety.WritesAll k x off n (newId e).2 := hw

theorem onBrick_newId {k : Nat} {x : BCtx} {e : Dev} (ho : onBrick k x e = true) : onBrick k x (newId e).2 = true := ho

/-! ## An instruction is handed over (R67, R100, R101) -/

section Issued

variable {s : State} {b k : Nat} {x : BCtx} {l : Launch} {e : Dev} (h : Safety.Fetched b s k x l e)
include h

/-- An instruction that something earlier holds back waits in its unit, and the program goes on. -/
theorem handed_waits {kind : UKind} {w : Nat} (hn : firstReady x [] x.ops = none) (hf : (Safety.handed kind w 0 x e).free x.ops x = false) :
    CtxTo (newId e).2 (toUnit kind 0 k w x (updCtx k (fun x => { x with wait := .run }) e)) k
      { x with pc := (x.pc + 8) % 2 ^ 56, wait := .run, ops := x.ops ++ [Safety.handed kind w 0 x e] } :=
  toUnit_waits (fetched_ctxTo h) ((firstReady_congr (x := x) (by rfl) _ _).trans hn) ((UOp.free_congr (x := x) (by rfl) _ _).trans hf)

/-- The context with an instruction begun in its unit, as the instruction finds it. -/
abbrev BCtx.begun (x : BCtx) (kind : UKind) (w : Nat) (e : Dev) : BCtx :=
  BCtx.taking { x with wait := .run } { Safety.handed kind w 0 x e with begun := true }

theorem matrix_begins {w : Nat} {a b sa sb : List Byte} (hb : Safety.BeginsAt (Safety.handed .matrix w 0 x e) x)
    (hr : readRanges k x e (matrixRanges w x) = .ok [a, b, sa, sb]) :
    CtxTo (each (matrixRanges w x) (fun r => readsScratch k x r.1 r.2) (newId e).2)
      (toUnit .matrix 0 k w x (updCtx k (fun x => { x with wait := .run }) e)) k
      ((x.begun .matrix w e).withBank w (matrixCells w x a b sa sb)) := by
  refine toUnit_stays (fetched_ctxTo h) (fetched_mayBegin h rfl rfl) (beginsAt_congr (by rfl) (by rfl) hb)
    (run := runMatrix k x.pc w x) (fun d' => ?_) (fun d' hd => ?_) rfl rfl
  · rfl
  · exact runMatrix_ctxTo hd hr

theorem drain_begins_toVreg {w : Nat} (hb : Safety.BeginsAt (Safety.handed .drain w 0 x e) x) (hv : toVreg w = true) :
    CtxTo (newId e).2 (toUnit .drain 0 k w x (updCtx k (fun x => { x with wait := .run }) e)) k
      ((x.begun .drain w e).drained w (drainGroup w x)) := by
  refine toUnit_stays (fetched_ctxTo h) (fetched_mayBegin h rfl rfl) (beginsAt_congr (by rfl) (by rfl) hb)
    (run := runDrain k x.pc w x) (fun d' => ?_) (fun d' hd => runDrain_toVreg hd hv)
    (BCtx.drained_ops (x.begun .drain w e) w _)
    (BCtx.drained_host (x.begun .drain w e) w _)
  rfl

theorem drain_begins_toScratch {w : Nat} (hb : Safety.BeginsAt (Safety.handed .drain w 0 x e) x) (hv : toVreg w = false)
    (hw : Safety.WritesAll k x (x.sreg (fDst w)) (drainPacked w x).1.length e) : ∃ fl,
    CtxTo (clearScratch k x (x.sreg (fDst w)) (drainPacked w x).1.length (newId e).2)
      (toUnit .drain 0 k w x (updCtx k (fun x => { x with wait := .run }) e)) k
      (((x.begun .drain w e).put (x.sreg (fDst w)) (drainPacked w x).1).raise fl) := by
  obtain ⟨fl, hfl⟩ : ∃ fl, drainFlags w x = fl := ⟨_, rfl⟩
  refine ⟨fl, toUnit_stays (fetched_ctxTo h) (fetched_mayBegin h rfl rfl) (beginsAt_congr (by rfl) (by rfl) hb)
    (run := runDrain k x.pc w x) (fun d' => ?_) (fun d' hd => ?_) rfl rfl⟩
  · rfl
  · exact runDrain_toScratch hd hv rfl (onBrick_newId (fetched_onBrick h)) (writesAll_newId hw) hfl

end Issued

/-- A write of scratch changes no other context and no register. -/
theorem others_of_clearScratch {d e : Dev} {k off n : Nat} {x y : BCtx} (h : CtxTo (clearScratch k x off n (newId d).2) e k y)
    (hon : onBrick k x d = true) : (∀ j, j ≠ k → ctxAt j e = ctxAt j d) ∧ e.regs = d.regs := by
  obtain ⟨hb, hr⟩ := clearScratch_onBrick (d := (newId d).2) hon off n
  refine ⟨fun j hj => (h.2.2 j hj).trans ?_, (h.frame Dev.regs fun _ => rfl).trans hr⟩
  rw [ctxAt, hb]
  rfl

/-! ## The obligation -/

/-- Settles O18: an instruction that is handed over waits (`handed_waits`) or begins (`matrix_begins`, `drain_begins_toVreg`,
`drain_begins_toScratch`), and one that ends leaves its unit and its posts (`unitEnds_ctxTo`). -/
theorem matrixAndDrain : Obligations.MatrixAndDrain := by
  refine ⟨?_, ?_, ?_⟩
  · intro s b k x l e word ma mb sa sb w o h hl
    refine ⟨fun hbusy => ?_, fun hfree hn hf => ?_, fun hfree hb hr => ?_⟩
    · exact issues_stays h hl hbusy
    · exact ⟨_, issues_goes h hl hfree, (handed_waits h hn hf).step s⟩
    · refine ⟨_, _, issues_goes h hl hfree, (matrix_begins h hb hr).step s, rfl, fun n => ?_, fun i hi j hj => ?_⟩
      · exact bankVal_withBank_other _ _ _ (by omega) n
      · rw [bankVal_withBank_self _ _ (by simp [matrixCells]), getD_matrixCells _ _ _ _ _ _ hi hj, bitOf_fFlags word (by omega)]
  · intro s b k x l e word w o h hl
    refine ⟨fun hbusy => ?_, fun hfree hn hf => ?_, fun hfree hb hv => ?_, fun hfree hb hv => ?_⟩
    · exact issues_stays h hl hbusy
    · exact ⟨_, issues_goes h hl hfree, (handed_waits h hn hf).step s⟩
    · refine ⟨_, _, issues_goes h hl hfree, (drain_begins_toVreg h hb hv).step s, BCtx.drained_eq _ _ _,
        fun r hr i hi => getD_drained _ _ _ hr hi, fun r hr => vreg_drained_other _ _ _ hr⟩
    · intro bytes hw
      have hbytes : bytes = (drainPacked w x).1 := congrArg Prod.fst (drainPacked_eq w x).symm
      rw [hbytes] at hw ⊢
      obtain ⟨fl, hd⟩ := drain_begins_toScratch h hb hv hw
      exact ⟨_, _, issues_goes h hl hfree, hd.ctx, rfl, wrote_put (y := (x.begun .drain w e).raise fl) rfl rfl _ _,
        others_of_clearScratch hd (fetched_onBrick h)⟩
  · intro s b k x o kind hu hx hw rest ends
    have hends : ∀ c, exec c s = .next { s with dev := unitEnds b kind s.dev } → ends c := by
      intro c hc
      refine ⟨fun hp hn => ⟨_, hc, ?_⟩, fun ch n hp hn => ⟨_, _, hc, (unitEnds_ctxTo hu hx hw hn).step s, ?_⟩⟩
      · have hd := unitEnds_ctxTo hu hx hw hn
        rw [struck_of_no_posts (x := x.without o.id) hp] at hd
        exact hd.step s
      · rw [struck_of_post (x := x.without o.id) hp]
        exact ⟨rfl, rfl, congrArg Chan.posted (chan_posting_self _ ⟨ch, n, []⟩)⟩
    exact ⟨fun hk => hends _ (by rw [hk]; rfl), fun hk => hends _ (by rw [hk]; rfl)⟩

end Sys2Proof.Machine
end

section
/-! SUPPORT. The vector unit (R82, R83, R85 to R87): a lane's result for 32-bit integers, and what a vector instruction, a vector load or store and
a special operation leave of their context. -/

namespace Sys2Proof.Machine

/-! ## Integers of 32 bits (R85, R86) -/

theorem signedOf_eq_toInt (a : Nat) : signedOf 32 a = (BitVec.ofNat 32 a).toInt := by
  rw [signedOf, BitVec.toInt_eq_toNat_cond, BitVec.toNat_ofNat]
  have hiff : a % 2 ^ 32 < 2 ^ (32 - 1) ↔ 2 * (a % 2 ^ 32) < 2 ^ 32 := by omega
  simp only [hiff]

theorem unsignedOf_eq_ofInt (v : Int) : unsignedOf 32 v = (BitVec.ofInt 32 v).toNat := by
  rw [unsignedOf, BitVec.toNat_ofInt]

theorem compare32_eq_compareBits (c : Cmp) {a b : Nat} (ha : a < 2 ^ 32) (hb : b < 2 ^ 32) :
    compare32 c a b = Safety.compareBits c (BitVec.ofNat 32 a) (BitVec.ofNat 32 b) := by
  have hna : (BitVec.ofNat 32 a).toNat = a := by rw [BitVec.toNat_ofNat, Nat.mod_eq_of_lt ha]
  have hnb : (BitVec.ofNat 32 b).toNat = b := by rw [BitVec.toNat_ofNat, Nat.mod_eq_of_lt hb]
  have heq : BitVec.ofNat 32 a = BitVec.ofNat 32 b ↔ a = b := by rw [← BitVec.toNat_inj, hna, hnb]
  cases c <;> simp only [compare32, Safety.compareBits, signedOf_eq_toInt]
  case eq => rw [Bool.eq_iff_iff]; simp [heq]
  case ne => rw [Bool.eq_iff_iff]; simp [heq]
  case lt => rw [BitVec.slt_eq_decide]
  case ge => rw [BitVec.sle_eq_decide]
  case ltu => rw [BitVec.ult_eq_decide, hna, hnb]
  case geu => rw [BitVec.ule_eq_decide, hna, hnb]

/-- A lane of an integer or bitwise operation wraps modulo 2^32 (R86). -/
theorem laneOp_eq_laneSpec {fn : VecFn} {a b : Nat} (mode : RMode) (c : Nat) {v : BitVec 32} (ha : a < 2 ^ 32) (hb : b < 2 ^ 32)
    (h : Safety.laneSpec fn (BitVec.ofNat 32 a) (BitVec.ofNat 32 b) = some v) : (laneOp fn mode false a b c).1 = v.toNat := by
  have hna : (BitVec.ofNat 32 a).toNat = a := by rw [BitVec.toNat_ofNat, Nat.mod_eq_of_lt ha]
  have hnb : (BitVec.ofNat 32 b).toNat = b := by rw [BitVec.toNat_ofNat, Nat.mod_eq_of_lt hb]
  have hwrap : ∀ v, (wrapOrSat false v).1 = (BitVec.ofInt 32 v).toNat := fun v => unsignedOf_eq_ofInt v
  cases fn <;> simp only [Safety.laneSpec, Option.some.injEq, reduceCtorEq] at h <;> subst h <;> simp only [laneOp, hwrap, signedOf_eq_toInt]
  case iadd => rw [BitVec.ofInt_add, BitVec.ofInt_toInt, BitVec.ofInt_toInt]
  case isub => rw [Int.sub_eq_add_neg, BitVec.ofInt_add, BitVec.ofInt_neg, BitVec.ofInt_toInt, BitVec.ofInt_toInt, BitVec.sub_eq_add_neg]
  case imul => rw [BitVec.ofInt_mul, BitVec.ofInt_toInt, BitVec.ofInt_toInt]
  case imin => simp only [← BitVec.slt_iff_toInt_lt, apply_ite BitVec.toNat, hna, hnb]
  case imax => simp only [← BitVec.slt_iff_toInt_lt, apply_ite BitVec.toNat, hna, hnb]
  case icompare k => simp only [compare32_eq_compareBits k ha hb, apply_ite BitVec.toNat]; rfl
  case and => rw [BitVec.toNat_and, hna, hnb]; rfl
  case or => rw [BitVec.toNat_or, hna, hnb]; rfl
  case xor => rw [BitVec.toNat_xor, hna, hnb]; rfl
  case not => rw [BitVec.toNat_not, hna, Nat.mod_eq_of_lt ha]

/-! ## Lanes and registers (R85) -/

/-- A context whose V register took some lanes. -/
def BCtx.withLanes (y : BCtx) (r : Nat) (l : List (Nat × Nat)) : BCtx := (y.raise (l.foldl (fun a v => Nat.lor a v.2) 0)).setV r (l.map Prod.fst)

theorem CtxTo.putLanes {d e : Dev} {k : Nat} {y : BCtx} (h : CtxTo d e k y) (r : Nat) (l : List (Nat × Nat)) :
    CtxTo d (putLanes k r l e) k (y.withLanes r l) := h.upd fun y => y.withLanes r l

theorem vreg_withLanes_other (y : BCtx) {r q : Nat} (h : q ≠ r) (l : List (Nat × Nat)) : (y.withLanes r l).vreg q = y.vreg q :=
  vreg_setV_other _ h _

theorem getD_withLanes (y : BCtx) (r : Nat) (f : Nat → Nat × Nat) {i : Nat} (hi : i < 64) :
    ((y.withLanes r (lanes f)).vreg r).getD i 0 = (f i).1 := by
  rw [BCtx.withLanes, vreg_setV_self, lanes, List.map_map, getD_map_range _ hi, Function.comp_apply]

theorem sreg_setS_self (x : BCtx) (r v : Nat) : (x.setS r v).sreg r = if r = 0 then 0 else v % 2 ^ 64 := by
  unfold BCtx.sreg BCtx.setS
  split
  · rfl
  · simp [Tab.getD]

theorem sreg_setS_other (x : BCtx) {r q : Nat} (h : q ≠ r) (v : Nat) : (x.setS r v).sreg q = x.sreg q := by
  unfold BCtx.sreg BCtx.setS
  split
  · rfl
  · split
    · rfl
    · simp [Tab.getD, Tab.get_set_other _ _ h]

theorem setS_eq (x : BCtx) (r v : Nat) : x.setS r v = { x with s := (x.setS r v).s } := by
  unfold BCtx.setS
  split <;> rfl

/-! ## Vector instructions (R85, R86) and special operations (R87) -/

/-- A context that is past an instruction of the vector unit, now the latest. -/
def BCtx.vectorStep (y : BCtx) (w : Nat) : BCtx := { y with lastV := (y.pc, w), pc := (y.pc + 8) % 2 ^ 56 }

theorem CtxTo.vectorDone {d e : Dev} {k : Nat} {y : BCtx} (h : CtxTo d e k y) (w : Nat) : CtxTo d (vectorDone k w e) k (y.vectorStep w) := h.upd _

/-- A lane of a vector instruction: its sources, and what the destination holds. -/
def vectorLane (op : VectorOp) (w : Nat) (x : BCtx) (i : Nat) : Nat × Nat :=
  laneOp op.fn (roundOf w) (bitOf (fFlags w) 2) ((x.vreg (fSrc1 w)).getD i 0)
    ((if op.imm then List.replicate 64 (fImm w) else x.vreg (fSrc2 w)).getD i 0) ((x.vreg (fDst w)).getD i 0)

theorem runVector_ctxTo {d e : Dev} {k w : Nat} {x y : BCtx} (h : CtxTo d e k y) (op : VectorOp) (l : Launch) :
    CtxTo d (runVector op k w x l e) k ((y.withLanes (fDst w) (lanes (vectorLane op w x))).vectorStep w) :=
  (h.putLanes (fDst w) (lanes (vectorLane op w x))).vectorDone w

/-- The second source of a lane: the immediate broadcast, or the same lane of the register. -/
theorem getD_broadcast (imm : Bool) (v : Nat) (l : List Nat) {i : Nat} (hi : i < 64) :
    (if imm then List.replicate 64 v else l).getD i 0 = if imm then v else l.getD i 0 := by
  cases imm
  · rfl
  · rw [if_pos rfl, if_pos rfl, List.getD_replicate (h := hi)]

theorem runVspec_reduction {d e : Dev} {k w : Nat} {x y : BCtx} (h : CtxTo d e k y) {op : VSpecOp} (hop : isReduction op = true) (l : Launch) {r : Nat × Nat}
    (hr : reduceOp op (roundOf w) (x.vreg (fSrc1 w)) = r) :
    CtxTo d (runVspec op k w x l e) k (((y.raise r.2).setS (fDst w) r.1).vectorStep w) := by
  simp only [runVspec, hop, if_true, hr]
  exact (h.upd fun y => (y.raise r.2).setS (fDst w) r.1).vectorDone w

theorem runVspec_lanes {d e : Dev} {k w : Nat} {x y : BCtx} (h : CtxTo d e k y) {op : VSpecOp} (hop : isReduction op = false) (l : Launch) :
    CtxTo d (runVspec op k w x l e) k ((y.withLanes (fDst w)
      (lanes (fun i => specLane op (roundOf w) ((x.vreg (fSrc1 w)).getD i 0) ((x.vreg (fSrc2 w)).getD i 0)))).vectorStep w) := by
  simp only [runVspec, hop, Bool.false_eq_true, if_false]
  exact (h.putLanes (fDst w) _).vectorDone w

/-! ## Vector memory (R85) -/

theorem readScratch_ok {k off n : Nat} {x : BCtx} {d : Dev} (hs : off + n ≤ 0x300000) (hp : ∀ c ∈ poisonOf k x d, c + 16 ≤ off ∨ off + n ≤ c) :
    readScratch k x off n d = .ok ((List.range n).map (fun i => x.byte (off + i))) := by
  have hmet : (poisonOf k x d).filter (fun c => decide (c < off + n) && decide (off < c + 16)) = [] := by
    refine List.filter_eq_nil_iff.mpr fun c hc => ?_
    have := hp c hc
    simp only [Bool.and_eq_true, decide_eq_true_eq]
    omega
  rw [readScratch, scratchSize, if_neg (Nat.not_lt.mpr hs), hmet]

theorem runVmem_load {d e : Dev} {k pc w : Nat} {x y : BCtx} {bs : List Byte} (h : CtxTo d e k y)
    (hr : readScratch k x (x.sreg (fSrc1 w)) (vmemBytes (fmtOf w)) d = .ok bs) :
    CtxTo (readsScratch k x (x.sreg (fSrc1 w)) (vmemBytes (fmtOf w)) d) (runVmem true k pc w x e) k
      (y.withLanes (fDst w) (lanes (loadElem (fmtOf w) bs))) := by
  have hre : readScratch k x (x.sreg (fSrc1 w)) (vmemBytes (fmtOf w)) e = .ok bs :=
    (h.frame (readScratch k x (x.sreg (fSrc1 w)) (vmemBytes (fmtOf w))) fun _ => rfl).trans hr
  simp only [runVmem, if_true, hre]
  exact (h.readsScratch x _ _).putLanes _ _

theorem runVmem_store {d e : Dev} {k pc w : Nat} {x y : BCtx} {p : List Byte × Nat} (h : CtxTo d e k y) (hb : y.brick = x.brick)
    (hon : onBrick k x d = true) (hp : storeLanes (fmtOf w) (bitOf (fFlags w) 2) (x.vreg (fDst w)) = p)
    (hw : Safety.WritesAll k x (x.sreg (fSrc1 w)) p.1.length d) :
    CtxTo (clearScratch k x (x.sreg (fSrc1 w)) p.1.length d) (runVmem false k pc w x e) k ((y.put (x.sreg (fSrc1 w)) p.1).raise p.2) := by
  obtain ⟨hnone, hput⟩ := writeScratch_all h hb hon hw
  simp only [runVmem, Bool.false_eq_true, if_false, hp, hnone]
  exact hput.upd fun y => y.raise p.2

/-- A vector load or store that begins as it is handed over is done at once, and the units hold what they held. -/
theorem toUnit_passes {d e e' : Dev} {k loc w : Nat} {x y z : BCtx} {l : Launch} {kind : UKind} (h : CtxTo e d k y) (hw : MayBegin e k y l)
    (hb : Safety.BeginsAt (Safety.handed kind w loc x e) y) (hrun : ∀ i v u, z.wait ≠ .cadd i v u) {run : Dev → Dev}
    (hop : ∀ d', beginOp k (Safety.handed kind w loc x e) (y.taking (Safety.handed kind w loc x e)) l d' =
      strike k (Safety.handed kind w loc x e).id (run (dropOp k (Safety.handed kind w loc x e).id d')))
    (hz : ∀ d', CtxTo (newId e).2 d' k y.advance → CtxTo e' (run d') k z) (hops : z.ops = y.ops) (hhost : z.host = y.host) :
    CtxTo e' (toUnit kind loc k w x d) k (z.struck (Safety.handed kind w loc x e).id) := by
  obtain ⟨d', hd, heq⟩ := toUnit_begins h hw hb
  have hleft : (y.taking (Safety.handed kind w loc x e)).without (Safety.handed kind w loc x e).id = y.advance := by
    have hkeep : y.ops.filter (fun p => p.id != (Safety.handed kind w loc x e).id) = y.ops :=
      List.filter_eq_self.mpr fun p hp => by simpa using hb.2.2 p hp
    simp [BCtx.without, BCtx.taking, BCtx.advance, hkeep]
  have hdrop := hd.dropOp (Safety.handed kind w loc x e).id
  rw [hleft] at hdrop
  have hend := (hz _ hdrop).strike hrun (Safety.handed kind w loc x e).id
  have hrest : firstReady (z.struck (Safety.handed kind w loc x e).id) [] (z.struck (Safety.handed kind w loc x e).id).ops = none := by
    rw [firstReady_struck, hops, firstReady_congr hhost]
    exact hb.1
  rw [heq, hop, startOps_idle hend.ctx hrest]
  exact hend

end Sys2Proof.Machine
end

section
/-! SUPPORT. The vector unit is settled (R82, R83, R85 to R87, R100, R101). -/

namespace Sys2Proof.Machine

theorem isReduction_iff (op : VSpecOp) : isReduction op = true ↔ op = .sum ∨ op = .max ∨ op = .min := decide_eq_true_iff

section Issued

variable {s : State} {b k : Nat} {x : BCtx} {l : Launch} {e : Dev} (h : Safety.Fetched b s k x l e)
include h

/-! ## Loads and stores (R85) -/

/-- The context as a vector load or store finds it: it is the latest instruction of the vector unit. -/
theorem fetched_latest (w : Nat) : CtxTo e (updCtx k (fun y => { y with lastV := (x.pc, w) }) (updCtx k (fun x => { x with wait := .run }) e)) k
    { x with wait := .run, lastV := (x.pc, w) } := (fetched_ctxTo h).upd _

theorem vload_begins {w : Nat} {bs : List Byte} (hb : Safety.BeginsAt (Safety.handed .vload w 0 x e) x)
    (hr : readScratch k x (x.sreg (fSrc1 w)) (vmemBytes (fmtOf w)) e = .ok bs) :
    CtxTo (readsScratch k x (x.sreg (fSrc1 w)) (vmemBytes (fmtOf w)) (newId e).2)
      (toUnit .vload 0 k w { x with lastV := (x.pc, w) }
        (updCtx k (fun y => { y with lastV := (x.pc, w) }) (updCtx k (fun x => { x with wait := .run }) e))) k
      (((BCtx.advance { x with wait := .run, lastV := (x.pc, w) }).withLanes (fDst w) (lanes (loadElem (fmtOf w) bs))).struck e.bricks.nextHost) := by
  refine toUnit_passes (fetched_latest h w) (fetched_mayBegin h rfl rfl) (beginsAt_congr (by rfl) (by rfl) hb) (fun _ _ _ => nofun)
    (run := runVmem true k x.pc w x) (fun d' => ?_) (fun d' hd => ?_) rfl rfl
  · rfl
  · exact runVmem_load hd hr

theorem vstore_begins {w : Nat} {p : List Byte × Nat} (hb : Safety.BeginsAt (Safety.handed .vstore w 0 x e) x)
    (hp : storeLanes (fmtOf w) (bitOf (fFlags w) 2) (x.vreg (fDst w)) = p) (hw : Safety.WritesAll k x (x.sreg (fSrc1 w)) p.1.length e) :
    CtxTo (clearScratch k x (x.sreg (fSrc1 w)) p.1.length (newId e).2)
      (toUnit .vstore 0 k w { x with lastV := (x.pc, w) }
        (updCtx k (fun y => { y with lastV := (x.pc, w) }) (updCtx k (fun x => { x with wait := .run }) e))) k
      ((((BCtx.advance { x with wait := .run, lastV := (x.pc, w) }).put (x.sreg (fSrc1 w)) p.1).raise p.2).struck e.bricks.nextHost) := by
  refine toUnit_passes (fetched_latest h w) (fetched_mayBegin h rfl rfl) (beginsAt_congr (by rfl) (by rfl) hb) (fun _ _ _ => nofun)
    (run := runVmem false k x.pc w x) (fun d' => ?_) (fun d' hd => ?_) rfl rfl
  · rfl
  · exact runVmem_store hd rfl (onBrick_newId (fetched_onBrick h)) hp (writesAll_newId hw)

end Issued

/-! ## The obligation -/

/-- Settles O19: a vector instruction writes its lanes (`runVector_ctxTo`), whose integers wrap (`laneOp_eq_laneSpec`); a load and a store are done
as they begin (`vload_begins`, `vstore_begins`); a special operation writes lanes or an S register (`runVspec_lanes`, `runVspec_reduction`). -/
theorem vectorInstructions : Obligations.VectorInstructions := by
  refine ⟨?_, ?_⟩
  · intro s b k x l d op word w h hl
    refine ⟨fun hb => issues_stays h hl hb, fun hb hx => ?_⟩
    intro a c e
    refine ⟨_, _, issues_goes h hl hb, (runVector_ctxTo (fetched_ctxTo h) op l).step s, rfl, fun r hr => vreg_withLanes_other _ hr _, fun i hi => ?_⟩
    have hlane : ∀ y : BCtx, (((y.withLanes (fDst w) (lanes (vectorLane op w x))).vectorStep w).vreg (fDst w)).getD i 0 =
        (laneOp op.fn (roundOf w) (bitOf (fFlags w) 2) (a i) (c i) (e i)).1 := by
      intro y
      refine (getD_withLanes y _ _ hi).trans ?_
      rw [vectorLane, getD_broadcast _ _ _ hi]
    have hc : c i < 2 ^ 32 := by
      dsimp only [c]
      split
      · exact Nat.mod_lt _ (by decide)
      · exact hx _ _
    rw [hlane]
    refine ⟨fun v hsat hv => ?_, fun hf => ?_, fun hf => ?_, fun hf => ?_, fun hf => ?_, fun hf => ?_⟩
    · rw [bitOf_fFlags word (by omega), hsat]
      exact laneOp_eq_laneSpec _ _ (hx _ _) hc hv
    all_goals
      rw [hf]
      rfl
  · intro s b k x l e word w a h
    refine ⟨fun hl hb hbegin hsize hpoison => ?_, fun hl hb hbegin => ?_, fun op hl => ⟨fun hb => ?_, fun hb => ?_⟩⟩
    · have hd := vload_begins h hbegin (readScratch_ok hsize hpoison)
      rw [BCtx.struck_eq] at hd
      exact ⟨_, _, issues_goes h hl hb, hd.step s, rfl, rfl, rfl, rfl, fun r hr => vreg_withLanes_other _ hr _, fun i hi => getD_withLanes _ _ _ hi⟩
    · intro bytes hw
      obtain ⟨p, hp⟩ : ∃ p, storeLanes (fmtOf w) (bitOf (fFlags w) 2) (x.vreg (fDst w)) = p := ⟨_, rfl⟩
      have hbytes : bytes = p.1 := congrArg Prod.fst hp
      rw [hbytes] at hw ⊢
      have hd := vstore_begins h hbegin hp hw
      rw [BCtx.struck_eq] at hd
      exact ⟨_, _, issues_goes h hl hb, hd.ctx, rfl, rfl, rfl, rfl, wrote_put (x := x) (y := { x with wait := .run }) rfl rfl _ _,
        others_of_clearScratch hd (fetched_onBrick h)⟩
    · exact issues_stays h hl hb
    · cases hop : isReduction op with
      | true =>
        refine ⟨_, _, issues_goes h hl hb, (runVspec_reduction (fetched_ctxTo h) hop l rfl).step s, ?_⟩
        rw [setS_eq]
        refine ⟨rfl, rfl, fun _ => ⟨rfl, ?_, ?_⟩, fun hn => absurd ((isReduction_iff op).mp hop) hn⟩
        · exact sreg_setS_self _ _ _
        · exact fun r hr => sreg_setS_other _ hr _
      | false =>
        refine ⟨_, _, issues_goes h hl hb, (runVspec_lanes (fetched_ctxTo h) hop l).step s, rfl, rfl, fun hn => ?_, fun _ => ⟨rfl, ?_, ?_⟩⟩
        · exact absurd ((isReduction_iff op).mpr hn) (by simp [hop])
        · exact fun r hr => vreg_withLanes_other _ hr _
        · exact fun i hi => getD_withLanes _ _ _ hi

end Sys2Proof.Machine
end

section
/-! SUPPORT. What the fault of a brick's launch leaves of the repair record (R108, R480): nothing that records the fault, ends the launch or
completes its descriptor with a status other than HOST_LINK_DOWN changes what the device knows of its start and its repairs. -/

namespace Sys2Proof.Machine

/-! ## Lists of changes, corrections and errors -/

theorem each_start {α : Type} {f : α → Dev → Dev} (h : ∀ x d, (f x d).start = d.start) (l : List α) (d : Dev) : (each l f d).start = d.start :=
  List.foldlRecOn (motive := fun a : Dev => a.start = d.start) _ _ rfl fun _ ha x _ => (h x _).trans ha

@[simp] theorem noteCe_start (p : Place) (row sym : Nat) (d : Dev) : (noteCe p row sym d).start = d.start := by
  unfold noteCe
  cases hbmAddr p <;> rfl

@[simp] theorem correct_start (met : Place → Bool) (d : Dev) : (correct met d).start = d.start :=
  each_start (f := fun (s : Place × Nat × Nat) d => noteCe s.1 s.2.1 s.2.2 d) (fun s d => noteCe_start s.1 s.2.1 s.2.2 d) _ _

@[simp] theorem noteUePc_start (n pc : Nat) (d : Dev) : (noteUePc n pc d).start = d.start := rfl

@[simp] theorem noteUe_start (p : Place) (src : Nat) (d : Dev) : (noteUe p src d).start = d.start := by
  unfold noteUe
  dsimp only
  (repeat' split) <;> simp

/-! ## Grants (R46, R47) -/

@[simp] theorem regrant_start (r : Nat) (d : Dev) : (regrant r d).start = d.start := by
  unfold regrant when_
  dsimp only
  (repeat' split) <;> simp

@[simp] theorem returnGrant_start (u : UnitId) (d : Dev) : (returnGrant u d).start = d.start := by simp [returnGrant]

@[simp] theorem idleDdr_start (d : Dev) : (idleDdr d).start = d.start := by
  refine each_start (fun u d => ?_) _ _
  (repeat' split) <;> simp

/-! ## Writes of memories (R148, R187, R386) -/

@[simp] theorem mirrorWrite_start (a : Nat) (l : List Byte) (d : Dev) : (writePieces.mirrorWrite a l d).start = d.start := by
  unfold writePieces.mirrorWrite
  (repeat' split) <;> simp

@[simp] theorem writePieces_start (ps : List (Nat × Nat)) (l : List Byte) (d : Dev) : (writePieces ps l d).1.start = d.start := by
  induction ps generalizing l d with
  | nil => rfl
  | cons p ps ih => exact (ih ..).trans (by simp)

@[simp] theorem sendTx_start (t : LinkTx) (d : Dev) : (sendTx t d).start = d.start := by
  unfold sendTx
  cases t.what with
  | access b id a store => cases store <;> rfl
  | _ => rfl

@[simp] theorem sendLink_start (t : LinkTx) (d : Dev) : (sendLink t d).start = d.start := by
  unfold sendLink
  split <;> simp

@[simp] theorem hostWrite_start (fn a : Nat) (l : List Byte) (d : Dev) : (hostWrite fn a l d).start = d.start := by
  unfold hostWrite hostPut
  split <;> simp

@[simp] theorem ringWrite_start (inst loc a : Nat) (l : List Byte) (d : Dev) : (ringWrite inst loc a l d).start = d.start := by
  unfold ringWrite
  (repeat' split) <;> simp

@[simp] theorem hostRead_start (fn a len : Nat) (why : ReadWhy) (d : Dev) : (hostRead fn a len why d).start = d.start := by simp [hostRead]

@[simp] theorem writeVirt_start (inst ctx va : Nat) (e : Eng) (l : List Byte) (d : Dev) : (writeVirt inst ctx va e l d).start = d.start := by
  unfold writeVirt
  (repeat' split) <;> simp

/-! ## Queues, counters and completion entries (R204, R210, R215 to R217) -/

@[simp] theorem takeCopy_start (q idx : Nat) (l : List Byte) (d : Dev) : (takeCopy q idx l d).start = d.start := by
  unfold takeCopy
  split <;> rfl

@[simp] theorem tryRead_start (q : Nat) (d : Dev) : (tryRead q d).start = d.start := by
  unfold tryRead
  (repeat' split) <;> simp [readsDev]

@[simp] theorem setProducer_start (q p : Nat) (d : Dev) : (setProducer q p d).start = d.start := by
  unfold setProducer
  (repeat' split) <;> simp

@[simp] theorem setCounter_start (idx v : Nat) (d : Dev) : (setCounter idx v d).start = d.start := by
  unfold setCounter
  refine (each_start (fun q d => setProducer_start ..) _ _).trans ?_
  (repeat' split) <;> simp

@[simp] theorem thenCount_start (count : Option (Nat × Nat × Nat)) (d : Dev) : (thenCount count d).start = d.start := by
  unfold thenCount addCounter
  (repeat' split) <;> simp

@[simp] theorem moderate_start (r : Nat) (d : Dev) : (moderate r d).start = d.start := by
  unfold moderate notify raiseVector
  (repeat' split) <;> simp

@[simp] theorem writeEntry_start (r : Nat) (e : Entry) (count : Option (Nat × Nat × Nat)) (d : Dev) : (writeEntry r e count d).start = d.start := by
  unfold writeEntry entryNowhere entrySeen
  (repeat' split) <;> simp

@[simp] theorem drain_start (q n : Nat) (d : Dev) : (drain q n d).start = d.start := by
  fun_induction drain q n d <;> simp [*]

@[simp] theorem finish_start (q idx : Nat) (e : Entry) (d : Dev) : (finish q idx e d).start = d.start := by simp [finish, drainAll]

@[simp] theorem finishNow_start (q idx status result bytes detail : Nat) (d : Dev) : (finishNow q idx status result bytes detail d).start = d.start := by
  unfold finishNow
  (repeat' split) <;> simp [tileEnds]

@[simp] theorem finishDesc_start (q idx status result bytes detail : Nat) (d : Dev) : (finishDesc q idx status result bytes detail d).start = d.start := by
  unfold finishDesc
  (repeat' split) <;> simp [sendFlush]

/-! ## A launch ends by a fault (R108, R130) -/

@[simp] theorem dropLaunch_start (l : Nat) (d : Dev) : (dropLaunch l d).start = d.start := by
  unfold dropLaunch
  split
  · rfl
  · refine (idleDdr_start _).trans (each_start (fun b d => ?_) _ _)
    dsimp only [when_]
    split
    · exact returnGrant_start ..
    · rfl

@[simp] theorem recordFault_start (k : Nat) (x : BCtx) (l : Launch) (f : BFault) (d : Dev) : (recordFault k x l f d).start = d.start := by
  unfold recordFault beatsNow
  (repeat' split) <;> simp [drawFree]

/-- A fault of a brick that is not the link's loss puts no queue into ERROR, and leaves what the device knows of its start. -/
theorem brickFault_start {f : BFault} (hf : causeStatus f.cause f.own ≠ 0xC) (k : Nat) (d : Dev) : (brickFault k f d).start = d.start := by
  unfold brickFault endLaunch
  (repeat' split) <;> simp [hf, when_]

end Sys2Proof.Machine
end

section
/-! SUPPORT. Residue failures and the retirement of bricks (R92 to R96, R483, R484): what a retry that passes, a retirement that is decided, an index
that is lost and a retirement that completes leave of the brick, the repair record and RESIDUE_EVENTS. -/

namespace Sys2Proof.Machine

/-! ## Records, grants and units that stay as they are -/

@[simp] theorem brickRecord_bricks (b unit pair cls ev outcome : Nat) (d : Dev) : (brickRecord b unit pair cls ev outcome d).bricks = d.bricks :=
  logEv_bricks ..

@[simp] theorem brickRecord_start (b unit pair cls ev outcome : Nat) (d : Dev) : (brickRecord b unit pair cls ev outcome d).start = d.start :=
  logEv_start ..

@[simp] theorem brickRecord_regs (b unit pair cls ev outcome : Nat) (d : Dev) : (brickRecord b unit pair cls ev outcome d).regs = d.regs :=
  logEv_regs ..

theorem brickAt_congr {d e : Dev} (h : e.bricks = d.bricks) (b : Nat) : brickAt b e = brickAt b d := by rw [brickAt, h, brickAt]

theorem ctxAt_congr {d e : Dev} (h : e.bricks = d.bricks) (k : Nat) : ctxAt k e = ctxAt k d := by rw [ctxAt, h, ctxAt]

@[simp] theorem returnGrant_bricks (u : UnitId) (d : Dev) : (returnGrant u d).bricks = d.bricks := by
  unfold returnGrant regrant when_
  dsimp only
  (repeat' split) <;> rfl

/-- A brick's grant goes back with no change of RESIDUE_EVENTS. -/
theorem getF_residueEvents_returnGrant {b : Nat} (hb : b < 1024) (hi lo : Nat) (d : Dev) :
    getF .residueEvents (b / 128) 0 hi lo (returnGrant (.brick b) d) = getF .residueEvents (b / 128) 0 hi lo d := by
  have hno : ∀ i < 8, addrOf .residueEvents i 0 ∉ ledgerEventAddrs := by decide
  rw [getF, (LedgerStep.returnGrant (u := .brick b) (List.mem_range.mpr (show b / 128 < 11 by omega)) d).getW (hno _ (by omega)), getF]

/-- Units with nothing that can begin stay as they are. -/
theorem startOps_of_none_ready {k : Nat} {d : Dev} (h : ∀ x, ctxAt k d = some x → firstReady x [] x.ops = none) (n : Nat) : startOps k n d = d := by
  cases hx : ctxAt k d with
  | none => cases n <;> simp [startOps, hx]
  | some x => exact startOps_idle hx (h x hx) n

theorem wakeUnits_of_none_ready {b : Nat} {d : Dev} (h : ∀ k x, (brickAt b d).cur = some k → ctxAt k d = some x → firstReady x [] x.ops = none) :
    wakeUnits b d = d := by
  unfold wakeUnits
  split
  · next k hk => exact startOps_of_none_ready (fun x hx => h k x hk hx) unitFuel
  · rfl

/-! ## The spare of a brick's course (R95, R96) -/

/-- The entries of a table under other keys are those that they were. -/
theorem Tab.any_set_other {α : Type} (t : Tab α) (k : Nat) (v : α) (q : Nat × α → Bool) :
    (Tab.set t k v).any (fun p => p.1 != k && q p) = t.any (fun p => p.1 != k && q p) := by
  induction t with
  | nil => simp [Tab.set]
  | cons p r ih =>
    obtain ⟨a, w⟩ := p
    simp only [Tab.set]
    split
    · rw [List.any_cons, List.any_cons, ih]
    · split
      · next h => simp [h]
      · simp

/-- A brick's own failure promises the spare of its course to no other brick. -/
theorem spareFree_updBrick (b : Nat) (f : Brick → Brick) (d : Dev) : spareFree b (updBrick b f d) = spareFree b d := by
  simp only [spareFree, updBrick, Bool.and_assoc, Tab.any_set_other]

theorem spareFree_congr {d e : Dev} (hs : e.start = d.start) (hb : e.bricks = d.bricks) (b : Nat) : spareFree b e = spareFree b d := by
  simp only [spareFree, hs, hb]

/-! ## A retry ends (R92, R93) -/

/-- A brick whose residue failure is resolved, with a number of retries passed in its slice. -/
def Brick.goesOn (r : Brick) (now passed : Nat) : Brick := { r.resolved now with passed := passed }

/-- The device after a retry that passed is counted and recorded. -/
def retryPassed (b unit pair : Nat) (d : Dev) : Dev :=
  brickRecord b unit pair 1 1 1 (countF .residueEvents (b / 128) 0 31 16 1
    (updBrick b (fun r => r.goesOn (clock (b / 128) d) ((brickAt b d).passed + 1)) d))

theorem retryPassed_bricks (b unit pair : Nat) (d : Dev) : (retryPassed b unit pair d).bricks =
    (updBrick b (fun r => r.goesOn (clock (b / 128) d) ((brickAt b d).passed + 1)) d).bricks := by
  rw [retryPassed, brickRecord_bricks, countF_bricks]

theorem retryPassed_start (b unit pair : Nat) (d : Dev) : (retryPassed b unit pair d).start = d.start := by
  rw [retryPassed, brickRecord_start, countF_start]
  rfl

theorem brickAt_retryPassed (b unit pair : Nat) (d : Dev) :
    brickAt b (retryPassed b unit pair d) = (brickAt b d).goesOn (clock (b / 128) d) ((brickAt b d).passed + 1) :=
  (brickAt_congr (retryPassed_bricks ..) b).trans (brickAt_updBrick_self ..)

theorem ctxAt_retryPassed (b unit pair k : Nat) (d : Dev) : ctxAt k (retryPassed b unit pair d) = ctxAt k d :=
  ctxAt_congr (retryPassed_bricks ..) k

theorem spareFree_retryPassed (b unit pair : Nat) (d : Dev) : spareFree b (retryPassed b unit pair d) = spareFree b d :=
  (spareFree_congr (d := updBrick b (fun r => r.goesOn (clock (b / 128) d) ((brickAt b d).passed + 1)) d) (retryPassed_start b unit pair d)
    (retryPassed_bricks b unit pair d) b).trans (spareFree_updBrick ..)

theorem getF_retryPassed (b unit pair : Nat) (d : Dev) : getF .residueEvents (b / 128) 0 31 16 (retryPassed b unit pair d) =
    min 65535 (getF .residueEvents (b / 128) 0 31 16 d + 1) :=
  (getF_congr (brickRecord_regs ..) ..).trans (getF_countF_self _ (by omega) (by omega))

theorem exec_residueRetryEnd (b : Nat) (pass : Bool) (s : State) : exec (.residueRetryEnd b pass) s =
    .next (if (residueRetryEnd b pass s.dev).2 then programRepair { s with dev := (residueRetryEnd b pass s.dev).1 }
      else { s with dev := (residueRetryEnd b pass s.dev).1 }) := rfl

section Retry

variable {b unit pair k : Nat} {s : State} (hf : (brickAt b s.dev).failing = some (unit, pair, false)) (hk : (brickAt b s.dev).cur = some k)
include hf hk

theorem exec_retry_passed (h : (brickAt b s.dev).passed < 7) (hn : ∀ x, ctxAt k s.dev = some x → firstReady x [] x.ops = none) :
    exec (.residueRetryEnd b true) s = .next { s with dev := retryPassed b unit pair s.dev } := by
  have hstart := startOps_of_none_ready (k := k) (d := retryPassed b unit pair s.dev) (fun x hx => hn x (by rwa [ctxAt_retryPassed] at hx)) unitFuel
  have hend : residueRetryEnd b true s.dev = (startOps k unitFuel (retryPassed b unit pair s.dev), false) := by
    simp only [residueRetryEnd, hf, hk, if_true, if_neg (show (brickAt b s.dev).passed + 1 ≠ 8 by omega)]
    rfl
  rw [exec_residueRetryEnd, hend, hstart]
  rfl

omit hf hk in
/-- The outcome where a retirement is decided on the device `d`. -/
theorem exec_retry_retires {pass : Bool} {d : Dev} {r : Dev × Bool} (h : residueRetryEnd b pass s.dev = retireBrick b unit pair d)
    (hr : retireBrick b unit pair d = r) :
    exec (.residueRetryEnd b pass) s = .next (if r.2 then programRepair { s with dev := r.1 } else { s with dev := r.1 }) := by
  rw [exec_residueRetryEnd, h, hr]

theorem residueRetryEnd_eighth (h : (brickAt b s.dev).passed = 7) :
    residueRetryEnd b true s.dev = retireBrick b unit pair (retryPassed b unit pair s.dev) := by
  simp only [residueRetryEnd, hf, hk, if_true, h]
  rw [retryPassed, h]
  rfl

theorem residueRetryEnd_failed : residueRetryEnd b false s.dev = retireBrick b unit pair s.dev := by
  simp only [residueRetryEnd, hf, hk, Bool.false_eq_true, if_false]

end Retry

/-! ## Retirement is decided (R93, R95, R96) -/

/-- The device with the retirement of a brick decided. -/
def retiringBrick (b unit pair : Nat) (d : Dev) : Dev :=
  updBrick b (fun r => { r with failing := some (unit, pair, true), decided := clock (b / 128) d }) d

theorem retireBrick_spare {b : Nat} {d : Dev} (h : spareFree b d = true) (unit pair : Nat) :
    retireBrick b unit pair d = (retiringBrick b unit pair d, false) := if_pos h

theorem retireBrick_loses {b : Nat} {d : Dev} (h : spareFree b d = false) (unit pair : Nat) (ho : outranked b d = none) :
    retireBrick b unit pair d = (loseBrick b unit pair d, true) := by
  simp [retireBrick, h, ho]

theorem retireBrick_outranked {b c u f : Nat} {d : Dev} (h : spareFree b d = false) (unit pair : Nat) (ho : outranked b d = some (c, u, f)) :
    retireBrick b unit pair d = (loseBrick c u f (retiringBrick b unit pair d), true) := by
  simp [retireBrick, h, ho, retiringBrick]

theorem failing_retiringBrick (b unit pair : Nat) (d : Dev) : (brickAt b (retiringBrick b unit pair d)).failing = some (unit, pair, true) :=
  congrArg Brick.failing (brickAt_updBrick_self ..)

/-- The index of a brick that is lost stands in the record, and the brick holds no context and no rotation position (R484). -/
theorem loseBrick_leaves (b unit pair : Nat) (d : Dev) : b ∈ (loseBrick b unit pair d).start.repair.lost ∧
    (brickAt b (loseBrick b unit pair d)).cur = none ∧ (brickAt b (loseBrick b unit pair d)).rot = [] := by
  refine ⟨?_, ?_, ?_⟩
  · unfold loseBrick
    dsimp only
    rw [returnGrant_start, show ∀ f e, (updBrick b f e).start = e.start from fun _ _ => rfl, each_start (fun k e => ?_)]
    · dsimp only
      split
      · next h => simpa using h
      · simp
    · split
      · exact brickFault_start (by simp [causeStatus]) ..
      · rfl
  · exact congrArg Brick.cur ((brickAt_congr (returnGrant_bricks ..) b).trans (brickAt_updBrick_self ..))
  · exact congrArg Brick.rot ((brickAt_congr (returnGrant_bricks ..) b).trans (brickAt_updBrick_self ..))

/-! ## A retirement completes (R93, R94) -/

/-- The device with the spare of a course in the place of a brick. -/
def withSpare (b : Nat) (d : Dev) : Dev :=
  { d with start := { d.start with repair := { d.start.repair with spares := Tab.set d.start.repair.spares (courseOf b) (b % 16) } } }

/-- The device with the spare in the brick's place, recorded and counted. -/
def spareServes (b unit pair : Nat) (d : Dev) : Dev :=
  brickRecord b unit pair 2 2 1 (countF .residueEvents (b / 128) 0 15 8 1
    (withSpare b (updBrick b (fun r => r.goesOn (clock (b / 128) d) 0) d)))

theorem spareServes_bricks (b unit pair : Nat) (d : Dev) :
    (spareServes b unit pair d).bricks = (updBrick b (fun r => r.goesOn (clock (b / 128) d) 0) d).bricks := by
  rw [spareServes, brickRecord_bricks, countF_bricks]
  rfl

theorem brickAt_spareServes (b unit pair : Nat) (d : Dev) : brickAt b (spareServes b unit pair d) = (brickAt b d).goesOn (clock (b / 128) d) 0 :=
  (brickAt_congr (spareServes_bricks ..) b).trans (brickAt_updBrick_self ..)

theorem ctxAt_spareServes (b unit pair k : Nat) (d : Dev) : ctxAt k (spareServes b unit pair d) = ctxAt k d :=
  ctxAt_congr (spareServes_bricks ..) k

theorem spares_spareServes (b unit pair : Nat) (d : Dev) : Tab.get (spareServes b unit pair d).start.repair.spares (b / 16) = some (b % 16) := by
  rw [spareServes, brickRecord_start, countF_start]
  exact Tab.get_set_self ..

theorem getF_spareServes (b unit pair : Nat) (d : Dev) : getF .residueEvents (b / 128) 0 15 8 (spareServes b unit pair d) =
    min 255 (getF .residueEvents (b / 128) 0 15 8 d + 1) :=
  (getF_congr (brickRecord_regs ..) ..).trans (getF_countF_self _ (by omega) (by omega))

/-- A slice whose context was discarded gives the brick up; otherwise the brick keeps it. -/
theorem endDiscarded_cases (b : Nat) (d : Dev) : endDiscarded b d = d ∨
    endDiscarded b d = returnGrant (.brick b) (updBrick b (fun r => { r with cur := none, late := false }) d) := by
  unfold endDiscarded
  split
  · split
    · exact .inl rfl
    · exact .inr rfl
  · exact .inl rfl

theorem endDiscarded_leaves {b : Nat} (hb : b < 1024) (d : Dev) : (endDiscarded b d).start = d.start ∧
    (brickAt b (endDiscarded b d)).failing = (brickAt b d).failing ∧
    getF .residueEvents (b / 128) 0 15 8 (endDiscarded b d) = getF .residueEvents (b / 128) 0 15 8 d ∧
    ((brickAt b (endDiscarded b d)).cur = none ∨ endDiscarded b d = d) := by
  rcases endDiscarded_cases b d with h | h <;> rw [h]
  · exact ⟨rfl, rfl, rfl, .inr rfl⟩
  · have hbrick := (brickAt_congr (returnGrant_bricks (.brick b) _) b).trans (brickAt_updBrick_self b (fun r => { r with cur := none, late := false }) d)
    exact ⟨returnGrant_start .., by rw [hbrick], getF_residueEvents_returnGrant hb .., .inl (by rw [hbrick])⟩

theorem retirementComplete_eq {b unit pair : Nat} {d : Dev} (hb : b < 1024) (hf : (brickAt b d).failing = some (unit, pair, true))
    (hn : ∀ k x, (brickAt b d).cur = some k → ctxAt k d = some x → firstReady x [] x.ops = none) :
    retirementComplete b d = endDiscarded b (spareServes b unit pair d) := by
  have hwake : wakeUnits b (endDiscarded b (spareServes b unit pair d)) = endDiscarded b (spareServes b unit pair d) := by
    refine wakeUnits_of_none_ready fun k x hk hx => ?_
    rcases (endDiscarded_leaves hb (spareServes b unit pair d)).2.2.2 with h | h
    · rw [h] at hk
      cases hk
    · rw [h, brickAt_spareServes] at hk
      rw [h, ctxAt_spareServes] at hx
      exact hn k x hk hx
  simp only [retirementComplete, hf]
  exact hwake

theorem exec_retirementComplete {b : Nat} {s : State} (h : retireReady b s.dev = true) :
    exec (.retirementComplete b) s = .next (programRepair { s with dev := retirementComplete b s.dev }) := by
  exact congrArg Host.Outcome.next (if_pos h)

/-! ## The obligation -/

/-- Settles O23: a failing brick holds its retry's outcome (`exec_retry_passed`, `exec_retry_retires`), a retirement takes the spare or loses an index
(`retireBrick_spare`, `loseBrick_leaves`), and one that completes puts the spare in the brick's place (`retirementComplete_eq`). -/
theorem residueAndRetirement : Obligations.ResidueAndRetirement := by
  intro s b unit pair hb
  refine ⟨fun hnone hon => ?_, fun k hf hk => ⟨fun hp hn => ?_, fun hp hfree => ?_, fun hfree => ?_, fun hfree ho => ?_, fun c u f hfree ho => ?_⟩,
    fun hf hready hn => ?_⟩
  · have hc : ((brickAt b s.dev).failing.isNone && (((brickAt b s.dev).cur.isSome && holdsGrant (.brick b) s.dev) ||
        (brickAt b s.dev).coming.isSome)) = true := by simpa [hnone] using hon
    exact congrArg (fun d => Host.Outcome.next { s with dev := d }) (if_pos hc)
  · refine ⟨_, exec_retry_passed hf hk hp hn, ?_, ?_, ?_, ?_, getF_retryPassed ..⟩ <;> rw [brickAt_retryPassed]
    · rfl
    · rfl
    · rfl
    · exact hk
  · rw [← spareFree_retryPassed b unit pair] at hfree
    exact ⟨_, exec_retry_retires (residueRetryEnd_eighth hf hk hp) (retireBrick_spare hfree ..), failing_retiringBrick ..,
      congrArg Startup.repair (retryPassed_start ..), getF_retryPassed ..⟩
  · exact ⟨_, exec_retry_retires (residueRetryEnd_failed hf hk) (retireBrick_spare hfree ..), failing_retiringBrick .., rfl, rfl⟩
  · obtain ⟨hlost, hcur, hrot⟩ := loseBrick_leaves b unit pair s.dev
    exact ⟨_, exec_retry_retires (residueRetryEnd_failed hf hk) (retireBrick_loses hfree unit pair ho), hlost, hlost, hcur, hrot⟩
  · obtain ⟨hlost, hcur, hrot⟩ := loseBrick_leaves c u f (retiringBrick b unit pair s.dev)
    exact ⟨_, exec_retry_retires (residueRetryEnd_failed hf hk) (retireBrick_outranked hfree unit pair ho), hlost, hlost, hcur, hrot⟩
  · obtain ⟨hstart, hfailing, hcount, -⟩ := endDiscarded_leaves hb (spareServes b unit pair s.dev)
    have hspare := spares_spareServes b unit pair s.dev
    rw [← hstart] at hspare
    rw [exec_retirementComplete hready, retirementComplete_eq hb hf hn]
    refine ⟨_, rfl, hspare, hspare, ?_, ?_⟩
    · exact hfailing.trans (by rw [brickAt_spareServes]; rfl)
    · exact hcount.trans (getF_spareServes ..)

end Sys2Proof.Machine
end

section
/-! SUPPORT. Scalar instructions (R101, R102, R105, R145, R148): the integers of 64 bits that they compute on, an instruction that ends within its brick's
own context, scalar loads and stores, and a fetch that meets no error. -/

namespace Sys2Proof.Machine

/-! ## Integers of `n` bits (R105) -/

theorem signedOf_eq_toInt_ofNat {n : Nat} (hn : 0 < n) (a : Nat) : signedOf n a = (BitVec.ofNat n a).toInt := by
  rw [signedOf, BitVec.toInt_eq_toNat_cond, BitVec.toNat_ofNat]
  have hiff : a % 2 ^ n < 2 ^ (n - 1) ↔ 2 * (a % 2 ^ n) < 2 ^ n := by
    obtain ⟨m, rfl⟩ : ∃ m, n = m + 1 := ⟨n - 1, by omega⟩
    rw [Nat.add_sub_cancel, Nat.pow_succ]
    omega
  simp only [hiff]

theorem unsignedOf_eq_toNat_ofInt (n : Nat) (v : Int) : unsignedOf n v = (BitVec.ofInt n v).toNat := by
  rw [unsignedOf, BitVec.toNat_ofInt]

theorem fImm_eq_extract (word : Word64) : fImm word.toNat = (word.extractLsb' 0 32).toNat := by
  rw [BitVec.extractLsb'_toNat, Nat.shiftRight_zero, fImm]

theorem signedOf_fImm (word : Word64) : signedOf 32 (fImm word.toNat) = (word.extractLsb' 0 32).toInt := by
  rw [signedOf_eq_toInt_ofNat (by decide), fImm_eq_extract, BitVec.ofNat_toNat, BitVec.setWidth_eq]

/-- The signed immediate of an instruction. -/
theorem fImm64_eq (word : Word64) : fImm64 word.toNat = ((word.extractLsb' 0 32).signExtend 64).toNat := by
  rw [fImm64, unsignedOf_eq_toNat_ofInt, signedOf_fImm]
  rfl

theorem sreg_lt (x : BCtx) (r : Nat) : x.sreg r < 2 ^ 64 := by
  unfold BCtx.sreg
  split
  · decide
  · exact Nat.mod_lt _ (by decide)

theorem toNat_sreg (x : BCtx) (r : Nat) : (BitVec.ofNat 64 (x.sreg r)).toNat = x.sreg r := by
  rw [BitVec.toNat_ofNat, Nat.mod_eq_of_lt (sreg_lt x r)]

/-- The second operand of a scalar operation, as a word. -/
def operandWord (word : Word64) (x : BCtx) : BitVec 64 :=
  if word.getLsbD 48 then (word.extractLsb' 0 32).signExtend 64 else BitVec.ofNat 64 (x.sreg (fSrc2 word.toNat))

theorem operand2_eq (word : Word64) (x : BCtx) : operand2 word.toNat x = (operandWord word x).toNat := by
  rw [operand2, operandWord, bitOf_fFlags word (by decide), fImm64_eq]
  split
  · rfl
  · exact (toNat_sreg ..).symm

theorem compare64_eq_compareBits (c : Cmp) (a b : BitVec 64) : compare64 c a.toNat b.toNat = Safety.compareBits c a b := by
  cases c <;> simp only [compare64, Safety.compareBits, signedOf_eq_toInt_ofNat (n := 64) (by decide), BitVec.ofNat_toNat, BitVec.setWidth_eq]
  case eq => rw [Bool.eq_iff_iff]; simp [BitVec.toNat_inj]
  case ne => rw [Bool.eq_iff_iff]; simp [BitVec.toNat_inj]
  case lt => rw [BitVec.slt_eq_decide]
  case ge => rw [BitVec.sle_eq_decide]
  case ltu => rw [BitVec.ult_eq_decide]
  case geu => rw [BitVec.ule_eq_decide]

theorem shift64_sar (a : BitVec 64) {n : Nat} (h : n < 64) : shift64 .sar a.toNat n = some (a.sshiftRight n).toNat := by
  refine (if_neg (Nat.not_le.mpr h)).trans (congrArg some ?_)
  rw [unsignedOf_eq_toNat_ofInt, signedOf_eq_toInt_ofNat (by decide), BitVec.ofNat_toNat, BitVec.setWidth_eq,
    ← Int.shiftRight_eq_div_pow, ← BitVec.toInt_sshiftRight, BitVec.ofInt_toInt]

/-- A scalar operation on registers computes what the spec says of its operands (R105). -/
theorem scalarValue_eq_scalarSpec {op : ScalarOp} {word : Word64} {x : BCtx} {v : BitVec 64}
    (h : Safety.scalarSpec op (BitVec.ofNat 64 (x.sreg (fSrc1 word.toNat))) (operandWord word x) = some v) :
    scalarValue op word.toNat x = some v.toNat := by
  have ha := toNat_sreg x (fSrc1 word.toNat)
  have hc := operand2_eq word x
  unfold scalarValue
  generalize BitVec.ofNat 64 (x.sreg (fSrc1 word.toNat)) = a at *
  generalize operandWord word x = c at *
  rw [hc, ← ha]
  cases op <;> simp only [Safety.scalarSpec, Option.some.injEq, reduceCtorEq, Option.ite_none_right_eq_some] at h
  case add => rw [← h, BitVec.toNat_add]
  case sub => rw [← h, BitVec.toNat_sub, ← Nat.sub_add_comm c.isLt.le, Nat.add_comm (2 ^ 64)]
  case mul => rw [← h, BitVec.toNat_mul]
  case and => rw [← h, BitVec.toNat_and]; rfl
  case or => rw [← h, BitVec.toNat_or]; rfl
  case xor => rw [← h, BitVec.toNat_xor]; rfl
  case shl => rw [← h.2, BitVec.toNat_shiftLeft, Nat.shiftLeft_eq]; exact if_neg (Nat.not_le.mpr h.1)
  case shr => rw [← h.2, BitVec.toNat_ushiftRight, Nat.shiftRight_eq_div_pow]; exact if_neg (Nat.not_le.mpr h.1)
  case sar => rw [← h.2]; exact shift64_sar a h.1
  case compare k =>
    rw [← h, apply_ite BitVec.toNat, ← compare64_eq_compareBits]
    rfl

/-! ## An instruction that ends within its context (R102) -/

theorem CtxTo.retire {d e : Dev} {k : Nat} {y : BCtx} (h : CtxTo d e k y) (f : BCtx → BCtx) : CtxTo d (retire k f e) k (f y).advance := h.upd _

/-- A context that wrote an S register and runs past its instruction. -/
theorem advance_setS (x : BCtx) (r v : Nat) : (({ x with wait := .run } : BCtx).setS r v).advance =
    { x.setS r v with pc := (x.pc + 8) % 2 ^ 56, wait := .run } := by
  unfold BCtx.setS
  split <;> rfl

theorem setS_mod (x : BCtx) (r v : Nat) : x.setS r (v % 2 ^ 64) = x.setS r v := by
  unfold BCtx.setS
  rw [Nat.mod_mod]

/-- Only a load and a store wait for scratch. -/
theorem scalarBusy_of_registers {op : ScalarOp} (hl : op ≠ .load) (hs : op ≠ .store) (w : Nat) (x : BCtx) : scalarBusy op w x = false := by
  unfold scalarBusy
  split
  · exact absurd rfl hl
  · exact absurd rfl hs
  · rfl

theorem getElem_natLE {n i : Nat} (v : Nat) (h : i < (natLE n v).length) : (natLE n v)[i] = BitVec.ofNat 8 (v / 256 ^ i) := by
  induction n generalizing v i with
  | zero => exact absurd h (Nat.not_lt_zero i)
  | succ n ih =>
    cases i with
    | zero => simp [natLE]
    | succ i =>
      simp only [natLE, List.getElem_cons_succ]
      rw [ih, Nat.div_div_eq_div_mul, Nat.pow_succ, Nat.mul_comm 256]

/-- Does a place keep its poison when a range of a brick's scratch is written? -/
def keptBy (b off n : Nat) (p : Place) : Bool :=
  match p with
  | .scratch c x => !(c == b && (decide (off ≤ x) && decide (x + 16 ≤ off + n)))
  | _ => true

theorem clearScratch_eq {k : Nat} {x : BCtx} {d : Dev} (hon : onBrick k x d = true) (off n : Nat) : clearScratch k x off n d =
    { d with tiers := { d.tiers with
      poison := d.tiers.poison.filter (keptBy x.brick off n), logged := d.tiers.logged.filter (keptBy x.brick off n),
      soft := d.tiers.soft.filter (fun s => keptBy x.brick off n s.1) } } := by
  rw [clearScratch, if_pos hon]
  rfl

/-- A write of fewer bytes than a codeword's replaces no codeword whole, and clears no poison. -/
theorem clearScratch_short {k n : Nat} {x : BCtx} {d : Dev} (hon : onBrick k x d = true) (off : Nat) (hn : n < 16) : clearScratch k x off n d = d := by
  have hkeep : ∀ p, keptBy x.brick off n p = true := by
    intro p
    unfold keptBy
    split
    · rw [Bool.not_eq_true', Bool.and_eq_false_iff, Bool.and_eq_false_iff, decide_eq_false_iff_not, decide_eq_false_iff_not]
      omega
    · rfl
  rw [clearScratch_eq hon, List.filter_eq_self.mpr fun p _ => hkeep p, List.filter_eq_self.mpr fun p _ => hkeep p,
    List.filter_eq_self.mpr fun s _ => hkeep s.1]

section Issued

variable {s : State} {b k : Nat} {x : BCtx} {l : Launch} {e : Dev} (h : Safety.Fetched b s k x l e)
include h

/-- An instruction that writes an S register and no more. -/
theorem fetched_writesS (r v : Nat) : CtxTo e (retire k (fun y => y.setS r v) (updCtx k (fun x => { x with wait := .run }) e)) k
    { x.setS r v with pc := (x.pc + 8) % 2 ^ 56, wait := .run } :=
  advance_setS x r v ▸ (fetched_ctxTo h).retire fun y => y.setS r v

/-! ## Scalar loads and stores (R101, R148) -/

theorem exec_scalar_load {word : Word64} (hleg : scalarLegal .load word.toNat x l = true) (hfree : rangeHeld x x.ops [(scalarAddr word.toNat x, 8)] [] = false)
    {bs : List Byte} (hr : readScratch k x (scalarAddr word.toNat x) 8 e = .ok bs) :
    ∃ t, exec (.scalarInstruction b .load word) s = .next t ∧ Safety.CtxStep s (readsScratch k x (scalarAddr word.toNat x) 8 e) t k
      { x.setS (fDst word.toNat) (leNat bs) with pc := (x.pc + 8) % 2 ^ 56, wait := .run } := by
  refine ⟨_, issues_goes h hleg hfree, ?_⟩
  have hread := ((fetched_ctxTo h).frame (readScratch k x (scalarAddr word.toNat x) 8) fun _ => rfl).trans hr
  simp only [runScalar, hread]
  rw [← advance_setS]
  exact (((fetched_ctxTo h).readsScratch x _ 8).retire fun y => y.setS (fDst word.toNat) (leNat bs)).step s

theorem exec_scalar_store {word : Word64} (hleg : scalarLegal .store word.toNat x l = true) (hfree : rangeHeld x x.ops [] [(scalarAddr word.toNat x, 8)] = false)
    (hw : Safety.WritesAll k x (scalarAddr word.toNat x) 8 e) :
    ∃ t, exec (.scalarInstruction b .store word) s = .next t ∧
      Safety.CtxStep s e t k (({ x with wait := .run } : BCtx).put (scalarAddr word.toNat x) (natLE 8 (x.sreg (fSrc2 word.toNat)))).advance := by
  refine ⟨_, issues_goes h hleg hfree, ?_⟩
  obtain ⟨hnone, hput⟩ := writeScratch_all (l := natLE 8 (x.sreg (fSrc2 word.toNat))) (fetched_ctxTo h) (x := x) rfl (fetched_onBrick h) hw
  rw [clearScratch_short (fetched_onBrick h) _ (by rw [natLE_length]; decide)] at hput
  simp only [runScalar, hnone]
  exact (hput.retire id).step s

variable {op : ScalarOp} {word : Word64} (hleg : scalarLegal op word.toNat x l = true)
include hleg

theorem exec_scalar_value (hl : op ≠ .load) (hs : op ≠ .store) {v : Nat} (hv : scalarValue op word.toNat x = some v) :
    ∃ t, exec (.scalarInstruction b op word) s = .next t ∧
      Safety.CtxStep s e t k { x.setS (fDst word.toNat) v with pc := (x.pc + 8) % 2 ^ 56, wait := .run } := by
  refine ⟨_, issues_goes h hleg (scalarBusy_of_registers hl hs ..), ?_⟩
  have hrun : runScalar op k word.toNat x l = retire k (fun y => y.setS (fDst word.toNat) v) := by
    funext d
    unfold runScalar
    split
    · exact absurd rfl hl
    · exact absurd rfl hs
    · rw [hv]
  rw [hrun]
  exact (fetched_writesS h ..).step s

/-- A result that the spec leaves open is drawn. -/
theorem exec_scalar_free (hl : op ≠ .load) (hs : op ≠ .store) (hv : scalarValue op word.toNat x = none) :
    ∃ t v, exec (.scalarInstruction b op word) s = .next t ∧ Safety.CtxStep s { e with free := e.free + 1 } t k
      { x.setS (fDst word.toNat) (v : BitVec 64).toNat with pc := (x.pc + 8) % 2 ^ 56, wait := .run } := by
  refine ⟨_, BitVec.ofNat 64 (Config.freeValue e.free), issues_goes h hleg (scalarBusy_of_registers hl hs ..), ?_⟩
  have hrun : ∀ d, runScalar op k word.toNat x l d =
      retire k (fun y => y.setS (fDst word.toNat) (Config.freeValue d.free)) { d with free := d.free + 1 } := by
    intro d
    unfold runScalar
    split
    · exact absurd rfl hl
    · exact absurd rfl hs
    · rw [hv]
      rfl
  have hd : CtxTo { e with free := e.free + 1 } { updCtx k (fun x => { x with wait := .run }) e with free := e.free + 1 } k { x with wait := .run } :=
    (fetched_ctxTo h).apply (f := fun d => { d with free := d.free + 1 }) (fun _ => rfl) rfl
  rw [hrun, BitVec.toNat_ofNat, setS_mod, ← advance_setS]
  exact (hd.retire fun y => y.setS (fDst word.toNat) (Config.freeValue e.free)).step s

end Issued

/-! ## A fetch that meets nothing (R100, R145, R172) -/

theorem correct_of_sound {d : Dev} (h : d.tiers.soft = []) (met : Place → Bool) : correct met d = d := by
  have hsame : { d with tiers := { d.tiers with soft := [] } } = d := by rw [← h]
  rw [correct, h]
  exact hsame

/-- The device `e` is `d` but for the translations in the caches. -/
def SameButCache (d e : Dev) : Prop := e = { d with xl := { d.xl with cache := e.xl.cache } }

theorem fillCache_frame (ctx : Nat) (e : Eng) (r : XRes) (d : Dev) : SameButCache d (fillCache ctx e r d) := by
  unfold fillCache each
  refine List.foldlRecOn (motive := SameButCache d) _ _ rfl fun a ha t _ => ?_
  dsimp only
  split
  · exact ha
  · rw [ha]
    rfl

theorem fillAt_frame {d : Dev} (h : d.tiers.soft = []) (ctx va : Nat) (k : Kind) (e : Eng) : SameButCache d (fillAt ctx va k e d) := by
  have hwalk : walked ctx va e d = d := by
    unfold walked
    split
    · rfl
    · split
      · rfl
      · exact correct_of_sound h _
  rw [fillAt, hwalk]
  exact fillCache_frame ..

/-- A fetch of a context that counts no accesses, where no error waits to be found. -/
theorem fetched_frame {s : State} {b k : Nat} {x y : BCtx} {l : Launch} {e : Dev} (h : Safety.Fetched b s k x l e) (hs : s.dev.tiers.soft = [])
    (hk : (brickAt b s.dev).cur = some k) (hy : ctxAt k s.dev = some y) (ho : y.ops = [])
    (hm : ∀ c, Tab.get s.dev.xl.ctxs l.ctx = some c → c.mode ≠ 1) : SameButCache s.dev e := by
  have hwake : wakeUnits b s.dev = s.dev := wakeUnits_of_none_ready fun j z hj hz => by
    rw [hk] at hj
    cases hj
    rw [hy] at hz
    cases hz
    rw [ho]
    rfl
  obtain ⟨-, -, lfn, off, base, size, perm, seg, a, bs, -, -, -, rfl, -⟩ := h
  rw [hwake]
  have hfill := fillAt_frame hs l.ctx x.pc .fetch (.fetch b)
  generalize fillAt l.ctx x.pc .fetch (.fetch b) s.dev = d at hfill ⊢
  have hcount : countFetch l.ctx lfn b d = d := by
    refine if_neg fun hc => ?_
    rw [hfill] at hc
    cases hx : Tab.get s.dev.xl.ctxs l.ctx with
    | none => simp [hx] at hc
    | some c => exact hm c hx (by simpa [hx] using hc)
  rw [hcount, readsDev, correct_of_sound (by rw [hfill]; exact hs)]
  exact hfill

end Sys2Proof.Machine
end

section
/-! SUPPORT. Scalar instructions are settled (R101, R102, R105, R145, R148). -/

namespace Sys2Proof.Machine

theorem scalarSpec_of_memory {op : ScalarOp} (h : op = .load ∨ op = .store) (a c : BitVec 64) : Safety.scalarSpec op a c = none := by
  rcases h with rfl | rfl <;> rfl

theorem scalarValue_of_shift {op : ScalarOp} (h : op = .shl ∨ op = .shr ∨ op = .sar) (w : Nat) (x : BCtx) :
    scalarValue op w x = shift64 op (x.sreg (fSrc1 w)) (operand2 w x) := by
  rcases h with rfl | rfl | rfl <;> rfl

theorem shift64_of_le (op : ScalarOp) (a : Nat) {n : Nat} (h : 64 ≤ n) : shift64 op a n = none := if_pos h

/-- Settles O14: an operation on registers writes what the spec says of its operands (`scalarValue_eq_scalarSpec`, `exec_scalar_value`), or draws what
the spec leaves open (`exec_scalar_free`); a load and a store (`exec_scalar_load`, `exec_scalar_store`); the fetch (`fetched_frame`). -/
theorem scalarInstructions : Obligations.ScalarInstructions := by
  refine ⟨?_, ?_, ?_⟩
  · intro s b k x l e op word h hleg a c next
    refine ⟨fun v hv => ?_, ?_, fun hop hc => ?_⟩
    · have hmem : ¬(op = .load ∨ op = .store) := fun ho => by
        rw [scalarSpec_of_memory ho] at hv
        cases hv
      rw [not_or] at hmem
      exact exec_scalar_value h hleg hmem.1 hmem.2 (scalarValue_eq_scalarSpec hv)
    · rintro rfl
      exact exec_scalar_value h hleg nofun nofun (congrArg some (fImm64_eq word))
    · have hnone : scalarValue op word.toNat x = none := by
        rw [scalarValue_of_shift hop, operand2_eq]
        exact shift64_of_le _ _ hc
      have hmem : op ≠ .load ∧ op ≠ .store := by rcases hop with rfl | rfl | rfl <;> exact ⟨nofun, nofun⟩
      exact exec_scalar_free h hleg hmem.1 hmem.2 hnone
  · intro s b k x l e word h a hsize hpoison
    refine ⟨fun hleg => ⟨fun hfree => ?_, fun hheld => issues_stays h hleg hheld⟩, fun hleg => ⟨fun hfree => ?_, fun hheld => issues_stays h hleg hheld⟩⟩
    · exact exec_scalar_load h hleg hfree (readScratch_ok hsize hpoison)
    · have hw : Safety.WritesAll k x a 8 e := ⟨hsize, fun c hc => (hpoison c hc).imp_right .inl⟩
      obtain ⟨t, ht, hstep⟩ := exec_scalar_store h hleg hfree hw
      obtain ⟨hin, hout⟩ := wrote_put (x := x) (y := { x with wait := .run }) rfl rfl a (natLE 8 (x.sreg (fSrc2 word.toNat)))
      rw [natLE_length] at hout
      refine ⟨t, _, ht, hstep, rfl, fun i hi => ?_, hout⟩
      have hlen : i < (natLE 8 (x.sreg (fSrc2 word.toNat))).length := by rwa [natLE_length]
      exact (hin i hlen).trans (getElem_natLE _ hlen)
  · intro s b k x y l e h hs hk hy ho hm
    exact fetched_frame h hs hk hy ho hm

end Sys2Proof.Machine
end

section
/-! SUPPORT. Branches, the system instructions and END (R84, R102, R105, R125). -/

namespace Sys2Proof.Machine

/-! ## Branches (R105) -/

/-- The address that a branch's offset names, as a word of 56 bits. -/
theorem branchTarget_eq (word : Word64) (x : BCtx) :
    branchTarget word.toNat x = (BitVec.ofNat 56 x.pc + 8 * (word.extractLsb' 0 32).signExtend 56).toNat := by
  rw [branchTarget, unsignedOf_eq_toNat_ofInt, signedOf_fImm, BitVec.ofInt_add, BitVec.ofInt_mul, BitVec.ofInt_natCast, BitVec.signExtend]
  rfl

/-- The context after each of the branches, as the spec says it (R105). -/
theorem branched_branch (word : Word64) (x : BCtx) : branched .branch word.toNat x =
    { x with pc := if Safety.compareBits (branchCmp word.toNat) (BitVec.ofNat 64 (x.sreg (fSrc1 word.toNat))) (BitVec.ofNat 64 (x.sreg (fSrc2 word.toNat)))
        then branchTarget word.toNat x else (x.pc + 8) % 2 ^ 56 } := by
  rw [← compare64_eq_compareBits, toNat_sreg, toNat_sreg]
  rfl

/-- A counted loop's count, as a word. -/
def loopCount (word : Word64) (x : BCtx) : BitVec 64 :=
  BitVec.ofNat 64 (x.sreg (fSrc1 word.toNat)) - 1

theorem loopCount_toNat (word : Word64) (x : BCtx) : (x.sreg (fSrc1 word.toNat) + 2 ^ 64 - 1) % 2 ^ 64 = (loopCount word x).toNat := by
  rw [loopCount, BitVec.toNat_sub, toNat_sreg, Nat.add_comm, Nat.sub_add_comm (by decide)]
  rfl

theorem branched_loop (word : Word64) (x : BCtx) : branched .loop word.toNat x =
    { x.setS (fSrc1 word.toNat) (loopCount word x).toNat with
      pc := if loopCount word x ≠ 0 then branchTarget word.toNat x else (x.pc + 8) % 2 ^ 56 } := by
  have hz : loopCount word x ≠ 0 ↔ (loopCount word x).toNat ≠ 0 := by rw [Ne, ← BitVec.toNat_inj]; rfl
  simp only [branched, loopCount_toNat, hz]

/-- A write of an S register leaves the wait, and a change of the wait leaves the registers. -/
theorem setS_wait (x : BCtx) (r v : Nat) (w : BWait) : ({ x with wait := w } : BCtx).setS r v = { x.setS r v with wait := w } := by
  unfold BCtx.setS
  split <;> rfl

/-! ## A grant that has returned (R46) -/

/-- The governor's pass grants nothing to a unit that does not ask. -/
theorem grantPass_grants {u : UnitId} (d : Dev) (l : List GrantWait) (hl : ∀ w ∈ l, w.req.unit ≠ u) : ∀ (kept : List GrantWait) (shut : List Nat) (r : Rail),
    (∀ g ∈ r.grants, g.unit ≠ u) → ∀ g ∈ (grantPass d l kept shut r).1.grants, g.unit ≠ u := by
  induction l with
  | nil => exact fun _ _ _ h => h
  | cons w l ih =>
    obtain ⟨hw, hrest⟩ := List.forall_mem_cons.mp hl
    intro kept shut r h
    unfold grantPass
    split_ifs
    · exact h
    · exact ih hrest _ _ _ h
    · exact ih hrest _ _ _ h
    · exact ih hrest _ _ _ (List.forall_mem_append.mpr ⟨h, List.forall_mem_singleton.mpr hw⟩)
    · exact ih hrest _ _ _ h

theorem railAt_of_no_rail {r : Nat} {d : Dev} (h : ¬r < d.pwr.rails.length) : railAt r d = Rail.start r :=
  List.getD_eq_default _ _ (Nat.not_lt.mp h)

theorem regrant_grants {u : UnitId} {r : Nat} {d : Dev} (hg : ∀ g ∈ (railAt r d).grants, g.unit ≠ u) (hw : ∀ w ∈ (railAt r d).waiting, w.req.unit ≠ u) :
    ∀ g ∈ (railAt r (regrant r d)).grants, g.unit ≠ u := by
  by_cases hr : r < d.pwr.rails.length
  · have hpass := grantPass_grants d (railAt r d).waiting hw [] [] (railAt r d) hg
    unfold regrant when_
    dsimp only
    split_ifs
    · rw [railAt_setBit, railAt_updRail_self hr]
      exact hpass
    · rw [railAt_updRail_self hr]
      exact hpass
    · exact hg
  · rw [railAt_of_no_rail (by rwa [length_rails_regrant])]
    exact fun _ h => absurd h List.not_mem_nil

/-- A unit that has returned its grant holds none. -/
theorem returnGrant_grants (u : UnitId) (d : Dev) : ∀ g ∈ (railAt (railOf u) (returnGrant u d)).grants, g.unit ≠ u := by
  by_cases hr : railOf u < d.pwr.rails.length
  · refine regrant_grants ?_ ?_ <;> rw [railAt_updRail_self hr] <;> intro g hg <;> simpa using (List.mem_filter.mp hg).2
  · rw [railAt_of_no_rail (by rwa [length_rails_returnGrant])]
    exact fun _ h => absurd h List.not_mem_nil

/-! ## END (R125) -/

@[simp] theorem ctxAt_updBrick (k b : Nat) (f : Brick → Brick) (d : Dev) : ctxAt k (updBrick b f d) = ctxAt k d := rfl

@[simp] theorem brickAt_updCtx (b k : Nat) (f : BCtx → BCtx) (d : Dev) : brickAt b (updCtx k f d) = brickAt b d := rfl

theorem leaveBrick_bricks {k : Nat} {x : BCtx} {d : Dev} (hx : ctxAt k d = some x) : ∃ q,
    (leaveBrick k d).bricks = (updBrick x.brick (fun r => { r with cur := none })
      (updCtx k (fun y => { y with poison := poisonOf k x d, recorded := q }) d)).bricks ∧ (leaveBrick k d).pwr = d.pwr := by
  simp only [leaveBrick, hx]
  exact ⟨(poisonOf k x d).filter fun off => d.tiers.logged.contains (.scratch x.brick off), rfl, rfl⟩

/-- A context that leaves its brick takes the poison of its scratch with it. -/
theorem leaveBrick_leaves {k : Nat} {x : BCtx} {d : Dev} (hx : ctxAt k d = some x) : ∃ p q,
    ctxAt k (leaveBrick k d) = some { x with poison := p, recorded := q } ∧
    brickAt x.brick (leaveBrick k d) = { brickAt x.brick d with cur := none } ∧ (leaveBrick k d).pwr = d.pwr := by
  obtain ⟨q, hbricks, hpwr⟩ := leaveBrick_bricks hx
  refine ⟨poisonOf k x d, q, ?_, ?_, hpwr⟩
  · rw [ctxAt_congr hbricks, ctxAt_updBrick, ctxAt_updCtx_self, hx]
    rfl
  · rw [brickAt_congr hbricks, brickAt_updBrick_self]
    rfl

theorem runEnd_leaves {k : Nat} {x y : BCtx} {d : Dev} (hx : ctxAt k d = some y) (hb : y.brick = x.brick) : ∃ p q,
    ctxAt k (runEnd k x d) = some { y with wait := .ended, poison := p, recorded := q } ∧
    brickAt x.brick (runEnd k x d) = { brickAt x.brick d with cur := none, rot := (brickAt x.brick d).rot.filter (fun j => j != k) } ∧
    ∀ g ∈ (railAt (x.brick / 128) (runEnd k x d)).grants, g.unit ≠ .brick x.brick := by
  obtain ⟨p, q, hctx, hbrick, -⟩ := leaveBrick_leaves (d := updCtx k (fun x => { x with wait := .ended }) d) ((ctxAt_updCtx_self ..).trans (congrArg _ hx))
  refine ⟨p, q, ?_, ?_, returnGrant_grants (.brick x.brick) _⟩
  · rw [runEnd, ctxAt_congr (returnGrant_bricks ..)]
    exact hctx
  · rw [runEnd, brickAt_congr (returnGrant_bricks ..), brickAt_updBrick_self, ← hb]
    rw [hbrick]
    rfl

section Issued

variable {s : State} {b k : Nat} {x : BCtx} {l : Launch} {e : Dev} (h : Safety.Fetched b s k x l e)
include h

theorem exec_branch {op : BranchOp} {word : Word64} (hleg : branchLegal op word.toNat x l = true) :
    ∃ t, exec (.branch b op word) s = .next t ∧ Safety.CtxStep s e t k (branched op word.toNat { x with wait := .run }) :=
  ⟨_, issues_goes h hleg rfl, ((fetched_ctxTo h).upd (branched op word.toNat)).step s⟩


/-! ## Reading and clearing (R84, R102) -/

theorem exec_readFlags {word : Word64} (hleg : sysLegal false word.toNat x l = true) : ∃ t, exec (.readFlags b word) s = .next t ∧
    Safety.CtxStep s e t k { x.setS (fDst word.toNat) x.flags with pc := (x.pc + 8) % 2 ^ 56, wait := .run } :=
  ⟨_, issues_goes h hleg rfl, (fetched_writesS h ..).step s⟩

theorem exec_clearFlags {word : Word64} (hleg : sysLegal false word.toNat x l = true) : ∃ t, exec (.clearFlags b word) s = .next t ∧
    Safety.CtxStep s e t k { x with flags := 0, pc := (x.pc + 8) % 2 ^ 56, wait := .run } :=
  ⟨_, issues_goes h hleg rfl, ((fetched_ctxTo h).retire fun y => { y with flags := 0 }).step s⟩

theorem exec_readBeatCount {word : Word64} (hleg : sysLegal false word.toNat x l = true) (beats : Nat) : ∃ t, exec (.readBeatCount b beats word) s = .next t ∧
    Safety.CtxStep s e t k { x.setS (fDst word.toNat) (x.beats + beats) with pc := (x.pc + 8) % 2 ^ 56, wait := .run } :=
  ⟨_, issues_goes h hleg rfl, (fetched_writesS h ..).step s⟩

theorem exec_endProgram {word : Word64} (hleg : sysLegal true word.toNat x l = true) : ∃ d, exec (.endProgram b word) s = .next { s with dev := d } ∧
    (∃ p q, ctxAt k d = some { x with wait := .ended, poison := p, recorded := q }) ∧
    brickAt b d = { brickAt b e with cur := none, rot := (brickAt b e).rot.filter (fun j => j != k) } ∧
    ∀ g ∈ (railAt (b / 128) d).grants, g.unit ≠ .brick b := by
  obtain ⟨p, q, hctx, hbrick, hgrants⟩ := runEnd_leaves (x := x) (fetched_ctxTo h).ctx rfl
  have hb : x.brick = b := h.2.1
  subst hb
  exact ⟨_, issues_goes h hleg rfl, ⟨p, q, hctx⟩, hbrick, hgrants⟩

end Issued

/-- Settles O15: a branch moves the program counter of its context (`exec_branch`), the flags and the beat count are read and cleared
(`exec_readFlags`, `exec_clearFlags`, `exec_readBeatCount`), and END frees the brick (`exec_endProgram`). -/
theorem branchesAndSystem : Obligations.BranchesAndSystem := by
  refine ⟨?_, ?_⟩
  · intro s b k x l e op word h hleg hpc a c past there
    have hthere : there = branchTarget word.toNat x := (branchTarget_eq word x).symm
    obtain ⟨t, ht, hstep⟩ := exec_branch h hleg
    refine ⟨t, ht, ?_, ?_, ?_, ?_, ?_⟩ <;> rintro rfl
    · rw [hthere]
      exact hstep
    · rw [branched_branch] at hstep
      rw [hthere]
      exact hstep
    · rw [hthere]
      simp only [branched, setS_wait] at hstep
      exact hstep
    · exact hstep
    · rw [branched_loop] at hstep
      simp only [setS_wait] at hstep
      rw [hthere]
      exact hstep
  · intro s b k x l e word h w on
    refine ⟨fun hleg => ⟨exec_readFlags h hleg, exec_clearFlags h hleg, exec_readBeatCount h hleg⟩, fun hleg => ?_⟩
    obtain ⟨d, ht, ⟨p, q, hctx⟩, hbrick, hgrants⟩ := exec_endProgram h hleg
    refine ⟨_, _, ht, hctx, rfl, rfl, rfl, ?_, ?_, ?_, hgrants⟩
    · rw [hbrick]
    · rw [hbrick]
      simp
    · rw [hbrick]
      exact fun j hj hne => List.mem_filter.mpr ⟨hj, by simpa using hne⟩

end Sys2Proof.Machine
end

section
/-! SUPPORT. What leaves the bricks alone (R125, R206, R210, R217, R218, R252, R331): no write of a memory, no counter, queue or ring, no message and
no transaction of the host link changes a context or a launch. -/

namespace Sys2Proof.Machine

/-! ## Lists of changes, corrections and errors -/

theorem each_bricks {α : Type} {f : α → Dev → Dev} (h : ∀ x d, (f x d).bricks = d.bricks) (l : List α) (d : Dev) : (each l f d).bricks = d.bricks :=
  List.foldlRecOn (motive := fun a : Dev => a.bricks = d.bricks) _ _ rfl fun _ ha x _ => (h x _).trans ha

theorem when_bricks {f : Dev → Dev} (h : ∀ d, (f d).bricks = d.bricks) (c : Bool) (d : Dev) : (when_ c f d).bricks = d.bricks := by
  unfold when_
  split
  · exact h d
  · rfl

@[simp] theorem readsDev_bricks (ps : List (Nat × Nat)) (d : Dev) : (readsDev ps d).bricks = d.bricks := correct_bricks ..

@[simp] theorem readsSome_bricks (f : Place → Bool) (d : Dev) : (readsSome f d).bricks = d.bricks := by
  unfold readsSome
  dsimp only
  split
  · rfl
  · exact correct_bricks ..

@[simp] theorem noteUePc_bricks (n pc : Nat) (d : Dev) : (noteUePc n pc d).bricks = d.bricks := rfl

@[simp] theorem noteUe_bricks (p : Place) (src : Nat) (d : Dev) : (noteUe p src d).bricks = d.bricks := by
  unfold noteUe
  dsimp only
  (repeat' split) <;> simp

/-! ## Grants (R46, R47) -/

@[simp] theorem regrant_bricks (r : Nat) (d : Dev) : (regrant r d).bricks = d.bricks := by
  unfold regrant when_
  dsimp only
  (repeat' split) <;> simp

@[simp] theorem requestGrant_bricks (g : Grant) (d : Dev) : (requestGrant g d).bricks = d.bricks := regrant_bricks ..

@[simp] theorem wantGrant_bricks (u : UnitId) (cost : Nat) (inst : Option Nat) (d : Dev) : (wantGrant u cost inst d).bricks = d.bricks := by
  unfold wantGrant
  split <;> simp

@[simp] theorem idleDdr_bricks (d : Dev) : (idleDdr d).bricks = d.bricks := by
  refine each_bricks (fun u d => ?_) _ _
  (repeat' split) <;> simp

/-! ## Writes of memories (R148, R187, R386) -/

@[simp] theorem mirrorWrite_bricks (a : Nat) (l : List Byte) (d : Dev) : (writePieces.mirrorWrite a l d).bricks = d.bricks := by
  unfold writePieces.mirrorWrite
  (repeat' split) <;> simp

@[simp] theorem writePieces_bricks (ps : List (Nat × Nat)) (l : List Byte) (d : Dev) : (writePieces ps l d).1.bricks = d.bricks := by
  induction ps generalizing l d with
  | nil => rfl
  | cons p ps ih => exact (ih ..).trans (by simp)

@[simp] theorem sendTx_bricks (t : LinkTx) (d : Dev) : (sendTx t d).bricks = d.bricks := by
  unfold sendTx
  cases t.what with
  | access b id a store => cases store <;> rfl
  | _ => rfl

@[simp] theorem sendLink_bricks (t : LinkTx) (d : Dev) : (sendLink t d).bricks = d.bricks := by
  unfold sendLink
  split <;> simp

@[simp] theorem hostWrite_bricks (fn a : Nat) (l : List Byte) (d : Dev) : (hostWrite fn a l d).bricks = d.bricks := by
  unfold hostWrite hostPut
  split <;> simp

@[simp] theorem ringWrite_bricks (inst loc a : Nat) (l : List Byte) (d : Dev) : (ringWrite inst loc a l d).bricks = d.bricks := by
  unfold ringWrite
  (repeat' split) <;> simp

@[simp] theorem hostRead_bricks (fn a len : Nat) (why : ReadWhy) (d : Dev) : (hostRead fn a len why d).bricks = d.bricks := by simp [hostRead]

@[simp] theorem sendFlush_bricks (cls fn inst q idx : Nat) (d : Dev) : (sendFlush cls fn inst q idx d).bricks = d.bricks := by simp [sendFlush]

@[simp] theorem writeVirt_bricks (inst ctx va : Nat) (e : Eng) (l : List Byte) (d : Dev) : (writeVirt inst ctx va e l d).bricks = d.bricks := by
  unfold writeVirt
  (repeat' split) <;> simp

/-! ## Queues, counters and completion entries (R204, R210, R215 to R217) -/

@[simp] theorem takeCopy_bricks (q idx : Nat) (l : List Byte) (d : Dev) : (takeCopy q idx l d).bricks = d.bricks := by
  unfold takeCopy
  split <;> rfl

@[simp] theorem tryRead_bricks (q : Nat) (d : Dev) : (tryRead q d).bricks = d.bricks := by
  unfold tryRead
  (repeat' split) <;> simp

@[simp] theorem setProducer_bricks (q p : Nat) (d : Dev) : (setProducer q p d).bricks = d.bricks := by
  unfold setProducer
  (repeat' split) <;> simp

@[simp] theorem consume_bricks (q : Nat) (d : Dev) : (consume q d).bricks = d.bricks := by
  unfold consume
  dsimp only
  (repeat' split) <;> simp

@[simp] theorem setCounter_bricks (idx v : Nat) (d : Dev) : (setCounter idx v d).bricks = d.bricks := by
  unfold setCounter
  refine (each_bricks (fun q d => setProducer_bricks ..) _ _).trans ?_
  (repeat' split) <;> simp

@[simp] theorem addCounter_bricks (inst idx k : Nat) (d : Dev) : (addCounter inst idx k d).bricks = d.bricks := by
  unfold addCounter
  split <;> simp

@[simp] theorem thenCount_bricks (count : Option (Nat × Nat × Nat)) (d : Dev) : (thenCount count d).bricks = d.bricks := by
  unfold thenCount
  split <;> simp

@[simp] theorem moderate_bricks (r : Nat) (d : Dev) : (moderate r d).bricks = d.bricks := by
  unfold moderate notify raiseVector
  (repeat' split) <;> simp

@[simp] theorem writeEntry_bricks (r : Nat) (e : Entry) (count : Option (Nat × Nat × Nat)) (d : Dev) : (writeEntry r e count d).bricks = d.bricks := by
  unfold writeEntry entryNowhere entrySeen
  (repeat' split) <;> simp

@[simp] theorem drain_bricks (q n : Nat) (d : Dev) : (drain q n d).bricks = d.bricks := by
  fun_induction drain q n d <;> simp [*]

@[simp] theorem drainAll_bricks (q : Nat) (d : Dev) : (drainAll q d).bricks = d.bricks := drain_bricks ..

@[simp] theorem finish_bricks (q idx : Nat) (e : Entry) (d : Dev) : (finish q idx e d).bricks = d.bricks := by simp [finish]

@[simp] theorem leaveFaults_bricks (f : Waiter → Bool) (d : Dev) : (leaveFaults f d).bricks = d.bricks := rfl

/-! ## Frames and messages (R252, R282, R331, R361) -/

@[simp] theorem updPort_bricks (p : Nat) (f : Port → Port) (d : Dev) : (updPort p f d).bricks = d.bricks := rfl

@[simp] theorem updPes_bricks (i : Nat) (f : Pesyn → Pesyn) (d : Dev) : (updPes i f d).bricks = d.bricks := rfl

@[simp] theorem updComm_bricks (c : Nat) (f : Comm → Comm) (d : Dev) : (updComm c f d).bricks = d.bricks := rfl

@[simp] theorem dropPort_bricks (i tag : Nat) (d : Dev) : (dropPort i tag d).bricks = d.bricks := rfl

@[simp] theorem enterPort_bricks (p : Nat) (f : Frame) (d : Dev) : (enterPort p f d).bricks = d.bricks := by
  unfold enterPort enterLeaf
  dsimp only
  split <;> rfl

@[simp] theorem sendFrame_bricks (i : Nat) (f : Frame) (d : Dev) : (sendFrame i f d).bricks = d.bricks := by
  unfold sendFrame placeFrame
  (repeat' split) <;> simp

@[simp] theorem withdraw_bricks (f : Frame → Bool) (d : Dev) : (withdraw f d).bricks = d.bricks := by
  unfold withdraw gather
  split
  · rfl
  · exact each_bricks (f := fun (x : Nat × Frame) d => sendFrame x.1 x.2 d) (fun x d => sendFrame_bricks x.1 x.2 d) _ _

@[simp] theorem endMsg_bricks (i seq : Nat) (d : Dev) : (endMsg i seq d).bricks = d.bricks := by
  unfold endMsg
  split <;> simp [takeBack]

@[simp] theorem endMsgs_bricks (f : Msg → Bool) (d : Dev) : (endMsgs f d).bricks = d.bricks :=
  each_bricks (fun _ _ => each_bricks (fun _ _ => endMsg_bricks ..) _ _) _ _

@[simp] theorem closeReads_bricks (f : Nat × Nat → Bool) (d : Dev) : (closeReads f d).bricks = d.bricks := rfl

@[simp] theorem countOver_bricks (f : Msg → Bool) (d : Dev) : (countOver f d).bricks = d.bricks := each_bricks (fun _ _ => countF_bricks ..) _ _

@[simp] theorem takeCount_bricks (i : Nat) (d : Dev) : (takeCount i d).2.bricks = d.bricks := by
  unfold takeCount
  dsimp only
  split <;> rfl

@[simp] theorem encrypt_bricks (i cipher : Nat) (p : Packet) (d : Dev) : (encrypt i cipher p d).2.bricks = d.bricks := by
  unfold encrypt wantCipher
  (repeat' split) <;> simp

@[simp] theorem route_bricks (p : Packet) (leaf : Nat) (queue inst : Option Nat) (d : Dev) : (route p leaf queue inst d).bricks = d.bricks := by
  unfold route
  split <;> simp

@[simp] theorem sendMsgPacket_bricks (i : Nat) (m : Msg) (typ : Nat) (retx : Bool) (tf payload : List Byte) (d : Dev) :
    (sendMsgPacket i m typ retx tf payload d).1.bricks = d.bricks := by
  unfold sendMsgPacket
  dsimp only
  split
  · exact encrypt_bricks ..
  · exact (when_bricks (fun _ => countF_bricks ..) _ _).trans (by simp)

@[simp] theorem addMsg_bricks (i : Nat) (m : Msg) (d : Dev) : (addMsg i m d).bricks = d.bricks := rfl

@[simp] theorem takeSeq_bricks (i : Nat) (d : Dev) : (takeSeq i d).2.bricks = d.bricks := rfl

@[simp] theorem retireMsg_bricks (i seq : Nat) (d : Dev) : (retireMsg i seq d).bricks = d.bricks := by
  unfold retireMsg
  split <;> rfl

@[simp] theorem sendCtrl_bricks (i : Nat) (x : Comm) (k : Coll) (rank : Nat) (owner : MsgOwner) (epoch : Nat) (payload : List Byte) (d : Dev) :
    (sendCtrl i x k rank owner epoch payload d).1.bricks = d.bricks := by
  unfold sendCtrl
  dsimp only
  split <;> simp

theorem sendEach_bricks {f : Nat → Dev → Dev × Bool} (h : ∀ r d, (f r d).1.bricks = d.bricks) (l : List Nat) (d : Dev) :
    (sendEach f l d).1.bricks = d.bricks := by
  induction l generalizing d with
  | nil => rfl
  | cons r l ih => exact (ih _).trans (h r d)

@[simp] theorem sendSeals_bricks (c : Nat) (x : Comm) (k : Coll) (status redone : Nat) (d : Dev) : (sendSeals c x k status redone d).1.bricks = d.bricks :=
  sendEach_bricks (fun _ _ => sendCtrl_bricks ..) _ _

end Sys2Proof.Machine
end

section
/-! SUPPORT. The waits of a brick's program and the counters that it adds to (R115, R119, R121, R217, R218). -/

namespace Sys2Proof.Machine

/-! ## Counters (R206, R217, R218) -/

/-- The completion rings and the free counters are as they were. -/
abbrev SameCounters (d e : Dev) : Prop := e.q.crs = d.q.crs ∧ e.q.ctrs = d.q.ctrs

theorem sameCounters_of_q {d e : Dev} (h : e.q = d.q) : SameCounters d e := by
  rw [SameCounters, h]
  exact ⟨rfl, rfl⟩

theorem SameCounters.trans {d e f : Dev} (h : SameCounters d e) (h' : SameCounters e f) : SameCounters d f := ⟨h'.1.trans h.1, h'.2.trans h.2⟩

theorem sameCounters_updWq (q : Nat) (f : WQ → WQ) (d : Dev) : SameCounters d (updWq q f d) := ⟨rfl, rfl⟩

theorem sameCounters_each {α : Type} {f : α → Dev → Dev} (h : ∀ x d, SameCounters d (f x d)) (l : List α) (d : Dev) : SameCounters d (each l f d) :=
  List.foldlRecOn (motive := fun a : Dev => SameCounters d a) _ _ ⟨rfl, rfl⟩ fun _ ha x _ => ha.trans (h x _)

theorem sameCounters_takeCopy (q idx : Nat) (l : List Byte) (d : Dev) : SameCounters d (takeCopy q idx l d) := by
  unfold takeCopy
  split <;> exact sameCounters_updWq ..

/-- A queue that looks at its ring changes no counter. -/
theorem sameCounters_tryRead (q : Nat) (d : Dev) : SameCounters d (tryRead q d) := by
  unfold tryRead
  (repeat' split) <;> simp [updWq, takeCopy, SameCounters]
  split <;> simp

theorem sameCounters_setProducer (q p : Nat) (d : Dev) : SameCounters d (setProducer q p d) := by
  unfold setProducer
  (repeat' split)
  · exact ⟨rfl, rfl⟩
  · exact ⟨rfl, rfl⟩
  · exact (sameCounters_updWq ..).trans (sameCounters_tryRead ..)

@[simp] theorem hostWrite_q (fn a : Nat) (l : List Byte) (d : Dev) : (hostWrite fn a l d).q = d.q := by
  unfold hostWrite hostPut
  split <;> simp

theorem sameCounters_ringWrite (inst loc a : Nat) (l : List Byte) (d : Dev) : SameCounters d (ringWrite inst loc a l d) := by
  refine sameCounters_of_q ?_
  by_cases h : loc = 0
  · rw [ringWrite, if_pos h, hostWrite_q]
  · exact ringWrite_q h ..

theorem counterVal_congr {d e : Dev} (h : SameCounters d e) (idx : Nat) : counterVal idx e = counterVal idx d := by
  simp only [counterVal, crAt, h.1, h.2]

/-- A counter that someone owns takes the value, modulo 2^48. -/
theorem counterVal_setCounter {idx n : Nat} {d : Dev} (h : counterOwner idx d = some n) (v : Nat) : counterVal idx (setCounter idx v d) = v % 2 ^ 48 := by
  unfold setCounter
  dsimp only
  rw [counterVal_congr (sameCounters_each (fun q d => sameCounters_setProducer q _ d) _ _)]
  by_cases hr : idx < 0x4000
  · obtain ⟨c, hc, -⟩ : ∃ c, crAt idx d = some c ∧ c.inst = n := by simpa [counterOwner, hr] using h
    simp only [if_pos hr, counterVal, crAt, updCr, Tab.get_modify_self]
    rw [← crAt, hc]
    rfl
  · obtain ⟨c, hc, -⟩ : ∃ c, Tab.get d.q.ctrs idx = some c ∧ c.inst = n := by
      unfold counterOwner at h
      rw [if_neg hr] at h
      split at h
      · simpa using h
      · cases h
    simp only [if_neg hr, hc]
    trans counterVal idx { d with q := { d.q with ctrs := Tab.modify d.q.ctrs idx (fun c => { c with value := v % 2 ^ 48 }) } }
    · split
      · exact counterVal_congr (sameCounters_ringWrite ..) idx
      · rfl
    · simp [counterVal, hr, hc]

/-! ## What a context waits for (R115, R121) -/

theorem CtxTo.waits {d e : Dev} {k : Nat} {y : BCtx} (h : CtxTo d e k y) (wt : BWait) : CtxTo d (waits k wt e) k (BCtx.advance { y with wait := wt }) :=
  h.retire fun x => { x with wait := wt }

/-- A brick issues nothing while its context waits. -/
theorem issuing_none_of_waiting {d : Dev} {b k : Nat} {x : BCtx} (hcur : (brickAt b d).cur = some k) (hx : ctxAt k d = some x) (hw : waitOver x d = false) :
    issuing b d = none := by
  simp only [issuing, hcur, hx, hw, Bool.and_false, Bool.false_and]
  cases launchAt x.launch d <;> rfl

theorem withCounter_owned {f : Nat → Dev → Dev} {w : Nat} {x : BCtx} {l : Launch} {d : Dev} (h : counterOwner (x.sreg (fSrc1 w)) d = some l.inst) (k : Nat) :
    withCounter f k w x l d = f (x.sreg (fSrc1 w)) d := if_pos h

/-- A CADD with something earlier on its way holds the context. -/
theorem settleCtx_holds {k : Nat} {x : BCtx} {d : Dev} (hx : ctxAt k d = some x) (hs : x.allSeen = false) : settleCtx k d = d := by
  unfold settleCtx
  rw [hx]
  dsimp only
  split
  · rw [if_neg (by simp [hs])]
  · rfl

/-- A CADD with everything earlier visible adds to its counter at once. -/
theorem settleCtx_adds {k idx v word : Nat} {x : BCtx} {l : Launch} {d : Dev} (hx : ctxAt k d = some x) (hw : x.wait = .cadd idx v word)
    (hs : x.allSeen = true) (hl : launchAt x.launch d = some l) (ho : counterOwner idx d = some l.inst) (hm : mirrorLost idx d = false) :
    settleCtx k d = setCounter idx (counterVal idx d + v) (updCtx k (fun x => { x with wait := .run }) d) := by
  simp only [settleCtx, hx, hw, hs, hl, hm, if_true, Bool.and_false, when_, Option.map_some, Option.getD_some]
  exact if_pos ho

section Issued

variable {s : State} {b k : Nat} {x : BCtx} {l : Launch} {e : Dev} {word : Word64} (h : Safety.Fetched b s k x l e)
include h

theorem exec_swait (hleg : syncLegal true word.toNat x l = true) : ∃ t, exec (.swait b word) s = .next t ∧
    Safety.CtxStep s e t k { x with pc := (x.pc + 8) % 2 ^ 56, wait := .swait (fDst word.toNat) (x.sreg (fSrc1 word.toNat) % 2 ^ 32) } :=
  ⟨_, issues_goes h hleg rfl, ((fetched_ctxTo h).waits _).step s⟩

theorem exec_cwait (hleg : syncLegal false word.toNat x l = true) (ho : counterOwner (x.sreg (fSrc1 word.toNat)) e = some l.inst) :
    ∃ t, exec (.cwait b word) s = .next t ∧ Safety.CtxStep s e t k
      { x with pc := (x.pc + 8) % 2 ^ 56, wait := .cwait (x.sreg (fSrc1 word.toNat)) (x.sreg (fSrc2 word.toNat) % 2 ^ 48) word.toNat } := by
  refine ⟨_, issues_goes h hleg rfl, ?_⟩
  rw [withCounter_owned (d := updCtx k _ e) ho]
  exact ((fetched_ctxTo h).waits _).step s

theorem exec_bar (hleg : syncLegal false word.toNat x l = true) : ∃ t, exec (.bar b word) s = .next t ∧
    Safety.CtxStep s e t k { x with pc := (x.pc + 8) % 2 ^ 56, wait := .bar, bars := x.bars + 1 } :=
  ⟨_, issues_goes h hleg rfl, (((fetched_ctxTo h).upd fun x => { x with bars := x.bars + 1 }).waits .bar).step s⟩

theorem exec_fence (hleg : syncLegal false word.toNat x l = true) : ∃ t, exec (.fence b word) s = .next t ∧
    Safety.CtxStep s e t k { x with pc := (x.pc + 8) % 2 ^ 56, wait := .fence } :=
  ⟨_, issues_goes h hleg rfl, ((fetched_ctxTo h).waits _).step s⟩

theorem exec_hfence (hleg : wordOk word.toNat 9 [(53, 48), (37, 33), (31, 0)] = true) : ∃ t, exec (.hfence b word) s = .next t ∧
    Safety.CtxStep s e t k { x with pc := (x.pc + 8) % 2 ^ 56, wait := .hfence } :=
  ⟨_, issues_goes h hleg rfl, ((fetched_ctxTo h).waits _).step s⟩

/-- A CADD is handed the device with its context waiting for it. -/
theorem exec_cadd (hleg : syncLegal false word.toNat x l = true) (ho : counterOwner (x.sreg (fSrc1 word.toNat)) e = some l.inst) :
    ∃ d, exec (.cadd b word) s = .next { s with dev := settleCtx k d } ∧
      CtxTo e d k { x with pc := (x.pc + 8) % 2 ^ 56, wait := .cadd (x.sreg (fSrc1 word.toNat)) (x.sreg (fSrc2 word.toNat) % 2 ^ 48) word.toNat } := by
  refine ⟨waits k (.cadd (x.sreg (fSrc1 word.toNat)) (x.sreg (fSrc2 word.toNat) % 2 ^ 48) word.toNat) (updCtx k (fun x => { x with wait := .run }) e),
    (issues_goes h hleg rfl).trans ?_, (fetched_ctxTo h).waits _⟩
  rw [withCounter_owned (d := updCtx k _ e) ho]

theorem fetched_launch : launchAt x.launch e = some l := (fetched_mayBegin h rfl rfl).launch

theorem exec_cadd_adds (hleg : syncLegal false word.toNat x l = true) (ho : counterOwner (x.sreg (fSrc1 word.toNat)) e = some l.inst)
    (hs : x.allSeen = true) (hm : mirrorLost (x.sreg (fSrc1 word.toNat)) e = false) :
    ∃ t, exec (.cadd b word) s = .next t ∧ ctxAt k t.dev = some { x with pc := (x.pc + 8) % 2 ^ 56, wait := .run } ∧
      counterVal (x.sreg (fSrc1 word.toNat)) t.dev = (counterVal (x.sreg (fSrc1 word.toNat)) e + x.sreg (fSrc2 word.toNat) % 2 ^ 48) % 2 ^ 48 := by
  obtain ⟨d, ht, hd⟩ := exec_cadd h hleg ho
  have hl := (hd.frame (launchAt x.launch) fun _ => rfl).trans (fetched_launch h)
  have hown := (hd.frame (counterOwner (x.sreg (fSrc1 word.toNat))) fun _ => rfl).trans ho
  have hmirror := (hd.frame (mirrorLost (x.sreg (fSrc1 word.toNat))) fun _ => rfl).trans hm
  have hval := hd.frame (counterVal (x.sreg (fSrc1 word.toNat))) fun _ => rfl
  rw [settleCtx_adds hd.ctx rfl hs hl hown hmirror] at ht
  refine ⟨_, ht, ?_, ?_⟩
  · rw [ctxAt_congr (setCounter_bricks ..), ctxAt_updCtx_self, hd.ctx]
    rfl
  · rw [counterVal_setCounter (d := updCtx k _ d) hown, hval]

theorem exec_cadd_holds (hleg : syncLegal false word.toNat x l = true) (ho : counterOwner (x.sreg (fSrc1 word.toNat)) e = some l.inst) (hs : x.allSeen = false) :
    ∃ t, exec (.cadd b word) s = .next t ∧ Safety.CtxStep s e t k
      { x with pc := (x.pc + 8) % 2 ^ 56, wait := .cadd (x.sreg (fSrc1 word.toNat)) (x.sreg (fSrc2 word.toNat) % 2 ^ 48) word.toNat } := by
  obtain ⟨d, ht, hd⟩ := exec_cadd h hleg ho
  rw [settleCtx_holds hd.ctx hs] at ht
  exact ⟨_, ht, hd.step s⟩

end Issued

/-- Settles O16: each wait leaves its context past the instruction (`exec_cwait`, `exec_bar`, `exec_fence`, `exec_hfence`), a CADD adds or holds
(`exec_cadd_adds`, `exec_cadd_holds`), and a context that waits issues nothing. -/
theorem brickWaits : Obligations.BrickWaits := by
  refine ⟨fun s b k x l e word h => ?_, fun d b k x => issuing_none_of_waiting⟩
  exact ⟨exec_cwait h, exec_bar h, exec_fence h, exec_hfence h,
    fun hleg ho => ⟨exec_cadd_adds h hleg ho, exec_cadd_holds h hleg ho⟩⟩

end Sys2Proof.Machine
end

section
/-! SUPPORT. The slices of a brick and the end of a launch (R125 to R130): what a boundary does with the brick's only context, what a switch counts, and
what the end of a descriptor leaves of a launch that is gone. -/

namespace Sys2Proof.Machine

/-! ## A boundary with one context in rotation (R126, R127) -/

@[simp] theorem correct_pwr (met : Place → Bool) (d : Dev) : (correct met d).pwr = d.pwr :=
  List.foldlRecOn (motive := fun a : Dev => a.pwr = d.pwr) _ _ rfl fun _ h (s : Place × Nat × Nat) _ =>
    (show (noteCe s.1 s.2.1 s.2.2 _).pwr = _ by unfold noteCe; cases hbmAddr s.1 <;> rfl).trans h

theorem holdsGrant_congr {d e : Dev} (h : e.pwr = d.pwr) (u : UnitId) : holdsGrant u e = holdsGrant u d := by simp only [holdsGrant, railAt, h]

@[simp] theorem requestSlice_bricks (b k : Nat) (d : Dev) : (requestSlice b k d).bricks = d.bricks := by
  unfold requestSlice
  split <;> simp

/-- The device at a boundary of a brick: the beats of its context are counted, its grant has returned and is asked for again. -/
def sliceEnded (b beats k : Nat) (d : Dev) : Dev :=
  requestSlice b k (returnGrant (.brick b) (updCtx k (fun x => { x with beats := (x.beats + beats) % 2 ^ 64 })
    (updBrick b (fun r => { r with edge := nextEdge b d, passed := 0, late := false, began := clock (b / 128) d }) d)))

/-- The context leaves its brick and waits for the grant. -/
def sliceLost (b k since : Nat) (d : Dev) : Dev :=
  updBrick b (fun r => { r with coming := some k, since := since }) (leaveBrick k (correct (metScratch b 0 scratchSize) d))

theorem sliceEnded_bricks (b beats k : Nat) (d : Dev) : (sliceEnded b beats k d).bricks =
    (updCtx k (fun x => { x with beats := (x.beats + beats) % 2 ^ 64 })
      (updBrick b (fun r => { r with edge := nextEdge b d, passed := 0, late := false, began := clock (b / 128) d }) d)).bricks := by
  rw [sliceEnded, requestSlice_bricks, returnGrant_bricks]

theorem nextIn_alone (k : Nat) : nextIn [k] (some k) = some k := by simp [nextIn]

section Boundary

variable {b beats k : Nat} {x : BCtx} {d : Dev}
  (hfalls : (onEdge b d = true ∧ (brickAt b d).edge ≤ clock (b / 128) d) ∨ (brickAt b d).late = true)
  (hf : (brickAt b d).failing = none) (hcoming : (brickAt b d).coming = none) (hcur : (brickAt b d).cur = some k) (hrot : (brickAt b d).rot = [k])

section
include hfalls hf hcoming hcur hrot

/-- At a boundary the brick's only context goes on where its grant is given again, and leaves the brick otherwise. -/
theorem sliceBoundary_alone : sliceBoundary b beats d =
    if holdsGrant (.brick b) (sliceEnded b beats k d) then sliceEnded b beats k d else sliceLost b k (clock (b / 128) d) (sliceEnded b beats k d) := by
  have hgoes : ¬((!(onEdge b d && decide ((brickAt b d).edge ≤ clock (b / 128) d)) && !(brickAt b d).late) = true) := by
    rcases hfalls with ⟨he, ht⟩ | hl
    · simp [he, ht]
    · simp [hl]
  simp only [sliceBoundary, hf, hcoming, hcur, hrot, nextIn_alone, hgoes, Option.isSome_none, Bool.false_eq_true, if_false, decide_true, Bool.true_and]
  rfl

end

section
variable (hx : ctxAt k d = some x)
include hx

theorem ctxAt_sliceEnded : ctxAt k (sliceEnded b beats k d) = some { x with beats := (x.beats + beats) % 2 ^ 64 } := by
  rw [ctxAt_congr (sliceEnded_bricks ..), ctxAt_updCtx_self, ctxAt_updBrick, hx]
  rfl

end

theorem brickAt_sliceEnded : brickAt b (sliceEnded b beats k d) =
    { brickAt b d with edge := nextEdge b d, passed := 0, late := false, began := clock (b / 128) d } := by
  rw [brickAt_congr (sliceEnded_bricks ..), brickAt_updCtx, brickAt_updBrick_self]

/-- A context that leaves its brick at a boundary keeps all but the poison of its scratch. -/
theorem sliceLost_leaves {since : Nat} {y : BCtx} {d : Dev} (hy : ctxAt k d = some y) (hb : y.brick = b) : ∃ p q,
    ctxAt k (sliceLost b k since d) = some { y with poison := p, recorded := q } ∧
    brickAt b (sliceLost b k since d) = { brickAt b d with cur := none, coming := some k, since := since } ∧
    holdsGrant (.brick b) (sliceLost b k since d) = holdsGrant (.brick b) d := by
  subst hb
  obtain ⟨p, q, hctx, hbrick, hpwr⟩ := leaveBrick_leaves ((ctxAt_congr (correct_bricks (metScratch y.brick 0 scratchSize) d) k).trans hy)
  refine ⟨p, q, hctx, ?_, ?_⟩
  · rw [sliceLost, brickAt_updBrick_self, hbrick, brickAt_congr (correct_bricks ..)]
  · exact holdsGrant_congr (hpwr.trans (correct_pwr ..)) _

section
variable (hx : ctxAt k d = some x) (hb : x.brick = b)
include hfalls hf hcoming hcur hrot hx hb

/-- What a boundary leaves of the brick's only context, and of the brick. -/
theorem sliceBoundary_keeps : ∃ p q,
    ctxAt k (sliceBoundary b beats d) = some { x with beats := (x.beats + beats) % 2 ^ 64, poison := p, recorded := q } ∧
    (brickAt b (sliceBoundary b beats d)).edge = nextEdge b d ∧ (brickAt b (sliceBoundary b beats d)).passed = 0 ∧
    (holdsGrant (.brick b) (sliceBoundary b beats d) = true →
      (brickAt b (sliceBoundary b beats d)).cur = some k ∧ (brickAt b (sliceBoundary b beats d)).coming = none) ∧
    (holdsGrant (.brick b) (sliceBoundary b beats d) = false →
      (brickAt b (sliceBoundary b beats d)).cur = none ∧ (brickAt b (sliceBoundary b beats d)).coming = some k) := by
  have hbrick := brickAt_sliceEnded (b := b) (beats := beats) (k := k) (d := d)
  rw [sliceBoundary_alone hfalls hf hcoming hcur hrot]
  by_cases hg : holdsGrant (.brick b) (sliceEnded b beats k d) = true
  · rw [if_pos hg, hbrick]
    exact ⟨_, _, ctxAt_sliceEnded hx, rfl, rfl, fun _ => ⟨hcur, hcoming⟩, fun h => absurd hg (by simp [h])⟩
  · obtain ⟨p, q, hctx, hat, hgrant⟩ := sliceLost_leaves (since := clock (b / 128) d) (ctxAt_sliceEnded (b := b) (beats := beats) hx) hb
    rw [if_neg hg, hat, hbrick, hgrant]
    exact ⟨p, q, hctx, rfl, rfl, fun h => absurd h hg, fun _ => ⟨rfl, rfl⟩⟩

end
end Boundary

/-! ## SWAIT (R115) -/

/-- The order of two 32-bit counts is the sign of their difference. -/
theorem countBelow_eq_false_iff (a b : Nat) : countBelow a b = false ↔ 0 ≤ (BitVec.ofNat 32 a - BitVec.ofNat 32 b).toInt := by
  have ht : (BitVec.ofNat 32 a - BitVec.ofNat 32 b).toNat = (a + 2 ^ 32 - b % 2 ^ 32) % 2 ^ 32 := by
    rw [BitVec.toNat_sub, BitVec.toNat_ofNat, BitVec.toNat_ofNat]
    omega
  rw [countBelow, decide_eq_false_iff_not, Nat.not_le, ← ht, BitVec.toInt_eq_toNat_cond]
  split <;> omega

theorem exec_sliceBoundary {b : Nat} (hb : b < 1024) (beats : Nat) (s : State) :
    exec (.sliceBoundary b beats) s = .next { s with dev := sliceBoundary b beats s.dev } := by
  change execSliceBoundary b beats s = _
  rw [execSliceBoundary, if_pos hb]

/-- Settles O17: a SWAIT leaves its context waiting (`exec_swait`), its wait is over by the order of 32-bit counts (`countBelow_eq_false_iff`), a waiting
brick issues nothing (`issuing_none_of_waiting`), and a boundary counts its beats (`sliceBoundary_keeps`). -/
theorem swaitWaits : Obligations.SwaitWaits := by
  refine ⟨fun s b k x l e word h => exec_swait h, fun d b k ch n times x hw => ⟨?_, ?_, issuing_none_of_waiting⟩, ?_⟩
  · rw [← countBelow_eq_false_iff, waitOver, hw]
    exact Bool.not_eq_true' _ |>.to_iff
  · simp only [waitOver, hw]
  · intro s b beats k ch n x hb1024 ht he hf hcoming hcur hrot hx hb hw
    obtain ⟨p, q, hctx, -⟩ := sliceBoundary_keeps (beats := beats) (.inl ⟨he, ht⟩) hf hcoming hcur hrot hx hb
    exact ⟨_, _, exec_sliceBoundary hb1024 beats s, hctx, rfl, rfl⟩

/-! ## The end of a switch (R127) -/

/-- Registers that count in their low half leave the count of the switches as it was. -/
theorem getF_switchStats_setF_low {n : RegName} {i j l v : Nat} (hr : resetWord n i j = 0) (d : Dev) :
    getF .switchStats l 0 31 16 (setF n i j 15 0 v d) = getF .switchStats l 0 31 16 d := by
  by_cases ha : addrOf .switchStats l 0 = addrOf n i j
  · have hw : ∀ d : Dev, getW .switchStats l 0 d = getW n i j d := fun d => by rw [getW, getW, ha, hr]; rfl
    rw [getF, hw, ← getF, getF_setF_above d (by decide) (by decide) (by decide), getF, ← hw, ← getF]
  · rw [getF, getW_setF_other _ _ _ _ ha, getF]

theorem getF_switchStats_noteCe (l : Nat) (p : Place) (row sym : Nat) (d : Dev) :
    getF .switchStats l 0 31 16 (noteCe p row sym d) = getF .switchStats l 0 31 16 d := by
  have hr : resetWord (errReg p).1 (errReg p).2 0 = 0 := by
    unfold errReg
    (repeat' split) <;> rfl
  rw [← getF_switchStats_setF_low hr d (l := l)]
  unfold noteCe
  split <;> rfl

theorem getF_switchStats_correct (l : Nat) (met : Place → Bool) (d : Dev) :
    getF .switchStats l 0 31 16 (correct met d) = getF .switchStats l 0 31 16 d :=
  List.foldlRecOn (motive := fun a : Dev => getF .switchStats l 0 31 16 a = getF .switchStats l 0 31 16 d) _ _ rfl
    fun _ h _ _ => (getF_switchStats_noteCe ..).trans h

theorem getF_switchStats_readsSome (l : Nat) (f : Place → Bool) (d : Dev) :
    getF .switchStats l 0 31 16 (readsSome f d) = getF .switchStats l 0 31 16 d := by
  unfold readsSome
  dsimp only
  split
  · rfl
  · exact getF_switchStats_correct ..

/-- The device with a context back on its brick, and the poison of its scratch with it. -/
def restored (b k : Nat) (x : BCtx) (d : Dev) : Dev :=
  let d2 := updBrick b (fun r => { r with cur := some k, coming := none, began := clock (b / 128) d })
    (updCtx k (fun x => { x with poison := [], recorded := [] }) (readsSome (inStore (b / 128) d) d))
  let others : Place → Bool := fun p => match p with
    | .scratch c _ => c != b
    | _ => true
  { d2 with tiers := { d2.tiers with
    poison := d2.tiers.poison.filter others ++ x.poison.map (fun off => .scratch b off),
    logged := d2.tiers.logged.filter others ++ x.recorded.map (fun off => .scratch b off) } }

/-- The device with one more switch counted, and the longest duration. -/
def switchCounted (b t : Nat) (d : Dev) : Dev :=
  setF .switchStats (b / 128) 0 15 0 (max t (getF .switchStats (b / 128) 0 15 0 d)) (countF .switchStats (b / 128) 0 31 16 1 d)

@[simp] theorem switchCounted_bricks (b t : Nat) (d : Dev) : (switchCounted b t d).bricks = d.bricks := by simp [switchCounted]

theorem getF_switchCounted (b t : Nat) (d : Dev) :
    getF .switchStats (b / 128) 0 31 16 (switchCounted b t d) = min 65535 (getF .switchStats (b / 128) 0 31 16 d + 1) := by
  rw [switchCounted, getF_setF_above _ (by decide) (by decide) (by decide), getF_countF_self _ (by decide) (by decide)]
  rfl

theorem restored_bricks (b k : Nat) (x : BCtx) (d : Dev) : (restored b k x d).bricks =
    (updBrick b (fun r => { r with cur := some k, coming := none, began := clock (b / 128) d })
      (updCtx k (fun x => { x with poison := [], recorded := [] }) (readsSome (inStore (b / 128) d) d))).bricks := rfl

theorem ctxAt_restored {k : Nat} {x : BCtx} {d : Dev} (hx : ctxAt k d = some x) (b : Nat) :
    ctxAt k (restored b k x d) = some { x with poison := [], recorded := [] } := by
  rw [ctxAt_congr (restored_bricks ..), ctxAt_updBrick, ctxAt_updCtx_self, ctxAt_congr (readsSome_bricks ..), hx]
  rfl

theorem brickAt_restored (b k : Nat) (x : BCtx) (d : Dev) :
    brickAt b (restored b k x d) = { brickAt b d with cur := some k, coming := none, began := clock (b / 128) d } := by
  rw [brickAt_congr (restored_bricks ..), brickAt_updBrick_self, brickAt_updCtx, brickAt_congr (readsSome_bricks ..)]

section Switch

variable {b k : Nat} {x : BCtx} {d : Dev} (hcoming : (brickAt b d).coming = some k) (hx : ctxAt k d = some x)
  (hg : holdsGrant (.brick b) d = true) (hq : x.quiet = true) (hp : storePoison (b / 128) d = none)
include hcoming hx hg hq hp

theorem contextSwitchEnd_eq : contextSwitchEnd b d =
    startOps k unitFuel (switchCounted b (min 65535 (clock (b / 128) d - (brickAt b d).since)) (restored b k x d)) := by
  simp only [contextSwitchEnd, hcoming, hx, hg, hq, hp]
  rfl

theorem contextSwitchEnd_restores (hn : firstReady x [] x.ops = none) :
    contextSwitchEnd b d = switchCounted b (min 65535 (clock (b / 128) d - (brickAt b d).since)) (restored b k x d) := by
  rw [contextSwitchEnd_eq hcoming hx hg hq hp]
  exact startOps_idle ((ctxAt_congr (switchCounted_bricks ..) k).trans (ctxAt_restored hx b)) ((firstReady_congr (x := x) (by rfl) [] x.ops).trans hn) _

end Switch

/-! ## A launch that is gone (R125, R130) -/

/-- A launch is gone, with its contexts. -/
def Bricks.Gone (id : Nat) (r : Bricks) : Prop := Tab.get r.launches id = none ∧ ∀ k, keyLaunch k = id → Tab.get r.ctxs k = none

theorem Tab.get_eq_none_iff {α : Type} (t : Tab α) (k : Nat) : Tab.get t k = none ↔ ∀ p ∈ t, p.1 ≠ k := by
  induction t with
  | nil => simp
  | cons p t ih =>
    obtain ⟨a, v⟩ := p
    by_cases ha : a = k <;> simp [Tab.get, ha, ih]

theorem Tab.get_filter_eq_none {α : Type} {t : Tab α} {k : Nat} (h : Tab.get t k = none) (f : Nat × α → Bool) : Tab.get (t.filter f) k = none :=
  (Tab.get_eq_none_iff _ _).mpr fun p hp => (Tab.get_eq_none_iff _ _).mp h p (List.mem_of_mem_filter hp)

section Gone

variable {id : Nat}

theorem each_gone {α : Type} {f : α → Dev → Dev} (hf : ∀ x d, d.bricks.Gone id → (f x d).bricks.Gone id) (l : List α) {d : Dev}
    (h : d.bricks.Gone id) : (each l f d).bricks.Gone id :=
  List.foldlRecOn (motive := fun a : Dev => a.bricks.Gone id) _ _ h fun d ha x _ => hf x d ha

theorem when_gone {f : Dev → Dev} (hf : ∀ d, d.bricks.Gone id → (f d).bricks.Gone id) (c : Bool) {d : Dev} (h : d.bricks.Gone id) :
    (when_ c f d).bricks.Gone id := by
  unfold when_
  split
  · exact hf d h
  · exact h

theorem each_tables {α : Type} {f : α → Dev → Dev}
    (hf : ∀ x d, (f x d).bricks.launches = d.bricks.launches ∧ (f x d).bricks.ctxs = d.bricks.ctxs) (l : List α) (d : Dev) :
    (each l f d).bricks.launches = d.bricks.launches ∧ (each l f d).bricks.ctxs = d.bricks.ctxs :=
  List.foldlRecOn (motive := fun a : Dev => a.bricks.launches = d.bricks.launches ∧ a.bricks.ctxs = d.bricks.ctxs) _ _ ⟨rfl, rfl⟩
    fun a ha x _ => ⟨(hf x a).1.trans ha.1, (hf x a).2.trans ha.2⟩

/-- What the end of a launch leaves of the launches and of their contexts. -/
theorem dropLaunch_tables {l : Nat} {x : Launch} {d : Dev} (hx : launchAt l d = some x) :
    (dropLaunch l d).bricks.launches = Tab.erase d.bricks.launches l ∧
    (dropLaunch l d).bricks.ctxs = Tab.keep d.bricks.ctxs (fun k _ => keyLaunch k != l) := by
  unfold dropLaunch
  rw [← launchAt, hx]
  dsimp only
  rw [idleDdr_bricks]
  refine (each_tables (fun b d => ?_) x.bricks d).imp (congrArg fun t => Tab.erase t l) (congrArg fun t => Tab.keep t fun k _ => keyLaunch k != l)
  rw [when_bricks (returnGrant_bricks _)]
  exact ⟨rfl, rfl⟩

/-- A launch that ends is gone. -/
theorem dropLaunch_self {l : Nat} {x : Launch} {d : Dev} (hx : launchAt l d = some x) : (dropLaunch l d).bricks.Gone l := by
  obtain ⟨hl, hc⟩ := dropLaunch_tables hx
  refine ⟨by rw [hl, Tab.get_erase_self], fun k hk => ?_⟩
  rw [hc, Tab.get_eq_none_iff]
  rintro p hp rfl
  simpa [hk] using (List.mem_filter.mp hp).2

theorem dropLaunch_gone (l : Nat) {d : Dev} (h : d.bricks.Gone id) : (dropLaunch l d).bricks.Gone id := by
  cases hx : launchAt l d with
  | none =>
    rw [dropLaunch, ← launchAt, hx]
    exact h
  | some x =>
    obtain ⟨hl, hc⟩ := dropLaunch_tables hx
    refine ⟨?_, fun k hk => ?_⟩
    · rw [hl]
      exact Tab.get_filter_eq_none h.1 _
    · rw [hc]
      exact Tab.get_filter_eq_none (h.2 k hk) _

/-! ### What ends a descriptor -/

@[simp] theorem tileEnds_gone {q idx : Nat} {t : Tile} {status : Nat} {d : Dev} : (tileEnds q idx t status d).bricks.Gone id ↔ d.bricks.Gone id := Iff.rfl

@[simp] theorem finishNow_gone {q idx status result bytes detail : Nat} {d : Dev} :
    (finishNow q idx status result bytes detail d).bricks.Gone id ↔ d.bricks.Gone id := by
  unfold finishNow
  (repeat' split) <;> simp

@[simp] theorem finishDesc_gone {q idx status result bytes detail : Nat} {d : Dev} :
    (finishDesc q idx status result bytes detail d).bricks.Gone id ↔ d.bricks.Gone id := by
  unfold finishDesc
  (repeat' split) <;> simp

@[simp] theorem completeHead_gone {q status result bytes detail : Nat} {d : Dev} :
    (completeHead q status result bytes detail d).bricks.Gone id ↔ d.bricks.Gone id := by
  unfold completeHead
  (repeat' split) <;> simp

theorem stopDesc_gone (q idx : Nat) {d : Dev} (h : d.bricks.Gone id) : (stopDesc q idx d).bricks.Gone id :=
  each_gone (fun l _ => dropLaunch_gone l) _ (by simpa using h)

theorem refuseWaiters_gone (c status detail : Nat) {d : Dev} (h : d.bricks.Gone id) : (refuseWaiters c status detail d).bricks.Gone id :=
  each_gone (fun _ _ h => completeHead_gone.mpr h) _ h

theorem stopPart_gone (c status rank : Nat) (reported : Bool) {d : Dev} (h : d.bricks.Gone id) : (stopPart c status rank reported d).bricks.Gone id := by
  have hports : ∀ (l : List Nat) (e : Dev), (each l (fun n => dropPort (n % 2) (mkTag d.addr.node n)) e).bricks = e.bricks :=
    each_bricks fun _ _ => dropPort_bricks ..
  have hgrants : ∀ (l : List UnitId) (e : Dev), (each l returnGrant e).bricks = e.bricks := each_bricks returnGrant_bricks
  unfold stopPart
  split
  · exact h
  · split
    · exact h
    · dsimp only
      split <;> simp only [finishDesc_gone, completeHead_gone, hports, hgrants, updComm_bricks] <;> split <;> simpa using h

theorem endPart_gone (c status rank : Nat) (reported : Bool) {d : Dev} (h : d.bricks.Gone id) : (endPart c status rank reported d).bricks.Gone id := by
  have hs := stopPart_gone c status rank reported h
  unfold endPart
  dsimp only
  split
  · exact when_gone (fun _ h => refuseWaiters_gone _ _ _ h) _ hs
  · exact hs

theorem flushDesc_gone (q first idx : Nat) {d : Dev} (h : d.bricks.Gone id) : (flushDesc q first idx d).bricks.Gone id := by
  have hover : ∀ (f : Msg → Bool) (c : Bool), (when_ c (countOver f) d).bricks.Gone id := fun f c =>
    when_gone (fun d h => by simpa using h) c h
  unfold flushDesc
  dsimp only
  (repeat' split)
  · exact h
  · exact endPart_gone _ _ _ _ (hover _ _)
  · exact finishDesc_gone.mpr (stopDesc_gone _ _ (hover _ _))
  · exact finishDesc_gone.mpr (stopDesc_gone _ _ h)

theorem queueError_gone (q idx : Nat) {d : Dev} (h : d.bricks.Gone id) : (queueError q idx d).bricks.Gone id := by
  unfold queueError
  dsimp only
  (repeat' split)
  · exact h
  · exact each_gone (fun _ _ => flushDesc_gone _ _ _) _ (by simpa [enterError] using h)
  · exact each_gone (fun _ _ => flushDesc_gone _ _ _) _ (by simpa [enterError] using h)
  · exact h

theorem failDesc_gone (q idx status origin : Nat) {d : Dev} (h : d.bricks.Gone id) : (failDesc q idx status origin d).bricks.Gone id := by
  unfold failDesc
  dsimp only
  split
  · exact h
  · exact finishDesc_gone.mpr (when_gone (fun _ => queueError_gone _ _) _ (stopDesc_gone _ _ h))

/-- A descriptor that completes brings no launch back. -/
theorem okDesc_gone (q idx result bytes : Nat) {d : Dev} (h : d.bricks.Gone id) : (okDesc q idx result bytes d).bricks.Gone id := by
  unfold okDesc
  (repeat' split)
  · exact failDesc_gone _ _ _ _ h
  · exact failDesc_gone _ _ _ _ h
  · exact finishDesc_gone.mpr (by simpa using h)

end Gone

/-- A launch whose bricks have all ended is gone. -/
theorem launchComplete_gone {id : Nat} {l : Launch} {d : Dev} (hl : launchAt id d = some l) (he : launchEnded id d = true) :
    (launchComplete id d).bricks.Gone id := by
  simp only [launchComplete, hl, he, Bool.not_true, Bool.false_eq_true, if_false]
  exact okDesc_gone _ _ _ _ (dropLaunch_self hl)

/-- A fault that is not the link's loss ends its launch. -/
theorem endLaunch_gone {id status : Nat} {l : Launch} {d : Dev} (hl : launchAt id d = some l) (hs : status ≠ 0xC) :
    (endLaunch id status d).bricks.Gone id := by
  simp only [endLaunch, hl, when_, hs, decide_false, Bool.false_eq_true, if_false]
  exact finishDesc_gone.mpr (dropLaunch_self hl)

@[simp] theorem recordFault_bricks (k : Nat) (x : BCtx) (l : Launch) (f : BFault) (d : Dev) : (recordFault k x l f d).bricks = d.bricks := by
  unfold recordFault beatsNow
  (repeat' split) <;> simp [drawFree]

theorem beatLimitReached_gone {b k : Nat} {x : BCtx} {l : Launch} {d : Dev} (hcur : (brickAt b d).cur = some k) (hx : ctxAt k d = some x)
    (hl : launchAt x.launch d = some l) (hg : holdsGrant (.brick b) d = true) : (beatLimitReached b d).bricks.Gone x.launch := by
  have hy : ctxAt k (updCtx k (fun x => { x with beats := l.limit }) d) = some { x with beats := l.limit } := by simp [hx]
  have hl' : launchAt x.launch (updCtx k (fun x => { x with beats := l.limit }) d) = some l := hl
  simp only [beatLimitReached, hcur, hx, hl, hg, Option.bind_some, Bool.not_true, Bool.false_eq_true, if_false, brickFault, hy, hl']
  refine endLaunch_gone (l := l) ?_ (by decide)
  rw [launchAt, recordFault_bricks]
  exact hl

/-- Settles O24: a boundary keeps the brick's only context (`sliceBoundary_keeps`), a switch brings a context back and is counted
(`contextSwitchEnd_restores`), and a launch that completes or meets its beat limit is gone (`launchComplete_gone`, `beatLimitReached_gone`). -/
theorem slicesAndLaunches : Obligations.SlicesAndLaunches := by
  refine ⟨?_, ?_, ?_, ?_, ?_⟩
  · intro s b beats k x hb hfalls hf hcoming hcur hrot hx hbrick
    obtain ⟨p, q, hctx, hedge, hpassed, hheld, hlost⟩ := sliceBoundary_keeps (beats := beats) hfalls hf hcoming hcur hrot hx hbrick
    exact ⟨_, _, exec_sliceBoundary hb beats s, hctx, rfl, rfl, rfl, rfl, hedge, hpassed, hheld, hlost⟩
  · intro s b k x hcoming hx hg hq hp hn
    have hend := contextSwitchEnd_restores hcoming hx hg hq hp hn
    refine ⟨_, rfl, ?_⟩
    rw [hend, brickAt_congr (switchCounted_bricks ..), ctxAt_congr (switchCounted_bricks ..), brickAt_restored, ctxAt_restored hx, getF_switchCounted]
    exact ⟨rfl, rfl, rfl, congrArg (fun n => min 65535 (n + 1)) (getF_switchStats_readsSome ..)⟩
  · intro s h
    change Host.Outcome.next { s with dev := sliceUsTakes s.dev } = _
    rw [sliceUsTakes, if_pos (by simp [h])]
  · exact fun s id l hl he => ⟨_, rfl, launchComplete_gone hl he⟩
  · exact fun s b k x l hcur hx hl hg => ⟨_, rfl, (beatLimitReached_gone hcur hx hl hg).1⟩

end Sys2Proof.Machine
end

section
/-! SUPPORT. How the tiles of a channel end (R112, R116, R118, R133, R136): what a load brings and where it lands, what a store takes from scratch, and
what a store leaves in memory when it is visible. -/

namespace Sys2Proof.Machine

/-! ## Reads of memory (R145) -/

/-- What a read of memory leaves: the bricks, the queues, the bytes of the memories and the poison. -/
structure Reads (d e : Dev) : Prop where
  bricks : e.bricks = d.bricks
  queues : e.q = d.q
  dev    : e.tiers.dev = d.tiers.dev
  basin  : e.tiers.basin = d.tiers.basin
  poison : e.tiers.poison = d.tiers.poison

namespace Reads

theorem refl (d : Dev) : Reads d d := ⟨rfl, rfl, rfl, rfl, rfl⟩

theorem trans {d e f : Dev} (h : Reads d e) (h' : Reads e f) : Reads d f :=
  ⟨h'.bricks.trans h.bricks, h'.queues.trans h.queues, h'.dev.trans h.dev, h'.basin.trans h.basin, h'.poison.trans h.poison⟩

theorem noteCe (p : Place) (row sym : Nat) (d : Dev) : Reads d (noteCe p row sym d) := by
  unfold Machine.noteCe
  cases hbmAddr p <;> exact ⟨rfl, rfl, rfl, rfl, rfl⟩

theorem correct (met : Place → Bool) (d : Dev) : Reads d (correct met d) :=
  List.foldlRecOn (motive := Reads d) _ _ ⟨rfl, rfl, rfl, rfl, rfl⟩ fun _ h _ _ => h.trans (noteCe ..)

theorem drawFree (d : Dev) : Reads d (drawFree d).2 := ⟨rfl, rfl, rfl, rfl, rfl⟩

theorem readsSome (f : Place → Bool) (d : Dev) : Reads d (readsSome f d) := by
  unfold Machine.readsSome
  dsimp only
  split
  · exact refl d
  · exact (drawFree d).trans (correct ..)

theorem readsScratch (k : Nat) (x : BCtx) (off n : Nat) (d : Dev) : Reads d (readsScratch k x off n d) := by
  unfold Machine.readsScratch
  split
  · exact correct ..
  · exact refl d

theorem poisonOf {d e : Dev} (h : Reads d e) (k : Nat) (x : BCtx) : poisonOf k x e = poisonOf k x d := by
  have hon : onBrick k x e = onBrick k x d := by simp only [onBrick, brickAt, h.bricks]
  rw [Machine.poisonOf, hon, h.poison, Machine.poisonOf]

end Reads

/-! ## One channel of a context -/

/-- A context with one channel changed. -/
def BCtx.onChan (x : BCtx) (ch : Nat) (f : Chan → Chan) : BCtx := { x with chans := Tab.set x.chans ch (f (x.chan ch)) }

@[simp] theorem chan_onChan_self (x : BCtx) (ch : Nat) (f : Chan → Chan) : (x.onChan ch f).chan ch = f (x.chan ch) := by
  simp [BCtx.chan, BCtx.onChan, Tab.getD]

theorem ctxAt_updChan {k : Nat} {x : BCtx} {d : Dev} (hx : ctxAt k d = some x) (ch : Nat) (f : Chan → Chan) :
    ctxAt k (updChan k ch f d) = some (x.onChan ch f) := by
  rw [updChan, ctxAt_updCtx_self, hx]
  rfl

@[simp] theorem finish_done (c : Chan) : c.finish.done = (c.done + 1) % 2 ^ 32 := by
  unfold Chan.finish
  dsimp only
  (repeat' split) <;> rfl

theorem Tab.mem_of_get {α : Type} {t : Tab α} {k : Nat} {v : α} (h : Tab.get t k = some v) : (k, v) ∈ t := by
  induction t with
  | nil => cases h
  | cons p t ih =>
    obtain ⟨a, w⟩ := p
    by_cases ha : a = k
    · simp_all [Tab.get]
    · simp only [Tab.get, if_neg ha] at h
      exact List.mem_cons_of_mem _ (ih h)

/-- The tiles of a channel are those of the table, or none. -/
theorem chan_tiles_of_forall {x : BCtx} {p : TileFl → Prop} (h : ∀ c ∈ x.chans, ∀ v ∈ c.2.tiles, p v) (ch : Nat) : ∀ v ∈ (x.chan ch).tiles, p v := by
  unfold BCtx.chan Tab.getD
  cases hc : Tab.get x.chans ch with
  | none => exact fun _ hv => absurd hv List.not_mem_nil
  | some c => exact h _ (Tab.mem_of_get hc)

/-! ## The current of DDR5 (R45) -/

@[simp] theorem returnGrant_tiers (u : UnitId) (d : Dev) : (returnGrant u d).tiers = d.tiers := by
  unfold returnGrant regrant when_
  dsimp only
  (repeat' split) <;> simp

theorem each_tiers {α : Type} {f : α → Dev → Dev} (h : ∀ x d, (f x d).tiers = d.tiers) (l : List α) (d : Dev) : (each l f d).tiers = d.tiers :=
  List.foldlRecOn (motive := fun a : Dev => a.tiers = d.tiers) _ _ rfl fun _ ha x _ => (h x _).trans ha

@[simp] theorem idleDdr_tiers (d : Dev) : (idleDdr d).tiers = d.tiers := by
  refine each_tiers (fun u d => ?_) _ _
  (repeat' split) <;> simp

/-! ## A load tile (R112, R136) -/

/-- What a load tile brings leaves the bricks and the memories. -/
theorem loadBytes_reads {k ch : Nat} {x : BCtx} {l : Launch} {u : TileFl} {d e : Dev} {bs : List Byte}
    (h : loadBytes k ch x l u d = .inr (bs, e)) : Reads d e := by
  unfold loadBytes loadStaged at h
  dsimp only at h
  (repeat' split at h) <;> cases h
  · exact .readsSome ..
  · exact (Reads.drawFree d).trans (.readsSome ..)
  · exact .refl _
  · exact .correct ..
  · exact .correct ..

theorem clearScratch_keeps {k off n : Nat} {x y : BCtx} {d : Dev} (hy : ctxAt k d = some y) : ∃ p q,
    ctxAt k (clearScratch k x off n d) = some { y with poison := p, recorded := q } ∧
    (clearScratch k x off n d).tiers.basin = d.tiers.basin ∧ (clearScratch k x off n d).tiers.dev = d.tiers.dev := by
  unfold clearScratch
  dsimp only
  split
  · exact ⟨y.poison, y.recorded, hy, rfl, rfl⟩
  · exact ⟨_, _, (ctxAt_updCtx_self ..).trans (congrArg _ hy), rfl, rfl⟩

/-- A write of scratch that meets no poison takes every byte. -/
theorem writeScratch_clean {k off : Nat} {x : BCtx} {l : List Byte} {d : Dev} (hx : ctxAt k d = some x) (hs : off + l.length ≤ 0x300000)
    (hp : ∀ c ∈ poisonOf k x d, c + 16 ≤ off ∨ off + l.length ≤ c) :
    writeScratch k off l d = (clearScratch k x off l.length (updCtx k (fun x => x.put off l) d), none) := by
  have hbad : (poisonOf k x d).filter (fun c => decide (c < off + l.length) && decide (off < c + 16) &&
      !(decide (off ≤ c) && decide (c + 16 ≤ off + l.length))) = [] := by
    refine List.filter_eq_nil_iff.mpr fun c hc => ?_
    have := hp c hc
    simp only [Bool.and_eq_true, decide_eq_true_eq]
    omega
  simp only [writeScratch, hx, hbad, scratchSize, if_neg (Nat.not_lt.mpr hs)]
  rfl

theorem landTile_lands {k ch : Nat} {u : TileFl} {bs : List Byte} {x : BCtx} {d : Dev} (hx : ctxAt k d = some x)
    (hs : u.desc.buffer u.n + bs.length ≤ 0x300000) (hp : ∀ c ∈ poisonOf k x d, c + 16 ≤ u.desc.buffer u.n ∨ u.desc.buffer u.n + bs.length ≤ c) :
    ∃ y, ctxAt k (landTile k ch u bs d) = some y ∧ (y.chan ch).done = ((x.chan ch).done + 1) % 2 ^ 32 ∧ (∀ v ∈ (y.chan ch).tiles, v.n ≠ u.n) ∧
      Safety.Wrote x y (u.desc.buffer u.n) bs ∧ (landTile k ch u bs d).tiers.basin = d.tiers.basin ∧
      (landTile k ch u bs d).tiers.dev = d.tiers.dev := by
  have hput : ctxAt k (updCtx k (fun x => x.put (u.desc.buffer u.n) bs) d) = some (x.put (u.desc.buffer u.n) bs) := by simp [hx]
  obtain ⟨p, q, hctx, hbasin, hdev⟩ := clearScratch_keeps (off := u.desc.buffer u.n) (n := bs.length) (x := x) hput
  rw [landTile, writeScratch_clean hx hs hp]
  refine ⟨_, (ctxAt_congr (idleDdr_bricks _) k).trans (ctxAt_updChan hctx ch _), ?_, ?_, wrote_put rfl rfl _ _, ?_, ?_⟩
  · rw [chan_onChan_self]
    exact finish_done _
  · rw [chan_onChan_self]
    exact fun v hv => by simpa using (List.mem_filter.mp hv).2
  · rw [idleDdr_tiers]
    exact hbasin
  · rw [idleDdr_tiers]
    exact hdev

/-! ### What it brings -/

section Loads

variable {k ch : Nat} {x : BCtx} {l : Launch} {u : TileFl} {d : Dev}

theorem loadBytes_basin (hs : u.desc.space = 1) (hd : u.data = []) {rows : List (Nat × Nat)} (hr : basinRows u.desc u.n x.brick l.inst d = some rows)
    (hp : ∀ r ∈ rows, basinPoison r.2 u.desc.rowBytes d = []) : loadBytes k ch x l u d =
      .inr (rows.flatMap (fun r => Mem.readN d.tiers.basin r.2 u.desc.rowBytes), correct (metBasin (rows.map (fun r => (r.2, u.desc.rowBytes)))) d) := by
  have hnone : rows.flatMap (fun r => basinPoison r.2 u.desc.rowBytes d) = [] := List.flatMap_eq_nil_iff.mpr hp
  simp only [loadBytes, hd, hs, hr, hnone, List.isEmpty_nil, Bool.not_true, Bool.false_eq_true, if_false, if_true]

theorem loadBytes_device (hs : u.desc.space = 0) (hd : u.data = []) {parts : List (Nat × List Byte)} (hr : readSpots d (piecesOf d u.spots) = .ok parts) :
    loadBytes k ch x l u d = .inr (assemble (parts ++ u.got), readsDev ((piecesOf d u.spots).map Prod.snd) d) := by
  simp only [loadBytes, hd, hs, hr, List.isEmpty_nil, Bool.not_true, Bool.false_eq_true, if_false, Nat.zero_ne_one]

theorem loadBytes_staged (hs : u.desc.space = 0) (hd : u.data ≠ []) (hp : d.tiers.poison.filter (inPool (x.brick / 128) d) = []) :
    loadBytes k ch x l u d = .inr (u.data, readsSome (inPool (x.brick / 128) d) d) := by
  have hne : u.data.isEmpty = false := by simpa using hd
  simp only [loadBytes, loadStaged, hne, hs, hp, Bool.not_false, if_true]

end Loads

/-! ## A store tile is read (R112, R116) -/

theorem nextTileAccess_none {x : BCtx} (h : ∀ c ∈ x.chans, ∀ v ∈ c.2.tiles, v.host = []) : nextTileAccess x = none := by
  refine List.findSome?_eq_none_iff.mpr fun c hc => List.findSome?_eq_none_iff.mpr fun v hv => ?_
  rw [h c hc v hv]
  split <;> rfl

/-- A context with no tile that goes to the host sends nothing. -/
theorem pumpTiles_idle {k : Nat} {x : BCtx} {d : Dev} (hx : ctxAt k d = some x) (h : ∀ c ∈ x.chans, ∀ v ∈ c.2.tiles, v.host = []) (n : Nat) :
    pumpTiles k n d = d := by
  cases n with
  | zero => rfl
  | succ n =>
    simp only [pumpTiles, hx, nextTileAccess_none h]
    split <;> rfl

/-- A tile as it stands once it has been read from scratch. -/
def TileFl.taken (bs : List Byte) (seq : Nat) (u : TileFl) : TileFl := { u with data := bs, landed := true, seq := seq }

/-- A channel of which a store tile has been read. -/
def Chan.taken (n : Nat) (bs : List Byte) (seq : Nat) (c : Chan) : Chan :=
  { c.finish with tiles := c.tiles.map (fun u => if u.n = n then u.taken bs seq else u) }

/-- The bytes that a store tile takes from scratch. -/
def takenBytes (x : BCtx) (u : TileFl) : List Byte := (List.range u.desc.len).map (fun i => x.byte (u.desc.buffer u.n + i))

/-- The device after a store tile has been read from scratch. -/
def taking (k ch : Nat) (x : BCtx) (u : TileFl) (d : Dev) : Dev :=
  updChan k ch (fun c => c.taken u.n (takenBytes x u) d.bricks.nextHost) (newId (readsScratch k x (u.desc.buffer u.n) u.desc.len d)).2

theorem readTile_takes {k ch : Nat} {x : BCtx} {l : Launch} {u : TileFl} {d : Dev} (hs : u.desc.buffer u.n + u.desc.len ≤ 0x300000)
    (hp : ∀ c ∈ poisonOf k x d, c + 16 ≤ u.desc.buffer u.n ∨ u.desc.buffer u.n + u.desc.len ≤ c) : readTile k ch x l u d =
      if u.desc.space = 2 then queueTile x l ch u.n u.desc (takenBytes x u) (taking k ch x u d) else pumpTiles k 16 (taking k ch x u d) := by
  have hid : (newId (readsScratch k x (u.desc.buffer u.n) u.desc.len d)).1 = d.bricks.nextHost := by
    rw [newId, (Reads.readsScratch ..).bricks]
  -- `readTile` is unfolded as a function: applied, the kernel would reduce the bound of `readScratch` on its way.
  suffices h : ∀ f, f = readTile → f k ch x l u d = _ from h _ rfl
  intro f hf
  delta readTile at hf
  subst hf
  beta_reduce
  rw [readScratch_ok hs hp]
  dsimp only
  rw [hid]
  rfl

section Taking

variable {k ch : Nat} {x : BCtx} {u : TileFl} {d : Dev}

theorem taking_ctx (hx : ctxAt k d = some x) : ctxAt k (taking k ch x u d) = some (x.onChan ch fun c => c.taken u.n (takenBytes x u) d.bricks.nextHost) :=
  ctxAt_updChan (d := (newId _).2) ((ctxAt_congr (Reads.readsScratch ..).bricks k).trans hx) ch _

theorem taking_tiers : (taking k ch x u d).tiers.dev = d.tiers.dev ∧ (taking k ch x u d).tiers.basin = d.tiers.basin :=
  ⟨(Reads.readsScratch ..).dev, (Reads.readsScratch ..).basin⟩

theorem taking_q : (taking k ch x u d).q = d.q := (Reads.readsScratch ..).queues

end Taking

theorem onChan_taken_host {x : BCtx} (h : ∀ c ∈ x.chans, ∀ v ∈ c.2.tiles, v.host = []) (ch n seq : Nat) (bs : List Byte) :
    ∀ c ∈ (x.onChan ch fun c => c.taken n bs seq).chans, ∀ v ∈ c.2.tiles, v.host = [] := by
  intro c hc
  obtain rfl | hc := Tab.mem_set hc
  · intro v hv
    obtain ⟨u, hu, rfl⟩ := List.mem_map.mp hv
    have hhost := chan_tiles_of_forall h ch u hu
    split <;> exact hhost
  · exact h c hc

/-- A queue whose head waits does not look at its ring. -/
theorem tryRead_headed {q : Nat} {w : WQ} {d : Dev} (hq : wqAt q d = some w) (hh : w.head.isSome = true) : tryRead q d = d := by
  simp only [tryRead, hq, hh, Bool.true_or, if_true]

@[simp] theorem queueTile_bricks (x : BCtx) (l : Launch) (ch n : Nat) (s : SDesc) (data : List Byte) (d : Dev) :
    (queueTile x l ch n s data d).bricks = d.bricks := by simp [queueTile]

/-- The tile that a channel's remote tile is in its queue. -/
def remoteTile (x : BCtx) (ch n : Nat) (s : SDesc) (data : List Byte) : Tile :=
  { load := !s.store, len := s.len, brick := x.brick, chan := ch, index := n, data := data, key := s.key, node := s.node,
    offset := unsignedOf 40 (s.rowAt n 0), imm := if s.index n + 1 = s.count then s.imm else none, launch := x.launch }

/-- The brick-fed queue of a launch's instance takes a tile. -/
def WQ.fed (inst : Nat) (t : Tile) (w : WQ) : WQ :=
  if w.inst = inst && w.feed = 2 && w.state != 2 then { w with tiles := w.tiles ++ [t] } else w

theorem queueTile_eq (x : BCtx) (l : Launch) (ch n : Nat) (s : SDesc) (data : List Byte) (d : Dev) :
    queueTile x l ch n s data d = tryRead l.rq (updWq l.rq (fun w => w.fed l.inst (remoteTile x ch n s data)) d) := rfl

/-- A remote tile enters the brick-fed queue behind those that wait in it. -/
theorem queueTile_enters {x : BCtx} {l : Launch} {q : WQ} {d : Dev} (hq : wqAt l.rq d = some q) (hi : q.inst = l.inst) (hf : q.feed = 2)
    (hs : q.state = 0) (hh : q.head.isSome = true) (ch n : Nat) (s : SDesc) (data : List Byte) : ∃ g e,
      wqAt l.rq (queueTile x l ch n s data d) = some g ∧ g.tiles = q.tiles ++ [e] ∧ e.load = !s.store ∧ e.key = s.key ∧ e.node = s.node ∧
      e.data = data := by
  have hfed : ∀ t, q.fed l.inst t = { q with tiles := q.tiles ++ [t] } := fun t => if_pos (by simp [hi, hf, hs])
  have hself : wqAt l.rq (updWq l.rq (fun w => w.fed l.inst (remoteTile x ch n s data)) d) =
      some { q with tiles := q.tiles ++ [remoteTile x ch n s data] } := by
    rw [wqAt_updWq_self, hq, Option.map_some, hfed]
  rw [queueTile_eq, tryRead_headed hself hh]
  exact ⟨_, _, hself, rfl, rfl, rfl, rfl, rfl⟩

/-! ## A store tile is visible (R118) -/

/-- A write of basin rows past no poison writes every byte. -/
theorem writeBasin_basin (a : Nat) (l : List Byte) (d : Dev) : (writeBasin [] a l d).tiers.basin = Mem.writeN d.tiers.basin a l := by
  have hkeep : ((List.range l.length).map (fun i => (a + i, l.getD i 0))).filter
      (fun p => !([] : List Place).contains (.basin (p.1 / 2 ^ 27) (p.1 % 2 ^ 27 / 16 * 16))) =
      (List.range l.length).map (fun i => (a + i, l.getD i 0)) := by simp
  have hfold : ∀ (l : List Byte) (a : Nat) (m : Mem),
      ((List.range l.length).map (fun i => (a + i, l.getD i 0))).foldl (fun m p => Mem.write m p.1 p.2) m = Mem.writeN m a l := by
    intro l
    induction l with
    | nil => exact fun _ _ => rfl
    | cons b l ih =>
      intro a m
      rw [List.length_cons, List.range_succ_eq_map, List.map_cons, List.foldl_cons, List.map_map, Mem.writeN, ← ih (a + 1)]
      simp [Function.comp_def, Nat.add_assoc, Nat.add_comm 1]
  simp only [writeBasin, hkeep, hfold]

/-- The device after the rows of a tile are written to the basin past no poison. -/
def rowsWritten (data : List Byte) (n : Nat) (rows : List (Nat × Nat)) (d : Dev) : Dev :=
  each rows (fun r => writeBasin [] r.2 ((data.drop r.1).take n)) d

theorem rowsWritten_keeps (data : List Byte) (n : Nat) (rows : List (Nat × Nat)) (d : Dev) :
    (rowsWritten data n rows d).bricks = d.bricks ∧ (rowsWritten data n rows d).tiers.dev = d.tiers.dev :=
  List.foldlRecOn (motive := fun a : Dev => a.bricks = d.bricks ∧ a.tiers.dev = d.tiers.dev) _ _ ⟨rfl, rfl⟩ fun _ h _ _ => h

theorem rowsWritten_outside (data : List Byte) (n : Nat) (rows : List (Nat × Nat)) (d : Dev) {a : Nat} (h : ∀ r ∈ rows, a < r.2 ∨ r.2 + n ≤ a) :
    Mem.read (rowsWritten data n rows d).tiers.basin a = Mem.read d.tiers.basin a := by
  refine List.foldlRecOn (motive := fun e : Dev => Mem.read e.tiers.basin a = Mem.read d.tiers.basin a) _ _ rfl fun e he r hr => Eq.trans ?_ he
  have hlen : ((data.drop r.1).take n).length ≤ n := List.length_take_le ..
  have := h r hr
  rw [writeBasin_basin, Mem.read_writeN_outside _ _ (by omega)]

theorem rowsWritten_inside (data : List Byte) (n : Nat) (r : Nat × Nat) (d : Dev) {i : Nat} (hi : i < n) (hd : r.1 + i < data.length) :
    Mem.read (rowsWritten data n [r] d).tiers.basin (r.2 + i) = data.getD (r.1 + i) 0 := by
  have hlen : i < ((data.drop r.1).take n).length := by simp; omega
  change Mem.read (writeBasin [] r.2 ((data.drop r.1).take n) d).tiers.basin (r.2 + i) = _
  rw [writeBasin_basin, Mem.read_writeN_inside _ _ hlen, List.getElem_take, List.getElem_drop, List.getD_eq_getElem _ _ hd]

@[simp] theorem mirrorWrite_basin (a : Nat) (l : List Byte) (d : Dev) : (writePieces.mirrorWrite a l d).tiers.basin = d.tiers.basin := by
  unfold writePieces.mirrorWrite
  (repeat' split) <;> rfl

theorem writePieces_basin (ps : List (Nat × Nat)) (l : List Byte) (d : Dev) : (writePieces ps l d).1.tiers.basin = d.tiers.basin := by
  induction ps generalizing l d with
  | nil => rfl
  | cons p ps ih => exact (ih ..).trans (mirrorWrite_basin ..)

theorem writeSpots_keeps (data : List Byte) (ps : List (Nat × Nat × Nat)) (d : Dev) :
    (writeSpots data ps d).1.bricks = d.bricks ∧ (writeSpots data ps d).1.tiers.basin = d.tiers.basin := by
  induction ps generalizing d with
  | nil => exact ⟨rfl, rfl⟩
  | cons p ps ih => exact (ih _).imp (Eq.trans · (writePieces_bricks ..)) (Eq.trans · (writePieces_basin ..))

/-- A write of one piece with no move under way changes no byte outside it. -/
theorem writeSpots_outside (data : List Byte) (p : Nat × Nat × Nat) {d : Dev} (hm : d.xl.move = none) {a : Nat} (ha : a < p.2.1 ∨ p.2.1 + p.2.2 ≤ a) :
    Mem.read (writeSpots data [p] d).1.tiers.dev a = Mem.read d.tiers.dev a := by
  have hmirror : ∀ l, writePieces.mirrorWrite p.2.1 l (writePhys p.2.1 l d) = writePhys p.2.1 l d := fun l => by
    rw [writePieces.mirrorWrite, show (writePhys p.2.1 l d).xl.move = none from hm]
  have hlen : (((data.drop p.1).take p.2.2).take p.2.2).length ≤ p.2.2 := List.length_take_le ..
  simp only [writeSpots, writePieces, hmirror]
  exact writePhys_outside _ _ _ (ha.imp_right (Nat.add_le_add_left hlen _).trans)

theorem seeTile_leaves {k : Nat} {x : BCtx} {d : Dev} (hx : ctxAt k d = some x) (hw : ∀ i v u, x.wait ≠ .cadd i v u) (ch n : Nat) :
    (∃ y, ctxAt k (seeTile k ch n d) = some y ∧ ∀ v ∈ (y.chan ch).tiles, v.n ≠ n) ∧ (seeTile k ch n d).tiers = d.tiers := by
  have hctx := (ctxAt_congr (idleDdr_bricks _) k).trans (ctxAt_updChan hx ch fun c => { c with tiles := c.tiles.filter (fun t => t.n != n) })
  rw [seeTile, settleCtx_of_no_cadd hctx hw]
  refine ⟨⟨_, hctx, ?_⟩, idleDdr_tiers _⟩
  rw [chan_onChan_self]
  exact fun v hv => by simpa using (List.mem_filter.mp hv).2

section Visible

variable {b ch n k : Nat} {x : BCtx} {u : TileFl} {l : Launch} {d : Dev}
  (hfind : (ctxsOf b d).findSome? (fun p => (storeReady p.2 ch n d).map (fun t => (p.1, p.2, t))) = some (k, x, u))
  (hl : launchAt x.launch d = some l)
include hfind hl

theorem storeTileVisible_basin (hs : u.desc.space = 1) {rows : List (Nat × Nat)} (hr : basinRows u.desc n b l.inst d = some rows)
    (hb : basinBad rows u.desc.rowBytes d = []) : storeTileVisible b ch n d = seeTile k ch n (rowsWritten u.data u.desc.rowBytes rows d) := by
  simp only [storeTileVisible, hfind, hl, hs, hr, hb, if_true, List.isEmpty_nil, rowsWritten]

theorem storeTileVisible_device (hs : u.desc.space = 0) (hw : (writeSpots u.data (piecesOf d u.spots) d).2 = none) :
    storeTileVisible b ch n d = seeTile k ch n (writeSpots u.data (piecesOf d u.spots) d).1 := by
  simp only [storeTileVisible, hfind, hl, hs, hw, Nat.zero_ne_one, if_false]

end Visible

/-! ## The end of a tile, assembled -/

theorem streamTileDone_store {b ch k : Nat} {x : BCtx} {u : TileFl} {l : Launch} {d : Dev} (hd : doneTile b ch d = some (k, x, u))
    (hl : launchAt x.launch d = some l) (hs : u.desc.store = true) : streamTileDone b ch d = readTile k ch x l u d := by
  simp only [streamTileDone, hd, hl, hs, if_true]

theorem streamTileDone_load {b ch k : Nat} {x : BCtx} {u : TileFl} {l : Launch} {d e : Dev} {bs : List Byte} (hd : doneTile b ch d = some (k, x, u))
    (hl : launchAt x.launch d = some l) (hs : u.desc.store = false) (hb : loadBytes k ch x l u d = .inr (bs, e)) :
    streamTileDone b ch d = landTile k ch u bs e := by
  simp only [streamTileDone, hd, hl, hs, hb, Bool.false_eq_true, if_false]

section Read

variable {k ch : Nat} {x : BCtx} {l : Launch} {u : TileFl} {d : Dev} (hx : ctxAt k d = some x) (hs : u.desc.buffer u.n + u.desc.len ≤ 0x300000)
  (hp : ∀ c ∈ poisonOf k x d, c + 16 ≤ u.desc.buffer u.n ∨ u.desc.buffer u.n + u.desc.len ≤ c)

theorem chan_taken_done : ((x.onChan ch fun c => c.taken u.n (takenBytes x u) d.bricks.nextHost).chan ch).done = ((x.chan ch).done + 1) % 2 ^ 32 := by
  rw [chan_onChan_self]
  exact finish_done _

theorem chan_taken_mem {v : TileFl} (hv : v ∈ (x.chan ch).tiles) (hn : v.n = u.n) :
    v.taken (takenBytes x u) d.bricks.nextHost ∈ ((x.onChan ch fun c => c.taken u.n (takenBytes x u) d.bricks.nextHost).chan ch).tiles := by
  rw [chan_onChan_self]
  exact List.mem_map.mpr ⟨v, hv, if_pos hn⟩

include hx hs hp

/-- A local store tile is taken from scratch. -/
theorem readTile_local (hspace : u.desc.space < 2) (hhost : ∀ c ∈ x.chans, ∀ v ∈ c.2.tiles, v.host = []) : readTile k ch x l u d = taking k ch x u d := by
  rw [readTile_takes hs hp, if_neg (Nat.ne_of_lt hspace)]
  exact pumpTiles_idle (taking_ctx hx) (onChan_taken_host hhost _ _ _ _) 16

/-- A remote store tile is taken from scratch and enters the launch's queue. -/
theorem readTile_remote (hspace : u.desc.space = 2) (hstore : u.desc.store = true) {q : WQ} (hq : wqAt l.rq d = some q) (hi : q.inst = l.inst)
    (hf : q.feed = 2) (hst : q.state = 0) (hh : q.head.isSome = true) : ∃ g e,
      ctxAt k (readTile k ch x l u d) = some (x.onChan ch fun c => c.taken u.n (takenBytes x u) d.bricks.nextHost) ∧
      wqAt l.rq (readTile k ch x l u d) = some g ∧ g.tiles = q.tiles ++ [e] ∧ e.load = false ∧ e.key = u.desc.key ∧ e.node = u.desc.node ∧
      e.data = takenBytes x u := by
  have hq' : wqAt l.rq (taking k ch x u d) = some q := by rw [wqAt, taking_q, ← wqAt, hq]
  obtain ⟨g, e, hg, htiles, hload, hrest⟩ := queueTile_enters hq' hi hf hst hh (x := x) ch u.n u.desc (takenBytes x u)
  rw [readTile_takes hs hp, if_pos hspace]
  exact ⟨g, e, (ctxAt_congr (queueTile_bricks ..) k).trans (taking_ctx hx), hg, htiles, by rw [hload, hstore]; rfl, hrest⟩

end Read

namespace Tiles

/-- Settles O21: a load lands (`landTile_lands`) with what `loadBytes_basin`, `loadBytes_device` and `loadBytes_staged` say that it brings, a store is
taken from scratch (`readTile_local`, `readTile_remote`), and is written where it goes when it is visible (`storeTileVisible_basin`,
`storeTileVisible_device`). -/
theorem tileEnds : Obligations.TileEnds := by
  intro s b ch k x u l hx hl hb
  subst hb
  refine ⟨?_, ?_, ?_, ?_, ?_, ?_, ?_⟩
  · intro bs e hd hstore hload hs hp
    have hreads := loadBytes_reads hload
    obtain ⟨y, hy, hdone, htiles, hwrote, hbasin, hdev⟩ := landTile_lands ((ctxAt_congr hreads.bricks k).trans hx) hs (by rwa [hreads.poisonOf]) (ch := ch)
    rw [← streamTileDone_load hd hl hstore hload] at hy hbasin hdev
    exact ⟨_, y, rfl, hy, hdone, htiles, hwrote, hbasin.trans hreads.basin, hdev.trans hreads.dev⟩
  · exact fun hs hd rows hr hp => loadBytes_basin hs hd hr hp
  · exact fun hs hd parts hr => loadBytes_device hs hd hr
  · exact fun hs hd hp => loadBytes_staged hs hd hp
  · intro hd hstore hspace hs hp hhost
    have hrun := (streamTileDone_store hd hl hstore).trans (readTile_local hx hs hp hspace hhost)
    obtain ⟨hdev, hbasin⟩ := taking_tiers (k := k) (ch := ch) (x := x) (u := u) (d := s.dev)
    have hctx := taking_ctx (ch := ch) (u := u) hx
    rw [← hrun] at hdev hbasin hctx
    exact ⟨_, _, rfl, hctx, chan_taken_done, fun v hv hn => chan_taken_mem hv hn, rfl, hdev, hbasin⟩
  · intro hd hstore hspace hs hp q hq hi hf hst hh
    obtain ⟨g, e, hctx, hg, hrest⟩ := readTile_remote (ch := ch) (l := l) hx hs hp hspace hstore hq hi hf hst hh
    rw [← streamTileDone_store hd hl hstore] at hctx hg
    exact ⟨_, _, g, e, rfl, hctx, chan_taken_done, hg, hrest⟩
  · intro n hfind hw
    refine ⟨fun hs rows hr hbad => ?_, fun hs hwhole => ?_⟩
    · obtain ⟨hbricks, hdev⟩ := rowsWritten_keeps u.data u.desc.rowBytes rows s.dev
      obtain ⟨⟨y, hy, htiles⟩, htiers⟩ := seeTile_leaves ((ctxAt_congr hbricks k).trans hx) hw ch n
      rw [← storeTileVisible_basin hfind hl hs hr hbad] at hy htiers
      refine ⟨_, y, rfl, hy, htiles, ?_, ?_, (congrArg Tiers.dev htiers).trans hdev⟩
      · rintro r rfl i hi hd
        exact (congrArg (fun t : Tiers => Mem.read t.basin _) htiers).trans (rowsWritten_inside _ _ _ _ hi hd)
      · exact fun a ha => (congrArg (fun t : Tiers => Mem.read t.basin a) htiers).trans (rowsWritten_outside _ _ _ _ ha)
    · obtain ⟨hbricks, hbasin⟩ := writeSpots_keeps u.data (piecesOf s.dev u.spots) s.dev
      obtain ⟨⟨y, hy, htiles⟩, htiers⟩ := seeTile_leaves ((ctxAt_congr hbricks k).trans hx) hw ch n
      rw [← storeTileVisible_device hfind hl hs hwhole] at hy htiers
      refine ⟨_, y, rfl, hy, htiles, ?_, congrArg Tiers.dev htiers, (congrArg Tiers.basin htiers).trans hbasin⟩
      intro p hpieces hm a ha
      rw [hpieces] at htiers
      exact (congrArg (fun t : Tiers => Mem.read t.dev a) htiers).trans (writeSpots_outside _ _ hm ha)

end Tiles

end Sys2Proof.Machine
end

section
/-! SUPPORT. Two statements on a channel and on the host window that fail on states that no program reaches: the states, and what the model does with
them (R110, R112, R116, R119). -/

namespace Sys2Proof.Machine

/-! ## A remote store whose descriptor names the space of the remote loads -/

/-- A descriptor of one tile in space 3 that is a store: `SDesc.ok` refuses it, and a channel's record can hold it. -/
def storeInLoadSpace : SDesc :=
  { mem := 4096, key := 0, node := 1, scratch := 256, bufBytes := 64, rowStride := 0, tileStride := 64, rows := 1, rowBytes := 64, count := 1,
    buffers := 1, space := 3, store := true, prefetch := 0, imm := none, first := 0, pc := 64, word := 0 }

/-- A launch of instance 0 on brick 0, with the brick-fed queue 6. -/
def remoteLaunch : Launch :=
  { inst := 0, q := 9, idx := 0, bricks := [0], act := 2, code := 0, arg := 0, faultAt := 0, limit := 1000, ctx := 1, rq := 6, devUs := 1000, since := 0 }

/-- Its context has ended with the tile of channel 3 posted. -/
def postedCtx : BCtx :=
  { BCtx.start remoteLaunch 1 0 0 0 with
    wait := .ended
    chans := [(3, { cur := some storeInLoadSpace, next := none, posted := 1, done := 0, started := 0, asks := [], tiles := [] })] }

/-- A brick-fed queue of instance 0 whose head waits. -/
def feedQueue : WQ :=
  { inst := 0, cr := 3, log2 := 6, cls := 0, refuse := false, delay := 10, feed := 2, page := 2, loc := 0, ring := 0, lda := 0, ctx := 1,
    domain := 0, leaf := 0, prodCtr := 0, p := 0, c := 0, state := 0,
    head := some { idx := 0, bytes := [], tile := none, bad := none, slot := none, since := 0, seqs := [], table := [], judged := false, chans := [] },
    reading := false, stalled := false, tiles := [], flight := [], firstErr := 0, win := 65536, winAcked := 0, winCut := false, detached := false,
    again := false, errIdx := 0, errAt := 0, muted := false }

/-- The tile's start, with the launch, its context and its queue. -/
def postedState : State :=
  { State.reset with dev := { Dev.reset with
      bricks := { Bricks.reset with ctxs := [(1024, postedCtx)], launches := [(1, remoteLaunch)] }
      q := { Queues.reset with wqs := [(6, feedQueue)] } } }

theorem storeInLoadSpace_malformed : storeInLoadSpace.ok = false := by decide

theorem startCtx_posted : startCtx 0 3 postedState.dev = some (1024, postedCtx, storeInLoadSpace) := by decide +kernel

/-- The tile goes to the queue as a store. -/
theorem queued_posted : (wqAt 6 (streamTileStart 0 3 postedState.dev)).map (fun g => g.tiles.map Tile.load) = some [false] := by decide +kernel

/-- Refutes O20: the statement lets the descriptor in a channel be any, also one of space 3 with its store bit set, which `SDesc.ok` refuses
(`storeInLoadSpace_malformed`). A remote tile enters the brick-fed queue as its descriptor says, a load or a store (`queueTile_enters`); the statement
says that this one enters as a load. -/
theorem not_streamsAndTiles : ¬ Obligations.StreamsAndTiles := by
  rintro ⟨-, hstart, -⟩
  obtain ⟨t, y, ht, -, -, -, -, -, -, hq⟩ := hstart postedState 0 3 1024 postedCtx storeInLoadSpace remoteLaunch startCtx_posted rfl (by decide) (by decide)
    (by decide) rfl
  obtain ⟨g, e, hg, htiles, hload, -⟩ := hq rfl feedQueue rfl rfl rfl rfl rfl
  obtain rfl := Host.Outcome.next.inj ht
  have hqueued := queued_posted
  rw [show wqAt 6 (streamTileStart 0 3 postedState.dev) = some g from hg, Option.map_some, htiles] at hqueued
  simp [feedQueue, hload] at hqueued

/-! ## An access in flight under the number that the next one takes -/

/-- A vector load of S6 in its unit. -/
def heldLoad : UOp := { id := 5, kind := .vload, pc := 56, word := 6 * 2 ^ 38, s := [(6, 128)], v := [], loc := 0, begun := false }

/-- A context at address 64 whose vector load waits for an HLD in flight to land in its range of scratch: that HLD has the number 0. -/
def heldCtx : BCtx :=
  { BCtx.start remoteLaunch 1 0 0 0 with
    s := [(4, 2 ^ 40), (6, 128)], pc := 64, ops := [heldLoad]
    host := [(0, .loadS { pc := 48, word := 0, va := 2 ^ 40, addr := 0x7000, back := none } 128 [])] }

def heldBrick : Brick :=
  { rot := [1024], cur := some 1024, coming := none, edge := 0, since := 0, began := 0, late := false, passed := 0, failing := none, decided := 0 }

/-- Brick 0 runs the launch 1 under its grant, in a segment of a whole frame; a host page of its context is in the brick's cache, and the next host
access has the number 0. -/
def heldState : State :=
  { State.reset with dev := updRail 0 (fun r => { r with grants := [⟨.brick 0, 4, some 0⟩] }) { Dev.reset with
      start := { Startup.reset with ready := true }
      link := { Link.reset with up := true, trained := true, width := 2 }
      insts := [(0, { state := 1, gen := 7, lastGen := 7, bricks := [0], node := 1, leaf0 := 0, leaves := 64, shareDue := false, started := 0 })]
      xl := { Xlate.reset with
        ctxs := [(1, { inst := 0, root := 0, limit := 0, mode := 0, segs := [(0, ⟨0, 1, 3, 7⟩)], dying := false })]
        lfns := [(3, { inst := 0, pfn := 5, table := false, fixed := false, run := none, keep := false, count := 0, dying := false })]
        cache := [{ cache := 16, ctx := 1, base := 2 ^ 40, size := 4096, host := true, lfn := 0, addr := 0x7000, perm := 3, seg := false }] }
      bricks := { Bricks.reset with
        bricks := [(0, heldBrick)]
        ctxs := [(1024, heldCtx)], launches := [(1, remoteLaunch)] } } }

/-- The device after the fetch at address 64. -/
def heldFetched : Dev :=
  readsDev [(5 * 2 ^ 26 + 64, 8)] (countFetch 1 3 0 (fillAt 1 64 .fetch (.fetch 0) (wakeUnits 0 heldState.dev)))

theorem held_fetched : Safety.Fetched 0 heldState 1024 heldCtx remoteLaunch heldFetched :=
  ⟨by decide +kernel, rfl, 3, 64, 0, 2 ^ 26, 7, true, 5 * 2 ^ 26 + 64, List.replicate 8 0, by decide +kernel, by decide +kernel, by rfl, rfl,
    by decide +kernel⟩

/-- An HLD of the address in S4 into the first quarter of V8. -/
def hldWord : Word64 := BitVec.ofNat 64 (9 * 2 ^ 60 + 8 * 2 ^ 43 + 4 * 2 ^ 38)

/-- What the units of a context hold after an outcome. -/
def opsAfter (k : Nat) (o : Host.Outcome State Fault Refusal) : Option (List UOp) :=
  match o with
  | .next t => (ctxAt k t.dev).map BCtx.ops
  | _ => none

/-- The HLD takes the place of the one that the vector load waits for, and the vector load is done. -/
theorem opsAfter_held : opsAfter 1024 (exec (.hld 0 true hldWord) heldState) = some [] := by decide +kernel

theorem beginsAt_held : Safety.BeginsAt (Safety.handed (.hld true) hldWord.toNat 0 heldCtx heldFetched) heldCtx := by
  refine ⟨by decide +kernel, by decide +kernel, by decide +kernel⟩

/-- Refutes O22: the statement lets a context hold a host access under the number that its next one takes, which the numbering of
`Bricks.nextHost` never does. An HLD then enters in place of that access, whose range of scratch holds nothing any more, and a vector load that
waited for it begins, while the statement says that the units' instructions stay. -/
theorem not_prefetchAndHostWindow : ¬ Obligations.PrefetchAndHostWindow := by
  rintro ⟨-, hhost, -⟩
  obtain ⟨t, ht, ⟨y, hy, -, -, -, -, hops, -⟩, -⟩ := (hhost heldState 0 1024 heldCtx remoteLaunch heldFetched hldWord true 0x7000 (2 ^ 40) 4096 3 held_fetched
    (by decide +kernel) (by decide +kernel) (by decide +kernel) (by decide +kernel) (by decide +kernel) (by decide +kernel)).1
    beginsAt_held (by decide +kernel)
  have hafter := opsAfter_held
  rw [ht, opsAfter, hy, Option.map_some, hops] at hafter
  simp [heldCtx] at hafter

end Sys2Proof.Machine
end

section
/-! SUPPORT. The memories right after reset, and the basin's windows and pool (R133, R134, R143): what a write of a window or of the pool's size
leaves, and what comes into force when no launch keeps it back. -/

namespace Sys2Proof.Machine

/-- Settles O5: no memory holds a byte right after reset, and the empty memory is in its canonical form. -/
theorem resetMemoryForm : Obligations.ResetMemoryForm := ⟨Mem.wf_nil, Mem.wf_nil, Mem.wf_nil⟩

/-! ## Writes of one register -/

theorem sameRegs_setW (n : RegName) (i j w : Nat) (d : Dev) : Safety.SameRegs [addrOf n i j] d (setW n i j w d) :=
  fun _ ha => Tab.get_set_other _ _ (by simpa using ha)

theorem getF_setW_self {w : Nat} (hw : w < 2 ^ 32) (n : RegName) (i j hi lo : Nat) (d : Dev) :
    getF n i j hi lo (setW n i j w d) = bitsOf w hi lo := by
  rw [getF, getW_setW_self, Nat.mod_eq_of_lt hw]

/-- A write of the manager happens where the module is READY and the link is open (R15, R478). -/
theorem managerWrite_ready {d : Dev} (hr : d.start.ready = true) (hl : linkOpen d = true) (a : Nat) (f : Dev → Dev) : managerWrite a f d = f d := by
  simp [managerWrite, hr, hl]

/-- A written word stays within 32 bits (R11). -/
theorem write_lt {r : RegRow} (hr : r ∈ regRows) (h32 : ∀ f ∈ r.fields, f.hi < 32) (old w : Nat) : r.write old w < 2 ^ 32 :=
  packed_lt (laid_of_mem hr) (fits_write hr old w) h32

/-! ## Memory filled with zeros (R134, R143) -/

theorem Tab.get_filter_key {α : Type} (t : Tab α) (f : Nat → Bool) (k : Nat) :
    Tab.get (t.filter (fun p => f p.1)) k = if f k then Tab.get t k else none := by
  induction t with
  | nil => simp [Tab.get]
  | cons p t ih =>
    obtain ⟨a, v⟩ := p
    by_cases ha : a = k
    · subst ha
      cases hf : f a <;> simp_all [Tab.get]
    · cases hf : f a <;> simp [Tab.get, ha, hf, ih]

theorem Mem.read_zero (m : Mem) (a n x : Nat) : Mem.read (Mem.zero m a n) x = if a ≤ x ∧ x < a + n then 0 else Mem.read m x := by
  have h := Tab.get_filter_key m (fun k => !(decide (a ≤ k) && decide (k < a + n))) x
  simp only [Mem.read, Mem.zero, Tab.getD, h]
  by_cases hx : a ≤ x ∧ x < a + n
  · simp [hx]
  · simp [hx, show x < a ∨ a + n ≤ x by omega]

theorem Mem.read_zero_inside (m : Mem) (a : Nat) {n i : Nat} (h : i < n) : Mem.read (Mem.zero m a n) (a + i) = 0 := by
  rw [Mem.read_zero, if_pos (by omega)]

theorem Mem.read_zero_outside (m : Mem) {a n x : Nat} (h : x < a ∨ a + n ≤ x) : Mem.read (Mem.zero m a n) x = Mem.read m x := by
  rw [Mem.read_zero, if_neg (by omega)]

/-! ## Units of the basin filled with zeros (R134, R135) -/

/-- Filling units of the basins with zeros changes the basins' bytes, and the errors that were known of them, alone. -/
theorem zeroUnits_frame (size base : Nat) (d : Dev) : zeroUnits size base d = { d with tiers := { d.tiers with
    basin := (zeroUnits size base d).tiers.basin, poison := (zeroUnits size base d).tiers.poison,
    logged := (zeroUnits size base d).tiers.logged, soft := (zeroUnits size base d).tiers.soft } } := rfl

theorem read_zeroUnits {size base die i : Nat} (hd : die < 8) (hi : i < size * 2 ^ 18) (d : Dev) :
    Mem.read (zeroUnits size base d).tiers.basin (die * 2 ^ 27 + base * 2 ^ 18 + i) = 0 := by
  have keeps : ∀ (l : List Nat) (e : Dev) (x : Nat), Mem.read e.tiers.basin x = 0 →
      Mem.read (each l (fun die d => { d with tiers := { d.tiers with
        basin := Mem.zero d.tiers.basin (die * 2 ^ 27 + base * 2 ^ 18) (size * 2 ^ 18) } }) e).tiers.basin x = 0 := by
    intro l
    induction l with
    | nil => exact fun _ _ h => h
    | cons k l ih =>
      intro e x h
      refine ih _ x ?_
      dsimp only
      rw [Mem.read_zero, h, ite_self]
  have fills : ∀ (l : List Nat) (e : Dev), die ∈ l →
      Mem.read (each l (fun die d => { d with tiers := { d.tiers with
        basin := Mem.zero d.tiers.basin (die * 2 ^ 27 + base * 2 ^ 18) (size * 2 ^ 18) } }) e).tiers.basin (die * 2 ^ 27 + base * 2 ^ 18 + i) = 0 := by
    intro l
    induction l with
    | nil => exact fun _ h => absurd h List.not_mem_nil
    | cons k l ih =>
      intro e h
      rcases List.mem_cons.mp h with rfl | h
      · exact keeps l _ _ (Mem.read_zero_inside _ _ hi)
      · exact ih _ h
  exact fills _ _ (List.mem_range.mpr hd)

/-! ## Writes of a window and of the pool (R134) -/

/-- The row of BASIN_WINDOW. -/
def windowRow : RegRow := ⟨.basinWindow, 0x30500, 64, 0x4, 1, 0x0, [w1 31, ro 30 30 0, rw 24 16 0, rw 8 0 0]⟩

/-- The row of BASIN_POOL. -/
def poolRow : RegRow := ⟨.basinPool, 0x30400, 1, 0x0, 1, 0x0, [w1 17, ro 16 16 0, rwl 6 0 32 (.atMost 64)]⟩

theorem rowOf_basinWindow : rowOf .basinWindow = some windowRow := by decide +kernel
theorem rowOf_basinPool : rowOf .basinPool = some poolRow := by decide +kernel

theorem windowRow_mem : windowRow ∈ regRows := by decide +kernel
theorem poolRow_mem : poolRow ∈ regRows := by decide +kernel

/-- SIZE and BASE are taken as they are written. -/
theorem windowRow_write (old w : Nat) : bitsOf (windowRow.write old w) 24 16 = bitsOf w 24 16 ∧ bitsOf (windowRow.write old w) 8 0 = bitsOf w 8 0 :=
  ⟨bitsOf_write windowRow_mem (f := rw 24 16 0) (by decide) old w, bitsOf_write windowRow_mem (f := rw 8 0 0) (by decide) old w⟩

/-- SIZE of the pool is taken up to 64. -/
theorem poolRow_write (old w : Nat) : bitsOf (poolRow.write old w) 6 0 = min (bitsOf w 6 0) 64 :=
  bitsOf_write poolRow_mem (f := rwl 6 0 32 (.atMost 64)) (by decide) old w

theorem windowRow_write_lt (old w : Nat) : windowRow.write old w < 2 ^ 32 := write_lt windowRow_mem (by decide) old w
theorem poolRow_write_lt (old w : Nat) : poolRow.write old w < 2 ^ 32 := write_lt poolRow_mem (by decide) old w

/-- A window that clashes with none is taken. -/
theorem basinWindowWrite_taken {n data : Nat} {d : Dev} (h : windowClash n (bitsOf data 24 16, bitsOf data 8 0) d = false) :
    basinWindowWrite n data d = setW .basinWindow n 0 (windowRow.write (getW .basinWindow n 0 d) data) d := by
  obtain ⟨hs, hb⟩ := windowRow_write (getW .basinWindow n 0 d) data
  simp [basinWindowWrite, rowOf_basinWindow, hs, hb, h]

/-- A window that clashes leaves SIZE and BASE, and sets CONFLICT. -/
theorem basinWindowWrite_refused {n data : Nat} {d : Dev} (h : windowClash n (bitsOf data 24 16, bitsOf data 8 0) d = true) :
    basinWindowWrite n data d = setW .basinWindow n 0 (withBits (withBits (withBits (windowRow.write (getW .basinWindow n 0 d) data) 8 0
      (getF .basinWindow n 0 8 0 d)) 24 16 (getF .basinWindow n 0 24 16 d)) 31 31 1) d := by
  obtain ⟨hs, hb⟩ := windowRow_write (getW .basinWindow n 0 d) data
  simp [basinWindowWrite, rowOf_basinWindow, hs, hb, h, getF]

theorem basinPoolWrite_taken {data : Nat} {d : Dev} (h : poolClash (min (bitsOf data 6 0) 64) d = false) :
    basinPoolWrite data d = setW .basinPool 0 0 (poolRow.write (getW .basinPool 0 0 d) data) d := by
  simp [basinPoolWrite, rowOf_basinPool, poolRow_write, h]

theorem basinPoolWrite_refused {data : Nat} {d : Dev} (h : poolClash (min (bitsOf data 6 0) 64) d = true) :
    basinPoolWrite data d = setW .basinPool 0 0 (withBits (withBits (poolRow.write (getW .basinPool 0 0 d) data) 6 0
      (getF .basinPool 0 0 6 0 d)) 17 17 1) d := by
  simp [basinPoolWrite, rowOf_basinPool, poolRow_write, h, getF]

/-- A field that was replaced by itself, under another that was set above it, reads as it did. -/
theorem getF_setW_withBits_above {n : RegName} {i j w v x hi lo b : Nat} (hw : w < 2 ^ 32) (hl : lo ≤ hi) (hb : hi < b) (h32 : b < 32) (d : Dev) :
    getF n i j hi lo (setW n i j (withBits (withBits w hi lo v) b b x) d) = v % 2 ^ (hi + 1 - lo) ∧
    getF n i j b b (setW n i j (withBits (withBits w hi lo v) b b x) d) = x % 2 := by
  have h1 : withBits w hi lo v < 2 ^ 32 := withBits_lt hw hl (by omega)
  have h2 := withBits_lt (v := x) h1 (le_refl b) h32
  rw [getF_setW_self h2, getF_setW_self h2, bitsOf_withBits_below _ _ hb hl (le_refl b), bitsOf_withBits_self _ _ hl,
    bitsOf_withBits_self _ _ (le_refl b)]
  exact ⟨rfl, by rw [Nat.add_sub_cancel_left, Nat.pow_one]⟩

section Writes

variable {s : State} {n data : Nat} (hr : s.dev.start.ready = true) (hl : linkOpen s.dev = true)
include hr hl

theorem exec_basinWindowWrite (hn : n < 64) : exec (.basinWindowWrite n data) s = .next { s with dev := basinWindowWrite n data s.dev } := by
  change execBasinWindowWrite n data s = _
  rw [execBasinWindowWrite, overLink_unheld (unheld_of_linkOpen hl), if_pos hn, managerWrite_ready hr hl]

theorem exec_basinPoolWrite : exec (.basinPoolWrite data) s = .next { s with dev := basinPoolWrite data s.dev } := by
  change execBasinPoolWrite data s = _
  rw [execBasinPoolWrite, overLink_unheld (unheld_of_linkOpen hl), managerWrite_ready hr hl]

end Writes

/-! ## What comes into force (R134) -/

theorem exec_basinWindowTakesEffect (n : Option Nat) (s : State) :
    exec (.basinWindowTakesEffect n) s = .next { s with dev := basinTakes n s.dev } := rfl

/-- A window's written value comes into force, zero-filled, when no launch of its instance is admitted. -/
theorem basinTakes_window {n : Nat} {d : Dev} (h : windowReg n d ≠ windowNow n d) (hb : d.bricks.launches.any (fun l => l.2.inst == n) = false) :
    basinTakes (some n) d = { zeroUnits (windowReg n d).1 (windowReg n d).2 d with
      tiers := { (zeroUnits (windowReg n d).1 (windowReg n d).2 d).tiers with windows := Tab.set d.tiers.windows n (windowReg n d) } } := by
  rw [basinTakes, if_pos (by simp [h, hb])]
  rfl

/-- Settles O25: a write of a window or of the pool takes its fields or sets CONFLICT (`basinWindowWrite_taken`, `basinWindowWrite_refused` and the
pool's), and a window comes into force over units that `read_zeroUnits` says are zero. -/
theorem basinWindows : Obligations.BasinWindows := by
  intro s n data hn hr hl _
  have hwr := windowRow_write (getW .basinWindow n 0 s.dev) data
  refine ⟨fun h => ⟨_, exec_basinWindowWrite hr hl hn, ?_⟩, fun h => ⟨_, exec_basinWindowWrite hr hl hn, ?_⟩,
    fun h => ⟨_, exec_basinPoolWrite hr hl, ?_⟩, fun h => ⟨_, exec_basinPoolWrite hr hl, ?_⟩, fun h hb => ⟨_, exec_basinWindowTakesEffect .., ?_⟩, fun h => ?_⟩
  · rw [basinWindowWrite_taken h]
    refine ⟨?_, rfl, sameRegs_setW .basinWindow n 0 _ _⟩
    rw [windowReg, getF_setW_self (windowRow_write_lt ..), getF_setW_self (windowRow_write_lt ..), hwr.1, hwr.2]
  · rw [basinWindowWrite_refused h]
    have hw := withBits_lt (v := getF .basinWindow n 0 8 0 s.dev) (windowRow_write_lt (getW .basinWindow n 0 s.dev) data) (show 0 ≤ 8 by omega)
      (by omega)
    obtain ⟨hs, hc⟩ := getF_setW_withBits_above (n := .basinWindow) (i := n) (j := 0) (v := getF .basinWindow n 0 24 16 s.dev) (x := 1) hw
      (show 16 ≤ 24 by omega) (show 24 < 31 by omega) (by omega) s.dev
    have h2 := withBits_lt (v := getF .basinWindow n 0 24 16 s.dev) hw (show 16 ≤ 24 by omega) (by omega)
    refine ⟨Prod.ext ?_ ?_, hc, rfl, sameRegs_setW .basinWindow n 0 _ _⟩
    · exact hs.trans (Nat.mod_eq_of_lt (bitsOf_lt ..))
    · change getF .basinWindow n 0 8 0 (setW ..) = getF .basinWindow n 0 8 0 s.dev
      rw [getF_setW_self (withBits_lt h2 (by omega) (by omega)), bitsOf_withBits_below _ _ (by omega) (by omega) (by omega),
        bitsOf_withBits_below _ _ (by omega) (by omega) (by omega), bitsOf_withBits_self _ _ (by omega)]
      exact Nat.mod_eq_of_lt (bitsOf_lt ..)
  · rw [basinPoolWrite_taken h]
    exact ⟨(getF_setW_self (poolRow_write_lt ..) ..).trans (poolRow_write ..), rfl, sameRegs_setW .basinPool 0 0 _ _⟩
  · rw [basinPoolWrite_refused h]
    obtain ⟨hs, hc⟩ := getF_setW_withBits_above (n := .basinPool) (i := 0) (j := 0) (v := getF .basinPool 0 0 6 0 s.dev) (x := 1)
      (poolRow_write_lt (getW .basinPool 0 0 s.dev) data) (show 0 ≤ 6 by omega) (show 6 < 17 by omega) (by omega) s.dev
    exact ⟨hs.trans (Nat.mod_eq_of_lt (bitsOf_lt ..)), hc, rfl, sameRegs_setW .basinPool 0 0 _ _⟩
  · rw [basinTakes_window h hb]
    dsimp only
    refine ⟨?_, rfl, fun die hd i hi => read_zeroUnits hd hi _, fun m hm => ?_⟩
    · simp [windowNow, Tab.getD]
    · simp only [windowNow, Tab.getD, Tab.get_set_other _ _ hm]
  · rw [exec_basinWindowTakesEffect, basinTakes, h]
    rfl

end Sys2Proof.Machine
end

section
/-! SUPPORT. The mover looks at its queue (R45, R140, R155, R187, R191): what that leaves of the device, whatever move it starts. -/

namespace Sys2Proof.Machine

/-! ## Records of stacks and sites -/

theorem stackAt_congr {d e : Dev} (h : e.tiers.hbm = d.tiers.hbm) (n : Nat) : stackAt n e = stackAt n d := by rw [stackAt, h]; rfl

theorem siteAt_congr {d e : Dev} (h : e.tiers.sites = d.tiers.sites) (k : Nat) : siteAt k e = siteAt k d := by rw [siteAt, h]; rfl

@[simp] theorem stackAt_logEv (n src cls area ev : Nat) (l : List Byte) (d : Dev) : stackAt n (logEv src cls area ev l d) = stackAt n d :=
  stackAt_congr (by simp) n

@[simp] theorem siteAt_logEv (k src cls area ev : Nat) (l : List Byte) (d : Dev) : siteAt k (logEv src cls area ev l d) = siteAt k d :=
  siteAt_congr (by simp) k

theorem stackAt_updStack_self {n : Nat} {d : Dev} (h : n < d.tiers.hbm.length) (f : Stack → Stack) : stackAt n (updStack n f d) = f (stackAt n d) := by
  simp [stackAt, updStack, listGet, h]

theorem stackAt_updStack_other {n m : Nat} (h : m ≠ n) (f : Stack → Stack) (d : Dev) : stackAt m (updStack n f d) = stackAt m d := by
  simp [stackAt, updStack, listGet, List.getElem?_set_ne (Ne.symm h)]

/-- A stack that the device does not hold is not changed. -/
theorem updStack_none {n : Nat} {d : Dev} (h : d.tiers.hbm.length ≤ n) (f : Stack → Stack) : updStack n f d = d := by
  rw [updStack, List.set_eq_of_length_le h]

theorem siteAt_updSite_self {k : Nat} {d : Dev} (h : k < d.tiers.sites.length) (f : Site → Site) : siteAt k (updSite k f d) = f (siteAt k d) := by
  simp [siteAt, updSite, listGet, h]

theorem siteAt_updSite_other {j k : Nat} (h : j ≠ k) (f : Site → Site) (d : Dev) : siteAt j (updSite k f d) = siteAt j d := by
  simp [siteAt, updSite, listGet, List.getElem?_set_ne (Ne.symm h)]

/-! ## What the mover may change -/

/-- Does a group's state say that it empties: RETIRING or STALLED (R155)? -/
def Stack.Empties (s : Stack) (g : Nat) : Prop := s.groups.getD g 0 = 1 ∨ s.groups.getD g 0 = 2

theorem emptying_iff {n g : Nat} {d : Dev} : emptying n g d = true ↔ (stackAt n d).Empties g := by simp [emptying, Stack.Empties]

/-- A stack as the mover leaves it: a group that empties goes on emptying, every other keeps its state, and beside the group states only the
rotation changes (R140, R155). -/
structure StackStep (s t : Stack) : Prop where
  rest   : t = { s with groups := t.groups, nextGroup := t.nextGroup }
  groups : ∀ g, t.groups.getD g 0 = s.groups.getD g 0 ∨ (s.Empties g ∧ t.Empties g)

namespace StackStep

variable {s t u : Stack}

theorem refl (s : Stack) : StackStep s s := ⟨rfl, fun _ => .inl rfl⟩

theorem empties_iff (h : StackStep s t) (g : Nat) : t.Empties g ↔ s.Empties g := by
  rcases h.groups g with he | ⟨h1, h2⟩
  · rw [Stack.Empties, he, Stack.Empties]
  · exact ⟨fun _ => h1, fun _ => h2⟩

theorem trans (h1 : StackStep s t) (h2 : StackStep t u) : StackStep s u := by
  refine ⟨by rw [h2.rest, h1.rest], fun g => ?_⟩
  rcases h2.groups g with he | ⟨ht, hu⟩
  · rcases h1.groups g with he' | ⟨hs, ht⟩
    · exact .inl (he.trans he')
    · exact .inr ⟨hs, by rwa [Stack.Empties, he]⟩
  · exact .inr ⟨(h1.empties_iff g).mp ht, hu⟩

/-- A group that does not empty keeps its state. -/
theorem keeps (h : StackStep s t) {g : Nat} (hg : ¬s.Empties g) : t.groups.getD g 0 = s.groups.getD g 0 :=
  (h.groups g).resolve_right fun hx => hg hx.1

theorem mark (s : Stack) {g v : Nat} (hs : s.Empties g) (hv : v = 1 ∨ v = 2) : StackStep s { s with groups := s.groups.set g v } := by
  refine ⟨rfl, fun k => ?_⟩
  by_cases hk : k = g
  · subst hk
    by_cases hl : k < s.groups.length
    · exact .inr ⟨hs, by simpa [Stack.Empties, hl] using hv⟩
    · exact .inl (by rw [List.set_eq_of_length_le (Nat.le_of_not_lt hl)])
  · exact .inl (by simp [List.getElem?_set_ne (Ne.symm hk)])

theorem rotate (s : Stack) (g : Nat) : StackStep s { s with nextGroup := g } := ⟨rfl, fun _ => .inl rfl⟩

theorem retired (h : StackStep s t) : t.retired = s.retired := by rw [h.rest]
theorem leaving (h : StackStep s t) : t.leaving = s.leaving := by rw [h.rest]

end StackStep

theorem railOf_ddr5 (k : Nat) : railOf (.ddr5 k) ∈ dies := (by decide : 10 ∈ dies)

/-- Idle channels of DDR5 return their grants: the ledger alone changes (R45, R46). -/
theorem LedgerStep.idleDdr (d : Dev) : LedgerStep d (idleDdr d) := by
  refine List.foldlRecOn (motive := fun e => LedgerStep d e) _ _ (refl d) fun e he u _ => he.trans ?_
  dsimp only
  split
  · split
    · exact refl e
    · exact returnGrant (railOf_ddr5 _) e
  · exact refl e

/-- A change of the ledger, of the stacks as the mover changes them, and of the mover's own queue. -/
structure MoverStep (d e : Dev) : Prop where
  rest : e = { d with
    regs := e.regs, pwr := { d.pwr with rails := e.pwr.rails }, tiers := { d.tiers with hbm := e.tiers.hbm },
    xl := { d.xl with move := e.xl.move, queued := e.xl.queued, demoting := e.xl.demoting } }
  regs   : Safety.SameRegs ledgerEventAddrs d e
  stack  : ∀ n, StackStep (stackAt n d) (stackAt n e)

namespace MoverStep

variable {d e f : Dev}

theorem refl (d : Dev) : MoverStep d d := ⟨rfl, fun _ _ => rfl, fun _ => .refl _⟩

theorem trans (h1 : MoverStep d e) (h2 : MoverStep e f) : MoverStep d f :=
  ⟨by rw [h2.rest, h1.rest], fun a ha => (h2.regs a ha).trans (h1.regs a ha), fun n => (h1.stack n).trans (h2.stack n)⟩

theorem of_ledger (h : LedgerStep d e) : MoverStep d e := by
  refine ⟨?_, h.regs, fun n => ?_⟩
  · rw [h.rest]
  · rw [stackAt_congr (show e.tiers.hbm = d.tiers.hbm by rw [h.rest])]
    exact .refl _

theorem updStack {n : Nat} {g : Stack → Stack} (hg : StackStep (stackAt n d) (g (stackAt n d))) : MoverStep d (updStack n g d) := by
  refine ⟨rfl, fun _ _ => rfl, fun m => ?_⟩
  by_cases hm : m = n
  · subst hm
    by_cases hl : m < d.tiers.hbm.length
    · rwa [stackAt_updStack_self hl]
    · rw [updStack_none (Nat.le_of_not_lt hl)]
      exact .refl _
  · rw [stackAt_updStack_other hm]
    exact .refl _

theorem each {α : Type} {g : α → Dev → Dev} (h : ∀ x d, MoverStep d (g x d)) (l : List α) (d : Dev) : MoverStep d (each l g d) :=
  List.foldlRecOn (motive := fun e => MoverStep d e) _ _ (refl d) fun _ he x _ => he.trans (h x _)

/-- A change of what the mover holds and of what waits for it. -/
theorem queue (m : Option Move) (q : List Move) (w : List Nat) (d : Dev) :
    MoverStep d { d with xl := { d.xl with move := m, queued := q, demoting := w } } := ⟨rfl, fun _ _ => rfl, fun _ => .refl _⟩

theorem dropDone (d : Dev) : MoverStep d (dropDone d) := queue d.xl.move _ d.xl.demoting d

theorem settleWater (d : Dev) : MoverStep d (settleWater d) := queue d.xl.move d.xl.queued _ d

theorem settleStalled (d : Dev) : MoverStep d (settleStalled d) := by
  refine each (fun n d => each (fun g d => ?_) _ _) _ _
  dsimp only
  split
  · next hg => exact updStack (.mark _ (emptying_iff.mp hg) (by split <;> simp))
  · exact refl d

theorem setRotation (rots : Tab Nat) (d : Dev) : MoverStep d (setRotation rots d) := each (fun _ _ => updStack (.rotate ..)) _ _

theorem startMove (m : Move) (p : Nat) (d : Dev) : MoverStep d (startMove m p d) := by
  unfold Machine.startMove
  exact (queue _ _ d.xl.demoting d).trans (setRotation ..)

theorem returnGrant {u : UnitId} (h : railOf u ∈ dies) (d : Dev) : MoverStep d (returnGrant u d) := of_ledger (.returnGrant h d)

theorem wantGrant {u : UnitId} (h : railOf u ∈ dies) (cost : Nat) (i : Option Nat) (d : Dev) : MoverStep d (wantGrant u cost i d) := by
  unfold Machine.wantGrant
  split
  · exact refl d
  · exact of_ledger (.requestGrant (g := ⟨u, cost, i⟩) h d)

theorem wantChans (l : List Nat) (d : Dev) : MoverStep d (wantChans l d) := each (fun k _ => wantGrant (railOf_ddr5 k) ..) _ _

theorem idleDdr (d : Dev) : MoverStep d (idleDdr d) := of_ledger (.idleDdr d)

/-- The mover's queue is looked through, before anything starts. -/
theorem settled (d : Dev) : MoverStep d (Machine.settleWater (Machine.settleStalled (Machine.dropDone d))) :=
  ((dropDone d).trans (settleStalled _)).trans (settleWater _)

theorem kickMover (d : Dev) : MoverStep d (kickMover d) := by
  unfold Machine.kickMover
  refine (settled d).trans ?_
  generalize Machine.settleWater (Machine.settleStalled (Machine.dropDone d)) = d0
  dsimp only
  split
  · exact refl d0
  split
  · refine trans ?_ (idleDdr _)
    unfold when_
    split
    · exact returnGrant (by decide) d0
    · exact refl d0
  next m p _ =>
  have hw : MoverStep d0 (Machine.wantChans (moveChans m p d0) (Machine.wantGrant .mover d0.upd.costs.mover none d0)) :=
    (wantGrant (by decide) ..).trans (wantChans ..)
  split
  · split
    · split
      · exact (hw.trans (startMove ..)).trans (idleDdr _)
      · exact hw
    · exact hw
  · exact hw

/-! ## What it leaves -/

section Leaves

variable (h : MoverStep d e)
include h

theorem dev : e.tiers.dev = d.tiers.dev := by rw [h.rest]
theorem basin : e.tiers.basin = d.tiers.basin := by rw [h.rest]
theorem sites : e.tiers.sites = d.tiers.sites := by rw [h.rest]
theorem lfns : e.xl.lfns = d.xl.lfns := by rw [h.rest]
theorem ctxs : e.xl.ctxs = d.xl.ctxs := by rw [h.rest]
theorem insts : e.insts = d.insts := by rw [h.rest]
theorem out : e.out = d.out := by rw [h.rest]
theorem link : e.link = d.link := by rw [h.rest]

theorem site (k : Nat) : siteAt k e = siteAt k d := siteAt_congr h.sites k

/-- The registers but the ledger's events read as they did. -/
theorem getW {n : RegName} {i j : Nat} (hn : addrOf n i j ∉ ledgerEventAddrs) : Machine.getW n i j e = Machine.getW n i j d := by
  rw [Machine.getW, h.regs _ hn, ← Machine.getW]

theorem getF {n : RegName} {i j : Nat} (hn : addrOf n i j ∉ ledgerEventAddrs) (hi lo : Nat) :
    Machine.getF n i j hi lo e = Machine.getF n i j hi lo d := by rw [Machine.getF, h.getW hn, ← Machine.getF]

end Leaves

end MoverStep

end Sys2Proof.Machine
end

section
/-! SUPPORT. Errors in memory, row repair and the retirement of pseudo-channels (R145, R146, R149, R151 to R156, R161): what noting an error leaves of
the device, and what the scrub, a repair, a retirement and a rebuilt group come to. -/

namespace Sys2Proof.Machine

/-! ## Errors that are noted (R145, R146, R151 to R153) -/

/-- What noting errors may change: registers, the log, and what the module knows of its codewords and rows. No byte of memory and no group's state
changes. -/
structure Noted (d e : Dev) : Prop where
  rest : e = { d with regs := e.regs, mc := e.mc, tiers := { d.tiers with
    poison := e.tiers.poison, logged := e.tiers.logged, soft := e.tiers.soft, hbm := e.tiers.hbm } }
  groups : ∀ n, (stackAt n e).groups = (stackAt n d).groups

/-- A pseudo-channel of HBM4 remembers its uncorrectable error (R153). -/
def ueRemembered (p : Place) (d : Dev) : Dev :=
  match hbmAddr p with
  | some a => noteUePc (a / 2 ^ 26 / 1536) (pcOf a d) d
  | none => d

/-- An uncorrectable error counted: in UE_COUNT and in UE_SEEN (R146). -/
def ueCounted (p : Place) (d : Dev) : Dev :=
  setBit (errReg p).1 (errReg p).2 0 31 (countF (errReg p).1 (errReg p).2 0 23 16 1 (ueRemembered p d))

/-- The location of the last uncorrectable error of device memory (R151). -/
def ueLocated (p : Place) (src : Nat) (d : Dev) : Dev :=
  match p with
  | .dev a => setW .ueLastHi 0 0 (2 ^ 31 + src * 2 ^ 28 + a / 2 ^ 26 % 65536) (setW .ueLastLo 0 0 (a % 2 ^ 26) d)
  | _ => d

/-- A codeword is poisoned, and detected (R146). -/
def uePoisoned (p : Place) (d : Dev) : Dev :=
  { d with tiers := { d.tiers with
    poison := if d.tiers.poison.contains p then d.tiers.poison else d.tiers.poison ++ [p],
    logged := if d.tiers.logged.contains p then d.tiers.logged else d.tiers.logged ++ [p] } }

/-- An uncorrectable error is counted, located, poisons its codeword, and is recorded once. -/
theorem noteUe_eq (p : Place) (src : Nat) (d : Dev) : ∃ c l,
    noteUe p src d = when_ c (logEv (placeSource p) 2 0x03 1 l) (uePoisoned p (ueLocated p src (ueCounted p d))) := by
  unfold noteUe
  dsimp only
  split
  · exact ⟨false, [], rfl⟩
  · exact ⟨true, _, rfl⟩

namespace Noted

variable {d e f : Dev}

theorem refl (d : Dev) : Noted d d := ⟨rfl, fun _ => rfl⟩

theorem trans (h1 : Noted d e) (h2 : Noted e f) : Noted d f := ⟨by rw [h2.rest, h1.rest], fun n => (h2.groups n).trans (h1.groups n)⟩

theorem each {α : Type} {g : α → Dev → Dev} (h : ∀ x d, Noted d (g x d)) (l : List α) (d : Dev) : Noted d (each l g d) :=
  List.foldlRecOn (motive := fun e => Noted d e) _ _ (refl d) fun _ he x _ => he.trans (h x _)

theorem setW (n : RegName) (i j w : Nat) (d : Dev) : Noted d (setW n i j w d) := ⟨rfl, fun _ => rfl⟩

theorem countF (n : RegName) (i j hi lo k : Nat) (d : Dev) : Noted d (countF n i j hi lo k d) := ⟨rfl, fun _ => rfl⟩

theorem setBit (n : RegName) (i j k : Nat) (d : Dev) : Noted d (setBit n i j k d) := ⟨rfl, fun _ => rfl⟩

theorem logEv (src cls area ev : Nat) (l : List Byte) (d : Dev) : Noted d (logEv src cls area ev l d) :=
  ⟨by rw [logEv_frame], fun n => by rw [stackAt_congr (d := d) (by rw [logEv_tiers])]⟩

/-- A change of the lists of codewords. -/
theorem codewords (p l : List Place) (s : List (Place × Nat × Nat)) (d : Dev) :
    Noted d { d with tiers := { d.tiers with poison := p, logged := l, soft := s } } := ⟨rfl, fun _ => rfl⟩

theorem updStack {n : Nat} {g : Stack → Stack} (hg : ∀ s, (g s).groups = s.groups) (d : Dev) : Noted d (updStack n g d) := by
  refine ⟨rfl, fun m => ?_⟩
  by_cases hm : m = n
  · subst hm
    by_cases hl : m < d.tiers.hbm.length
    · rw [stackAt_updStack_self hl, hg]
    · rw [updStack_none (Nat.le_of_not_lt hl)]
  · rw [stackAt_updStack_other hm]

theorem noteRowHit (n pc row word sym : Nat) (d : Dev) : Noted d (noteRowHit n pc row word sym d) := by
  unfold Machine.noteRowHit
  refine updStack (fun _ => ?_) d
  rfl

theorem noteUePc (n pc : Nat) (d : Dev) : Noted d (noteUePc n pc d) := by
  unfold Machine.noteUePc
  refine updStack (fun _ => ?_) d
  rfl

theorem noteCe (p : Place) (row sym : Nat) (d : Dev) : Noted d (noteCe p row sym d) := by
  unfold Machine.noteCe
  dsimp only
  split
  · exact (countF ..).trans (noteRowHit ..)
  · exact countF ..

theorem correct (met : Place → Bool) (d : Dev) : Noted d (correct met d) :=
  (codewords _ _ _ d).trans (each (g := fun (s : Place × Nat × Nat) d => Machine.noteCe s.1 s.2.1 s.2.2 d) (fun _ _ => noteCe ..) _ _)

theorem ueCounted (p : Place) (d : Dev) : Noted d (ueCounted p d) := by
  unfold Machine.ueCounted ueRemembered
  refine trans ?_ ((countF ..).trans (setBit ..))
  split
  · exact noteUePc ..
  · exact refl d

theorem ueLocated (p : Place) (src : Nat) (d : Dev) : Noted d (ueLocated p src d) := by
  unfold Machine.ueLocated
  split
  · exact (setW ..).trans (setW ..)
  · exact refl d

theorem noteUe (p : Place) (src : Nat) (d : Dev) : Noted d (noteUe p src d) := by
  obtain ⟨c, l, he⟩ := noteUe_eq p src d
  rw [he]
  refine ((ueCounted p d).trans (ueLocated p src _)).trans (trans (e := uePoisoned p _) (codewords _ _ (Machine.ueLocated p src (Machine.ueCounted p d)).tiers.soft _) ?_)
  unfold when_
  split
  · exact logEv ..
  · exact refl _

/-! ### What it leaves -/

section Leaves

variable (h : Noted d e)
include h

theorem dev : e.tiers.dev = d.tiers.dev := by rw [h.rest]
theorem basin : e.tiers.basin = d.tiers.basin := by rw [h.rest]
theorem xl : e.xl = d.xl := by rw [h.rest]
theorem sites : e.tiers.sites = d.tiers.sites := by rw [h.rest]
theorem insts : e.insts = d.insts := by rw [h.rest]

theorem quiet (hq : Safety.Quiet d) : Safety.Quiet e := by
  rw [h.rest]
  exact hq

/-- What a die's own SRAM serves is no matter of errors. -/
theorem sramWork (die : Nat) : sramWork die e = sramWork die d := by
  have hbuf : ∀ p k, (bufAt p k e).frames = (bufAt p k d).frames := by
    intro p k
    rw [h.rest]
    unfold bufAt Tab.getD
    change ((Tab.get (portAt p d).bufs k).getD _).frames = _
    cases Tab.get (portAt p d).bufs k <;> rfl
  have hfr : ∀ i, calderaFrames i e = calderaFrames i d := by
    intro i
    simp only [calderaFrames, hbuf]
    rw [h.rest]
    rfl
  simp only [Machine.sramWork, hfr]
  rw [h.rest]

end Leaves

end Noted

/-- The error is counted in its register, and UE_SEEN is set (R146, R151). -/
theorem getF_noteUe {p : Place} (hp : addrOf (errReg p).1 (errReg p).2 0 ≠ 0x301C0 ∧ addrOf (errReg p).1 (errReg p).2 0 ≠ 0x301C4) (src : Nat) (d : Dev) :
    getF (errReg p).1 (errReg p).2 0 23 16 (noteUe p src d) = min 255 (getF (errReg p).1 (errReg p).2 0 23 16 d + 1) ∧
    getF (errReg p).1 (errReg p).2 0 31 31 (noteUe p src d) = 1 := by
  obtain ⟨c, l, he⟩ := noteUe_eq p src d
  have hw : getW (errReg p).1 (errReg p).2 0 (noteUe p src d) = getW (errReg p).1 (errReg p).2 0 (ueCounted p d) := by
    have hlog : (noteUe p src d).regs = (ueLocated p src (ueCounted p d)).regs := by
      rw [he]
      unfold when_
      split
      · exact logEv_regs ..
      · rfl
    rw [getW_congr hlog]
    unfold ueLocated
    split
    · rw [getW_setW_other _ _ hp.2, getW_setW_other _ _ hp.1]
    · rfl
  have hd : ∀ hi lo, getF (errReg p).1 (errReg p).2 0 hi lo (ueRemembered p d) = getF (errReg p).1 (errReg p).2 0 hi lo d := by
    intro hi lo
    unfold ueRemembered
    split <;> rfl
  constructor
  · rw [getF, hw, ← getF, ueCounted, setBit, getF_setF_below _ (by omega) (by omega) (by omega) (by omega), getF_countF_self _ (by omega) (by omega), hd]
    rfl
  · rw [getF, hw, ← getF, ueCounted, setBit, getF_setF_self _ (by omega) (by omega)]
    rfl

theorem poison_noteUe (p : Place) (src : Nat) (d : Dev) : p ∈ (noteUe p src d).tiers.poison := by
  obtain ⟨c, l, he⟩ := noteUe_eq p src d
  have ht : (noteUe p src d).tiers = (uePoisoned p (ueLocated p src (ueCounted p d))).tiers := by
    rw [he]
    unfold when_
    split
    · exact logEv_tiers ..
    · rfl
  rw [ht]
  unfold uePoisoned
  dsimp only
  split
  · next h => exact List.contains_iff_mem.mp h
  · exact List.mem_append_right _ (List.mem_singleton_self p)

end Sys2Proof.Machine
end

section
/-! SUPPORT. The scrub, row repair and the retirement of pseudo-channels (R145, R146, R149, R152 to R156, R161, R480). -/

namespace Sys2Proof.Machine

/-! ## The scrub (R145, R146, R149) -/

theorem exec_patrolScrub (place : Place) (f : Finding) (reached : Bool) (s : State) :
    exec (.patrolScrub place ⟨f, reached⟩) s = .next { s with dev := localPath (patrolScrub place f reached s.dev) } := rfl

/-- A scrub that leaves the local path quiet is all that happens. -/
theorem exec_patrolScrub_quiet {place : Place} {f : Finding} {reached : Bool} {s : State} (hq : Safety.Quiet (patrolScrub place f reached s.dev)) :
    exec (.patrolScrub place ⟨f, reached⟩) s = .next { s with dev := patrolScrub place f reached s.dev } := by
  rw [exec_patrolScrub, localPath_quiet _ hq]

theorem patrolScrub_reached {place : Place} {d : Dev} (h : scrubReaches (codewordOf place) d = true) (f : Finding) :
    patrolScrub place f true d = scrubbed (codewordOf place) f d := by
  simp [patrolScrub, h]

theorem patrolScrub_passedOver {place : Place} {d : Dev} (h : scrubReaches (codewordOf place) d = false) (f : Finding) :
    patrolScrub place f true d = d := by
  simp [patrolScrub, h]

/-- What waited at a codeword for its first read is met. -/
def softMet (p : Place) (d : Dev) : Dev := { d with tiers := { d.tiers with soft := d.tiers.soft.filter (fun s => s.1 != p) } }

theorem softMet_noted (p : Place) (d : Dev) : Noted d (softMet p d) := .codewords d.tiers.poison d.tiers.logged _ d

/-- A codeword that is not poisoned and has one bad symbol is corrected. -/
theorem scrubbed_corrected {p : Place} {d : Dev} (h : p ∉ d.tiers.poison) (row sym : Nat) :
    scrubbed p (.corrected row sym) d = noteCe p row sym (softMet p d) := by
  simp [scrubbed, h, softMet]

/-- A codeword that cannot be corrected is noted, whether or not it was poisoned before; an error in a die's own SRAM that serves no work meets
none (R146). -/
theorem scrubbed_uncorrectable {p : Place} {d : Dev} (h : ∀ die off, p = .sram die off → sramWork die d = []) :
    ∃ e, scrubbed p .uncorrectable d = noteUe p 0 e ∧ Noted d e ∧ e.regs = d.regs := by
  have hmeet : ∀ e, Noted d e → meetWork p e = e := by
    intro e he
    cases p with
    | sram die off => simp [meetWork, he.sramWork, h die off rfl]
    | _ => rfl
  unfold scrubbed
  split
  · exact ⟨d, rfl, .refl d, rfl⟩
  · exact ⟨softMet p d, hmeet _ ((softMet_noted p d).trans (.noteUe ..)), softMet_noted p d, rfl⟩

/-- A read that meets no codeword with a bad symbol changes nothing. -/
theorem correct_unmet {met : Place → Bool} {d : Dev} (h : ∀ x ∈ d.tiers.soft, met x.1 = false) : correct met d = d := by
  have hf : d.tiers.soft.filter (fun s => met s.1) = [] := List.filter_eq_nil_iff.mpr fun x hx => by simp [h x hx]
  have hk : d.tiers.soft.filter (fun s => !met s.1) = d.tiers.soft := List.filter_eq_self.mpr fun x hx => by simp [h x hx]
  rw [correct, hf, hk]
  rfl

theorem scrubbed_clean {p : Place} {d : Dev} (h : p ∉ d.tiers.poison) (hs : ∀ x ∈ d.tiers.soft, x.1 ≠ p) : scrubbed p .clean d = d := by
  have hc : correct (fun q => q == p) d = d := correct_unmet fun x hx => by simpa using hs x hx
  simp [scrubbed, h, hc]

/-- An error that no read has met yet is held (log entry 136). -/
theorem latentError_corrected {p : Place} {d : Dev} (h : p ∉ d.tiers.poison) (hs : ∀ x ∈ d.tiers.soft, x.1 ≠ p) (row sym : Nat) :
    latentError p (.corrected row sym) d = { d with tiers := { d.tiers with soft := d.tiers.soft ++ [(p, row, sym)] } } := by
  have hany : d.tiers.soft.any (fun s => s.1 == p) = false := List.any_eq_false.mpr fun x hx => by simpa using hs x hx
  simp [latentError, h, hany]

/-- The codeword of an HBM4 address lies in the address's frame. -/
theorem cwBase_frame {a : Nat} (h : a / 2 ^ 26 < 12288) : cwBase a / 2 ^ 26 = a / 2 ^ 26 := by
  have hc : cwBytes a = 32 := if_pos (by omega)
  rw [cwBase, hc]
  omega

section Hbm

variable {a : Nat} (ha : a / 2 ^ 26 < 12288)
include ha

theorem errReg_hbm : errReg (.dev (cwBase a)) = (.hbmErr, a / 2 ^ 26 / 1536) := by
  simp only [errReg, cwBase_frame ha, if_pos (show a / 2 ^ 26 < 16384 by omega)]

theorem hbmAddr_hbm : hbmAddr (.dev (cwBase a)) = some (cwBase a) := by
  simp only [hbmAddr, cwBase_frame ha, if_pos ha]

theorem scrubReaches_hbm {d : Dev} (he : pfnExists (a / 2 ^ 26) d = true) : scrubReaches (.dev (cwBase a)) d = true := by
  simp only [scrubReaches, placeThere, cwBase_frame ha, he, decide_eq_true (show a / 2 ^ 26 < 16384 by omega), Bool.true_or, Bool.and_self]

end Hbm

/-- A correction in a die's own SRAM raises CE_COUNT and changes nothing else (R145). -/
theorem noteCe_sram (die off row sym : Nat) (d : Dev) : noteCe (.sram die off) row sym d = countF .sramErr die 0 15 0 1 d := rfl

/-- A correction in HBM4 raises CE_COUNT and is noted for row repair (R145, R152). -/
theorem noteCe_hbm {a : Nat} (ha : a / 2 ^ 26 < 12288) (row sym : Nat) (d : Dev) :
    ∃ f, noteCe (.dev (cwBase a)) row sym d = updStack (a / 2 ^ 26 / 1536) f (countF .hbmErr (a / 2 ^ 26 / 1536) 0 15 0 1 d) := by
  simp only [noteCe, hbmAddr_hbm ha, errReg_hbm ha, cwBase_frame ha]
  exact ⟨_, rfl⟩

/-! ## Row repair (R152, R480) -/

theorem exec_rowRepair {n pc row : Nat} {s : State} (h : rowReady n pc row s.dev = true) :
    exec (.rowRepair n pc row) s = .next (programRepair { s with dev := rowRepair n pc row s.dev }) := by
  change execRowRepair n pc row s = _
  rw [execRowRepair, if_pos h]

/-- What a table made from a list holds under a key that one entry has. -/
theorem Tab.get_filterMap {α β : Type} {l : List (Nat × α)} {f : Nat × α → Option (Nat × β)} (hf : ∀ p q, f p = some q → q.1 = p.1)
    {n : Nat} {x : α} {v : β} (hx : (n, x) ∈ l) (hu : ∀ y, (n, y) ∈ l → y = x) (hv : f (n, x) = some (n, v)) :
    Tab.get (l.filterMap f) n = some v := by
  induction l with
  | nil => cases hx
  | cons p l ih =>
    obtain ⟨a, y⟩ := p
    by_cases ha : a = n
    · subst ha
      obtain rfl := hu y (List.mem_cons_self ..)
      simp [hv, Tab.get]
    · have hx' : (n, x) ∈ l := (List.mem_cons.mp hx).resolve_left fun he => ha (congrArg Prod.fst he).symm
      have ih' := ih hx' fun y hy => hu y (List.mem_cons_of_mem _ hy)
      cases hy : f (a, y) with
      | none => rwa [List.filterMap_cons_none hy]
      | some q =>
        obtain ⟨b, w⟩ := q
        obtain rfl : b = a := hf _ _ hy
        rw [List.filterMap_cons_some hy, Tab.get, if_neg ha, ih']

/-- The entry of a stack in the list from which the repair record is made. -/
theorem mem_stacks {n : Nat} (hn : n < 8) (d : Dev) : (n, stackAt n d) ∈ (List.range 8).map (fun n => (n, stackAt n d)) ∧
    ∀ y, (n, y) ∈ (List.range 8).map (fun n => (n, stackAt n d)) → y = stackAt n d := by
  refine ⟨List.mem_map.mpr ⟨n, List.mem_range.mpr hn, rfl⟩, fun y hy => ?_⟩
  obtain ⟨m, -, hm⟩ := List.mem_map.mp hy
  cases hm
  rfl

theorem repairNow_rows {n : Nat} (hn : n < 8) {d : Dev} (h : (stackAt n d).rows ≠ 0) : Tab.get (repairNow d).rows n = some (stackAt n d).rows := by
  obtain ⟨hx, hu⟩ := mem_stacks hn d
  refine Tab.get_filterMap (fun p q hq => ?_) hx hu (if_neg h)
  split at hq <;> cases hq
  rfl

theorem repairNow_retired {n : Nat} (hn : n < 8) {d : Dev} (h : (stackAt n d).retired ≠ []) :
    Tab.get (repairNow d).retired n = some (stackAt n d).retired := by
  obtain ⟨hx, hu⟩ := mem_stacks hn d
  refine Tab.get_filterMap (fun p q hq => ?_) hx hu (if_neg (by simpa using h))
  split at hq <;> cases hq
  rfl

/-- A stack with a row repaired at a moment. -/
def Stack.repaired (s : Stack) (pc row now : Nat) : Stack := { s with
  rows := satAdd 65535 s.rows 1, candidates := s.candidates.filter (fun c => c != (pc, row)),
  lastRepair := Tab.set s.lastRepair pc now, rowHits := Tab.erase s.rowHits (pc * 2 ^ 32 + row) }

theorem rowRepair_eq (n pc row : Nat) (d : Dev) : rowRepair n pc row d =
    logEv n 1 0x03 2 (memData n (pc / 8) pc 0) (updStack n (fun s => s.repaired pc row (clock n d)) d) := rfl

/-- A repaired row is no candidate any more, and raises ROWS. -/
theorem stackAt_rowRepair {n : Nat} {d : Dev} (h : n < d.tiers.hbm.length) (pc row : Nat) :
    stackAt n (rowRepair n pc row d) = (stackAt n d).repaired pc row (clock n d) := by
  rw [rowRepair_eq, stackAt_logEv, stackAt_updStack_self h]

theorem repaired_not_candidate (s : Stack) (pc row now : Nat) : (pc, row) ∉ (s.repaired pc row now).candidates := by
  simp [Stack.repaired]

/-! ## Retirement of a pseudo-channel (R153 to R156, R161) -/

section Service

variable {s : State} (hr : s.dev.start.ready = true) (hl : linkOpen s.dev = true)
include hr hl

theorem exec_hbmRetire {n pc : Nat} (hn : n < 8) (hpc : pc < 64) : exec (.hbmRetire n pc) s = .next { s with dev := hbmRetire n pc s.dev } := by
  change execHbmRetire n pc s = _
  rw [execHbmRetire, overLink_unheld (unheld_of_linkOpen hl), Nat.mod_eq_of_lt hn, Nat.mod_eq_of_lt hpc, managerWrite_ready hr hl]

end Service

/-- The outcome of a service command stands in MEM_SERVICE_STATUS. -/
theorem getF_memResult {cmd unit result : Nat} (hc : cmd < 16) (hu : unit < 8) (hr : result < 256) (d : Dev) :
    getF .memServiceStatus 0 0 15 0 (memResult cmd unit result d) = cmd * 4096 + unit * 256 + result := by
  rw [memResult, Nat.mod_eq_of_lt hc, Nat.mod_eq_of_lt hu, getF_setW_self (by omega), bitsOf]
  omega

/-- A stack with a pseudo-channel that leaves its group (R154). -/
def Stack.retiring (s : Stack) (pc : Nat) : Stack := { s with
  groups := s.groups.set (pc / 8) 1, leaving := Tab.set s.leaving (pc / 8) pc, candidates := s.candidates.filter (fun c => c.1 != pc) }

theorem startRetire_eq (n pc : Nat) (d : Dev) : startRetire n pc d =
    kickMover (logEv n 1 0x03 3 (memData n (pc / 8) pc 0) (updStack n (fun s => s.retiring pc) d)) := rfl

/-- A retirement that begins leaves its group emptying, with the pseudo-channel that leaves it (R154). -/
theorem startRetire_begins {n pc : Nat} {d : Dev} (hn : n < d.tiers.hbm.length) (hg : (stackAt n d).groups.length = 8) (hpc : pc < 64) :
    Tab.get (stackAt n (startRetire n pc d)).leaving (pc / 8) = some pc ∧ (stackAt n (startRetire n pc d)).Empties (pc / 8) ∧
    (stackAt n (startRetire n pc d)).retired = (stackAt n d).retired := by
  have hs := (MoverStep.kickMover (logEv n 1 0x03 3 (memData n (pc / 8) pc 0) (updStack n (fun s => s.retiring pc) d))).stack n
  rw [← startRetire_eq, stackAt_logEv, stackAt_updStack_self hn] at hs
  refine ⟨by rw [hs.leaving]; exact Tab.get_set_self .., (hs.empties_iff _).mpr (.inl ?_), by rw [hs.retired]; rfl⟩
  simp [Stack.retiring, hg, show pc / 8 < 8 by omega]

theorem memServiceStatus_startRetire (n pc hi lo : Nat) (d : Dev) :
    getF .memServiceStatus 0 0 hi lo (startRetire n pc d) = getF .memServiceStatus 0 0 hi lo d := by
  rw [startRetire_eq, (MoverStep.kickMover _).getF (by decide), getF_congr (logEv_regs ..)]
  rfl

/-- A stack with a group rebuilt without the pseudo-channel that left it (R154, R156). -/
def Stack.rebuilt (s : Stack) (g pc v : Nat) : Stack := { s with
  retired := s.retired ++ [pc], leaving := Tab.erase s.leaving g, groups := s.groups.set g v }

theorem groupRebuild_eq {n g pc : Nat} {d : Dev} (h : Tab.get (stackAt n d).leaving g = some pc) :
    ∃ cls, groupRebuild n g d = kickMover (logEv n cls 0x03 4 (memData n g pc 0)
      (updStack n (fun s => s.rebuilt g pc (if (pcsInService (stackAt n d) g).length - 1 < 4 then 4 else 3)) d)) := by
  refine ⟨if (pcsInService (stackAt n d) g).length - 1 < 4 then 2 else 1, ?_⟩
  simp only [groupRebuild, h]
  rfl

/-- A rebuilt group is REDUCED, or OUT below four pseudo-channels, without the one that left (R154, R156). -/
theorem groupRebuild_rebuilt {n g pc : Nat} {d : Dev} (hn : n < d.tiers.hbm.length) (hlen : (stackAt n d).groups.length = 8) (hg : g < 8)
    (hl : Tab.get (stackAt n d).leaving g = some pc) :
    (stackAt n (groupRebuild n g d)).retired = (stackAt n d).retired ++ [pc] ∧ Tab.get (stackAt n (groupRebuild n g d)).leaving g = none ∧
    (stackAt n (groupRebuild n g d)).groups.getD g 0 = if (pcsInService (stackAt n d) g).length - 1 < 4 then 4 else 3 := by
  obtain ⟨cls, he⟩ := groupRebuild_eq hl
  generalize hv : (if (pcsInService (stackAt n d) g).length - 1 < 4 then 4 else 3) = v at he ⊢
  have hv34 : v = 4 ∨ v = 3 := by split at hv <;> simp [← hv]
  have hs := (MoverStep.kickMover (logEv n cls 0x03 4 (memData n g pc 0) (updStack n (fun s => s.rebuilt g pc v) d))).stack n
  rw [← he, stackAt_logEv, stackAt_updStack_self hn] at hs
  have hget : ((stackAt n d).rebuilt g pc v).groups.getD g 0 = v := by simp [Stack.rebuilt, hlen, hg]
  refine ⟨by rw [hs.retired]; rfl, by rw [hs.leaving]; exact Tab.get_erase_self .., ?_⟩
  rw [hs.keeps (by rw [Stack.Empties, hget]; omega), hget]

theorem exec_groupRebuild {n g : Nat} {s : State} (h : rebuildReady n g s.dev = true) :
    exec (.groupRebuild n g) s = .next (programRepair { s with dev := groupRebuild n g s.dev }) := by
  change execGroupRebuild n g s = _
  rw [execGroupRebuild, if_pos h]

theorem exec_pseudoChannelRetirement {n pc : Nat} {c : RetireCause} {s : State} (h : mayRetire n pc s.dev = true) (hc : retireCauseOk n pc c s.dev = true) :
    exec (.pseudoChannelRetirement n pc c) s = .next { s with dev := startRetire n pc s.dev } := by
  change execPseudoChannelRetirement n pc c s = _
  rw [execPseudoChannelRetirement, if_pos (by rw [h, hc]; rfl)]

/-! ## The obligation -/

/-- The scrub finds a codeword that it can correct. -/
theorem exec_scrub_corrected {s : State} {place : Place} (hq : Safety.Quiet s.dev) (hs : scrubReaches (codewordOf place) s.dev = true)
    (hp : codewordOf place ∉ s.dev.tiers.poison) (row sym : Nat) :
    exec (.patrolScrub place ⟨.corrected row sym, true⟩) s =
      .next { s with dev := noteCe (codewordOf place) row sym (softMet (codewordOf place) s.dev) } := by
  have he : patrolScrub place (.corrected row sym) true s.dev = _ := (patrolScrub_reached hs _).trans (scrubbed_corrected hp row sym)
  rw [exec_patrolScrub_quiet (by rw [he]; exact ((softMet_noted ..).trans (.noteCe ..)).quiet hq), he]

/-- The scrub finds a codeword that it cannot correct: the error is counted and the codeword poisoned. -/
theorem exec_scrub_uncorrectable {s : State} {place : Place} (hq : Safety.Quiet s.dev) (hs : scrubReaches (codewordOf place) s.dev = true)
    (hw : ∀ die off, codewordOf place = .sram die off → sramWork die s.dev = [])
    (ha : addrOf (errReg (codewordOf place)).1 (errReg (codewordOf place)).2 0 ≠ 0x301C0 ∧
      addrOf (errReg (codewordOf place)).1 (errReg (codewordOf place)).2 0 ≠ 0x301C4) :
    ∃ t, exec (.patrolScrub place ⟨.uncorrectable, true⟩) s = .next t ∧
      getF (errReg (codewordOf place)).1 (errReg (codewordOf place)).2 0 23 16 t.dev =
        min 255 (getF (errReg (codewordOf place)).1 (errReg (codewordOf place)).2 0 23 16 s.dev + 1) ∧
      getF (errReg (codewordOf place)).1 (errReg (codewordOf place)).2 0 31 31 t.dev = 1 ∧ codewordOf place ∈ t.dev.tiers.poison ∧
      t.dev.tiers.dev = s.dev.tiers.dev ∧ t.dev.tiers.basin = s.dev.tiers.basin := by
  obtain ⟨e, he, hn, hregs⟩ := scrubbed_uncorrectable hw
  have hp : patrolScrub place .uncorrectable true s.dev = noteUe (codewordOf place) 0 e := (patrolScrub_reached hs _).trans he
  have hall := hn.trans (.noteUe (codewordOf place) 0 e)
  obtain ⟨hcount, hseen⟩ := getF_noteUe ha 0 e
  refine ⟨_, exec_patrolScrub_quiet (by rw [hp]; exact hall.quiet hq), ?_⟩
  dsimp only
  rw [hp]
  exact ⟨by rw [hcount, getF_congr hregs], hseen, poison_noteUe .., hall.dev, hall.basin⟩

/-- The scrub of a die's own SRAM. -/
theorem scrub_sram {s : State} {die off row sym : Nat} (hq : Safety.Quiet s.dev) (hd : die < 11)
    (hp : .sram die (off / 16 * 16) ∉ s.dev.tiers.poison) :
    (∃ t, exec (.patrolScrub (.sram die off) ⟨.corrected row sym, true⟩) s = .next t ∧
      getF .sramErr die 0 15 0 t.dev = min 65535 (getF .sramErr die 0 15 0 s.dev + 1) ∧
      t.dev.tiers = { s.dev.tiers with soft := s.dev.tiers.soft.filter (fun x => x.1 != .sram die (off / 16 * 16)) } ∧
      Safety.SameRegs [0x30000 + 4 * die] s.dev t.dev) ∧
    (sramWork die s.dev = [] → ∃ t, exec (.patrolScrub (.sram die off) ⟨.uncorrectable, true⟩) s = .next t ∧
      getF .sramErr die 0 23 16 t.dev = min 255 (getF .sramErr die 0 23 16 s.dev + 1) ∧ getF .sramErr die 0 31 31 t.dev = 1 ∧
      .sram die (off / 16 * 16) ∈ t.dev.tiers.poison ∧ t.dev.tiers.dev = s.dev.tiers.dev ∧ t.dev.tiers.basin = s.dev.tiers.basin) := by
  refine ⟨⟨_, exec_scrub_corrected (place := .sram die off) hq rfl hp row sym, ?_, rfl, ?_⟩, fun hw => ?_⟩
  · exact getF_countF_self (softMet (.sram die (off / 16 * 16)) s.dev) (by omega) (by omega)
  · exact sameRegs_setW .sramErr die 0 _ (softMet (.sram die (off / 16 * 16)) s.dev)
  · refine exec_scrub_uncorrectable (place := .sram die off) hq rfl (fun x o hx => ?_) ?_
    · cases hx
      exact hw
    · simp only [codewordOf, errReg, placeDie, addrOf]
      omega

/-- The scrub of HBM4. -/
theorem scrub_hbm {s : State} {a row sym : Nat} (hq : Safety.Quiet s.dev) (ha : a / 2 ^ 26 < 12288) (hx : pfnExists (a / 2 ^ 26) s.dev = true) :
    (poisonedAt a s.dev = false → ∃ t, exec (.patrolScrub (.dev a) ⟨.corrected row sym, true⟩) s = .next t ∧
      getF .hbmErr (a / 2 ^ 26 / 1536) 0 15 0 t.dev = min 65535 (getF .hbmErr (a / 2 ^ 26 / 1536) 0 15 0 s.dev + 1) ∧
      t.dev.tiers.dev = s.dev.tiers.dev ∧ t.dev.tiers.poison = s.dev.tiers.poison) ∧
    (∃ t, exec (.patrolScrub (.dev a) ⟨.uncorrectable, true⟩) s = .next t ∧
      getF .hbmErr (a / 2 ^ 26 / 1536) 0 23 16 t.dev = min 255 (getF .hbmErr (a / 2 ^ 26 / 1536) 0 23 16 s.dev + 1) ∧
      poisonedAt a t.dev = true ∧ t.dev.tiers.dev = s.dev.tiers.dev) := by
  have hreach : scrubReaches (codewordOf (.dev a)) s.dev = true := scrubReaches_hbm ha hx
  have herr : errReg (codewordOf (.dev a)) = (.hbmErr, a / 2 ^ 26 / 1536) := errReg_hbm ha
  refine ⟨fun hp => ?_, ?_⟩
  · obtain ⟨f, hf⟩ : ∃ f, noteCe (codewordOf (.dev a)) row sym (softMet (codewordOf (.dev a)) s.dev) = updStack (a / 2 ^ 26 / 1536) f
        (countF .hbmErr (a / 2 ^ 26 / 1536) 0 15 0 1 (softMet (codewordOf (.dev a)) s.dev)) := noteCe_hbm ha row sym _
    have hp' : .dev (cwBase a) ∉ s.dev.tiers.poison := by simpa [poisonedAt] using hp
    refine ⟨_, exec_scrub_corrected (place := .dev a) hq hreach hp' row sym, ?_⟩
    dsimp only
    rw [hf]
    exact ⟨getF_countF_self (softMet (.dev (cwBase a)) s.dev) (by omega) (by omega), rfl, rfl⟩
  · obtain ⟨t, ht, hcount, -, hpoison, hdev, -⟩ := exec_scrub_uncorrectable (place := .dev a) hq hreach (fun x o h => by cases h) (by
      rw [herr]
      simp only [addrOf]
      omega)
    rw [herr] at hcount
    exact ⟨t, ht, hcount, by simpa [poisonedAt, codewordOf] using hpoison, hdev⟩

/-- The scrub passes over what it does not reach, changes nothing where it finds nothing, and an error that no read has met is held. -/
theorem scrub_nothing {s : State} {place : Place} (hq : Safety.Quiet s.dev) :
    (scrubReaches (codewordOf place) s.dev = false → ∀ f, exec (.patrolScrub place ⟨f, true⟩) s = .next s) ∧
    (codewordOf place ∉ s.dev.tiers.poison → (∀ x ∈ s.dev.tiers.soft, x.1 ≠ codewordOf place) →
      exec (.patrolScrub place ⟨.clean, true⟩) s = .next s ∧
      (placeThere (codewordOf place) s.dev = true → ∀ row sym, exec (.patrolScrub place ⟨.corrected row sym, false⟩) s =
        .next { s with dev := { s.dev with tiers := { s.dev.tiers with soft := s.dev.tiers.soft ++ [(codewordOf place, row, sym)] } } })) := by
  have same : ∀ {f}, patrolScrub place f true s.dev = s.dev → exec (.patrolScrub place ⟨f, true⟩) s = .next s := fun h => by
    rw [exec_patrolScrub_quiet (by rw [h]; exact hq), h]
  refine ⟨fun h f => same (patrolScrub_passedOver h f), fun hp hs => ⟨same ?_, fun ht row sym => ?_⟩⟩
  · cases hx : scrubReaches (codewordOf place) s.dev with
    | false => exact patrolScrub_passedOver hx _
    | true => rw [patrolScrub_reached hx, scrubbed_clean hp hs]
  · have he : patrolScrub place (.corrected row sym) false s.dev =
        { s.dev with tiers := { s.dev.tiers with soft := s.dev.tiers.soft ++ [(codewordOf place, row, sym)] } } := by
      simp [patrolScrub, ht, latentError_corrected hp hs]
    rw [exec_patrolScrub_quiet (by rw [he]; exact hq), he]

theorem sameRegs_memResult (cmd unit result : Nat) (d : Dev) : Safety.SameRegs [0x30304] d (memResult cmd unit result d) :=
  sameRegs_setW .memServiceStatus 0 0 _ d

/-- Settles O26: the scrub by `scrub_sram`, `scrub_hbm` and `scrub_nothing`, a repaired row by `stackAt_rowRepair`, a retirement by
`startRetire_begins` and a rebuilt group by `groupRebuild_rebuilt`; what goes to flash is what `repairNow_rows` and `repairNow_retired` say. -/
theorem scrubRepairRetirement : Obligations.ScrubRepairRetirement := by
  refine ⟨⟨fun s die off row sym hq hd hp => scrub_sram hq hd hp, fun s a row sym hq ha hx => scrub_hbm hq ha hx, fun s place hq => scrub_nothing hq,
    fun s n pc row h hn => ?_⟩, fun s n pc hn hpc hlen hg hr hl => ⟨fun hm => ⟨?_, fun c hc => ?_⟩, fun hm => ?_, fun g hg8 hb hlv => ?_⟩⟩
  · have hst := stackAt_rowRepair hn pc row
    have hrows : (stackAt n (rowRepair n pc row s.dev)).rows = min 65535 ((stackAt n s.dev).rows + 1) := by rw [hst]; rfl
    have hcand := repaired_not_candidate (stackAt n s.dev) pc row (clock n s.dev)
    rw [← hst] at hcand
    have hn8 : n < 8 := by
      simp only [rowReady, Bool.and_eq_true, decide_eq_true_eq] at h
      exact h.1.1.1
    refine ⟨_, exec_rowRepair h, hrows, hcand, ?_, ?_, ?_⟩
    · change rowReady n pc row (rowRepair n pc row s.dev) = false
      simp [rowReady, hcand]
    · exact (repairNow_rows hn8 (by rw [hrows]; omega)).trans (congrArg some hrows)
    · change (rowRepair n pc row s.dev).tiers.dev = _
      rw [rowRepair_eq, logEv_tiers]
      rfl
  · have hres := memServiceStatus_startRetire n pc 15 0 (memResult 4 n 1 s.dev)
    rw [getF_memResult (by omega) hn (by omega)] at hres
    obtain ⟨hleave, hempty, hret⟩ := startRetire_begins (d := memResult 4 n 1 s.dev) hlen hg hpc
    refine ⟨_, exec_hbmRetire hr hl hn hpc, ?_⟩
    dsimp only
    rw [hbmRetire, if_pos hm]
    exact ⟨hres, hleave, hempty, hret⟩
  · obtain ⟨hleave, hempty, -⟩ := startRetire_begins (d := s.dev) hlen hg hpc
    refine ⟨_, exec_pseudoChannelRetirement hm hc, ?_⟩
    dsimp only
    exact ⟨hleave, hempty⟩
  · refine ⟨_, exec_hbmRetire hr hl hn hpc, ?_⟩
    dsimp only
    rw [hbmRetire, if_neg (by simp [hm])]
    exact ⟨getF_memResult (by omega) hn (by omega) _, rfl, rfl, sameRegs_memResult 4 n 4 _⟩
  · obtain ⟨hret, hleave, hgroup⟩ := groupRebuild_rebuilt hlen hg hg8 hlv
    refine ⟨_, exec_groupRebuild hb, hret, hleave, hgroup, _, repairNow_retired hn ?_, ?_⟩
    · change (stackAt n (groupRebuild n g s.dev)).retired ≠ []
      simp [hret]
    · change pc ∈ (stackAt n (groupRebuild n g s.dev)).retired
      simp [hret]

end Sys2Proof.Machine
end

section
/-! SUPPORT. The moves of frames (R140, R187, R189, R191, R193, R395): what a copy brings, and what a piece, the end of a move and an epoch boundary
leave. -/

namespace Sys2Proof.Machine

/-! ## Bytes that are copied (R187) -/

/-- A byte to which no entry of a list is written is as it was. -/
theorem Mem.read_foldl_write_outside {l : Mem} {f : Nat → Nat} {x : Nat} (h : ∀ p ∈ l, f p.1 ≠ x) (acc : Mem) :
    Mem.read (l.foldl (fun acc p => Mem.write acc (f p.1) p.2) acc) x = Mem.read acc x := by
  induction l generalizing acc with
  | nil => rfl
  | cons p l ih =>
    rw [List.foldl_cons, ih fun q hq => h q (List.mem_cons_of_mem _ hq), Mem.read_write_other _ _ (h p (List.mem_cons_self ..)).symm]

/-- A byte to which the entries of one address are written is the one that the list holds there. -/
theorem Mem.read_foldl_write {l : Mem} {f : Nat → Nat} {x : Nat} (hn : l.Pairwise (fun p q => p.1 < q.1)) (hf : ∀ p ∈ l, f p.1 = f x → p.1 = x)
    (acc : Mem) : Mem.read (l.foldl (fun acc p => Mem.write acc (f p.1) p.2) acc) (f x) = (Tab.get l x).getD (Mem.read acc (f x)) := by
  induction l generalizing acc with
  | nil => rfl
  | cons p l ih =>
    obtain ⟨k, b⟩ := p
    obtain ⟨hlt, hn⟩ := List.pairwise_cons.mp hn
    have hf' : ∀ p ∈ l, f p.1 = f x → p.1 = x := fun q hq => hf q (List.mem_cons_of_mem _ hq)
    rw [List.foldl_cons]
    by_cases hk : k = x
    · subst hk
      have hout : ∀ p ∈ l, f p.1 ≠ f k := fun q hq he => (hlt q hq).ne (hf' q hq he).symm
      rw [Mem.read_foldl_write_outside hout, Mem.read_write_self, Tab.get, if_pos rfl, Option.getD_some]
    · rw [ih hn hf', Mem.read_write_other _ _ fun he => hk (hf (k, b) (List.mem_cons_self ..) he.symm), Tab.get, if_neg hk]

theorem Mem.copy_mem {m : Mem} {src n : Nat} {p : Host.Cell} (hp : p ∈ m.filter (fun p => decide (src ≤ p.1) && decide (p.1 < src + n))) :
    src ≤ p.1 ∧ p.1 < src + n := by
  simpa using (List.mem_filter.mp hp).2

/-- A copied byte is the one at the source. -/
theorem Mem.read_copy_inside {m : Mem} (hw : Mem.wf m = true) (src dst : Nat) {n i : Nat} (hi : i < n) :
    Mem.read (Mem.copy m src dst n) (dst + i) = Mem.read m (src + i) := by
  have hpair : m.Pairwise (fun p q => p.1 < q.1) := (Tab.wf_iff m).mp (by simp only [Mem.wf, Bool.and_eq_true] at hw; exact hw.1)
  have hget := Tab.get_filter_key m (fun k => decide (src ≤ k) && decide (k < src + n)) (src + i)
  rw [if_pos (by simp [hi])] at hget
  have hat : src + i - src + dst = dst + i := by omega
  have hfold := Mem.read_foldl_write (f := fun k => k - src + dst) (x := src + i) (hpair.filter fun p => decide (src ≤ p.1) && decide (p.1 < src + n))
    (fun p hp he => by have := Mem.copy_mem hp; omega) (Mem.zero m dst n)
  rw [hat, hget, Mem.read_zero_inside _ _ hi] at hfold
  exact hfold

/-- A byte outside the place copied to is as it was. -/
theorem Mem.read_copy_outside (m : Mem) (src : Nat) {dst n x : Nat} (h : x < dst ∨ dst + n ≤ x) :
    Mem.read (Mem.copy m src dst n) x = Mem.read m x := by
  have hout : ∀ p ∈ m.filter (fun p => decide (src ≤ p.1) && decide (p.1 < src + n)), p.1 - src + dst ≠ x := fun p hp he => by
    have := Mem.copy_mem hp
    omega
  exact (Mem.read_foldl_write_outside (f := fun k => k - src + dst) hout _).trans (Mem.read_zero_outside m h)

/-! ## The mover with nothing asked of it (R187) -/

theorem LedgerStep.xl {d e : Dev} (h : LedgerStep d e) : e.xl = d.xl := by rw [h.rest]

theorem each_xl {α : Type} {f : α → Dev → Dev} (h : ∀ x d, (f x d).xl = d.xl) (l : List α) (d : Dev) : (each l f d).xl = d.xl :=
  List.foldlRecOn (motive := fun a : Dev => a.xl = d.xl) _ _ rfl fun _ ha x _ => (h x _).trans ha

theorem settleStalled_xl (d : Dev) : (settleStalled d).xl = d.xl := by
  refine each_xl (fun n d => each_xl (fun g d => ?_) _ _) _ _
  dsimp only
  split <;> rfl

theorem settleWater_move (d : Dev) : (settleWater d).xl.move = d.xl.move := rfl
theorem settleWater_queued (d : Dev) : (settleWater d).xl.queued = d.xl.queued := rfl
theorem dropDone_move (d : Dev) : (dropDone d).xl.move = d.xl.move := rfl

/-- Where no context counts its accesses, no stack demotes (R191). -/
theorem settleWater_demoting {d : Dev} (h : anyCounters d = false) : (settleWater d).xl.demoting = [] := by simp [settleWater, h]

/-- The look at the queue leaves the move in hand. -/
theorem settled_move (d : Dev) : (settleWater (settleStalled (dropDone d))).xl.move = d.xl.move := by
  rw [settleWater_move, settleStalled_xl, dropDone_move]

/-- Nothing asks for a move: no group and no site empties, no move waits, and no context counts its accesses. -/
structure Unasked (d : Dev) : Prop where
  groups   : ∀ n < 8, ∀ g < 8, ¬(stackAt n d).Empties g
  sites    : ∀ k < 8, (siteAt k d).state ≠ 5
  queued   : d.xl.queued = []
  counters : anyCounters d = false

namespace Unasked

variable {d e : Dev}

/-- The mover's look at its queue asks for nothing new. -/
theorem mover (h : Unasked d) (hm : MoverStep d e) (hq : e.xl.queued = []) : Unasked e :=
  ⟨fun n hn g hg he => h.groups n hn g hg (((hm.stack n).empties_iff g).mp he), fun k hk => by rw [hm.site]; exact h.sites k hk, hq, by
    rw [anyCounters, hm.ctxs]; exact h.counters⟩

/-- Errors that are noted ask for no move. -/
theorem noted (h : Unasked d) (hn : Noted d e) : Unasked e :=
  ⟨fun n hlt g hg he => h.groups n hlt g hg (by rwa [Stack.Empties, hn.groups] at he), fun k hk => by rw [siteAt_congr hn.sites]; exact h.sites k hk,
    by rw [hn.xl]; exact h.queued, by rw [anyCounters, hn.xl]; exact h.counters⟩

/-- Where no stack demotes either, the list of moves is empty. -/
theorem asked_nil (h : Unasked d) (hd : d.xl.demoting = []) : asked d = [] := by
  have hr : allRetire d = [] := by
    simp only [allRetire, List.flatMap_eq_nil_iff, List.mem_range]
    intro n hn g hg
    rw [if_neg fun he => h.groups n hn g hg (emptying_iff.mp he)]
  have he : allEvacuate d = [] := by
    simp only [allEvacuate, List.flatMap_eq_nil_iff, List.mem_range]
    intro k hk
    rw [if_neg (h.sites k hk)]
  simp [asked, hr, he, h.queued, demotions, promotions, hd]

/-- After the mover's look at its queue still nothing is asked, and no stack demotes. -/
theorem settled (h : Unasked d) :
    Unasked (settleWater (settleStalled (dropDone d))) ∧ asked (settleWater (settleStalled (dropDone d))) = [] ∧
    (settleWater (settleStalled (dropDone d))).xl.demoting = [] := by
  have hdrop : (dropDone d).xl.queued = [] := by simp [dropDone, h.queued]
  have hu : Unasked (settleWater (settleStalled (dropDone d))) := h.mover (.settled d) (by rw [settleWater_queued, settleStalled_xl, hdrop])
  have hc : anyCounters (settleStalled (dropDone d)) = false := by
    rw [anyCounters, settleStalled_xl]
    exact h.counters
  have hd := settleWater_demoting hc
  exact ⟨hu, hu.asked_nil hd, hd⟩

/-- With nothing asked and no move in hand, no move starts. -/
theorem kickMover_move (h : Unasked d) (hm : d.xl.move = none) : (kickMover d).xl.move = none := by
  obtain ⟨-, hask, -⟩ := h.settled
  have hmove := (settled_move d).trans hm
  unfold kickMover
  generalize settleWater (settleStalled (dropDone d)) = d0 at hask hmove ⊢
  have hnext : nextMove d0 = none := by rw [nextMove, hask]; rfl
  simp only [hmove, hnext]
  rw [(LedgerStep.idleDdr _).xl]
  unfold when_
  split
  · rw [(LedgerStep.returnGrant (by decide) d0).xl, hmove]
  · exact hmove

end Unasked

/-- With a move in hand the mover starts none. -/
theorem kickMover_of_move {m : Move} {d : Dev} (h : d.xl.move = some m) : kickMover d = settleWater (settleStalled (dropDone d)) := by
  have hmove := (settled_move d).trans h
  unfold kickMover
  simp only [hmove]

/-! ## A move given up (R189, R395) -/

/-- A move that is given up changes its own queue, the ledger and a count alone. -/
theorem abandonMove_eq {m : Move} {d : Dev} (h : d.xl.move = some m) (requeue counted : Bool) : ∃ q, (requeue = false → q = d.xl.queued) ∧
    abandonMove requeue counted d = when_ counted (countF .migrationStatus 0 0 15 8 1)
      (returnGrant .mover { d with xl := { d.xl with move := none, queued := q } }) := by
  refine ⟨_, fun hr => ?_, by simp only [abandonMove, h]; rfl⟩
  simp [hr]

theorem abandonMove_leaves {m : Move} {d : Dev} (h : d.xl.move = some m) (requeue counted : Bool) :
    (abandonMove requeue counted d).tiers = d.tiers ∧ (abandonMove requeue counted d).xl.lfns = d.xl.lfns ∧
    (abandonMove requeue counted d).xl.ctxs = d.xl.ctxs ∧
    (abandonMove requeue counted d).xl.move = none ∧ (requeue = false → (abandonMove requeue counted d).xl.queued = d.xl.queued) := by
  obtain ⟨q, hq, he⟩ := abandonMove_eq h requeue counted
  have hx : (abandonMove requeue counted d).xl = { d.xl with move := none, queued := q } := by
    rw [he]
    unfold when_
    split
    · rw [countF_xl, (LedgerStep.returnGrant (by decide) _).xl]
    · rw [(LedgerStep.returnGrant (by decide) _).xl]
  have ht : (abandonMove requeue counted d).tiers = d.tiers := by
    rw [he]
    unfold when_
    split <;> simp
  rw [hx]
  exact ⟨ht, rfl, rfl, rfl, hq⟩

theorem Unasked.abandoned {m : Move} {d : Dev} (h : Unasked d) (hm : d.xl.move = some m) (counted : Bool) : Unasked (abandonMove false counted d) := by
  obtain ⟨ht, -, hc, -, hq⟩ := abandonMove_leaves hm false counted
  refine ⟨fun n hn g hg => ?_, fun k hk => ?_, (hq rfl).trans h.queued, by rw [anyCounters, hc]; exact h.counters⟩
  · rw [stackAt_congr (d := d) (by rw [ht])]
    exact h.groups n hn g hg
  · rw [siteAt_congr (d := d) (by rw [ht])]
    exact h.sites k hk

/-! ## A piece is copied (R187) -/

/-- The device after the next piece of a move is copied from its source frame, with the poison that goes with it. -/
def pieceCopied (m : Move) (src : Nat) (d : Dev) : Dev :=
  copyPoison (src * 2 ^ 26 + m.piece * 2 ^ 18) (m.dest * 2 ^ 26 + m.piece * 2 ^ 18) (2 ^ 18)
    (readsDev [(src * 2 ^ 26 + m.piece * 2 ^ 18, 2 ^ 18)] { d with
      tiers := { d.tiers with dev := Mem.copy d.tiers.dev (src * 2 ^ 26 + m.piece * 2 ^ 18) (m.dest * 2 ^ 26 + m.piece * 2 ^ 18) (2 ^ 18) },
      xl := { d.xl with move := some { m with piece := m.piece + 1 } } })

theorem copyPoison_noted (src dst n : Nat) (d : Dev) : Noted d (copyPoison src dst n d) :=
  (Noted.codewords _ _ _ d).trans (.each (fun _ _ => .noteUe ..) _ _)

/-- Beside the bytes, the mover's own place and what is known of errors, a piece leaves everything. -/
theorem pieceCopied_leaves (m : Move) (src : Nat) (d : Dev) :
    (pieceCopied m src d).tiers.dev =
      Mem.copy d.tiers.dev (src * 2 ^ 26 + m.piece * 2 ^ 18) (m.dest * 2 ^ 26 + m.piece * 2 ^ 18) (2 ^ 18) ∧
    (pieceCopied m src d).xl = { d.xl with move := some { m with piece := m.piece + 1 } } ∧ (pieceCopied m src d).insts = d.insts ∧
    (Unasked d → Unasked (pieceCopied m src d)) := by
  have hn := (Noted.correct (metDev [(src * 2 ^ 26 + m.piece * 2 ^ 18, 2 ^ 18)]) { d with
    tiers := { d.tiers with dev := Mem.copy d.tiers.dev (src * 2 ^ 26 + m.piece * 2 ^ 18) (m.dest * 2 ^ 26 + m.piece * 2 ^ 18) (2 ^ 18) },
    xl := { d.xl with move := some { m with piece := m.piece + 1 } } }).trans
    (copyPoison_noted (src * 2 ^ 26 + m.piece * 2 ^ 18) (m.dest * 2 ^ 26 + m.piece * 2 ^ 18) (2 ^ 18) _)
  refine ⟨hn.dev, hn.xl, hn.insts, fun h => Unasked.noted ?_ hn⟩
  exact ⟨h.groups, h.sites, h.queued, h.counters⟩

section Piece

variable {d : Dev} {m : Move} {src : Nat} (hm : d.xl.move = some m) (hs : m.source d = some src) (hp : m.piece < 256 * m.n)
include hm hs hp

theorem frameMovePiece_eq (hb : pairBusy moverPair d = false) : frameMovePiece d =
    let e := pieceCopied m src (settleWater (settleStalled (dropDone d)))
    if higherWaits m.kind.rank e then kickMover (abandonMove true true e)
    else if resetStops m e then kickMover (abandonMove false true e) else e := by
  have hk := kickMover_of_move hm
  have hmove := (settled_move d).trans hm
  have hsrc : m.source (settleWater (settleStalled (dropDone d))) = some src := by
    rw [Move.source, (MoverStep.settled d).lfns]
    exact hs
  unfold frameMovePiece
  simp only [hb, hk, hmove, hsrc, hp, if_true, Bool.false_eq_true, if_false]
  rfl

/-- Whether or not the move gives way at the boundary, the bytes are the copy's and the frame map stays (R187, R189). -/
theorem frameMovePiece_leaves (hb : pairBusy moverPair d = false) :
    (frameMovePiece d).tiers.dev =
      Mem.copy d.tiers.dev (src * 2 ^ 26 + m.piece * 2 ^ 18) (m.dest * 2 ^ 26 + m.piece * 2 ^ 18) (2 ^ 18) ∧
    (frameMovePiece d).xl.lfns = d.xl.lfns := by
  rw [frameMovePiece_eq hm hs hp hb]
  dsimp only
  have hset := MoverStep.settled d
  generalize settleWater (settleStalled (dropDone d)) = d0 at hset ⊢
  obtain ⟨hdev, hxl, -, -⟩ := pieceCopied_leaves m src d0
  generalize pieceCopied m src d0 = e at hdev hxl ⊢
  have hmove : e.xl.move = some { m with piece := m.piece + 1 } := by rw [hxl]
  have hlfns : e.xl.lfns = d.xl.lfns := by rw [hxl]; exact hset.lfns
  rw [hset.dev] at hdev
  have hgone : ∀ r, (kickMover (abandonMove r true e)).tiers.dev = e.tiers.dev ∧ (kickMover (abandonMove r true e)).xl.lfns = e.xl.lfns := fun r => by
    obtain ⟨ht, hl, -⟩ := abandonMove_leaves hmove r true
    rw [(MoverStep.kickMover _).dev, (MoverStep.kickMover _).lfns, ht, hl]
    exact ⟨rfl, rfl⟩
  split
  · rw [(hgone true).1, (hgone true).2]
    exact ⟨hdev, hlfns⟩
  · split
    · rw [(hgone false).1, (hgone false).2]
      exact ⟨hdev, hlfns⟩
    · exact ⟨hdev, hlfns⟩

/-- No move takes precedence over a retirement, and no reset stops one (R187, R395). -/
theorem frameMovePiece_retire (hb : pairBusy moverPair d = false) (hk : m.kind = .retire) :
    (frameMovePiece d).xl.move = some { m with piece := m.piece + 1 } := by
  have hrank : ∀ e, higherWaits m.kind.rank e = false := fun e => by
    rw [hk, higherWaits, List.any_eq_false]
    intro x _
    have hx : ¬x.kind.rank < MoveKind.rank .retire := by cases x.kind <;> decide
    simp only [decide_eq_false hx, Bool.false_and, Bool.false_eq_true, not_false_eq_true]
  have hstop : ∀ e, resetStops m e = false := fun e => by simp [resetStops, hk]
  rw [frameMovePiece_eq hm hs hp hb]
  simp only [hrank, hstop, Bool.false_eq_true, if_false]
  rw [(pieceCopied_leaves ..).2.1]

/-- With nothing else asked of the mover the move goes on, unless the reset of its frame's instance stops it (R395). -/
theorem frameMovePiece_unasked (hb : pairBusy moverPair d = false) (hu : Unasked d) :
    (frameMovePiece d).xl.move = if resetStops m d then none else some { m with piece := m.piece + 1 } := by
  rw [frameMovePiece_eq hm hs hp hb]
  dsimp only
  have hset := MoverStep.settled d
  obtain ⟨hus, -, hdem⟩ := hu.settled
  generalize settleWater (settleStalled (dropDone d)) = d0 at hset hus hdem ⊢
  obtain ⟨-, hxl, hinsts, hkeep⟩ := pieceCopied_leaves m src d0
  have hue := hkeep hus
  generalize pieceCopied m src d0 = e at hxl hinsts hue ⊢
  have hasked : asked e = [] := hue.asked_nil (by rw [hxl]; exact hdem)
  have hhigh : higherWaits m.kind.rank e = false := by rw [higherWaits, hasked]; rfl
  have hstop : resetStops m e = resetStops m d := by simp only [resetStops, hxl, hinsts, hset.lfns, hset.insts]
  have hmove : e.xl.move = some { m with piece := m.piece + 1 } := by rw [hxl]
  simp only [hhigh, hstop, Bool.false_eq_true, if_false]
  split
  · exact (hue.abandoned hmove true).kickMover_move (abandonMove_leaves hmove false true).2.2.2.1
  · exact hmove

end Piece

/-! ## The end of a move (R187) -/

theorem read_zeroFrame_inside (pfn : Nat) {i : Nat} (hi : i < 2 ^ 26) (d : Dev) : Mem.read (zeroFrame pfn d).tiers.dev (pfn * 2 ^ 26 + i) = 0 :=
  Mem.read_zero_inside _ _ hi

theorem read_zeroFrame_outside {pfn a : Nat} (h : a < pfn * 2 ^ 26 ∨ (pfn + 1) * 2 ^ 26 ≤ a) (d : Dev) :
    Mem.read (zeroFrame pfn d).tiers.dev a = Mem.read d.tiers.dev a := Mem.read_zero_outside _ (by omega)

/-- The device when the frame map names the destination of a move of one frame, and the old frame is zero. -/
def moveSwitched (m : Move) (src : Nat) (d : Dev) : Dev :=
  let d1 := dropCache (fun t => !t.host && decide (t.lfn < m.lfn + m.n ∧ m.lfn < t.lfn + t.size / 2 ^ 26) && !m.store)
    { d with xl := { d.xl with lfns := Tab.mapVals d.xl.lfns (fun k l =>
      if m.lfn ≤ k && k < m.lfn + m.n then { l with pfn := m.dest + (k - m.lfn) } else l) } }
  zeroFrame src { d1 with xl := { d1.xl with move := none } }

theorem frameMoveEnd_eq {d : Dev} {m : Move} {src : Nat} (hm : d.xl.move = some m) (hst : m.store = false) (hn : m.n = 1)
    (hs : m.source d = some src) (hp : m.piece = 256) :
    frameMoveEnd d = kickMover (returnGrant .mover (countF .migrationStatus 0 0 31 16 1 (moveSwitched m src d))) := by
  have hp' : m.piece = 256 * m.n := by omega
  unfold frameMoveEnd
  simp only [hm, hs, if_pos hp', hst, Bool.false_eq_true, if_false]
  rw [moveSwitched, hn]
  simp only [hst]
  rfl

end Sys2Proof.Machine
end

section
/-! SUPPORT. DDR5 sites (R157 to R161) and the end of a move (R187), settled with the moves of frames. -/

namespace Sys2Proof.Machine

/-! ## The service commands (R158, R159, R161) -/

section Service

variable {s : State} {k : Nat} (hr : s.dev.start.ready = true) (hl : linkOpen s.dev = true) (hk : k < 8)
include hr hl hk

theorem exec_ddr5Evacuate : exec (.ddr5Evacuate k) s = .next { s with dev := ddr5Evacuate k s.dev } := by
  change execDdr5Evacuate k s = _
  rw [execDdr5Evacuate, overLink_unheld (unheld_of_linkOpen hl), Nat.mod_eq_of_lt hk, managerWrite_ready hr hl]

theorem exec_ddr5Online : exec (.ddr5Online k) s = .next { s with dev := ddr5Online k s.dev } := by
  change execDdr5Online k s = _
  rw [execDdr5Online, overLink_unheld (unheld_of_linkOpen hl), Nat.mod_eq_of_lt hk, managerWrite_ready hr hl]

theorem exec_ddr5Cancel : exec (.ddr5Cancel k) s = .next { s with dev := ddr5Cancel k s.dev } := by
  change execDdr5Cancel k s = _
  rw [execDdr5Cancel, overLink_unheld (unheld_of_linkOpen hl), Nat.mod_eq_of_lt hk, managerWrite_ready hr hl]

omit hl in
theorem exec_ddr5ModuleInserted (cap : Nat) (ok : Bool) :
    exec (.ddr5ModuleInserted k cap ok) s = .next { s with dev := ddr5ModuleInserted k cap ok s.dev } := by
  change execDdr5ModuleInserted k cap ok s = _
  rw [execDdr5ModuleInserted, if_pos hk, moduleInserted, if_pos hr]

omit hr hl in
theorem exec_ddr5ModuleRemoved (hp : (siteAt k s.dev).present = true) :
    exec (.ddr5ModuleRemoved k) s = .next { s with dev := ddr5ModuleRemoved k s.dev } := by
  change execDdr5ModuleRemoved k s = _
  rw [execDdr5ModuleRemoved, if_neg (by omega), if_pos hp]

end Service

/-- A site's state set by a service command, with the mover looking at its queue after it: the state, the answer and the bytes of memory. -/
theorem service_effect {k cmd : Nat} {d : Dev} (hk : k < 8) (hs : k < d.tiers.sites.length) (hc : cmd < 16) (f : Site → Site) {e : Dev}
    (he : e = updSite k f (memResult cmd k 1 d) ∨ e = kickMover (updSite k f (memResult cmd k 1 d))) :
    siteAt k e = f (siteAt k d) ∧ getF .memServiceStatus 0 0 15 0 e = cmd * 4096 + k * 256 + 1 ∧ e.tiers.dev = d.tiers.dev ∧
    e.xl.lfns = d.xl.lfns := by
  have hsite : siteAt k (updSite k f (memResult cmd k 1 d)) = f (siteAt k d) := siteAt_updSite_self (d := memResult cmd k 1 d) hs f
  have hres : getF .memServiceStatus 0 0 15 0 (updSite k f (memResult cmd k 1 d)) = cmd * 4096 + k * 256 + 1 :=
    (getF_congr (d := updSite k f (memResult cmd k 1 d)) (e := memResult cmd k 1 d) rfl ..).trans (getF_memResult hc hk (by omega) d)
  rcases he with he | he <;> rw [he]
  · exact ⟨hsite, hres, rfl, rfl⟩
  · have hm := MoverStep.kickMover (updSite k f (memResult cmd k 1 d))
    rw [hm.site, hsite, hm.getF (by decide), hres, hm.dev, hm.lfns]
    exact ⟨rfl, rfl, rfl, rfl⟩

/-- In a state that does not allow it a command answers 0x03 and does nothing else. -/
theorem memResult_three {k cmd : Nat} (hk : k < 8) (hc : cmd < 16) (d : Dev) :
    memResult cmd k 3 d = setW .memServiceStatus 0 0 (cmd * 4096 + k * 256 + 3) d := by
  rw [memResult, Nat.mod_eq_of_lt hc, Nat.mod_eq_of_lt hk]

/-! ## A site empties, trains, and loses or takes a module (R158 to R160) -/

theorem siteEvacuated_site {k : Nat} {d : Dev} (hs : k < d.tiers.sites.length) (h5 : (siteAt k d).state = 5) (hf : siteFrames k d = []) :
    siteAt k (siteEvacuated k d) = { siteAt k d with state := 6 } ∧ (siteEvacuated k d).tiers.dev = d.tiers.dev := by
  have he : siteEvacuated k d = logEv 13 0 0x03 5 (siteData k) (returnGrant (.ddr5 k) (updSite k (fun x => { x with state := 6 }) d)) := by
    simp [siteEvacuated, h5, hf]
  rw [he, siteAt_logEv, siteAt_congr (d := updSite k (fun x => { x with state := 6 }) d) (by simp), siteAt_updSite_self hs, logEv_tiers,
    returnGrant_tiers]
  exact ⟨rfl, rfl⟩

/-- The memories of a site that has trained: zero, and sound. -/
def siteZeroed (k : Nat) (d : Dev) : Dev :=
  let inside : Place → Bool := fun p => match p with
    | .dev a => decide ((16384 + 4096 * k) * 2 ^ 26 ≤ a) && decide (a < (16384 + 4096 * k) * 2 ^ 26 + 4096 * 2 ^ 26)
    | _ => false
  { d with tiers := { d.tiers with
    dev := Mem.zero d.tiers.dev ((16384 + 4096 * k) * 2 ^ 26) (4096 * 2 ^ 26), poison := d.tiers.poison.filter (fun p => !inside p),
    logged := d.tiers.logged.filter (fun p => !inside p), soft := d.tiers.soft.filter (fun s => !inside s.1) } }

theorem siteZeroed_dev (k : Nat) (d : Dev) : (siteZeroed k d).tiers.dev = Mem.zero d.tiers.dev ((16384 + 4096 * k) * 2 ^ 26) (4096 * 2 ^ 26) := rfl

/-- The bytes outside a site. -/
theorem outside_site {k a : Nat} (h : a < (16384 + 4096 * k) * 2 ^ 26 ∨ (16384 + 4096 * (k + 1)) * 2 ^ 26 ≤ a) :
    a < (16384 + 4096 * k) * 2 ^ 26 ∨ (16384 + 4096 * k) * 2 ^ 26 + 4096 * 2 ^ 26 ≤ a :=
  h.imp id fun h => by linarith

theorem updSite_dev (k : Nat) (f : Site → Site) (d : Dev) : (updSite k f d).tiers.dev = d.tiers.dev := rfl

theorem siteTrainingEnd_online {k : Nat} {d : Dev} (h3 : (siteAt k d).state = 3) :
    siteTrainingEnd k true d = kickMover (updSite k (fun x => { x with state := 4 }) (siteZeroed k d)) := by
  rw [siteTrainingEnd, if_pos h3, if_pos rfl]
  rfl

theorem siteTrainingEnd_failed {k : Nat} {d : Dev} (h3 : (siteAt k d).state = 3) :
    siteTrainingEnd k false d = logEv 13 2 0x03 6 (siteData k) (updSite k (fun x => { x with state := 7 }) d) := by
  rw [siteTrainingEnd, if_pos h3, if_neg (by decide)]

/-- The module of a site that is not ONLINE, EVACUATING or TRAINING leaves it EMPTY (R160). -/
theorem ddr5ModuleRemoved_idle {k : Nat} {d : Dev}
    (h : (siteAt k d).state = 1 ∨ (siteAt k d).state = 2 ∨ (siteAt k d).state = 6 ∨ (siteAt k d).state = 7) :
    ddr5ModuleRemoved k d = updSite k (fun x => { x with state := 0, present := false, capGiB := 0 }) d := by
  have h45 : ((siteAt k d).state = 4 || (siteAt k d).state = 5 : Bool) = false := by simp; omega
  have h3 : (siteAt k d).state ≠ 3 := by omega
  simp only [ddr5ModuleRemoved, h45, if_neg h3, Bool.false_eq_true, if_false]

/-- The module of a site in use leaves it FAILED, with the frames that are lost (R160, R189). -/
theorem ddr5ModuleRemoved_used {k : Nat} {d : Dev} (hs : k < d.tiers.sites.length) (h : (siteAt k d).state = 4 ∨ (siteAt k d).state = 5) :
    (siteAt k (ddr5ModuleRemoved k d)).state = 7 ∧ (siteAt k (ddr5ModuleRemoved k d)).present = false := by
  have h45 : ((siteAt k d).state = 4 || (siteAt k d).state = 5 : Bool) = true := by simpa using h
  have hgone : ∀ (c : Bool) (lost : List Nat), let e := kickMover (returnGrant (.ddr5 k)
      (updSite k (fun x => { x with state := 7, present := false, lost := lost }) (if c then abandonMove true true d else d)))
      (siteAt k e).state = 7 ∧ (siteAt k e).present = false := by
    intro c lost
    have hsites : (if c then abandonMove true true d else d).tiers = d.tiers := by
      split
      · cases hm : d.xl.move with
        | none => rw [abandonMove, hm]
        | some m => exact (abandonMove_leaves hm true true).1
      · rfl
    dsimp only
    rw [(MoverStep.kickMover _).site, (MoverStep.returnGrant (railOf_ddr5 k) _).site, siteAt_updSite_self (by rw [hsites]; exact hs)]
    exact ⟨rfl, rfl⟩
  simp only [ddr5ModuleRemoved, h45, if_true]
  exact hgone _ _

/-- A module put into an EMPTY site is READY where it is supported and no larger than 256 GiB, and UNSUPPORTED otherwise (R141, R160). -/
theorem ddr5ModuleInserted_empty {k : Nat} {d : Dev} (hs : k < d.tiers.sites.length) (h0 : (siteAt k d).state = 0) (cap : Nat) (ok : Bool) :
    siteAt k (ddr5ModuleInserted k cap ok d) =
      { siteAt k d with state := if (ok && decide (cap ≤ 256)) = true then 1 else 2, present := true, capGiB := min cap 256 } := by
  have he : (ddr5ModuleInserted k cap ok d).tiers.sites = (updSite k (fun x =>
      { x with state := if (ok && decide (cap ≤ 256)) = true then 1 else 2, present := true, capGiB := min cap 256 }) d).tiers.sites := by
    rw [ddr5ModuleInserted, if_pos h0]
    unfold when_
    dsimp only
    split
    · rw [logEv_tiers]
    · rfl
  rw [siteAt_congr he, siteAt_updSite_self hs]

/-- A module put into any other site is sensed. -/
theorem ddr5ModuleInserted_other {k : Nat} {d : Dev} (h0 : (siteAt k d).state ≠ 0) (cap : Nat) (ok : Bool) :
    ddr5ModuleInserted k cap ok d = updSite k (fun x => { x with present := true }) d := by
  rw [ddr5ModuleInserted, if_neg h0]

/-! ## The end of a move, and an epoch (R187, R191, R193) -/

/-- A move of one frame ends: the map names its destination, and the old frame is zero. -/
theorem frameMoveEnd_leaves {d : Dev} {m : Move} {l : Lfn} (hm : d.xl.move = some m) (hst : m.store = false) (hn : m.n = 1)
    (hl : Tab.get d.xl.lfns m.lfn = some l) (hp : m.piece = 256) :
    (Tab.get (frameMoveEnd d).xl.lfns m.lfn).map Lfn.pfn = some m.dest ∧
    (∀ i < 2 ^ 26, Mem.read (frameMoveEnd d).tiers.dev (l.pfn * 2 ^ 26 + i) = 0) ∧
    (∀ a, a < l.pfn * 2 ^ 26 ∨ (l.pfn + 1) * 2 ^ 26 ≤ a → Mem.read (frameMoveEnd d).tiers.dev a = Mem.read d.tiers.dev a) ∧
    getF .migrationStatus 0 0 31 16 (frameMoveEnd d) = min 65535 (getF .migrationStatus 0 0 31 16 d + 1) := by
  have hs : m.source d = some l.pfn := by simp [Move.source, hst, hl]
  have hstep : MoverStep (countF .migrationStatus 0 0 31 16 1 (moveSwitched m l.pfn d)) (frameMoveEnd d) := by
    rw [frameMoveEnd_eq hm hst hn hs hp]
    exact (MoverStep.returnGrant (by decide) _).trans (.kickMover _)
  rw [hstep.lfns, hstep.dev, hstep.getF (by decide), getF_countF_self _ (by omega) (by omega)]
  refine ⟨?_, fun i hi => ?_, fun a ha => ?_, rfl⟩
  · change (Tab.get (Tab.mapVals d.xl.lfns (fun k l => if m.lfn ≤ k && k < m.lfn + m.n then { l with pfn := m.dest + (k - m.lfn) } else l)) m.lfn).map
      Lfn.pfn = _
    rw [Tab.get_mapVals, hl]
    simp [hn]
  · exact read_zeroFrame_inside l.pfn hi _
  · exact read_zeroFrame_outside ha _

theorem exec_epochBoundary {s : State} (h : s.dev.xl.epochAt + msec s.dev.xl.epochMs ≤ clock iodie s.dev) :
    exec .epochBoundary s = .next { s with dev := { s.dev with xl := { s.dev.xl with
      lfns := Tab.mapVals s.dev.xl.lfns (fun _ l => { l with count := l.count / 2 }), epochAt := clock iodie s.dev,
      epochMs := getF .migrationCtrl 0 0 7 0 s.dev } } } := by
  change execEpochBoundary s = _
  rw [execEpochBoundary, epochBoundary, if_pos h]

/-! ## The obligation -/

section Site

variable {s : State} {k : Nat} (hk : k < 8) (hs : k < s.dev.tiers.sites.length) (hr : s.dev.start.ready = true) (hl : linkOpen s.dev = true)
include hk hs hr hl

/-- DDR5_EVACUATE, DDR5_ONLINE and DDR5_CANCEL in the state that allows each. -/
theorem service_allowed :
    ((siteAt k s.dev).state = 4 → ∃ t, exec (.ddr5Evacuate k) s = .next t ∧ (siteAt k t.dev).state = 5 ∧
      getF .memServiceStatus 0 0 15 0 t.dev = 0x1001 + 256 * k ∧ t.dev.tiers.dev = s.dev.tiers.dev) ∧
    ((siteAt k s.dev).state = 1 → ∃ t, exec (.ddr5Online k) s = .next t ∧ (siteAt k t.dev).state = 3 ∧
      getF .memServiceStatus 0 0 15 0 t.dev = 0x2001 + 256 * k ∧ t.dev.tiers.dev = s.dev.tiers.dev) ∧
    ((siteAt k s.dev).state = 5 → ∃ t, exec (.ddr5Cancel k) s = .next t ∧ (siteAt k t.dev).state = 4 ∧
      getF .memServiceStatus 0 0 15 0 t.dev = 0x3001 + 256 * k ∧ t.dev.tiers.dev = s.dev.tiers.dev ∧ t.dev.xl.lfns = s.dev.xl.lfns) := by
  refine ⟨fun h => ⟨_, exec_ddr5Evacuate hr hl hk, ?_⟩, fun h => ⟨_, exec_ddr5Online hr hl hk, ?_⟩, fun h => ⟨_, exec_ddr5Cancel hr hl hk, ?_⟩⟩
  · obtain ⟨hst, hres, hdev, -⟩ := service_effect (cmd := 1) hk hs (by omega) (fun x => { x with state := 5 }) (.inr rfl)
    dsimp only
    rw [ddr5Evacuate, if_pos h]
    exact ⟨by rw [hst], by rw [hres]; omega, hdev⟩
  · obtain ⟨hst, hres, hdev, -⟩ := service_effect (cmd := 2) hk hs (by omega) (fun x => { x with state := 3 }) (.inl rfl)
    dsimp only
    rw [ddr5Online, if_pos h]
    exact ⟨by rw [hst], by rw [hres]; omega, hdev⟩
  · obtain ⟨hst, hres, hdev, hlfns⟩ := service_effect (cmd := 3) hk hs (by omega) (fun x => { x with state := 4 }) (.inr rfl)
    dsimp only
    rw [ddr5Cancel, if_pos h]
    exact ⟨by rw [hst], by rw [hres]; omega, hdev, hlfns⟩

omit hs in
/-- In any other state the command answers 0x03 and changes nothing else. -/
theorem service_refused :
    ((siteAt k s.dev).state ≠ 4 → exec (.ddr5Evacuate k) s = .next { s with dev := setW .memServiceStatus 0 0 (0x1003 + 256 * k) s.dev }) ∧
    ((siteAt k s.dev).state ≠ 1 → exec (.ddr5Online k) s = .next { s with dev := setW .memServiceStatus 0 0 (0x2003 + 256 * k) s.dev }) ∧
    ((siteAt k s.dev).state ≠ 5 → exec (.ddr5Cancel k) s = .next { s with dev := setW .memServiceStatus 0 0 (0x3003 + 256 * k) s.dev }) := by
  refine ⟨fun h => ?_, fun h => ?_, fun h => ?_⟩
  · rw [exec_ddr5Evacuate hr hl hk, ddr5Evacuate, if_neg h, memResult_three hk (by omega), show 1 * 4096 + k * 256 + 3 = 0x1003 + 256 * k by omega]
  · rw [exec_ddr5Online hr hl hk, ddr5Online, if_neg h, memResult_three hk (by omega), show 2 * 4096 + k * 256 + 3 = 0x2003 + 256 * k by omega]
  · rw [exec_ddr5Cancel hr hl hk, ddr5Cancel, if_neg h, memResult_three hk (by omega), show 3 * 4096 + k * 256 + 3 = 0x3003 + 256 * k by omega]

omit hk hr hl in
/-- A site whose training ends is ONLINE and zero, or FAILED. -/
theorem training_ends (h : (siteAt k s.dev).state = 3) :
    (∃ t, exec (.siteTrainingEnd k true) s = .next t ∧ (siteAt k t.dev).state = 4 ∧
      (∀ i < 4096 * 2 ^ 26, Mem.read t.dev.tiers.dev ((16384 + 4096 * k) * 2 ^ 26 + i) = 0) ∧
      (∀ a, a < (16384 + 4096 * k) * 2 ^ 26 ∨ (16384 + 4096 * (k + 1)) * 2 ^ 26 ≤ a → Mem.read t.dev.tiers.dev a = Mem.read s.dev.tiers.dev a)) ∧
    (∃ t, exec (.siteTrainingEnd k false) s = .next t ∧ (siteAt k t.dev).state = 7 ∧ t.dev.tiers.dev = s.dev.tiers.dev) := by
  have hexec : ∀ ok, exec (.siteTrainingEnd k ok) s = .next { s with dev := siteTrainingEnd k ok s.dev } := fun _ => rfl
  refine ⟨⟨_, hexec true, ?_⟩, ⟨_, hexec false, ?_⟩⟩
  · have hm := MoverStep.kickMover (updSite k (fun x => { x with state := 4 }) (siteZeroed k s.dev))
    dsimp only
    rw [siteTrainingEnd_online h, hm.site, siteAt_updSite_self (d := siteZeroed k s.dev) hs, hm.dev, updSite_dev, siteZeroed_dev]
    exact ⟨rfl, fun i hi => Mem.read_zero_inside _ _ hi, fun a ha => Mem.read_zero_outside _ (outside_site ha)⟩
  · dsimp only
    rw [siteTrainingEnd_failed h, siteAt_logEv, siteAt_updSite_self hs, logEv_tiers]
    exact ⟨rfl, rfl⟩

omit hl in
/-- A module leaves its site, or is put into one. -/
theorem module_removed_or_inserted :
    ((siteAt k s.dev).present = true → (siteAt k s.dev).state = 1 ∨ (siteAt k s.dev).state = 2 ∨ (siteAt k s.dev).state = 6 ∨ (siteAt k s.dev).state = 7 →
      ∃ t, exec (.ddr5ModuleRemoved k) s = .next t ∧ (siteAt k t.dev).state = 0 ∧ (siteAt k t.dev).present = false ∧ (siteAt k t.dev).capGiB = 0) ∧
    ((siteAt k s.dev).present = true → (siteAt k s.dev).state = 4 ∨ (siteAt k s.dev).state = 5 → ∃ t, exec (.ddr5ModuleRemoved k) s = .next t ∧
      (siteAt k t.dev).state = 7 ∧ (siteAt k t.dev).present = false) ∧
    ((siteAt k s.dev).state = 0 → ∀ cap,
      (cap ≤ 256 → ∃ t, exec (.ddr5ModuleInserted k cap true) s = .next t ∧ (siteAt k t.dev).state = 1 ∧ (siteAt k t.dev).present = true ∧
        (siteAt k t.dev).capGiB = cap) ∧
      (∃ t, exec (.ddr5ModuleInserted k cap false) s = .next t ∧ (siteAt k t.dev).state = 2 ∧ (siteAt k t.dev).present = true)) ∧
    ((siteAt k s.dev).state ≠ 0 → ∀ cap ok, ∃ t, exec (.ddr5ModuleInserted k cap ok) s = .next t ∧ (siteAt k t.dev).present = true ∧
      (siteAt k t.dev).state = (siteAt k s.dev).state) := by
  refine ⟨fun hp h => ⟨_, exec_ddr5ModuleRemoved hk hp, ?_⟩, fun hp h => ⟨_, exec_ddr5ModuleRemoved hk hp, ddr5ModuleRemoved_used hs h⟩,
    fun h cap => ⟨fun hc => ⟨_, exec_ddr5ModuleInserted hr hk .., ?_⟩, ⟨_, exec_ddr5ModuleInserted hr hk .., ?_⟩⟩,
    fun h cap ok => ⟨_, exec_ddr5ModuleInserted hr hk .., ?_⟩⟩
  · dsimp only
    rw [ddr5ModuleRemoved_idle h, siteAt_updSite_self hs]
    exact ⟨rfl, rfl, rfl⟩
  · dsimp only
    rw [ddr5ModuleInserted_empty hs h]
    exact ⟨by simp [hc], rfl, Nat.min_eq_left hc⟩
  · dsimp only
    rw [ddr5ModuleInserted_empty hs h]
    exact ⟨rfl, rfl⟩
  · dsimp only
    rw [ddr5ModuleInserted_other h, siteAt_updSite_self hs]
    exact ⟨rfl, rfl⟩

end Site

theorem exec_frameMovePiece (s : State) : exec .frameMovePiece s = .next { s with dev := frameMovePiece s.dev } := rfl

theorem exec_frameMoveEnd (s : State) : exec .frameMoveEnd s = .next { s with dev := frameMoveEnd s.dev } := rfl

/-- The bytes outside a piece. -/
theorem outside_piece {b p a : Nat} (h : a < b + p * 2 ^ 18 ∨ b + (p + 1) * 2 ^ 18 ≤ a) : a < b + p * 2 ^ 18 ∨ b + p * 2 ^ 18 + 2 ^ 18 ≤ a := by omega

/-- A handover of the cores that drive the mover holds it between pieces (R463). -/
theorem frameMovePiece_busy {d : Dev} (h : pairBusy moverPair d = true) : frameMovePiece d = d := by simp [frameMovePiece, h]

/-- Settles O27: a service command by `service_allowed` and `service_refused`, a site by `training_ends` and `module_removed_or_inserted`, a piece by
`frameMovePiece_leaves` with the bytes of `Mem.read_copy_inside`, and the end of a move by `frameMoveEnd_leaves`. -/
theorem sitesAndMigration : Obligations.SitesAndMigration := by
  refine ⟨fun s k hk hs hr hl => ?_, fun s m src hm hsrc hp => ⟨fun hb => ?_, fun hb => ⟨_, exec_frameMovePiece s, fun hkind => ?_, fun he h5 hq hc => ?_,
    fun _ hw i hi => ?_, fun a ha => ?_, ?_⟩⟩, fun s m l hm hst hn hl hp _ => ⟨_, exec_frameMoveEnd s, frameMoveEnd_leaves hm hst hn hl hp⟩,
    fun s h => ⟨_, exec_epochBoundary h, fun k => ?_, fun k => ?_, rfl, rfl, rfl⟩⟩
  · obtain ⟨hev, hon, hca⟩ := service_allowed hk hs hr hl
    obtain ⟨hev', hon', hca'⟩ := service_refused hk hr hl
    obtain ⟨hidle, hused, hempty, hother⟩ := module_removed_or_inserted hk hs hr
    refine ⟨hev, hon, hca, hev', hon', hca', fun h5 hf => ⟨_, rfl, ?_⟩, training_ends hs, hidle, hused, hempty, hother⟩
    obtain ⟨hsite, hdev⟩ := siteEvacuated_site hs h5 hf
    dsimp only
    rw [hsite]
    exact ⟨rfl, rfl, hdev⟩
  · rw [exec_frameMovePiece, frameMovePiece_busy hb]
  · exact frameMovePiece_retire hm hsrc hp hb hkind
  · refine frameMovePiece_unasked hm hsrc hp hb ⟨fun n hn g hg hx => ?_, h5, hq, hc⟩
    rw [← emptying_iff, he n hn g hg] at hx
    cases hx
  · dsimp only
    rw [(frameMovePiece_leaves hm hsrc hp hb).1, Mem.read_copy_inside hw _ _ hi]
  · dsimp only
    rw [(frameMovePiece_leaves hm hsrc hp hb).1]
    exact Mem.read_copy_outside _ _ (outside_piece ha)
  · exact (frameMovePiece_leaves hm hsrc hp hb).2
  · dsimp only
    rw [Tab.get_mapVals]
    cases Tab.get s.dev.xl.lfns k <;> rfl
  · dsimp only
    rw [Tab.get_mapVals]
    cases Tab.get s.dev.xl.lfns k <;> rfl

end Sys2Proof.Machine
end

section
/-! SUPPORT. What an instance's reset, its notices and its share leave alone (R361, R373, R394, R398, R405): frames that leave the egress change the
ports alone, and what goes over the link changes the link, what is sent out, and the admin queue's own record. -/

namespace Sys2Proof.Machine

/-! ## Tables of which entries are kept -/

/-- What a table with some entries kept holds is an entry that was kept. -/
theorem Tab.keep_of_get {α : Type} {t : Tab α} {f : Nat → α → Bool} {k : Nat} {v : α} (h : Tab.get (Tab.keep t f) k = some v) : f k v = true :=
  (List.mem_filter.mp (Tab.mem_of_get h)).2

/-- An entry that is kept is found. -/
theorem Tab.get_keep {α : Type} {t : Tab α} {f : Nat → α → Bool} {k : Nat} {v : α} (h : Tab.get t k = some v) (hf : f k v = true) :
    Tab.get (Tab.keep t f) k = some v := by
  induction t with
  | nil => cases h
  | cons p t ih =>
    obtain ⟨a, w⟩ := p
    by_cases ha : a = k
    · subst ha
      obtain rfl : w = v := by simpa [Tab.get] using h
      simp [Tab.keep, hf, Tab.get]
    · rw [Tab.get, if_neg ha] at h
      cases hw : f a w with
      | false => simpa [Tab.keep, hw] using ih h
      | true => simpa [Tab.keep, hw, Tab.get, ha] using ih h

theorem Tab.keep_eq_nil {α : Type} {t : Tab α} {f : Nat → α → Bool} (h : ∀ p ∈ t, f p.1 p.2 = false) : Tab.keep t f = [] :=
  List.filter_eq_nil_iff.mpr fun p hp => by simp [h p hp]

/-! ## Frames that leave the egress (R355, R361) -/

/-- A change of the ports and of the frames on their way to them. -/
def NetOnly (d e : Dev) : Prop := e = { d with net := e.net }

namespace NetOnly

variable {d e f : Dev}

theorem refl (d : Dev) : NetOnly d d := rfl

theorem trans (h1 : NetOnly d e) (h2 : NetOnly e f) : NetOnly d f := by
  rw [NetOnly, h2, h1]

theorem placeFrame (i : Nat) (x : Frame) (d : Dev) : NetOnly d (placeFrame i x d) := by
  unfold Machine.placeFrame enterPort enterLeaf
  dsimp only
  split
  · split <;> rfl
  · rfl

theorem sendFrame (i : Nat) (x : Frame) (d : Dev) : NetOnly d (sendFrame i x d) := by
  unfold Machine.sendFrame
  split
  · rfl
  · exact placeFrame ..

theorem gather (d : Dev) : NetOnly d (gather d) := by
  unfold Machine.gather
  split
  · rfl
  · exact List.foldlRecOn (motive := fun e => NetOnly d e) _ _ rfl fun _ he x _ => he.trans (sendFrame ..)

theorem withdraw (f : Frame → Bool) (d : Dev) : NetOnly d (withdraw f d) := by
  unfold Machine.withdraw
  refine trans ?_ (gather _)
  rfl

end NetOnly

/-! ## What goes over the link (R373, R384) -/

/-- A change of the link and of what the module sends out. -/
def LinkOnly (d e : Dev) : Prop := e = { d with link := e.link, out := e.out }

namespace LinkOnly

variable {d e f : Dev}

theorem refl (d : Dev) : LinkOnly d d := rfl

theorem trans (h1 : LinkOnly d e) (h2 : LinkOnly e f) : LinkOnly d f := by
  rw [LinkOnly, h2, h1]

theorem each {α : Type} {g : α → Dev → Dev} (h : ∀ x d, LinkOnly d (g x d)) (l : List α) (d : Dev) : LinkOnly d (each l g d) :=
  List.foldlRecOn (motive := fun e => LinkOnly d e) _ _ (refl d) fun _ he x _ => he.trans (h x _)

theorem sendTx (t : LinkTx) (d : Dev) : LinkOnly d (sendTx t d) := by
  unfold Machine.sendTx
  cases t.what with
  | access b id a store => cases store <;> rfl
  | _ => rfl

theorem sendLink (t : LinkTx) (d : Dev) : LinkOnly d (sendLink t d) := by
  unfold Machine.sendLink
  split
  · rfl
  · exact sendTx ..

theorem adminPut (n a : Nat) (l : List Byte) (d : Dev) : LinkOnly d (adminPut n a l d) := by
  unfold Machine.adminPut
  split
  · exact sendLink ..
  · rfl

theorem raiseVector (fn v : Nat) (d : Dev) : LinkOnly d (raiseVector fn v d) := by
  unfold Machine.raiseVector
  split
  · exact sendLink ..
  · rfl

theorem sendFlush (cls fn inst q idx : Nat) (d : Dev) : LinkOnly d (sendFlush cls fn inst q idx d) := by
  unfold Machine.sendFlush
  refine trans ?_ (sendLink ..)
  rfl

end LinkOnly

/-- A transaction sent over the link starts no transfer of a host DMA engine. -/
theorem dmas_sendLink (t : LinkTx) (d : Dev) : (sendLink t d).link.dmas = d.link.dmas := by
  unfold sendLink sendTx
  split
  · rfl
  · cases t.what with
    | access b id a store => cases store <;> rfl
    | _ => rfl

theorem dmas_sendFlush (cls fn inst q idx : Nat) (d : Dev) : (sendFlush cls fn inst q idx d).link.dmas = d.link.dmas := dmas_sendLink ..

/-- What is not held by a retrain is sent at once (R373). -/
theorem sendLink_open {d : Dev} (h : linkOpen d = true) (t : LinkTx) : sendLink t d = sendTx t d := by
  simp [sendLink, (linkOpen_iff.mp h).2.2]

theorem hostOpen_of_linkOpen {d : Dev} (h : linkOpen d = true) : hostOpen d = true := by
  obtain ⟨hup, hlost, -⟩ := linkOpen_iff.mp h
  simp [hostOpen, hup, hlost]

/-- A vector over an open link leaves the module at once, and no byte of host memory changes. -/
theorem raiseVector_open {d : Dev} (h : linkOpen d = true) (fn v : Nat) :
    (raiseVector fn v d).out = d.out ++ [.vector fn v] ∧ (raiseVector fn v d).link.hostMem = d.link.hostMem := by
  rw [raiseVector, if_pos (hostOpen_of_linkOpen h), sendLink_open h]
  exact ⟨rfl, rfl⟩

/-- A write of the admin queue's over an open link. -/
theorem adminPut_open {d : Dev} (h : linkOpen d = true) (n a : Nat) (l : List Byte) :
    (adminPut n a l d).link = { d.link with turn := turnAfter 0 d.link.turn, hostMem := Mem.writeN d.link.hostMem (hostKey 0xFF a) l } := by
  rw [adminPut, if_pos (hostOpen_of_linkOpen h), sendLink_open h]
  rfl

/-! ## Notices (R405) -/

/-- A change of the link, of what is sent out, and of the admin queues' own records. -/
def AdminOnly (d e : Dev) : Prop := e = { d with link := e.link, out := e.out, q := { d.q with admin := e.q.admin } }

namespace AdminOnly

variable {d e f : Dev}

theorem refl (d : Dev) : AdminOnly d d := rfl

theorem trans (h1 : AdminOnly d e) (h2 : AdminOnly e f) : AdminOnly d f := by
  rw [AdminOnly, h2, h1]

theorem of_link (h : LinkOnly d e) : AdminOnly d e := by
  rw [AdminOnly, h]

theorem updAdmin (n : Nat) (g : Admin → Admin) (d : Dev) : AdminOnly d (updAdmin n g d) := rfl

theorem writeAdmin (n : Nat) (x : Entry) (d : Dev) : AdminOnly d (writeAdmin n x d) := by
  unfold Machine.writeAdmin
  dsimp only
  split
  · rfl
  · exact ((of_link (.adminPut ..)).trans (updAdmin ..)).trans (of_link (.raiseVector ..))

theorem writeNotices (n fuel : Nat) (d : Dev) : AdminOnly d (writeNotices n fuel d) := by
  induction fuel generalizing d with
  | zero => rfl
  | succ fuel ih =>
    unfold Machine.writeNotices
    split
    · rfl
    · split
      · exact ((updAdmin ..).trans (writeAdmin ..)).trans (ih _)
      · rfl

theorem postNotice (n : Nat) (x : Entry) (d : Dev) : AdminOnly d (postNotice n x d) := by
  unfold Machine.postNotice
  refine trans ?_ (writeNotices ..)
  split
  · rfl
  · exact updAdmin ..

end AdminOnly

/-- While the admin queue is disabled a notice is written nowhere. -/
theorem postNotice_off {n : Nat} {d : Dev} (h : adminOn n d = false) (hn : (adminAt n d).notices = []) (x : Entry) : postNotice n x d = d := by
  simp [postNotice, h, writeNotices_none hn]

end Sys2Proof.Machine
end

section
/-! SUPPORT. The reset of an instance (R394, R395, R398): where nothing of the instance is under way, what its steps leave, and what the reset comes to. -/

namespace Sys2Proof.Machine

/-! ## What the first steps of a reset leave (R394, R395) -/

/-- The instances, their objects, their contexts and the memories are as they were, and so are the registers but the ledger's events. -/
structure Apart (d e : Dev) : Prop where
  insts : e.insts = d.insts
  q     : e.q = d.q
  xl    : e.xl = d.xl
  rem   : e.rem = d.rem
  tiers : e.tiers = d.tiers
  regs  : Safety.SameRegs ledgerEventAddrs d e

namespace Apart

variable {d e f : Dev}

theorem refl (d : Dev) : Apart d d := ⟨rfl, rfl, rfl, rfl, rfl, fun _ _ => rfl⟩

theorem trans (h1 : Apart d e) (h2 : Apart e f) : Apart d f :=
  ⟨h2.insts.trans h1.insts, h2.q.trans h1.q, h2.xl.trans h1.xl, h2.rem.trans h1.rem, h2.tiers.trans h1.tiers,
    fun a ha => (h2.regs a ha).trans (h1.regs a ha)⟩

theorem of_link (h : LinkOnly d e) : Apart d e := by
  rw [h]
  exact ⟨rfl, rfl, rfl, rfl, rfl, fun _ _ => rfl⟩

theorem of_ledger (h : LedgerStep d e) : Apart d e := by
  refine ⟨?_, ?_, ?_, ?_, ?_, h.regs⟩ <;> rw [h.rest]

theorem each {α : Type} {g : α → Dev → Dev} (h : ∀ x d, Apart d (g x d)) (l : List α) (d : Dev) : Apart d (each l g d) :=
  List.foldlRecOn (motive := fun e => Apart d e) _ _ (refl d) fun _ he x _ => he.trans (h x _)

end Apart

/-! ### The transport (R395) -/

/-- With no message and no slot on either fabric die, nothing of the transport is left to stop but the frames. -/
def NoTransport (d : Dev) : Prop := ∀ i, (pesAt i d).msgs = [] ∧ (pesAt i d).slots = []

theorem pesAt_updPes {i j : Nat} {f : Pesyn → Pesyn} {d : Dev} : pesAt i (updPes j f d) = f (pesAt j d) ∧ i = j ∨ pesAt i (updPes j f d) = pesAt i d := by
  by_cases h : i = j
  · subst h
    by_cases hl : i < d.pes.length
    · exact .inl ⟨by simp [pesAt, updPes, listGet, hl], rfl⟩
    · exact .inr (by rw [updPes, List.set_eq_of_length_le (Nat.le_of_not_lt hl)])
  · exact .inr (by simp [pesAt, updPes, listGet, List.getElem?_set_ne (Ne.symm h)])

theorem NoTransport.updPes {d : Dev} (h : NoTransport d) (j : Nat) {f : Pesyn → Pesyn} (hm : ∀ p, p.msgs = [] → (f p).msgs = [])
    (hs : ∀ p, p.slots = [] → (f p).slots = []) : NoTransport (updPes j f d) := by
  intro i
  rcases pesAt_updPes (i := i) (j := j) (f := f) (d := d) with ⟨he, -⟩ | he
  · rw [he]
    exact ⟨hm _ (h j).1, hs _ (h j).2⟩
  · rw [he]
    exact h i

theorem cancelWrites_none {d : Dev} (h : NoTransport d) (n : Nat) : cancelWrites n d = d :=
  each_id _ fun i _ => by simp [(h i).1, each]

/-- Closing the reads of a fabric die touches the transport alone. -/
theorem closeReads_frame (f : Nat × Nat → Bool) (d : Dev) : closeReads f d = { d with pes := (closeReads f d).pes } := rfl

theorem NoTransport.closeReads {d : Dev} (h : NoTransport d) (f : Nat × Nat → Bool) : NoTransport (closeReads f d) :=
  List.foldlRecOn (motive := NoTransport) _ _ h fun _ he i _ => he.updPes i (fun _ hp => hp) fun _ hp => by simp [hp, Tab.keep]

/-- With nothing else of an instance in the transport, its reset touches the ports and the transport alone. -/
theorem resetPesyn_idle {d : Dev} (h : NoTransport d) (n : Nat) : ∃ net pes, resetPesyn n d = { d with net := net, pes := pes } := by
  have hw := NetOnly.withdraw (fun f => f.inst == some n) d
  have h1 : NoTransport (withdraw (fun f => f.inst == some n) d) := by
    rw [hw]
    exact h
  unfold resetPesyn
  dsimp only
  generalize withdraw (fun f => f.inst == some n) d = d1 at hw h1 ⊢
  have hmsgs : each [0, 1] (fun i d => each ((Tab.keep (pesAt i d).msgs (fun _ m => m.inst == n)).map Prod.fst) (fun s d => retireMsg i s d) d) d1 = d1 :=
    each_id _ fun i _ => by simp [(h1 i).1, Tab.keep, each]
  rw [cancelWrites_none h1, hmsgs]
  have h4 := h1.closeReads (fun x => (wqsOf n d1).contains x.1)
  have hc := closeReads_frame (fun x => (wqsOf n d1).contains x.1) d1
  generalize closeReads (fun x => (wqsOf n d1).contains x.1) d1 = d4 at h4 hc ⊢
  rw [each_id _ fun i _ => by simp [(h4 i).2, Tab.keep, each], hc, hw]
  exact ⟨_, _, rfl⟩

/-! ### Launches, communicators, host DMA and regions (R130, R233, R394, R395) -/

theorem resetLaunches_none {n : Nat} {d : Dev} (h : ∀ l ∈ d.bricks.launches, l.2.inst ≠ n) : resetLaunches n d = d := by
  rw [resetLaunches, Tab.keep_eq_nil fun p hp => by simpa using h p hp]
  rfl

theorem resetComms_none {n : Nat} {d : Dev} (h : ∀ c ∈ d.colls.comms, c.2.inst ≠ n) : resetComms n d = d := by
  have hf : d.colls.comms.filter (fun p => p.2.inst == n) = [] := List.filter_eq_nil_iff.mpr fun p hp => by simpa using h p hp
  rw [resetComms, hf]
  rfl

/-- An engine with no transfer in hand gives back its grant, at most. -/
theorem pumpEngine_idle {i : Nat} (hi : railOf (.hostDma i) ∈ dies) {d : Dev} (h : d.link.dmas = []) : LedgerStep d (pumpEngine i d) := by
  have he : pumpEngine i d = returnGrant (.hostDma i) d := by simp [pumpEngine, idleDma, h, each]
  rw [he]
  exact .returnGrant hi d

/-- Flush reads, if any are sent, and the two engines' grants given back leave the rest. -/
theorem flushes_pumps_apart {d : Dev} (h : d.link.dmas = []) (c : Bool) (n : Nat) (l : List Nat) : Apart d (pumpEngine 1 (pumpEngine 0
    (if c then sendFlush 3 0xFF n (resetMark n) 3 (each l (fun i => sendFlush (1 + i) n n (resetMark n) i) d) else d))) := by
  have pump : ∀ {e : Dev}, LinkOnly d e → e.link.dmas = [] → Apart d (pumpEngine 1 (pumpEngine 0 e)) := fun {e} hl hd => by
    have h0 : LedgerStep e (pumpEngine 0 e) := pumpEngine_idle (by decide) hd
    exact (Apart.of_link hl).trans (.of_ledger (h0.trans (pumpEngine_idle (by decide) (by rw [h0.link]; exact hd))))
  split
  · refine pump ((LinkOnly.each (fun _ _ => .sendFlush ..) l d).trans (.sendFlush ..)) ?_
    rw [dmas_sendFlush]
    exact List.foldlRecOn (motive := fun e : Dev => e.link.dmas = []) _ _ h fun _ he i _ => (dmas_sendFlush ..).trans he
  · exact pump (.refl d) h

/-- With no host DMA transfer, the reset sends flush reads and gives back the engines' grants. -/
theorem resetHost_idle {n : Nat} {d : Dev} (h : d.link.dmas = []) : Apart d (resetHost n d) := by
  unfold resetHost
  refine Apart.trans ?_ (flushes_pumps_apart ?_ (hostOpen d) n _)
  · exact ⟨rfl, rfl, rfl, rfl, rfl, fun _ _ => rfl⟩
  · dsimp only
    rw [h]
    rfl

/-- One region goes, and its index is free under another tag (R233). -/
def regionGone (i : Nat) (d : Dev) : Dev :=
  let d1 := advanceTag i d
  { d1 with rem := { d1.rem with regions := Tab.erase d1.rem.regions i, freed := d1.rem.freed ++ [i] } }

theorem resetRegions_eq (n : Nat) (d : Dev) :
    resetRegions n d = each ((d.rem.regions.filter (fun p => p.2.inst == n)).map Prod.fst) regionGone d := rfl

/-- Regions that go leave everything but the regions and their tags. -/
theorem each_regionGone_frame (l : List Nat) (d : Dev) :
    each l regionGone d = { d with rem := { (each l regionGone d).rem with doms := d.rem.doms } } :=
  List.foldlRecOn (motive := fun e : Dev => e = { d with rem := { e.rem with doms := d.rem.doms } }) _ _ rfl fun e he i _ => by
    rw [he]
    rfl

theorem get_each_regionGone (l : List Nat) (d : Dev) (k : Nat) :
    Tab.get (each l regionGone d).rem.regions k = if k ∈ l then none else Tab.get d.rem.regions k := by
  induction l generalizing d with
  | nil => simp [each]
  | cons i l ih =>
    change Tab.get (each l regionGone (regionGone i d)).rem.regions k = _
    rw [ih]
    change (if k ∈ l then none else Tab.get (Tab.erase d.rem.regions i) k) = _
    by_cases hl : k ∈ l
    · simp [hl]
    · by_cases hk : k = i
      · subst hk
        simp [hl]
      · simp [hl, hk, Tab.get_erase_other _ hk]

theorem resetRegions_frame (n : Nat) (d : Dev) :
    resetRegions n d = { d with rem := { (resetRegions n d).rem with doms := d.rem.doms } } := each_regionGone_frame _ d

/-- No region of the instance is left, whatever key named it. -/
theorem resetRegions_gone (n : Nat) (d : Dev) : (∀ k r, Tab.get (resetRegions n d).rem.regions k = some r → r.inst ≠ n) ∧
    ∀ k r, Tab.get d.rem.regions k = some r → r.inst = n → Tab.get (resetRegions n d).rem.regions k = none := by
  have hmem : ∀ k r, Tab.get d.rem.regions k = some r → r.inst = n → k ∈ (d.rem.regions.filter (fun p => p.2.inst == n)).map Prod.fst :=
    fun k r hr hn => List.mem_map.mpr ⟨(k, r), List.mem_filter.mpr ⟨Tab.mem_of_get hr, by simpa using hn⟩, rfl⟩
  rw [resetRegions_eq]
  refine ⟨fun k r hr hn => ?_, fun k r hr hn => ?_⟩
  · rw [get_each_regionGone] at hr
    split at hr
    · cases hr
    · next hk => exact hk (hmem k r hr hn)
  · rw [get_each_regionGone, if_pos (hmem k r hr hn)]

/-! ### The objects and the admin queue (R398) -/

/-- An admin queue's own record as a reset starts it again. -/
def Admin.restarted (a : Admin) : Admin :=
  { a with
    p := 0, c := 0, head := none, reading := false, stalled := true, again := false, wait := none, mute := false, wr := 0, ret := 0, written := 0,
    notices := [] }

/-- The admin queue's rings are written, and its own record starts again. -/
theorem resetAdmin_leaves (n : Nat) (d : Dev) : ∃ e, Apart d e ∧ resetAdmin n d = updAdmin n Admin.restarted e := by
  unfold resetAdmin
  dsimp only
  exact ⟨_, (Apart.each (fun k d => .of_link (.adminPut ..)) _ d).trans (.each (fun k d => .of_link (.adminPut ..)) _ _), rfl⟩

end Sys2Proof.Machine
end

section
/-! SUPPORT. What an instance reset comes to where nothing of the instance is under way (R394, R395, R397, R398). -/

namespace Sys2Proof.Machine

/-! ## The instance's own record -/

@[simp] theorem instAt_updInst (n : Nat) (f : Inst → Inst) (d : Dev) : instAt n (updInst n f d) = f (instAt n d) := by
  simp [instAt, updInst, Tab.getD]

theorem instAt_updInst_other {n m : Nat} (h : m ≠ n) (f : Inst → Inst) (d : Dev) : instAt m (updInst n f d) = instAt m d := by
  simp [instAt, updInst, Tab.getD, Tab.get_set_other _ _ h]

theorem instAt_congr {d e : Dev} (h : e.insts = d.insts) (n : Nat) : instAt n e = instAt n d := by
  rw [instAt, h]
  rfl

/-- Nothing of the instance is under way: no launch, no message, no slot, no communicator, no host DMA transfer and no move. -/
structure NothingUnderWay (n : Nat) (d : Dev) : Prop where
  launches : ∀ l ∈ d.bricks.launches, l.2.inst ≠ n
  transport : NoTransport d
  comms : ∀ c ∈ d.colls.comms, c.2.inst ≠ n
  dmas : d.link.dmas = []
  moves : d.xl.queued = []

/-- An instance's record in RESETTING, under its next generation (R394). -/
def Inst.afterReset (now : Nat) (x : Inst) : Inst :=
  { x with state := 2, gen := (x.gen + 1) % 65536, lastGen := if x.state = 1 then x.gen else x.lastGen, started := now }

/-- The device when the reset has been counted and the instance is in RESETTING under its next generation (R394). -/
def resetting (n : Nat) (d : Dev) : Dev :=
  countF .instUsage n 0 31 24 1 (updInst n (Inst.afterReset (clock iodie d)) d)

/-- The reset up to the moves: launches, transport, communicators, host DMA and queued moves. -/
def resetWork (n : Nat) (d : Dev) : Dev := resetMoves n (resetHost n (resetComms n (resetPesyn n (resetLaunches n d))))

theorem Apart.getF {d e : Dev} (h : Apart d e) {r : RegName} {i j : Nat} (ha : addrOf r i j ∉ ledgerEventAddrs) (hi lo : Nat) :
    getF r i j hi lo e = getF r i j hi lo d := by
  simp [Machine.getF, getW, h.regs _ ha]

theorem resetMoves_none {d : Dev} (h : d.xl.queued = []) (n : Nat) : Apart d (resetMoves n d) := by
  refine ⟨rfl, rfl, ?_, rfl, rfl, fun _ _ => rfl⟩
  unfold resetMoves
  rw [h]
  exact congrArg (fun l => { d.xl with queued := l }) h.symm

/-- Where nothing is under way, stopping the work leaves what the instance holds. -/
theorem NothingUnderWay.resetWork {n : Nat} {d : Dev} (h : NothingUnderWay n d) : Apart d (resetWork n d) := by
  unfold Machine.resetWork
  obtain ⟨net, pes, hp⟩ := resetPesyn_idle h.transport n
  rw [resetLaunches_none h.launches, hp, resetComms_none (by exact h.comms)]
  have hh : Apart { d with net := net, pes := pes } (resetHost n { d with net := net, pes := pes }) := resetHost_idle (by exact h.dmas)
  have ha : Apart d (resetHost n { d with net := net, pes := pes }) := ⟨hh.insts, hh.q, hh.xl, hh.rem, hh.tiers, hh.regs⟩
  exact ha.trans (resetMoves_none (by rw [ha.xl]; exact h.moves) n)

/-- A reset from ACTIVE or QUIESCED. -/
theorem instanceReset_eq {n : Nat} {d : Dev} (hr : d.start.ready = true) (h : (instAt n d).state = 1 ∨ (instAt n d).state = 3) :
    instanceReset n d = resetAdmin n (resetObjects n (resetRegions n (resetWork n (resetting n d)))) := by
  have h0 : (instAt n d).state ≠ 0 ∧ (instAt n d).state ≠ 2 := by omega
  unfold instanceReset
  dsimp only
  rw [if_neg (by simp [hr, h0])]
  rfl

theorem instanceReset_again {n : Nat} {d : Dev} (h : (instAt n d).state = 2) : instanceReset n d = d := by
  simp [instanceReset, h]

theorem exec_instanceReset (n : Nat) (s : State) : exec (.instanceReset n) s = Safety.sent (instanceReset n s.dev) s := rfl

/-! ## The objects (R398) -/

/-- What the reset of an instance's objects changes: the tables of its objects, and its window of the basin. -/
theorem resetObjects_frame (n : Nat) (d : Dev) : resetObjects n d = { d with
    xl := (resetObjects n d).xl, bricks := (resetObjects n d).bricks,
    q := { d.q with
      wqs := Tab.keep d.q.wqs (fun _ w => w.inst != n), crs := Tab.keep d.q.crs (fun _ c => c.inst != n),
      ctrs := Tab.keep d.q.ctrs (fun _ c => c.inst != n) },
    rem := { d.rem with doms := Tab.keep d.rem.doms (fun _ x => x.inst != n) },
    tiers := { d.tiers with basin := (resetObjects n d).tiers.basin, poison := (resetObjects n d).tiers.poison,
                            logged := (resetObjects n d).tiers.logged, soft := (resetObjects n d).tiers.soft } } := rfl

theorem ctxs_resetObjects (n : Nat) (d : Dev) : (resetObjects n d).xl.ctxs = Tab.keep d.xl.ctxs (fun _ c => c.inst != n) := rfl

/-- The instance's window of the basin reads zero. -/
theorem read_resetObjects {n die i : Nat} {d : Dev} (hd : die < 8) (hi : i < (windowNow n d).1 * 2 ^ 18) :
    Mem.read (resetObjects n d).tiers.basin (die * 2 ^ 27 + (windowNow n d).2 * 2 ^ 18 + i) = 0 :=
  read_zeroUnits hd hi _

section
variable {α : Type} {t u : Tab α} {inst : α → Nat} {n k : Nat} {v : α} (hu : u = Tab.keep t (fun _ x => inst x != n))
include hu

/-- Where the instance's own entries go, what is left is another's. -/
theorem Tab.inst_of_kept (h : Tab.get u k = some v) : inst v ≠ n := by
  subst hu
  simpa using Tab.keep_of_get h

/-- Where the instance's own entries go, another's stay. -/
theorem Tab.get_of_other (h : Tab.get t k = some v) (hn : inst v ≠ n) : Tab.get u k = some v := by
  subst hu
  exact Tab.get_keep h (by simpa using hn)

end

/-- No ledger's events are counted among the registers of the instances. -/
theorem notin_ledgerEventAddrs {a : Nat} (h : 0x110000 ≤ a) : a ∉ ledgerEventAddrs := fun hm =>
  absurd ((by decide : ∀ a ∈ ledgerEventAddrs, a < 0x110000) a hm) (Nat.not_lt.mpr h)

theorem instUsage_notin_ledgerEventAddrs (n : Nat) : addrOf .instUsage n 0 ∉ ledgerEventAddrs :=
  notin_ledgerEventAddrs (Nat.le_trans (by decide : 0x110000 ≤ 0x11000C) (Nat.le_add_right 0x11000C (0x20 * n)))

/-! ## The reset as one step -/

/-- The reset of an instance with nothing under way, cut where its regions and objects go. -/
theorem instanceReset_stages {n : Nat} {d : Dev} (hr : d.start.ready = true) (h : (instAt n d).state = 1 ∨ (instAt n d).state = 3)
    (hw : NothingUnderWay n d) : ∃ a b, Apart (resetting n d) a ∧ Apart (resetObjects n (resetRegions n a)) b ∧
      instanceReset n d = updAdmin n Admin.restarted b := by
  obtain ⟨b, hb, he⟩ := resetAdmin_leaves n (resetObjects n (resetRegions n (resetWork n (resetting n d))))
  have hw1 : NothingUnderWay n (resetting n d) := ⟨hw.launches, hw.transport, hw.comms, hw.dmas, hw.moves⟩
  exact ⟨_, b, hw1.resetWork, hb, (instanceReset_eq hr h).trans he⟩

/-- What the device holds after the reset of an instance. -/
structure ResetOf (n : Nat) (d e : Dev) : Prop where
  insts   : e.insts = (resetting n d).insts
  usage   : getF .instUsage n 0 31 24 e = min 255 (getF .instUsage n 0 31 24 d + 1)
  wqs     : e.q.wqs = Tab.keep d.q.wqs (fun _ w => w.inst != n)
  crs     : e.q.crs = Tab.keep d.q.crs (fun _ c => c.inst != n)
  ctrs    : e.q.ctrs = Tab.keep d.q.ctrs (fun _ c => c.inst != n)
  ctxs    : e.xl.ctxs = Tab.keep d.xl.ctxs (fun _ c => c.inst != n)
  doms    : e.rem.doms = Tab.keep d.rem.doms (fun _ x => x.inst != n)
  regions : ∀ k r, Tab.get e.rem.regions k = some r → r.inst ≠ n
  gone    : ∀ k r, Tab.get d.rem.regions k = some r → r.inst = n → Tab.get e.rem.regions k = none
  admin   : adminAt n e = (adminAt n d).restarted
  window  : ∀ die < 8, ∀ i < (windowNow n d).1 * 2 ^ 18, Mem.read e.tiers.basin (die * 2 ^ 27 + (windowNow n d).2 * 2 ^ 18 + i) = 0
  dev     : e.tiers.dev = d.tiers.dev

theorem instanceReset_resets {n : Nat} {d : Dev} (hr : d.start.ready = true) (h : (instAt n d).state = 1 ∨ (instAt n d).state = 3)
    (hw : NothingUnderWay n d) : ResetOf n d (instanceReset n d) := by
  obtain ⟨a, b, ha, hb, he⟩ := instanceReset_stages hr h hw
  rw [he]
  have hr := resetRegions_frame n a
  obtain ⟨hnone, hgone⟩ := resetRegions_gone n a
  generalize resetRegions n a = r at hb hr hnone hgone
  have hq : r.q = d.q := by rw [hr]; exact ha.q
  have hxl : r.xl = d.xl := by rw [hr]; exact ha.xl
  have htiers : r.tiers = d.tiers := by rw [hr]; exact ha.tiers
  have hdoms : r.rem.doms = d.rem.doms := by rw [hr]; exact (congrArg Remote.doms ha.rem :)
  have hregs : r.regs = a.regs := by rw [hr]
  have hbq : b.q = (resetObjects n r).q := hb.q
  have hbt : b.tiers = (resetObjects n r).tiers := hb.tiers
  exact {
    insts := hb.insts.trans (by rw [← ha.insts, hr]; rfl)
    usage := by
      have hu := instUsage_notin_ledgerEventAddrs n
      calc getF .instUsage n 0 31 24 (updAdmin n Admin.restarted b)
        _ = getF .instUsage n 0 31 24 b := rfl
        _ = getF .instUsage n 0 31 24 (resetObjects n r) := hb.getF hu ..
        _ = getF .instUsage n 0 31 24 a := getF_congr hregs ..
        _ = getF .instUsage n 0 31 24 (resetting n d) := ha.getF hu ..
        _ = _ := getF_countF_self _ (by decide) (by decide)
    wqs := (congrArg Queues.wqs hbq).trans (by rw [← hq]; rfl)
    crs := (congrArg Queues.crs hbq).trans (by rw [← hq]; rfl)
    ctrs := (congrArg Queues.ctrs hbq).trans (by rw [← hq]; rfl)
    ctxs := (congrArg Xlate.ctxs hb.xl).trans (by rw [ctxs_resetObjects, hxl])
    doms := (congrArg Remote.doms hb.rem).trans (by rw [← hdoms]; rfl)
    regions := fun k x hx => hnone k x ((congrArg (fun t : Remote => Tab.get t.regions k) hb.rem).symm.trans hx)
    gone := fun k x hx hn => (congrArg (fun t : Remote => Tab.get t.regions k) hb.rem).trans (hgone k x (by rw [ha.rem]; exact hx) hn)
    admin := by
      rw [adminAt_updAdmin, adminAt, hbq, adminAt, ← hq]
      rfl
    window := fun die hd i hi => by
      have hwin : windowNow n r = windowNow n d := by rw [windowNow, htiers]; rfl
      rw [← hwin] at hi ⊢
      exact (congrArg (fun t : Tiers => Mem.read t.basin _) hbt).trans (read_resetObjects hd hi)
    dev := (congrArg Tiers.dev hbt).trans (by rw [← htiers]; rfl) }

/-- The first clause of InstanceLife. -/
theorem instance_reset {s : State} {n : Nat} (hr : s.dev.start.ready = true) (h : (instAt n s.dev).state = 1 ∨ (instAt n s.dev).state = 3)
    (hw : NothingUnderWay n s.dev) :
    ∃ e, exec (.instanceReset n) s = Safety.sent e s ∧ (instAt n e).state = 2 ∧ (instAt n e).gen = ((instAt n s.dev).gen + 1) % 65536 ∧
      (∀ m, m ≠ n → instAt m e = instAt m s.dev) ∧
      (∀ q w, wqAt q e = some w → w.inst ≠ n) ∧ (∀ r c, crAt r e = some c → c.inst ≠ n) ∧ (∀ k c, Tab.get e.q.ctrs k = some c → c.inst ≠ n) ∧
      (∀ k c, Tab.get e.xl.ctxs k = some c → c.inst ≠ n) ∧ (∀ k x, Tab.get e.rem.doms k = some x → x.inst ≠ n) ∧
      (∀ k r, Tab.get e.rem.regions k = some r → r.inst ≠ n) ∧ (∀ key r, regionOf key s.dev = some r → r.inst = n → regionOf key e = none) ∧
      (∀ q w, wqAt q s.dev = some w → w.inst ≠ n → wqAt q e = some w) ∧
      (∀ k c, Tab.get s.dev.xl.ctxs k = some c → c.inst ≠ n → Tab.get e.xl.ctxs k = some c) ∧
      (adminAt n e).p = 0 ∧ (adminAt n e).c = 0 ∧ (adminAt n e).wr = 0 ∧ (adminAt n e).written = 0 ∧ (adminAt n e).head = none ∧
      (∀ die < 8, ∀ i < (windowNow n s.dev).1 * 2 ^ 18, Mem.read e.tiers.basin (die * 2 ^ 27 + (windowNow n s.dev).2 * 2 ^ 18 + i) = 0) ∧
      e.tiers.dev = s.dev.tiers.dev ∧
      getF .instUsage n 0 31 24 e = min 255 (getF .instUsage n 0 31 24 s.dev + 1) := by
  refine ⟨_, exec_instanceReset n s, ?_⟩
  have hz := instanceReset_resets hr h hw
  generalize instanceReset n s.dev = e at hz ⊢
  have hinst : instAt n e = instAt n (resetting n s.dev) := instAt_congr hz.insts n
  have hself : instAt n (resetting n s.dev) = (instAt n s.dev).afterReset (clock iodie s.dev) := instAt_updInst ..
  have hother : ∀ m, m ≠ n → instAt m e = instAt m s.dev := fun m hm =>
    (instAt_congr hz.insts m).trans (instAt_updInst_other hm _ s.dev)
  refine ⟨by rw [hinst, hself]; rfl, by rw [hinst, hself]; rfl, hother, ?_⟩
  have hregion : ∀ key r, regionOf key s.dev = some r → r.inst = n → regionOf key e = none := fun key r hk hn => by
    unfold regionOf at hk ⊢
    split at hk
    · rw [hz.gone _ r hk hn, ite_self]
    · cases hk
  exact ⟨fun _ _ => Tab.inst_of_kept hz.wqs, fun _ _ => Tab.inst_of_kept hz.crs, fun _ _ => Tab.inst_of_kept hz.ctrs,
    fun _ _ => Tab.inst_of_kept hz.ctxs, fun _ _ => Tab.inst_of_kept hz.doms, hz.regions, hregion,
    fun _ _ => Tab.get_of_other hz.wqs, fun _ _ => Tab.get_of_other hz.ctxs,
    by rw [hz.admin]; rfl, by rw [hz.admin]; rfl, by rw [hz.admin]; rfl, by rw [hz.admin]; rfl, by rw [hz.admin]; rfl,
    hz.window, hz.dev, hz.usage⟩

end Sys2Proof.Machine
end

section
/-! SUPPORT. QUIESCED: the frames of the instance are free and zero, and its bit is set (R395, R397). -/

namespace Sys2Proof.Machine

/-! ## Frames filled with zeros -/

theorem read_zeroFrame (pfn a : Nat) (d : Dev) :
    Mem.read (zeroFrame pfn d).tiers.dev a = if pfn = a / 2 ^ 26 then 0 else Mem.read d.tiers.dev a := by
  have h : pfn * 2 ^ 26 ≤ a ∧ a < pfn * 2 ^ 26 + 2 ^ 26 ↔ pfn = a / 2 ^ 26 := by omega
  change Mem.read (Mem.zero d.tiers.dev (pfn * 2 ^ 26) (2 ^ 26)) a = _
  rw [Mem.read_zero]
  simp only [h]

theorem read_each_zeroFrame (l : List (Nat × Lfn)) (a : Nat) (d : Dev) :
    Mem.read (each l (fun p => zeroFrame p.2.pfn) d).tiers.dev a = if ∃ p ∈ l, p.2.pfn = a / 2 ^ 26 then 0 else Mem.read d.tiers.dev a := by
  induction l generalizing d with
  | nil => simp [each]
  | cons q l ih =>
    change Mem.read (each l _ (zeroFrame q.2.pfn d)).tiers.dev a = _
    rw [ih, read_zeroFrame]
    generalize a / 2 ^ 26 = f
    by_cases hl : ∃ p ∈ l, p.2.pfn = f
    · rw [if_pos hl, if_pos (hl.imp fun _ hp => ⟨List.mem_cons_of_mem _ hp.1, hp.2⟩)]
    · simp only [List.mem_cons, exists_eq_or_imp, hl, if_false, or_false]

theorem each_zeroFrame_frame (l : List (Nat × Lfn)) (d : Dev) :
    each l (fun p => zeroFrame p.2.pfn) d = { d with tiers := (each l (fun p => zeroFrame p.2.pfn) d).tiers } :=
  List.foldlRecOn (motive := fun e : Dev => e = { d with tiers := e.tiers }) _ _ rfl fun e he p _ => by
    rw [he]
    rfl

/-- The device with an instance's frames filled with zeros and out of the frame map, before the mover looks at its queue again. -/
def framesUnmapped (n : Nat) (d : Dev) : Dev :=
  let d1 := each (d.xl.lfns.filter (fun p => p.2.inst == n)) (fun p => zeroFrame p.2.pfn) d
  let d2 := { d1 with xl := { d1.xl with lfns := Tab.keep d1.xl.lfns (fun _ l => l.inst != n) } }
  { d2 with xl := { d2.xl with queued := d2.xl.queued.filter (fun m => (m.source d2).isSome) } }

theorem freeFramesOf_eq (n : Nat) (d : Dev) : freeFramesOf n d = kickMover (framesUnmapped n d) := rfl

theorem framesUnmapped_frame (n : Nat) (d : Dev) : framesUnmapped n d = { d with
    tiers := (each (d.xl.lfns.filter (fun p => p.2.inst == n)) (fun p => zeroFrame p.2.pfn) d).tiers
    xl := { d.xl with lfns := Tab.keep d.xl.lfns (fun _ l => l.inst != n), queued := (framesUnmapped n d).xl.queued } } := by
  unfold framesUnmapped
  have hf := each_zeroFrame_frame (d.xl.lfns.filter (fun p => p.2.inst == n)) d
  generalize each _ _ d = z at hf ⊢
  generalize z.tiers = t at hf ⊢
  rw [hf]

theorem framesFreed (n : Nat) (d : Dev) : MoverStep (framesUnmapped n d) (freeFramesOf n d) := .kickMover _

/-- What free frames leave alone (R397). -/
structure FramesFreed (d e : Dev) : Prop where
  insts : e.insts = d.insts
  out   : e.out = d.out
  link  : e.link = d.link
  regs  : Safety.SameRegs ledgerEventAddrs d e

theorem freeFramesOf_frame (n : Nat) (d : Dev) : FramesFreed d (freeFramesOf n d) := by
  have hk := framesFreed n d
  have hf := framesUnmapped_frame n d
  generalize framesUnmapped n d = u at hk hf
  refine ⟨?_, ?_, ?_, ?_⟩
  · rw [hk.insts, hf]
  · rw [hk.out, hf]
  · rw [hk.link, hf]
  · intro a ha
    rw [hk.regs a ha, hf]

theorem freeFramesOf_lfns (n : Nat) (d : Dev) : (freeFramesOf n d).xl.lfns = Tab.keep d.xl.lfns (fun _ l => l.inst != n) := by
  rw [(framesFreed n d).lfns, framesUnmapped_frame]

theorem read_freeFramesOf (n a : Nat) (d : Dev) : Mem.read (freeFramesOf n d).tiers.dev a =
    if ∃ p ∈ d.xl.lfns.filter (fun p : Nat × Lfn => p.2.inst == n), p.2.pfn = a / 2 ^ 26 then 0 else Mem.read d.tiers.dev a := by
  rw [(framesFreed n d).dev, framesUnmapped_frame]
  exact read_each_zeroFrame ..

/-! ## The bit of QUIESCED (R397) -/

theorem setQuiesced_frame (n : Nat) (d : Dev) : setQuiesced n d = { d with regs := (setQuiesced n d).regs } := by
  unfold setQuiesced
  split <;> rfl

theorem sameRegs_setQuiesced (n : Nat) (d : Dev) :
    Safety.SameRegs [addrOf .instQuiescedLo 0 0, addrOf .instQuiescedHi 0 0] d (setQuiesced n d) := by
  intro a ha
  simp only [List.mem_cons, List.not_mem_nil, or_false, not_or] at ha
  unfold setQuiesced
  split
  · exact sameRegs_setW .instQuiescedLo 0 0 _ d a (by simpa using ha.1)
  · exact sameRegs_setW .instQuiescedHi 0 0 _ d a (by simpa using ha.2)

theorem getF_setQuiesced {n : Nat} (hn : n < 64) (d : Dev) : (n < 32 → getF .instQuiescedLo 0 0 n n (setQuiesced n d) = 1) ∧
    (32 ≤ n → getF .instQuiescedHi 0 0 (n - 32) (n - 32) (setQuiesced n d) = 1) := by
  refine ⟨fun h => ?_, fun h => ?_⟩
  · rw [setQuiesced, if_pos h, setBit, getF_setF_self d (le_refl n) h]
    simp
  · rw [setQuiesced, if_neg (Nat.not_lt.mpr h), setBit, getF_setF_self d (le_refl _) (by omega)]
    simp

theorem linkOpen_congr {d e : Dev} (h : e.link = d.link) : linkOpen e = linkOpen d := by
  rw [linkOpen, h]
  rfl

/-- The vector of QUIESCED goes out where the events' control enables it. -/
theorem when_raiseVector_linkOnly (c : Bool) (fn v : Nat) (d : Dev) : LinkOnly d (when_ c (raiseVector fn v) d) := by
  unfold when_
  split
  · exact .raiseVector ..
  · exact .refl d

theorem exec_instanceQuiesced (n : Nat) (s : State) : exec (.instanceQuiesced n) s = Safety.sent (instanceQuiesced n s.dev) s := rfl

/-- An instance's record in QUIESCED. -/
def Inst.quiesced (x : Inst) : Inst := { x with state := 3 }

/-- The device with the frames free, the instance QUIESCED and its bit set. -/
def quiescedBy (n : Nat) (d : Dev) : Dev := setQuiesced n (updInst n Inst.quiesced (freeFramesOf n d))

/-- The registers of the instances but the two of the QUIESCED bits stay. -/
theorem getF_quiescedBy {r : RegName} {i j : Nat} (h : 0x110000 ≤ addrOf r i j) (hq : addrOf r i j ≠ 0x110800 ∧ addrOf r i j ≠ 0x110804)
    (n hi lo : Nat) (d : Dev) : getF r i j hi lo (quiescedBy n d) = getF r i j hi lo d := by
  have hm : addrOf r i j ∉ [addrOf .instQuiescedLo 0 0, addrOf .instQuiescedHi 0 0] := fun hm => (List.mem_pair.mp hm).elim hq.1 hq.2
  have hf := freeFramesOf_frame n d
  unfold quiescedBy
  generalize freeFramesOf n d = e at hf ⊢
  have hr := (sameRegs_setQuiesced n (updInst n Inst.quiesced e) _ hm).trans (hf.regs _ (notin_ledgerEventAddrs h))
  rw [getF, getW, hr]
  rfl

/-- Marking the instance as QUIESCED changes its record and a register alone. -/
theorem quiescedBy_frame (n : Nat) (d : Dev) : quiescedBy n d = { freeFramesOf n d with
    regs := (quiescedBy n d).regs, insts := (updInst n Inst.quiesced (freeFramesOf n d)).insts } := by
  unfold quiescedBy
  generalize freeFramesOf n d = e
  exact setQuiesced_frame n _

theorem instAt_quiescedBy (n : Nat) (d : Dev) : instAt n (quiescedBy n d) = (instAt n d).quiesced := by
  have hf := (freeFramesOf_frame n d).insts
  rw [quiescedBy_frame]
  generalize freeFramesOf n d = e at hf ⊢
  rw [← instAt_congr hf n]
  exact instAt_updInst n Inst.quiesced e

theorem instanceQuiesced_due {n : Nat} {d : Dev} (hs : (instAt n d).state = 2) (ho : oldTokens n d = false) : instanceQuiesced n d =
    let e := quiescedBy n d
    let f := when_ (getF .instEventCtrl 0 0 31 31 e = 1) (raiseVector 0xFF (getF .instEventCtrl 0 0 2 0 e)) e
    if getF .instCtrl n 0 30 30 f = 1 then becomeActive n f else f := by
  unfold instanceQuiesced
  rw [if_neg (by simp [hs, ho])]
  rfl

/-- QUIESCED follows where no old token is left and no release waits. -/
theorem instanceQuiesced_eq {n : Nat} {d : Dev} (hn : n < 64) (hs : (instAt n d).state = 2) (ho : oldTokens n d = false)
    (hc : getF .instCtrl n 0 30 30 d = 0) : instanceQuiesced n d =
      when_ (getF .instEventCtrl 0 0 31 31 d = 1) (raiseVector 0xFF (getF .instEventCtrl 0 0 2 0 d)) (quiescedBy n d) := by
  have ha : addrOf .instCtrl n 0 = 0x110000 + 0x20 * n := rfl
  have hctrl : getF .instCtrl n 0 30 30 (quiescedBy n d) = 0 := (getF_quiescedBy (by omega) (by omega) ..).trans hc
  have he : ∀ hi lo, getF .instEventCtrl 0 0 hi lo (quiescedBy n d) = getF .instEventCtrl 0 0 hi lo d :=
    fun hi lo => getF_quiescedBy (by decide) (by decide) ..
  rw [instanceQuiesced_due hs ho]
  simp only [he]
  generalize quiescedBy n d = e at hctrl ⊢
  have hl := when_raiseVector_linkOnly (getF .instEventCtrl 0 0 31 31 d = 1) 0xFF (getF .instEventCtrl 0 0 2 0 d) e
  generalize when_ _ _ e = f at hl ⊢
  have hf : getF .instCtrl n 0 30 30 f = 0 := by
    rw [hl]
    exact hctrl
  rw [if_neg (by rw [hf]; decide)]

/-- The third clause of InstanceLife. -/
theorem instance_quiesced {s : State} {n : Nat} (hn : n < 64) (hs : (instAt n s.dev).state = 2) (ho : oldTokens n s.dev = false)
    (hc : getF .instCtrl n 0 30 30 s.dev = 0) :
    ∃ e, exec (.instanceQuiesced n) s = Safety.sent e s ∧ (instAt n e).state = 3 ∧ (instAt n e).gen = (instAt n s.dev).gen ∧
      (∀ k l, Tab.get e.xl.lfns k = some l → l.inst ≠ n) ∧
      (∀ p ∈ s.dev.xl.lfns, p.2.inst = n → ∀ i < 2 ^ 26, Mem.read e.tiers.dev (p.2.pfn * 2 ^ 26 + i) = 0) ∧
      (∀ a, (∀ p ∈ s.dev.xl.lfns, p.2.inst = n → p.2.pfn ≠ a / 2 ^ 26) → Mem.read e.tiers.dev a = Mem.read s.dev.tiers.dev a) ∧
      (n < 32 → getF .instQuiescedLo 0 0 n n e = 1) ∧ (32 ≤ n → getF .instQuiescedHi 0 0 (n - 32) (n - 32) e = 1) ∧
      (getF .instEventCtrl 0 0 31 31 s.dev = 1 → linkOpen s.dev = true →
        e.out = s.dev.out ++ [.vector 0xFF (getF .instEventCtrl 0 0 2 0 s.dev)]) := by
  refine ⟨_, exec_instanceQuiesced n s, ?_⟩
  rw [instanceQuiesced_eq hn hs ho hc]
  have hfree := freeFramesOf_frame n s.dev
  have hlfns := freeFramesOf_lfns n s.dev
  have hread := fun a => read_freeFramesOf n a s.dev
  have hq := quiescedBy_frame n s.dev
  have hinst := instAt_quiescedBy n s.dev
  obtain ⟨hlo, hhi⟩ : (n < 32 → getF .instQuiescedLo 0 0 n n (quiescedBy n s.dev) = 1) ∧
      (32 ≤ n → getF .instQuiescedHi 0 0 (n - 32) (n - 32) (quiescedBy n s.dev) = 1) := getF_setQuiesced hn _
  generalize freeFramesOf n s.dev = e at hfree hlfns hread hq
  generalize quiescedBy n s.dev = g at hq hinst hlo hhi ⊢
  have hl := when_raiseVector_linkOnly (getF .instEventCtrl 0 0 31 31 s.dev = 1) 0xFF (getF .instEventCtrl 0 0 2 0 s.dev) g
  have hout : getF .instEventCtrl 0 0 31 31 s.dev = 1 → linkOpen s.dev = true →
      (when_ (getF .instEventCtrl 0 0 31 31 s.dev = 1) (raiseVector 0xFF (getF .instEventCtrl 0 0 2 0 s.dev)) g).out =
        s.dev.out ++ [.vector 0xFF (getF .instEventCtrl 0 0 2 0 s.dev)] := fun hv ho => by
    have hg : g.link = s.dev.link ∧ g.out = s.dev.out := by rw [hq]; exact ⟨hfree.link, hfree.out⟩
    rw [when_, if_pos (by simp [hv]), (raiseVector_open ((linkOpen_congr hg.1).trans ho) ..).1, hg.2]
  generalize when_ _ _ g = f at hl hout ⊢
  have hinsts : f.insts = g.insts := by rw [hl]
  have hregs : f.regs = g.regs := by rw [hl]
  have hxl : f.xl.lfns = Tab.keep s.dev.xl.lfns (fun _ l => l.inst != n) := by rw [hl, hq]; exact hlfns
  have hdev : f.tiers.dev = e.tiers.dev := by rw [hl, hq]
  refine ⟨by rw [instAt_congr hinsts, hinst]; rfl, by rw [instAt_congr hinsts, hinst]; rfl, fun _ _ => Tab.inst_of_kept hxl, fun p hp hn i hi => ?_,
    fun a ha => ?_, fun h => (getF_congr hregs ..).trans (hlo h), fun h => (getF_congr hregs ..).trans (hhi h), hout⟩
  · rw [hdev, hread, if_pos ⟨p, List.mem_filter.mpr ⟨hp, by simpa using hn⟩, by omega⟩]
  · rw [hdev, hread, if_neg]
    rintro ⟨p, hp, hf⟩
    obtain ⟨hp, hn⟩ := List.mem_filter.mp hp
    exact ha p hp (by simpa using hn) hf

end Sys2Proof.Machine
end

section
/-! SUPPORT. RELEASE: the instance is ACTIVE, and a GENERATION notice stands in its admin completion ring (R398, R399, R407). -/

namespace Sys2Proof.Machine

/-! ## A notice is written (R405) -/

/-- An admin queue's own record after one more entry of its completion ring. -/
def Admin.wrote (size : Nat) (a : Admin) : Admin := { a with wr := (a.wr + 1) % size, written := a.written + 1 }

theorem writeAdmin_eq {n : Nat} {d : Dev} (hd : (adminAt n d).detached = false) (x : Entry) :
    let e := updAdmin n (Admin.wrote (adminSizes n d).2) (adminPut n (adminAddr n true d + 32 * (adminAt n d).wr) x.bytesOf d)
    writeAdmin n x d = raiseVector n (getF .adminCtrl n 0 11 6 e) e := by
  unfold writeAdmin
  dsimp only
  rw [hd, if_neg Bool.false_ne_true]
  rfl

/-- An entry of the admin queue over an open link is in host memory at once. -/
theorem writeAdmin_open {n : Nat} {d : Dev} (hl : linkOpen d = true) (hd : (adminAt n d).detached = false) (x : Entry) :
    (writeAdmin n x d).link.hostMem = Mem.writeN d.link.hostMem (hostKey 0xFF (adminAddr n true d + 32 * (adminAt n d).wr)) x.bytesOf ∧
    (adminAt n (writeAdmin n x d)).notices = (adminAt n d).notices := by
  rw [writeAdmin_eq hd]
  have hput := adminPut_open hl n (adminAddr n true d + 32 * (adminAt n d).wr) x.bytesOf
  have hq : (adminPut n (adminAddr n true d + 32 * (adminAt n d).wr) x.bytesOf d).q = d.q := by rw [LinkOnly.adminPut ..]
  generalize adminPut n _ _ d = e at hput hq ⊢
  have hopen : linkOpen (updAdmin n (Admin.wrote (adminSizes n d).2) e) = true := by
    change (e.link.up && !e.link.lost && !e.link.retrain) = true
    rw [hput]
    exact hl
  have hnotices : (adminAt n (updAdmin n (Admin.wrote (adminSizes n d).2) e)).notices = (adminAt n d).notices := by
    rw [adminAt_updAdmin, adminAt, hq]
    rfl
  have hmem : (updAdmin n (Admin.wrote (adminSizes n d).2) e).link.hostMem = e.link.hostMem := rfl
  generalize updAdmin n _ e = f at hopen hnotices hmem ⊢
  refine ⟨?_, ?_⟩
  · rw [(raiseVector_open hopen ..).2, hmem, hput]
  · rw [LinkOnly.raiseVector n _ f]
    exact hnotices

/-- An admin queue's own record with these notices due. -/
def Admin.due (l : List Entry) (a : Admin) : Admin := { a with notices := l }

theorem postNotice_on {n : Nat} {d : Dev} (hon : adminOn n d = true) (hn : (adminAt n d).notices = []) (x : Entry) :
    postNotice n x d = writeNotices n 2 (updAdmin n (Admin.due [x]) d) := by
  have : updAdmin n (fun a => { a with notices := (if x.opcode = 2 then a.notices.filter (fun y => y.opcode != 2) else a.notices) ++ [x] }) d =
      updAdmin n (Admin.due [x]) d := by simp [updAdmin, hn, Admin.due]
  simp [postNotice, hon, this]

/-- A notice for an enabled admin queue with room, over an open link, is in host memory at once. -/
theorem postNotice_open {n : Nat} {d : Dev} (hl : linkOpen d = true) (hon : adminOn n d = true) (hd : (adminAt n d).detached = false)
    (hn : (adminAt n d).notices = []) (hf : 0 < adminFree n d) (x : Entry) : (postNotice n x d).link.hostMem =
      Mem.writeN d.link.hostMem (hostKey 0xFF (adminAddr n true d + 32 * (adminAt n d).wr)) x.bytesOf := by
  rw [postNotice_on hon hn, writeNotices, adminAt_updAdmin, Admin.due]
  dsimp only
  have hon1 : adminOn n (updAdmin n (Admin.due [x]) d) = true := hon
  have hf1 : 0 < adminFree n (updAdmin n (Admin.due [x]) d) := by
    rw [adminFree, adminAt_updAdmin]
    exact hf
  rw [if_pos (by simp [hf1, hon1])]
  have hat : adminAt n (updAdmin n (fun a => { a with notices := [] }) (updAdmin n (Admin.due [x]) d)) = (adminAt n d).due [] := by
    rw [adminAt_updAdmin, adminAt_updAdmin]
    rfl
  obtain ⟨hmem, hnone⟩ := writeAdmin_open (n := n) (d := updAdmin n (fun a => { a with notices := [] }) (updAdmin n (Admin.due [x]) d))
    hl (by rw [hat]; exact hd) x
  rw [writeNotices_none (by rw [hnone, hat]; rfl), hmem, hat]
  rfl

/-! ## The bytes of a GENERATION notice (R402) -/

theorem natLE_six {v : Nat} (h : v < 65536) : natLE 6 v = natLE 2 v ++ natLE 4 0 := by
  have : v / 256 / 256 = 0 := by omega
  simp [natLE, this]

theorem bytesOf_generation {n v : Nat} {d : Dev} (h : v < 65536) : (noticeEntry n 1 0 v d).bytesOf =
    [0, 0, 0, 0, 0, 0, 0, 0, 0xFF, 0xFF, 0, 0, 0, 1, 3, 0] ++ natLE 2 (instAt n d).gen ++ natLE 6 0 ++ natLE 2 v ++ natLE 5 0 ++ [0x80] := by
  have : (noticeEntry n 1 0 v d).bytesOf = [0, 0, 0, 0, 0, 0, 0, 0, 0xFF, 0xFF, 0, 0, 0, 1, 3, 0] ++ natLE 2 (instAt n d).gen ++ natLE 6 0 ++
    natLE 6 v ++ [0, 0x80] := by simp [Entry.bytesOf, noticeEntry, natLE]
  rw [this, natLE_six h]
  simp [natLE]

/-! ## RELEASE -/

/-- An instance's record in ACTIVE. -/
def Inst.active (x : Inst) : Inst := { x with state := 1, shareDue := false }

/-- Without a share that changed meanwhile, one notice is posted. -/
theorem becomeActive_eq {n : Nat} {d : Dev} (h : (instAt n d).shareDue = false) : becomeActive n d =
    postNotice n (noticeEntry n 1 0 (instAt n d).lastGen (updInst n Inst.active d)) (updInst n Inst.active d) := by
  unfold becomeActive
  dsimp only
  rw [h, if_neg Bool.false_ne_true]
  rfl

theorem exec_release {n : Nat} {s : State} (hr : s.dev.start.ready = true) (hl : linkOpen s.dev = true) (hh : s.dev.upd.heldTo = none) :
    exec (.release n) s = Safety.sent (release n s.dev) s := by
  change execRelease n s = _
  have hc : ctrlHeld n s.dev = false := by simp [ctrlHeld, hh]
  rw [execRelease, overLink_unheld (unheld_of_linkOpen hl), sends, managerWrite_ready hr hl, if_neg (by simp [hc])]
  rfl

/-- The fourth clause of InstanceLife. -/
theorem instance_released {s : State} {n : Nat} (hr : s.dev.start.ready = true) (hl : linkOpen s.dev = true) (hh : s.dev.upd.heldTo = none)
    (hs : (instAt n s.dev).state = 3) (hd : (instAt n s.dev).shareDue = false) (hn : (adminAt n s.dev).notices = []) :
    ∃ e, exec (.release n) s = Safety.sent e s ∧ (instAt n e).state = 1 ∧ (instAt n e).gen = (instAt n s.dev).gen ∧ e.tiers = s.dev.tiers ∧
      (adminOn n s.dev = false → e.link = s.dev.link ∧ e.out = s.dev.out) ∧
      (adminOn n s.dev = true → (adminAt n s.dev).detached = false → 0 < adminFree n s.dev → (instAt n s.dev).lastGen < 65536 → ∀ i < 32,
        Mem.read e.link.hostMem (hostKey 0xFF (adminAddr n true s.dev + 32 * (adminAt n s.dev).wr) + i) =
          ([0, 0, 0, 0, 0, 0, 0, 0, 0xFF, 0xFF, 0, 0, 0, 1, 3, 0] ++ natLE 2 (instAt n s.dev).gen ++ natLE 6 0 ++
            natLE 2 (instAt n s.dev).lastGen ++ natLE 5 0 ++ [0x80]).getD i 0) := by
  refine ⟨_, exec_release hr hl hh, ?_⟩
  have hinst : instAt n (updInst n Inst.active s.dev) = (instAt n s.dev).active := instAt_updInst ..
  rw [release, if_pos hs, becomeActive_eq hd]
  have ha := AdminOnly.postNotice n (noticeEntry n 1 0 (instAt n s.dev).lastGen (updInst n Inst.active s.dev)) (updInst n Inst.active s.dev)
  have hi : instAt n (postNotice n (noticeEntry n 1 0 (instAt n s.dev).lastGen (updInst n Inst.active s.dev)) (updInst n Inst.active s.dev)) =
      (instAt n s.dev).active := (instAt_congr (by rw [ha]) n).trans hinst
  refine ⟨by rw [hi]; rfl, by rw [hi]; rfl, by rw [ha]; rfl, fun hoff => ?_, fun hon hdet hfree hgen i hlt => ?_⟩
  · rw [postNotice_off (n := n) (d := updInst n Inst.active s.dev) hoff hn]
    exact ⟨rfl, rfl⟩
  · rw [postNotice_open (n := n) (d := updInst n Inst.active s.dev) hl hon hdet hn hfree, bytesOf_generation hgen, hinst]
    have hlen : i < ([0, 0, 0, 0, 0, 0, 0, 0, 0xFF, 0xFF, 0, 0, 0, 1, 3, 0] ++ natLE 2 (instAt n s.dev).gen ++ natLE 6 0 ++
        natLE 2 (instAt n s.dev).lastGen ++ natLE 5 0 ++ [0x80] : List Byte).length := by simpa [natLE_length] using hlt
    exact (Mem.read_writeN_inside _ _ hlen).trans (List.getElem_eq_getD 0)

theorem release_resetting {n : Nat} {d : Dev} (hs : (instAt n d).state = 2) : release n d = d := by
  simp [release, hs]

end Sys2Proof.Machine
end

section
/-! SUPPORT. The life of an instance (R135, R394 to R407): its share, and the obligation. -/

namespace Sys2Proof.Machine

/-! ## The share's word (R403, R404) -/

/-- The word of INST_SHARE: CONFLICT above the two parts of the share. -/
def shareWord (flag sl led : Nat) : Nat := flag * 2 ^ 31 + sl * 2 ^ 16 + led

theorem bitsOf_shareWord {flag sl led : Nat} (hf : flag < 2) (hs : sl < 2 ^ 9) (hl : led < 2 ^ 9) :
    bitsOf (shareWord flag sl led) 8 0 = led ∧ bitsOf (shareWord flag sl led) 24 16 = sl ∧ bitsOf (shareWord flag sl led) 31 31 = flag := by
  simp only [bitsOf, shareWord, Nat.shiftRight_eq_div_pow]
  omega

/-- Each field of the share's word reads as it was put. -/
theorem getF_setW_shareWord {flag sl led : Nat} (hf : flag < 2) (hs : sl < 2 ^ 9) (hl : led < 2 ^ 9) (n : Nat) (d : Dev) :
    getF .instShare n 0 8 0 (setW .instShare n 0 (shareWord flag sl led) d) = led ∧
    getF .instShare n 0 24 16 (setW .instShare n 0 (shareWord flag sl led) d) = sl ∧
    getF .instShare n 0 31 31 (setW .instShare n 0 (shareWord flag sl led) d) = flag := by
  have hw : shareWord flag sl led < 2 ^ 32 := by
    unfold shareWord
    omega
  rw [getF_setW_self hw, getF_setW_self hw, getF_setW_self hw]
  exact bitsOf_shareWord hf hs hl

/-! ## A share that changes (R405, R406) -/

/-- A change of the link, of what is sent out, of the admin queues' own records and of the instances' records. -/
def ShareStep (d e : Dev) : Prop := e = { d with link := e.link, out := e.out, q := { d.q with admin := e.q.admin }, insts := e.insts }

theorem shareChanged_shareStep (n : Nat) (d : Dev) : ShareStep d (shareChanged n d) := by
  unfold shareChanged
  split
  · rfl
  · rw [ShareStep, AdminOnly.postNotice ..]
  · rfl

/-- A share that is not taken sets CONFLICT and leaves the parts as they stand. -/
theorem instShareWrite_refused {n data : Nat} {d : Dev} (hc : configured n d = true) (hd : data < 2 ^ 32)
    (h : 256 < shareSum n 8 0 d + bitsOf data 8 0 ∨ 256 < shareSum n 24 16 d + bitsOf data 24 16) :
    instShareWrite n data d = setW .instShare n 0 (shareWord 1 (getF .instShare n 0 24 16 d) (getF .instShare n 0 8 0 d)) d := by
  unfold instShareWrite
  dsimp only
  rw [Nat.mod_eq_of_lt hd, if_pos hc, if_pos (by simp only [Bool.or_eq_true, decide_eq_true_eq]; omega)]
  rfl

/-- A share that is taken stands in its register, and the governors look at the requests that wait where it changed. -/
theorem instShareWrite_taken {n data : Nat} {d : Dev} (hc : configured n d = true) (hd : data < 2 ^ 32)
    (hl : shareSum n 8 0 d + bitsOf data 8 0 ≤ 256) (hs : shareSum n 24 16 d + bitsOf data 24 16 ≤ 256) :
    ∃ flag < 2, instShareWrite n data d = setW .instShare n 0 (shareWord flag (bitsOf data 24 16) (bitsOf data 8 0)) d ∨
      instShareWrite n data d = regrantAll (shareChanged n (setW .instShare n 0 (shareWord flag (bitsOf data 24 16) (bitsOf data 8 0)) d)) := by
  refine ⟨if bitOf data 31 then 0 else getF .instShare n 0 31 31 d, ?_, ?_⟩
  · split
    · decide
    · exact bitsOf_lt _ 31 31
  unfold instShareWrite
  dsimp only
  rw [Nat.mod_eq_of_lt hd, if_pos hc, if_neg (by simp only [Bool.or_eq_true, decide_eq_true_eq]; omega)]
  split
  · exact .inl rfl
  · exact .inr rfl

theorem exec_instShareWrite {n data : Nat} {s : State} (hr : s.dev.start.ready = true) (hl : linkOpen s.dev = true) :
    exec (.instShareWrite n data) s = .next { s with dev := instShareWrite n data s.dev } := by
  change execInstShareWrite n data s = _
  rw [execInstShareWrite, overLink_unheld (unheld_of_linkOpen hl), managerWrite_ready hr hl]

/-- The governors' look after a change of the share keeps the registers of the instances and every grant. -/
theorem regrantAll_shareChanged (n : Nat) (d : Dev) : let e := regrantAll (shareChanged n d)
    (∀ hi lo, getF .instShare n 0 hi lo e = getF .instShare n 0 hi lo d) ∧ e.bricks = d.bricks ∧ e.net = d.net ∧
    ∀ k, ∀ g ∈ (railAt k d).grants, g ∈ (railAt k e).grants := by
  have hs := shareChanged_shareStep n d
  generalize shareChanged n d = c at hs ⊢
  have hl := LedgerStep.regrantAll c
  have hk := fun k => (Governed.regrantAll k c).kept
  dsimp only
  generalize regrantAll c = e at hl hk ⊢
  have ha : addrOf .instShare n 0 ∉ ledgerEventAddrs := notin_ledgerEventAddrs (Nat.le_trans (by decide : 0x110000 ≤ 0x110008) (Nat.le_add_right ..))
  have hregs : c.regs = d.regs := by rw [hs]
  have hrail : ∀ k, railAt k c = railAt k d := fun k => by rw [hs]; rfl
  refine ⟨fun hi lo => ?_, ?_, ?_, fun k g hg => hk k (by rwa [hrail])⟩
  · rw [← getF_congr hregs, getF, getW, hl.regs _ ha]
    rfl
  · rw [hl.rest, hs]
  · rw [hl.rest, hs]

section Share

variable {s : State} {n data : Nat} (hc : configured n s.dev = true) (hr : s.dev.start.ready = true) (hl : linkOpen s.dev = true) (hd : data < 2 ^ 32)
include hc hr hl hd

theorem share_taken (hled : shareSum n 8 0 s.dev + bitsOf data 8 0 ≤ 256) (hsl : shareSum n 24 16 s.dev + bitsOf data 24 16 ≤ 256) :
    ∃ t, exec (.instShareWrite n data) s = .next t ∧ getF .instShare n 0 8 0 t.dev = bitsOf data 8 0 ∧
      getF .instShare n 0 24 16 t.dev = bitsOf data 24 16 ∧ t.dev.bricks = s.dev.bricks ∧ t.dev.net = s.dev.net ∧
      (∀ k < s.dev.pwr.rails.length, ∀ g ∈ (railAt k s.dev).grants, g ∈ (railAt k t.dev).grants) := by
  refine ⟨_, exec_instShareWrite hr hl, ?_⟩
  dsimp only
  obtain ⟨flag, hf, he⟩ := instShareWrite_taken hc hd hled hsl
  obtain ⟨h8, h24, -⟩ := getF_setW_shareWord hf (bitsOf_lt data 24 16) (bitsOf_lt data 8 0) n s.dev
  rcases he with he | he
  · rw [he]
    exact ⟨h8, h24, rfl, rfl, fun _ _ _ hg => hg⟩
  · rw [he]
    obtain ⟨hregs, hbricks, hnet, hgrants⟩ := regrantAll_shareChanged n (setW .instShare n 0 (shareWord flag (bitsOf data 24 16) (bitsOf data 8 0)) s.dev)
    exact ⟨(hregs ..).trans h8, (hregs ..).trans h24, hbricks, hnet, fun k _ => hgrants k⟩

theorem share_refused (h : 256 < shareSum n 8 0 s.dev + bitsOf data 8 0 ∨ 256 < shareSum n 24 16 s.dev + bitsOf data 24 16) :
    ∃ t, exec (.instShareWrite n data) s = .next t ∧ getF .instShare n 0 8 0 t.dev = getF .instShare n 0 8 0 s.dev ∧
      getF .instShare n 0 24 16 t.dev = getF .instShare n 0 24 16 s.dev ∧ getF .instShare n 0 31 31 t.dev = 1 ∧
      Safety.SameRegs [addrOf .instShare n 0] s.dev t.dev ∧ t.dev.pwr = s.dev.pwr := by
  refine ⟨_, exec_instShareWrite hr hl, ?_⟩
  dsimp only
  rw [instShareWrite_refused hc hd h]
  obtain ⟨h8, h24, h31⟩ := getF_setW_shareWord (by decide : 1 < 2) (bitsOf_lt _ 24 16) (bitsOf_lt _ 8 0) n s.dev
  exact ⟨h8, h24, h31, sameRegs_setW .instShare n 0 _ s.dev, rfl⟩

end Share

/-- Settles O52: each clause is the equation of its step (`instanceReset_resets`, `instanceQuiesced_eq`, `becomeActive_eq`, `instShareWrite_taken`,
`instShareWrite_refused`) with what its stages leave alone. -/
theorem instanceLife : Obligations.InstanceLife :=
  ⟨fun _ _ _ hr h hl ht hc hd _ hq => instance_reset hr h ⟨hl, ht, hc, hd, hq⟩,
    fun s n h => (exec_instanceReset n s).trans (congrArg (Safety.sent · s) (instanceReset_again h)),
    fun _ _ hn hs ho _ _ hc => instance_quiesced hn hs ho hc,
    fun s _ _ hr hl hh => ⟨instance_released hr hl hh,
      fun h => (exec_release hr hl hh).trans (congrArg (Safety.sent · s) (release_resetting h))⟩,
    fun _ _ _ _ hc hr hl hd => ⟨share_taken hc hr hl hd, share_refused hc hr hl hd⟩⟩

end Sys2Proof.Machine
end

section
/-! SUPPORT. Commands of the admin queue (R222, R223, R463): a command that may be executed runs on the device as it stands. -/

namespace Sys2Proof.Machine

/-- What the head of an admin queue is where its command may be executed now. -/
theorem adminHead_eq_some {n op : Nat} {l : List Byte} {d : Dev} (h : adminHead n op d = some l) :
    ∃ x, (adminAt n d).head = some x ∧ x.bad = none ∧ (adminAt n d).wait = none ∧ (x.bytes.getD 0 0).toNat = op ∧ x.bytes = l := by
  unfold adminHead at h
  dsimp only at h
  split at h
  · cases h
  · next x hx =>
    rw [Option.ite_none_right_eq_some] at h
    obtain ⟨hc, hl⟩ := h
    simp only [Bool.and_eq_true, Option.isNone_iff_eq_none, decide_eq_true_eq] at hc
    obtain ⟨⟨⟨⟨⟨hb, hw⟩, -⟩, -⟩, -⟩, hop⟩ := hc
    exact ⟨x, hx, hb, hw, hop, Option.some.inj hl⟩

/-- A command with an opcode of R184, R224, R239 or R302 stays at the head until it is executed. -/
theorem settleAdmin_of_adminHead {n op : Nat} {l : List Byte} {d : Dev} (h : adminHead n op d = some l) (hop : adminOps.contains op = true) :
    settleAdmin n d = d := by
  obtain ⟨x, hx, hb, -, rfl, -⟩ := adminHead_eq_some h
  simp only [settleAdmin, hx, hb, hop, if_true, ite_self]

/-- While a command waits, nothing that follows it completes (R223). -/
theorem settleAdmin_of_wait {n : Nat} {w : AdminWait} {d : Dev} (h : (adminAt n d).wait = some w) : settleAdmin n d = d := by
  unfold settleAdmin
  dsimp only
  split
  · rfl
  · rw [if_pos (by simp [h])]

/-- A command that may be executed now is executed. -/
theorem runAdmin_takes {n op : Nat} {l : List Byte} {s : State} (h : Safety.AdminTakes n op l s) (hop : adminOps.contains op = true)
    (f : List Byte → Dev → Dev) : runAdmin n op f s = Safety.sent (f l s.dev) s := by
  obtain ⟨ha, hp, hh⟩ := h
  simp only [runAdmin, sends, ha, hp, Bool.or_self, Bool.false_eq_true, if_false, settleAdmin_of_adminHead hh hop, hh]
  rfl

end Sys2Proof.Machine
end

section
/-! SUPPORT. Walks and outstanding faults (R173, R174, R180 to R184). -/

namespace Sys2Proof.Machine

/-! ## Walks (R173, R174) -/

theorem exec_translationWalk (eng : Eng) (ctx va : Nat) (kind : Kind) (pre : Bool) (s : State) :
    exec (.translationWalk eng ctx va kind pre) s = .next { s with dev := translationWalk eng ctx va kind pre s.dev } := rfl

/-- With no codeword to correct, a walk corrects none. -/
theorem walked_of_no_soft {d : Dev} (h : d.tiers.soft = []) (ctx va : Nat) (e : Eng) : walked ctx va e d = d := by
  unfold walked
  split
  · rfl
  · rw [if_pos (by simp [h])]

/-- What a walk corrects it notes alone (R145). -/
theorem walked_noted (ctx va : Nat) (e : Eng) (d : Dev) : Noted d (walked ctx va e d) := by
  unfold walked
  split
  · exact .refl d
  · split
    · exact .refl d
    · exact .correct ..

section Walk

variable {eng : Eng} {ctx va : Nat} {kind : Kind} {d : Dev}

theorem translationWalk_frame {lfn off base size perm : Nat} {seg : Bool} (h : translate ctx va kind eng d = .frame lfn off base size perm seg) (pre : Bool) :
    translationWalk eng ctx va kind pre d = fillCache ctx eng (.frame lfn off base size perm seg) (walked ctx va eng d) := by
  simp only [translationWalk, fillAt, h]

theorem translationWalk_access (h : translate ctx va kind eng d = .access) (pre : Bool) :
    translationWalk eng ctx va kind pre d = walked ctx va eng d := by
  simp only [translationWalk, h]

/-- A prefetch never faults (R174). -/
theorem translationWalk_prefetch {lv : Nat} (h : translate ctx va kind eng d = .notMapped lv) :
    translationWalk eng ctx va kind true d = walked ctx va eng d := by
  simp only [translationWalk, h, if_true]

/-- The fault that the first engine to meet a granule opens (R180). -/
def firstFault (c : Ctx) (ctx va level : Nat) (kind : Kind) (eng : Eng) (w : Waiter) (d : Dev) : XFault :=
  { ctx := ctx, inst := c.inst, granule := va / 2 ^ 26, address := va, level := level, kinds := kindBit kind, since := clock (engDie eng) d,
    die := engDie eng, engines := [(engDie eng, engBit eng)], waiters := [(w, va)], written := false }

/-- A granule without a fault gets one, where the context has a limit and its instance a ring (R180, R181). -/
theorem raiseFault_opens {c : Ctx} (hc : Tab.get d.xl.ctxs ctx = some c) (hl : 0 < c.limit) (hd : c.dying = false)
    (hr : Tab.has d.xl.rings c.inst = true) (hf : faultOn ctx va d = none) (level : Nat) (w : Waiter) :
    raiseFault ctx va level kind eng w d = .ok { d with xl := { d.xl with
      faults := Tab.set d.xl.faults (d.xl.nextId % 2 ^ 32) (firstFault c ctx va level kind eng w d), nextId := d.xl.nextId + 1 } } := by
  simp only [raiseFault, hc, hl.ne', if_false, hd, hr, Bool.not_true, Bool.or_self, Bool.false_eq_true, hf]
  rfl

/-- A demand walk of a page that is not mapped waits in a new fault, where none stands on the granule (R177, R180, R181). -/
theorem translationWalk_opens {c : Ctx} {lv : Nat} (h : translate ctx va kind eng d = .notMapped lv) (hc : Tab.get d.xl.ctxs ctx = some c)
    (hl : 0 < c.limit) (hd : c.dying = false) (hr : Tab.has d.xl.rings c.inst = true) (hf : faultOn ctx va d = none) :
    translationWalk eng ctx va kind false d = { walked ctx va eng d with xl := { d.xl with
      faults := Tab.set d.xl.faults (d.xl.nextId % 2 ^ 32) (firstFault c ctx va lv kind eng (.walk eng kind) d), nextId := d.xl.nextId + 1 } } := by
  have hn := walked_noted ctx va eng d
  have hxl : (walked ctx va eng d).xl = d.xl := hn.xl
  have hfirst : firstFault c ctx va lv kind eng (.walk eng kind) (walked ctx va eng d) = firstFault c ctx va lv kind eng (.walk eng kind) d := by
    rw [firstFault, clock, hn.rest]
    rfl
  simp only [translationWalk, h, Bool.false_eq_true, if_false]
  rw [raiseFault_opens (by rw [hxl]; exact hc) hl hd (by rw [hxl]; exact hr) (by rw [faultOn, hxl]; exact hf), hfirst, hxl]

end Walk

/-! ## The record (R180 to R182, R463) -/

theorem exec_faultRecordWrite (id : Nat) (s : State) : exec (.faultRecordWrite id) s = .next { s with dev := faultRecordWrite id s.dev } := rfl

/-- A posted write over an open link is in host memory at once. -/
theorem hostWrite_open {d : Dev} (h : linkOpen d = true) (fn a : Nat) (l : List Byte) :
    hostWrite fn a l d = { d with link := { d.link with hostMem := Mem.writeN d.link.hostMem (hostKey fn a) l } } := by
  rw [hostWrite, hostPut, if_pos (hostOpen_of_linkOpen h), sendLink_open h]
  rfl

section Record

variable {id : Nat} {f : XFault} {r : FaultRing} {d : Dev} (hf : Tab.get d.xl.faults id = some f) (hr : Tab.get d.xl.rings f.inst = some r)
include hf hr

/-- A turn of the firmware of the fault's die holds its record (R463). -/
theorem faultRecordWrite_held (hb : pairBusy (faultPair f.die) d = true) : faultRecordWrite id d = d := by
  simp only [faultRecordWrite, hf, hr, hb, Bool.or_true, if_true]

/-- The device with a fault's record in the ring of its instance, before the record is counted and its vector raised. -/
def recordInRing (id : Nat) (f : XFault) (r : FaultRing) (d : Dev) : Dev :=
  { d with
    link := { d.link with hostMem := Mem.writeN d.link.hostMem (hostKey f.inst (r.addr + 64 * r.next)) (f.record id (instAt f.inst d).gen) }
    xl := { d.xl with
      faults := Tab.modify d.xl.faults id (fun f => { f with written := true })
      rings := Tab.set d.xl.rings f.inst { r with next := (r.next + 1) % max 1 r.entries } } }

theorem faultRecordWrite_due (hw : f.written = false) (ht : f.since + 16 ≤ clock f.die d) (hl : linkOpen d = true)
    (hb : pairBusy (faultPair f.die) d = false) :
    faultRecordWrite id d = raiseVector f.inst r.vector (countF .xlateFaultStats 0 0 31 16 1 (recordInRing id f r d)) := by
  have hage : ¬clock f.die d < f.since + usec 2 := Nat.not_lt.mpr ht
  simp only [faultRecordWrite, hf, hr, hw, hage, hb, decide_false, Bool.or_self, Bool.false_eq_true, if_false, hostWrite_open hl]
  rfl

end Record

/-! ## How a fault ends (R181, R183) -/

section Ends

variable {id : Nat} {f : XFault} {d : Dev} (hf : Tab.get d.xl.faults id = some f)
include hf

theorem resumeFault_of_get : resumeFault id d = each f.waiters (resumeWaiter f.ctx) (takeFault id d) := by
  simp only [resumeFault, hf]

theorem failFault_of_get : failFault id d = each f.waiters failWaiter (takeFault id (countF .xlateFaultStats 0 0 15 0 1 d)) := by
  have hcount : Tab.get (countF .xlateFaultStats 0 0 15 0 1 d).xl.faults id = some f := by rwa [countF_xl]
  simp only [failFault, Tab.has, hf, Option.isSome_some, if_true, endFault, hcount]

theorem faultLimitExpiry_late (h : faultLate f d = true) :
    faultLimitExpiry id d = each f.waiters failWaiter (takeFault id (countF .xlateFaultStats 0 0 15 0 1 d)) := by
  simp only [faultLimitExpiry, hf, h, if_true, failFault_of_get hf]

theorem faultLimitExpiry_early (h : faultLate f d = false) : faultLimitExpiry id d = d := by
  simp only [faultLimitExpiry, hf, h, Bool.false_eq_true, if_false]

end Ends

/-! ## The commands (R183, R184) -/

section Commands

variable {n : Nat} {l : List Byte} {d : Dev}

theorem faultEnd_outstanding (hz : adminZeros l [(8, 11)] = true) {f : XFault} (hf : Tab.get d.xl.faults (fieldLE l 8 4) = some f)
    (hn : f.inst = n) (resume : Bool) : faultEnd n resume l d =
      completeAdmin n 0 0 (if resume && !faultLate f d then resumeFault (fieldLE l 8 4) d else failFault (fieldLE l 8 4) d) := by
  simp only [faultEnd, hz, Bool.not_true, Bool.false_eq_true, if_false, hf, hn, ne_eq, not_true_eq_false]

/-- A fault of another instance, or none, is no object of the command's instance. -/
theorem faultEnd_not_held (hz : adminZeros l [(8, 11)] = true) (hf : ∀ f, Tab.get d.xl.faults (fieldLE l 8 4) = some f → f.inst ≠ n)
    (resume : Bool) : faultEnd n resume l d = completeAdmin n 3 0 d := by
  simp only [faultEnd, hz, Bool.not_true, Bool.false_eq_true, if_false]
  split
  · rfl
  · next f h => rw [if_pos (hf f h)]

/-- The ring is set or taken away while no fault of the instance is outstanding. -/
theorem faultRingSet_free (hz : adminZeros l [(16, 26)] = true) (ha : fieldLE l 16 8 % 4096 = 0) (hv : fieldLE l 26 1 ≤ 63)
    (hf : ∀ f ∈ d.xl.faults, f.2.inst ≠ n) (hk : fieldLE l 24 2 = 0 ∨ fieldLE l 24 2 ∈ faultRingSizes) :
    faultRingSet n l d = .ok (0, { d with xl := { d.xl with
      rings := if fieldLE l 24 2 = 0 then Tab.erase d.xl.rings n
        else Tab.set d.xl.rings n { addr := fieldLE l 16 8, entries := fieldLE l 24 2, vector := fieldLE l 26 1, next := 0 } } }) := by
  have hnone : d.xl.faults.any (fun f => f.2.inst == n) = false := by simpa using hf
  have hsize : (fieldLE l 24 2 = 0 || faultRingSizes.contains (fieldLE l 24 2) : Bool) = true := by simpa using hk
  simp only [faultRingSet, hz, ha, hsize, hnone, Nat.not_lt.mpr hv, Bool.not_true, Bool.or_self, Bool.false_eq_true, if_false, ne_eq,
    not_true_eq_false, decide_false]
  split <;> rfl

end Commands

/-! ## The obligation -/

theorem exec_faultLimitExpiry (id : Nat) (s : State) : exec (.faultLimitExpiry id) s = Safety.sent (faultLimitExpiry id s.dev) s := rfl

/-- The walks of TranslationFaults. -/
theorem walk_outcomes (s : State) (eng : Eng) (ctx va : Nat) (kind : Kind) (pre : Bool) :
    (∀ lfn off base size perm seg, translate ctx va kind eng s.dev = .frame lfn off base size perm seg →
      exec (.translationWalk eng ctx va kind pre) s =
        .next { s with dev := fillCache ctx eng (.frame lfn off base size perm seg) (walked ctx va eng s.dev) }) ∧
    (translate ctx va kind eng s.dev = .access → exec (.translationWalk eng ctx va kind pre) s = .next { s with dev := walked ctx va eng s.dev }) ∧
    (∀ lv, translate ctx va kind eng s.dev = .notMapped lv →
      exec (.translationWalk eng ctx va kind true) s = .next { s with dev := walked ctx va eng s.dev }) ∧
    (s.dev.tiers.soft = [] → walked ctx va eng s.dev = s.dev) ∧
    (∀ lv c, translate ctx va kind eng s.dev = .notMapped lv → Tab.get s.dev.xl.ctxs ctx = some c → 0 < c.limit → c.dying = false →
      Tab.has s.dev.xl.rings c.inst = true → faultOn ctx va s.dev = none →
      ∃ t f, exec (.translationWalk eng ctx va kind false) s = .next t ∧ Tab.get t.dev.xl.faults (s.dev.xl.nextId % 2 ^ 32) = some f ∧
        f.ctx = ctx ∧ f.address = va ∧ f.level = lv ∧ f.since = clock (engDie eng) s.dev ∧ f.written = false ∧ f.inst = c.inst ∧
        t.dev = { walked ctx va eng s.dev with xl := { s.dev.xl with faults := t.dev.xl.faults, nextId := s.dev.xl.nextId + 1 } }) := by
  refine ⟨fun _ _ _ _ _ _ h => ?_, fun h => ?_, fun _ h => ?_, fun h => walked_of_no_soft h .., fun lv c h hc hl hd hr hf =>
    ⟨_, firstFault c ctx va lv kind eng (.walk eng kind) s.dev, exec_translationWalk .., ?_⟩⟩
  · rw [exec_translationWalk, translationWalk_frame h]
  · rw [exec_translationWalk, translationWalk_access h]
  · rw [exec_translationWalk, translationWalk_prefetch h]
  · dsimp only
    rw [translationWalk_opens h hc hl hd hr hf]
    exact ⟨Tab.get_set_self .., rfl, rfl, rfl, rfl, rfl, rfl, rfl⟩

/-- A record that is due is in its ring with its fault marked, counted, and its vector raised (R180 to R182, R193). -/
theorem record_written {s : State} {id : Nat} {f : XFault} {r : FaultRing} (hf : Tab.get s.dev.xl.faults id = some f)
    (hr : Tab.get s.dev.xl.rings f.inst = some r) (hw : f.written = false) (ht : f.since + 16 ≤ clock f.die s.dev) (hl : linkOpen s.dev = true)
    (hb : pairBusy (faultPair f.die) s.dev = false) :
    ∃ t, exec (.faultRecordWrite id) s = .next t ∧ Tab.get t.dev.xl.faults id = some { f with written := true } ∧
      t.dev.link.hostMem = Mem.writeN s.dev.link.hostMem (hostKey f.inst (r.addr + 64 * r.next)) (f.record id (instAt f.inst s.dev).gen) ∧
      t.dev.out = s.dev.out ++ [.vector f.inst r.vector] ∧
      getF .xlateFaultStats 0 0 31 16 t.dev = min 65535 (getF .xlateFaultStats 0 0 31 16 s.dev + 1) ∧ t.dev.tiers = s.dev.tiers := by
  refine ⟨_, exec_faultRecordWrite id s, ?_⟩
  dsimp only
  rw [faultRecordWrite_due hf hr hw ht hl hb]
  have hopen : linkOpen (recordInRing id f r s.dev) = true := by simpa only [recordInRing, linkOpen] using hl
  have hcount := getF_countF_self (n := .xlateFaultStats) (i := 0) (j := 0) (hi := 31) (lo := 16) (k := 1) (recordInRing id f r s.dev)
    (by decide) (by decide)
  have hxl := countF_xl .xlateFaultStats 0 0 31 16 1 (recordInRing id f r s.dev)
  have htiers := countF_tiers .xlateFaultStats 0 0 31 16 1 (recordInRing id f r s.dev)
  have hsent := countF_out .xlateFaultStats 0 0 31 16 1 (recordInRing id f r s.dev)
  have hlink := countF_link .xlateFaultStats 0 0 31 16 1 (recordInRing id f r s.dev)
  generalize countF .xlateFaultStats 0 0 31 16 1 (recordInRing id f r s.dev) = e at hcount hxl htiers hsent hlink ⊢
  obtain ⟨hout, hmem⟩ := raiseVector_open ((linkOpen_congr hlink).trans hopen) f.inst r.vector
  have hraise := LinkOnly.raiseVector f.inst r.vector e
  generalize raiseVector f.inst r.vector e = t at hout hmem hraise ⊢
  refine ⟨?_, by rw [hmem, hlink, recordInRing], by rw [hout, hsent, recordInRing], ?_, ?_⟩
  · rw [show t.xl = e.xl by rw [hraise], hxl, recordInRing, Tab.get_modify_self, hf]
    rfl
  · rw [getF_congr (show t.regs = e.regs by rw [hraise]), hcount]
    rfl
  · rw [show t.tiers = e.tiers by rw [hraise], htiers, recordInRing]

section FaultCommands

variable {s : State} {n : Nat} {l : List Byte}

/-- FAULT_RESUME of an outstanding fault, and of another instance's. -/
theorem fault_resumed (ht : Safety.AdminTakes n 0xA9 l s) (hz : adminZeros l [(8, 11)] = true) {f : XFault}
    (hf : Tab.get s.dev.xl.faults (fieldLE l 8 4) = some f) :
    (f.inst = n → faultLate f s.dev = false → exec (.faultResume n) s =
      Safety.adminNext n 0 0 (each f.waiters (resumeWaiter f.ctx) (takeFault (fieldLE l 8 4) s.dev)) s) ∧
    (f.inst ≠ n → exec (.faultResume n) s = Safety.adminNext n 3 0 s.dev s) := by
  have hexec : exec (.faultResume n) s = Safety.sent (faultEnd n true l s.dev) s := runAdmin_takes ht rfl _
  rw [hexec]
  refine ⟨fun hn h => ?_, fun hn => ?_⟩
  · rw [faultEnd_outstanding hz hf hn, h, if_pos (by decide), resumeFault_of_get hf]
    rfl
  · rw [faultEnd_not_held hz fun g hg => by rw [hf] at hg; cases hg; exact hn]
    rfl

/-- FAULT_FAIL of an outstanding fault, and of none. -/
theorem fault_failed (ht : Safety.AdminTakes n 0xAA l s) (hz : adminZeros l [(8, 11)] = true) :
    (∀ f, Tab.get s.dev.xl.faults (fieldLE l 8 4) = some f → f.inst = n → exec (.faultFail n) s =
      Safety.adminNext n 0 0 (each f.waiters failWaiter (takeFault (fieldLE l 8 4) (countF .xlateFaultStats 0 0 15 0 1 s.dev))) s) ∧
    (Tab.get s.dev.xl.faults (fieldLE l 8 4) = none → exec (.faultFail n) s = Safety.adminNext n 3 0 s.dev s) := by
  have hexec : exec (.faultFail n) s = Safety.sent (faultEnd n false l s.dev) s := runAdmin_takes ht rfl _
  rw [hexec]
  refine ⟨fun f hf hn => ?_, fun hf => ?_⟩
  · rw [faultEnd_outstanding hz hf hn, if_neg (by simp), failFault_of_get hf]
    rfl
  · rw [faultEnd_not_held hz fun g hg => by rw [hf] at hg; cases hg]
    rfl

/-- FAULT_RING_SET while no fault of the instance is outstanding. -/
theorem fault_ring_set (ht : Safety.AdminTakes n 0xA8 l s) (hz : adminZeros l [(16, 26)] = true) (ha : fieldLE l 16 8 % 4096 = 0)
    (hv : fieldLE l 26 1 ≤ 63) (hf : ∀ f ∈ s.dev.xl.faults, f.2.inst ≠ n) :
    (fieldLE l 24 2 ∈ faultRingSizes → exec (.faultRingSet n) s = Safety.adminNext n 0 0 { s.dev with xl := { s.dev.xl with
      rings := Tab.set s.dev.xl.rings n { addr := fieldLE l 16 8, entries := fieldLE l 24 2, vector := fieldLE l 26 1, next := 0 } } } s) ∧
    (fieldLE l 24 2 = 0 → exec (.faultRingSet n) s =
      Safety.adminNext n 0 0 { s.dev with xl := { s.dev.xl with rings := Tab.erase s.dev.xl.rings n } } s) := by
  have hexec : exec (.faultRingSet n) s = Safety.sent (concludeAdmin n (faultRingSet n l s.dev) s.dev) s :=
    runAdmin_takes ht rfl fun l d => concludeAdmin n (faultRingSet n l d) d
  have hzero : 0 ∉ faultRingSizes := by decide
  rw [hexec]
  refine ⟨fun hk => ?_, fun hk => ?_⟩
  · rw [faultRingSet_free hz ha hv hf (.inr hk), if_neg (ne_of_mem_of_not_mem hk hzero)]
    rfl
  · rw [faultRingSet_free hz ha hv hf (.inl hk), if_pos hk]
    rfl

end FaultCommands

/-- Settles O30: a walk by `walk_outcomes`, a record by `faultRecordWrite_held` and `record_written`, the limit by `faultLimitExpiry_late`, and the
commands by `fault_resumed`, `fault_failed` and `fault_ring_set`. -/
theorem translationFaults : Obligations.TranslationFaults := by
  refine ⟨walk_outcomes, fun s id f r hf hr hw ht hl => ⟨fun hb => ?_, record_written hf hr hw ht hl⟩,
    fun s id f hf => ⟨fun h => ?_, fun h => ?_⟩, fun s n l => ⟨fun ht hz => ⟨fun f hf => (fault_resumed ht hz hf).1,
      fun f hf => (fault_resumed ht hz hf).2⟩, fault_failed, fault_ring_set⟩⟩
  · rw [exec_faultRecordWrite, faultRecordWrite_held hf hr hb]
  · rw [exec_faultLimitExpiry, faultLimitExpiry_late hf h]
    rfl
  · rw [exec_faultLimitExpiry, faultLimitExpiry_early hf h]
    rfl

end Sys2Proof.Machine
end

section
/-! SUPPORT. Admin commands that wait (R223): what consuming a command and ending its wait leave, and that the end of a command which put nothing on
the local path leaves everything but the ledger. -/

namespace Sys2Proof.Machine

/-! ## The end of a command with nothing on the local path (R45, R46, R242) -/

/-- A change of the ledger and of registers. -/
def LedgerOnly (d e : Dev) : Prop := e = { d with regs := e.regs, pwr := e.pwr }

/-- A change of the memories, of the frame map and what stands on it, of the ledger and of registers. -/
def MapOnly (d e : Dev) : Prop := e = { d with regs := e.regs, pwr := e.pwr, tiers := e.tiers, xl := e.xl }

namespace LedgerOnly

variable {d e f : Dev}

theorem refl (d : Dev) : LedgerOnly d d := rfl

theorem trans (h1 : LedgerOnly d e) (h2 : LedgerOnly e f) : LedgerOnly d f := by
  rw [LedgerOnly, h2, h1]

theorem of_step (h : LedgerStep d e) : LedgerOnly d e := by
  rw [LedgerOnly, h.rest]

theorem each {α : Type} {g : α → Dev → Dev} (h : ∀ x d, LedgerOnly d (g x d)) (l : List α) (d : Dev) : LedgerOnly d (each l g d) :=
  List.foldlRecOn (motive := fun e => LedgerOnly d e) _ _ (refl d) fun _ he x _ => he.trans (h x _)

/-- A unit of any rail returns its grant. -/
theorem returnGrant (u : UnitId) (d : Dev) : LedgerOnly d (returnGrant u d) := by
  unfold Machine.returnGrant regrant when_
  dsimp only
  split
  · split <;> rfl
  · rfl

theorem idleEngines (d : Dev) : LedgerOnly d (idleEngines d) := by
  unfold Machine.idleEngines
  refine trans (each (fun u e => ?_) _ d) (of_step (.idleDdr _))
  split
  · exact refl e
  · exact returnGrant u e

theorem xl (h : LedgerOnly d e) : e.xl = d.xl := by rw [h]
theorem q (h : LedgerOnly d e) : e.q = d.q := by rw [h]
theorem tiers (h : LedgerOnly d e) : e.tiers = d.tiers := by rw [h]

theorem localPath (hl : ∀ p ∈ d.pes, p.loop = []) (hm : d.link.dmas = []) : LedgerOnly d (localPath d) := by
  have hidle := runLoop_idle 1048576 d (pesAt_loop_of_quiet hl)
  rw [Machine.localPath, hidle, pumpHost_idle hm, hidle]
  exact idleEngines d

end LedgerOnly

namespace MapOnly

variable {d e f : Dev}

theorem refl (d : Dev) : MapOnly d d := rfl

theorem trans (h1 : MapOnly d e) (h2 : MapOnly e f) : MapOnly d f := by
  rw [MapOnly, h2, h1]

theorem of_mover (h : MoverStep d e) : MapOnly d e := by
  rw [MapOnly, h.rest]

theorem q (h : MapOnly d e) : e.q = d.q := by rw [h]
theorem pes (h : MapOnly d e) : e.pes = d.pes := by rw [h]
theorem link (h : MapOnly d e) : e.link = d.link := by rw [h]

end MapOnly

/-! ## What goes over the link starts no host DMA -/

theorem dmas_adminPut (n a : Nat) (l : List Byte) (d : Dev) : (adminPut n a l d).link.dmas = d.link.dmas := by
  unfold adminPut
  split
  · exact dmas_sendLink ..
  · rfl

theorem dmas_raiseVector (fn v : Nat) (d : Dev) : (raiseVector fn v d).link.dmas = d.link.dmas := by
  unfold raiseVector
  split
  · exact dmas_sendLink ..
  · rfl

theorem dmas_hostRead (fn a len : Nat) (why : ReadWhy) (d : Dev) : (hostRead fn a len why d).link.dmas = d.link.dmas := dmas_sendLink ..

/-! ## The admin queue's own record (R222, R223) -/

theorem adminAt_congr {d e : Dev} (h : e.q = d.q) (n : Nat) : adminAt n e = adminAt n d := by
  rw [adminAt, h, ← adminAt]

namespace AdminOnly

variable {d e : Dev}

theorem xl (h : AdminOnly d e) : e.xl = d.xl := by rw [h]
theorem pes (h : AdminOnly d e) : e.pes = d.pes := by rw [h]
theorem tiers (h : AdminOnly d e) : e.tiers = d.tiers := by rw [h]

end AdminOnly

/-- A change of the link, of what is sent out and of the admin queues' records that starts no host DMA and leaves what instance `n` waits for. -/
structure AdminStep (n : Nat) (d e : Dev) : Prop where
  only : AdminOnly d e
  dmas : e.link.dmas = d.link.dmas
  wait : (adminAt n e).wait = (adminAt n d).wait

namespace AdminStep

variable {n : Nat} {d e f : Dev}

theorem refl (n : Nat) (d : Dev) : AdminStep n d d := ⟨rfl, rfl, rfl⟩

theorem trans (h1 : AdminStep n d e) (h2 : AdminStep n e f) : AdminStep n d f :=
  ⟨h1.only.trans h2.only, h2.dmas.trans h1.dmas, h2.wait.trans h1.wait⟩

theorem of_link (h : LinkOnly d e) (hd : e.link.dmas = d.link.dmas) : AdminStep n d e :=
  ⟨.of_link h, hd, by rw [h]; rfl⟩

theorem updAdmin {g : Admin → Admin} (hg : ∀ a, (g a).wait = a.wait) (d : Dev) : AdminStep n d (updAdmin n g d) :=
  ⟨.updAdmin .., rfl, by rw [adminAt_updAdmin, hg]⟩

theorem adminPut (n m a : Nat) (l : List Byte) (d : Dev) : AdminStep n d (adminPut m a l d) := of_link (.adminPut ..) (dmas_adminPut ..)

theorem writeAdmin (n : Nat) (x : Entry) (d : Dev) : AdminStep n d (writeAdmin n x d) := by
  unfold Machine.writeAdmin
  dsimp only
  split
  · exact refl n d
  · exact ((adminPut ..).trans (updAdmin (by exact fun _ => rfl) _)).trans (of_link (.raiseVector ..) (dmas_raiseVector ..))

theorem writeNotices (n fuel : Nat) (d : Dev) : AdminStep n d (writeNotices n fuel d) := by
  induction fuel generalizing d with
  | zero => exact refl n d
  | succ fuel ih =>
    unfold Machine.writeNotices
    split
    · exact refl n d
    · split
      · exact ((updAdmin (by exact fun _ => rfl) d).trans (writeAdmin ..)).trans (ih _)
      · exact refl n d

/-- The next entry is asked for. -/
theorem tryAdmin (n : Nat) (d : Dev) : AdminStep n d (tryAdmin n d) := by
  unfold Machine.tryAdmin
  dsimp only
  split
  · exact refl n d
  · refine (updAdmin (by exact fun _ => rfl) d).trans (of_link ?_ (dmas_hostRead ..))
    unfold hostRead
    exact LinkOnly.trans (by rfl) (.sendLink ..)

end AdminStep

/-- An admin queue's own record when its command no longer waits. -/
def Admin.released (a : Admin) : Admin := { a with wait := none, mute := false }

/-- The end of a wait writes the entry, the notices that wait, and asks for the next command. -/
theorem endAdminWait_step {n : Nat} {w : AdminWait} {d : Dev} (hw : (adminAt n d).wait = some w) (status result : Nat) :
    AdminStep n (updAdmin n Admin.released d) (endAdminWait n status result d) := by
  simp only [endAdminWait, hw]
  refine AdminStep.trans ?_ ((AdminStep.tryAdmin ..).trans (.writeNotices ..))
  split
  · exact .refl ..
  · exact .writeAdmin ..

section Hold

variable {n : Nat} {x : Head} {d : Dev} (hh : (adminAt n d).head = some x) (w : AdminWait)
include hh

/-- A command that is accepted is consumed, and waits (R223). -/
theorem holdAdmin_leaves : AdminOnly d (holdAdmin n w d) ∧ (holdAdmin n w d).link.dmas = d.link.dmas ∧
    (adminAt n (holdAdmin n w d)).wait = some w := by
  simp only [holdAdmin, hh]
  refine ⟨(AdminOnly.of_link (.adminPut ..)).trans (.updAdmin ..), ?_, by rw [adminAt_updAdmin]⟩
  rw [updAdmin_link, dmas_adminPut]

/-- A command that has nothing to wait for completes at once. -/
theorem holdFor_over {v : Nat} {e : Dev} (ho : adminOver w (holdAdmin n w d) = some (v, e)) : holdFor n w d = endAdminWait n 0 v e := by
  simp only [holdFor, adminWaitEnd, (holdAdmin_leaves hh w).2.2, Option.bind_some, ho]

end Hold

/-- A command whose wait is over at once: the memories and the frame map are as the end of its wait leaves them, and the queue waits for nothing. -/
theorem waited_at_once {s : State} {n v : Nat} {x : Head} {w : AdminWait} {d e : Dev} (hq : Safety.Quiet s.dev) (hd : MapOnly s.dev d)
    (hh : (adminAt n s.dev).head = some x) (ho : adminOver w (holdAdmin n w d) = some (v, e)) (he : MapOnly (holdAdmin n w d) e) :
    ∃ t, Safety.sent (holdFor n w d) s = .next t ∧ (adminAt n t.dev).wait = none ∧ t.dev.xl = e.xl ∧ t.dev.tiers = e.tiers := by
  obtain ⟨hloop, hdmas, -⟩ := hq
  have hhd : (adminAt n d).head = some x := by rwa [adminAt_congr hd.q]
  obtain ⟨honly, hhdmas, hwait⟩ := holdAdmin_leaves hhd w
  have hstep := endAdminWait_step (w := w) (d := e) (by rwa [adminAt_congr he.q]) 0 v
  rw [holdFor_over hhd w ho]
  generalize endAdminWait n 0 v e = g at hstep ⊢
  have hpes : g.pes = s.dev.pes := by rw [hstep.only.pes, updAdmin_pes, he.pes, honly.pes, hd.pes]
  have hlink : g.link.dmas = [] := by rw [hstep.dmas, updAdmin_link, he.link, hhdmas, hd.link, hdmas]
  have hpath : LedgerOnly g (localPath g) := .localPath (by rwa [hpes]) hlink
  refine ⟨{ s with dev := localPath g }, rfl, ?_, ?_, ?_⟩
  · rw [adminAt_congr hpath.q, hstep.wait, adminAt_updAdmin]
    rfl
  · rw [hpath.xl, hstep.only.xl, updAdmin_xl]
  · rw [hpath.tiers, hstep.only.tiers, updAdmin_tiers]

end Sys2Proof.Machine
end

section
/-! SUPPORT. FRAME_ALLOC (R163, R185, R537): the frames that it chooses are free and each its own, and what entering them in the frame map leaves. -/

namespace Sys2Proof.Machine

/-! ## The frames chosen (R185) -/

/-- A unit's free frames are in no use. -/
theorem notMem_used_of_freeGroups {u p : Nat} {used g : List Nat} {d : Dev} (hg : g ∈ freeGroups u used d) (hp : p ∈ g) : p ∉ used := by
  have hfree : ∀ l : List Nat, p ∈ l.filter (fun p => !used.contains p) → p ∉ used := fun l h => by simpa using (List.mem_filter.mp h).2
  unfold freeGroups at hg
  split at hg
  · obtain ⟨k, -, rfl⟩ := List.mem_map.mp hg
    split at hp
    · exact hfree _ hp
    · cases hp
  · dsimp only at hg
    split at hg
    · obtain rfl := List.mem_singleton.mp hg
      exact hfree _ hp
    · cases hg

/-- The frame picked from a unit is a free one. -/
theorem pickFrom_free {u rot p : Nat} {used : List Nat} {d : Dev} (h : pickFrom u false rot used d = some p) : p ∉ used := by
  obtain ⟨l, hl, hp⟩ := List.exists_of_findSome?_eq_some h
  obtain ⟨k, -, rfl⟩ := List.mem_map.mp hl
  have hmem := List.mem_of_head? hp
  by_cases hk : (rot + k) % (freeGroups u used d).length < (freeGroups u used d).length
  · rw [List.getD_eq_getElem _ _ hk] at hmem
    exact notMem_used_of_freeGroups (List.getElem_mem hk) hmem
  · rw [List.getD_eq_default _ _ (Nat.le_of_not_lt hk)] at hmem
    cases hmem

/-- Frames for an allocation come one after another, each of them free and no other's. -/
theorem allocGo_frames {d : Dev} {n : Nat} {classes : List (List Nat)} {cur : Option Nat} {used acc pfns : List Nat} {rots rots' : Tab Nat}
    (h : allocGo false d n classes cur used acc rots = some (pfns, rots')) :
    ∃ new, pfns = acc ++ new ∧ new.length = n ∧ new.Nodup ∧ ∀ p ∈ new, p ∉ used := by
  induction n generalizing cur used acc rots with
  | zero =>
    cases h
    exact ⟨[], by simp⟩
  | succ n ih =>
    unfold allocGo at h
    dsimp only at h
    split at h
    · next u p hc =>
      obtain ⟨new, rfl, hlen, hnodup, hfree⟩ := ih h
      have hp : p ∉ used := by
        have hpick : ∀ v, (pickFrom v false (Tab.getD rots v (stackAt v d).nextGroup) used d).map (fun p => (v, p)) = some (u, p) → p ∉ used :=
          fun v hv => by
            obtain ⟨q, hq, he⟩ := Option.map_eq_some_iff.mp hv
            cases he
            exact pickFrom_free hq
        split at hc
        · next x hx =>
          obtain rfl := Option.some.inj hc
          obtain ⟨v, -, hv⟩ := Option.bind_eq_some_iff.mp hx
          exact hpick v hv
        · obtain ⟨us, -, hus⟩ := List.exists_of_findSome?_eq_some hc
          obtain ⟨v, -, hv⟩ := Option.bind_eq_some_iff.mp hus
          exact hpick v hv
      refine ⟨p :: new, by simp, by simp [hlen], List.nodup_cons.mpr ⟨fun hm => hfree p hm (by simp), hnodup⟩, fun q hq => ?_⟩
      rcases List.mem_cons.mp hq with rfl | hq
      · exact hp
      · exact fun hu => hfree q hq (List.mem_append_right _ hu)
    · cases h

/-- The frames of an allocation of single frames: as many as are asked, no two the same, and none in use. -/
theorem chooseFrames_free {count place : Nat} {d : Dev} {pfns : List Nat} {rots : Tab Nat} (h : chooseFrames count false place d = some (pfns, rots)) :
    pfns.length = count ∧ pfns.Nodup ∧ ∀ p ∈ pfns, p ∉ usedFrames d := by
  obtain ⟨new, rfl, hlen, hnodup, hfree⟩ := allocGo_frames h
  exact ⟨hlen, hnodup, hfree⟩

/-! ## Entries of a table made one after another -/

theorem Tab.get_foldl_set_other {α β : Type} {l : List β} {k : β → Nat} {v : β → α} {j : Nat} (h : ∀ p ∈ l, k p ≠ j) (t : Tab α) :
    Tab.get (l.foldl (fun t p => Tab.set t (k p) (v p)) t) j = Tab.get t j :=
  List.foldlRecOn (motive := fun u => Tab.get u j = Tab.get t j) _ _ rfl fun _ hu p hp => (Tab.get_set_other _ _ (h p hp).symm).trans hu

/-- Each of several entries under keys of their own is found. -/
theorem Tab.get_foldl_set {α β : Type} {l : List β} {k : β → Nat} (hk : (l.map k).Nodup) {p : β} (hp : p ∈ l) (v : β → α) (t : Tab α) :
    Tab.get (l.foldl (fun t p => Tab.set t (k p) (v p)) t) (k p) = some (v p) := by
  induction l generalizing t with
  | nil => cases hp
  | cons q l ih =>
    obtain ⟨hq, hl⟩ := List.nodup_cons.mp hk
    rcases List.mem_cons.mp hp with rfl | hp
    · exact (Tab.get_foldl_set_other (fun r hr he => hq (List.mem_map.mpr ⟨r, hr, he⟩)) _).trans (Tab.get_set_self ..)
    · exact ih hl hp _

/-! ## The frames enter the frame map (R163, R185) -/

/-- Frames that are filled with zeros read zero, and no other byte changes. -/
theorem read_each_zeroFrame_of {α : Type} (f : α → Nat) (l : List α) (a : Nat) (d : Dev) :
    Mem.read (each l (fun p => zeroFrame (f p)) d).tiers.dev a = if ∃ p ∈ l, f p = a / 2 ^ 26 then 0 else Mem.read d.tiers.dev a := by
  induction l generalizing d with
  | nil => simp [each]
  | cons q l ih =>
    change Mem.read (each l _ (zeroFrame (f q) d)).tiers.dev a = _
    rw [ih, read_zeroFrame]
    generalize a / 2 ^ 26 = b
    by_cases hl : ∃ p ∈ l, f p = b
    · rw [if_pos hl, if_pos (hl.imp fun _ hp => ⟨List.mem_cons_of_mem _ hp.1, hp.2⟩)]
    · simp only [List.mem_cons, exists_eq_or_imp, hl, if_false, or_false]

/-- The record of an LFN of a frame that is allocated by itself, neither TABLE nor NO_MIGRATE. -/
def Lfn.single (n pfn : Nat) : Lfn :=
  { inst := n, pfn := pfn, table := false, fixed := false, run := none, keep := false, count := 0, dying := false }

section Take

variable (n base : Nat) (pfns : List Nat) (d : Dev)

theorem takeFrames_lfns : (takeFrames n base false false false pfns d).xl.lfns =
    ((List.range pfns.length).zip pfns).foldl (fun t p => Tab.set t (base + p.1) (Lfn.single n p.2)) d.xl.lfns := by
  have hset : ∀ (l : List (Nat × Nat)) (e : Dev),
      (each l (fun p d => { d with xl := { d.xl with lfns := Tab.set d.xl.lfns (base + p.1) (Lfn.single n p.2) } }) e).xl.lfns =
        l.foldl (fun t p => Tab.set t (base + p.1) (Lfn.single n p.2)) e.xl.lfns := fun l => by
    induction l with
    | nil => exact fun _ => rfl
    | cons p l ih => exact fun e => ih _
  exact (hset _ _).trans (by rw [each_xl fun p d => zeroFrame_xl ..])

theorem takeFrames_tiers : (takeFrames n base false false false pfns d).tiers =
    (each ((List.range pfns.length).zip pfns) (fun p => zeroFrame p.2) d).tiers :=
  List.foldlRecOn (motive := fun e : Dev => e.tiers = (each ((List.range pfns.length).zip pfns) (fun p => zeroFrame p.2) d).tiers) _ _ rfl
    fun _ he _ _ => he

theorem mem_numbered {i p : Nat} : (i, p) ∈ (List.range pfns.length).zip pfns ↔ pfns[i]? = some p := by
  rw [List.mem_iff_getElem?]
  simp only [List.getElem?_zip_eq_some]
  constructor
  · rintro ⟨j, hj, hp⟩
    obtain ⟨-, rfl⟩ := List.getElem?_eq_some_iff.mp hj
    rwa [List.getElem_range]
  · intro hp
    exact ⟨i, List.getElem?_range (List.getElem?_eq_some_iff.mp hp).1, hp⟩

theorem get_takeFrames {i : Nat} (hi : i < pfns.length) :
    Tab.get (takeFrames n base false false false pfns d).xl.lfns (base + i) = some (Lfn.single n (pfns.getD i 0)) := by
  have hkeys : (((List.range pfns.length).zip pfns).map (fun p => base + p.1)).Nodup := by
    change (((List.range pfns.length).zip pfns).map ((fun i => base + i) ∘ Prod.fst)).Nodup
    rw [← List.map_map, List.map_fst_zip (by simp)]
    exact List.nodup_range.map fun _ _ h => Nat.add_left_cancel h
  rw [takeFrames_lfns, List.getD_eq_getElem _ _ hi]
  exact Tab.get_foldl_set hkeys (p := (i, pfns[i])) ((mem_numbered pfns).mpr (List.getElem?_eq_getElem hi)) _ _

theorem get_takeFrames_other {k : Nat} (hk : k < base ∨ base + pfns.length ≤ k) :
    Tab.get (takeFrames n base false false false pfns d).xl.lfns k = Tab.get d.xl.lfns k := by
  rw [takeFrames_lfns, Tab.get_foldl_set_other]
  rintro ⟨i, p⟩ hp
  have := (List.getElem?_eq_some_iff.mp ((mem_numbered pfns).mp hp)).1
  dsimp only
  omega

theorem read_takeFrames (a : Nat) : Mem.read (takeFrames n base false false false pfns d).tiers.dev a =
    if a / 2 ^ 26 ∈ pfns then 0 else Mem.read d.tiers.dev a := by
  have hmem : (∃ p ∈ (List.range pfns.length).zip pfns, p.2 = a / 2 ^ 26) ↔ a / 2 ^ 26 ∈ pfns := by
    rw [List.mem_iff_getElem?]
    simp only [Prod.exists, mem_numbered, exists_eq_right]
  rw [takeFrames_tiers, read_each_zeroFrame_of Prod.snd]
  simp only [hmem]

end Take

/-! ## The command -/

section Alloc

variable {n : Nat} {l : List Byte} {d : Dev} (hz : adminZeros l [(8, 12)] = true) (hc : 0 < fieldLE l 8 2) (hs : fieldLE l 10 1 = 0)
  (hp : placeOk (fieldLE l 11 1) = true) (hf : fieldLE l 12 1 = 0)
include hz hc hs hp hf

theorem frameAlloc_over_quota (hq : quotaMax 1 (getF .xlateQuota n 0 31 16 d) d < framesHeld n d + fieldLE l 8 2) :
    frameAlloc n l d = .error 0xE := by
  simp [frameAlloc, hz, hc.ne', hs, hp, hf, bitOf, hq]

theorem frameAlloc_takes (hq : framesHeld n d + fieldLE l 8 2 ≤ quotaMax 1 (getF .xlateQuota n 0 31 16 d) d) {base : Nat} {pfns : List Nat}
    {rots : Tab Nat} (hb : freeLfnRun (fieldLE l 8 2) d.xl.lfns (d.xl.lfns.length + 1) 0 = some base)
    (hch : chooseFrames (fieldLE l 8 2) false (fieldLE l 11 1) d = some (pfns, rots)) :
    frameAlloc n l d = .ok (base, kickMover (setRotation rots (takeFrames n base false false false pfns d))) := by
  simp [frameAlloc, hz, hc.ne', hs, hp, hf, bitOf, Nat.not_lt.mpr hq, hb, hch]

end Alloc

theorem exec_frameAlloc {n : Nat} {l : List Byte} {s : State} (h : Safety.AdminTakes n 0xA5 l s) :
    exec (.frameAlloc n) s = Safety.sent (concludeAdmin n (frameAlloc n l s.dev) s.dev) s :=
  runAdmin_takes h rfl fun l d => concludeAdmin n (frameAlloc n l d) d

section Obligation

variable {s : State} {n : Nat} {l : List Byte} (h : Safety.AdminTakes n 0xA5 l s) (hz : adminZeros l [(8, 12)] = true) (hc : 0 < fieldLE l 8 2)
  (hs : fieldLE l 10 1 = 0) (hp : placeOk (fieldLE l 11 1) = true) (hf : fieldLE l 12 1 = 0)
include h hz hc hs hp hf

/-- FRAME_ALLOC of single frames: past the quota nothing, and within it consecutive LFNs on frames that were free and read zero. -/
theorem frames_allocated :
    (quotaMax 1 (getF .xlateQuota n 0 31 16 s.dev) s.dev < framesHeld n s.dev + fieldLE l 8 2 →
      exec (.frameAlloc n) s = Safety.adminNext n 0xE 0 s.dev s) ∧
    (framesHeld n s.dev + fieldLE l 8 2 ≤ quotaMax 1 (getF .xlateQuota n 0 31 16 s.dev) s.dev →
      ∀ base pfns rots, freeLfnRun (fieldLE l 8 2) s.dev.xl.lfns (s.dev.xl.lfns.length + 1) 0 = some base →
        chooseFrames (fieldLE l 8 2) false (fieldLE l 11 1) s.dev = some (pfns, rots) →
        ∃ e, exec (.frameAlloc n) s = Safety.adminNext n 0 base (kickMover e) s ∧ pfns.length = fieldLE l 8 2 ∧ pfns.Nodup ∧
          (∀ i < fieldLE l 8 2, ∃ x, Tab.get e.xl.lfns (base + i) = some x ∧ x.inst = n ∧ x.pfn = pfns.getD i 0 ∧ x.table = false ∧ x.run = none) ∧
          (∀ k, k < base ∨ base + fieldLE l 8 2 ≤ k → Tab.get e.xl.lfns k = Tab.get s.dev.xl.lfns k) ∧
          (∀ p ∈ pfns, p ∉ usedFrames s.dev ∧ ∀ i < 2 ^ 26, Mem.read e.tiers.dev (p * 2 ^ 26 + i) = 0) ∧
          (∀ a, a / 2 ^ 26 ∉ pfns → Mem.read e.tiers.dev a = Mem.read s.dev.tiers.dev a)) := by
  refine ⟨fun hq => ?_, fun hq base pfns rots hb hch => ?_⟩
  · rw [exec_frameAlloc h, frameAlloc_over_quota hz hc hs hp hf hq]
    rfl
  · obtain ⟨hlen, hnodup, hfree⟩ := chooseFrames_free hch
    have hrot := MoverStep.setRotation rots (takeFrames n base false false false pfns s.dev)
    refine ⟨setRotation rots (takeFrames n base false false false pfns s.dev), ?_, hlen, hnodup, fun i hi => ?_, fun k hk => ?_,
      fun p hm => ⟨hfree p hm, fun i hi => ?_⟩, fun a ha => ?_⟩
    · rw [exec_frameAlloc h, frameAlloc_takes hz hc hs hp hf hq hb hch]
      rfl
    · exact ⟨_, by rw [hrot.lfns, get_takeFrames _ _ _ _ (hlen ▸ hi)], rfl, rfl, rfl, rfl⟩
    · rw [hrot.lfns, get_takeFrames_other _ _ _ _ (hlen ▸ hk)]
    · rw [hrot.dev, read_takeFrames, if_pos (by rwa [show (p * 2 ^ 26 + i) / 2 ^ 26 = p by omega])]
    · rw [hrot.dev, read_takeFrames, if_neg ha]

end Obligation

end Sys2Proof.Machine
end

section
/-! SUPPORT. FRAME_FREE, XLATE_INVALIDATE, advice and the ends of waits (R176, R184, R185, R192, R223). -/

namespace Sys2Proof.Machine

/-! ## FRAME_FREE (R185) -/

/-- The device with some frames leaving: no translation of them is cached, no move of them waits, and their LFNs take no more use. -/
def framesLeaving (base n : Nat) (d : Dev) : Dev :=
  let d1 := dropCache (fun t => !t.host && rangesMeet (t.lfn, t.size / 2 ^ 26) (base, n)) d
  { d1 with xl := { d1.xl with
    queued := d1.xl.queued.filter (fun m => m.store || !rangesMeet (m.lfn, m.n) (base, n)),
    lfns := Tab.mapVals d1.xl.lfns (fun j x => if base ≤ j && j < base + n then { x with dying := true } else x) } }

theorem framesLeaving_mapOnly (base n : Nat) (d : Dev) : MapOnly d (framesLeaving base n d) := rfl

theorem framesLeaving_lfns (base n : Nat) (d : Dev) : (framesLeaving base n d).xl.lfns =
    Tab.mapVals d.xl.lfns (fun j x => if base ≤ j && j < base + n then { x with dying := true } else x) := rfl

/-- A frame that leaves stays under its LFN until it is released. -/
theorem pfn_framesLeaving (base n : Nat) (d : Dev) (k : Nat) :
    (Tab.get (framesLeaving base n d).xl.lfns k).map Lfn.pfn = (Tab.get d.xl.lfns k).map Lfn.pfn := by
  rw [framesLeaving_lfns, Tab.get_mapVals, Option.map_map]
  congr 1
  funext x
  dsimp only [Function.comp]
  split <;> rfl

section Free

variable {n : Nat} {l : List Byte} {d : Dev} (hz : adminZeros l [(8, 11)] = true)
include hz

/-- Frames that something names stay (R184). -/
theorem frameFree_named (h : framesNamed (fieldLE l 8 2) (fieldLE l 10 2) d = true) : frameFree n l d = completeAdmin n 3 0 d := by
  simp only [frameFree, hz, h, Bool.not_true, Bool.false_eq_true, if_false, Bool.or_true, if_true]

/-- One frame that its instance holds and nothing names or uses. -/
theorem frameFree_one (h1 : fieldLE l 10 2 = 1) (hheld : lfnHeld (fieldLE l 8 2) n d = true) (hn : framesNamed (fieldLE l 8 2) 1 d = false)
    (hu : frameUses (fieldLE l 8 2) 1 d = []) :
    frameFree n l d = holdFor n (.frameFree (fieldLE l 8 2) 1 []) (framesLeaving (fieldLE l 8 2) 1 d) := by
  have hall : (List.range 1).all (fun i => lfnHeld (fieldLE l 8 2 + i) n d) = true := by simp [hheld]
  simp only [frameFree, hz, h1, hall, hn, hu, Bool.not_true, Bool.or_self, Bool.false_eq_true, if_false]
  rfl

end Free

/-- Frames that no access uses and no move holds are released (R185). -/
theorem adminOver_frameFree (base n : Nat) {d : Dev} (hm : d.xl.move = none) :
    adminOver (.frameFree base n []) d = some (0, releaseFrames base n d) := by
  simp [adminOver, framesMove, hm]

section Release

variable (base n : Nat) (d : Dev)

/-- The entries of the frame map that a release takes away. -/
def goneFrames : List (Nat × Lfn) := d.xl.lfns.filter (fun p => decide (base ≤ p.1 ∧ p.1 < base + n))

/-- The device with frames filled with zeros and out of the frame map, before the mover looks at its queue. -/
def framesReleased : Dev :=
  let d1 := each (goneFrames base n d) (fun p => zeroFrame p.2.pfn) d
  { d1 with xl := { d1.xl with
    queued := d1.xl.queued.filter (fun m => m.store || !decide (m.lfn < base + n ∧ base < m.lfn + m.n)),
    lfns := Tab.mapVals (Tab.keep d1.xl.lfns (fun k _ => !decide (base ≤ k ∧ k < base + n)))
      (fun _ l => if (l.run.map ((goneFrames base n d).filterMap (fun p => p.2.run)).contains).getD false then { l with run := none } else l) } }

theorem releaseFrames_step : MoverStep (framesReleased base n d) (releaseFrames base n d) := .kickMover _

theorem releaseFrames_mapOnly : MapOnly d (releaseFrames base n d) := by
  refine MapOnly.trans ?_ (.of_mover (releaseFrames_step base n d))
  have hz := each_zeroFrame_frame (goneFrames base n d) d
  unfold framesReleased
  generalize each (goneFrames base n d) (fun p => zeroFrame p.2.pfn) d = e at hz ⊢
  rw [MapOnly, hz]

/-- What is left of the frame map keeps its frames. -/
theorem get_releaseFrames (k : Nat) : (Tab.get (releaseFrames base n d).xl.lfns k).map Lfn.pfn =
    if base ≤ k ∧ k < base + n then none else (Tab.get d.xl.lfns k).map Lfn.pfn := by
  have hxl : (each (goneFrames base n d) (fun p => zeroFrame p.2.pfn) d).xl = d.xl := each_xl (fun p d => zeroFrame_xl ..) _ _
  rw [(releaseFrames_step base n d).lfns, framesReleased]
  dsimp only
  rw [Tab.get_mapVals, hxl, Tab.keep, Tab.get_filter_key d.xl.lfns (fun k => !decide (base ≤ k ∧ k < base + n))]
  by_cases hk : base ≤ k ∧ k < base + n
  · simp [hk]
  · rw [if_pos (by simp [hk]), if_neg hk, Option.map_map]
    congr 1
    funext x
    dsimp only [Function.comp]
    split <;> rfl

/-- The frames that are released read zero, and no other byte changes. -/
theorem read_releaseFrames (a : Nat) : Mem.read (releaseFrames base n d).tiers.dev a =
    if ∃ p ∈ goneFrames base n d, p.2.pfn = a / 2 ^ 26 then 0 else Mem.read d.tiers.dev a := by
  rw [(releaseFrames_step base n d).dev]
  exact read_each_zeroFrame ..

end Release

/-- The entry under the LFN of a frame that leaves is the only one that a release takes away. -/
theorem goneFrames_leaving {c : Nat} {x : Lfn} {d e : Dev} (he : e.xl = (framesLeaving c 1 d).xl) (hget : Tab.get d.xl.lfns c = some x)
    (hone : ∀ p ∈ d.xl.lfns, p.1 = c → p.2 = x) (f : Nat) : (∃ p ∈ goneFrames c 1 e, p.2.pfn = f) ↔ f = x.pfn := by
  rw [goneFrames, he, framesLeaving_lfns]
  constructor
  · rintro ⟨p, hp, rfl⟩
    obtain ⟨hp, hk⟩ := List.mem_filter.mp hp
    obtain ⟨q, hq, rfl⟩ := List.mem_map.mp hp
    have hk : c ≤ q.1 ∧ q.1 < c + 1 := of_decide_eq_true hk
    rw [← hone q hq (by omega)]
    dsimp only
    split <;> rfl
  · rintro rfl
    exact ⟨_, List.mem_filter.mpr ⟨List.mem_map_of_mem (Tab.mem_of_get hget), by simp⟩, by simp⟩

/-! ## XLATE_INVALIDATE (R176) -/

/-- The device without the cached translations of a range of a context. -/
def rangeUncached (c va len : Nat) (d : Dev) : Dev := dropCache (fun t => t.ctx == c && rangesMeet (t.base, t.size) (va, len)) d

theorem mem_cache_rangeUncached {c va len : Nat} {d : Dev} {t : TEnt} : t ∈ (rangeUncached c va len d).xl.cache ↔
    t ∈ d.xl.cache ∧ ¬(t.ctx = c ∧ rangesMeet (t.base, t.size) (va, len) = true) := by
  simp only [rangeUncached, dropCache, List.mem_filter, Bool.not_eq_true', Bool.and_eq_false_iff, beq_eq_false_iff_ne, not_and, Bool.not_eq_true,
    ne_eq, imp_iff_not_or]

theorem xlateInvalidate_unused {n : Nat} {l : List Byte} {d : Dev} (hz : adminZeros l [(8, 9), (16, 31)] = true) (hva : fieldLE l 16 8 < 2 ^ 56)
    (hlen : 0 < fieldLE l 24 8) (hend : fieldLE l 16 8 + fieldLE l 24 8 ≤ 2 ^ 56) (hheld : (ctxHeld n (fieldLE l 8 2) d).isSome = true)
    (hu : rangeUses (fieldLE l 8 2) (fieldLE l 16 8) (fieldLE l 24 8) d = []) :
    xlateInvalidate n l d = holdFor n (.invalidate []) (rangeUncached (fieldLE l 8 2) (fieldLE l 16 8) (fieldLE l 24 8) d) := by
  have hok : vaOk (fieldLE l 16 8) (fieldLE l 24 8) = true := decide_eq_true ⟨hva, hend⟩
  simp only [xlateInvalidate, hz, hok, hlen.ne', Option.isNone_eq_false_iff.mpr hheld, Bool.not_true, Bool.or_self, Bool.false_eq_true, if_false,
    invalidate, hu]
  rfl

/-! ## Advice (R192) -/

section Advice

variable {n : Nat} {l : List Byte} {d : Dev} {ls : List Nat}

theorem migrateAdvise_cold (h : adviceStatus n l (adminZeros l [(8, 10), (16, 31)] && decide (fieldLE l 10 1 ≤ 2)) d = .ok ls)
    (h1 : fieldLE l 10 1 = 1) : migrateAdvise n l d = .ok (0, adviseMoves 0x18 ls d) := by
  simp only [migrateAdvise, h]
  rw [if_pos h1]

theorem migrateAdvise_keep (h : adviceStatus n l (adminZeros l [(8, 10), (16, 31)] && decide (fieldLE l 10 1 ≤ 2)) d = .ok ls)
    (h1 : fieldLE l 10 1 ≠ 1) : migrateAdvise n l d = .ok (0, kickMover { d with xl := { d.xl with
      lfns := Tab.mapVals d.xl.lfns (fun k x => if k ∈ ls then { x with keep := decide (fieldLE l 10 1 = 2) } else x) } }) := by
  simp only [migrateAdvise, h, List.contains_iff_mem]
  rw [if_neg h1]

theorem migratePrefetch_holds (h : adviceStatus n l (adminZeros l [(8, 9), (11, 11), (16, 31)] && placeOk (fieldLE l 11 1)) d = .ok ls) :
    migratePrefetch n l d = holdFor n (.prefetch ls (fieldLE l 11 1)) (adviseMoves (fieldLE l 11 1) ls d) := by
  simp only [migratePrefetch, h]

end Advice

theorem inFirst_congr {d e : Dev} (h : e.xl.lfns = d.xl.lfns) (place x : Nat) : inFirst place x e = inFirst place x d := by
  rw [inFirst, h, ← inFirst]

/-- Frames that lie where they are to be are not moved: the mover looks at its queue alone. -/
theorem adviseMoves_placed {place : Nat} {ls : List Nat} {d : Dev} (h : ∀ x ∈ ls, inFirst place x d = true) :
    MoverStep d (adviseMoves place ls d) := by
  have hnone : ls.filter (fun x => adviceMoves x d && !inFirst place x d) = [] := List.filter_eq_nil_iff.mpr fun x hx => by simp [h x hx]
  rw [adviseMoves, hnone]
  exact (MoverStep.queue d.xl.move _ d.xl.demoting d).trans (.kickMover _)

/-- The wait of MIGRATE_PREFETCH is over where every frame lies in its place; queued moves may go, and nothing else (R192). -/
theorem adminOver_prefetch_placed {place : Nat} {ls : List Nat} {d : Dev} (h : ∀ x ∈ ls, inFirst place x d = true) :
    ∃ v e, adminOver (.prefetch ls place) d = some (v, e) ∧ MapOnly d e ∧ e.tiers = d.tiers ∧ e.xl.lfns = d.xl.lfns := by
  have hnone : ls.filter (fun x => !inFirst place x d) = [] := List.filter_eq_nil_iff.mpr fun x hx => by simp [h x hx]
  simp only [adminOver, hnone]
  exact ⟨_, _, rfl, rfl, rfl, rfl⟩

/-! ## The obligation -/

theorem exec_adminWaitEnd (n : Nat) (s : State) : exec (.adminWaitEnd n) s = Safety.sent (adminWaitEnd n (settleAdmin n s.dev)) s := rfl

/-- A wait that is over ends with its command's entry (R223). -/
theorem wait_ends {s : State} {n v : Nat} {w : AdminWait} {e : Dev} (hw : (adminAt n s.dev).wait = some w) (ho : adminOver w s.dev = some (v, e)) :
    exec (.adminWaitEnd n) s = .next { s with dev := localPath (endAdminWait n 0 v e) } := by
  rw [exec_adminWaitEnd, settleAdmin_of_wait hw]
  simp only [adminWaitEnd, hw, Option.bind_some, ho]
  rfl

section Commands

variable {s : State} {n : Nat} {l : List Byte}

/-- FRAME_FREE of one frame that nothing names, uses or moves. -/
theorem frame_freed (ht : Safety.AdminTakes n 0xA6 l s) (hz : adminZeros l [(8, 11)] = true) (hq : Safety.Quiet s.dev) {x : Lfn}
    (h1 : fieldLE l 10 2 = 1) (hget : Tab.get s.dev.xl.lfns (fieldLE l 8 2) = some x) (hone : ∀ p ∈ s.dev.xl.lfns, p.1 = fieldLE l 8 2 → p.2 = x)
    (hheld : lfnHeld (fieldLE l 8 2) n s.dev = true) (hn : framesNamed (fieldLE l 8 2) 1 s.dev = false)
    (hu : frameUses (fieldLE l 8 2) 1 s.dev = []) (hm : s.dev.xl.move = none) :
    ∃ t, exec (.frameFree n) s = .next t ∧ Tab.get t.dev.xl.lfns (fieldLE l 8 2) = none ∧
      (∀ i < 2 ^ 26, Mem.read t.dev.tiers.dev (x.pfn * 2 ^ 26 + i) = 0) ∧
      (∀ a, a / 2 ^ 26 ≠ x.pfn → Mem.read t.dev.tiers.dev a = Mem.read s.dev.tiers.dev a) ∧
      (∀ k, k ≠ fieldLE l 8 2 → (Tab.get t.dev.xl.lfns k).map Lfn.pfn = (Tab.get s.dev.xl.lfns k).map Lfn.pfn) := by
  obtain ⟨y, hh, -⟩ := adminHead_eq_some ht.2.2
  generalize hc : fieldLE l 8 2 = c at *
  have hleave := framesLeaving_mapOnly c 1 s.dev
  obtain ⟨honly, -⟩ := holdAdmin_leaves (d := framesLeaving c 1 s.dev) (by rwa [adminAt_congr hleave.q]) (.frameFree c 1 [])
  have hexec : exec (.frameFree n) s = Safety.sent (holdFor n (.frameFree c 1 []) (framesLeaving c 1 s.dev)) s := by
    refine (runAdmin_takes ht rfl (frameFree n)).trans ?_
    rw [← hc] at hheld hn hu ⊢
    rw [frameFree_one hz h1 hheld hn hu]
  obtain ⟨t, he, -, hxl, htiers⟩ := waited_at_once hq hleave hh
    (adminOver_frameFree c 1 (d := holdAdmin n (.frameFree c 1 []) (framesLeaving c 1 s.dev)) (by rw [honly.xl]; exact hm)) (releaseFrames_mapOnly ..)
  refine ⟨t, hexec.trans he, ?_, fun i hi => ?_, fun a ha => ?_, fun k hk => ?_⟩
  · have hnone := get_releaseFrames c 1 (holdAdmin n (.frameFree c 1 []) (framesLeaving c 1 s.dev)) c
    rw [if_pos (by omega), ← hxl] at hnone
    exact Option.map_eq_none_iff.mp hnone
  · rw [htiers, read_releaseFrames, if_pos ((goneFrames_leaving honly.xl hget hone _).mpr (by omega))]
  · rw [htiers, read_releaseFrames, if_neg fun hg => ha ((goneFrames_leaving honly.xl hget hone _).mp hg), honly.tiers]
    rfl
  · rw [hxl, get_releaseFrames, if_neg (by omega), honly.xl]
    exact pfn_framesLeaving ..

/-- XLATE_INVALIDATE of a range that no access uses. -/
theorem range_invalidated (ht : Safety.AdminTakes n 0xA7 l s) (hz : adminZeros l [(8, 9), (16, 31)] = true) (hq : Safety.Quiet s.dev)
    (hva : fieldLE l 16 8 < 2 ^ 56) (hlen : 0 < fieldLE l 24 8) (hend : fieldLE l 16 8 + fieldLE l 24 8 ≤ 2 ^ 56)
    (hheld : (ctxHeld n (fieldLE l 8 2) s.dev).isSome = true) (hu : rangeUses (fieldLE l 8 2) (fieldLE l 16 8) (fieldLE l 24 8) s.dev = []) :
    ∃ t, exec (.xlateInvalidate n) s = .next t ∧ (adminAt n t.dev).wait = none ∧ t.dev.xl.ctxs = s.dev.xl.ctxs ∧ t.dev.tiers = s.dev.tiers ∧
      ∀ e, e ∈ t.dev.xl.cache ↔ e ∈ s.dev.xl.cache ∧ ¬(e.ctx = fieldLE l 8 2 ∧ rangesMeet (e.base, e.size) (fieldLE l 16 8, fieldLE l 24 8) = true) := by
  obtain ⟨y, hh, -⟩ := adminHead_eq_some ht.2.2
  obtain ⟨honly, -⟩ := holdAdmin_leaves (d := rangeUncached (fieldLE l 8 2) (fieldLE l 16 8) (fieldLE l 24 8) s.dev) hh (.invalidate [])
  obtain ⟨t, he, hwait, hxl, htiers⟩ := waited_at_once (v := 0) (w := .invalidate [])
    (d := rangeUncached (fieldLE l 8 2) (fieldLE l 16 8) (fieldLE l 24 8) s.dev) hq rfl hh rfl (.refl _)
  refine ⟨t, ?_, hwait, by rw [hxl, honly.xl]; rfl, by rw [htiers, honly.tiers]; rfl, fun e => by rw [hxl, honly.xl, mem_cache_rangeUncached]⟩
  refine (runAdmin_takes ht rfl (xlateInvalidate n)).trans ?_
  rw [xlateInvalidate_unused hz hva hlen hend hheld hu, he]

/-- MIGRATE_ADVISE: COLD queues moves, KEEP and NORMAL mark the frames. -/
theorem advised (ht : Safety.AdminTakes n 0xAC l s) {ls : List Nat}
    (h : adviceStatus n l (adminZeros l [(8, 10), (16, 31)] && decide (fieldLE l 10 1 ≤ 2)) s.dev = .ok ls) :
    (fieldLE l 10 1 = 1 → exec (.migrateAdvise n) s = Safety.adminNext n 0 0 (adviseMoves 0x18 ls s.dev) s) ∧
    (fieldLE l 10 1 ≠ 1 → exec (.migrateAdvise n) s = Safety.adminNext n 0 0 (kickMover { s.dev with xl := { s.dev.xl with
      lfns := Tab.mapVals s.dev.xl.lfns (fun k x => if k ∈ ls then { x with keep := decide (fieldLE l 10 1 = 2) } else x) } }) s) := by
  have hexec : exec (.migrateAdvise n) s = Safety.sent (concludeAdmin n (migrateAdvise n l s.dev) s.dev) s :=
    runAdmin_takes ht rfl fun l d => concludeAdmin n (migrateAdvise n l d) d
  rw [hexec]
  refine ⟨fun h1 => ?_, fun h1 => ?_⟩
  · rw [migrateAdvise_cold h h1]
    rfl
  · rw [migrateAdvise_keep h h1]
    rfl

/-- MIGRATE_PREFETCH of frames that lie in their place. -/
theorem prefetched_in_place (ht : Safety.AdminTakes n 0xAB l s) (hq : Safety.Quiet s.dev) {ls : List Nat}
    (h : adviceStatus n l (adminZeros l [(8, 9), (11, 11), (16, 31)] && placeOk (fieldLE l 11 1)) s.dev = .ok ls)
    (hin : ∀ x ∈ ls, inFirst (fieldLE l 11 1) x s.dev = true) :
    ∃ t, exec (.migratePrefetch n) s = .next t ∧ (adminAt n t.dev).wait = none ∧ t.dev.tiers.dev = s.dev.tiers.dev ∧
      t.dev.xl.lfns = s.dev.xl.lfns := by
  obtain ⟨y, hh, -⟩ := adminHead_eq_some ht.2.2
  have hstep := adviseMoves_placed hin
  have hmap := MapOnly.of_mover hstep
  have hexec : exec (.migratePrefetch n) s = Safety.sent (migratePrefetch n l s.dev) s := runAdmin_takes ht rfl _
  rw [hexec, migratePrefetch_holds h]
  generalize adviseMoves (fieldLE l 11 1) ls s.dev = d at hstep hmap ⊢
  obtain ⟨honly, -⟩ := holdAdmin_leaves (d := d) (by rwa [adminAt_congr hmap.q]) (.prefetch ls (fieldLE l 11 1))
  have hlfns : (holdAdmin n (.prefetch ls (fieldLE l 11 1)) d).xl.lfns = s.dev.xl.lfns := by rw [honly.xl, hstep.lfns]
  obtain ⟨v, e, ho, he, htiers, hel⟩ := adminOver_prefetch_placed fun x hx => (inFirst_congr hlfns ..).trans (hin x hx)
  obtain ⟨t, hsent, hwait, hxl, ht⟩ := waited_at_once hq hmap hh ho he
  exact ⟨t, hsent, hwait, by rw [ht, htiers, honly.tiers, hstep.dev], by rw [hxl, hel, hlfns]⟩

end Commands

/-- Settles O29: FRAME_ALLOC by `frames_allocated`, FRAME_FREE by `frame_freed` and `frameFree_named`, XLATE_INVALIDATE by `range_invalidated`, advice
by `advised` and `prefetched_in_place`, and the end of a wait by `wait_ends`. -/
theorem adminFrames : Obligations.AdminFrames := by
  refine fun s n l => ⟨frames_allocated, fun ht hz hq _ x h1 hget hone hheld hn hu hm _ => frame_freed ht hz hq h1 hget hone hheld hn hu hm,
    fun ht hz hn => ?_, range_invalidated, fun ht _ _ h => advised ht h, fun ht hq _ => prefetched_in_place ht hq, fun _ _ _ => wait_ends⟩
  refine (runAdmin_takes ht rfl (frameFree n)).trans ?_
  rw [frameFree_named hz hn]
  rfl

end Sys2Proof.Machine
end

section
/-! SUPPORT. Commands of the admin queue by what their functions answer (R222, R223); and CTX_DESTROY (R186), where the table of contexts is in
canonical form and where it holds a context twice, on which O28 fails. -/

namespace Sys2Proof.Machine

/-! ## What a command comes to (R223) -/

section Command

variable {n op : Nat} {l : List Byte} {s : State} (ht : Safety.AdminTakes n op l s) (hop : adminOps.contains op = true)
include ht hop

/-- A command that its function answers completes with OK and the result. -/
theorem runAdmin_ok {f : List Byte → Dev → Except Nat (Nat × Dev)} {v : Nat} {e : Dev} (h : f l s.dev = .ok (v, e)) :
    runAdmin n op (fun l d => concludeAdmin n (f l d) d) s = Safety.adminNext n 0 v e s := by
  rw [runAdmin_takes ht hop, h]
  rfl

/-- A command that its function refuses completes with the status and changes nothing. -/
theorem runAdmin_error {f : List Byte → Dev → Except Nat (Nat × Dev)} {st : Nat} (h : f l s.dev = .error st) :
    runAdmin n op (fun l d => concludeAdmin n (f l d) d) s = Safety.adminNext n st 0 s.dev s := by
  rw [runAdmin_takes ht hop, h]
  rfl

end Command

/-- A command that is accepted waits, or completes at once. -/
theorem sent_holdFor {n : Nat} {x : Head} {d : Dev} (hh : (adminAt n d).head = some x) (w : AdminWait) (s : State) :
    Safety.sent (holdFor n w d) s = Safety.adminHolds n w d s := by
  simp only [Safety.sent, Safety.adminHolds, holdFor, adminWaitEnd, (holdAdmin_leaves hh w).2.2, Option.bind_some]
  generalize holdAdmin n w d = e
  cases adminOver w e with
  | some r => rfl
  | none => rfl

/-! ## CTX_DESTROY (R186) -/

/-- In a table in canonical form a change of the value under a key enters the changed value. -/
theorem Tab.modify_eq_set {α : Type} {t : Tab α} (h : Tab.wf t = true) {k : Nat} {v : α} (hv : Tab.get t k = some v) (f : α → α) :
    Tab.modify t k f = Tab.set t k (f v) := by
  rw [Tab.wf_iff] at h
  induction t with
  | nil => cases hv
  | cons p t ih =>
    obtain ⟨a, w⟩ := p
    obtain ⟨hfirst, hrest⟩ := List.pairwise_cons.mp h
    rcases Nat.lt_trichotomy a k with hlt | rfl | hgt
    · have hget : Tab.get t k = some v := by simpa [Tab.get, hlt.ne] using hv
      simpa [Tab.modify, Tab.set, hlt, hlt.ne] using ih hrest hget
    · obtain rfl : w = v := by simpa [Tab.get] using hv
      have hlater : Tab.modify t a f = t := by
        refine (List.map_congr_left fun p hp => if_neg ?_).trans (List.map_id _)
        exact (hfirst p hp).ne'
      simpa [Tab.modify, Tab.set] using hlater
    · have hmem := Tab.mem_of_get (show Tab.get t k = some v by simpa [Tab.get, hgt.ne'] using hv)
      exact absurd (hfirst _ hmem) (by simp only; omega)

/-- What a context is that an instance holds. -/
theorem get_of_ctxHeld {n c : Nat} {x : Ctx} {d : Dev} (h : ctxHeld n c d = some x) : Tab.get d.xl.ctxs c = some x := by
  unfold ctxHeld at h
  split at h
  · next y hy =>
    rw [Option.ite_none_right_eq_some] at h
    rwa [← Option.some.inj h.2]
  · cases h

/-- Where no fault is on a context, none fails with it. -/
theorem failFaultsOf_none {c : Nat} {d : Dev} (h : ∀ f ∈ d.xl.faults, f.2.ctx ≠ c) : failFaultsOf c d = d := by
  have hnone : Tab.keep d.xl.faults (fun _ f => f.ctx == c) = [] := Tab.keep_eq_nil fun p hp => beq_eq_false_iff_ne.mpr (h p hp)
  simp only [failFaultsOf, hnone, List.map_nil, each, List.foldl_nil]

/-- CTX_DESTROY of a context that its instance holds and on which no fault is, where the contexts stand in canonical form. -/
theorem ctxDestroy_of_wf {s : State} {n : Nat} {l : List Byte} {x : Ctx} (hwf : Tab.wf s.dev.xl.ctxs = true) (ht : Safety.AdminTakes n 0xA2 l s)
    (hz : adminZeros l [(8, 9)] = true) (hx : ctxHeld n (fieldLE l 8 2) s.dev = some x) (hf : ∀ f ∈ s.dev.xl.faults, f.2.ctx ≠ fieldLE l 8 2) :
    exec (.ctxDestroy n) s = Safety.adminHolds n (.ctxDestroy (fieldLE l 8 2)) (failFaultsOf (fieldLE l 8 2)
      { s.dev with xl := { s.dev.xl with ctxs := Tab.set s.dev.xl.ctxs (fieldLE l 8 2) { x with dying := true } } }) s := by
  obtain ⟨y, hh, -⟩ := adminHead_eq_some ht.2.2
  have hmod := Tab.modify_eq_set hwf (get_of_ctxHeld hx) fun x => { x with dying := true }
  refine (runAdmin_takes ht rfl (ctxDestroy n)).trans (Eq.trans ?_ (sent_holdFor (x := y) ?_ ..))
  · simp only [ctxDestroy, hz, hx, hmod, Option.isNone_some, Bool.not_true, Bool.false_eq_true, if_false]
  · let e := { s.dev with xl := { s.dev.xl with ctxs := Tab.set s.dev.xl.ctxs (fieldLE l 8 2) { x with dying := true } } }
    exact (congrArg (fun d => (adminAt n d).head) (failFaultsOf_none (d := e) hf)).trans hh

/-! ## A table that holds one context twice -/

/-- A context of instance 0 without a segment and a page table. -/
def bareCtx : Ctx := { inst := 0, root := 0, limit := 0, mode := 0, segs := [], dying := false }

/-- An admitted DEVICE_TO_HOST descriptor. -/
def admittedDma : Desc :=
  { idx := 0, op := 0x31, bytes := [], tile := none, expiry := 1000, devUs := 10, since := 0, gen := 7, dUs := 0, count := none, toHost := false,
    table := [], pins := [], chans := [], spoilt := false, era := 0, done := none }

/-- A queue of context 1, with that descriptor. -/
def dmaQueue : WQ :=
  { inst := 0, cr := 3, log2 := 6, cls := 0, refuse := false, delay := 10, feed := 0, page := 2, loc := 0, ring := 0x10000, lda := 0, ctx := 1,
    domain := 0, leaf := 0, prodCtr := 0, p := 1, c := 1, state := 0, head := none, reading := false, stalled := true, tiles := [],
    flight := [admittedDma], firstErr := 0, win := 65536, winAcked := 0, winCut := false, detached := false, again := false, errIdx := 0, errAt := 0,
    muted := false }

/-- The bytes of a CTX_DESTROY of context 1. -/
def destroyOne : List Byte := [0xA2, 0, 0, 0, 0, 0, 0, 0, 1] ++ List.replicate 54 0 ++ [0x80]

/-- The module at READY over an open link, with instance 0 ACTIVE at generation 7, context 1 entered twice, a descriptor that uses it, and a
CTX_DESTROY of it at the head of the admin queue. -/
def ctxTwice : State :=
  { State.reset with
    dev := setW .adminCtrl 0 0 (2 ^ 31 + 6 * 2 ^ 16 + 6 * 2 ^ 12) { Dev.reset with
      start := { Startup.reset with ready := true }
      link := { Link.reset with up := true }
      insts := [(0, { state := 1, gen := 7, lastGen := 7, bricks := [0], node := 1, leaf0 := 0, leaves := 64, shareDue := false, started := 0 })]
      xl := { Xlate.reset with ctxs := [(1, bareCtx), (1, bareCtx)] }
      q := { Queues.reset with
        wqs := [(9, dmaQueue)]
        admin := [(0, { p := 1, c := 0, head := some (mkHead iodie 0 destroyOne none none Dev.reset), reading := false, stalled := true, again := false,
                        wait := none, mute := false, opWait := 0, idxWait := 0, wr := 0, ret := 0, written := 0, notices := [], detached := false })] } } }

/-- The contexts that an outcome leaves. -/
def ctxsAfter (o : Host.Outcome State Fault Refusal) : Tab Ctx :=
  match o with
  | .next t => t.dev.xl.ctxs
  | _ => []

/-- The command marks both entries under the context's number. -/
theorem ctxsAfter_ctxTwice : ctxsAfter (exec (.ctxDestroy 0) ctxTwice) = [(1, { bareCtx with dying := true }), (1, { bareCtx with dying := true })] := by
  decide +kernel

theorem adminTakes_ctxTwice : Safety.AdminTakes 0 0xA2 destroyOne ctxTwice := ⟨by decide +kernel, by decide +kernel, by decide +kernel⟩

/-- Refutes O28: the statement is of every table of contexts, and in one that holds a context twice, which is not in the canonical form `Tab.wf`,
CTX_DESTROY marks both entries, while the statement says that it enters the marked context under its number, which changes the first alone. Where the
contexts stand in canonical form the command does what the statement says (`ctxDestroy_of_wf`). -/
theorem not_adminQueueAndContexts : ¬ Obligations.AdminQueueAndContexts := by
  rintro ⟨-, hcmds⟩
  obtain ⟨-, -, hdestroy, -⟩ := hcmds ctxTwice 0 destroyOne
  have h := (hdestroy adminTakes_ctxTwice (by decide +kernel)).2 bareCtx (by decide +kernel)
  have hctxs := congrArg ctxsAfter h
  rw [ctxsAfter_ctxTwice] at hctxs
  exact absurd hctxs (by decide +kernel)

end Sys2Proof.Machine
end

section
/-! SUPPORT. An aperture access that is refused (R383): the device on which it is counted twice, on which O51 fails. -/

namespace Sys2Proof.Machine

/-- The number of a frame past the module's memory whose site, 212,860, has no error register of its own: the place of that site in the table of
DDR5_ERR is the address of HOST_ERRORS. -/
def farFrame : Nat := 16384 + 4096 * 212860

/-- The module over an open link with an aperture of function 0 onto context 1, whose page table stands in the frame `farFrame`, the first codeword of
which has one bad symbol. -/
def farTable : State :=
  { State.reset with
    dev := setW .memwinCtrl 0 0 (2 ^ 31 + 1) { Dev.reset with
      link := { Link.reset with up := true }
      insts := [(0, { state := 1, gen := 7, lastGen := 7, bricks := [0], node := 1, leaf0 := 0, leaves := 64, shareDue := false, started := 0 })]
      tiers := { Tiers.reset with soft := [(.dev (farFrame * 2 ^ 26), 0, 0)] }
      xl := { Xlate.reset with
        ctxs := [(1, { bareCtx with root := 2 ^ 26 })]
        lfns := [(1, { inst := 0, pfn := farFrame, table := true, fixed := true, run := none, keep := false, count := 0, dying := false })] } } }

/-- The refused accesses that HOST_ERRORS counts after an outcome. -/
def refusedAfter (o : Host.Outcome State Fault Refusal) : Option Nat :=
  match o with
  | .next t => some (getF .hostErrors 0 0 7 0 t.dev)
  | _ => none

/-- Nothing is mapped at the aperture's first byte, so that a read of it is refused. -/
theorem apertureMap_farTable : apertureMap 0 0 8 .read farTable.dev = (walked 1 0 (.aperture 0) farTable.dev, none) := by
  have hmap : mapRange 1 0 8 .read (.aperture 0) farTable.dev = .error (.notMapped 1, 0) := by decide +kernel
  have hap : aperture 0 0 farTable.dev = some (1, 0) := by decide +kernel
  simp [apertureMap, hap, hmap]

/-- The register that counts the corrected entry is the one that counts the refused access, so that one read counts two. -/
theorem refusedAfter_farTable : refusedAfter (exec (.apertureRead 0 0 8) farTable) = some 2 := by decide +kernel

/-- Refutes O51: the statement is of every frame map, and in one with a frame past the module's memory the entry that the refused access walks over is
corrected and counted at an address past the table of DDR5_ERR, which is that of HOST_ERRORS: one refused read counts two. The frames that exist are
below 49,152, whose sites have registers of their own. -/
theorem not_hostTransfers : ¬ Obligations.HostTransfers := by
  rintro ⟨-, -, -, -, haperture⟩
  obtain ⟨hread, -⟩ := haperture farTable 0 0 (by decide +kernel) (by decide +kernel)
  obtain ⟨t, hexec, -, hcount, -⟩ := hread 8 _ apertureMap_farTable
  have htwo : some (getF .hostErrors 0 0 7 0 t.dev) = some 2 := by simpa [hexec, refusedAfter] using refusedAfter_farTable
  have hzero : getF .hostErrors 0 0 7 0 farTable.dev = 0 := by decide +kernel
  rw [hcount, hzero] at htwo
  exact absurd htwo (by decide)

end Sys2Proof.Machine
end

section
/-! SUPPORT. What leaves the queues' records alone (R206, R252, R331, R361): a message, a packet or a grant changes no queue, and the work queues,
their rings and their counters change no admin queue (R222). -/

namespace Sys2Proof.Machine

/-! ## Grants, waits, frames and messages change no queue -/

theorem each_q {α : Type} {f : α → Dev → Dev} (h : ∀ x d, (f x d).q = d.q) (l : List α) (d : Dev) : (each l f d).q = d.q :=
  List.foldlRecOn (motive := fun a : Dev => a.q = d.q) _ _ rfl fun _ ha x _ => (h x _).trans ha

theorem when_q {f : Dev → Dev} (h : ∀ d, (f d).q = d.q) (c : Bool) (d : Dev) : (when_ c f d).q = d.q := by
  unfold when_
  split
  · exact h d
  · rfl

@[simp] theorem returnGrant_q (u : UnitId) (d : Dev) : (returnGrant u d).q = d.q := (LedgerOnly.returnGrant u d).q

@[simp] theorem leaveFaults_q (f : Waiter → Bool) (d : Dev) : (leaveFaults f d).q = d.q := rfl

@[simp] theorem updPort_q (p : Nat) (f : Port → Port) (d : Dev) : (updPort p f d).q = d.q := rfl

@[simp] theorem updPes_q (i : Nat) (f : Pesyn → Pesyn) (d : Dev) : (updPes i f d).q = d.q := rfl

@[simp] theorem updComm_q (c : Nat) (f : Comm → Comm) (d : Dev) : (updComm c f d).q = d.q := rfl

@[simp] theorem dropPort_q (i tag : Nat) (d : Dev) : (dropPort i tag d).q = d.q := rfl

@[simp] theorem sendFrame_q (i : Nat) (f : Frame) (d : Dev) : (sendFrame i f d).q = d.q := by
  unfold sendFrame placeFrame enterPort enterLeaf
  dsimp only
  (repeat' split) <;> simp

@[simp] theorem withdraw_q (f : Frame → Bool) (d : Dev) : (withdraw f d).q = d.q := by
  rw [NetOnly.withdraw f d]

@[simp] theorem endMsg_q (i seq : Nat) (d : Dev) : (endMsg i seq d).q = d.q := by
  unfold endMsg
  split <;> simp [takeBack]

@[simp] theorem endMsgs_q (f : Msg → Bool) (d : Dev) : (endMsgs f d).q = d.q := each_q (fun _ _ => each_q (fun _ _ => endMsg_q ..) _ _) _ _

@[simp] theorem closeReads_q (f : Nat × Nat → Bool) (d : Dev) : (closeReads f d).q = d.q := rfl

@[simp] theorem takeCount_q (i : Nat) (d : Dev) : (takeCount i d).2.q = d.q := by
  unfold takeCount
  dsimp only
  split <;> rfl

@[simp] theorem regrant_q (r : Nat) (d : Dev) : (regrant r d).q = d.q := by
  unfold regrant when_
  dsimp only
  (repeat' split) <;> simp

@[simp] theorem wantCipher_q (i : Nat) (d : Dev) : (wantCipher i d).q = d.q := by
  unfold wantCipher wantGrant requestGrant
  (repeat' split) <;> simp

@[simp] theorem encrypt_q (i cipher : Nat) (p : Packet) (d : Dev) : (encrypt i cipher p d).2.q = d.q := by
  unfold encrypt
  (repeat' split) <;> simp

@[simp] theorem route_q (p : Packet) (leaf : Nat) (queue inst : Option Nat) (d : Dev) : (route p leaf queue inst d).q = d.q := by
  unfold route
  split <;> simp

@[simp] theorem sendMsgPacket_q (i : Nat) (m : Msg) (typ : Nat) (retx : Bool) (tf payload : List Byte) (d : Dev) :
    (sendMsgPacket i m typ retx tf payload d).1.q = d.q := by
  unfold sendMsgPacket
  dsimp only
  split
  · exact encrypt_q ..
  · exact (when_q (fun _ => countF_q ..) _ _).trans (by simp)

@[simp] theorem addMsg_q (i : Nat) (m : Msg) (d : Dev) : (addMsg i m d).q = d.q := rfl

@[simp] theorem takeSeq_q (i : Nat) (d : Dev) : (takeSeq i d).2.q = d.q := rfl

@[simp] theorem retireMsg_q (i seq : Nat) (d : Dev) : (retireMsg i seq d).q = d.q := by
  unfold retireMsg
  split <;> rfl

@[simp] theorem sendCtrl_q (i : Nat) (x : Comm) (k : Coll) (rank : Nat) (owner : MsgOwner) (epoch : Nat) (payload : List Byte) (d : Dev) :
    (sendCtrl i x k rank owner epoch payload d).1.q = d.q := by
  unfold sendCtrl
  dsimp only
  split <;> simp

@[simp] theorem sendSeals_q (c : Nat) (x : Comm) (k : Coll) (status redone : Nat) (d : Dev) : (sendSeals c x k status redone d).1.q = d.q := by
  have each : ∀ {f : Nat → Dev → Dev × Bool}, (∀ r d, (f r d).1.q = d.q) → ∀ (l : List Nat) (d : Dev), (sendEach f l d).1.q = d.q := by
    intro f h l
    induction l with
    | nil => exact fun _ => rfl
    | cons r l ih => exact fun d => (ih _).trans (h r d)
  exact each (fun _ _ => sendCtrl_q ..) _ _

/-! ## Work queues, counters and rings change no admin queue -/

theorem each_admin {α : Type} {f : α → Dev → Dev} (h : ∀ x d, (f x d).q.admin = d.q.admin) (l : List α) (d : Dev) : (each l f d).q.admin = d.q.admin :=
  List.foldlRecOn (motive := fun a : Dev => a.q.admin = d.q.admin) _ _ rfl fun _ ha x _ => (h x _).trans ha

@[simp] theorem updWq_admin (q : Nat) (f : WQ → WQ) (d : Dev) : (updWq q f d).q.admin = d.q.admin := rfl

@[simp] theorem updCr_admin (r : Nat) (f : CR → CR) (d : Dev) : (updCr r f d).q.admin = d.q.admin := rfl

@[simp] theorem tryRead_admin (q : Nat) (d : Dev) : (tryRead q d).q.admin = d.q.admin := by
  unfold tryRead takeCopy
  (repeat' split) <;> simp

@[simp] theorem setProducer_admin (q p : Nat) (d : Dev) : (setProducer q p d).q.admin = d.q.admin := by
  unfold setProducer
  (repeat' split) <;> simp

@[simp] theorem ringWrite_any_q (inst loc a : Nat) (l : List Byte) (d : Dev) : (ringWrite inst loc a l d).q = d.q := by
  by_cases h : loc = 0
  · rw [ringWrite, if_pos h, hostWrite_q]
  · exact ringWrite_q h ..

@[simp] theorem consume_admin (q : Nat) (d : Dev) : (consume q d).q.admin = d.q.admin := by
  unfold consume
  dsimp only
  (repeat' split) <;> simp

@[simp] theorem setCounter_admin (idx v : Nat) (d : Dev) : (setCounter idx v d).q.admin = d.q.admin := by
  unfold setCounter
  refine (each_admin (fun q d => setProducer_admin ..) _ _).trans ?_
  (repeat' split) <;> simp

@[simp] theorem raiseVector_q (fn v : Nat) (d : Dev) : (raiseVector fn v d).q = d.q := by
  rw [LinkOnly.raiseVector fn v d]

@[simp] theorem thenCount_admin (count : Option (Nat × Nat × Nat)) (d : Dev) : (thenCount count d).q.admin = d.q.admin := by
  unfold thenCount addCounter
  (repeat' split) <;> simp

@[simp] theorem moderate_admin (r : Nat) (d : Dev) : (moderate r d).q.admin = d.q.admin := by
  unfold moderate notify
  (repeat' split) <;> simp

@[simp] theorem writeEntry_admin (r : Nat) (e : Entry) (count : Option (Nat × Nat × Nat)) (d : Dev) : (writeEntry r e count d).q.admin = d.q.admin := by
  unfold writeEntry entryNowhere entrySeen
  (repeat' split) <;> simp

@[simp] theorem drain_admin (q n : Nat) (d : Dev) : (drain q n d).q.admin = d.q.admin := by
  fun_induction drain q n d <;> simp [*]

@[simp] theorem finish_admin (q idx : Nat) (e : Entry) (d : Dev) : (finish q idx e d).q.admin = d.q.admin := by simp [finish, drainAll]

@[simp] theorem completeHead_admin (q status result bytes detail : Nat) (d : Dev) : (completeHead q status result bytes detail d).q.admin = d.q.admin := by
  unfold completeHead
  (repeat' split) <;> simp [drainAll, tileEnds]

@[simp] theorem finishDesc_admin (q idx status result bytes detail : Nat) (d : Dev) : (finishDesc q idx status result bytes detail d).q.admin = d.q.admin := by
  unfold finishDesc finishNow sendFlush
  (repeat' split) <;> simp [tileEnds]

/-! ## A head that is dropped (R226) -/

@[simp] theorem stopPart_admin (c status rank : Nat) (reported : Bool) (d : Dev) : (stopPart c status rank reported d).q.admin = d.q.admin := by
  have hports : ∀ (l : List Nat) (e : Dev), (each l (fun n => dropPort (n % 2) (mkTag d.addr.node n)) e).q = e.q := each_q fun _ _ => dropPort_q ..
  have hgrants : ∀ (l : List UnitId) (e : Dev), (each l returnGrant e).q = e.q := each_q returnGrant_q
  unfold stopPart
  split
  · rfl
  · split
    · rfl
    · dsimp only
      split <;> simp only [finishDesc_admin, completeHead_admin, hports, hgrants, updComm_q] <;> split <;> simp

@[simp] theorem endPart_admin (c status rank : Nat) (reported : Bool) (d : Dev) : (endPart c status rank reported d).q.admin = d.q.admin := by
  unfold endPart
  dsimp only
  split
  · unfold when_
    split
    · exact (each_admin (fun _ _ => completeHead_admin ..) _ _).trans (stopPart_admin ..)
    · exact stopPart_admin ..
  · exact stopPart_admin ..

@[simp] theorem dropHead_admin (q : Nat) (d : Dev) : (dropHead q d).q.admin = d.q.admin := by
  unfold dropHead freeSlot
  dsimp only
  (repeat' split) <;> simp

end Sys2Proof.Machine
end

section
/-! SUPPORT. The admin commands of work queues (R206, R221, R224 to R226, R537), and the destruction of a queue that has no head. -/

namespace Sys2Proof.Machine

/-! ## What each command answers -/

section Answers

variable {n lda : Nat} {l : List Byte} {d : Dev}

/-- A queue past its instance's quota is refused. -/
theorem wqCreate_past_quota (hl : wqLimits l = true) (hn : wqNames n l d = .ok lda) (hq : quotaMax 2 (getF .queueQuota n 0 31 15 d) d ≤ wqsHeld n d) :
    wqCreate n l d = .error 0xE := by
  simp [wqCreate, hl, hn, hq]

/-- A new queue takes the lowest free number. -/
theorem wqCreate_made (hl : wqLimits l = true) (hn : wqNames n l d = .ok lda) (hq : wqsHeld n d < quotaMax 2 (getF .queueQuota n 0 31 15 d) d)
    (hp : d.q.wqs.length < poolMax 0 65536 d) {k : Nat} (hk : Tab.lowestFree d.q.wqs 0 65536 = some k) (hf : ¬(k = 0xFFFF ∧ fieldLE l 13 1 = 2)) :
    wqCreate n l d = .ok (k, { d with q := { d.q with wqs := Tab.set d.q.wqs k (freshWq n l lda d) } }) := by
  simp [wqCreate, hl, hn, Nat.not_le.mpr hq, Nat.not_le.mpr hp, hk, hf]

/-- A WQ_MODIFY whose bytes are well formed. -/
structure ModifyOk (l : List Byte) : Prop where
  zeros : adminZeros l [(8, 35)] = true
  sel : fieldLE l 10 1 < 16
  cls : bitOf (fieldLE l 10 1) 0 = true → fieldLE l 11 1 < 8
  refuse : bitOf (fieldLE l 10 1) 1 = true → fieldLE l 12 1 < 2

theorem ModifyOk.pass (h : ModifyOk l) : (!adminZeros l [(8, 35)] || 16 ≤ fieldLE l 10 1 || (bitOf (fieldLE l 10 1) 0 && 8 ≤ fieldLE l 11 1) ||
    (bitOf (fieldLE l 10 1) 1 && 2 ≤ fieldLE l 12 1) : Bool) = false := by
  obtain ⟨hz, hs, hc, hr⟩ := h
  simpa [hz, hs] using And.intro hc hr

theorem wqModify_not_held (h : ModifyOk l) (hw : wqHeld n (fieldLE l 8 2) d = none) : wqModify n l d = .error 3 := by
  simp only [wqModify, h.pass, hw, Bool.false_eq_true, if_false]

/-- What WQ_MODIFY makes of a queue. -/
def modified (l : List Byte) (w : WQ) : WQ :=
  { w with
    cls := if bitOf (fieldLE l 10 1) 0 then fieldLE l 11 1 else w.cls
    refuse := if bitOf (fieldLE l 10 1) 1 then bitOf (fieldLE l 12 1) 0 else w.refuse
    delay := if bitOf (fieldLE l 10 1) 1 then fieldLE l 26 2 else w.delay
    leaf := if bitOf (fieldLE l 10 1) 3 then fieldLE l 30 2 else w.leaf
    state := if bitOf (fieldLE l 10 1) 2 then 0 else w.state
    firstErr := if bitOf (fieldLE l 10 1) 2 then 0 else w.firstErr }

/-- A queue that recovers does so from ERROR, on a ring that is not detached and with nothing admitted. -/
theorem wqModify_held (h : ModifyOk l) {w : WQ} (hw : wqHeld n (fieldLE l 8 2) d = some w) (hs : w.state ≠ 2)
    (hleaf : bitOf (fieldLE l 10 1) 3 = true → leafStatus n (fieldLE l 30 2) d = .ok ())
    (hrec : bitOf (fieldLE l 10 1) 2 = true → w.state = 1 ∧ w.detached = false ∧ w.flight = []) :
    wqModify n l d = .ok (0, when_ (bitOf (fieldLE l 10 1) 2) (tryRead (fieldLE l 8 2)) (updWq (fieldLE l 8 2) (modified l) d)) := by
  have hleaf' : (if bitOf (fieldLE l 10 1) 3 then leafStatus n (fieldLE l 30 2) d else .ok ()) = .ok () := ite_eq_right_iff.mpr hleaf
  have hrec' : (w.state = 2 || (bitOf (fieldLE l 10 1) 2 && (w.state != 1 || w.detached || !w.flight.isEmpty)) : Bool) = false := by
    cases hb : bitOf (fieldLE l 10 1) 2 with
    | false => simpa using hs
    | true =>
      obtain ⟨h1, hd, hf⟩ := hrec hb
      simp [h1, hd, hf]
  simp only [wqModify, h.pass, hw, hleaf', hrec', Bool.false_eq_true, if_false]
  rfl

theorem wqQuery_held (hz : adminZeros l [(8, 9)] = true) {w : WQ} (hw : wqHeld n (fieldLE l 8 2) d = some w) :
    wqQuery n l d = .ok (w.ix w.c + 65536 * w.state, d) := by
  simp only [wqQuery, hz, hw, Bool.not_true, Bool.false_eq_true, if_false]

theorem wqQuery_not_held (hz : adminZeros l [(8, 9)] = true) (hw : wqHeld n (fieldLE l 8 2) d = none) : wqQuery n l d = .error 3 := by
  simp only [wqQuery, hz, hw, Bool.not_true, Bool.false_eq_true, if_false]

/-! ## WQ_DESTROY (R226) -/

theorem wqDestroy_not_held (hz : adminZeros l [(8, 9)] = true) (hw : wqHeld n (fieldLE l 8 2) d = none) : wqDestroy n l d = completeAdmin n 3 0 d := by
  simp only [wqDestroy, hz, hw, Bool.not_true, Bool.false_eq_true, if_false]

section Held

variable (hz : adminZeros l [(8, 9)] = true) {w : WQ} (hw : wqHeld n (fieldLE l 8 2) d = some w)
include hz hw

theorem wqDestroy_again (hs : w.state = 2) : wqDestroy n l d = completeAdmin n 0xE 0 d := by
  simp only [wqDestroy, hz, hw, hs, Bool.not_true, Bool.false_eq_true, if_false, if_true]

/-- What a queue is when its destruction begins. -/
def WQ.ended (w : WQ) : WQ := { w with state := 2, muted := w.state == 1, tiles := [], reading := false }

theorem wqDestroy_begins (hs : w.state ≠ 2) : wqDestroy n l d = holdFor n (.wqDestroy (fieldLE l 8 2) w.waiting)
    (updWq (fieldLE l 8 2) WQ.ended (dropEntryRead (fieldLE l 8 2) (dropHead (fieldLE l 8 2) d))) := by
  simp only [wqDestroy, hz, hw, hs, Bool.not_true, Bool.false_eq_true, if_false]
  rfl

end Held

end Answers

/-! ## A queue without a head is destroyed -/

theorem wqAt_of_wqHeld {n q : Nat} {d : Dev} {w : WQ} (h : wqHeld n q d = some w) : wqAt q d = some w := by
  obtain ⟨x, hx, hi⟩ := Option.bind_eq_some_iff.mp h
  rw [Option.ite_none_right_eq_some] at hi
  rwa [← Option.some.inj hi.2]

theorem dropHead_none {q : Nat} {d : Dev} {w : WQ} (hw : wqAt q d = some w) (hh : w.head = none) : dropHead q d = d := by
  simp only [dropHead, hw, hh]

/-- The entries that wait in a queue without a head lie between C and P. -/
theorem waiting_of_headless {w : WQ} (hh : w.head = none) :
    w.waiting = if w.feed = 2 then w.tiles.length else (w.p + 2 ^ w.log2 - w.c % 2 ^ w.log2) % 2 ^ w.log2 := by
  simp only [WQ.waiting, hh, Option.isSome_none, Bool.and_false, Bool.false_eq_true, if_false, Nat.add_zero]
  split
  · rfl
  · next hf => rw [WQ.ix, if_neg hf]

/-- A change of the link, of what is sent out, of the ledger and of the admin queues' records, with queue `q` as `f` says and every other queue as it
was. -/
structure QueueTo (q : Nat) (f : Option WQ) (d e : Dev) : Prop where
  self : wqAt q e = f
  other : ∀ k, k ≠ q → wqAt k e = wqAt k d
  crs : e.q.crs = d.q.crs
  tiers : e.tiers = d.tiers

theorem QueueTo.admin {q : Nat} {f : Option WQ} {d e g : Dev} (h : QueueTo q f d e) (ha : AdminOnly e g) : QueueTo q f d g := by
  obtain ⟨hself, hother, hcrs, htiers⟩ := h
  rw [ha]
  exact ⟨hself, hother, hcrs, htiers⟩

theorem QueueTo.ledger {q : Nat} {f : Option WQ} {d e g : Dev} (h : QueueTo q f d e) (ha : LedgerOnly e g) : QueueTo q f d g := by
  obtain ⟨hself, hother, hcrs, htiers⟩ := h
  rw [ha]
  exact ⟨hself, hother, hcrs, htiers⟩

/-- A destroyed queue is gone. -/
theorem QueueTo.erase {q : Nat} {f : Option WQ} {d e : Dev} (h : QueueTo q f d e) :
    QueueTo q none d { e with q := { e.q with wqs := Tab.erase e.q.wqs q } } := by
  obtain ⟨-, hother, hcrs, htiers⟩ := h
  exact ⟨Tab.get_erase_self .., fun k hk => (Tab.get_erase_other _ hk).trans (hother k hk), hcrs, htiers⟩

/-- A command that has something to wait for only waits. -/
theorem holdFor_waits {n : Nat} {x : Head} {d : Dev} (hh : (adminAt n d).head = some x) {w : AdminWait} (ho : adminOver w (holdAdmin n w d) = none) :
    holdFor n w d = holdAdmin n w d := by
  simp only [holdFor, adminWaitEnd, (holdAdmin_leaves hh w).2.2, Option.bind_some, ho]

section Destroy

variable {s : State} {n q k : Nat} {x : Head} {w : WQ} {d : Dev} (hto : QueueTo q (some w) s.dev d)
  (hloop : ∀ p ∈ d.pes, p.loop = []) (hdmas : d.link.dmas = []) (hh : (adminAt n d).head = some x)
include hto hloop hdmas hh

/-- The destruction of a queue with nothing admitted is over at once, and the queue is gone (R226). -/
theorem destroyed_at_once (hf : w.flight = []) :
    QueueTo q none s.dev (localPath (holdFor n (.wqDestroy q k) d)) ∧ (adminAt n (localPath (holdFor n (.wqDestroy q k) d))).wait = none := by
  obtain ⟨honly, hhdmas, hwait⟩ := holdAdmin_leaves hh (.wqDestroy q k)
  have hheld := hto.admin honly
  have hover : adminOver (.wqDestroy q k) (holdAdmin n (.wqDestroy q k) d) = some (k, { holdAdmin n (.wqDestroy q k) d with
      q := { (holdAdmin n (.wqDestroy q k) d).q with wqs := Tab.erase (holdAdmin n (.wqDestroy q k) d).q.wqs q } }) := by
    simp only [adminOver, hheld.self, hf, List.isEmpty_nil, if_true]
  rw [holdFor_over hh _ hover]
  have hgone := hheld.erase
  generalize he : ({ holdAdmin n (.wqDestroy q k) d with
    q := { (holdAdmin n (.wqDestroy q k) d).q with wqs := Tab.erase (holdAdmin n (.wqDestroy q k) d).q.wqs q } } : Dev) = e at hgone ⊢
  have hstep := endAdminWait_step (n := n) (w := .wqDestroy q k) (d := e) (by rw [← he]; exact hwait) 0 k
  generalize endAdminWait n 0 k e = g at hstep ⊢
  have hpes : g.pes = d.pes := by rw [hstep.only.pes, updAdmin_pes, ← he, honly.pes]
  have hlink : g.link.dmas = [] := by rw [hstep.dmas, updAdmin_link, ← he, hhdmas, hdmas]
  have hpath : LedgerOnly g (localPath g) := .localPath (by rwa [hpes]) hlink
  refine ⟨((hgone.admin (.updAdmin ..)).admin hstep.only).ledger hpath, ?_⟩
  rw [adminAt_congr hpath.q, hstep.wait, adminAt_updAdmin]
  rfl

/-- While a descriptor is admitted the destruction waits for it (R226). -/
theorem destruction_waits (hf : w.flight ≠ []) :
    QueueTo q (some w) s.dev (localPath (holdFor n (.wqDestroy q k) d)) ∧
      (adminAt n (localPath (holdFor n (.wqDestroy q k) d))).wait = some (.wqDestroy q k) := by
  obtain ⟨honly, hhdmas, hwait⟩ := holdAdmin_leaves hh (.wqDestroy q k)
  have hheld := hto.admin honly
  have hover : adminOver (.wqDestroy q k) (holdAdmin n (.wqDestroy q k) d) = none := by
    simp only [adminOver, hheld.self, List.isEmpty_iff, hf, if_false]
  rw [holdFor_waits hh hover]
  generalize holdAdmin n (.wqDestroy q k) d = g at honly hhdmas hwait hheld ⊢
  have hpath : LedgerOnly g (localPath g) := .localPath (by rwa [honly.pes]) (hhdmas.trans hdmas)
  exact ⟨hheld.ledger hpath, by rw [adminAt_congr hpath.q, hwait]⟩

end Destroy

/-! ## The obligation -/

section Commands

variable {s : State} {n : Nat} {l : List Byte}

/-- WQ_CREATE within and past the quota. -/
theorem wq_created (ht : Safety.AdminTakes n 0x80 l s) (hl : wqLimits l = true) {lda : Nat} (hn : wqNames n l s.dev = .ok lda) :
    (quotaMax 2 (getF .queueQuota n 0 31 15 s.dev) s.dev ≤ wqsHeld n s.dev → exec (.wqCreate n) s = Safety.adminNext n 0xE 0 s.dev s) ∧
    (wqsHeld n s.dev < quotaMax 2 (getF .queueQuota n 0 31 15 s.dev) s.dev → s.dev.q.wqs.length < poolMax 0 65536 s.dev →
      ∀ k, Tab.lowestFree s.dev.q.wqs 0 65536 = some k → ¬(k = 0xFFFF ∧ fieldLE l 13 1 = 2) →
        exec (.wqCreate n) s =
          Safety.adminNext n 0 k { s.dev with q := { s.dev.q with wqs := Tab.set s.dev.q.wqs k (freshWq n l lda s.dev) } } s) :=
  ⟨fun hq => runAdmin_error ht rfl (f := wqCreate n) (wqCreate_past_quota hl hn hq),
    fun hq hp _ hk hf => runAdmin_ok ht rfl (f := wqCreate n) (wqCreate_made hl hn hq hp hk hf)⟩

section Destruction

variable (ht : Safety.AdminTakes n 0x82 l s) (hz : adminZeros l [(8, 9)] = true) {w : WQ} (hw : wqHeld n (fieldLE l 8 2) s.dev = some w)
  (hs : w.state ≠ 2)
include ht hz hw hs

/-- WQ_DESTROY of a queue that is not being destroyed. -/
theorem wq_destroyed : exec (.wqDestroy n) s = Safety.adminHolds n (.wqDestroy (fieldLE l 8 2) w.waiting)
    (updWq (fieldLE l 8 2) WQ.ended (dropEntryRead (fieldLE l 8 2) (dropHead (fieldLE l 8 2) s.dev))) s := by
  obtain ⟨x, hh, -⟩ := adminHead_eq_some ht.2.2
  refine (runAdmin_takes ht rfl (wqDestroy n)).trans ?_
  rw [wqDestroy_begins hz hw hs]
  refine sent_holdFor (x := x) ?_ _ s
  have hadmin : ∀ e : Dev, e.q.admin = s.dev.q.admin → (adminAt n e).head = some x := fun e he => by rw [adminAt, he, ← adminAt, hh]
  exact hadmin _ (dropHead_admin ..)

/-- WQ_DESTROY of a queue without a head, with nothing on the local path. -/
theorem wq_destroyed_headless (hq : Safety.Quiet s.dev) (hh : w.head = none) :
    ∃ t, exec (.wqDestroy n) s = .next t ∧
      (w.flight = [] → wqAt (fieldLE l 8 2) t.dev = none ∧ (adminAt n t.dev).wait = none) ∧
      (w.flight ≠ [] → wqAt (fieldLE l 8 2) t.dev = some w.ended ∧ (adminAt n t.dev).wait = some (.wqDestroy (fieldLE l 8 2) w.waiting)) ∧
      (∀ k, k ≠ fieldLE l 8 2 → wqAt k t.dev = wqAt k s.dev) ∧ t.dev.q.crs = s.dev.q.crs ∧ t.dev.tiers = s.dev.tiers := by
  obtain ⟨x, hx, -⟩ := adminHead_eq_some ht.2.2
  obtain ⟨hloop, hdmas, -⟩ := hq
  have hwq := wqAt_of_wqHeld hw
  have hexec := runAdmin_takes ht rfl (wqDestroy n)
  rw [wqDestroy_begins hz hw hs, dropHead_none hwq hh] at hexec
  have hto : QueueTo (fieldLE l 8 2) (some w.ended) s.dev (updWq (fieldLE l 8 2) WQ.ended (dropEntryRead (fieldLE l 8 2) s.dev)) :=
    ⟨(wqAt_updWq_self ..).trans (congrArg (Option.map WQ.ended) hwq), fun _ hk => wqAt_updWq_other _ _ hk, rfl, rfl⟩
  have hd : (updWq (fieldLE l 8 2) WQ.ended (dropEntryRead (fieldLE l 8 2) s.dev)).pes = s.dev.pes ∧
      (updWq (fieldLE l 8 2) WQ.ended (dropEntryRead (fieldLE l 8 2) s.dev)).link.dmas = s.dev.link.dmas ∧
      adminAt n (updWq (fieldLE l 8 2) WQ.ended (dropEntryRead (fieldLE l 8 2) s.dev)) = adminAt n s.dev := ⟨rfl, rfl, rfl⟩
  generalize updWq (fieldLE l 8 2) WQ.ended (dropEntryRead (fieldLE l 8 2) s.dev) = d at hexec hto hd
  obtain ⟨hpes, hlink, hadmin⟩ := hd
  rw [← hpes] at hloop
  rw [← hlink] at hdmas
  rw [← hadmin] at hx
  refine ⟨_, hexec, ?_⟩
  dsimp only
  by_cases hf : w.flight = []
  · obtain ⟨⟨hself, hother, hcrs, htiers⟩, hwait⟩ := destroyed_at_once (k := w.waiting) hto hloop hdmas hx hf
    exact ⟨fun _ => ⟨hself, hwait⟩, fun hne => absurd hf hne, hother, hcrs, htiers⟩
  · obtain ⟨⟨hself, hother, hcrs, htiers⟩, hwait⟩ := destruction_waits (k := w.waiting) hto hloop hdmas hx hf
    exact ⟨fun he => absurd he hf, fun _ => ⟨hself, hwait⟩, hother, hcrs, htiers⟩

end Destruction

end Commands

/-- Settles O31: each command by what its function answers, and the destruction of a queue by `destroyed_at_once` and `destruction_waits`. -/
theorem adminWorkQueues : Obligations.AdminWorkQueues := by
  intro s n l
  refine ⟨fun ht hl lda hn => ⟨(wq_created ht hl hn).1, fun hq hp k hk hf => ⟨freshWq n l lda s.dev, (wq_created ht hl hn).2 hq hp k hk hf,
    rfl, rfl, rfl, rfl, rfl, rfl, rfl, rfl, rfl, rfl, rfl, rfl, rfl, rfl, rfl, rfl, rfl, rfl, rfl⟩⟩, fun ht hz hs hc hr => ?_,
    fun ht hz => ⟨fun w hw => runAdmin_ok ht rfl (f := wqQuery n) (wqQuery_held hz hw),
      fun hw => runAdmin_error ht rfl (f := wqQuery n) (wqQuery_not_held hz hw)⟩,
    fun ht hz => ⟨fun hw => ?_, fun w hw => ⟨fun hs => ?_, wq_destroyed ht hz hw⟩⟩, fun ht hz hq w hw hs hh => ?_⟩
  · have hok : ModifyOk l := ⟨hz, hs, hc, hr⟩
    exact ⟨fun hw => runAdmin_error ht rfl (f := wqModify n) (wqModify_not_held hok hw),
      fun w hw hs hleaf hrec => runAdmin_ok ht rfl (f := wqModify n) (wqModify_held hok hw hs hleaf hrec)⟩
  · refine (runAdmin_takes ht rfl (wqDestroy n)).trans ?_
    rw [wqDestroy_not_held hz hw]
    rfl
  · refine (runAdmin_takes ht rfl (wqDestroy n)).trans ?_
    rw [wqDestroy_again hz hw hs]
    rfl
  · rw [← waiting_of_headless hh]
    exact wq_destroyed_headless ht hz hw hs hq hh

end Sys2Proof.Machine
end

section
/-! SUPPORT. The admin commands of completion rings and counters (R213 to R218, R222, R224, R227, R537), and the write of ADMIN_CTRL (R222). -/

namespace Sys2Proof.Machine

/-! ## Waits that name no counter (R227) -/

/-- Where no context is in a CWAIT, none fails. -/
theorem failCwaits_none {d : Dev} (h : ∀ p ∈ d.bricks.ctxs, ∀ i v w, p.2.wait ≠ .cwait i v w) (lo k : Nat) : failCwaits lo k d = d := by
  unfold failCwaits
  rw [List.filterMap_eq_nil_iff.mpr]
  · rfl
  · intro p hp
    split
    · next i v w hw => exact absurd hw (h p hp i v w)
    · rfl

/-- Where no head is a WAIT, none fails. -/
theorem failWaits_none {d : Dev} (h : ∀ p ∈ d.q.wqs, ∀ h, p.2.head = some h → h.opcode ≠ 1) (lo k : Nat) : failWaits lo k d = d := by
  refine List.foldlRecOn (motive := fun e : Dev => e = d) _ _ rfl fun e he q _ => ?_
  subst he
  dsimp only
  split
  · next w g hs =>
    obtain ⟨hw, hh⟩ := wqAt_of_slottedHead hs
    have hop : (g.opcode == 1) = false := beq_eq_false_iff_ne.mpr (h _ (Tab.mem_of_get hw) g hh)
    simp only [hop, Bool.and_false, Bool.false_and, Bool.false_eq_true, if_false]
  · rfl

theorem endWaits_none {d : Dev} (hc : ∀ p ∈ d.bricks.ctxs, ∀ i v w, p.2.wait ≠ .cwait i v w)
    (hh : ∀ p ∈ d.q.wqs, ∀ h, p.2.head = some h → h.opcode ≠ 1) (lo k : Nat) : endWaits lo k d = d := by
  rw [endWaits, failWaits_none hh, failCwaits_none hc]

/-! ## Counters that are set (R217, R218) -/

/-- A counter that feeds no queue and has no mirror takes a value and nothing else changes. -/
theorem setCounter_alone {idx v : Nat} {c : Ctr} {d : Dev} (hi : 0x4000 ≤ idx) (hc : Tab.get d.q.ctrs idx = some c) (hm : c.mirror = none)
    (hf : ∀ p ∈ d.q.wqs, ¬(p.2.feed = 1 ∧ p.2.prodCtr = idx)) :
    setCounter idx v d = { d with q := { d.q with ctrs := Tab.modify d.q.ctrs idx (fun c => { c with value := v % 2 ^ 48 }) } } := by
  have hfed : d.q.wqs.filterMap (fun p => if p.2.feed == 1 && p.2.prodCtr == idx then some p.1 else none) = [] :=
    List.filterMap_eq_nil_iff.mpr fun p hp => if_neg (by simpa using hf p hp)
  simp only [setCounter, if_neg (Nat.not_lt.mpr hi), hc, hm, hfed, each, List.foldl_nil]

/-- The value that a counter takes leaves every other counter. -/
theorem counterVal_setCounter_other {idx j : Nat} (hi : 0x4000 ≤ idx) (hj : j ≠ idx) (v : Nat) (d : Dev) :
    counterVal j (setCounter idx v d) = counterVal j d := by
  unfold setCounter
  dsimp only
  rw [counterVal_congr (sameCounters_each (fun q d => sameCounters_setProducer q _ d) _ _)]
  have hset : counterVal j { d with q := { d.q with ctrs := Tab.modify d.q.ctrs idx (fun c => { c with value := v % 2 ^ 48 }) } } = counterVal j d := by
    simp only [counterVal, crAt, Tab.get_modify_other _ _ hj]
  rw [if_neg (Nat.not_lt.mpr hi), if_neg (Nat.not_lt.mpr hi)]
  split
  · split
    · rw [counterVal_congr (sameCounters_ringWrite ..), hset]
    · exact hset
  · exact hset

theorem leNat_lt (l : List Byte) : leNat l < 2 ^ (8 * l.length) := by
  induction l with
  | nil => decide
  | cons b l ih =>
    have hb := b.isLt
    rw [leNat, List.length_cons, Nat.mul_add, Nat.pow_add]
    omega

theorem fieldLE_lt (l : List Byte) (a n : Nat) : fieldLE l a n < 2 ^ (8 * n) :=
  Nat.lt_of_lt_of_le (leNat_lt _) (Nat.pow_le_pow_right (by decide) (Nat.mul_le_mul_left 8 (List.length_take_le ..)))

/-! ## A run of counters that is allocated (R217, R537) -/

/-- One counter of a run is entered at zero. -/
def allocOne (n base i : Nat) (d : Dev) : Dev :=
  setCounter (base + i) 0 { d with q := { d.q with ctrs := Tab.set d.q.ctrs (base + i) { inst := n, value := 0, mirror := none } } }

/-- The device `e` is `d` with the first `k` counters from `base` at zero. -/
structure Allocated (n base k : Nat) (d e : Dev) : Prop where
  only : e = { d with q := { d.q with ctrs := e.q.ctrs } }
  new : ∀ i < k, Tab.get e.q.ctrs (base + i) = some { inst := n, value := 0, mirror := none }
  old : ∀ i, i < base ∨ base + k ≤ i → Tab.get e.q.ctrs i = Tab.get d.q.ctrs i

theorem Allocated.allocOne {n base k : Nat} {d e : Dev} (h : Allocated n base k d e) (hb : 0x4000 ≤ base)
    (hf : ∀ p ∈ d.q.wqs, ¬(p.2.feed = 1 ∧ p.2.prodCtr = base + k)) : Allocated n base (k + 1) d (allocOne n base k e) := by
  obtain ⟨honly, hnew, hold⟩ := h
  have hwqs : e.q.wqs = d.q.wqs := by rw [honly]
  have hone := setCounter_alone (idx := base + k) (v := 0)
    (d := { e with q := { e.q with ctrs := Tab.set e.q.ctrs (base + k) { inst := n, value := 0, mirror := none } } }) (by omega) (Tab.get_set_self ..) rfl (by rwa [← hwqs] at hf)
  rw [Machine.allocOne, hone]
  refine ⟨by rw [honly], fun i hi => ?_, fun i hi => ?_⟩
  · dsimp only
    rcases Nat.lt_succ_iff_lt_or_eq.mp hi with hlt | rfl
    · rw [Tab.get_modify_other _ _ (by omega), Tab.get_set_other _ _ (by omega), hnew i hlt]
    · rw [Tab.get_modify_self, Tab.get_set_self]
      rfl
  · dsimp only
    rw [Tab.get_modify_other _ _ (by omega), Tab.get_set_other _ _ (by omega), hold i (by omega)]

theorem allocated_range {n base : Nat} (hb : 0x4000 ≤ base) (d : Dev) (k : Nat)
    (hf : ∀ p ∈ d.q.wqs, ¬(p.2.feed = 1 ∧ base ≤ p.2.prodCtr ∧ p.2.prodCtr < base + k)) :
    Allocated n base k d (each (List.range k) (allocOne n base) d) := by
  induction k with
  | zero => exact ⟨rfl, fun i hi => absurd hi (Nat.not_lt_zero i), fun _ _ => rfl⟩
  | succ k ih =>
    rw [List.range_succ, each, List.foldl_append]
    refine (ih fun p hp h => hf p hp ⟨h.1, h.2.1, by omega⟩).allocOne hb fun p hp h => hf p hp ⟨h.1, by omega, by omega⟩

/-- A run that is found lies at or above the number where the search begins. -/
theorem le_of_freeCtrRun {k : Nat} {t : Tab Ctr} {fuel start base : Nat} (h : freeCtrRun k t fuel start = some base) : start ≤ base := by
  induction fuel generalizing start with
  | zero => cases h
  | succ fuel ih =>
    unfold freeCtrRun at h
    split at h
    · split at h
      · exact (Option.some.inj h).le
      · next p hp =>
        have hlow : start ≤ p.1 ∧ p.1 < start + k := by simpa using List.find?_some hp
        exact hlow.1.trans ((Nat.le_succ _).trans (ih h))
    · cases h

/-! ## What each command answers -/

section Answers

variable {n : Nat} {l : List Byte} {d : Dev}

/-- A new ring, empty and with its counter at zero. -/
def freshCr (n lda : Nat) (l : List Byte) : CR :=
  { inst := n, log2 := fieldLE l 10 1, loc := fieldLE l 11 1, vector := fieldLE l 12 1, page := fieldLE l 13 1, modCount := fieldLE l 14 2,
    modUs := fieldLE l 26 2, ring := fieldLE l 16 8, lda := lda, ctx := fieldLE l 24 2, wr := 0, ret := 0, written := 0, held := 0, unseen := 0,
    oldest := 0, counter := 0, detached := false }

/-- A CR_CREATE whose bytes are well formed and whose ring may stand where it says. -/
structure RingOk (n lda : Nat) (l : List Byte) (d : Dev) : Prop where
  zeros : adminZeros l [(10, 27)] = true
  low : 6 ≤ fieldLE l 10 1
  high : fieldLE l 10 1 ≤ 16
  vector : vectorOk (fieldLE l 12 1) = true
  page : 128 ≤ fieldLE l 13 1
  addr : addrOk (fieldLE l 11 1) (fieldLE l 16 8) 4096 (32 * 2 ^ fieldLE l 10 1) = true
  place : placeRing n (fieldLE l 11 1) (fieldLE l 16 8) (32 * 2 ^ fieldLE l 10 1) (fieldLE l 24 2) 0 d = .ok lda

theorem crCreate_past_quota {lda : Nat} (h : RingOk n lda l d) (hq : quotaMax 3 (getF .queueQuota n 0 14 0 d) d ≤ crsHeld n d) :
    crCreate n l d = .error 0xE := by
  obtain ⟨hz, hlow, hhigh, hv, hp, ha, hplace⟩ := h
  simp [crCreate, hz, Nat.not_lt.mpr hlow, Nat.not_lt.mpr hhigh, hv, Nat.not_lt.mpr hp, ha, hplace, hq]

theorem crCreate_made {lda i : Nat} (h : RingOk n lda l d) (hq : crsHeld n d < quotaMax 3 (getF .queueQuota n 0 14 0 d) d)
    (hpool : d.q.crs.length < poolMax 1 16384 d) (hi : Tab.lowestFree d.q.crs 0 16384 = some i) :
    crCreate n l d = .ok (i, { d with q := { d.q with crs := Tab.set d.q.crs i (freshCr n lda l) } }) := by
  obtain ⟨hz, hlow, hhigh, hv, hp, ha, hplace⟩ := h
  simp [crCreate, hz, Nat.not_lt.mpr hlow, Nat.not_lt.mpr hhigh, hv, Nat.not_lt.mpr hp, ha, hplace, Nat.not_le.mpr hq, Nat.not_le.mpr hpool, hi, freshCr]

theorem crModify_held (hz : adminZeros l [(8, 9), (12, 12), (14, 15), (26, 27)] = true) (hv : vectorOk (fieldLE l 12 1) = true) {c : CR}
    (hc : crHeld n (fieldLE l 8 2) d = some c) (hd : c.detached = false) :
    crModify n l d = .ok (0, notify (fieldLE l 8 2)
      (updCr (fieldLE l 8 2) (fun c => { c with vector := fieldLE l 12 1, modCount := fieldLE l 14 2, modUs := fieldLE l 26 2 }) d)) := by
  simp only [crModify, hz, hv, hc, hd, Bool.not_true, Bool.or_self, Bool.false_eq_true, if_false]

section Ring

variable (hz : adminZeros l [(8, 9)] = true) (hc : (crHeld n (fieldLE l 8 2) d).isSome = true)
include hz hc

theorem crDestroy_named (h : ∃ p ∈ d.q.wqs, p.2.cr = fieldLE l 8 2) : crDestroy n l d = .error 0xE := by
  have hany : d.q.wqs.any (fun p => p.2.cr == fieldLE l 8 2) = true := by simpa using h
  have hnone : (crHeld n (fieldLE l 8 2) d).isNone = false := by simpa using hc
  simp only [crDestroy, hz, hnone, hany, Bool.not_true, Bool.true_or, Bool.false_eq_true, if_false, if_true]

/-- A ring that nothing names goes, and where nothing waits on its counter nothing else changes. -/
theorem crDestroy_free (hw : ∀ p ∈ d.q.wqs, p.2.cr ≠ fieldLE l 8 2) (hr : ∀ p ∈ d.rem.doms, p.2.ring ≠ fieldLE l 8 2)
    (hf : feedsQueue (fieldLE l 8 2) 1 d = false) (hx : ∀ p ∈ d.bricks.ctxs, ∀ i v w, p.2.wait ≠ .cwait i v w)
    (hh : ∀ p ∈ d.q.wqs, ∀ h, p.2.head = some h → h.opcode ≠ 1) :
    crDestroy n l d = .ok (0, { d with q := { d.q with crs := Tab.erase d.q.crs (fieldLE l 8 2) } }) := by
  have hwqs : d.q.wqs.any (fun p => p.2.cr == fieldLE l 8 2) = false := by simpa using hw
  have hdoms : d.rem.doms.any (fun p => p.2.ring == fieldLE l 8 2) = false := by simpa using hr
  have hnone : (crHeld n (fieldLE l 8 2) d).isNone = false := by simpa using hc
  have hends := endWaits_none (d := { d with q := { d.q with crs := Tab.erase d.q.crs (fieldLE l 8 2) } }) hx hh (fieldLE l 8 2) 1
  simp only [crDestroy, hz, hnone, hwqs, hdoms, hf, hends, Bool.not_true, Bool.or_self, Bool.false_eq_true, if_false]

end Ring

section Alloc

variable (hz : adminZeros l [(8, 10), (16, 25)] = true) (h0 : 0 < fieldLE l 8 2) (h1 : fieldLE l 8 2 ≤ 1024) (ha : fieldLE l 16 8 = 0)
  (hk : fieldLE l 10 1 ≤ 1)
include hk

/-- No mirror lies anywhere. -/
theorem addrOk_none : addrOk (fieldLE l 10 1) 0 8 0 = true := by
  have hva : vaOk 0 0 = true := by decide
  have hhost : decide (0 + 0 ≤ 2 ^ 64) = true := by decide
  simp only [addrOk, hk, hva, hhost, ite_self, Nat.zero_mod, decide_true, Bool.and_self]

include hz h0 h1 ha

theorem counterAlloc_past_quota (hq : quotaMax 4 (getF .counterQuota n 0 16 0 d) d < ctrsHeld n d + fieldLE l 8 2) : counterAlloc n l d = .error 0xE := by
  simp [counterAlloc, hz, h0.ne', Nat.not_lt.mpr h1, ha, addrOk_none hk, hq]

theorem counterAlloc_made (hq : ctrsHeld n d + fieldLE l 8 2 ≤ quotaMax 4 (getF .counterQuota n 0 16 0 d) d)
    (hp : d.q.ctrs.length + fieldLE l 8 2 ≤ poolMax 2 65536 d) {base : Nat}
    (hb : freeCtrRun (fieldLE l 8 2) d.q.ctrs (d.q.ctrs.length + 1) 0x10000 = some base) :
    counterAlloc n l d = .ok (base, each (List.range (fieldLE l 8 2)) (allocOne n base) d) := by
  simp [counterAlloc, hz, h0.ne', Nat.not_lt.mpr h1, ha, addrOk_none hk, Nat.not_lt.mpr hq, Nat.not_lt.mpr hp, hb]
  rfl

end Alloc

section Free

variable (hz : adminZeros l [(8, 13)] = true) (hheld : ∀ i < fieldLE l 12 2, freeCtrHeld n (fieldLE l 8 4 + i) d = true)
include hz hheld

theorem counterFree_feeds (hf : feedsQueue (fieldLE l 8 4) (fieldLE l 12 2) d = true) : counterFree n l d = .error 0xE := by
  have hall : (List.range (fieldLE l 12 2)).all (fun i => freeCtrHeld n (fieldLE l 8 4 + i) d) = true := by simpa using hheld
  simp only [counterFree, hz, hall, hf, Bool.not_true, Bool.false_eq_true, if_false, if_true]

theorem counterFree_free (hf : feedsQueue (fieldLE l 8 4) (fieldLE l 12 2) d = false) (hx : ∀ p ∈ d.bricks.ctxs, ∀ i v w, p.2.wait ≠ .cwait i v w)
    (hh : ∀ p ∈ d.q.wqs, ∀ h, p.2.head = some h → h.opcode ≠ 1) :
    counterFree n l d = .ok (0, { d with q := { d.q with
      ctrs := Tab.keep d.q.ctrs (fun i _ => !decide (fieldLE l 8 4 ≤ i ∧ i < fieldLE l 8 4 + fieldLE l 12 2)) } }) := by
  have hall : (List.range (fieldLE l 12 2)).all (fun i => freeCtrHeld n (fieldLE l 8 4 + i) d) = true := by simpa using hheld
  have hends := endWaits_none (d := { d with q := { d.q with
    ctrs := Tab.keep d.q.ctrs (fun i _ => !decide (fieldLE l 8 4 ≤ i ∧ i < fieldLE l 8 4 + fieldLE l 12 2)) } }) hx hh (fieldLE l 8 4) (fieldLE l 12 2)
  simp only [counterFree, hz, hall, hf, hends, Bool.not_true, Bool.false_eq_true, if_false]

end Free

section Set

variable (hz : adminZeros l [(8, 11), (16, 21)] = true)
include hz

theorem counterSetEnd_held (h : freeCtrHeld n (fieldLE l 8 4) d = true) : counterSetEnd n l d =
    completeAdmin n (if mirrorLost (fieldLE l 8 4) d then 0xF else 0) 0 (setCounter (fieldLE l 8 4) (fieldLE l 16 6) d) := by
  simp only [counterSetEnd, counterSet, hz, h, Bool.not_true, Bool.false_eq_true, if_false]

theorem counterSetEnd_not_held (h : freeCtrHeld n (fieldLE l 8 4) d = false) : counterSetEnd n l d = completeAdmin n 3 0 d := by
  simp only [counterSetEnd, counterSet, hz, h, Bool.not_true, Bool.not_false, Bool.false_eq_true, if_false, if_true]

end Set

end Answers

/-! ## A write of ADMIN_CTRL (R222) -/

/-- The word of ADMIN_CTRL: ENABLE, CONFLICT, the two sizes and the vector. -/
def ctrlWord (on flag wq cr v : Nat) : Nat := on * 2 ^ 31 + flag * 2 ^ 30 + wq * 2 ^ 16 + cr * 2 ^ 12 + v * 64

section Word

variable {on flag wq cr v : Nat} (ho : on < 2) (hf : flag < 2) (hw : wq < 2 ^ 4) (hc : cr < 2 ^ 4) (hv : v < 2 ^ 6)
include ho hf hw hc hv

theorem bitsOf_ctrlWord : bitsOf (ctrlWord on flag wq cr v) 31 31 = on ∧ bitsOf (ctrlWord on flag wq cr v) 30 30 = flag ∧
    bitsOf (ctrlWord on flag wq cr v) 19 16 = wq ∧ bitsOf (ctrlWord on flag wq cr v) 15 12 = cr ∧ bitsOf (ctrlWord on flag wq cr v) 11 6 = v := by
  simp only [bitsOf, ctrlWord, Nat.shiftRight_eq_div_pow]
  omega

theorem ctrlWord_lt : ctrlWord on flag wq cr v < 2 ^ 32 := by
  unfold ctrlWord
  omega

end Word

/-- The size that the module takes for a queue or its ring. -/
def adminLog2 (k : Nat) : Nat := max 6 (min k 12)

theorem adminLog2_lt (k : Nat) : adminLog2 k < 2 ^ 4 := by
  unfold adminLog2
  omega

/-- An admin queue that starts: nothing posted, nothing consumed. -/
def Admin.started (a : Admin) : Admin :=
  { a with p := 0, c := 0, head := none, reading := false, stalled := true, again := false, wr := 0, ret := 0, written := 0, detached := false }

section Ctrl

variable {n data : Nat} {d : Dev} (hdata : data < 2 ^ 32)
include hdata

/-- While the queue is enabled and stays so, its sizes stay and CONFLICT is set. -/
theorem adminCtrlWrite_clash (hon : adminOn n d = true) (hb : bitOf data 31 = true) : adminCtrlWrite n data d =
    setW .adminCtrl n 0 (ctrlWord (bitsOf data 31 31) 1 (getF .adminCtrl n 0 19 16 d) (getF .adminCtrl n 0 15 12 d) (bitsOf data 11 6)) d := by
  simp only [adminCtrlWrite, Nat.mod_eq_of_lt hdata, hon, hb, Bool.and_self, Bool.not_true, Bool.false_and, Bool.false_eq_true, if_false, if_true]
  rfl

/-- Otherwise the sizes are as written, within their limits, and a queue that is enabled starts. -/
theorem adminCtrlWrite_free (h : adminOn n d = true → bitOf data 31 = false) :
    ∃ flag < 2,
      let w := ctrlWord (bitsOf data 31 31) flag (adminLog2 (bitsOf data 19 16)) (adminLog2 (bitsOf data 15 12)) (bitsOf data 11 6)
      let e := setW .adminCtrl n 0 w d
      adminCtrlWrite n data d = if bitOf data 31 then updAdmin n Admin.started (dropAdminReads n e) else e := by
  refine ⟨if bitOf data 30 then 0 else getF .adminCtrl n 0 30 30 d, ?_, ?_⟩
  · split
    · decide
    · exact bitsOf_lt ..
  · have hclash : (adminOn n d && bitOf data 31) = false := by simpa using h
    have hstart : (!adminOn n d && bitOf data 31) = bitOf data 31 := by
      cases hon : adminOn n d with
      | true => simp [h hon]
      | false => rfl
    simp only [adminCtrlWrite, Nat.mod_eq_of_lt hdata, hclash, hstart, Bool.false_eq_true, if_false]
    rfl

end Ctrl

/-- What the register says when it holds a word. -/
structure CtrlReads (n on flag wq cr v : Nat) (d : Dev) : Prop where
  on : getF .adminCtrl n 0 31 31 d = on
  flag : getF .adminCtrl n 0 30 30 d = flag
  wq : getF .adminCtrl n 0 19 16 d = wq
  cr : getF .adminCtrl n 0 15 12 d = cr
  vector : getF .adminCtrl n 0 11 6 d = v

theorem ctrlReads_setW {on flag wq cr v : Nat} (ho : on < 2) (hf : flag < 2) (hw : wq < 2 ^ 4) (hc : cr < 2 ^ 4) (hv : v < 2 ^ 6) (n : Nat) {d e : Dev}
    (he : e.regs = (setW .adminCtrl n 0 (ctrlWord on flag wq cr v) d).regs) : CtrlReads n on flag wq cr v e := by
  have hlt := ctrlWord_lt ho hf hw hc hv
  obtain ⟨h1, h2, h3, h4, h5⟩ := bitsOf_ctrlWord ho hf hw hc hv
  constructor <;> rw [getF_congr he, getF_setW_self hlt] <;> assumption

theorem CtrlReads.sizes {n on flag wq cr v : Nat} {d : Dev} (h : CtrlReads n on flag wq cr v d) : adminSizes n d = (2 ^ wq, 2 ^ cr) := by
  rw [adminSizes, h.wq, h.cr]

theorem exec_adminCtrlWrite {n data : Nat} {s : State} (hq : Safety.Quiet (adminCtrlWrite n data s.dev)) (hr : s.dev.start.ready = true)
    (hl : linkOpen s.dev = true) (hno : (adminAt n (adminCtrlWrite n data s.dev)).notices = []) :
    exec (.adminCtrlWrite n data) s = .next { s with dev := adminCtrlWrite n data s.dev } := by
  change execAdminCtrlWrite n data s = _
  rw [execAdminCtrlWrite, overLink_unheld (unheld_of_linkOpen hl), sends, managerWrite_ready hr hl, writeNotices_none hno, localPath_quiet _ hq]

/-- The obligation's part on ADMIN_CTRL. -/
theorem admin_ctrl_written {s : State} {n data : Nat} (hdata : data < 2 ^ 32) (hq : Safety.Quiet s.dev) (hr : s.dev.start.ready = true)
    (hno : (adminAt n s.dev).notices = []) (hl : linkOpen s.dev = true) :
    ∃ t, exec (.adminCtrlWrite n data) s = .next t ∧ getF .adminCtrl n 0 31 31 t.dev = bitsOf data 31 31 ∧
      getF .adminCtrl n 0 11 6 t.dev = bitsOf data 11 6 ∧ Safety.SameRegs [addrOf .adminCtrl n 0] s.dev t.dev ∧ t.dev.tiers = s.dev.tiers ∧
      (adminOn n s.dev = true → bitOf data 31 = true → adminSizes n t.dev = adminSizes n s.dev ∧ getF .adminCtrl n 0 30 30 t.dev = 1 ∧
        adminAt n t.dev = adminAt n s.dev) ∧
      (adminOn n s.dev = false → adminSizes n t.dev = (2 ^ max 6 (min (bitsOf data 19 16) 12), 2 ^ max 6 (min (bitsOf data 15 12) 12)) ∧
        (bitOf data 31 = true → (adminAt n t.dev).p = 0 ∧ (adminAt n t.dev).c = 0 ∧ (adminAt n t.dev).wr = 0 ∧ (adminAt n t.dev).head = none)) := by
  have hon := bitsOf_lt data 31 31
  have hvec := bitsOf_lt data 11 6
  by_cases hclash : adminOn n s.dev = true ∧ bitOf data 31 = true
  · have he := adminCtrlWrite_clash hdata hclash.1 hclash.2
    have hreads := ctrlReads_setW hon (by decide : 1 < 2) (bitsOf_lt _ 19 16) (bitsOf_lt _ 15 12) hvec n (congrArg Dev.regs he)
    refine ⟨_, exec_adminCtrlWrite (by rw [he]; exact hq) hr hl (by rw [he]; exact hno), ?_⟩
    dsimp only
    refine ⟨hreads.on, hreads.vector, ?_, by rw [he]; rfl, fun _ _ => ⟨hreads.sizes, hreads.flag, by rw [he]; rfl⟩,
      fun hoff => absurd hclash.1 (by rw [hoff]; decide)⟩
    rw [he]
    exact sameRegs_setW _ _ _ _ _
  · obtain ⟨flag, hflag, he⟩ := adminCtrlWrite_free (n := n) (d := s.dev) hdata fun hx => by
      simpa using fun hb => hclash ⟨hx, hb⟩
    dsimp only at he
    have hkeeps : (adminCtrlWrite n data s.dev).regs = (setW .adminCtrl n 0
          (ctrlWord (bitsOf data 31 31) flag (adminLog2 (bitsOf data 19 16)) (adminLog2 (bitsOf data 15 12)) (bitsOf data 11 6)) s.dev).regs ∧
        (adminCtrlWrite n data s.dev).tiers = s.dev.tiers ∧ Safety.Quiet (adminCtrlWrite n data s.dev) ∧
        (adminAt n (adminCtrlWrite n data s.dev)).notices = [] := by
      rw [he]
      split
      · refine ⟨rfl, rfl, hq, ?_⟩
        rw [adminAt_updAdmin]
        exact hno
      · exact ⟨rfl, rfl, hq, hno⟩
    obtain ⟨hregs, htiers, hquiet, hnotes⟩ := hkeeps
    have hreads := ctrlReads_setW hon hflag (adminLog2_lt _) (adminLog2_lt _) hvec n hregs
    refine ⟨_, exec_adminCtrlWrite hquiet hr hl hnotes, ?_⟩
    dsimp only
    refine ⟨hreads.on, hreads.vector, ?_, htiers, fun hx hb => absurd ⟨hx, hb⟩ hclash, fun _ => ⟨hreads.sizes, fun hb => ?_⟩⟩
    · intro a ha
      rw [hregs]
      exact sameRegs_setW _ _ _ _ _ a ha
    · rw [he, if_pos hb, adminAt_updAdmin]
      exact ⟨rfl, rfl, rfl, rfl⟩

/-! ## The obligation -/

section Commands

variable {s : State} {n : Nat} {l : List Byte}

/-- COUNTER_ALLOC of a run that is free. -/
theorem counters_allocated (ht : Safety.AdminTakes n 0x88 l s) (hz : adminZeros l [(8, 10), (16, 25)] = true) (h0 : 0 < fieldLE l 8 2)
    (h1 : fieldLE l 8 2 ≤ 1024) (ha : fieldLE l 16 8 = 0) (hk : fieldLE l 10 1 ≤ 1)
    (hq : ctrsHeld n s.dev + fieldLE l 8 2 ≤ quotaMax 4 (getF .counterQuota n 0 16 0 s.dev) s.dev)
    (hp : s.dev.q.ctrs.length + fieldLE l 8 2 ≤ poolMax 2 65536 s.dev) {base : Nat}
    (hb : freeCtrRun (fieldLE l 8 2) s.dev.q.ctrs (s.dev.q.ctrs.length + 1) 0x10000 = some base)
    (hf : ∀ p ∈ s.dev.q.wqs, ¬(p.2.feed = 1 ∧ base ≤ p.2.prodCtr ∧ p.2.prodCtr < base + fieldLE l 8 2)) :
    ∃ e, exec (.counterAlloc n) s = Safety.adminNext n 0 base e s ∧ Allocated n base (fieldLE l 8 2) s.dev e := by
  have hlow : 0x4000 ≤ base := (by decide : 0x4000 ≤ 0x10000).trans (le_of_freeCtrRun hb)
  exact ⟨_, runAdmin_ok ht rfl (f := counterAlloc n) (counterAlloc_made hz h0 h1 ha hk hq hp hb), allocated_range hlow s.dev _ hf⟩

/-- COUNTER_SET of a counter that the instance holds. -/
theorem counter_set (ht : Safety.AdminTakes n 0x8A l s) (hz : adminZeros l [(8, 11), (16, 21)] = true)
    (hheld : freeCtrHeld n (fieldLE l 8 4) s.dev = true) :
    exec (.counterSet n) s = Safety.adminNext n (if mirrorLost (fieldLE l 8 4) s.dev then 0xF else 0) 0
      (setCounter (fieldLE l 8 4) (fieldLE l 16 6) s.dev) s ∧
    counterVal (fieldLE l 8 4) (setCounter (fieldLE l 8 4) (fieldLE l 16 6) s.dev) = fieldLE l 16 6 ∧
    ∀ i, i ≠ fieldLE l 8 4 → counterVal i (setCounter (fieldLE l 8 4) (fieldLE l 16 6) s.dev) = counterVal i s.dev := by
  obtain ⟨hlow, howner⟩ : 0x10000 ≤ fieldLE l 8 4 ∧ counterOwner (fieldLE l 8 4) s.dev = some n := by simpa [freeCtrHeld] using hheld
  refine ⟨?_, ?_, fun i hi => counterVal_setCounter_other ((by decide : 0x4000 ≤ 0x10000).trans hlow) hi _ _⟩
  · refine (runAdmin_takes ht rfl (counterSetEnd n)).trans ?_
    rw [counterSetEnd_held hz hheld]
    rfl
  · rw [counterVal_setCounter howner, Nat.mod_eq_of_lt (fieldLE_lt l 16 6)]

end Commands

/-- Settles O32: each command by what its function answers, the run of counters by `allocated_range`, and the register by `admin_ctrl_written`. -/
theorem adminRingsAndCounters : Obligations.AdminRingsAndCounters := by
  refine ⟨fun s n l => ⟨fun ht hz hlow hhigh hv hp ha lda hplace => ?_, fun ht hz hv c hc hd => ?_, fun ht hz hc => ⟨fun h => ?_, fun hw hr hf hx hh => ?_⟩,
    fun ht hz h0 h1 ha hk => ⟨fun hq => ?_, fun hq hp base hb hf => ?_⟩, fun ht hz hheld => ⟨fun hf => ?_, fun hf hx hh => ?_⟩,
    fun ht hz => ⟨fun hheld => ⟨_, counter_set ht hz hheld⟩, fun hheld => ?_⟩⟩,
    fun s n data hdata hq hr hno _ hl => admin_ctrl_written hdata hq hr hno hl⟩
  · have hok : RingOk n lda l s.dev := ⟨hz, hlow, hhigh, hv, hp, ha, hplace⟩
    exact ⟨fun hq => runAdmin_error ht rfl (f := crCreate n) (crCreate_past_quota hok hq), fun hq hpool i hi => ⟨freshCr n lda l,
      runAdmin_ok ht rfl (f := crCreate n) (crCreate_made hok hq hpool hi), rfl, rfl, rfl, rfl, rfl, rfl, rfl, rfl, rfl, rfl, rfl, rfl, rfl⟩⟩
  · exact runAdmin_ok ht rfl (f := crModify n) (crModify_held hz hv hc hd)
  · exact runAdmin_error ht rfl (f := crDestroy n) (crDestroy_named hz hc h)
  · exact runAdmin_ok ht rfl (f := crDestroy n) (crDestroy_free hz hc hw hr hf hx hh)
  · exact runAdmin_error ht rfl (f := counterAlloc n) (counterAlloc_past_quota hz h0 h1 ha hk hq)
  · obtain ⟨e, hexec, honly, hnew, hold⟩ := counters_allocated ht hz h0 h1 ha hk hq hp hb hf
    exact ⟨e, hexec, hnew, hold, honly⟩
  · exact runAdmin_error ht rfl (f := counterFree n) (counterFree_feeds hz hheld hf)
  · exact runAdmin_ok ht rfl (f := counterFree n) (counterFree_free hz hheld hf hx hh)
  · refine (runAdmin_takes ht rfl (counterSetEnd n)).trans ?_
    rw [counterSetEnd_not_held hz hheld]
    rfl

end Sys2Proof.Machine
end

section
/-! SUPPORT. What a work queue's own turns leave of the device (R203, R204, R206, R210, R215 to R218): the reading of rings, the counters, the vectors and
the entries change no message, no brick and no transaction that waits, and of another queue with a ring only what it has read. -/

namespace Sys2Proof.Machine

/-! ## What stays -/

/-- Time, messages, bricks, instances and what is under way on the link are as they were; without a retrain nothing begins to wait for the link. -/
structure Calm (d e : Dev) : Prop where
  timers : e.timers = d.timers
  pes : e.pes = d.pes
  bricks : e.bricks = d.bricks
  insts : e.insts = d.insts
  up : e.link.up = d.link.up
  lost : e.link.lost = d.link.lost
  dmas : e.link.dmas = d.link.dmas
  behind : e.link.behind = d.link.behind
  retrain : e.link.retrain = d.link.retrain
  waiting : d.link.retrain = false → e.link.waiting = d.link.waiting

/-- The bytes of host memory and of device memory are as they were. -/
structure SameMem (d e : Dev) : Prop where
  host : e.link.hostMem = d.link.hostMem
  dev : e.tiers.dev = d.tiers.dev

namespace SameMem

variable {d e f : Dev}

theorem refl (d : Dev) : SameMem d d := ⟨rfl, rfl⟩

theorem trans (h1 : SameMem d e) (h2 : SameMem e f) : SameMem d f := ⟨h2.host.trans h1.host, h2.dev.trans h1.dev⟩

theorem each {α : Type} {g : α → Dev → Dev} (h : ∀ x d, SameMem d (g x d)) (l : List α) (d : Dev) : SameMem d (each l g d) :=
  List.foldlRecOn (motive := fun e => SameMem d e) _ _ (refl d) fun _ he x _ => he.trans (h x _)

end SameMem

namespace Calm

variable {d e f : Dev}

theorem refl (d : Dev) : Calm d d := ⟨rfl, rfl, rfl, rfl, rfl, rfl, rfl, rfl, rfl, fun _ => rfl⟩

theorem trans (h1 : Calm d e) (h2 : Calm e f) : Calm d f where
  timers := h2.timers.trans h1.timers
  pes := h2.pes.trans h1.pes
  bricks := h2.bricks.trans h1.bricks
  insts := h2.insts.trans h1.insts
  up := h2.up.trans h1.up
  lost := h2.lost.trans h1.lost
  dmas := h2.dmas.trans h1.dmas
  behind := h2.behind.trans h1.behind
  retrain := h2.retrain.trans h1.retrain
  waiting h := (h2.waiting (h1.retrain.trans h)).trans (h1.waiting h)

/-- A change of the queues, the memories, the registers, the log, the ledger, the ports, the frame map and the reads on the link. -/
theorem of_rest (h : e = { d with
    regs := e.regs, mc := e.mc, tiers := e.tiers, q := e.q, xl := e.xl, out := e.out, pwr := e.pwr, net := e.net
    link := { d.link with reads := e.link.reads, nextRead := e.link.nextRead, hostMem := e.link.hostMem, turn := e.link.turn } }) : Calm d e := by
  rw [h]
  exact ⟨rfl, rfl, rfl, rfl, rfl, rfl, rfl, rfl, rfl, fun _ => rfl⟩

theorem of_noted (h : Noted d e) : Calm d e := by
  rw [h.rest]
  exact of_rest rfl

theorem sendTx (t : LinkTx) (d : Dev) : Calm d (sendTx t d) := by
  unfold Machine.sendTx
  cases t.what with
  | access b id a store => cases store <;> exact of_rest rfl
  | _ => exact of_rest rfl

theorem sendLink (t : LinkTx) (d : Dev) : Calm d (sendLink t d) := by
  unfold Machine.sendLink
  split
  · next hr => exact ⟨rfl, rfl, rfl, rfl, rfl, rfl, rfl, rfl, rfl, fun h => absurd hr (by rw [h]; decide)⟩
  · exact sendTx ..

theorem hostRead (fn a len : Nat) (why : ReadWhy) (d : Dev) : Calm d (hostRead fn a len why d) := by
  unfold Machine.hostRead
  exact trans (of_rest rfl) (sendLink ..)

theorem raiseVector (fn v : Nat) (d : Dev) : Calm d (raiseVector fn v d) := by
  unfold Machine.raiseVector
  split
  · exact sendLink ..
  · exact refl d

theorem writePhys (a : Nat) (l : List Byte) (d : Dev) : Calm d (writePhys a l d) := of_rest rfl

theorem mirrorWrite (a : Nat) (l : List Byte) (d : Dev) : Calm d (writePieces.mirrorWrite a l d) := by
  unfold writePieces.mirrorWrite
  split
  · exact refl d
  split
  · exact refl d
  split
  · split
    · exact writePhys ..
    · exact refl d
  · exact refl d

theorem writePieces (ps : List (Nat × Nat)) (l : List Byte) (d : Dev) : Calm d (writePieces ps l d).1 := by
  induction ps generalizing l d with
  | nil => exact refl d
  | cons p r ih => exact ((writePhys ..).trans (mirrorWrite ..)).trans (ih ..)

theorem ringWrite (inst loc a : Nat) (l : List Byte) (d : Dev) : Calm d (ringWrite inst loc a l d) := by
  unfold Machine.ringWrite hostWrite hostPut
  split
  · split
    · exact sendLink ..
    · exact refl d
  · split
    · exact writePieces ..
    · exact refl d

theorem updWq (q : Nat) (g : WQ → WQ) (d : Dev) : Calm d (updWq q g d) := of_rest rfl

theorem updCr (r : Nat) (g : CR → CR) (d : Dev) : Calm d (updCr r g d) := of_rest rfl

theorem linkOpen (h : Calm d e) : linkOpen e = linkOpen d := by
  rw [Machine.linkOpen, h.up, h.lost, h.retrain]
  rfl

theorem clock (h : Calm d e) (die : Nat) : clock die e = clock die d := by
  rw [Machine.clock, h.timers]
  rfl

end Calm

namespace SameMem

variable {d : Dev}

theorem of_noted {e : Dev} (h : Noted d e) : SameMem d e := by
  rw [h.rest]
  exact ⟨rfl, rfl⟩

/-- What asks for no byte to be written writes none. -/
theorem sendLink {t : LinkTx} (ht : ∀ d : Dev, SameMem d (sendTx t d)) (d : Dev) : SameMem d (sendLink t d) := by
  unfold Machine.sendLink
  split
  · exact ⟨rfl, rfl⟩
  · exact ht d

theorem hostRead (fn a len : Nat) (why : ReadWhy) (d : Dev) : SameMem d (hostRead fn a len why d) := by
  unfold Machine.hostRead
  refine trans ?_ (sendLink (fun d => ?_) _)
  · exact ⟨rfl, rfl⟩
  · exact ⟨rfl, rfl⟩

theorem raiseVector (fn v : Nat) (d : Dev) : SameMem d (raiseVector fn v d) := by
  unfold Machine.raiseVector
  split
  · refine sendLink (fun d => ?_) d
    exact ⟨rfl, rfl⟩
  · exact refl d

theorem updWq (q : Nat) (g : WQ → WQ) (d : Dev) : SameMem d (updWq q g d) := ⟨rfl, rfl⟩

theorem updCr (r : Nat) (g : CR → CR) (d : Dev) : SameMem d (updCr r g d) := ⟨rfl, rfl⟩

theorem tryRead (q : Nat) (d : Dev) : SameMem d (tryRead q d) := by
  unfold Machine.tryRead takeCopy
  split
  · exact refl d
  split
  · exact refl d
  split
  · split
    · exact refl d
    · exact updWq ..
  split
  · exact refl d
  split
  · split
    · exact (updWq ..).trans (hostRead ..)
    · exact refl d
  split
  · exact refl d
  split
  · split <;> exact (of_noted (.correct ..)).trans (updWq ..)
  · exact (of_noted (.noteUe ..)).trans (updWq ..)

theorem setProducer (q p : Nat) (d : Dev) : SameMem d (setProducer q p d) := by
  unfold Machine.setProducer
  split
  · exact refl d
  split
  · exact refl d
  · exact (updWq ..).trans (tryRead ..)

/-- The counter of a ring has no mirror. -/
theorem setCounter {r : Nat} (hr : r < 0x4000) (v : Nat) (d : Dev) : SameMem d (setCounter r v d) := by
  unfold Machine.setCounter
  simp only [if_pos hr]
  exact (updCr ..).trans (each (fun q d => setProducer ..) _ _)

theorem moderate (r : Nat) (d : Dev) : SameMem d (moderate r d) := by
  unfold Machine.moderate notify
  split
  · exact updCr ..
  split
  · exact updCr ..
  · exact ((updCr ..).trans (updCr ..)).trans (raiseVector ..)

end SameMem

/-! ## Queues that look at their rings (R204, R206) -/

/-- What a queue with a ring is after it has looked at it and finished descriptors have gone: a new head holds no slot yet. -/
structure Turned (w v : WQ) : Prop where
  rest : v = { w with p := v.p, head := v.head, reading := v.reading, stalled := v.stalled, again := v.again, flight := v.flight }
  flight : v.flight <:+ w.flight
  head : ∀ g, v.head = some g → w.head = some g ∨ g.slot = none

theorem Turned.of_look (w : WQ) (p : Nat) (reading stalled again : Bool) {head : Option Head}
    (h : ∀ g, head = some g → w.head = some g ∨ g.slot = none) :
    Turned w { w with p := p, head := head, reading := reading, stalled := stalled, again := again } := ⟨rfl, List.suffix_rfl, h⟩

theorem Turned.refl (w : WQ) : Turned w w := ⟨rfl, List.suffix_rfl, fun _ => .inl⟩

theorem Turned.trans {w v u : WQ} (h1 : Turned w v) (h2 : Turned v u) : Turned w u where
  rest := by rw [h2.rest, h1.rest]
  flight := h2.flight.trans h1.flight
  head g hg := (h2.head g hg).elim (h1.head g) .inr

/-- Nothing but the queues, the rings and the memories changes, and a queue `q` with a ring has only turned. -/
structure Turns (q : Nat) (d e : Dev) : Prop where
  calm : Calm d e
  queue : ∀ w, wqAt q d = some w → w.feed ≠ 2 → ∃ v, wqAt q e = some v ∧ Turned w v

namespace Turns

variable {q : Nat} {d e f : Dev}

theorem of_q (h : Calm d e) (hq : e.q.wqs = d.q.wqs) : Turns q d e :=
  ⟨h, fun w hw _ => ⟨w, by rwa [wqAt, hq], .refl w⟩⟩

theorem refl (d : Dev) : Turns q d d := of_q (.refl d) rfl

theorem trans (h1 : Turns q d e) (h2 : Turns q e f) : Turns q d f := by
  refine ⟨h1.calm.trans h2.calm, fun w hw hf => ?_⟩
  obtain ⟨v, hv, h1v⟩ := h1.queue w hw hf
  obtain ⟨u, hu, h2u⟩ := h2.queue v hv (by rw [h1v.rest]; exact hf)
  exact ⟨u, hu, h1v.trans h2u⟩

theorem each {α : Type} {g : α → Dev → Dev} (h : ∀ x d, Turns q d (g x d)) (l : List α) (d : Dev) : Turns q d (each l g d) :=
  List.foldlRecOn (motive := fun e => Turns q d e) _ _ (refl d) fun _ he x _ => he.trans (h x _)

theorem updWq {k : Nat} {g : WQ → WQ} (d : Dev) (h : k = q → ∀ w, wqAt q d = some w → w.feed ≠ 2 → Turned w (g w)) : Turns q d (updWq k g d) := by
  refine ⟨.updWq .., fun w hw hf => ?_⟩
  by_cases hk : k = q
  · subst hk
    exact ⟨g w, by rw [wqAt_updWq_self, hw]; rfl, h rfl w hw hf⟩
  · exact ⟨w, by rwa [wqAt_updWq_other _ _ (Ne.symm hk)], .refl w⟩

theorem updCr (r : Nat) (g : CR → CR) (d : Dev) : Turns q d (updCr r g d) := of_q (.updCr ..) rfl

theorem noted (h : Noted d e) : Turns q d e := of_q (.of_noted h) (by rw [h.rest])

/-- A new head holds no slot. -/
theorem slot_of_mkHead {die idx : Nat} {l : List Byte} {t : Option Tile} {b : Option Nat} {d : Dev} {g : Head} (h : some (mkHead die idx l t b d) = some g) :
    g.slot = none := by
  rw [← Option.some.inj h]
  rfl

theorem takeCopy {k : Nat} (idx : Nat) (l : List Byte) (d : Dev) : Turns q d (takeCopy k idx l d) := by
  unfold Machine.takeCopy
  split
  · exact updWq d fun _ w _ _ => .of_look w w.p false w.stalled false fun g hg => .inr (slot_of_mkHead hg)
  · exact updWq d fun _ w _ _ => .of_look w w.p false (!w.again) false fun g hg => .inl hg

theorem tryRead (k : Nat) (d : Dev) : Turns q d (tryRead k d) := by
  unfold Machine.tryRead
  split
  · exact refl d
  next v hv =>
  split
  · exact refl d
  split
  · next hf =>
    split
    · exact refl d
    · refine updWq d fun hk w hw hne => absurd hf ?_
      subst hk
      rw [hv] at hw
      cases hw
      exact hne
  split
  · exact refl d
  split
  · split
    · refine trans (updWq (k := k) (g := fun w => { w with reading := true }) d fun _ w _ _ => ?_) (of_q (.hostRead ..) ?_)
      · exact .of_look w w.p true w.stalled w.again fun g hg => .inl hg
      · rw [hostRead_q]
    · exact refl d
  split
  · exact refl d
  split
  · exact (noted (.correct ..)).trans (takeCopy ..)
  · refine (noted (.noteUe ..)).trans (updWq _ fun _ w _ _ => ?_)
    exact .of_look w w.p w.reading w.stalled w.again fun g hg => .inr (slot_of_mkHead hg)

theorem setProducer (k p : Nat) (d : Dev) : Turns q d (setProducer k p d) := by
  unfold Machine.setProducer
  split
  · exact refl d
  split
  · exact refl d
  · refine trans (updWq d fun _ w _ _ => ?_) (tryRead ..)
    exact .of_look w (p % 2 ^ _) w.reading false w.reading fun g hg => .inl hg

theorem ringWrite (inst loc a : Nat) (l : List Byte) (d : Dev) : Turns q d (ringWrite inst loc a l d) := of_q (.ringWrite ..) (by rw [ringWrite_any_q])

theorem setCounter (idx v : Nat) (d : Dev) : Turns q d (setCounter idx v d) := by
  unfold Machine.setCounter
  dsimp only
  refine trans ?_ (each (fun k d => setProducer ..) _ _)
  have hset : Turns q d (if idx < 0x4000 then Machine.updCr idx (fun c => { c with counter := v % 2 ^ 48 }) d
      else { d with q := { d.q with ctrs := Tab.modify d.q.ctrs idx (fun c => { c with value := v % 2 ^ 48 }) } }) := by
    split
    · exact updCr ..
    · exact of_q (.of_rest rfl) rfl
  split
  · split
    · exact hset.trans (ringWrite ..)
    · exact hset
  · exact hset

theorem moderate (r : Nat) (d : Dev) : Turns q d (moderate r d) := by
  unfold Machine.moderate notify
  split
  · exact updCr ..
  split
  · exact updCr ..
  · refine ((updCr ..).trans (updCr ..)).trans (of_q (.raiseVector ..) ?_)
    rw [raiseVector_q]

theorem thenCount (count : Option (Nat × Nat × Nat)) (d : Dev) : Turns q d (thenCount count d) := by
  unfold Machine.thenCount addCounter
  split
  · split
    · exact setCounter ..
    · exact refl d
  · exact refl d

theorem entrySeen (r : Nat) (count : Option (Nat × Nat × Nat)) (d : Dev) : Turns q d (entrySeen r count d) :=
  (((updCr ..).trans (setCounter ..)).trans (moderate ..)).trans (thenCount ..)

theorem writeEntry (r : Nat) (e : Entry) (count : Option (Nat × Nat × Nat)) (d : Dev) : Turns q d (writeEntry r e count d) := by
  unfold Machine.writeEntry entryNowhere
  split
  · exact thenCount ..
  split
  · exact (updCr ..).trans (thenCount ..)
  dsimp only
  split
  · refine (updCr ..).trans (of_q (.sendLink ..) ?_)
    rw [sendLink_q]
  · exact ((updCr ..).trans (ringWrite ..)).trans (entrySeen ..)

/-- Descriptors that are finished leave the front of their queue. -/
theorem drain (k n : Nat) (d : Dev) : Turns q d (drain k n d) := by
  induction n generalizing d with
  | zero => exact refl d
  | succ n ih =>
    unfold Machine.drain
    split
    · exact refl d
    next v hv =>
    split
    · exact refl d
    next x rest hx =>
    split
    · exact refl d
    split
    · exact refl d
    · refine ((updWq d fun hk w hw _ => ?_).trans (writeEntry ..)).trans (ih _)
      subst hk
      rw [hv] at hw
      cases hw
      exact ⟨rfl, ⟨[x], hx.symm⟩, fun g hg => .inl hg⟩

end Turns

end Sys2Proof.Machine
end

section
/-! SUPPORT. The entry of a finished descriptor (R209, R210, R215 to R218): what it leaves of its ring, of the counters and of the memories. -/

namespace Sys2Proof.Machine

/-! ## What a ring and the counters say (R215, R217) -/

/-- The instance of a ring, its entries that were not returned, its next slot and its counter. -/
def CR.tally (c : CR) : Nat × Nat × Nat × Nat := (c.inst, c.written, c.wr, c.counter)

/-- The rings' tallies and the free counters are as they were. -/
structure SameTally (d e : Dev) : Prop where
  rings : ∀ r, (crAt r e).map CR.tally = (crAt r d).map CR.tally
  ctrs : e.q.ctrs = d.q.ctrs

theorem crAt_updCr_self (r : Nat) (g : CR → CR) (d : Dev) : crAt r (updCr r g d) = (crAt r d).map g := by simp [crAt, updCr]

theorem crAt_updCr_other {r k : Nat} (g : CR → CR) (d : Dev) (h : k ≠ r) : crAt k (updCr r g d) = crAt k d := by
  simp [crAt, updCr, Tab.get_modify_other _ _ h]

namespace SameTally

variable {d e f : Dev}

theorem of_counters (h : SameCounters d e) : SameTally d e := ⟨fun r => by rw [crAt, h.1, ← crAt], h.2⟩

theorem of_q (h : e.q = d.q) : SameTally d e := of_counters (sameCounters_of_q h)

theorem trans (h1 : SameTally d e) (h2 : SameTally e f) : SameTally d f := ⟨fun r => (h2.rings r).trans (h1.rings r), h2.ctrs.trans h1.ctrs⟩

theorem updCr {r : Nat} {g : CR → CR} (hg : ∀ c, (g c).tally = c.tally) (d : Dev) : SameTally d (updCr r g d) := by
  refine ⟨fun k => ?_, rfl⟩
  by_cases hk : k = r
  · subst hk
    rw [crAt_updCr_self, Option.map_map]
    exact congrArg (fun h => (crAt k d).map h) (funext hg)
  · rw [crAt_updCr_other _ _ hk]

theorem moderate (r : Nat) (d : Dev) : SameTally d (moderate r d) := by
  unfold Machine.moderate notify
  have hcount : SameTally d (Machine.updCr r (fun c => { c with unseen := c.unseen + 1, oldest := if c.unseen = 0 then clock iodie d else c.oldest }) d) :=
    updCr (by exact fun _ => rfl) d
  split
  · exact hcount
  split
  · exact hcount
  · refine trans (hcount.trans (updCr (fun c => ?_) _)) (of_q (raiseVector_q ..))
    rfl

theorem ring_field (h : SameTally d e) {r : Nat} {α : Type} (g : Nat × Nat × Nat × Nat → α) :
    (crAt r e).map (fun c => g c.tally) = (crAt r d).map (fun c => g c.tally) := by
  have hg := congrArg (Option.map g) (h.rings r)
  rwa [Option.map_map, Option.map_map] at hg

theorem counterVal (h : SameTally d e) (i : Nat) : counterVal i e = counterVal i d := by
  have hc : (crAt i e).map CR.counter = (crAt i d).map CR.counter := h.ring_field fun t => t.2.2.2
  rw [Machine.counterVal, Machine.counterVal, hc, h.ctrs]

theorem counterOwner (h : SameTally d e) (i : Nat) : counterOwner i e = counterOwner i d := by
  have hc : (crAt i e).map CR.inst = (crAt i d).map CR.inst := h.ring_field fun t => t.1
  rw [Machine.counterOwner, Machine.counterOwner, hc, h.ctrs]

end SameTally

/-- A counter takes a value. -/
def setValue (idx v : Nat) (d : Dev) : Dev :=
  if idx < 0x4000 then updCr idx (fun c => { c with counter := v % 2 ^ 48 }) d
  else { d with q := { d.q with ctrs := Tab.modify d.q.ctrs idx (fun c => { c with value := v % 2 ^ 48 }) } }

/-- The mirror of a counter and the queues that it feeds leave the counters. -/
theorem sameCounters_setCounter (idx v : Nat) (d : Dev) : SameCounters (setValue idx v d) (setCounter idx v d) := by
  unfold setCounter
  dsimp only
  refine SameCounters.trans ?_ (sameCounters_each (fun q d => sameCounters_setProducer q _ d) _ _)
  split
  · split
    · exact sameCounters_ringWrite ..
    · exact ⟨rfl, rfl⟩
  · exact ⟨rfl, rfl⟩

/-- The value that a counter takes changes of a ring its own counter alone. -/
theorem crAt_setCounter (idx v r : Nat) (d : Dev) :
    crAt r (setCounter idx v d) = if idx < 0x4000 ∧ r = idx then (crAt r d).map (fun c => { c with counter := v % 2 ^ 48 }) else crAt r d := by
  rw [crAt, (sameCounters_setCounter idx v d).1, ← crAt, setValue]
  split
  · next hi =>
    split
    · next hr => rw [hr.2, crAt_updCr_self]
    · next hr => exact crAt_updCr_other _ _ fun h => hr ⟨hi, h⟩
  · next hi => rw [if_neg fun h => hi h.1]; rfl

/-- An addition changes of a ring its own counter alone. -/
theorem crAt_thenCount (count : Option (Nat × Nat × Nat)) (r : Nat) (d : Dev) :
    ∃ v : CR → Nat, crAt r (thenCount count d) = (crAt r d).map (fun c => { c with counter := v c }) := by
  have hself : crAt r d = (crAt r d).map (fun c => { c with counter := c.counter }) := by simp
  unfold thenCount addCounter
  split
  · split
    · rw [crAt_setCounter]
      split
      · exact ⟨fun _ => _, rfl⟩
      · exact ⟨CR.counter, hself⟩
    · exact ⟨CR.counter, hself⟩
  · exact ⟨CR.counter, hself⟩

theorem counter_congr {i : Nat} {d e : Dev} (hr : crAt i e = crAt i d) (hc : e.q.ctrs = d.q.ctrs) :
    counterVal i e = counterVal i d ∧ counterOwner i e = counterOwner i d := by
  simp only [counterVal, counterOwner, hr, hc, and_self]

/-! ## An entry that becomes visible (R210, R215, R216) -/

/-- What the entry of a ring that held `c` leaves: the ring holds one more and counts it, the addition follows, and without one the memories change by the
entry alone. -/
structure EntryAdded (r : Nat) (c : CR) (l : List Byte) (count : Option (Nat × Nat × Nat)) (d e : Dev) : Prop where
  written : (crAt r e).map CR.written = some (c.written + 1)
  wr : (crAt r e).map CR.wr = some ((c.wr + 1) % 2 ^ c.log2)
  counter : count = none → counterVal r e = (c.counter + 1) % 2 ^ 48
  added : ∀ n i k, count = some (n, i, k) → i ≠ r → counterOwner i d = some n → counterVal i e = (counterVal i d + k) % 2 ^ 48
  host : count = none → c.loc = 0 → linkOpen d = true →
    e.link.hostMem = Mem.writeN d.link.hostMem (hostKey c.inst (c.ring + 32 * c.wr)) l
  dev : count = none → c.loc = 0 → e.tiers.dev = d.tiers.dev

section Seen

variable {r : Nat} {c : CR} {d : Dev} (hr : r < 0x4000) (hc : crAt r d = some c)
include hr hc

theorem counterVal_of_crAt : counterVal r d = c.counter := by
  rw [counterVal, if_pos hr, hc]
  rfl

/-- The ring has counted its entry, before the addition. -/
theorem entrySeen_counted (count : Option (Nat × Nat × Nat)) : ∃ f : Dev, entrySeen r count d = thenCount count f ∧ SameMem d f ∧
    (∃ k, crAt r f = some k ∧ k.written = c.written + 1 ∧ k.wr = c.wr ∧ k.counter = (c.counter + 1) % 2 ^ 48) ∧
    ∀ i, i ≠ r → counterVal i f = counterVal i d ∧ counterOwner i f = counterOwner i d := by
  unfold entrySeen
  dsimp only
  have hmem : SameMem d (updCr r (fun c => { c with held := c.held - 1, written := c.written + 1 }) d) := .updCr ..
  have hone := crAt_updCr_self r (fun c => { c with held := c.held - 1, written := c.written + 1 }) d
  have hother := fun i (hi : i ≠ r) => crAt_updCr_other (fun c => { c with held := c.held - 1, written := c.written + 1 }) d hi
  have hctrs : (updCr r (fun c => { c with held := c.held - 1, written := c.written + 1 }) d).q.ctrs = d.q.ctrs := rfl
  generalize updCr r (fun c => { c with held := c.held - 1, written := c.written + 1 }) d = e at hmem hone hother hctrs ⊢
  rw [hc, Option.map_some] at hone
  have hval : counterVal r e + 1 = c.counter + 1 := by rw [counterVal_of_crAt hr hone]
  have htally := SameTally.moderate r (setCounter r (counterVal r e + 1) e)
  have hset : (crAt r (setCounter r (counterVal r e + 1) e)).map CR.tally = some (c.inst, c.written + 1, c.wr, (c.counter + 1) % 2 ^ 48) := by
    rw [crAt_setCounter, if_pos ⟨hr, rfl⟩, hone, hval]
    rfl
  refine ⟨_, rfl, (hmem.trans (.setCounter hr ..)).trans (.moderate ..), ?_, fun i hi => ?_⟩
  · obtain ⟨k, hk, hkt⟩ := Option.map_eq_some_iff.mp ((htally.rings r).trans hset)
    simp only [CR.tally, Prod.mk.injEq] at hkt
    obtain ⟨-, hwritten, hwr, hcounter⟩ := hkt
    exact ⟨k, hk, hwritten, hwr, hcounter⟩
  · have hring := crAt_setCounter r (counterVal r e + 1) i e
    rw [if_neg fun h => hi h.2, hother i hi] at hring
    have hfree : (setCounter r (counterVal r e + 1) e).q.ctrs = d.q.ctrs := by
      rw [(sameCounters_setCounter ..).2, setValue, if_pos hr, ← hctrs]
      rfl
    rw [htally.counterVal, htally.counterOwner]
    exact counter_congr hring hfree

/-- The entry of a ring becomes visible. -/
theorem entrySeen_adds {c0 : CR} {e : Dev} {l : List Byte} (count : Option (Nat × Nat × Nat)) (hw : c.written = c0.written)
    (hwr : c.wr = (c0.wr + 1) % 2 ^ c0.log2) (hcounter : c.counter = c0.counter)
    (hother : ∀ i, i ≠ r → counterVal i d = counterVal i e ∧ counterOwner i d = counterOwner i e)
    (hhost : c0.loc = 0 → linkOpen e = true → d.link.hostMem = Mem.writeN e.link.hostMem (hostKey c0.inst (c0.ring + 32 * c0.wr)) l)
    (hdev : c0.loc = 0 → d.tiers.dev = e.tiers.dev) : EntryAdded r c0 l count e (entrySeen r count d) := by
  obtain ⟨f, hf, hmem, ⟨k, hk, hkw, hkwr, hkc⟩, hrest⟩ := entrySeen_counted hr hc count
  rw [hf]
  obtain ⟨v, hv⟩ := crAt_thenCount count r f
  rw [hk, Option.map_some] at hv
  refine ⟨by rw [hv, Option.map_some, hkw, hw], by rw [hv, Option.map_some, hkwr, hwr], fun hn => ?_, fun n i j hn hi ho => ?_, fun hn hl ho => ?_,
    fun hn hl => ?_⟩
  · subst hn
    rw [thenCount, counterVal_of_crAt hr hk, hkc, hcounter]
  · subst hn
    obtain ⟨hvi, hoi⟩ := hrest i hi
    obtain ⟨hvd, hod⟩ := hother i hi
    have hown : counterOwner i f = some n := by rw [hoi, hod, ho]
    rw [thenCount, addCounter, if_pos hown, counterVal_setCounter hown, hvi, hvd]
  · subst hn
    rw [thenCount, hmem.host, hhost hl ho]
  · subst hn
    rw [thenCount, hmem.dev, hdev hl]

end Seen

/-- A write of a ring in host memory over an open link is in host memory at once. -/
theorem ringWrite_hostMem {inst loc a : Nat} {l : List Byte} {d : Dev} (hl : loc = 0) (ho : linkOpen d = true) :
    (ringWrite inst loc a l d).link.hostMem = Mem.writeN d.link.hostMem (hostKey inst a) l := by
  rw [ringWrite, if_pos hl, hostWrite_open ho]

theorem ringWrite_host_tiers {inst loc a : Nat} {l : List Byte} {d : Dev} (hl : loc = 0) : (ringWrite inst loc a l d).tiers = d.tiers := by
  rw [ringWrite, if_pos hl, hostWrite, hostPut]
  split
  · rw [LinkOnly.sendLink]
  · rfl

/-- An entry is written to a ring that is not detached, and no retrain holds it. -/
theorem writeEntry_adds {r : Nat} {c : CR} {d : Dev} (hr : r < 0x4000) (hc : crAt r d = some c) (hd : c.detached = false) {y : Entry}
    (hy : y.kind ≠ silentKind) (ht : d.link.retrain = false) (count : Option (Nat × Nat × Nat)) :
    EntryAdded r c y.bytesOf count d (writeEntry r y count d) := by
  have hone := crAt_updCr_self r (fun c => { c with wr := (c.wr + 1) % 2 ^ c.log2 }) d
  rw [hc, Option.map_some] at hone
  have hq : ∀ a l, SameCounters (updCr r (fun c => { c with wr := (c.wr + 1) % 2 ^ c.log2 }) d)
      (ringWrite c.inst c.loc a l (updCr r (fun c => { c with wr := (c.wr + 1) % 2 ^ c.log2 }) d)) := fun a l => sameCounters_ringWrite ..
  unfold writeEntry
  simp only [hc, hd, hy, ht, decide_false, Bool.or_self, Bool.and_false, Bool.false_and, Bool.false_eq_true, if_false]
  refine entrySeen_adds (c := { c with wr := (c.wr + 1) % 2 ^ c.log2 }) hr (by rw [crAt, (hq ..).1, ← crAt, hone]) count rfl rfl rfl (fun i hi => ?_) (fun hl ho => ?_) fun hl => ?_
  · refine counter_congr ?_ (hq ..).2
    rw [crAt, (hq ..).1, ← crAt, crAt_updCr_other _ _ hi]
  · rw [ringWrite_hostMem hl (by exact ho), if_pos hl, updCr_link]
  · rw [ringWrite_host_tiers hl, updCr_tiers]

/-- The one finished descriptor of a queue writes its entry, where its OWN write and its tile do not hold it. -/
theorem drainAll_one {q : Nat} {v : WQ} {x : Desc} {y : Entry} {d : Dev} (hv : wqAt q d = some v) (hx : v.flight = [x]) (hy : x.done = some y)
    (hw : d.link.waiting = []) (he : ∀ t ∈ d.bricks.ends, ¬(t.q = q ∧ t.idx = x.idx)) :
    drainAll q d = writeEntry v.cr (v.entryOf x y d) (x.count.map (fun c => (v.inst, c.1, c.2))) (updWq q (fun w => { w with flight := [] }) d) := by
  have hown : ownWaits q v x.idx d = false := by simp [ownWaits, hw]
  have hends : d.bricks.ends.any (fun t => t.q == q && t.idx == x.idx) = false := by simpa using he
  simp only [drainAll, hv, Option.map_some, Option.getD_some, hx, List.length_singleton, drain, hy, hown, hends, Bool.or_self, Bool.false_eq_true, if_false]

end Sys2Proof.Machine
end

section
/-! SUPPORT. What the stop of a descriptor's work leaves (R247, R252, R361, R387): its messages are gone, and the queues, the memories, the entries that
wait on remote tiles and what is under way elsewhere are as they were. -/

namespace Sys2Proof.Machine

/-! ## What stays -/

/-- The queues, the memories and the link's state are as they were, nothing new waits, and nothing new is under way on the local path. -/
structure Stops (d e : Dev) : Prop where
  q : e.q = d.q
  mem : SameMem d e
  up : e.link.up = d.link.up
  lost : e.link.lost = d.link.lost
  retrain : e.link.retrain = d.link.retrain
  waiting : d.link.waiting = [] → e.link.waiting = []
  behind : ∀ b ∈ e.link.behind, b ∈ d.link.behind
  ends : e.bricks.ends = d.bricks.ends
  loops : (∀ p ∈ d.pes, p.loop = []) → ∀ p ∈ e.pes, p.loop = []
  dmas : d.link.dmas = [] → e.link.dmas = []

namespace Stops

variable {d e f : Dev}

theorem refl (d : Dev) : Stops d d := ⟨rfl, .refl d, rfl, rfl, rfl, id, fun _ => id, rfl, id, id⟩

theorem trans (h1 : Stops d e) (h2 : Stops e f) : Stops d f where
  q := h2.q.trans h1.q
  mem := h1.mem.trans h2.mem
  up := h2.up.trans h1.up
  lost := h2.lost.trans h1.lost
  retrain := h2.retrain.trans h1.retrain
  waiting := h2.waiting ∘ h1.waiting
  behind b hb := h1.behind b (h2.behind b hb)
  ends := h2.ends.trans h1.ends
  loops := h2.loops ∘ h1.loops
  dmas := h2.dmas ∘ h1.dmas

theorem each {α : Type} {g : α → Dev → Dev} (h : ∀ x d, Stops d (g x d)) (l : List α) (d : Dev) : Stops d (each l g d) :=
  List.foldlRecOn (motive := fun e => Stops d e) _ _ (refl d) fun _ he x _ => he.trans (h x _)

theorem of_net (h : NetOnly d e) : Stops d e := by
  rw [h]
  exact ⟨rfl, ⟨rfl, rfl⟩, rfl, rfl, rfl, id, fun _ => id, rfl, id, id⟩

theorem of_ledger (h : LedgerOnly d e) : Stops d e := by
  rw [h]
  exact ⟨rfl, ⟨rfl, rfl⟩, rfl, rfl, rfl, id, fun _ => id, rfl, id, id⟩

theorem updPes (i : Nat) {g : Pesyn → Pesyn} (hg : ∀ p, p.loop = [] → (g p).loop = []) (d : Dev) : Stops d (updPes i g d) := by
  refine ⟨rfl, ⟨rfl, rfl⟩, rfl, rfl, rfl, id, fun _ => id, rfl, fun hl p hp => ?_, id⟩
  rcases List.mem_or_eq_of_mem_set hp with hp | rfl
  · exact hl p hp
  · exact hg _ (pesAt_loop_of_quiet hl i)

theorem endMsg (i seq : Nat) (d : Dev) : Stops d (endMsg i seq d) := by
  unfold Machine.endMsg takeBack
  split
  · exact refl d
  · refine ((trans (updPes i (fun p hp => ?_) d) (updPes i (fun p hp => ?_) _)).trans (of_net (.withdraw ..))).trans (of_net rfl)
    · exact hp
    · simp [hp]

theorem endMsgs (g : Msg → Bool) (d : Dev) : Stops d (endMsgs g d) := each (fun _ _ => each (fun _ _ => endMsg ..) _ _) _ _

theorem closeReads (g : Nat × Nat → Bool) (d : Dev) : Stops d (closeReads g d) :=
  each (fun i d => updPes i (by exact fun _ hp => hp) d) _ _

theorem leaveFaults (g : Waiter → Bool) (d : Dev) : Stops d (leaveFaults g d) := ⟨rfl, ⟨rfl, rfl⟩, rfl, rfl, rfl, id, fun _ => id, rfl, id, id⟩

/-- What a descriptor's host DMA has under way goes. -/
theorem links {r : Tab HostRead} {m : Tab Dma} {b : List Behind} {w : List LinkTx} (d : Dev) (hm : d.link.dmas = [] → m = [])
    (hb : ∀ x ∈ b, x ∈ d.link.behind) (hw : d.link.waiting = [] → w = []) :
    Stops d { d with link := { d.link with dmas := m, reads := r, behind := b, waiting := w } } :=
  ⟨rfl, ⟨rfl, rfl⟩, rfl, rfl, rfl, hw, hb, rfl, id, hm⟩

theorem updBrick (b : Nat) (g : Brick → Brick) (d : Dev) : Stops d (updBrick b g d) := ⟨rfl, ⟨rfl, rfl⟩, rfl, rfl, rfl, id, fun _ => id, rfl, id, id⟩

theorem when_ {g : Dev → Dev} (h : ∀ d, Stops d (g d)) (c : Bool) (d : Dev) : Stops d (when_ c g d) := by
  unfold Machine.when_
  split
  · exact h d
  · exact refl d

/-- A launch goes with its contexts and what of it is staged. -/
theorem launchGone (s : List Staged) (c : Tab BCtx) (l : Tab Launch) (d : Dev) :
    Stops d { d with tiers := { d.tiers with staged := s }, bricks := { d.bricks with ctxs := c, launches := l } } :=
  ⟨rfl, ⟨rfl, rfl⟩, rfl, rfl, rfl, id, fun _ => id, rfl, id, id⟩

theorem dropLaunch (l : Nat) (d : Dev) : Stops d (dropLaunch l d) := by
  unfold Machine.dropLaunch
  split
  · exact refl d
  · refine trans ?_ (of_ledger (.of_step (.idleDdr _)))
    refine trans ?_ (launchGone _ _ _ _)
    refine trans (each (fun b d => ?_) _ d) (leaveFaults ..)
    exact (updBrick ..).trans (when_ (fun d => of_ledger (.returnGrant _ d)) _ _)

theorem stopDesc (q idx : Nat) (d : Dev) : Stops d (stopDesc q idx d) := by
  unfold Machine.stopDesc
  refine trans (((trans ((endMsgs ..).trans (closeReads ..)) (links _ (fun h => ?_) (fun x hx => ?_) fun h => ?_)).trans (leaveFaults ..))) (each (fun l d => dropLaunch l d) _ _)
  · simp [h, Tab.keep]
  · exact List.mem_of_mem_filter hx
  · simp [h]

end Stops

/-! ## Messages that are gone (R252) -/

/-- No message that a test names is on a fabric die. -/
def NoMsgs (f : Msg → Bool) (i : Nat) (d : Dev) : Prop := ∀ m ∈ (pesAt i d).msgs, f m.2 = false

/-- Every message of the fabric dies was there before. -/
def FewerMsgs (d e : Dev) : Prop := ∀ i, ∀ m ∈ (pesAt i e).msgs, m ∈ (pesAt i d).msgs

theorem FewerMsgs.refl (d : Dev) : FewerMsgs d d := fun _ _ => id

theorem FewerMsgs.trans {d e f : Dev} (h1 : FewerMsgs d e) (h2 : FewerMsgs e f) : FewerMsgs d f := fun i m hm => h1 i m (h2 i m hm)

theorem FewerMsgs.of_pes {d e : Dev} (h : e.pes = d.pes) : FewerMsgs d e := fun i m hm => by rwa [pesAt, h, ← pesAt] at hm

theorem FewerMsgs.each {α : Type} {g : α → Dev → Dev} (h : ∀ x d, FewerMsgs d (g x d)) (l : List α) (d : Dev) : FewerMsgs d (each l g d) :=
  List.foldlRecOn (motive := fun e => FewerMsgs d e) _ _ (refl d) fun _ he x _ => he.trans (h x _)

theorem FewerMsgs.updPes (j : Nat) {g : Pesyn → Pesyn} (hg : ∀ p, ∀ m ∈ (g p).msgs, m ∈ p.msgs) (d : Dev) : FewerMsgs d (updPes j g d) := by
  intro i m hm
  rcases pesAt_updPes (i := i) (j := j) (f := g) (d := d) with ⟨he, rfl⟩ | he
  · exact hg _ m (by rwa [he] at hm)
  · rwa [he] at hm

theorem FewerMsgs.closeReads (f : Nat × Nat → Bool) (d : Dev) : FewerMsgs d (closeReads f d) :=
  each (fun i d => updPes i (by exact fun _ _ hm => hm) d) _ _

theorem NoMsgs.fewer {f : Msg → Bool} {i : Nat} {d e : Dev} (h : NoMsgs f i d) (hf : FewerMsgs d e) : NoMsgs f i e := fun m hm => h m (hf i m hm)

/-- A message that ends goes with every other under its sequence. -/
theorem endMsg_msgs (i seq : Nat) (d : Dev) : FewerMsgs d (endMsg i seq d) ∧ ∀ m ∈ (pesAt i (endMsg i seq d)).msgs, m.1 ≠ seq := by
  unfold endMsg
  split
  · next hnone => exact ⟨.refl d, fun m hm hk => (Tab.get_eq_none_iff _ _).mp hnone m hm hk⟩
  · next m hm =>
    have herase : FewerMsgs d (updPes i (fun p => { p with msgs := Tab.erase p.msgs seq }) d) :=
      .updPes i (fun _ _ h => List.mem_of_mem_filter h) d
    have hgone : ∀ k ∈ (pesAt i (updPes i (fun p => { p with msgs := Tab.erase p.msgs seq }) d)).msgs, k.1 ≠ seq := by
      intro k hk
      have hlen : i < d.pes.length := by
        by_contra hge
        rw [msgAt, pesAt, listGet, List.getD_eq_getElem?_getD, List.getElem?_eq_none (by omega)] at hm
        cases hm
      have hself : pesAt i (updPes i (fun p => { p with msgs := Tab.erase p.msgs seq }) d) = { pesAt i d with msgs := Tab.erase (pesAt i d).msgs seq } := by
        simp [pesAt, updPes, listGet, hlen]
      rw [hself] at hk
      simpa using (List.mem_filter.mp hk).2
    generalize updPes i (fun p => { p with msgs := Tab.erase p.msgs seq }) d = e at herase hgone ⊢
    have hback : FewerMsgs e (dropPort i m.tag (takeBack i m.tag e)) := by
      unfold takeBack
      have hframes : ∀ (g : Frame → Bool) (c : Dev), FewerMsgs c (dropPort i m.tag (withdraw g c)) := fun g c => .of_pes (by
        change (withdraw g c).pes = _
        rw [NetOnly.withdraw g c])
      refine FewerMsgs.trans ?_ (hframes _ _)
      exact .updPes i (by exact fun _ _ h => h) e
    exact ⟨herase.trans hback, fun k hk => hgone k (hback i k hk)⟩

/-- The messages of one die that a test names end. -/
theorem each_endMsg_msgs (i : Nat) (l : List Nat) (d : Dev) :
    FewerMsgs d (each l (endMsg i) d) ∧ ∀ m ∈ (pesAt i (each l (endMsg i) d)).msgs, m.1 ∉ l := by
  induction l generalizing d with
  | nil => exact ⟨.refl d, fun _ _ h => by cases h⟩
  | cons k l ih =>
    obtain ⟨hone, hk⟩ := endMsg_msgs i k d
    obtain ⟨hrest, hl⟩ := ih (endMsg i k d)
    refine ⟨hone.trans hrest, fun m hm hmem => ?_⟩
    rcases List.mem_cons.mp hmem with h | h
    · exact hk m (hrest i m hm) h
    · exact hl m hm h

/-- Every message that a test names ends. -/
theorem endMsgs_msgs (f : Msg → Bool) (d : Dev) : FewerMsgs d (endMsgs f d) ∧ ∀ i < 2, NoMsgs f i (endMsgs f d) := by
  have hdie : ∀ i d, FewerMsgs d (each ((Tab.keep (pesAt i d).msgs (fun _ m => f m)).map Prod.fst) (endMsg i) d) ∧
      NoMsgs f i (each ((Tab.keep (pesAt i d).msgs (fun _ m => f m)).map Prod.fst) (endMsg i) d) := by
    intro i d
    obtain ⟨hfew, hnone⟩ := each_endMsg_msgs i ((Tab.keep (pesAt i d).msgs (fun _ m => f m)).map Prod.fst) d
    refine ⟨hfew, fun m hm => ?_⟩
    by_contra htrue
    exact hnone m hm (List.mem_map_of_mem (List.mem_filter.mpr ⟨hfew i m hm, by simpa using htrue⟩))
  obtain ⟨hfew0, hno0⟩ := hdie 0 d
  obtain ⟨hfew1, hno1⟩ := hdie 1 (each ((Tab.keep (pesAt 0 d).msgs (fun _ m => f m)).map Prod.fst) (endMsg 0) d)
  refine ⟨hfew0.trans hfew1, fun i hi => ?_⟩
  rcases (by omega : i = 0 ∨ i = 1) with rfl | rfl
  · exact hno0.fewer hfew1
  · exact hno1

theorem FewerMsgs.dropLaunch (l : Nat) (d : Dev) : FewerMsgs d (dropLaunch l d) := by
  refine of_pes ?_
  have hgrant : ∀ (u : UnitId) (d : Dev), (returnGrant u d).pes = d.pes := fun u d => by rw [LedgerOnly.returnGrant u d]
  unfold Machine.dropLaunch
  split
  · rfl
  · rw [(LedgerStep.idleDdr _).rest]
    refine List.foldlRecOn (motive := fun e : Dev => e.pes = d.pes) _ _ rfl fun e he b _ => ?_
    unfold when_
    dsimp only
    split
    · rw [hgrant]
      exact he
    · exact he

/-- The messages of a descriptor whose work stops are gone (R252). -/
theorem stopDesc_msgs (q idx : Nat) (d : Dev) : ∀ i < 2, NoMsgs (fun m => decide (m.owner = .desc q idx)) i (stopDesc q idx d) := by
  intro i hi
  have hgone := (endMsgs_msgs (fun m => decide (m.owner = .desc q idx)) d).2 i hi
  unfold stopDesc
  generalize endMsgs (fun m => decide (m.owner = .desc q idx)) d = d1 at hgone ⊢
  dsimp only
  generalize hc : closeReads _ d1 = d2
  have hclosed := hgone.fewer (hc ▸ FewerMsgs.closeReads _ d1)
  refine hclosed.fewer (FewerMsgs.trans ?_ (.each (fun l d => .dropLaunch l d) _ _))
  exact .of_pes rfl

end Sys2Proof.Machine
end

section
/-! SUPPORT. A head that is consumed and completes with a status (R198, R203, R209 to R211, R215): what its entry and the write of its OWN bit leave. -/

namespace Sys2Proof.Machine

/-! ## The write of OWN (R203) -/

/-- The last byte of an entry, which its consumption clears. -/
def WQ.ownAt (w : WQ) (idx : Nat) : Nat := w.entryAt idx + 63

/-- The device after the write that clears the OWN bit of a consumed entry. -/
def ownWritten (q : Nat) (w : WQ) (h : Head) (d : Dev) : Dev :=
  if h.bad.isSome then d
  else if w.loc = 0 then
    (if hostOpen d then sendLink ⟨0, w.inst, w.inst, none, .ownByte q h.idx (w.ownAt h.idx)⟩ d else d)
  else ringWrite w.inst w.loc (w.ownAt h.idx) [0] d

theorem consume_eq {q : Nat} {w : WQ} {h : Head} {d : Dev} (hw : wqAt q d = some w) (hh : w.head = some h) (hf : w.feed ≠ 2) :
    consume q d = tryRead q (updWq q (fun w => { w with head := none, c := w.c + 1 }) (ownWritten q w h d)) := by
  simp only [consume, hw, hh, if_neg hf]
  rfl

theorem ownWritten_q (q : Nat) (w : WQ) (h : Head) (d : Dev) : (ownWritten q w h d).q = d.q := by
  unfold ownWritten
  (repeat' split) <;> simp

theorem ownWritten_calm (q : Nat) (w : WQ) (h : Head) (d : Dev) : Calm d (ownWritten q w h d) := by
  unfold ownWritten
  split
  · exact .refl d
  split
  · split
    · exact .sendLink ..
    · exact .refl d
  · exact .ringWrite ..

/-- Memory changed in the last byte of an entry alone, which is clear where the entry is in host memory. -/
structure Cleared (w : WQ) (h : Head) (d e : Dev) : Prop where
  own : linkOpen d = true → w.loc = 0 → h.bad = none → Mem.read e.link.hostMem (hostKey w.inst (w.ownAt h.idx)) = 0
  host : ∀ a, ¬(w.loc = 0 ∧ a = hostKey w.inst (w.ownAt h.idx)) → Mem.read e.link.hostMem a = Mem.read d.link.hostMem a
  dev : d.xl.move = none → ∀ a, ¬(w.loc ≠ 0 ∧ ldaPhys (w.ownAt h.idx) d = some a) → Mem.read e.tiers.dev a = Mem.read d.tiers.dev a

theorem Cleared.mem {w : WQ} {h : Head} {d e f : Dev} (hc : Cleared w h d e) (hm : SameMem e f) : Cleared w h d f where
  own := by rw [hm.host]; exact hc.own
  host := by rw [hm.host]; exact hc.host
  dev := by rw [hm.dev]; exact hc.dev

/-- One byte written to device memory. -/
theorem writePieces_byte (a : Nat) (b : Byte) (d : Dev) : (writePieces [(a, 1)] [b] d).1 = writePieces.mirrorWrite a [b] (writePhys a [b] d) := rfl

/-- A byte written to device memory while no frame moves. -/
theorem writePieces_byte_other {a x : Nat} {d : Dev} (hm : d.xl.move = none) (b : Byte) (h : x ≠ a) :
    Mem.read (writePieces [(a, 1)] [b] d).1.tiers.dev x = Mem.read d.tiers.dev x := by
  have hmirror : writePieces.mirrorWrite a [b] (writePhys a [b] d) = writePhys a [b] d := by
    rw [writePieces.mirrorWrite, writePhys_xl, hm]
  rw [writePieces_byte, hmirror]
  exact writePhys_outside a [b] d (by simp only [List.length_singleton]; omega)

theorem mirrorWrite_link (a : Nat) (l : List Byte) (d : Dev) : (writePieces.mirrorWrite a l d).link = d.link := by
  unfold writePieces.mirrorWrite
  (repeat' split) <;> simp

theorem writePieces_byte_link (a : Nat) (b : Byte) (d : Dev) : (writePieces [(a, 1)] [b] d).1.link = d.link := by
  rw [writePieces_byte, mirrorWrite_link, writePhys_link]

theorem sendTx_ownByte (n m q i a : Nat) (d : Dev) :
    (sendTx ⟨0, n, m, none, .ownByte q i a⟩ d).link.hostMem = Mem.writeN d.link.hostMem (hostKey n a) [0] ∧
    (sendTx ⟨0, n, m, none, .ownByte q i a⟩ d).tiers = d.tiers := ⟨rfl, rfl⟩

/-- One byte of host memory that is written reads as it was put, and every other as it was. -/
theorem read_writeN_byte (m : Mem) (k : Nat) (b : Byte) : Mem.read (Mem.writeN m k [b]) k = b ∧
    ∀ a, a ≠ k → Mem.read (Mem.writeN m k [b]) a = Mem.read m a :=
  ⟨Mem.read_write_self m k b, fun _ h => Mem.read_write_other m b h⟩

theorem ownWritten_cleared (q : Nat) (w : WQ) (h : Head) (d : Dev) (ht : d.link.retrain = false) : Cleared w h d (ownWritten q w h d) := by
  unfold ownWritten
  by_cases hbad : h.bad.isSome
  · rw [if_pos hbad]
    exact ⟨fun _ _ hn => absurd hbad (by simp [hn]), fun _ _ => rfl, fun _ _ _ => rfl⟩
  rw [if_neg hbad]
  by_cases hloc : w.loc = 0
  · rw [if_pos hloc]
    by_cases hopen : hostOpen d = true
    · rw [if_pos hopen, sendLink, if_neg (by simp [ht])]
      obtain ⟨hput, htiers⟩ := sendTx_ownByte w.inst w.inst q h.idx (w.ownAt h.idx) d
      obtain ⟨hself, hother⟩ := read_writeN_byte d.link.hostMem (hostKey w.inst (w.ownAt h.idx)) 0
      exact ⟨fun _ _ _ => by rw [hput, hself], fun a ha => by rw [hput, hother a fun he => ha ⟨hloc, he⟩], fun _ _ _ => by rw [htiers]⟩
    · rw [if_neg hopen]
      exact ⟨fun hl => absurd (hostOpen_of_linkOpen hl) hopen, fun _ _ => rfl, fun _ _ _ => rfl⟩
  · rw [if_neg hloc, ringWrite, if_neg hloc]
    split
    · next p hp =>
      rw [List.length_singleton]
      refine ⟨fun _ hl => absurd hl hloc, fun a _ => by rw [writePieces_byte_link], fun hm a ha => ?_⟩
      exact writePieces_byte_other hm 0 fun he => ha ⟨hloc, by rw [hp, he]⟩
    · exact ⟨fun _ hl => absurd hl hloc, fun _ _ => rfl, fun _ _ _ => rfl⟩

/-! ## A head that holds its slot (R63) -/

/-- The device `e` is `d` with the head of queue `q`, which was `h`, holding its slot as `g`, and the ring counting it. -/
structure Slotted (q : Nat) (w : WQ) (h g : Head) (c : CR) (d e : Dev) : Prop where
  only : e = { d with q := e.q }
  tally : SameTally d e
  queue : wqAt q e = some { w with head := some g }
  ring : ∃ k, crAt w.cr e = some { c with held := k }
  idx : g.idx = h.idx
  bytes : g.bytes = h.bytes
  bad : g.bad = h.bad
  tile : g.tile = h.tile
  slot : g.slot.isSome = true

/-- What the end of a head needs of the rest: no retrain, nothing of the head's that its entry would wait for, and a quiet local path. -/
structure Still (q idx : Nat) (d : Dev) : Prop where
  retrain : d.link.retrain = false
  waiting : d.link.waiting = []
  behind : ∀ b ∈ d.link.behind, ¬(b.q = q ∧ b.idx = idx)
  ends : ∀ t ∈ d.bricks.ends, ¬(t.q = q ∧ t.idx = idx)
  loops : ∀ p ∈ d.pes, p.loop = []
  dmas : d.link.dmas = []

theorem Still.calm {q idx : Nat} {d e : Dev} (h : Still q idx d) (hc : Calm d e) : Still q idx e where
  retrain := hc.retrain.trans h.retrain
  waiting := (hc.waiting h.retrain).trans h.waiting
  behind := by rw [hc.behind]; exact h.behind
  ends := by rw [hc.bricks]; exact h.ends
  loops := by rw [hc.pes]; exact h.loops
  dmas := hc.dmas.trans h.dmas

theorem Still.stops {q idx : Nat} {d e : Dev} (h : Still q idx d) (hs : Stops d e) : Still q idx e where
  retrain := hs.retrain.trans h.retrain
  waiting := hs.waiting h.waiting
  behind b hb := h.behind b (hs.behind b hb)
  ends := by rw [hs.ends]; exact h.ends
  loops := hs.loops h.loops
  dmas := hs.dmas h.dmas

/-! ## A finished descriptor whose entry comes next -/

/-- The device `e`, reached from `d`: queue `q`, which was `w`, is past its head `h`, has the descriptor `x` alone in flight and is now `v`; the ring's
slot is held, and memory changed in the OWN byte alone. -/
structure AtEnd (q : Nat) (w : WQ) (h : Head) (c : CR) (x : Desc) (v : WQ) (d e : Dev) : Prop where
  queue : wqAt q e = some v
  rest : v = { w with c := w.c + 1, flight := [x], p := v.p, head := v.head, reading := v.reading, stalled := v.stalled, again := v.again }
  head : ∀ g, v.head = some g → g.slot = none
  tally : SameTally d e
  ring : ∃ k, crAt w.cr e = some { c with held := k }
  link : linkOpen e = linkOpen d
  still : Still q h.idx e
  cleared : Cleared w h d e

/-- A device that agrees on what `Safety.HeadEnds` speaks of. -/
theorem headEnds_congr {q st : Nat} {w : WQ} {h : Head} {c : CR} {d e f : Dev} (he : Safety.HeadEnds q st w h c d e)
    (hc : (wqAt q f).map WQ.c = (wqAt q e).map WQ.c) (hfl : (wqAt q f).map WQ.flight = (wqAt q e).map WQ.flight) (hq : SameCounters e f)
    (hm : SameMem e f) : Safety.HeadEnds q st w h c d f := by
  have hcr : crAt w.cr f = crAt w.cr e := by rw [crAt, hq.1, ← crAt]
  simpa only [Safety.HeadEnds, hc, hfl, hcr, counterVal_congr hq, hm.host, hm.dev] using he

section Consumed

variable {q : Nat} {w : WQ} {h g : Head} {c : CR} {d e : Dev} (hs : Slotted q w h g c d e) (hf : w.feed ≠ 2) (hst : Still q h.idx d)
include hs hf hst

/-- The head is consumed, and its descriptor is in flight alone. -/
theorem consumed_atEnd (hfl : w.flight = []) (x : Desc) :
    (∃ v, AtEnd q w h c x v d (consume q (updWq q (fun w => { w with flight := w.flight ++ [x] }) e))) ∧
    Calm d (consume q (updWq q (fun w => { w with flight := w.flight ++ [x] }) e)) := by
  obtain ⟨honly, htally, hqueue, ⟨k, hk⟩, hidx, -, hbad, -, -⟩ := hs
  have hcalm : Calm d e := .of_rest (by rw [honly])
  have hin : wqAt q (updWq q (fun w => { w with flight := w.flight ++ [x] }) e) = some { w with head := some g, flight := [x] } := by
    rw [wqAt_updWq_self, hqueue, Option.map_some, hfl]
    rfl
  rw [consume_eq hin rfl hf]
  have hcalm1 := ownWritten_calm q { w with head := some g, flight := [x] } g (updWq q (fun w => { w with flight := w.flight ++ [x] }) e)
  have hq1 := ownWritten_q q { w with head := some g, flight := [x] } g (updWq q (fun w => { w with flight := w.flight ++ [x] }) e)
  have hclear := ownWritten_cleared q { w with head := some g, flight := [x] } g (updWq q (fun w => { w with flight := w.flight ++ [x] }) e)
    (hst.calm hcalm).retrain
  generalize ownWritten q { w with head := some g, flight := [x] } g (updWq q (fun w => { w with flight := w.flight ++ [x] }) e) = f at hcalm1 hq1 hclear ⊢
  have hcalm2 : Calm d (updWq q (fun w => { w with head := none, c := w.c + 1 }) f) := ((hcalm.trans (.updWq ..)).trans hcalm1).trans (.updWq ..)
  have hnext : wqAt q (updWq q (fun w => { w with head := none, c := w.c + 1 }) f) = some { w with head := none, flight := [x], c := w.c + 1 } := by
    rw [wqAt_updWq_self, wqAt, hq1, ← wqAt, hin]
    rfl
  have hcounters : SameCounters e (updWq q (fun w => { w with head := none, c := w.c + 1 }) f) := by
    exact SameCounters.trans (sameCounters_updWq ..) (SameCounters.trans (sameCounters_of_q hq1) (sameCounters_updWq ..))
  obtain ⟨v, hv, hturn⟩ := (Turns.tryRead (q := q) q (updWq q (fun w => { w with head := none, c := w.c + 1 }) f)).queue _ hnext hf
  have hflight := tryRead_flight q (updWq q (fun w => { w with head := none, c := w.c + 1 }) f)
  rw [hv, hnext, Option.map_some, Option.map_some, Option.some_inj] at hflight
  have hall := hcounters.trans (sameCounters_tryRead q _)
  have hcalm3 := hcalm2.trans (Turns.tryRead (q := q) q (updWq q (fun w => { w with head := none, c := w.c + 1 }) f)).calm
  refine ⟨⟨v, hv, ?_, fun y hy => ?_, htally.trans (.of_counters hall), ⟨k, ?_⟩, hcalm3.linkOpen, hst.calm hcalm3, ?_⟩, hcalm3⟩
  · rw [hturn.rest, hflight]
  · rcases hturn.head y hy with hy | hy
    · cases hy
    · exact hy
  · rw [crAt, hall.1, ← crAt, hk]
  · have hclear' : Cleared w h d f := by
      obtain ⟨hown, hhost, hdev⟩ := hclear
      rw [hidx] at hown hhost hdev
      rw [honly] at hown hhost hdev
      exact ⟨fun ho hl hb => hown ho hl (hbad.trans hb), hhost, hdev⟩
    exact (hclear'.mem (.updWq ..)).mem (.tryRead ..)

end Consumed

namespace AtEnd

variable {q : Nat} {w v : WQ} {h : Head} {c : CR} {x : Desc} {d e : Dev} (ha : AtEnd q w h c x v d e)
include ha

/-- The descriptor is marked as finished. -/
theorem marked {f : WQ → WQ} {y : Desc} (hf : f v = { v with flight := [y] }) : AtEnd q w h c y { v with flight := [y] } d (updWq q f e) where
  queue := by rw [wqAt_updWq_self, ha.queue, Option.map_some, hf]
  rest := by rw [ha.rest]
  head := ha.head
  tally := ha.tally.trans (.of_counters (sameCounters_updWq ..))
  ring := ha.ring
  link := ha.link
  still := ha.still.calm (.updWq ..)
  cleared := ha.cleared.mem (.updWq ..)

/-- The descriptor's work stops. -/
theorem stopped {f : Dev} (hs : Stops e f) : AtEnd q w h c x v d f where
  queue := by rw [wqAt, hs.q, ← wqAt, ha.queue]
  rest := ha.rest
  head := ha.head
  tally := ha.tally.trans (.of_q hs.q)
  ring := by
    obtain ⟨k, hk⟩ := ha.ring
    exact ⟨k, by rw [crAt, hs.q, ← crAt, hk]⟩
  link := by rw [← ha.link, linkOpen, hs.up, hs.lost, hs.retrain]; rfl
  still := ha.still.stops hs
  cleared := ha.cleared.mem hs.mem

end AtEnd

end Sys2Proof.Machine
end

section
/-! SUPPORT. The end of a head (R203, R209 to R211, R215): its entry is in the ring, C is past it and the memories changed in these places alone. -/

namespace Sys2Proof.Machine

theorem bytesOf_length (y : Entry) : y.bytesOf.length = 32 := by simp [Entry.bytesOf, natLE_length]

/-- Without a COUNT the entry is written with its ring index and its own status. -/
theorem entryOf_of_no_count {w : WQ} {x : Desc} (h : x.count = none) (q idx op status result bytes detail gen : Nat) (d : Dev) :
    w.entryOf x (workEntry q idx op status result bytes detail gen) d = workEntry q (w.ix x.idx) op status result bytes detail gen := by
  simp [WQ.entryOf, h, workEntry]

namespace AtEnd

variable {q status : Nat} {w v : WQ} {h : Head} {c : CR} {x : Desc} {d e : Dev} (ha : AtEnd q w h c x v d e) (hr : w.cr < 0x4000)
  (hd : c.detached = false) (hidx : x.idx = h.idx) (hdone : x.done = some (workEntry q h.idx h.opcode status 0 0 0 (instAt w.inst d).gen))
include ha hr hd hidx hdone

/-- The entry is written, and its addition made. -/
theorem entry_added : ∃ y count, count = x.count.map (fun k => (w.inst, k.1, k.2)) ∧
    (x.count = none → y = workEntry q (w.ix h.idx) h.opcode status 0 0 0 (instAt w.inst d).gen) ∧
    EntryAdded w.cr c y.bytesOf count e (drainAll q e) ∧ Turns q (updWq q (fun w => { w with flight := [] }) e) (drainAll q e) := by
  obtain ⟨hqueue, hrest, -, -, ⟨k, hk⟩, -, hstill, -⟩ := ha
  have hflight : v.flight = [x] := by rw [hrest]
  have hcr : v.cr = w.cr := by rw [hrest]
  have hinst : v.inst = w.inst := by rw [hrest]
  have hix : v.ix x.idx = w.ix h.idx := by rw [hrest, hidx]; rfl
  have hends : ∀ t ∈ e.bricks.ends, ¬(t.q = q ∧ t.idx = x.idx) := by rw [hidx]; exact hstill.ends
  have hdrain := drainAll_one hqueue hflight hdone hstill.waiting hends
  rw [hcr, hinst] at hdrain
  rw [hdrain]
  refine ⟨v.entryOf x (workEntry q h.idx h.opcode status 0 0 0 (instAt w.inst d).gen) e, _, rfl, fun hn => ?_, ?_, .writeEntry ..⟩
  · rw [entryOf_of_no_count hn, hix]
  · obtain ⟨hwritten, hwr, hcounter, hadded, hhost, hdev⟩ := writeEntry_adds hr (c := { c with held := k })
      (d := updWq q (fun w => { w with flight := [] }) e) hk hd
      (y := v.entryOf x (workEntry q h.idx h.opcode status 0 0 0 (instAt w.inst d).gen) e) (by exact Nat.noConfusion) hstill.retrain
      (x.count.map (fun k => (w.inst, k.1, k.2)))
    exact ⟨hwritten, hwr, hcounter, hadded, hhost, hdev⟩

variable (hnone : countOf h.bytes = none → x.count = none)
  (hsome : ∀ k, countOf h.bytes = some k → counterOwner k.1 d = some w.inst → x.count = some k)
include hnone hsome

/-- The head has completed with the status (R203, R209 to R211, R215). -/
theorem headEnds (hf : w.feed ≠ 2) : Safety.HeadEnds q status w h c d (drainAll q e) ∧
    (∃ u, wqAt q (drainAll q e) = some u ∧ Turned { v with flight := [] } u) ∧ Still q h.idx (drainAll q e) := by
  obtain ⟨y, count, hcount, hy, hadd, hturns⟩ := ha.entry_added hr hd hidx hdone
  obtain ⟨hqueue, hrest, -, htally, -, hlink, hstill, hclear⟩ := ha
  have hin : wqAt q (updWq q (fun w => { w with flight := [] }) e) = some { v with flight := [] } := by
    rw [wqAt_updWq_self, hqueue]
    rfl
  obtain ⟨u, hu, hturn⟩ := hturns.queue _ hin (by rw [hrest]; exact hf)
  have hc : u.c = w.c + 1 := by rw [hturn.rest, hrest]
  have hflight : u.flight = [] := List.suffix_nil.mp hturn.flight
  refine ⟨⟨by rw [hu, Option.map_some, hc], by rw [hu, Option.map_some, hflight], hadd.written, hadd.wr, fun k hk hne ho => ?_, fun hn => ?_,
    fun hn hl ho => ⟨fun i hi => ?_, fun a hout hown => ?_, fun hl' hb hout => ?_⟩, fun hn hl hm a hown => ?_⟩, ⟨u, hu, hturn⟩,
    (hstill.calm (.updWq ..)).calm hturns.calm⟩
  · have hx := hsome k hk ho
    rw [hadd.added w.inst k.1 k.2 (by rw [hcount, hx]; rfl) hne (by rw [htally.counterOwner, ho]), htally.counterVal]
  all_goals have hxn := hnone hn
  all_goals have hcn : count = none := by rw [hcount, hxn]; rfl
  · exact hadd.counter hcn
  · rw [hadd.host hcn hl (hlink.trans ho), hy hxn,
      Mem.read_writeN_inside _ _ (by rw [bytesOf_length]; exact hi), List.getD_eq_getElem?_getD, List.getElem?_eq_getElem (by rw [bytesOf_length]; exact hi)]
    rfl
  · rw [hadd.host hcn hl (hlink.trans ho), Mem.read_writeN_outside _ _ (by rw [bytesOf_length]; exact hout), hclear.host a hown]
  · rw [hadd.host hcn hl (hlink.trans ho), Mem.read_writeN_outside _ _ (by rw [bytesOf_length]; exact hout)]
    exact hclear.own ho hl' hb
  · rw [hadd.dev hcn hl]
    exact hclear.dev hm a hown

end AtEnd

end Sys2Proof.Machine
end

section
/-! SUPPORT. Heads that complete at once and descriptors that complete as they are admitted (R198 to R201, R203, R536). -/

namespace Sys2Proof.Machine

/-! ## A head that holds its slot -/

/-- A head that holds no slot is none that can run. -/
theorem slottedHead_none {q : Nat} {u : WQ} {d : Dev} (hu : wqAt q d = some u) (hh : ∀ g, u.head = some g → g.slot = none) : slottedHead q d = none := by
  rw [slottedHead, hu, Option.bind_some]
  cases hx : u.head with
  | none => rfl
  | some g => simp [hh g hx]

theorem slottedHead_some {q : Nat} {u : WQ} {g : Head} {d : Dev} (hu : wqAt q d = some u) (hh : u.head = some g) (hs : g.slot.isSome = true) :
    slottedHead q d = some (u, g) := by
  simp [slottedHead, hu, hh, hs]

namespace Slotted

variable {q : Nat} {w : WQ} {h g : Head} {c : CR} {d e : Dev} (hs : Slotted q w h g c d e)
include hs

theorem slotted : slottedHead q e = some ({ w with head := some g }, g) := slottedHead_some hs.queue rfl hs.slot

theorem opcode : g.opcode = h.opcode := by
  rw [Head.opcode, Head.opcode, hs.bad, hs.tile, hs.bytes]

theorem die : g.die q = h.die q := by
  rw [Head.die, Head.die, hs.opcode, hs.bytes]

theorem instAt (n : Nat) : instAt n e = instAt n d := by
  rw [hs.only]
  rfl

theorem clock (n : Nat) : clock n e = clock n d := by
  rw [hs.only]
  rfl

theorem ringLost (loc a n : Nat) : ringLost loc a n e = ringLost loc a n d := by
  rw [hs.only]
  rfl

end Slotted

theorem wqAt_updCr (q r : Nat) (f : CR → CR) (d : Dev) : wqAt q (updCr r f d) = wqAt q d := rfl

theorem crAt_updWq (q r : Nat) (f : WQ → WQ) (d : Dev) : crAt r (updWq q f d) = crAt r d := rfl

/-- A head takes its slot, and nothing else changes. -/
theorem takeSlot_slotted {q : Nat} {w : WQ} {h : Head} {c : CR} {d : Dev} (hw : wqAt q d = some w) (hh : w.head = some h) (hc : crAt w.cr d = some c)
    (hfree : h.slot.isSome = true ∨ earlierWaiters q w h d < freeSlots c) :
    ∃ t, Slotted q w h { h with slot := some t } c d (takeSlot q d) ∧ (∀ t0, h.slot = some t0 → t = t0 ∧ takeSlot q d = d) := by
  cases hslot : h.slot with
  | some t =>
    have hheld : takeSlot q d = d := takeSlot_held (slottedHead_some hw hh (by rw [hslot]; rfl))
    have hsame : ({ h with slot := some t } : Head) = h := by rw [← hslot]
    refine ⟨t, ?_, fun t0 ht => ⟨Option.some.inj ht, hheld⟩⟩
    rw [hheld, hsame]
    exact ⟨rfl, .of_q rfl, by rw [hw, ← hh], ⟨c.held, hc⟩, rfl, rfl, rfl, rfl, by rw [hslot]; rfl⟩
  | none =>
    have hlt : decide (earlierWaiters q w h d < freeSlots c) = true := by simpa [hslot] using hfree
    refine ⟨clock (h.die q) d, ?_, fun t0 ht => by cases ht⟩
    have htake : takeSlot q d = updWq q (fun w => { w with head := some { h with slot := some (clock (h.die q) d) } })
        (updCr w.cr (fun c => { c with held := c.held + 1 }) d) := by
      simp only [takeSlot, hw, hh, hc, hslot, hlt, Option.isSome_none, Bool.or_true, Bool.false_eq_true, if_false, if_true]
    rw [htake]
    refine ⟨rfl, ?_, ?_, ⟨c.held + 1, ?_⟩, rfl, rfl, rfl, rfl, rfl⟩
    · refine SameTally.trans (.updCr (fun c => ?_) d) (.of_counters (sameCounters_updWq ..))
      rfl
    · rw [wqAt_updWq_self, wqAt_updCr, hw]
      rfl
    · rw [crAt_updWq, crAt_updCr_self, hc]
      rfl

/-! ## A head that completes at once (R198) -/

/-- The descriptor that a head which completes at once becomes. -/
def doneAtOnce (q status : Nat) (w : WQ) (g : Head) (d : Dev) : Desc :=
  { idx := g.idx, op := g.opcode, bytes := g.bytes, tile := g.tile, expiry := 0, devUs := 0, since := clock (opDie q g.opcode g.bytes) d,
    gen := (instAt w.inst d).gen, dUs := 0, toHost := false, table := g.table, pins := [], chans := [], spoilt := false, era := d.upd.era,
    count := (countOf g.bytes).bind (fun c => if counterOwner c.1 d = some w.inst then some c else none),
    done := some (workEntry q g.idx g.opcode status 0 0 0 (instAt w.inst d).gen) }

section AtOnce

variable {q : Nat} {w : WQ} {h g : Head} {c : CR} {d e : Dev} (hs : Slotted q w h g c d e) (hf : w.feed ≠ 2) (hfl : w.flight = [])
  (hst : Still q h.idx d) (hr : w.cr < 0x4000) (hd : c.detached = false) (htile : h.tile = none)
include hs hf hfl hst hr hd htile

theorem completeHead_ends (status : Nat) : Safety.HeadEnds q status w h c d (completeHead q status 0 0 0 e) ∧
    (∃ u, wqAt q (completeHead q status 0 0 0 e) = some u ∧ u.state = w.state ∧ u.firstOf h.idx = w.ix h.idx) ∧
    Still q h.idx (completeHead q status 0 0 0 e) := by
  have heq : completeHead q status 0 0 0 e =
      drainAll q (consume q (updWq q (fun v => { v with flight := v.flight ++ [doneAtOnce q status w g e] }) e)) := by
    have hslot : g.slot.isNone = false := by simpa using hs.slot
    have hnone : g.tile = none := hs.tile.trans htile
    simp only [completeHead, hs.queue, hslot, hnone, Bool.false_eq_true, if_false, doneAtOnce]
  obtain ⟨⟨v, hat⟩, hcalm⟩ := consumed_atEnd hs hf hst hfl (doneAtOnce q status w g e)
  rw [heq]
  obtain ⟨hends, ⟨u, hu, hturn⟩, hstill⟩ := hat.headEnds (status := status) hr hd hs.idx (by rw [doneAtOnce, hs.idx, hs.opcode, hs.instAt])
    (fun hn => by rw [doneAtOnce, hs.bytes, hn]; rfl) (fun k hk ho => by
      have hown : counterOwner k.1 e = some w.inst := (hs.tally.counterOwner k.1).trans ho
      rw [doneAtOnce, hs.bytes, hk, Option.bind_some, if_pos hown]) hf
  refine ⟨hends, ⟨u, hu, ?_, ?_⟩, hstill⟩
  · rw [hturn.rest, hat.rest]
  · rw [hturn.rest, hat.rest]
    exact if_neg hf

theorem headDone_ends (status : Nat) (hop : h.bad.isSome = true ∨ h.opcode ≤ 2) : Safety.HeadEnds q status w h c d (headDone q status e) ∧
    (∃ u, wqAt q (headDone q status e) = some u ∧ u.state = w.state ∧ u.firstOf h.idx = w.ix h.idx) ∧ Still q h.idx (headDone q status e) := by
  have hdet : headDetail { w with head := some g } g e = 0 := by
    unfold headDetail
    dsimp only
    rw [hs.bad, hs.opcode]
    split
    · rfl
    · next hb =>
      have hle : h.opcode ≤ 2 := hop.resolve_left hb
      rw [if_neg (by omega), if_neg (by omega)]
  rw [headDone, hs.slotted]
  dsimp only
  rw [hdet]
  exact completeHead_ends hs hf hfl hst hr hd htile status

end AtOnce

/-! ## A descriptor that completes as it is admitted (R199 to R201) -/

/-- The queue with the descriptor of an index marked as finished with an entry. -/
def WQ.marking (idx : Nat) (y : Entry) (w : WQ) : WQ :=
  { w with flight := w.flight.map (fun x => if x.idx = idx && x.done.isNone then { x with done := some y } else x) }

theorem finish_eq (q idx : Nat) (y : Entry) (d : Dev) : finish q idx y d = drainAll q (updWq q (WQ.marking idx y) d) := rfl

/-- The descriptor that an admitted head becomes. -/
def admittedAs (q expiry devUs : Nat) (w : WQ) (g : Head) (d : Dev) : Desc :=
  { idx := g.idx, op := g.opcode, bytes := g.bytes, tile := g.tile, expiry := expiry, devUs := devUs, since := clock (opDie q g.opcode g.bytes) d,
    gen := (instAt w.inst d).gen, dUs := 0, toHost := false, table := g.table, pins := [], chans := g.chans,
    spoilt := decide (w.feed ≠ 2) && ringLost w.loc (w.entryAt g.idx + 63) 1 d, era := d.upd.era, count := countOf g.bytes, done := none }

namespace AtEnd

variable {q : Nat} {w v : WQ} {h : Head} {c : CR} {x : Desc} {d e : Dev} (ha : AtEnd q w h c x v d e) (hidx : x.idx = h.idx) (hdone : x.done = none)
include ha hidx hdone

theorem descAt : descAt q h.idx e = some x := by
  have hflight : v.flight = [x] := by rw [ha.rest]
  simp [Machine.descAt, ha.queue, hflight, hidx, hdone]

/-- The descriptor finishes with a status (R209, R210). -/
theorem finished (hr : w.cr < 0x4000) (hd : c.detached = false) (hf : w.feed ≠ 2) (htile : x.tile = none) (hhost : x.toHost = false)
    (hop : x.op = h.opcode) (hgen : x.gen = (instAt w.inst d).gen) (hcount : x.count = countOf h.bytes) (status : Nat) :
    Safety.HeadEnds q status w h c d (finishDesc q h.idx status 0 0 0 e) ∧
    (∃ u, wqAt q (finishDesc q h.idx status 0 0 0 e) = some u ∧ ∀ g, u.head = some g → g.slot = none) ∧
    Still q h.idx (finishDesc q h.idx status 0 0 0 e) := by
  have hflight : v.flight = [x] := by rw [ha.rest]
  have hdesc := ha.descAt hidx hdone
  have hinst : v.inst = w.inst := by rw [ha.rest]
  have heq : finishDesc q h.idx status 0 0 0 e = finish q h.idx (workEntry q h.idx h.opcode status 0 0 0 (instAt w.inst d).gen) e := by
    simp only [finishDesc, ha.queue, hdesc, hhost, finishNow, htile, hop, hgen, hinst, Bool.false_and, Bool.false_eq_true, if_false]
  have hmark := ha.marked (f := WQ.marking h.idx (workEntry q h.idx h.opcode status 0 0 0 (instAt w.inst d).gen))
    (y := { x with done := some (workEntry q h.idx h.opcode status 0 0 0 (instAt w.inst d).gen) }) (by simp [WQ.marking, hflight, hidx, hdone])
  rw [heq, finish_eq]
  obtain ⟨hends, ⟨u, hu, hturn⟩, hstill⟩ := hmark.headEnds (status := status) hr hd hidx rfl (fun hn => hcount.trans hn)
    (fun k hk _ => hcount.trans hk) hf
  refine ⟨hends, ⟨u, hu, fun g hg => ?_⟩, hstill⟩
  rcases hturn.head g hg with hg | hg
  · exact ha.head g hg
  · exact hg

end AtEnd

section Plain

variable {q : Nat} {w : WQ} {h g : Head} {c : CR} {d e : Dev} (hs : Slotted q w h g c d e) (hf : w.feed ≠ 2) (hfl : w.flight = [])
  (hst : Still q h.idx d) (hr : w.cr < 0x4000) (hd : c.detached = false) (htile : h.tile = none) (hop : h.opcode ≤ 2)
include hs hf hfl hst hr hd htile hop

/-- A descriptor that is admitted ends with OK, or with INTERNAL where its OWN write was discarded (R148, R199 to R201). -/
theorem okDesc_ends {expiry devUs : Nat} (hexp : clock (h.die q) d < expiry) :
    Safety.HeadEnds q (Safety.plainStatus w h d) w h c d (okDesc q h.idx 0 0 (admitHead q expiry devUs e)) ∧
    (∃ u, wqAt q (okDesc q h.idx 0 0 (admitHead q expiry devUs e)) = some u ∧ ∀ g, u.head = some g → g.slot = none) ∧
    Still q h.idx (okDesc q h.idx 0 0 (admitHead q expiry devUs e)) := by
  have heq : admitHead q expiry devUs e =
      consume q (updWq q (fun v => { v with flight := v.flight ++ [admittedAs q expiry devUs w g e] }) e) := by
    simp only [admitHead, hs.queue]
    rfl
  obtain ⟨⟨v, hat⟩, hcalm⟩ := consumed_atEnd hs hf hst hfl (admittedAs q expiry devUs w g e)
  rw [← heq] at hat hcalm
  have hdesc := hat.descAt (by exact hs.idx) rfl
  have hclock : clock ((admittedAs q expiry devUs w g e).die q) (admitHead q expiry devUs e) = clock (h.die q) d := by
    rw [hcalm.clock, ← hs.die]
    rfl
  have hexpired : expired q h.idx (admitHead q expiry devUs e) = false := by
    simp only [expired, hdesc, hclock]
    exact decide_eq_false (Nat.not_le_of_lt hexp)
  have hlost : spoilt q h.idx (admitHead q expiry devUs e) = ringLost w.loc (w.entryAt h.idx + 63) 1 d := by
    simp only [spoilt, hdesc, admittedAs, Option.map_some, Option.getD_some, hs.idx, hs.ringLost, hf, ne_eq, not_false_eq_true, decide_true, Bool.true_and]
  have hop' : (admittedAs q expiry devUs w g e).op = h.opcode := hs.opcode
  have hgen : (admittedAs q expiry devUs w g e).gen = (instAt w.inst d).gen := congrArg Inst.gen (hs.instAt w.inst)
  have hcount : (admittedAs q expiry devUs w g e).count = countOf h.bytes := congrArg countOf hs.bytes
  have hend : ∀ f, Stops (admitHead q expiry devUs e) f → ∀ st, _ := fun f hstop st =>
    (hat.stopped hstop).finished (by exact hs.idx) rfl hr hd hf (hs.tile.trans htile) rfl hop' hgen hcount st
  rw [okDesc, if_neg (by rw [hexpired]; decide), hlost, Safety.plainStatus]
  by_cases hl : ringLost w.loc (w.entryAt h.idx + 63) 1 d = true
  · rw [if_pos hl, if_pos hl, failDesc]
    have hfailing : failing q h.idx (admitHead q expiry devUs e) = false := by
      rw [failing, endingOf, List.find?_eq_none.mpr fun b hb => by simpa using hat.still.behind b hb]
      rfl
    have hlate : outdone q h.idx 0xF (admitHead q expiry devUs e) = false := by
      have hnow : ¬ (admittedAs q expiry devUs w g e).expiry < clock (h.die q) d := Nat.not_lt_of_gt hexp
      simp [outdone, hdesc, hclock, hnow]
    have hfails : opFails (admittedAs q expiry devUs w g e).op = false := by
      rw [hop', opFails]
      exact decide_eq_false (by omega)
    simp only [hfailing, hdesc, hlate, hfails, when_, Bool.false_eq_true, if_false]
    exact hend _ (.stopDesc ..) 0xF
  · rw [if_neg hl, if_neg hl]
    exact hend _ (.leaveFaults ..) 0

end Plain

end Sys2Proof.Machine
end

section
/-! SUPPORT. The checks of a NOP, WAIT or SIGNAL and the decision for it (R198 to R201, R61, R62): it needs no context, no bound and no resource of its own. -/

namespace Sys2Proof.Machine

/-! ## What a head of a plain operation needs (R57, R61, R198) -/

section Plain

variable {q : Nat} {w : WQ} {h : Head} (hop : h.opcode ≤ 2)
include hop

theorem headCtxGone_plain (d : Dev) : headCtxGone w h d = false := by
  have hnot : ¬ ((0x10 ≤ h.opcode ∧ h.opcode ≤ 0x12) ∨ (0x20 ≤ h.opcode ∧ h.opcode ≤ 0x25) ∨ h.opcode = 0x30 ∨ h.opcode = 0x31) := by omega
  simp [headCtxGone, hnot, show h.opcode ≠ 0x40 by omega]

theorem headLoad_plain (d : Dev) : headLoad q w h d = none := by
  rw [headLoad]
  dsimp only
  rw [if_neg (by omega), if_neg (by omega), if_neg (by omega)]

theorem overBound_plain (d : Dev) : overBound q w h d = none := by
  rw [overBound]
  dsimp only
  rw [if_neg (by omega), headLoad_plain hop]
  split <;> rfl

theorem tooBig_plain (d : Dev) : tooBig w h d = false := by
  simp [tooBig, show h.opcode ≠ 0x40 by omega]

theorem commonOk_plain (hf : w.flight = []) (d : Dev) : commonOk q w h d = true := by
  rw [commonOk, hf, boundOk, if_neg (by omega), headLoad_plain hop]
  rfl

theorem turnOf_plain (d : Dev) : turnOf q h d = none := by
  have hnot : ¬ (0x20 ≤ h.opcode ∧ h.opcode ≤ 0x26) := by omega
  rw [turnOf]
  split
  · simp [hnot]
  · rfl

omit hop in
/-- What the checks made once find for a plain operation turns on its bytes, its tile and its queue's instance alone. -/
theorem headStatus_plain {v : WQ} {g : Head} (hop : h.opcode ≤ 2) (hb : g.bytes = h.bytes) (ho : g.opcode = h.opcode) (ht : g.tile = h.tile)
    (hi : v.inst = w.inst) (d : Dev) : headStatus q v g d = headStatus q w h d := by
  have hrest : ¬ (0x10 ≤ h.opcode ∧ h.opcode ≤ 0x12) ∧ ¬ (0x20 ≤ h.opcode ∧ h.opcode ≤ 0x26) ∧ ¬ (h.opcode = 0x30 ∨ h.opcode = 0x31) ∧
    h.opcode ≠ 0x40 := by omega
  obtain ⟨hremote, hcoll, hdma, hlaunch⟩ := hrest
  have hgone := headCtxGone_plain (w := w) hop d
  have hgone' := headCtxGone_plain (w := v) (h := g) (by omega) d
  unfold headStatus
  simp only [hgone, hgone', hb, ho, ht, hi, if_neg hremote, if_neg hcoll, if_neg hdma, if_neg hlaunch]

end Plain

theorem boundE_pos (w : WQ) (h : Head) (d : Dev) : 0 < boundE w h d := by
  have hone : 1 ≤ devUsOf w d := Nat.le_max_left ..
  rw [boundE, usec]
  omega

/-! ## The checks made once (R198) -/

/-- The head as it stands after the checks made once. -/
def Head.checked (t : List Byte) (h : Head) : Head := { h with table := t, judged := true, seqs := [] }

namespace Slotted

variable {q : Nat} {w : WQ} {h g : Head} {c : CR} {d e : Dev} (hs : Slotted q w h g c d e) (hop : h.opcode ≤ 2)
include hs hop

/-- A plain operation takes no sequence. -/
theorem headFirst (t : List Byte) :
    headFirst q t e = updWq q (fun w => { w with head := some (g.checked t) }) e ∧ Slotted q w h (g.checked t) c d (Machine.headFirst q t e) := by
  have hsame : ({ g with table := t, judged := true } : Head).opcode = h.opcode := hs.opcode
  have heq : Machine.headFirst q t e = updWq q (fun w => { w with head := some (g.checked t) }) e := by
    rw [Machine.headFirst, hs.slotted]
    dsimp only
    rw [hsame, if_neg (by omega), if_neg (by omega)]
    rfl
  rw [heq]
  obtain ⟨honly, htally, hqueue, hring, hidx, hbytes, hbad, htile, hslot⟩ := hs
  refine ⟨rfl, ?_, htally.trans (.of_counters (sameCounters_updWq ..)), ?_, hring, hidx, hbytes, hbad, htile, hslot⟩
  · rw [honly]
    rfl
  · rw [wqAt_updWq_self, hqueue]
    rfl

/-- The checks made once hold, and the admitting decision is made. -/
theorem judgeHead (hst : headStatus q w h e = (e, .ok [])) : ∃ g1 d1, Slotted q w h g1 c d d1 ∧ (g.seqs = [] → g1.seqs = []) ∧ g1.slot = g.slot ∧
    (g.judged = true → d1 = e) ∧ judgeHead q { w with head := some g } g e = refuseLate q h.idx (decideHead q { w with head := some g1 } g1 d1) := by
  have hstatus : headStatus q { w with head := some g } g e = (e, .ok []) :=
    (headStatus_plain hop hs.bytes hs.opcode hs.tile rfl e).trans hst
  have hopen : ∃ t, (if !g.judged || rechecked q g e then headStatus q { w with head := some g } g e else (e, .ok g.table)) = (e, .ok t) := by
    split
    · exact ⟨[], hstatus⟩
    · exact ⟨g.table, rfl⟩
  obtain ⟨t, ht⟩ := hopen
  obtain ⟨g1, d1, hs1, hd1, hseqs, hslot, hsame⟩ : ∃ g1 d1, Slotted q w h g1 c d d1 ∧ (if g.judged then e else Machine.headFirst q t e) = d1 ∧
      (g.seqs = [] → g1.seqs = []) ∧ g1.slot = g.slot ∧ (g.judged = true → d1 = e) := by
    by_cases hj : g.judged = true
    · exact ⟨g, e, hs, by rw [if_pos hj], id, rfl, fun _ => rfl⟩
    · exact ⟨g.checked t, _, (hs.headFirst hop t).2, by rw [if_neg hj], fun _ => rfl, rfl, fun hj' => absurd hj' hj⟩
  have hop1 : g1.opcode ≤ 2 := hs1.opcode ▸ hop
  refine ⟨g1, d1, hs1, hseqs, hslot, hsame, ?_⟩
  rw [Machine.judgeHead]
  dsimp only
  rw [ht]
  dsimp only
  rw [hd1, hs1.slotted]
  dsimp only
  rw [overBound_plain hop1]
  dsimp only
  rw [tooBig_plain hop1, if_neg Bool.false_ne_true, hs1.idx]

end Slotted

/-! ## The head comes to its decision (R198) -/

/-- A head that can run holds its slot, and its checks come next. -/
theorem runHead_slotted {q : Nat} {w : WQ} {h g : Head} {c : CR} {d : Dev} (hat : Safety.HeadAt q w h c d) (hs : Slotted q w h g c d (takeSlot q d))
    (hz : w.state = 0) :
    (∀ st, h.bad = some st → runHead q d = unreadableHead q st (takeSlot q d)) ∧
    (h.bad = none → h.opcode ≤ 2 → runHead q d = judgeHead q { w with head := some g } g (takeSlot q d)) := by
  obtain ⟨hw, -, -, -, -, -, -, hinst, hact, hpair, -⟩ := hat
  have hgo : ¬ ((w.state = 2 : Bool) || !instActive w.inst d) = true := by simp [hz, hinst]
  have hact' : activating (takeSlot q d) = false := by
    rw [hs.only]
    exact hact
  have hpair' : pairBusy (queuePair q) (takeSlot q d) = false := by
    rw [hs.only]
    exact hpair
  refine ⟨fun st hb => ?_, fun hb hop => ?_⟩
  · have hbad : g.bad = some st := hs.bad.trans hb
    simp only [runHead, hw, if_neg hgo, hs.slotted, hbad]
  · have hbad : g.bad = none := hs.bad.trans hb
    have hnot : w.state ≠ 1 := by omega
    simp only [runHead, hw, if_neg hgo, hs.slotted, hbad, if_neg hnot, headCtxGone_plain (hs.opcode ▸ hop), hact', hpair', Bool.and_false, Bool.or_self,
      Bool.false_eq_true, if_false]

/-- A NOP, WAIT or SIGNAL whose checks hold comes to its decision. -/
theorem runHead_plain {q : Nat} {w : WQ} {h : Head} {c : CR} {d : Dev} (hat : Safety.HeadAt q w h c d) (hb : h.bad = none) (hz : w.state = 0)
    (hst : headStatus q w h (takeSlot q d) = (takeSlot q d, .ok [])) (hop : h.opcode ≤ 2) :
    ∃ g e, Slotted q w h g c d e ∧ (h.seqs = [] → g.seqs = []) ∧ (∀ t0, h.slot = some t0 → g.slot = some t0 ∧ (h.judged = true → e = d)) ∧
      runHead q d = refuseLate q h.idx (decideHead q { w with head := some g } g e) := by
  have ⟨hw, hh, hc, _, _, _, _, _, _, _, _, _, _, hfree, _⟩ := hat
  obtain ⟨t, hs, hheld⟩ := takeSlot_slotted hw hh hc hfree
  obtain ⟨g, e, hs1, hseqs, hslot, hsame, hjudge⟩ := hs.judgeHead hop hst
  refine ⟨g, e, hs1, hseqs, fun t0 ht => ?_, ((runHead_slotted hat hs hz).2 hb hop).trans hjudge⟩
  obtain ⟨rfl, hd⟩ := hheld t0 ht
  exact ⟨hslot, fun hj => (hsame hj).trans hd⟩

end Sys2Proof.Machine
end

section
/-! SUPPORT. NOP, WAIT and SIGNAL heads and entries that could not be read, to their ends (R62, R198 to R203, R536). -/

namespace Sys2Proof.Machine

/-! ## What follows the decision -/

/-- A head without a slot is not refused for its delay. -/
theorem refuseLate_idle {q : Nat} {u : WQ} {d : Dev} (hu : wqAt q d = some u) (hh : ∀ g, u.head = some g → g.slot = none) (idx : Nat) :
    refuseLate q idx d = d := by
  rw [refuseLate, slottedHead_none hu hh]

theorem Still.headAt {q : Nat} {w : WQ} {h : Head} {c : CR} {d : Dev} (hat : Safety.HeadAt q w h c d) (hquiet : Safety.Quiet d) : Still q h.idx d := by
  obtain ⟨-, -, -, -, -, -, -, -, -, -, hretrain, hwaiting, -, -, hbehind, hends⟩ := hat
  obtain ⟨hloops, hdmas, -⟩ := hquiet
  exact ⟨hretrain, hwaiting, hbehind, hends, hloops, hdmas⟩

theorem LedgerOnly.mem {d e : Dev} (h : LedgerOnly d e) : SameMem d e := by
  rw [h]
  exact ⟨rfl, rfl⟩

/-- What the local path delivers changes nothing of a head's end where nothing is on it. -/
theorem headEnds_localPath {q st : Nat} {w : WQ} {h : Head} {c : CR} {d e : Dev} (he : Safety.HeadEnds q st w h c d e) (hs : Still q h.idx e) :
    Safety.HeadEnds q st w h c d (localPath e) ∧ wqAt q (localPath e) = wqAt q e := by
  have hl := LedgerOnly.localPath hs.loops hs.dmas
  have hw : wqAt q (localPath e) = wqAt q e := by rw [wqAt, hl.q, ← wqAt]
  exact ⟨headEnds_congr he (by rw [hw]) (by rw [hw]) (sameCounters_of_q hl.q) hl.mem, hw⟩

/-- The command of a head's own opcode runs the head. -/
theorem runHeadOf_head {q : Nat} {h : Head} {s : State} (hh : (wqAt q s.dev).bind WQ.head = some h) : runHeadOf h.opcode q s = sends (runHead q) s := by
  rw [runHeadOf, hh, Option.map_some]
  exact if_pos rfl

/-! ## A head that is admitted (R199 to R201) -/

section Plain

variable {q : Nat} {w : WQ} {h : Head} {c : CR} {d : Dev} (hat : Safety.HeadAt q w h c d) (hb : h.bad = none) (hz : w.state = 0)
  (hst : headStatus q w h (takeSlot q d) = (takeSlot q d, .ok []))
include hat hb hz hst

/-- A NOP, WAIT or SIGNAL that may be admitted ends at once. -/
theorem runHead_admits (hquiet : Safety.Quiet d) (hop : h.opcode ≤ 2)
    (hdec : ∀ g e, Slotted q w h g c d e → decideHead q { w with head := some g } g e = admitPlain q { w with head := some g } g e) :
    Safety.HeadEnds q (Safety.plainStatus w h d) w h c d (localPath (runHead q d)) := by
  obtain ⟨g, e, hs, -, -, hrun⟩ := runHead_plain hat hb hz hst hop
  have ⟨_, _, _, hr, hfl, hf, htile, _, _, _, _, _, hd, _, _, _⟩ := hat
  have hexp : clock (h.die q) d < expiryOf (g.die q) { w with head := some g } g e := by
    rw [expiryOf, hs.clock, hs.die]
    exact Nat.lt_add_of_pos_right (boundE_pos ..)
  obtain ⟨hends, ⟨u, hu, hidle⟩, hstill⟩ := okDesc_ends hs hf hfl (.headAt hat hquiet) hr hd htile hop (devUs := devUsOf { w with head := some g } e) hexp
  have hfinal : runHead q d = okDesc q h.idx 0 0 (admitHead q (expiryOf (g.die q) { w with head := some g } g e) (devUsOf { w with head := some g } e) e) := by
    rw [hrun, hdec g e hs, admitPlain, hs.idx]
    exact refuseLate_idle hu hidle h.idx
  rw [hfinal]
  exact (headEnds_localPath hends hstill).1

theorem runHead_nop (hquiet : Safety.Quiet d) (hop : h.opcode = 0) :
    Safety.HeadEnds q (Safety.plainStatus w h d) w h c d (localPath (runHead q d)) := by
  have ⟨_, _, _, _, hfl, _⟩ := hat
  refine runHead_admits hat hb hz hst hquiet (by omega) fun g e hs => ?_
  have hop' : g.opcode = 0 := hs.opcode.trans hop
  simp only [decideHead, hop', if_true, commonOk_plain (show g.opcode ≤ 2 by omega) (w := { w with head := some g }) hfl]

theorem runHead_signal (hquiet : Safety.Quiet d) (hop : h.opcode = 2) :
    Safety.HeadEnds q (Safety.plainStatus w h d) w h c d (localPath (runHead q d)) := by
  have ⟨_, _, _, _, hfl, _⟩ := hat
  refine runHead_admits hat hb hz hst hquiet (by omega) fun g e hs => ?_
  have hop' : g.opcode = 2 := hs.opcode.trans hop
  have hdone : earlierDone { w with head := some g } = true := by
    rw [earlierDone, hfl]
    rfl
  simp only [decideHead, hop', hdone, if_true, Nat.reduceEqDiff, if_false]

/-! ## WAIT (R200, R62, R228) -/

omit hat hb hz hst in
/-- The counter of a WAIT is where it was before the head took its slot. -/
theorem Slotted.reached {g : Head} {e : Dev} (hs : Slotted q w h g c d e) :
    reached (fieldLE g.bytes 8 4) (fieldLE g.bytes 16 6) e = reached (fieldLE h.bytes 8 4) (fieldLE h.bytes 16 6) d := by
  rw [Machine.reached, Machine.reached, hs.tally.counterVal, hs.bytes]

theorem runHead_wait (hquiet : Safety.Quiet d) (hop : h.opcode = 1) (hgo : reached (fieldLE h.bytes 8 4) (fieldLE h.bytes 16 6) d = true) :
    Safety.HeadEnds q (Safety.plainStatus w h d) w h c d (localPath (runHead q d)) := by
  have ⟨_, _, _, _, hfl, _⟩ := hat
  refine runHead_admits hat hb hz hst hquiet (by omega) fun g e hs => ?_
  have hop' : g.opcode = 1 := hs.opcode.trans hop
  simp only [decideHead, hop', hs.reached, hgo, commonOk_plain (show g.opcode ≤ 2 by omega) (w := { w with head := some g }) hfl, Bool.and_self, if_true,
    Nat.reduceEqDiff, if_false]

/-- A WAIT whose counter has not reached its target comes to the end of its delay alone. -/
theorem runHead_wait_unreached (hop : h.opcode = 1) (hgo : reached (fieldLE h.bytes 8 4) (fieldLE h.bytes 16 6) d = false) :
    ∃ g e, Slotted q w h g c d e ∧ (h.seqs = [] → g.seqs = []) ∧ (∀ t0, h.slot = some t0 → g.slot = some t0 ∧ (h.judged = true → e = d)) ∧
      runHead q d = if delayPast q { w with head := some g } g e then refuseNow q 0xE e else e := by
  obtain ⟨g, e, hs, hseqs, hslot, hrun⟩ := runHead_plain hat hb hz hst (by omega)
  refine ⟨g, e, hs, hseqs, hslot, ?_⟩
  have hop' : g.opcode = 1 := hs.opcode.trans hop
  have hwait : decideHead q { w with head := some g } g e = e := by
    simp only [decideHead, hop', hs.reached, hgo, Bool.false_and, Bool.false_eq_true, Nat.reduceEqDiff, if_true, if_false]
  rw [hrun, hwait, refuseLate, hs.slotted]
  simp only [hs.idx, decide_true, Bool.true_and]

/-- Without REFUSE a WAIT that waits changes nothing. -/
theorem runHead_wait_stays (hop : h.opcode = 1) (hgo : reached (fieldLE h.bytes 8 4) (fieldLE h.bytes 16 6) d = false) (hslot : h.slot.isSome = true)
    (hj : h.judged = true) (hrefuse : w.refuse = false) : runHead q d = d := by
  obtain ⟨g, e, -, -, hheld, hrun⟩ := runHead_wait_unreached hat hb hz hst hop hgo
  obtain ⟨t0, ht0⟩ := Option.isSome_iff_exists.mp hslot
  have hpast : delayPast q { w with head := some g } g e = false := by rw [delayPast, hrefuse, Bool.false_and]
  rw [hrun, hpast, if_neg Bool.false_ne_true]
  exact (hheld t0 ht0).2 hj

omit hat hb hz hst in
/-- The refusal delay of a WAIT is over once it lies before the present (R62, R228). -/
theorem delayPast_wait {v : WQ} {g : Head} {e : Dev} {t0 : Nat} (hop : g.opcode = 1) (hrefuse : v.refuse = true) (hslot : g.slot = some t0)
    (hlate : v.delay = 0 ∨ t0 + 8 * v.delay < clock (qDie q) e) : delayPast q v g e = true := by
  have hdie : g.die q = qDie q := by rw [Head.die, opDie, hop, if_neg (by omega)]
  by_cases hd : v.delay = 0
  · simp [delayPast, hrefuse, hd]
  · have hpast : usec v.delay < clock (qDie q) e - t0 := by
      have := hlate.resolve_left hd
      rw [usec]
      omega
    simp [delayPast, hrefuse, hd, hop, Head.held, hdie, hslot, hpast]

/-- A WAIT whose refusal delay is over is refused (R62). -/
theorem runHead_wait_refused (hquiet : Safety.Quiet d) (hop : h.opcode = 1) (hgo : reached (fieldLE h.bytes 8 4) (fieldLE h.bytes 16 6) d = false)
    (hrefuse : w.refuse = true) (hseqs : h.seqs = []) {t0 : Nat} (hslot : h.slot = some t0) (hlate : w.delay = 0 ∨ t0 + 8 * w.delay < clock (qDie q) d) :
    delayOver q d = true ∧ Safety.HeadEnds q 0xE w h c d (localPath (runHead q d)) := by
  obtain ⟨g, e, hs, hg, hheld, hrun⟩ := runHead_wait_unreached hat hb hz hst hop hgo
  have ⟨hw, hh, _, hr, hfl, hf, htile, _, _, _, _, _, hd, _, _, _⟩ := hat
  have hop' : g.opcode = 1 := hs.opcode.trans hop
  have hover : delayOver q d = true := by
    rw [delayOver, slottedHead_some hw hh (by rw [hslot]; rfl)]
    exact delayPast_wait hop hrefuse hslot hlate
  have hpast : delayPast q { w with head := some g } g e = true :=
    delayPast_wait hop' hrefuse (hheld t0 hslot).1 (by rw [hs.clock]; exact hlate)
  have hrefused : refuseNow q 0xE e = headDone q 0xE e := by
    simp only [refuseNow, hs.slotted, turnOf_plain (show g.opcode ≤ 2 by omega), headMsg, hg hseqs]
  rw [hrun, hpast, if_pos rfl, hrefused]
  obtain ⟨hends, -, hstill⟩ := headDone_ends hs hf hfl (.headAt hat hquiet) hr hd htile 0xE (.inr (by omega))
  exact ⟨hover, (headEnds_localPath hends hstill).1⟩

end Plain

/-! ## An entry that could not be read (R203, R536) -/

/-- A queue enters ERROR: its messages' frames go, and nothing else of the device. -/
theorem enterError_queue {q : Nat} {u : WQ} {d : Dev} (hu : wqAt q d = some u) (idx first : Nat) :
    Stops (updWq q (fun w => { w with state := 1, firstErr := first, errIdx := idx, errAt := clock (qDie q) d }) d) (enterError q idx first d) ∧
    wqAt q (enterError q idx first d) = some { u with state := 1, firstErr := first, errIdx := idx, errAt := clock (qDie q) d } := by
  have hstop : Stops _ (enterError q idx first d) := .of_net (.withdraw ..)
  refine ⟨hstop, ?_⟩
  rw [wqAt, hstop.q, ← wqAt, wqAt_updWq_self, hu]
  rfl

/-- The head completes with its status, and its queue enters ERROR. -/
theorem runHead_unreadable {q : Nat} {w : WQ} {h : Head} {c : CR} {d : Dev} {st : Nat} (hat : Safety.HeadAt q w h c d) (hquiet : Safety.Quiet d)
    (hb : h.bad = some st) (hz : w.state = 0) :
    Safety.HeadEnds q st w h c d (localPath (runHead q d)) ∧
    ∃ v, wqAt q (localPath (runHead q d)) = some v ∧ v.state = 1 ∧ v.firstErr = w.ix h.idx := by
  have ⟨hw, hh, hc, hr, hfl, hf, htile, _, _, _, _, _, hd, hfree, _, _⟩ := hat
  obtain ⟨t, hs, -⟩ := takeSlot_slotted hw hh hc hfree
  obtain ⟨hends, ⟨u, hu, hstate, hfirst⟩, hstill⟩ := headDone_ends hs hf hfl (.headAt hat hquiet) hr hd htile st (.inl (by rw [hb]; rfl))
  have hrun : runHead q d = enterError q h.idx (w.ix h.idx) (headDone q st (takeSlot q d)) := by
    rw [(runHead_slotted hat hs hz).1 st hb, unreadableHead, hs.slotted]
    simp only [hu, Option.map_some, Option.getD_some, hstate, hz, hfirst, decide_true, when_, if_true]
  obtain ⟨hstop, hv⟩ := enterError_queue hu h.idx (w.ix h.idx)
  have hstill' : Still q h.idx (runHead q d) := by
    rw [hrun]
    exact (hstill.calm (.updWq ..)).stops hstop
  have hends' : Safety.HeadEnds q st w h c d (runHead q d) := by
    rw [hrun]
    exact headEnds_congr hends (by rw [hv, hu]; rfl) (by rw [hv, hu]; rfl)
      (SameCounters.trans (sameCounters_updWq ..) (sameCounters_of_q hstop.q)) ((SameMem.updWq ..).trans hstop.mem)
  obtain ⟨hfinal, hq⟩ := headEnds_localPath hends' hstill'
  exact ⟨hfinal, _, by rw [hq, hrun, hv], rfl, rfl⟩

end Sys2Proof.Machine
end

section
/-! SUPPORT. The moderation timer of a ring (R216) and the end of a descriptor's bound (R65, R66, R252). -/

namespace Sys2Proof.Machine

/-! ## The moderation timer (R216) -/

theorem raiseVector_emit {d : Dev} (h : linkOpen d = true) (fn v : Nat) : raiseVector fn v d = emit (.vector fn v) d := by
  rw [raiseVector, if_pos (hostOpen_of_linkOpen h), sendLink_open h]
  rfl

/-- A ring whose entries have waited long enough raises its vector. -/
theorem moderationTimer_raises {r : Nat} {c : CR} {d : Dev} (hc : crAt r d = some c) (hunseen : 0 < c.unseen)
    (hold : c.oldest + 8 * c.modUs ≤ clock iodie d) (hv : c.vector ≠ 0xFF) (ho : linkOpen d = true) :
    moderationTimer r d = emit (.vector c.inst c.vector) (updCr r (fun c => { c with unseen := 0 }) d) := by
  have hdue : c.due (clock iodie d) = true := by simp [CR.due, usec, hunseen, hold]
  have hopen : linkOpen (updCr r (fun c => { c with unseen := 0 }) d) = true := ho
  simp only [moderationTimer, hc, usec, hunseen, hold, decide_true, Bool.and_self, if_true, notify, hv, hdue, Bool.not_true, decide_false, Bool.or_self,
    Bool.false_eq_true, if_false]
  exact raiseVector_emit hopen ..

/-! ## The end of a bound (R65, R66, R252) -/

/-- A finished descriptor that is alone leaves its queue, which is otherwise the same. -/
theorem finish_gone {q : Nat} {w : WQ} {x : Desc} {d : Dev} (hw : wqAt q d = some w) (hf : w.feed ≠ 2) (hfl : w.flight = [x]) (hd : x.done = none)
    (y : Entry) : ∃ v, wqAt q (finish q x.idx y d) = some v ∧ v.state = w.state ∧ v.firstErr = w.firstErr ∧
    descAt q x.idx (finish q x.idx y d) = none ∧ (finish q x.idx y d).pes = d.pes := by
  have hmark : wqAt q (updWq q (WQ.marking x.idx y) d) = some { w with flight := [{ x with done := some y }] } := by
    rw [wqAt_updWq_self, hw, Option.map_some, WQ.marking, hfl]
    simp [hd]
  have hturns : Turns q (updWq q (WQ.marking x.idx y) d) (finish q x.idx y d) := .drain ..
  obtain ⟨v, hv, hturn⟩ := hturns.queue _ hmark hf
  refine ⟨v, hv, by rw [hturn.rest], by rw [hturn.rest], ?_, hturns.calm.pes⟩
  rw [descAt, hv, Option.bind_some, List.find?_eq_none]
  intro z hz
  have hzy : z = { x with done := some y } := by simpa using hturn.flight.mem hz
  simp [hzy]

/-- Queue `q` holds the descriptor `x` alone and admits. -/
structure Alone (q : Nat) (w : WQ) (x : Desc) (d : Dev) : Prop where
  queue : wqAt q d = some w
  ring : w.feed ≠ 2
  flight : w.flight = [x]
  done : x.done = none
  tile : x.tile = none
  op : opFails x.op = true
  behind : failing q x.idx d = false

namespace Alone

variable {q : Nat} {w : WQ} {x : Desc} {d : Dev} (ha : Alone q w x d)
include ha

theorem descAt : descAt q x.idx d = some x := by simp [Machine.descAt, ha.queue, ha.flight, ha.done]

theorem expired : expired q x.idx d = decide (x.expiry ≤ clock (x.die q) d) := by rw [Machine.expired, ha.descAt]

/-- The queue as it stands in ERROR with the descriptor as FIRST_ERROR. -/
theorem queueError (hz : w.state = 0) :
    ∃ n, Alone q { w with state := 1, firstErr := w.ix x.idx, errIdx := x.idx, errAt := n } x (Machine.queueError q x.idx d) := by
  have hfirst : w.firstOf x.idx = w.ix x.idx := if_neg ha.ring
  have heq : Machine.queueError q x.idx d = enterError q x.idx (w.ix x.idx) d := by
    simp [Machine.queueError, ha.queue, hz, hfirst, ha.flight, each]
  obtain ⟨-, hv⟩ := enterError_queue ha.queue x.idx (w.ix x.idx)
  have hnet : NetOnly _ (enterError q x.idx (w.ix x.idx) d) := .withdraw ..
  have hbehind : failing q x.idx (enterError q x.idx (w.ix x.idx) d) = failing q x.idx d := by
    rw [hnet]
    rfl
  rw [heq]
  exact ⟨_, hv, ha.ring, ha.flight, ha.done, ha.tile, ha.op, hbehind.trans ha.behind⟩

/-- A descriptor of a queue in ERROR that fails for its bound is finished with BOUND_EXPIRED when its work has stopped. -/
theorem failDesc_expired (hone : w.state = 1) (herr : w.errIdx = x.idx) :
    ∃ y, failDesc q x.idx 4 4 d = finish q x.idx y (stopDesc q x.idx d) := by
  have hq : (stopDesc q x.idx d).q = d.q := (Stops.stopDesc q x.idx d).q
  have hagain : Machine.queueError q x.idx (stopDesc q x.idx d) = stopDesc q x.idx d := by
    rw [Machine.queueError, wqAt, hq, ← wqAt, ha.queue]
    simp [hone, herr]
  have hdesc : Machine.descAt q x.idx (stopDesc q x.idx d) = some x := by rw [Machine.descAt, wqAt, hq, ← wqAt, ← Machine.descAt, ha.descAt]
  have hw : wqAt q (stopDesc q x.idx d) = some w := by rw [wqAt, hq, ← wqAt, ha.queue]
  refine ⟨workEntry q x.idx x.op 4 0 0 (originDetail 0 4) x.gen, ?_⟩
  simp only [failDesc, ha.behind, ha.descAt, ha.op, when_, hagain, finishDesc, hw, hdesc, finishNow, ha.tile, ite_self, bne_self_eq_false, Bool.and_false,
    Bool.false_and, Bool.false_eq_true, if_true, if_false]

/-- A descriptor whose moment E has passed is completed with BOUND_EXPIRED (R65, R66, R252). -/
theorem boundExpiry (hz : w.state = 0) (hcoll : collOf q x.idx d = none) (hlate : x.expiry ≤ clock (x.die q) d) :
    ∃ v, wqAt q (Machine.boundExpiry q x.idx d) = some v ∧ v.state = 1 ∧ v.firstErr = w.ix x.idx ∧
      Machine.descAt q x.idx (Machine.boundExpiry q x.idx d) = none ∧
      ∀ i < 2, NoMsgs (fun m => decide (m.owner = .desc q x.idx)) i (Machine.boundExpiry q x.idx d) := by
  obtain ⟨n, herr⟩ := ha.queueError hz
  obtain ⟨y, hfail⟩ := herr.failDesc_expired rfl rfl
  have heq : Machine.boundExpiry q x.idx d = finish q x.idx y (stopDesc q x.idx (Machine.queueError q x.idx d)) := by
    simp only [Machine.boundExpiry, ha.expired, hlate, ha.behind, hcoll, decide_true, Bool.not_true, Bool.false_eq_true, if_false, hfail]
  have hstops : Stops (Machine.queueError q x.idx d) (stopDesc q x.idx (Machine.queueError q x.idx d)) := .stopDesc ..
  obtain ⟨v, hv, hstate, hfirst, hgone, hpes⟩ := finish_gone (by rw [wqAt, hstops.q, ← wqAt]; exact herr.queue) herr.ring herr.flight herr.done y
  rw [heq]
  exact ⟨v, hv, hstate, hfirst, hgone, fun i hi => (stopDesc_msgs q x.idx _ i hi).fewer (.of_pes hpes)⟩

end Alone

end Sys2Proof.Machine
end

section
/-! SUPPORT. NOP, WAIT, SIGNAL and unreadable entries, the moderation timer and the end of a bound as commands (R199 to R201, R216, R65). -/

namespace Sys2Proof.Machine

/-! ## What the commands are -/

theorem exec_nop (q : Nat) (s : State) : exec (.nop q) s = runHeadOf 0 q s := rfl

theorem exec_wait (q : Nat) (s : State) : exec (.wait q) s = runHeadOf 1 q s := rfl

theorem exec_signal (q : Nat) (s : State) : exec (.signal q) s = runHeadOf 2 q s := rfl

theorem exec_unreadableEntry (q : Nat) (s : State) : exec (.unreadableEntry q) s = runHeadOf 0xFF q s := rfl

theorem exec_refusalDelayExpiry (q : Nat) (s : State) :
    exec (.refusalDelayExpiry q) s = if delayOver q s.dev then .next { s with dev := localPath (runHead q s.dev) } else .next s := rfl

theorem exec_boundExpiry (q idx : Nat) (s : State) : exec (.boundExpiry q idx) s = .next { s with dev := localPath (boundExpiry q idx s.dev) } := rfl

/-! ## What they do -/

section Plain

variable {s : State} {q : Nat} {w : WQ} {h : Head} {c : CR} (hat : Safety.HeadAt q w h c s.dev)
include hat

theorem HeadAt.head : (wqAt q s.dev).bind WQ.head = some h := by
  obtain ⟨hw, hh, -⟩ := hat
  rw [hw, Option.bind_some, hh]

/-- The command of the head's opcode runs the head. -/
theorem HeadAt.runs {op : Nat} (hop : h.opcode = op) : runHeadOf op q s = .next { s with dev := localPath (runHead q s.dev) } := by
  rw [← hop, runHeadOf_head (HeadAt.head hat)]
  rfl

/-- A command of the head's opcode leaves what the head and the local path leave. -/
theorem HeadAt.ends {op st : Nat} {i : Instr} (hexec : exec i s = runHeadOf op q s) (hop : h.opcode = op)
    (he : Safety.HeadEnds q st w h c s.dev (localPath (runHead q s.dev))) :
    ∃ t, exec i s = .next t ∧ Safety.HeadEnds q st w h c s.dev t.dev := by
  rw [hexec, HeadAt.runs hat hop]
  refine ⟨_, rfl, ?_⟩
  dsimp only
  exact he

variable (hquiet : Safety.Quiet s.dev)
include hquiet

/-- NOP, WAIT and SIGNAL as commands. -/
theorem plain_commands (hb : h.bad = none) (hz : w.state = 0) (hst : headStatus q w h (takeSlot q s.dev) = (takeSlot q s.dev, .ok [])) :
    (h.opcode = 0 → ∃ t, exec (.nop q) s = .next t ∧ Safety.HeadEnds q (Safety.plainStatus w h s.dev) w h c s.dev t.dev) ∧
    (h.opcode = 1 → reached (fieldLE h.bytes 8 4) (fieldLE h.bytes 16 6) s.dev = true →
      ∃ t, exec (.wait q) s = .next t ∧ Safety.HeadEnds q (Safety.plainStatus w h s.dev) w h c s.dev t.dev) ∧
    (h.opcode = 1 → reached (fieldLE h.bytes 8 4) (fieldLE h.bytes 16 6) s.dev = false → h.slot.isSome = true → h.judged = true → w.refuse = false →
      exec (.wait q) s = .next s) ∧
    (h.opcode = 2 → ∃ t, exec (.signal q) s = .next t ∧ Safety.HeadEnds q (Safety.plainStatus w h s.dev) w h c s.dev t.dev) ∧
    (h.opcode = 1 → reached (fieldLE h.bytes 8 4) (fieldLE h.bytes 16 6) s.dev = false → w.refuse = true → h.seqs = [] →
      ∀ t0, h.slot = some t0 → w.delay = 0 ∨ t0 + 8 * w.delay < clock (qDie q) s.dev →
        ∃ t, exec (.refusalDelayExpiry q) s = .next t ∧ Safety.HeadEnds q 0xE w h c s.dev t.dev) := by
  refine ⟨fun hop => ?_, fun hop hgo => ?_, fun hop hgo hslot hj hrefuse => ?_, fun hop => ?_, fun hop hgo hrefuse hseqs t0 hslot hlate => ?_⟩
  · exact HeadAt.ends hat (exec_nop q s) hop (runHead_nop hat hb hz hst hquiet hop)
  · exact HeadAt.ends hat (exec_wait q s) hop (runHead_wait hat hb hz hst hquiet hop hgo)
  · rw [exec_wait, HeadAt.runs hat hop, runHead_wait_stays hat hb hz hst hop hgo hslot hj hrefuse, localPath_quiet _ hquiet]
  · exact HeadAt.ends hat (exec_signal q s) hop (runHead_signal hat hb hz hst hquiet hop)
  · obtain ⟨hover, hends⟩ := runHead_wait_refused hat hb hz hst hquiet hop hgo hrefuse hseqs hslot hlate
    rw [exec_refusalDelayExpiry, if_pos hover]
    refine ⟨_, rfl, ?_⟩
    dsimp only
    exact hends

/-- An entry that could not be read, as a command. -/
theorem unreadable_command {st : Nat} (hb : h.bad = some st) (hz : w.state = 0) :
    ∃ t, exec (.unreadableEntry q) s = .next t ∧ Safety.HeadEnds q st w h c s.dev t.dev ∧
      (wqAt q t.dev).map WQ.state = some 1 ∧ (wqAt q t.dev).map WQ.firstErr = some (w.ix h.idx) := by
  have hop : h.opcode = 0xFF := by rw [Head.opcode, hb]; rfl
  obtain ⟨hends, v, hv, hstate, hfirst⟩ := runHead_unreadable hat hquiet hb hz
  rw [exec_unreadableEntry, HeadAt.runs hat hop]
  refine ⟨_, rfl, ?_⟩
  dsimp only
  refine ⟨hends, ?_, ?_⟩
  · rw [hv, Option.map_some, hstate]
  · rw [hv, Option.map_some, hfirst]

end Plain

/-- The admission check of a head does what the command of the head's opcode does. -/
theorem admissionCheck_eq {s : State} {q : Nat} {h : Head} (hh : (wqAt q s.dev).bind WQ.head = some h) {op : Nat} (hop : h.opcode = op) :
    exec (.admissionCheck q) s = runHeadOf op q s := by
  rw [← hop, runHeadOf_head hh]
  rfl

/-- The end of a bound as a command (R65, R66, R252). -/
theorem boundExpiry_command {s : State} {q : Nat} {w : WQ} {x : Desc} (ha : Alone q w x s.dev) (hz : w.state = 0) (hcoll : collOf q x.idx s.dev = none) :
    (clock (x.die q) s.dev < x.expiry → exec (.boundExpiry q x.idx) s = .next { s with dev := localPath s.dev }) ∧
    (x.expiry ≤ clock (x.die q) s.dev → ∃ e, exec (.boundExpiry q x.idx) s = .next { s with dev := localPath e } ∧
      (wqAt q e).map WQ.state = some 1 ∧ (wqAt q e).map WQ.firstErr = some (w.ix x.idx) ∧ descAt q x.idx e = none ∧
      ∀ i m, i < 2 → m ∈ (pesAt i e).msgs → m.2.owner ≠ .desc q x.idx) := by
  refine ⟨fun hearly => ?_, fun hlate => ?_⟩
  · have hstays : boundExpiry q x.idx s.dev = s.dev := by
      rw [boundExpiry, ha.expired, decide_eq_false (Nat.not_le_of_lt hearly)]
      rfl
    rw [exec_boundExpiry, hstays]
  · obtain ⟨v, hv, hstate, hfirst, hgone, hmsgs⟩ := ha.boundExpiry hz hcoll hlate
    refine ⟨boundExpiry q x.idx s.dev, exec_boundExpiry .., ?_, ?_, hgone, fun i m hi hm howner => ?_⟩
    · rw [hv, Option.map_some, hstate]
    · rw [hv, Option.map_some, hfirst]
    · exact of_decide_eq_false (hmsgs i hi m hm) howner

/-- Settles O35: a head whose checks hold becomes the one descriptor in flight, and what its end leaves of the queue, the ring, the counters and the memories
is followed through the write of OWN, the entry and the queues that look at their rings. -/
theorem localDescriptorsAndExpiry : Obligations.LocalDescriptorsAndExpiry := by
  refine ⟨⟨fun s q w h c hat hquiet => ?_, fun s q h hh => ?_, fun s r c hc hunseen hold hv ho => ?_⟩,
    fun s q idx w x hw hz hf hfl hidx hdone htile hlo hhi hcoll hfailing => ?_⟩
  · exact ⟨fun hb hz hst => plain_commands hat hquiet hb hz hst, fun st hb hz => unreadable_command hat hquiet hb hz⟩
  · have heq : ∀ op, h.opcode = op → exec (.admissionCheck q) s = runHeadOf op q s := fun _ => admissionCheck_eq hh
    exact ⟨heq _, heq _, heq _, heq _, heq _, heq _, heq _, heq _, heq _, heq _, heq _, heq _, heq _, heq _, heq _, heq _, heq _⟩
  · exact congrArg (fun d => Host.Outcome.next { s with dev := d }) (moderationTimer_raises hc hunseen hold hv ho)
  · subst hidx
    exact boundExpiry_command ⟨hw, hf, hfl, hdone, htile, decide_eq_true ⟨hlo, hhi⟩, hfailing⟩ hz hcoll

end Sys2Proof.Machine
end
